-- ==== Sys2Proof/Word.lean ====
section
/-! DEFINITION. The words of the KX8192: registers and bus words are 32-bit (R23), lane words 64-bit (R112), reports and
events 128-bit (R115, R118), and a byte stream is a list of 8-bit bytes, most significant byte of a field first (R34).
`Fld` names a field of a register by address and bits. -/

namespace Sys2Proof

/-- A register word (R23). -/
abbrev Word := BitVec 32

/-- A byte of a message, a folio or a port frame. -/
abbrev Byte := BitVec 8

namespace Machine

/-- A field of a register: the register's address, the field's least significant bit, and its width. -/
structure Fld where
  addr : Nat
  lsb : Nat
  width : Nat
  deriving DecidableEq, Repr

end Machine
end Sys2Proof
end

