-- ==== Sys2Proof/Machine/Mull.lean ====
section
/-! DEFINITION. The mull set of a region (R228) as data: the plan record, the controller and measurement state of the law, and what
a record of its changes lists (R229). -/

namespace Sys2Proof.Machine

/-- The plan record of Table 8.3a. -/
structure Plan where
  j1 : Nat
  l : Nat
  e : Int
  pol : Bool
  dir : Bool
  hold : Bool
  standing : Bool
  trim : Option Nat
  notch : Bool
  supp : Bool
  dph : Nat
  wout : Nat
  base : List Nat
  carry : Int
  deriving DecidableEq, Repr

/-- Controller state of the law (Table 7.4), with what the last committed run leaves to the next. -/
structure Ctl where
  x0 : Int
  x1 : Int
  x2 : Int
  x3 : Int
  f0 : Bool
  f1 : Bool
  f2 : Bool
  f3 : Bool
  zone : Nat
  mem : List (Nat × Int)
  rP : Int
  rQ : Int
  rVDC : Int
  rVC : Int
  step0 : Nat
  step1 : Nat
  step2 : Nat
  step3 : Nat
  /-- |pph| and U_REF of the last committed run, and whether one exists -/
  pph : Int
  uref : Int
  deriving DecidableEq, Repr

/-- Measurement state of the law (Table 7.4). -/
structure Meas where
  hist : List (Nat × Int)
  s2 : Int
  ibPrev : Option Int
  i1 : Int
  vgRun : Nat
  goodRun : Nat
  enCnt : Nat
  /-- values, and runs without change, of ia, vdc, vg, xa, xp; changes of the demand in the last periods, latest first (R215) -/
  last : List (Int × Int)
  same : List Nat
  dem : List Int
  xFresh : Bool
  deriving DecidableEq, Repr

/-- The mull set of a region (R228, Table 7.4): controller and measurement state, U(j), U(j − 1), U(j − 2) where defined, CSGN, DPH,
dwell carries, the last plan sent, HOLDRUN, the hold counter of R216 and the region state. -/
structure Mull where
  ctl : Ctl
  meas : Meas
  u0 : Option Int
  u1 : Option Int
  u2 : Option Int
  csgn : Bool
  dph : Nat
  carry : List (Nat × Int)
  last : Option Plan
  holdRun : Nat
  fbCnt : Nat
  state : Nat
  deriving DecidableEq, Repr

/-- The changes of a mull set: what a mull record lists (R229). The repetitive memory, the voltage history and the carries list
the entries that changed; `ctl` and `meas` stand without their memories. -/
structure MullChange where
  ctl : Option Ctl
  mem : List (Nat × Int)
  meas : Option Meas
  hist : List (Nat × Int)
  u : Option (Option Int × Option Int × Option Int)
  csgn : Option Bool
  dph : Option Nat
  carry : List (Nat × Int)
  last : Option (Option Plan)
  holdRun : Option Nat
  fbCnt : Option Nat
  state : Option Nat
  deriving DecidableEq, Repr

end Sys2Proof.Machine
end

