-- ==== Sys2Proof/Syntax.lean ====
section
/-! DEFINITION. The commands of the block: one constructor of `Instr` for each row of spec/opcode_table.json, with what the
outside world supplies as operands. Index operands are `Fin` types, so a command always names something the device has
(R4, R6, R10). An operand `tk` is the instant of the event in 2 ns ticks after the boundary of the present period (R35,
R36); before the grid exists it counts from the last known instant. -/

namespace Sys2Proof

/-- The write origins of Table 14.3. -/
inductive Origin where
  | sup | smps | smpm | mp
  deriving DecidableEq, Repr

/-- The supply rails of Table 19.2 whose window R453 watches. -/
inductive Rail where
  | vdd | vdds09 | vdds12 | vddio18 | vddio33 | vdda | vaux
  deriving DecidableEq, Repr

/-- The two PLLs of Table 10.1. -/
inductive Pll where
  | t | s
  deriving DecidableEq, Repr

/-- A PLL whose lock is declared and, where that lock leads to CHECK, what the regulator then answers to the read of VOUT_MODE: `none`
where it cannot be read or its PEC is wrong (R458, R459). -/
structure PllRx where
  pll : Pll
  vout : Option (BitVec 8)
  deriving DecidableEq, Repr

/-- A flash bank as its checks see it (R356): whether it answers with an SFDP that meets R356, its density in bytes, and the
bytes of its image area from offset 0. -/
structure Bank where
  sfdpOk : Bool
  density : Nat
  image : List Byte
  deriving DecidableEq, Repr

/-- A half of a journal area as the flash holds it (R373): its header and its slots up to the last one programmed, each 32 bytes with the
first one most significant. -/
structure JHalf where
  head : BitVec 256
  slots : List (BitVec 256)
  deriving DecidableEq, Repr

/-- The flash of a bank as LOAD finds it (R356): whether it answers, its density, and its image and journal areas where they have been
programmed outside the device since it last had power, `none` where they stand as it left them. -/
structure BankRx where
  sfdpOk : Bool
  density : Nat
  image : Option (List Byte)
  journal : Option (JHalf × JHalf)
  deriving DecidableEq, Repr

/-- How a journal write to a bank goes (R376): what a half reads after an erase that fails, and the writes, counted from 0, that read back
other than they were programmed, with what they read. -/
structure BankWrite where
  erase : Option JHalf
  bad : List (Nat × BitVec 256)
  deriving DecidableEq, Repr

/-- A page of a bank that has been programmed, with what it reads where that is not what it was programmed with (R378). -/
structure PageRx where
  bankB : Bool
  back : Option (List Byte)
  deriving DecidableEq, Repr

/-- A unit class of the repair journal (Table 15.9). -/
inductive UClass where
  | cellEngine | sortSlice | chanElement | sramRow | sramCol | spineGroup
  deriving DecidableEq, Repr

/-- A memory of the device, as Table 11.3 and Table 0.6 divide the SRAM, with the instance where it matters. -/
inductive Memory where
  | recorder (page : Fin 8192)
  | telemetry (n : Fin 8192)
  | cellEngine (n : Fin 8192)
  | channel (g : Fin 8) (c : Fin 3)
  | mullStore (g : Fin 8)
  | buffer (i : Fin 132)
  | supervisor
  deriving DecidableEq, Repr, Inhabited

/-- The outcome of a CHECK unit test: a defect in a unit of a class (R51); `spareBad` says the defect is in a spare that a
journal entry assigned (R52); for SRAM the memory that holds the defect decides the consequence (Table 1.3). -/
structure Defect where
  cls : UClass
  unit : Nat
  spareBad : Bool
  mem : Option Memory
  deriving DecidableEq, Repr

/-- The foreground calibration of one slice (R250): the offset and gain its reference conversions give. -/
structure SliceCal where
  acg : Fin 4
  slice : Fin 9
  ofs : Int
  gain : Int
  deriving DecidableEq, Repr

/-- The header of an Ethernet frame that R404 and R405 test: its destination, its tags (VID), the Ethertype behind them, and its
length. -/
structure EthHdr where
  dst : BitVec 48
  tags : List (BitVec 12)
  typ : BitVec 16
  len : Nat
  deriving DecidableEq, Repr

/-- An IP packet in its frame as R407 tests it: whether it has options or extension headers or is a fragment, its protocol or Next
Header, and whether its header checksum is correct (IPv4). -/
structure IpRx where
  eth : EthHdr
  options : Bool
  fragment : Bool
  next : BitVec 8
  sumOk : Bool
  deriving DecidableEq, Repr

/-- A UDP datagram in its packet as R407 tests it: the address and the UDP port it goes to, whether its checksum is correct, `none` for a
zero checksum, and its arrival stamp at the MAC in ns (R412). -/
structure UdpRx where
  ip : IpRx
  dst : BitVec 128
  port : BitVec 16
  sum : Option Bool
  stamp : Nat
  deriving DecidableEq, Repr

/-- Where a datagram comes from and how it arrives. -/
structure Sender where
  addr : BitVec 128
  rx : UdpRx
  deriving DecidableEq, Repr

/-- The common part of an SMP request (Table 17.3): port and sender, request identifier, the CRC that identifies a duplicate (R412), and
how the datagram arrived. -/
structure Req where
  port : Fin 2
  addr : BitVec 128
  udp : BitVec 16
  rid : BitVec 32
  mcrc : BitVec 32
  rx : UdpRx
  deriving DecidableEq, Repr

/-- The prefix and signature of a maintenance body (R423). -/
structure Auth where
  sid : BitVec 32
  mcnt : BitVec 32
  sigR : Nat
  sigS : Nat
  deriving DecidableEq, Repr

/-- A PTP Announce as the default BMCA reads it (R277): the dataset in comparison order. -/
structure Announce where
  port : Fin 2
  eth : EthHdr
  domain : BitVec 8
  logInterval : Int
  priority1 : BitVec 8
  clockClass : BitVec 8
  accuracy : BitVec 8
  variance : BitVec 16
  priority2 : BitVec 8
  gmId : BitVec 64
  stepsRemoved : BitVec 16
  srcPort : BitVec 80
  utcOfs : BitVec 16
  utcValid : Bool
  deriving DecidableEq, Repr

/-- A PTP time in 2^-16 ns, the unit of the 94-bit time format (R18, R278). -/
abbrev PtpTime := Int

/-- One range of a telemetry read or subscription (R417). -/
structure PointRange where
  first : BitVec 32
  count : BitVec 16
  deriving DecidableEq, Repr

/-- What frames a record of the twin: the twin lane it came on, its period modulo 256, and whether its CRC is correct (R235). -/
structure TwinHdr where
  lane : Fin 2
  period : BitVec 8
  crcOk : Bool
  deriving DecidableEq, Repr

/-- A record of the twin as it arrives. -/
structure TwinRx (α : Type) where
  hdr : TwinHdr
  body : α
  deriving DecidableEq, Repr

/-- What a receiver tells with LOL: whether block lock is lost, the invalid sync headers not yet told, and the tap that has changed
within 10 µs (R136, R147). -/
structure LolSeen where
  lost : Bool
  badHeaders : Nat
  tap : Option (Fin 6)
  deriving DecidableEq, Repr

/-- A block as it arrives: its sync header and its 64 bits (R133). -/
structure RxBlock where
  hdr : BitVec 2
  bits : BitVec 64
  deriving DecidableEq, Repr

/-- Words that the pattern checker of a lane receives (R149). -/
structure PatternRx where
  lane : Fin 130
  words : List (BitVec 64)
  deriving DecidableEq, Repr

/-- An event slot of a quire as it comes back on one of its lanes (R182). -/
structure SlotRx where
  laneB : Bool
  slot : Fin 6
  deriving DecidableEq, Repr

/-- A plan that comes late: its channel, and what a fault has changed in its digest (R225). -/
structure LatePlan where
  c : Fin 3
  upset : BitVec 32
  deriving DecidableEq, Repr

/-- The end of voting in a region, with the channels whose record and scan digests a fault has changed (R226, R229, R230). -/
structure VoteEnd where
  g : Fin 8
  recBad : BitVec 3
  scanBad : BitVec 3
  deriving DecidableEq, Repr

/-- The twin's ARB record (Table 8.6): for each quire named, the EVG word and loss words of frame j + 1. -/
structure ArbRec where
  frame : Nat
  quires : List (Fin 64 × BitVec 64 × BitVec 128)
  deriving DecidableEq, Repr

/-- The twin's STAT record (Table 8.6, R232, R234, R298, R338, R388). -/
structure StatRec where
  role : BitVec 3
  laneActive : List (Fin 128)
  reach : List (Fin 128 × BitVec 8)
  stepPass : List (Fin 128 × BitVec 2)
  folioDigests : BitVec 256
  mullDigests : List (Fin 8 × BitVec 32)
  /-- the filtered edges of its trip inputs in their order, an assertion as true -/
  tripEdges : List (Fin 4 × Bool)
  triggers : List Nat
  chargeAt : Option Nat
  stopAt : Option Nat
  deriving DecidableEq, Repr

/-- The twin's MULL record (Table 8.6): device mode, region states, the mull record of each region and the digest of its mull set,
loss counts of the arbiters by cell number and their pointers, and the staged setpoints of each region as target, value, period
and ramp; while the receiver resynchronises, the mull sets whose segments it brings (R237). -/
structure MullRec where
  mode : BitVec 3
  states : List (Fin 8 × BitVec 3)
  records : List (Fin 8 × Machine.MullChange)
  sets : List (Fin 8 × Machine.Mull)
  digests : List (Fin 8 × BitVec 32)
  loss : List (Fin 8192 × Nat)
  pointers : List (Fin 64 × Nat)
  staged : List (Fin 8 × BitVec 2 × BitVec 32 × Nat × BitVec 16)
  deriving DecidableEq, Repr

/-- The kinds of recorder entry that a source hands to the reorder stage (Table 13.2). -/
structure RecEntry where
  kind : BitVec 4
  late : Bool
  refr : Bool
  src : BitVec 20
  key : Nat
  payload : BitVec 128
  deriving DecidableEq, Repr

/-- What the readback shows of the switches of one side, one bit per output, and the outputs whose node lies between its two thresholds
(R317, R466). -/
structure NodeRx where
  reads : BitVec 2
  between : BitVec 2
  deriving DecidableEq, Repr

/-- A scan of the boundary register (R447): the levels of the balls it captures, by cell, and what it shifts in. -/
structure BoundaryScan where
  balls : BitVec 71
  shift : BitVec 71
  deriving DecidableEq, Repr

/-- The safety switches of a permit output (R316). -/
inductive Switch where
  | high | low
  deriving DecidableEq, Repr

/-- Every command of the block, one constructor per row of spec/opcode_table.json. -/
inductive Instr where
  -- power, start-up, mode
  | resetRelease
  | powerCycle
  | supplyOutOfWindow (rail : Rail)
  | resetNLow
  | vbatLoss
  | vauxOutOfRange
  | imageLoadComplete (a b : BankRx)
  | pllLock (p : PllRx)
  | checkComplete (pass : Bool) (defects : List Defect) (cal : List SliceCal)
  | idleEntry
  | twinActiveDecision
  | chargeEntry
  | restartFromBlock
  | deblockEffect
  | chargeTimeout
  | periodBoundary
  | spareTakeover
  -- cell engines
  | suspectTimeout (n : Fin 8192)
  | reportReceived (n : Fin 8192) (laneB : Bool) (raw : BitVec 128) (tk : Nat)
  | blockConfirmExpiry (g : Fin 8)
  | estimatorWindowEnd (n : Fin 8192)
  | ceRelease (o : Origin) (n : Fin 8192)
  | ceForceBypass (o : Origin) (n : Fin 8192)
  | diagGo (o : Origin) (n : Fin 8192) (code : BitVec 4) (inrun : Bool) (arg : BitVec 16)
  | diagTimeout (n : Fin 8192)
  | ceRep0Read (o : Origin) (n : Fin 8192)
  | lowHalfRead (o : Origin) (addr : BitVec 32)
  -- planning
  | reportDeadline (g : Fin 8)
  | gatheringDelivered (q : Fin 64) (tk : Nat)
  | unitRunComplete (cls : Fin 6) (unit : Nat) (ts td tdl : Nat)
  | gatherDeadline (g : Fin 8)
  | runaheadPlan (g : Fin 8) (c : Fin 3) (upset : BitVec 32)
  | planDeadline (g : Fin 8)
  | commitPoint (g : Fin 8)
  | regatherDeadline (g : Fin 8)
  | recompute (g : Fin 8) (c : Fin 3) (upset : BitVec 32)
  | recomputeDeadline (g : Fin 8)
  | recomputeVote (g : Fin 8)
  | latePlanArrival (g : Fin 8) (p : LatePlan)
  | voteDeadline (v : VoteEnd)
  | modHalt (o : Origin) (g : Fin 8)
  | modHaltEnd (o : Origin) (g : Fin 8) (tk : Nat)
  | lawRun (g : Fin 8) (c : Fin 3)
  | lawDeadline (g : Fin 8)
  -- channels and twin
  | channelSelfCheckFail (g : Fin 8) (c : Fin 3) (cause : Fin 4)
  | channelSelfTestDone (g : Fin 8) (c : Fin 3) (bad : List (Fin 18))
  | resyncCopyDone (g : Fin 8) (c : Fin 3)
  | resyncCheckDone (g : Fin 8) (c : Fin 3)
  | twinArbRx (r : TwinRx ArbRec)
  | twinMullRx (m : TwinRx MullRec)
  | twinStatRx (r : TwinRx StatRec) (tk : Nat)
  | tgivRx
  | twinRecordTimeout
  | mullTimeout
  | twinResyncDone
  | secondActiveDetect
  -- lanes
  | losAssert (l : Fin 130)
  | losDeassert (l : Fin 130)
  | lolDetect (l : Fin 130) (x : LolSeen)
  | eqTapHoldEnd (l : Fin 130)
  | blockLockHeld (l : Fin 130)
  | acquireTimeout (l : Fin 130)
  | fastrtTimeout (l : Fin 130)
  | fastrtRelock (l : Fin 130)
  | failedRetry (l : Fin 130)
  | laneRetrain (o : Origin) (l : Fin 130)
  | laneReacq (o : Origin) (l : Fin 130)
  | laneTxSleep (o : Origin) (l : Fin 130)
  | laneTxWake (o : Origin) (l : Fin 130)
  | laneRxSleep (o : Origin) (l : Fin 130)
  | laneRxWake (o : Origin) (l : Fin 130)
  | rateStepPass (l : Fin 130)
  | rateStepFail (l : Fin 130)
  | idleBlockRx (l : Fin 130) (block : BitVec 64)
  | originChange (l : Fin 130)
  | controlBlockDiscard (l : Fin 130) (block : RxBlock)
  | prbsGenEnable (o : Origin) (l : Fin 130) (pat : BitVec 3)
  | prbsChkEnable (o : Origin) (l : Fin 130) (pat : BitVec 3)
  | prbsInjectOne (o : Origin) (l : Fin 130)
  | prbsInjectRate (o : Origin) (l : Fin 130) (rate : BitVec 4)
  | prbsCheckerLock (x : PatternRx)
  | tmxResponse (l : Fin 130) (tag : BitVec 4) (pos : Fin 128) (res : BitVec 16) (trx : Nat)
  | tmxResponseTimeout (l : Fin 130) (tag : BitVec 4)
  | tmxE2eStamp (l : Fin 130) (delay : Nat)
  -- framing
  | frameCollectionPoint (q : Fin 64)
  | frameDeadlineMiss (q : Fin 64)
  | frameRelease (q : Fin 64) (depA depB : Nat)
  | hopBlockRx (l : Fin 128) (hopcnt : BitVec 8)
  | reachUpdate (q : Fin 64) (endB : Bool)
  | budgetAchieved (q : Fin 64)
  | requestWordsRx (q : Fin 64) (window : BitVec 8) (words : BitVec 256)
  | eventRecordRx (q : Fin 64) (slot : SlotRx) (fseq : BitVec 8) (record : Option (BitVec 128)) (tk : Nat)
  -- measurement
  | adcSlotStart (a : Fin 4)
  | conversionComplete (a : Fin 4) (code outCode : BitVec 12)
  | calibrationStepEnd (a : Fin 4)
  | sliceSwap (a : Fin 4)
  | periodRecordClose (a : Fin 4) (inTime : Bool)
  | windowRecordClose (i : Fin 32)
  | adQloRead (o : Origin)
  | accumSumloRead (o : Origin) (i : Fin 32) (window : Bool)
  | adInjGo (o : Origin) (a : Fin 4) (input : BitVec 3)
  -- clocks and time
  | referenceLost
  | referenceQualified
  | pllUpdate (o : Origin) (p : Pll)
  | pllBandSearchDone (p : Pll) (band : BitVec 6)
  | pllLockFail (p : Pll)
  | pllLossOfLock (p : Pll)
  | pllPhaseSteps (o : Origin) (steps : BitVec 8)
  | timebaseAlignStep
  | tmIncrWrite (o : Origin) (corr : BitVec 32)
  | tmAdjWrite (o : Origin) (ofs : BitVec 32)
  | jumpRequest (o : Origin) (jlo : BitVec 32)
  | tmNow0Read (o : Origin)
  | ptpAnnounceRx (m : Announce)
  | ptpSyncRx (port : Fin 2) (eth : EthHdr) (domain : BitVec 8) (logInterval : Int) (twoStep : Bool) (seq : BitVec 16)
      (origin : PtpTime) (corr : PtpTime) (rx : PtpTime)
  | ptpFollowUpRx (port : Fin 2) (eth : EthHdr) (domain : BitVec 8) (seq : BitVec 16) (origin : PtpTime) (corr : PtpTime)
  | ptpPdelayReqRx (port : Fin 2) (eth : EthHdr) (domain : BitVec 8) (seq : BitVec 16) (src : BitVec 80)
      (rx tx : PtpTime)
  | ptpPdelayRespRx (port : Fin 2) (eth : EthHdr) (domain : BitVec 8) (seq : BitVec 16) (followUp : Bool)
      (t : PtpTime) (corr : PtpTime) (rx : PtpTime)
  | ptpPdelayReqSend (port : Fin 2) (tx : PtpTime)
  | ptpIgnoredMessage (port : Fin 2)
  | ptpReceiptTimeout (masterLost : Bool)
  | holdoverExpiry
  | todWriteback
  -- faults
  | protectiveOverride (tk : Nat)
  | tripInputAssert (x : Fin 4) (tk : Nat)
  | tripInputDeassert (x : Fin 4) (tk : Nat)
  | faultInject (o : Origin) (target : BitVec 4) (double : Bool) (inst : BitVec 13)
  | spineCrcError (link : Nat) (retryFails spareFails priority1 : Bool)
  | sramEccError (mem : Memory) (double : Bool) (row : Nat) (scrub : Bool)
  | sramScrub
  | tjSensorUpdate (tj : BitVec 13)
  | tjTripTimeout
  -- fabric
  | evalWindowEnd
  | avsAck
  | avsTimeout
  | marginHoldoffEnd
  | journalWrite (a b : BankWrite)
  -- safety
  | safetyCycle (crcOk : Bool) (hrb lrb : NodeRx)
  | safetyInputFilter (i : Fin 8) (chB : Bool) (level : Bool)
  | safetyResetFilter (chB : Bool) (level : Bool)
  | resetHoldTimeout
  | discrepancyTimeout (i : Fin 8)
  | readbackMismatch (x : Fin 2) (sw : Switch)
  | permitTest (x : Fin 2)
  -- recorder
  | recorderEntryIn
  | recorderEntryWrite
  | recordComplete
  | recordPostmaxExpiry
  | recorderGapEntry
  | drArm (o : Origin)
  | drForce (o : Origin)
  | drDisarm (o : Origin)
  | drRel (o : Origin) (mask : BitVec 16)
  | xtrigAssert (x : Fin 2) (tk : Nat)
  | xtrigPulseEnd (x : Fin 2)
  | recorderWord0Read (o : Origin) (slot : Fin 1048576)
  -- supervisors
  | supervisorWatchdog (sv : Fin 4)
  | supervisorRestartDone (sv : Fin 4)
  | taskWaitTimeout (sv : Fin 4)
  -- network and SMP
  | netLinkUp (x : Fin 2)
  | netLinkDown (x : Fin 2)
  | arpRequestRx (x : Fin 2) (eth : EthHdr) (target : BitVec 32) (senderMac : BitVec 48) (senderIp : BitVec 32)
  | neighbourSolicitationRx (x : Fin 2) (ip : IpRx) (target : BitVec 128) (senderMac : BitVec 48) (senderIp : BitVec 128)
  | icmpEchoRequest (x : Fin 2) (ip : IpRx) (v6 : Bool) (src dst : BitVec 128) (data : List Byte)
  | smpInvalidDatagram (x : Fin 2) (sender : Sender) (udp : BitVec 16) (payload : List Byte)
  | setpt (r : Req) (target : BitVec 8) (ramp : BitVec 16) (value : BitVec 32) (ja : BitVec 32) (tk : Nat)
  | cmdCharge (r : Req) (tk : Nat)
  | cmdStop (r : Req) (tk : Nat)
  | cmdDeblock (r : Req) (mask : BitVec 8) (tk : Nat)
  | cmdBlock (r : Req) (mask : BitVec 8) (tk : Nat)
  | tread (r : Req) (ranges : List PointRange)
  | tsub (r : Req) (subid : BitVec 8) (intv : BitVec 16) (ranges : List PointRange) (tk : Nat)
  | tunsub (r : Req) (subid : BitVec 8)
  | subscriptionDelivery (subid : Fin 32) (inTime : Bool)
  | eventMessageSend
  | statusSend
  | mopen (r : Req) (challenge : BitVec 128)
  | mauth (r : Req) (au : Auth)
  | mread (r : Req) (sid mcnt : BitVec 32) (addr : BitVec 32) (nw : BitVec 16)
  | mwrite (r : Req) (au : Auth) (addr : BitVec 32) (words : List Word)
  | iopen (r : Req) (au : Auth) (sfdpOk : Bool) (density : Nat)
  | idata (r : Req) (sid mcnt : BitVec 32) (offset : BitVec 32) (data : List Byte)
  | mclose (r : Req) (au : Auth)
  | sessionTimeout
  | imageEraseDone
  | imageVerifyDone
  -- maintenance port and JTAG
  | mpRead (frame : List Byte)
  | mpWrite (frame : List Byte)
  | mpIdread
  | mpFrameAbort
  | jtagTrst
  | jtagExtest (scan : BoundaryScan)
  | jtagSamplePreload (balls : BitVec 71) (preload : BitVec 71)
  | jtagIdcode
  | jtagClamp
  | jtagHighz
  | jtagBypass (opcode : BitVec 8)
  | jtagKeyrd
  | jtagKeyprog (hash : BitVec 256) (slot : Bool) (conf : BitVec 7)
  | jtagKeyrev (conf : BitVec 8)
  | keyFuseDone (readback : BitVec 256)
  -- generic register write and the rows added after it
  | registerWrite (o : Origin) (addr : BitVec 32) (word : Word)
  | blockLockAcquired (l : Fin 130)
  | xtrigDeassert (x : Fin 2) (tk : Nat)
  | tmxRequestRx (x : Fin 2) (tag : BitVec 4) (res : BitVec 16)
  | trnBlockRx (x : Fin 2) (step : BitVec 2)
  | arpReplyRx (x : Fin 2) (eth : EthHdr) (senderMac : BitVec 48) (senderIp : BitVec 32)
  | neighbourAdvertisementRx (x : Fin 2) (rx : IpRx) (mac : BitVec 48) (ip : BitVec 128)
  | arpCacheExpiry (x : Fin 2) (ip : BitVec 32)
  | pageProgramDone (page : PageRx) (erase : Bool)
  | testWidthEnd (x : Fin 2)
  deriving DecidableEq, Repr

end Sys2Proof
end

