-- ==== Sys2Proof/Decode.lean ====
section
/-! DEFINITION. The words of the opcode table: it gives no row any bits (each command is an event with operands, not a word). -/

namespace Sys2Proof

/-- The command that a word of the table spells: none. Log entry 77 (DESIGN CHOICE). -/
def decodeTableWord (_nbits _w : Nat) : Option Instr := none

end Sys2Proof
end

