-- ==== Sys2Proof/Config.lean ====
section
/-! DEFINITION. What the manual leaves open: constants without a body, so that nothing in Lean can know their values. Each has
a log entry. -/

namespace Sys2Proof.Config

/-- Sign with which PHSCNT counts a step that advances an edge (R269, R271 give none). Log entry 12 (DESIGN CHOICE). -/
opaque phaseAdvance : Bool

/-- What the VBAT counter has advanced while the main supplies were off before power-up number `cyc`, in 2^-32 ns (R276).
Log entry 13 (DESIGN CHOICE). -/
opaque vbatElapsed (cyc : Nat) : Nat

/-- The die identity of GL_UIDLO and GL_UIDHI (R450). Log entry 14 (DESIGN CHOICE). -/
opaque dieId : BitVec 64

/-- Penzodex's firmware key, whose hash lies in the mask ROM (R367). Log entry 15 (DESIGN CHOICE). -/
opaque fwKeyX : Nat
/-- Log entry 15 (DESIGN CHOICE). -/
opaque fwKeyY : Nat

/-- Session identifier number `i` of a power cycle (R422). Log entry 16 (DESIGN CHOICE). -/
opaque sessionId (cyc i : Nat) : Nat

/-- How many reads and maintenance-port frames of power-up number `cyc` come within the first millisecond after reset release, in which
the device serves none (R437, R438; no command carries that instant). Log entry 100 (DESIGN CHOICE). -/
opaque earlyReads (cyc : Nat) : Nat

/-- How many scans come while JTAG_TRST_N is still low after it has gone low for time number `i` of a power-up (R446; no command tells
when it rises). Log entry 101 (DESIGN CHOICE). -/
opaque trstScans (cyc i : Nat) : Nat

/-- The regions whose traffic crosses a lost spine link (R47 does not state them). Log entry 17 (DESIGN CHOICE). -/
opaque linkRegions (link : Nat) : BitVec 8

/-- The wire group that a link replaced by its spare (R47, Table 15.9; the manual does not say which failed).
Log entry 17 (DESIGN CHOICE). -/
opaque wireGroup (link : Nat) : Fin 16

/-- The element of a channel that a ladder step replaces (R57 step 3; the manual does not say which one is slow).
Log entry 92 (DESIGN CHOICE). -/
opaque slowElement (channel : Nat) : Fin 16

/-- The memory that holds an SRAM row of the journal (Table 15.9 gives its macro; the manual does not say which memory a macro
belongs to). Log entry 92 (DESIGN CHOICE). -/
opaque rowMemory (unit : Nat) : Memory

/-- The frequency correction that the firmware servo writes at a Sync (R279 gives no algorithm), by power cycle and count of Syncs.
Log entry 90 (DESIGN CHOICE). -/
opaque servoCorr (cyc sync : Nat) : BitVec 32

/-- The SRAM row that holds the word an injection reaches in a memory, as the scrub pass that finds it sees it. Log entry 63 (DESIGN
CHOICE). -/
opaque memoryRow (m : Memory) (pass : Nat) : Nat

/-- SRAM macros that have an unused spare row after CHECK (FB_SPARE.SRAMROW; R48 gives no number of macros).
Log entry 18 (DESIGN CHOICE). -/
opaque sramMacros (cyc : Nat) : Nat

/-- Digest of a mull record (R229), over the device's own layout. Log entry 19 (DESIGN CHOICE). -/
opaque recordDigest (x : Machine.MullChange) : BitVec 32

/-- Digest of a mull set (Table 8.6), over the device's own layout. Log entry 19 (DESIGN CHOICE). -/
opaque mullDigest (m : Machine.Mull) : BitVec 32

/-- The segment of a mull set of `nseg` segments that holds an item (R228). Log entry 19 (DESIGN CHOICE). -/
opaque mullSegment (item nseg : Nat) : Nat

/-- Length in data blocks and CRC-32C of a twin record, whose payload is internal to the device (R235), by KIND and period.
Log entry 91 (DESIGN CHOICE). -/
opaque twinLength (kind period : Nat) : BitVec 16
/-- Log entry 91 (DESIGN CHOICE). -/
opaque twinCrc (kind period : Nat) : BitVec 32

/-- The equaliser codes of a lane after `gen` adaptations (R147): they follow the received signal.
Log entry 20 (DESIGN CHOICE). -/
opaque eqTaps (lane gen : Nat) : BitVec 28

/-- Start of the pattern generator of a lane when it is enabled, of which R148 says nothing. Log entry 93 (DESIGN CHOICE). -/
opaque prbsSeed (lane gen : Nat) : BitVec 31

/-- The bit that an injection inverts, by lane and by the bits generated before (R149 does not say which). Log entry 93
(DESIGN CHOICE). -/
opaque prbsBit (lane bits : Nat) : Fin 64

/-- TOFS of a sample instant that lies more than 65,535 ticks after the boundary of its period (Table 9.2 gives it 16 bits).
Log entry 95 (DESIGN CHOICE). -/
opaque tofsBeyond (off : Nat) : BitVec 16

/-- A quotient by zero in the law (nu, isr of R203 with VPKMIN = 0 and an empty history), by its numerator.
Log entry 21 (DESIGN CHOICE). -/
opaque divZero (num : Int) : Int

end Sys2Proof.Config
end

