-- ==== Sys2Proof/Machine/Arith.lean ====
section
/-! DEFINITION. The arithmetic of the manual: rounding to nearest with ties away from zero and saturation (R33), signed
readings of fields (R32), the truncating square root of chapter 7, bit reversal of chapters 3 and 6, the CRC-8 of cell words
and the CRC-32C of R223, and bytes of multi-byte fields, most significant first (R34). -/

namespace Sys2Proof.Machine

/-- Quotient rounded to nearest, ties away from zero (R33). -/
def rdiv (a : Int) (b : Nat) : Int :=
  if b = 0 then 0
  else if 0 ≤ a then Int.ofNat ((2 * a.toNat + b) / (2 * b))
  else -(Int.ofNat ((2 * (-a).toNat + b) / (2 * b)))

/-- `rdiv` by a signed divisor. -/
def rdivI (a b : Int) : Int := if 0 ≤ b then rdiv a b.toNat else rdiv (-a) (-b).toNat

/-- Quotient rounded up. -/
def ceilDiv (a b : Nat) : Nat := if b = 0 then 0 else (a + b - 1) / b

/-- Saturation to an interval. -/
def satI (x lo hi : Int) : Int := if x < lo then lo else if hi < x then hi else x

/-- Saturation to a signed format of `w` bits. -/
def satS (w : Nat) (x : Int) : Int := satI x (-(2 ^ (w - 1) : Nat)) ((2 ^ (w - 1) : Nat) - 1)

/-- Saturation to an unsigned format of `w` bits. -/
def satU (w : Nat) (x : Int) : Nat := (satI x 0 ((2 ^ w : Nat) - 1)).toNat

/-- A field of `w` bits read as two's complement (R32). -/
def toS (w n : Nat) : Int := if n % 2 ^ w < 2 ^ (w - 1) then (n % 2 ^ w : Nat) else (n % 2 ^ w : Nat) - (2 ^ w : Nat)

/-- The two's complement code of a value in `w` bits. -/
def ofS (w : Nat) (x : Int) : Nat := (x % (2 ^ w : Nat)).toNat

/-- Absolute value of an integer as a natural number. -/
def absN (x : Int) : Nat := x.natAbs

/-- Largest `r` below `2 ^ b` extended bit by bit with `r * r ≤ n`. -/
def isqrtAux (n : Nat) : Nat → Nat → Nat
  | 0, r => r
  | b + 1, r => let c := r + 2 ^ b; isqrtAux n b (if c * c ≤ n then c else r)

/-- Truncated square root of a value of up to 128 bits (chapter 7). -/
def isqrt (n : Nat) : Nat := isqrtAux n 64 0

/-- Bit reversal of `w` bits. -/
def bitrev (w n : Nat) : Nat := (List.range w).foldl (fun acc i => acc * 2 + (n / 2 ^ i) % 2) 0

/-- Number of ones among the low `w` bits. -/
def popcount (w n : Nat) : Nat := (List.range w).foldl (fun acc i => acc + (n / 2 ^ i) % 2) 0

/-- Bits `[lo + w - 1 : lo]` of a number. -/
def bitsOf (n lo w : Nat) : Nat := n / 2 ^ lo % 2 ^ w

/-- Bit `i` of a number. -/
def bitOf (n i : Nat) : Bool := n / 2 ^ i % 2 == 1

/-- A Boolean as a bit. -/
def b2n (b : Bool) : Nat := if b then 1 else 0

/-- Number with bit `i` set. -/
def setBit (n i : Nat) : Nat := if bitOf n i then n else n + 2 ^ i

/-- Number with bit `i` clear. -/
def clrBit (n i : Nat) : Nat := if bitOf n i then n - 2 ^ i else n

/-- The counter saturating at the top of `w` bits. -/
def satInc (w n k : Nat) : Nat := min (n + k) (2 ^ w - 1)

/-- One bit of a CRC register of `w` bits, most significant bit first. -/
def crcStep (w poly : Nat) (crc : Nat) (b : Bool) : Nat :=
  let top := bitOf crc (w - 1) != b
  let sh := crc * 2 % 2 ^ w
  if top then sh ^^^ poly else sh

/-- The low `n` bits of a value, most significant first. -/
def bitsMsb (n v : Nat) : List Bool := ((List.range n).map (fun i => bitOf v i)).reverse

/-- CRC-8 with polynomial 0x2F, initial value 0xFF and final XOR 0xFF over the low `n` bits, high bit first (R112). -/
def crc8 (n v : Nat) : Nat := (bitsMsb n v).foldl (crcStep 8 0x2F) 0xFF ^^^ 0xFF

/-- One bit of the reflected CRC-32C register (polynomial 0x1EDC_6F41 reflected is 0x82F6_3B78). -/
def crc32cBit (crc : Nat) : Nat := if crc % 2 = 1 then (crc / 2) ^^^ 0x82F63B78 else crc / 2

/-- One byte of the reflected CRC-32C register. -/
def crc32cByte (crc : Nat) (b : Byte) : Nat :=
  crc32cBit (crc32cBit (crc32cBit (crc32cBit (crc32cBit (crc32cBit (crc32cBit (crc32cBit (crc ^^^ b.toNat))))))))

/-- CRC-32C: polynomial 0x1EDC_6F41, reflected, initial value and final XOR 0xFFFF_FFFF (R223). -/
def crc32c (bs : List Byte) : Nat := bs.foldl crc32cByte 0xFFFFFFFF ^^^ 0xFFFFFFFF

/-- The bytes of a number of `n` bytes, most significant first (R34). -/
def bytesBE (n v : Nat) : List Byte := (List.range n).map fun i => BitVec.ofNat 8 (v / 256 ^ (n - 1 - i))

/-- The number that bytes spell, most significant first (R34). -/
def natBE (bs : List Byte) : Nat := bs.foldl (fun acc b => acc * 256 + b.toNat) 0

/-- The number that `n` bytes at an offset spell. -/
def fieldBE (bs : List Byte) (off n : Nat) : Nat := natBE ((bs.drop off).take n)

/-- Left fold over the numbers below `n`, in rising order. -/
def foldN {α : Type} (n : Nat) (f : α → Nat → α) (a : α) : α := (List.range n).foldl f a

/-- Replace element `i` of a list. -/
def listSet {α : Type} : List α → Nat → α → List α
  | [], _, _ => []
  | _ :: t, 0, v => v :: t
  | x :: t, i + 1, v => x :: listSet t i v

end Sys2Proof.Machine
end

