-- ==== Sys2Proof/Machine/Maps.lean ====
section
/-! DEFINITION. Sparse maps: a list of (key, value) pairs with keys strictly rising and no value equal to what the key
reads as when it is not listed. Registers, telemetry points, recorder slots and the per-instance parts of the state are
such maps, so equal contents are equal lists. -/

namespace Sys2Proof.Machine

/-- The value listed under a key. -/
def smLook {α : Type} : List (Nat × α) → Nat → Option α
  | [], _ => none
  | (a, v) :: m, k => if a = k then some v else smLook m k

/-- The value of a key: the listed one, else the default of that key. -/
def smGet {α : Type} (dflt : Nat → α) (m : List (Nat × α)) (k : Nat) : α :=
  match smLook m k with
  | some v => v
  | none => dflt k

/-- The map with a key no longer listed. -/
def smErase {α : Type} : List (Nat × α) → Nat → List (Nat × α)
  | [], _ => []
  | (a, v) :: m, k => if a = k then smErase m k else (a, v) :: smErase m k

/-- The map with a key listed under a value, at its place in the order. -/
def smInsert {α : Type} : List (Nat × α) → Nat → α → List (Nat × α)
  | [], k, v => [(k, v)]
  | (a, w) :: m, k, v =>
    if k < a then (k, v) :: (a, w) :: m
    else if k = a then (k, v) :: m
    else (a, w) :: smInsert m k v

/-- The map with a key set to a value; a value that the key reads as unlisted removes the entry. -/
def smSet {α : Type} [DecidableEq α] (dflt : Nat → α) (m : List (Nat × α)) (k : Nat) (v : α) : List (Nat × α) :=
  if v = dflt k then smErase m k else smInsert m k v

/-- Every key of the map is above `lo`, keys rise strictly, and no entry equals the default of its key. -/
def smOrdered {α : Type} [DecidableEq α] (dflt : Nat → α) : Option Nat → List (Nat × α) → Bool
  | _, [] => true
  | lo, (a, v) :: m =>
    (match lo with
     | none => true
     | some l => decide (l < a)) && decide (v ≠ dflt a) && smOrdered dflt (some a) m

/-- The canonical form of a sparse map. -/
def smWf {α : Type} [DecidableEq α] (dflt : Nat → α) (m : List (Nat × α)) : Bool := smOrdered dflt none m

end Sys2Proof.Machine
end

