-- ==== Sys2Proof/Machine/Parts.lean ====
section
/-! DEFINITION. The parts of the state that are not registers: what the spec gives the time and clock units, fault
collection, the recorder, the supervisors and the network, the flash and the fuses, each as plain data. -/

namespace Sys2Proof.Machine

/-- A 66-bit block before scrambling: a control block (sync header 0b10) or a data block (0b01), and its 64 bits (R133). -/
structure Block where
  ctl : Bool
  word : BitVec 64
  deriving DecidableEq, Repr

/-- What a twin record carries (Table 8.6). -/
inductive TwinLoad where
  | arb (r : ArbRec)
  | mull (r : MullRec)
  | stat (r : StatRec)
  /-- the words of a test pattern in place of a record (R148) -/
  | pattern (words : List (BitVec 64))
  deriving DecidableEq, Repr

/-- What a port puts before what it sends (R404, R405): its own MAC address, the address of the destination, `none` while it is being
resolved, and the tag (VID and PCP) where it tags. -/
structure FrameHdr where
  src : BitVec 48
  dst : Option (BitVec 48)
  tag : Option (BitVec 12 × BitVec 3)
  deriving DecidableEq, Repr

/-- The frame and the IP header of a packet the device sends (R407): own address, DSCP, TTL or Hop Limit, DF (IPv4). -/
structure PacketHdr where
  frame : FrameHdr
  src : BitVec 128
  dscp : BitVec 6
  ttl : Nat
  df : Bool
  deriving DecidableEq, Repr

/-- The headers of a UDP datagram the device sends: its packet, its own UDP port, and its checksum (R407). -/
structure UdpHdr where
  packet : PacketHdr
  sport : Nat
  sum : BitVec 16
  deriving DecidableEq, Repr

/-- What the device sends to a partner. The list of them in the state is the record of what has left the device. -/
inductive Sent where
  /-- An SMP message: port, headers, destination address and UDP port, UDP payload (R407, R409). -/
  | smp (port : Nat) (hdr : UdpHdr) (addr : BitVec 128) (udp : Nat) (bytes : List Byte)
  /-- Answers of the Internet layers (R407): ARP reply, neighbour advertisement, echo reply, and their requests. -/
  | arpReply (port : Nat) (hdr : FrameHdr) (ip : BitVec 32)
  | arpRequest (port : Nat) (hdr : FrameHdr) (ip : BitVec 32)
  | neighbourAdv (port : Nat) (hdr : PacketHdr) (ip : BitVec 128)
  | neighbourSol (port : Nat) (hdr : PacketHdr) (ip : BitVec 128)
  | echoReply (port : Nat) (hdr : PacketHdr) (dst : BitVec 128) (data : List Byte)
  /-- PTP messages (Table 10.4): the request, the two-step response with its receive time, its follow-up. -/
  | pdelayReq (port : Nat) (hdr : FrameHdr) (seq : Nat)
  | pdelayResp (port : Nat) (hdr : FrameHdr) (seq : Nat) (dst : BitVec 80) (rx : Int)
  | pdelayRespFollowUp (port : Nat) (hdr : FrameHdr) (seq : Nat) (dst : BitVec 80) (tx : Int)
  /-- A maintenance-port response (R440, R442). -/
  | mp (bytes : List Byte)
  /-- A frame of a quire lane: its period, then its blocks up to the fill, by Table 6.2 (R158). -/
  | frame (l : Nat) (j : Nat) (blocks : List Block)
  /-- Blocks on a lane over and over: so many times, or until the next of the lane. -/
  | run (l : Nat) (blocks : List Block) (times : Option Nat)
  /-- A control block on a lane. -/
  | laneBlock (l : Nat) (block : BitVec 64)
  /-- A control block in place of block `i` of the fill of the present frame (R163). -/
  | inFill (l : Nat) (i : Nat) (block : BitVec 64)
  /-- Electrical idle on the transmit direction of a lane (R131), or no block any more for want of its clock (R267). -/
  | quiet (l : Nat)
  /-- A twin record between its TSOR and TEOR (R235). -/
  | twinRec (l : Nat) (tsor : BitVec 64) (load : TwinLoad) (teor : BitVec 64)
  /-- The erase of a bank's image area starts (R378 step 1); the Bool says bank B. -/
  | imgErase (bankB : Bool)
  /-- A page of a bank's image area has been programmed, from a byte offset on (R378 step 3). -/
  | imgProgram (bankB : Bool) (offset : Nat) (bytes : List Byte)
  /-- The first 4 KiB sector of a bank is erased after a failed verification (R378 step 5). -/
  | imgSectorErase (bankB : Bool)
  /-- A read of VOUT_MODE on the AVS link, up to the address that asks for its answer (R458). -/
  | voutMode (bytes : List Byte)
  /-- A VOUT_COMMAND on the AVS link: the target code of Table 1.7 and the bytes of the transaction (R458). -/
  | avs (code : Nat) (bytes : List Byte)
  /-- What a JTAG data register captures: its length in bits and its value (Table 18.9). -/
  | jtag (bits : Nat) (value : Nat)
  deriving DecidableEq, Repr

/-- A PLL: its active divider set, where its lock sequence stands, and what waits (R264, R265, R268, R269). -/
structure PllSt where
  refm : Nat
  nint : Nat
  nfrac : Nat
  /-- 0 no sequence, 1 band search, 2 phase lock, 3 locked -/
  seq : Nat
  updPend : Bool
  /-- PLL-S: signed phase steps queued, and ticks until the next may be taken (R269) -/
  steps : Int
  stepGap : Nat
  deriving DecidableEq, Repr

/-- A PTP port (R277-R279): the best Announce heard, the Sync that awaits its Follow_Up, and the peer delay. -/
structure PtpPort where
  master : Option Announce
  syncSeq : Option (BitVec 16 × Int × Int)
  reqSeq : Nat
  reqTx : Int
  respSeen : Option Int
  pdly : Int
  deriving DecidableEq, Repr

/-- Periods in a row on one grid: the index of the first and of the last, the boundary of the first and the length between boundaries in
ticks, and how many periods of the device came before the first. -/
structure Era where
  first : Nat
  last : Nat
  start : Nat
  len : Nat
  ord : Nat
  deriving DecidableEq, Repr

/-- The timebase, the grid of periods, the PLLs and the servo (chapter 10). -/
structure TimeSt where
  /-- station time of the present tick in 2^-32 ns -/
  label : Nat
  /-- slew remaining, 2^-32 ns -/
  slew : Int
  /-- the grid of periods has started -/
  grid : Bool
  /-- index of the present period, from the PTP epoch -/
  jAbs : Nat
  /-- start of the present period, 2 ns ticks -/
  bj : Nat
  /-- length of the present period in ticks by the control period in effect -/
  tTicks : Nat
  /-- end of the gap period, ticks (R274) -/
  gapEnd : Option Nat
  jumpHi : Nat
  jumpReq : Option Int
  /-- the PLL folio has been applied (R383) -/
  pllLoaded : Bool
  pllT : PllSt
  pllS : PllSt
  port0 : PtpPort
  port1 : PtpPort
  /-- serving master's identity, if one is selected -/
  gm : Option (BitVec 64)
  lockRun : Nat
  badRun : Nat
  /-- the servo's offset has the magnitude of a jump (cause of JUMPREF) -/
  ofsBig : Bool
  /-- the last periods with the numbers and boundaries they had, latest first (R169) -/
  eras : List Era
  /-- the period that has just ended was a gap period (R274) -/
  gapWas : Bool
  deriving DecidableEq, Repr

/-- One event of R420; address 0xFFFF_FFFF marks a gap entry. -/
structure EvEntry where
  addr : Nat
  bit : Nat
  cls : Nat
  stamp : Nat
  deriving DecidableEq, Repr

/-- Fault collection (chapter 11). -/
structure FaultSt where
  /-- PROTECTIVE flags set whose override has not yet become active: the region mask of each, and device scope (R293) -/
  prots : List Nat
  protDev : Bool
  /-- a STOP source has set in this step (R302) -/
  stopReq : Bool
  /-- filtered trip inputs of the device itself and those its twin relays (R298) -/
  tripOwn : Nat
  tripRel : Nat
  /-- edges to relay in the next STAT record, in their order, an assertion as true -/
  relEdges : List (Fin 4 × Bool)
  /-- injection accepted and not yet consumed: target, double, instance (R303) -/
  inj : Option (Nat × Bool × Nat)
  /-- the memory that holds the word stored with inverted check bits, once one has been written (R304) -/
  injAt : Option Memory
  /-- links lost: region mask of each is in FC_LINKRG; the hot junction condition of TJHI -/
  tjHot : Bool
  /-- the regulator does not acknowledge (R58) -/
  avsBad : Bool
  /-- events waiting for station control (R420) -/
  evq : List EvEntry
  evLost : Nat
  evLostAt : Nat
  /-- the event of EVOVF follows the gap entry that is still owed -/
  evOvf : Bool
  rsvRun : List (Nat × Nat)
  /-- refused writes of MP and SMPM, which no register shows (R350) -/
  wrefs : Nat
  deriving DecidableEq, Repr

/-- The disturbance recorder (chapter 13). -/
structure RecSt where
  /-- entries of the sources that have not yet reached the reorder stage -/
  inq : List RecEntry
  stage : List RecEntry
  newest : Nat
  lastKey : Option Nat
  dropN : Nat
  dropKey : Nat
  armAt : Nat
  /-- entries written into the present record, and the next slot of it -/
  num : Nat
  wr : Nat
  /-- trigger instant of the present record and of each complete one -/
  trigAt : List (Nat × Nat)
  /-- the TRIG entry of the present record has been written -/
  trigWr : Bool
  /-- the TRIG entry of the present record on its way to it: a further trigger's entry is not its trigger (R333) -/
  trigWait : Option RecEntry
  /-- order keys of the entries written into the present record, newest first (R333) -/
  keys : List Nat
  cellLast : List (Nat × Option (BitVec 128))
  ainLast : List (Nat × Option (BitVec 128))
  refPtr : Nat
  removed : List Nat
  /-- unit and key of each entry that matched a unit which combines it with a line event, newest first (COMB 0x1, R336) -/
  unitAt : List (Nat × Nat)
  /-- line and instant of each line event that such a unit selects, newest first -/
  lineAt : List (Nat × Nat)
  drive : Nat
  lockUntil : List (Nat × Nat)
  xAsserted : Nat
  /-- instants of the triggers that go into the next STAT record (R338) -/
  twTrig : List Nat
  deriving DecidableEq, Repr

/-- The safety logic (chapter 12). Times are counted in its own cycles of 125 µs. -/
structure SafetySt where
  /-- filtered levels of channels A and B of the eight inputs, and of the reset channels (R312, R321) -/
  lvlA : Nat
  lvlB : Nat
  rstA : Bool
  rstB : Bool
  cycle : Nat
  /-- the safety folio has loaded (R311) -/
  folio : Bool
  /-- inputs whose demand has been sampled and lasts (R313) -/
  dem : Nat
  /-- reset: 0 none, 1 one channel active, 2 both active, 3 one returned, 4 broken, 5 jammed (R321) -/
  rstPhase : Nat
  rstAt : Nat
  rstBoth : Nat
  /-- outputs whose conditions of Table 12.4 have held throughout the active interval -/
  rstOk : Nat
  /-- outputs whose node of the high side, and of the low side, lies between its two thresholds (R466) -/
  midH : Nat
  midL : Nat
  /-- outputs whose clasp has engaged while a reset channel has been active: that reset cannot release them (R322) -/
  rstBar : Nat
  /-- releases that wait for the end of an on-test (R318) -/
  relPend : Nat
  /-- test of each output: 0 none, 1 high side, 2 low side, 3 between the two -/
  test : List (Nat × Nat)
  /-- cycle of the last release of each output -/
  relAt : List (Nat × Nat)
  deriving DecidableEq, Repr

/-- An SMP answer kept for duplicates (R412). -/
structure Kept where
  addr : BitVec 128
  rid : BitVec 32
  typ : Nat
  mcrc : BitVec 32
  at_ : Nat
  answers : List (List Byte)
  /-- duplicates that came before the answer was formed -/
  dups : List Req
  deriving DecidableEq, Repr

/-- A telemetry subscription (R418, R419). -/
structure Sub where
  id : Nat
  port : Nat
  addr : BitVec 128
  udp : Nat
  intv : Nat
  ranges : List (Nat × Nat)
  tacc : Nat
  m : Nat
  due : Option (Nat × Nat × List Word)
  deriving DecidableEq, Repr

/-- The maintenance session (R422). -/
structure Session where
  sid : Nat
  chal : BitVec 128
  addr : BitVec 128
  udp : Nat
  auth : Bool
  lastCnt : Option Nat
  fails : Nat
  deriving DecidableEq, Repr

/-- An image transfer into the inactive bank (R378, R426). -/
structure Xfer where
  bankB : Bool
  data : List Byte
  imgLen : Nat
  hdrOk : Bool
  density : Nat
  sfdpOk : Bool
  /-- bytes programmed -/
  prog : Nat
  /-- IDATA answers that wait for the programming of data up to NEXT, or for a header that has failed -/
  waiting : List (Req × Nat)
  /-- an erase or a page has completed that SUP1 has not taken note of (R343) -/
  late : Bool
  deriving DecidableEq, Repr

/-- The network ports and SMP (chapter 17). -/
structure NetSt where
  started : Bool
  arp : List (Nat × BitVec 128 × BitVec 48)
  smpQ : List Instr
  kept : List Kept
  treads : List (Req × List (Nat × Nat))
  subs : List Sub
  sess : Option Session
  /-- the session has timed out while SUP1 was not running (R343) -/
  sessDue : Bool
  sessCnt : Nat
  xfer : Option Xfer
  dseq : Nat
  /-- port and instant, in ns, of the echo replies of the last second -/
  echo : List (Nat × Nat)
  deriving DecidableEq, Repr

/-- A deadline class over its evaluation window (R44): lowest margin, its unit, a miss. -/
structure ClsWin where
  minM : Nat
  unit : Nat
  seen : Bool
  miss : Bool
  deriving DecidableEq, Repr

/-- A journal entry (Table 15.9). -/
structure JEntry where
  kind : Nat
  uclass : Nat
  unit : Nat
  arg : Nat
  time : Nat
  deriving DecidableEq, Repr

/-- Fabric, spares and repair (chapter 1). Units are named by class code (Table 15.9) and unit index. -/
structure FabricSt where
  cls : List (Nat × ClsWin)
  /-- periods of the evaluation window under way (R44) -/
  winPer : Nat
  /-- margins are discarded after an AVS command (R58) -/
  holdoff : Bool
  avsPend : Bool
  /-- an acknowledgement, or the lack of one, that has come while SUP3 was not running (R343) -/
  avsLate : Option Bool
  /-- minus the exponent that VOUT_MODE gave in CHECK; none while no usable one has been read (R458, R459) -/
  vout : Option Nat
  relaxRun : Nat
  retired : List (Nat × Nat)
  spareBad : List (Nat × Nat)
  assigned : List (Nat × Nat × Nat)
  /-- swap in progress: class, unit, spare, and the boundaries still to come before the spare takes over (R49) -/
  swap : Option (Nat × Nat × Nat × Nat)
  /-- reassignment of a quire among slices for the next boundary: from, to (Table 1.4 step 2) -/
  reassign : Option (Nat × Nat)
  jq : List JEntry
  rowSeen : List (Nat × Nat)
  rowBad : List Nat
  /-- errors corrected by SEC-DED in this power cycle (R53) -/
  corrected : Nat
  scrubPass : Nat
  telBad : List Nat
  /-- bank whose journal was unreadable in CHECK and has not been rewritten (R377) -/
  eraseA : Bool
  eraseB : Bool
  /-- last AVS code of the journal (R62) -/
  avsCode : Option Nat
  /-- the journal in force: valid, unsuperseded entries -/
  inForce : List JEntry
  /-- GATHER asks for step 4 next, no slice being left (Table 1.3) -/
  gatherStep4 : Bool
  checkDone : Bool
  deriving DecidableEq, Repr

/-- The journal area of a bank. -/
structure JBank where
  h0 : JHalf
  h1 : JHalf
  deriving DecidableEq, Repr

/-- The two flash banks: their journal areas, and their image areas from offset 0, of which what no byte stands for is erased. They keep
their contents without power (R357, R373). -/
structure Flash where
  a : JBank
  b : JBank
  imgA : List Byte
  imgB : List Byte
  deriving DecidableEq, Repr

/-- The repair burned at manufacture, as class, unit and spare (R51), and the fused owner keys (R361, R449); fuses keep
without power. -/
structure Fuse where
  repair : List (Nat × Nat × Nat)
  hash0 : BitVec 256
  hash1 : BitVec 256
  prog0 : Bool
  prog1 : Bool
  rev0 : Bool
  /-- operation in progress: 0 none, 1 programming slot 0, 2 programming slot 1, 3 revocation -/
  busy : Nat
  res : Nat
  want : BitVec 256
  deriving DecidableEq, Repr

/-- What VBAT keeps (R276, R315, R461): the time of day last written, and the discrepancy locks. -/
structure Vbat where
  valid : Bool
  tod : Nat
  dlock : Nat
  deriving DecidableEq, Repr

/-- The JTAG port (R446, R447): instruction register, refusal bit, preloaded boundary, balls driven. -/
structure JtagSt where
  ir : Nat
  refused : Bool
  boundary : BitVec 71
  /-- 0 balls follow the device, 1 EXTEST or CLAMP, 2 HIGHZ -/
  drive : Nat
  /-- how often JTAG_TRST_N has gone low, and the scans to come while it is still low (R446) -/
  trsts : Nat
  held : Nat
  deriving DecidableEq, Repr

/-- The path delay of one chain position on one lane (R151-R153): D, whether it is calibrated, the calibration's count and
sum, rejected samples in a row, the replacement's count and sum, and a value that waits for the period boundary. -/
structure PosD where
  d : Nat
  valid : Bool
  calN : Nat
  calSum : Int
  bad : Nat
  rep : Option (Nat × Int)
  newD : Option Nat
  deriving DecidableEq, Repr

/-- A timing exchange in flight: its tag, its position, its departure in 1/16 tick (R150). -/
structure TmxReq where
  tag : Nat
  pos : Nat
  ttx : Nat
  /-- one of the 256 of a calibration (R151), not the exchange of a period (R152) -/
  cal : Bool
  deriving DecidableEq, Repr

/-- A tap of an equaliser: its code, the code before its last change, and the instant up to which its changes are counted, in ticks
(R147). -/
structure EqTap where
  code : Nat
  prev : Nat
  at_ : Nat
  deriving DecidableEq, Repr

/-- A lane beyond its registers (chapter 5). -/
structure LaneSt where
  /-- failed acquisitions in a row -/
  acq : Nat
  /-- origin that is being counted, and how often (R135) -/
  orgCand : Nat
  orgRun : Nat
  /-- step under verification; verified and waiting for the other lane of the unit; a step has failed (R140-R143) -/
  target : Option Nat
  passed : Bool
  fell : Bool
  /-- step that the twin announced for the receive direction of a twin lane -/
  rxStep : Nat
  tmx : List TmxReq
  tmxNext : Nat
  ds : List (Nat × PosD)
  e2eSum : Nat
  e2eN : Nat
  /-- pattern generator: its register and the bits it has given (R148, R149) -/
  gen : Nat
  genBits : Nat
  /-- pattern checker: its register, once it has one, and its run of error-free words -/
  chk : Option Nat
  chkRun : Nat
  /-- adaptations of the equaliser so far, and the reverted taps that hold, each with the code it keeps, in the order of LOL (R147) -/
  eqGen : Nat
  eqHeld : List (Nat × Nat)
  /-- the last SOF sent: its departure in 1/16 tick, the blocks before the fill, and the first block of the fill still free -/
  sof : Option (Nat × Nat × Nat)
  /-- reference offsets sent to the positions, and the distance addressed next (R166) -/
  rofs : List (Nat × Nat)
  rofsNext : Nat
  /-- HOPCNT of the stream of this lane that arrived last, and in how many frames in a row; the value taken (R171) -/
  hopVal : Nat
  hopRun : Nat
  reach : Nat
  /-- the taps of the equaliser, CTLE first, once they have been adapted; the instant of the last step change (R147) -/
  eq : List EqTap
  eqStep : Nat
  /-- frames released on the quire since the stream of this lane brought its last HOP (R171) -/
  hopGap : Nat
  deriving DecidableEq, Repr

/-- An event transfer that holds a slot (R182): position, urgency, registration, records granted, records that came. -/
structure XferSlot where
  pos : Nat
  urg : Bool
  reg : Bool
  n : Nat
  /-- records with the FSEQ of the frame that brought each; frames that named the position and have not come back, in the order sent;
  frames overtaken by a later one that has come back -/
  got : List (Nat × BitVec 128)
  out : List Nat
  lost : List Nat
  deriving DecidableEq, Repr


/-- The committed states of a cell over one period (R70): the state at the boundary, the change at `ta` to `sa`, and a
second change if there is one. -/
structure Seg where
  s0 : Nat
  ta : Nat
  sa : Nat
  tb : Option (Nat × Nat)
  /-- delivery correction of the period, 1/16 tick (R168) -/
  cor : Int
  deriving DecidableEq, Repr

/-- What a decision of the arbiter has changed, for the case that a standing frame replaces the frame that carries it: the slots
it granted, each with the transfer it pre-empted there; loss counts, pointer and waiting urgent requesters before it; and
GRANTS, LOSSES and PREEMPT before it. -/
structure ArbUndo where
  opened : List (Nat × Option XferSlot)
  lossCnt : List (Nat × Nat)
  ptr : Nat
  uwait : List Nat
  counts : Nat × Nat × Nat
  deriving DecidableEq, Repr

/-- A frame built and not yet released: its period; the phases of a two-step block before and after its entries; for each position
the entry, the state at its end and the committed states; what undoes the arbiter's decision that it carries; the slot table that
lays it out; whether that swaps with it, whether its entries are void, and whether the standing frame replaces it. -/
structure Built where
  j : Nat
  phase : Nat × Nat
  entries : List (Nat × BitVec 64 × Nat × Seg)
  undo : Option ArbUndo
  tab : Nat
  swap : Bool
  void : Bool
  standing : Bool
  deriving DecidableEq, Repr


/-- A frame in flight: its FSEQ, the slot table of its bank, its grants by slot, and for each lane of the quire the end whose stream it
was bringing back at the release (R174, R182). -/
structure SentFrame where
  fs : Nat
  tab : Nat
  grants : List (Option Nat)
  ways : List (Option Nat)
  deriving DecidableEq, Repr

/-- A quire beyond its registers (chapter 6). -/
structure QuireSt where
  /-- the chain has been INTACT in this power cycle -/
  intact : Bool
  /-- a new slot table was written while a swap was being built -/
  again : Bool
  /-- loss counts m_p above 0, and the round-robin pointer -/
  lossCnt : List (Nat × Nat)
  ptr : Nat
  /-- request words by window modulo 256 -/
  reqs : List (Nat × BitVec 256)
  slots : List (Nat × XferSlot)
  /-- urgent requesters left without a slot -/
  uwait : List Nat
  built : Option Built
  /-- index of the frame built last; the answers that the next frame carries (R181, R236); reference ends of the
  positions in the frame released last -/
  lastJ : Nat
  arb : Option (List (Option Nat) × List Nat)
  refs : List (Nat × Nat)
  /-- CMDMARG of the present frame and of the next one, with its length in order, and the last report's arrival (R179) -/
  marg : Int × Bool
  margNext : Int × Bool
  rpt : Option Int
  /-- phase of a two-step block whose entries have been released (R126, R128) -/
  phase : Nat
  /-- the frames in flight, latest first -/
  evgs : List SentFrame
  /-- slots of those frames, as FSEQ and slot, from which a record has been taken; and, with the lane that brought it, those that came
  back OPEN (R176, R182) -/
  evSeen : List (Nat × Nat)
  evOpen : List (Nat × Nat × Bool)
  /-- frames in a row that met the budget, and that had CMDMARG at or above 0 (R179) -/
  budRun : Nat
  dlvRun : Nat
  /-- a frame has been released whose budget is not yet judged -/
  sentOne : Bool
  deriving DecidableEq, Repr

/-- A cell engine beyond its registers (chapter 2). -/
structure CellSt where
  /-- charge from the anchor to offset `ancOfs` of the last complete period, in nC (R70, R71) -/
  qAcc : Int
  ancOfs : Nat
  /-- the next accepted report sets v_hat directly; a report has been accepted for the period; a late one -/
  first : Bool
  got : Bool
  freshRun : Nat
  /-- periods spent in SUSPECT -/
  susp : Nat
  /-- VCAP of the last accepted reports and how many in a row carried it; the charge between them, latest first (R68) -/
  stuckV : Nat
  stuckN : Nat
  stuckQ : List Int
  /-- lane and word of the report that came last, whose copy on the other lane is not taken again (R176) -/
  lastCopy : Option (Bool × Nat)
  /-- periods of the present estimator window (R73) -/
  win : Nat
  /-- committed states of the last complete period, of the present one, and of the one being sent -/
  prev : Seg
  cur : Seg
  nxt : Option Seg
  /-- VCAP of the last accepted report if it was captured in BYPASS (R73) -/
  lastByp : Option Nat
  nc : Nat
  nr : Nat
  sqv : Int
  sqq : Int
  sex : Int
  sxx : Int
  vmin : Nat
  vmax : Nat
  /-- the delivery corrections recorded for the last periods, each from a period of the device on, latest first (R166, R169) -/
  cors : List (Nat × Int)
  /-- last innovation -/
  innov : Int
  /-- inserted ticks not yet counted as a whole microsecond -/
  insT : Nat
  /-- triggers of this period (R65): registration with its identity and whether it passed the capability check, release,
  NINIT or NREC reached, SUSPECT cause, BYPASS cause, no engine left -/
  reg : Option (BitVec 64 × Bool)
  tRel : Bool
  tHealthy : Bool
  tSus : Nat
  tByp : Nat
  tRet : Bool
  /-- a registration has happened before, with the identity in the registers -/
  known : Bool
  /-- identity under which the present calibration completed (chapter 16) -/
  calId : Option (BitVec 64)
  /-- diagnostic: 0 none, 1 pending, 2 holding, 3 result in and ending at the next boundary, 4 the same with the next one pending;
  its code and argument, and those of the next one -/
  diag : Nat
  dCode : Nat
  dArg : Nat
  nCode : Nat
  nArg : Nat
  /-- last entry sent, and the state at its end -/
  entry : BitVec 64
  endSt : Nat
  /-- VPRED and base state delivered for the plan in preparation -/
  vpred : Nat
  /-- confirmation of the two-step block (R127): 0 none owed, 1 owed, 2 missed -/
  owes : Nat
  deriving DecidableEq, Repr

/-- A key of a gathering: cell, VPRED, charging and discharging key (R86). -/
structure Key where
  n : Nat
  v : Nat
  kc : Int
  kd : Int
  deriving DecidableEq, Repr

/-- A gathering of one quire: both lists sorted (R87). -/
structure Gath where
  chg : List Key
  dis : List Key
  deriving DecidableEq, Repr

/-- The inputs of the law run of the present period (Table 7.1). -/
structure LawIn where
  ia : Int
  ibPrev : Int
  vdc : Int
  vg : Int
  xa : Int
  xp : Int
  stale : Nat
  stuck : Nat
  vff : Int
  v90 : Int
  s2 : Int
  vpk : Int
  dv : Option Int
  held : Bool
  deriving DecidableEq, Repr

/-- What one channel's law run gives (R203). -/
structure LawOut where
  uref : Int
  i1 : Int
  ir : Int
  ctl : Ctl
  iclamp : Bool
  ulim : Bool
  /-- a fallback or a feedback hold: nothing of the controller state changes -/
  frozen : Bool
  zchg : Bool
  deriving DecidableEq, Repr

/-- A plan of one channel, with the carry of its trim cell and what it counts. -/
structure Cand where
  p : Plan
  demsat : Bool
  csat : Bool
  digest : Nat
  deriving DecidableEq, Repr

/-- One channel of a region: its law output, run-ahead plan, recompute (chapter 8); its plan has reached the voter; a digest of it
differed in this check period, or the period is not a whole one (R231); its copy of the mull set is complete; its self-test runs. -/
structure Chan where
  law : Option LawOut
  ra : Option Cand
  rc : Option Cand
  present : Bool
  diff : Bool
  copied : Bool
  testing : Bool
  /-- its copy of the mull set, now and at the last record, where it differs from the common one; and its run's inputs -/
  own : Option (Mull × Mull)
  lawIn : Option LawIn
  deriving DecidableEq, Repr

/-- A setpoint staged in a region (R210-R213): target, value, application period (absolute), ramp, acceptance order. -/
structure Staged where
  tgt : Nat
  value : Int
  per : Nat
  ramp : Nat
  ord : Nat
  deriving DecidableEq, Repr

/-- The override of a region: the period whose boundary is t0, its stamp in ticks (R293), and whether it is a two-step
block in progress. -/
structure Ovr where
  t0 : Nat
  stamp : Nat
  /-- the region was in RUN at the stamp -/
  run : Bool
  deriving DecidableEq, Repr

/-- A region beyond its registers (chapters 3, 7, 8). -/
structure RegionSt where
  ovr : Option Ovr
  ctl : Ctl
  meas : Meas
  lawIn : Option LawIn
  chA : Chan
  chB : Chan
  chC : Chan
  /-- boundary currents IB(j − 1), IB(j); predicted i1 for the end of period j -/
  ib0 : Int
  ib1 : Int
  i1p : Int
  /-- U(j), U(j − 1), U(j − 2) where defined (R204) -/
  u0 : Option Int
  u1 : Option Int
  u2 : Option Int
  keys : List (Nat × List Key)
  gath : List (Nat × Gath)
  gathPrev : List (Nat × Gath)
  gathLate : List Nat
  gathHold : Bool
  regath : List (Nat × Gath)
  rdlPast : Bool
  gdlPast : Bool
  pdlPast : Bool
  rgdlPast : Bool
  vdlPast : Bool
  /-- squash causes stamped for the plan in preparation; i1' of R98 -/
  cCell : Bool
  cSetpt : Bool
  squash : Option Nat
  /-- cells that cause CELL took out of the gatherings -/
  sqCut : List Nat
  /-- causes of the squash whose recompute was voted on -/
  sqUsed : Option Nat
  i1r : Option Int
  csgnNew : Bool
  /-- the plan voted for the next period, and its law output -/
  voted : Option Plan
  vLaw : Option LawOut
  vSat : Bool
  vCsat : Bool
  cpPast : Bool
  voteDone : Bool
  /-- the plan in force in the present period, in this stay of RUN -/
  last : Option Plan
  carry : List (Nat × Int)
  dph : Nat
  /-- a halt: 0 none, 1 freeze asked, 2 frozen, 3 safe; period in which planning resumes -/
  halt : Nat
  resume : Option Nat
  staged : List Staged
  stagedOrd : Nat
  /-- targets set by a setpoint since power-up, a bit each; those set for the run of this period (R212) -/
  tgtSet : Nat
  tgtNow : Nat
  /-- ramps that setpoints gave, by target, where they are not the default (R213) -/
  ramps : List (Nat × Nat)
  /-- the first run in RUN is still due; the period in which it was made (R217) -/
  runStart : Bool
  runPer : Nat
  vmiss : Bool
  /-- no non-hold plan has been committed since HOLD2 set (R288) -/
  hold2 : Bool
  /-- the common mull set at the last record, the mull store where it differs from that, the record written in this period -/
  base : Mull
  store : Option Mull
  recNow : Option MullChange
  /-- no mull record has been voted in agreement since NOAGREE set -/
  noag : Bool
  readyEver : Bool
  deriving DecidableEq, Repr

/-- An accumulator: sum, count, minimum and maximum of c (R251). -/
structure Acc where
  sum : Int
  cnt : Nat
  mn : Int
  mx : Int
  deriving DecidableEq, Repr

/-- A closed record as delivered (R252): its period or window, count, mean, minimum and maximum, scaled. -/
structure Clo where
  per : Nat
  idx : Nat
  cnt : Nat
  mean : Int
  mn : Int
  mx : Int
  deriving DecidableEq, Repr

/-- An analog input: open records and those that follow them, the last closed ones, the window due and its period. -/
structure AinSt where
  p0 : Acc
  p1 : Acc
  w0 : Acc
  w1 : Acc
  pC : Option Clo
  wC : Option Clo
  /-- the window of the last boundary -/
  wB : Option Clo
  wm : Nat
  wPer : Nat
  /-- in-service conversions that have completed, as slot and code by rising slot: the last one, and those that a pair waits for -/
  lastC : List (Nat × Int)
  deriving DecidableEq, Repr

/-- A conversion in flight: slot since the group started, sample tick in its period, the period and its length, the sample instant in
ticks since the epoch, local input, slice, mode, and what the out slice converts with it: 0 nothing, 1 a pair, 2 + k an injected
conversion of local input k; that out slice; and the index that the period of the sample instant had (R255). -/
structure Conv where
  slot : Nat
  off : Nat
  per : Nat
  len : Nat
  tick : Nat
  inp : Nat
  slice : Nat
  lp : Bool
  out : Nat
  outSlice : Nat
  pseq : Nat
  deriving DecidableEq, Repr

/-- A pair that waits for the next conversion of its input (R249): c of the out slice and of the partner, the input and the
slot. -/
structure Pair where
  cr : Int
  ci : Int
  inp : Nat
  slot : Nat
  deriving DecidableEq, Repr

/-- A conversion group (chapter 9). -/
structure AdGrp where
  per : Nat
  slot : Nat
  serial : Nat
  order : List Nat
  flight : List Conv
  pairDue : Nat
  pairs : Nat
  swapPos : Nat
  /-- the step has ended and the out slice waits for its swap (1), which an injected conversion has delayed (2) -/
  swapWait : Nat
  so : Int
  sg : Int
  sq : Int
  ss : Int
  sl : Int
  wait : List Pair
  /-- injected conversion accepted for the next slot: local input -/
  inj : Option Nat
  done : List Nat
  closedPer : Nat
  deriving DecidableEq, Repr

/-- The twin (chapter 8): what its records last said. -/
structure TwinSt where
  /-- role it last reported (Table 8.11), and periods without a valid record and without a MULL record -/
  role : Nat
  /-- device mode of its last MULL record -/
  mode : Nat
  silent : Nat
  mullSilent : Nat
  lanes : List Nat
  reach : List (Nat × Nat)
  steps : List (Nat × Nat)
  arb : Option ArbRec
  /-- the folio digests differ (R232) -/
  imgDif : Bool
  rsProg : Nat
  rsOk : Nat
  rsFail : Nat
  copied : Bool
  diff : Bool
  mull : List (Nat × Nat)
  chargeAt : Option Nat
  stopAt : Option Nat
  tgivSent : Bool
  mullSent : Bool
  recNow : Bool
  mullNow : Bool
  /-- quires INTACT, and quires cut off at the own lane, since its last record (R239) -/
  intact : List Nat
  cut : List Nat
  /-- period, modulo 256, of the last record taken of each KIND: the copy on the other twin lane is not taken again (R235) -/
  got : List (Nat × Nat)
  /-- the frame for which the last late ARB record has been counted (R236) -/
  arbLate : Option Nat
  deriving DecidableEq, Repr

/-- Start-up and run mode (chapter 16): boundaries at which accepted commands take effect. -/
structure StartSt where
  idleOnce : Bool
  idleAt : Nat
  chargeAt : Option Nat
  stopAt : Option Nat
  deblock : List (Nat × Nat)
  chargeFrom : Nat
  imageOk : Bool
  /-- digests of the REGION, QUIRE, CELL and LIMIT folios of the image (R368), as one 256-bit value -/
  folio : Nat
  /-- the owner's key of the running image -/
  ownX : Nat
  ownY : Nat
  /-- supervisor SRAM: code and initial data of the firmware folio from its lowest address (R367, R370) -/
  svCode : List Byte
  /-- no PROTECTIVE status was set at the present boundary (R400) -/
  protClear : Bool
  /-- reads and port frames since reset release that have come within its first millisecond (R437, R438) -/
  early : Nat
  /-- the fuses as read at reset release (R449) -/
  keys : Fuse
  deriving DecidableEq, Repr

end Sys2Proof.Machine
end

