-- ==== Sys2Proof/Machine/Initial.lean ====
section
/-! DEFINITION. The parts of the state as they stand right after power has come up, before reset is released: what the spec gives
for reset, and zero or empty where it gives nothing (log entry 1). -/

namespace Sys2Proof.Machine

def tw0 : TwinSt := ⟨0, 0, 0, 0, [], [], [], none, false, 0, 0, 0, false, false, [], none, none, false, false, false, false, [], [], [], none⟩

/-- Fuses of which nothing has been read or programmed. -/
def fuse0 : Fuse := ⟨[], 0, 0, false, false, false, 0, 0, 0⟩

def su0 : StartSt := ⟨false, 0, none, none, [], 0, false, 0, 0, 0, [], false, 0, fuse0⟩

/-- The PLLs with the dividers of Table 10.5, unlocked. -/
def pllT0 : PllSt := ⟨0, 0xA0, 0, 0, false, 0, 0⟩
def pllS0 : PllSt := ⟨0, 0xC8, 0, 0, false, 0, 0⟩

def ptpPort0 : PtpPort := ⟨none, none, 0, 0, none, 0⟩

/-- The control period of the reset value 0x14 of GL_TCCFG.TCEFF is 20.0 µs. -/
def tm0 : TimeSt :=
  ⟨0, 0, false, 0, 0, 10000, none, 0, none, false, pllT0, pllS0, ptpPort0, ptpPort0, none, 0, 0, false, [], false⟩

def fc0 : FaultSt := ⟨[], false, false, 0, 0, [], none, none, false, false, [], 0, 0, false, [], 0⟩

def dr0 : RecSt := ⟨[], [], 0, none, 0, 0, 0, 0, 0, [], false, none, [], [], [], 0, [], [], [], 0, [], 0, []⟩

def sf0 : SafetySt := ⟨0, 0, false, false, 0, false, 0, 0, 0, 0, 0, 0, 0, 0, 0, [], []⟩

def nt0 : NetSt := ⟨false, [], [], [], [], [], none, false, 0, none, 0, []⟩

def fb0 : FabricSt :=
  ⟨[], 0, false, false, none, none, 0, [], [], [], none, none, [], [], [], 0, 0, [], false, false, none, [], false, false⟩

/-- Test-Logic-Reset selects IDCODE (R446). -/
def jtag0 : JtagSt := ⟨2, false, 0, 0, 0, 0⟩

/-- An erased half of a journal area. -/
def jHalf0 : JHalf := ⟨BitVec.allOnes 256, []⟩

/-- Erased flash banks. -/
def flash0 : Flash := ⟨⟨jHalf0, jHalf0⟩, ⟨jHalf0, jHalf0⟩, [], []⟩

end Sys2Proof.Machine
end

