-- ==== Sys2Proof/Machine/Regs.lean ====
section
/-! DEFINITION. The registers of the maintenance space and their fields, one definition each: the address of a register
instance from the bases of Table 0.8 and the summary tables of every chapter (R23, R24, R429-R433), and each named
field by its address and bits. -/

namespace Sys2Proof.Machine

/-- FB_LADDER: Table 1.6 (R63). -/
def FB_LADDER : Nat := 0x1000
def FB_LADDER_STEP : Fld := ⟨FB_LADDER, 0, 3⟩
def FB_LADDER_EXHAUST : Fld := ⟨FB_LADDER, 3, 1⟩
def FB_LADDER_STEPCNT : Fld := ⟨FB_LADDER, 16, 16⟩
/-- FB_VDD: Table 1.7 (R63). -/
def FB_VDD : Nat := 0x1004
def FB_VDD_TARGET : Fld := ⟨FB_VDD, 0, 8⟩
def FB_VDD_FLOOR : Fld := ⟨FB_VDD, 8, 8⟩
def FB_VDD_CEIL : Fld := ⟨FB_VDD, 16, 8⟩
def FB_VDD_START : Fld := ⟨FB_VDD, 24, 8⟩
/-- FB_TCMIN: Table 1.8 (R63). -/
def FB_TCMIN : Nat := 0x1008
def FB_TCMIN_MIN : Fld := ⟨FB_TCMIN, 0, 8⟩
def FB_TCMIN_PEND : Fld := ⟨FB_TCMIN, 8, 8⟩
def FB_TCMIN_CEIL : Fld := ⟨FB_TCMIN, 16, 8⟩
def FB_TCMIN_PENDV : Fld := ⟨FB_TCMIN, 24, 1⟩
/-- FB_EVAL: Table 1.9 (R63). -/
def FB_EVAL : Nat := 0x100c
def FB_EVAL_WINDOW : Fld := ⟨FB_EVAL, 0, 16⟩
def FB_EVAL_RELAXN : Fld := ⟨FB_EVAL, 16, 8⟩
/-- FB_SPARE: Table 1.10 (R63). -/
def FB_SPARE : Nat := 0x1010
def FB_SPARE_CE : Fld := ⟨FB_SPARE, 0, 9⟩
def FB_SPARE_SLICE : Fld := ⟨FB_SPARE, 9, 5⟩
def FB_SPARE_CHEL : Fld := ⟨FB_SPARE, 14, 6⟩
def FB_SPARE_SRAMROW : Fld := ⟨FB_SPARE, 20, 12⟩
/-- FB_JOURNAL: Table 1.11 (R63). -/
def FB_JOURNAL : Nat := 0x1014
def FB_JOURNAL_ENTRIES : Fld := ⟨FB_JOURNAL, 0, 12⟩
def FB_JOURNAL_FULL : Fld := ⟨FB_JOURNAL, 12, 1⟩
def FB_JOURNAL_WRFAIL : Fld := ⟨FB_JOURNAL, 13, 1⟩
def FB_JOURNAL_AOK : Fld := ⟨FB_JOURNAL, 14, 1⟩
def FB_JOURNAL_BOK : Fld := ⟨FB_JOURNAL, 15, 1⟩
/-- FB_SPINE: Table 1.12 (R63). -/
def FB_SPINE : Nat := 0x1018
def FB_SPINE_RETRY : Fld := ⟨FB_SPINE, 0, 1⟩
def FB_SPINE_LINKFAIL : Fld := ⟨FB_SPINE, 1, 1⟩
def FB_SPINE_RETRYCNT : Fld := ⟨FB_SPINE, 16, 16⟩
/-- FB_CLSTHR: Table 1.13 (R63). -/
def FB_CLSTHR (x : Nat) : Nat := 0x1100 + 0x10 * x
def FB_CLSTHR_WARN (x : Nat) : Fld := ⟨(FB_CLSTHR x), 0, 16⟩
def FB_CLSTHR_ACT (x : Nat) : Fld := ⟨(FB_CLSTHR x), 16, 16⟩
/-- FB_CLSRELAX: Table 1.13 (R63). -/
def FB_CLSRELAX (x : Nat) : Nat := 0x1104 + 0x10 * x
def FB_CLSRELAX_RELAX (x : Nat) : Fld := ⟨(FB_CLSRELAX x), 0, 16⟩
/-- FB_CLSMARG: Table 1.13 (R63). -/
def FB_CLSMARG (x : Nat) : Nat := 0x1108 + 0x10 * x
def FB_CLSMARG_WINMIN (x : Nat) : Fld := ⟨(FB_CLSMARG x), 0, 16⟩
def FB_CLSMARG_LAST (x : Nat) : Fld := ⟨(FB_CLSMARG x), 16, 16⟩
/-- FB_CLSSTAT: Table 1.13 (R63). -/
def FB_CLSSTAT (x : Nat) : Nat := 0x110c + 0x10 * x
def FB_CLSSTAT_WARN (x : Nat) : Fld := ⟨(FB_CLSSTAT x), 0, 1⟩
def FB_CLSSTAT_ACT (x : Nat) : Fld := ⟨(FB_CLSSTAT x), 1, 1⟩
def FB_CLSSTAT_MISS (x : Nat) : Fld := ⟨(FB_CLSSTAT x), 2, 1⟩
def FB_CLSSTAT_UNIT (x : Nat) : Fld := ⟨(FB_CLSSTAT x), 8, 8⟩
def FB_CLSSTAT_MISSCNT (x : Nat) : Fld := ⟨(FB_CLSSTAT x), 16, 16⟩
/-- FB_SLICE: Table 1.14 (R63). -/
def FB_SLICE (i : Nat) : Nat := 0x1200 + 0x4 * i
def FB_SLICE_QUIRE (i : Nat) : Fld := ⟨(FB_SLICE i), 0, 6⟩
def FB_SLICE_ASSIGNED (i : Nat) : Fld := ⟨(FB_SLICE i), 6, 1⟩
def FB_SLICE_RETIRED (i : Nat) : Fld := ⟨(FB_SLICE i), 7, 1⟩
def FB_SLICE_SPEED (i : Nat) : Fld := ⟨(FB_SLICE i), 16, 16⟩
/-- CE_STAT: Table 2.9 (R79). -/
def CE_STAT (n : Nat) : Nat := 0x100000 + 0x80 * n
def CE_STAT_STATE (n : Nat) : Fld := ⟨(CE_STAT n), 0, 3⟩
def CE_STAT_ELIG (n : Nat) : Fld := ⟨(CE_STAT n), 3, 1⟩
def CE_STAT_SPARE (n : Nat) : Fld := ⟨(CE_STAT n), 4, 1⟩
def CE_STAT_LASTSEQ (n : Nat) : Fld := ⟨(CE_STAT n), 8, 8⟩
def CE_STAT_CAUSE (n : Nat) : Fld := ⟨(CE_STAT n), 16, 5⟩
def CE_STAT_REGCNT (n : Nat) : Fld := ⟨(CE_STAT n), 24, 8⟩
/-- CE_IDLO: Table 2.10 (R79). -/
def CE_IDLO (n : Nat) : Nat := 0x100004 + 0x80 * n
def CE_IDLO_ID (n : Nat) : Fld := ⟨(CE_IDLO n), 0, 32⟩
/-- CE_IDHI: Table 2.10 (R79). -/
def CE_IDHI (n : Nat) : Nat := 0x100008 + 0x80 * n
def CE_IDHI_ID (n : Nat) : Fld := ⟨(CE_IDHI n), 0, 32⟩
/-- CE_REP: Table 2.11 (R79). -/
def CE_REP (n i : Nat) : Nat := 0x100010 + 0x80 * n + 0x4 * i
def CE_REP_REP (n i : Nat) : Fld := ⟨(CE_REP n i), 0, 32⟩
/-- CE_VHAT: Table 2.12 (R79). -/
def CE_VHAT (n : Nat) : Nat := 0x100020 + 0x80 * n
def CE_VHAT_VHAT (n : Nat) : Fld := ⟨(CE_VHAT n), 0, 24⟩
/-- CE_VPRED: Table 2.12 (R79). -/
def CE_VPRED (n : Nat) : Nat := 0x100024 + 0x80 * n
def CE_VPRED_VPRED (n : Nat) : Fld := ⟨(CE_VPRED n), 0, 16⟩
/-- CE_EST: Table 2.13 (R79). -/
def CE_EST (n : Nat) : Nat := 0x100028 + 0x80 * n
def CE_EST_CEST (n : Nat) : Fld := ⟨(CE_EST n), 0, 15⟩
def CE_EST_CVALID (n : Nat) : Fld := ⟨(CE_EST n), 15, 1⟩
def CE_EST_RESR (n : Nat) : Fld := ⟨(CE_EST n), 16, 15⟩
def CE_EST_RVALID (n : Nat) : Fld := ⟨(CE_EST n), 31, 1⟩
/-- CE_WEAR: Table 2.13 (R79). -/
def CE_WEAR (n : Nat) : Nat := 0x10002c + 0x80 * n
def CE_WEAR_CRATIO (n : Nat) : Fld := ⟨(CE_WEAR n), 0, 16⟩
def CE_WEAR_RRATIO (n : Nat) : Fld := ⟨(CE_WEAR n), 16, 14⟩
def CE_WEAR_CEST15 (n : Nat) : Fld := ⟨(CE_WEAR n), 30, 1⟩
def CE_WEAR_RESR15 (n : Nat) : Fld := ⟨(CE_WEAR n), 31, 1⟩
/-- CE_HEALTH: Table 2.14 (R79). -/
def CE_HEALTH (n : Nat) : Nat := 0x100030 + 0x80 * n
def CE_HEALTH_MISS (n : Nat) : Fld := ⟨(CE_HEALTH n), 0, 1⟩
def CE_HEALTH_STALE (n : Nat) : Fld := ⟨(CE_HEALTH n), 1, 1⟩
def CE_HEALTH_LATE (n : Nat) : Fld := ⟨(CE_HEALTH n), 2, 1⟩
def CE_HEALTH_STUCK (n : Nat) : Fld := ⟨(CE_HEALTH n), 3, 1⟩
def CE_HEALTH_CAGE (n : Nat) : Fld := ⟨(CE_HEALTH n), 4, 1⟩
def CE_HEALTH_RAGE (n : Nat) : Fld := ⟨(CE_HEALTH n), 5, 1⟩
def CE_HEALTH_CEOL (n : Nat) : Fld := ⟨(CE_HEALTH n), 6, 1⟩
def CE_HEALTH_IDCHG (n : Nat) : Fld := ⟨(CE_HEALTH n), 7, 1⟩
def CE_HEALTH_CELLFLT (n : Nat) : Fld := ⟨(CE_HEALTH n), 8, 1⟩
def CE_HEALTH_DIAGFAIL (n : Nat) : Fld := ⟨(CE_HEALTH n), 9, 1⟩
/-- CE_FRESH: Table 2.15 (R79). -/
def CE_FRESH (n : Nat) : Nat := 0x100034 + 0x80 * n
def CE_FRESH_MISSRUN (n : Nat) : Fld := ⟨(CE_FRESH n), 0, 4⟩
def CE_FRESH_MISSCNT (n : Nat) : Fld := ⟨(CE_FRESH n), 16, 16⟩
/-- CE_CLAIM: Table 2.15 (R79). -/
def CE_CLAIM (n : Nat) : Nat := 0x100038 + 0x80 * n
def CE_CLAIM_WINNER (n : Nat) : Fld := ⟨(CE_CLAIM n), 0, 3⟩
def CE_CLAIM_OVRCNT (n : Nat) : Fld := ⟨(CE_CLAIM n), 16, 16⟩
/-- CE_DIAGREQ: Table 2.16 (R79). -/
def CE_DIAGREQ (n : Nat) : Nat := 0x10003c + 0x80 * n
def CE_DIAGREQ_CODE (n : Nat) : Fld := ⟨(CE_DIAGREQ n), 0, 4⟩
def CE_DIAGREQ_INRUN (n : Nat) : Fld := ⟨(CE_DIAGREQ n), 4, 1⟩
def CE_DIAGREQ_GO (n : Nat) : Fld := ⟨(CE_DIAGREQ n), 5, 1⟩
def CE_DIAGREQ_ARG (n : Nat) : Fld := ⟨(CE_DIAGREQ n), 16, 16⟩
/-- CE_DIAGRES: Table 2.16 (R79). -/
def CE_DIAGRES (n : Nat) : Nat := 0x100040 + 0x80 * n
def CE_DIAGRES_STATUS (n : Nat) : Fld := ⟨(CE_DIAGRES n), 0, 3⟩
def CE_DIAGRES_CODE (n : Nat) : Fld := ⟨(CE_DIAGRES n), 3, 4⟩
def CE_DIAGRES_RESULT (n : Nat) : Fld := ⟨(CE_DIAGRES n), 16, 16⟩
/-- CE_CTL: Table 2.16 (R79). -/
def CE_CTL (n : Nat) : Nat := 0x100044 + 0x80 * n
def CE_CTL_RELEASE (n : Nat) : Fld := ⟨(CE_CTL n), 0, 1⟩
def CE_CTL_BYPASS (n : Nat) : Fld := ⟨(CE_CTL n), 1, 1⟩
/-- CE_CFG0: Table 2.17 (R79). -/
def CE_CFG0 (n : Nat) : Nat := 0x100048 + 0x80 * n
def CE_CFG0_CNOM (n : Nat) : Fld := ⟨(CE_CFG0 n), 0, 16⟩
def CE_CFG0_RNOM (n : Nat) : Fld := ⟨(CE_CFG0 n), 16, 16⟩
/-- CE_CFG1: Table 2.17 (R79). -/
def CE_CFG1 (n : Nat) : Nat := 0x10004c + 0x80 * n
def CE_CFG1_LGAIN (n : Nat) : Fld := ⟨(CE_CFG1 n), 0, 8⟩
def CE_CFG1_FULLB (n : Nat) : Fld := ⟨(CE_CFG1 n), 8, 1⟩
def CE_CFG1_ESTSH (n : Nat) : Fld := ⟨(CE_CFG1 n), 9, 3⟩
def CE_CFG1_HOFS (n : Nat) : Fld := ⟨(CE_CFG1 n), 12, 4⟩
def CE_CFG1_ISUP (n : Nat) : Fld := ⟨(CE_CFG1 n), 16, 8⟩
/-- CE_CFG2: Table 2.17 (R79). -/
def CE_CFG2 (n : Nat) : Nat := 0x100050 + 0x80 * n
def CE_CFG2_NMISS (n : Nat) : Fld := ⟨(CE_CFG2 n), 0, 4⟩
def CE_CFG2_NREC (n : Nat) : Fld := ⟨(CE_CFG2 n), 4, 4⟩
def CE_CFG2_TSUS (n : Nat) : Fld := ⟨(CE_CFG2 n), 8, 8⟩
def CE_CFG2_NSTUCK (n : Nat) : Fld := ⟨(CE_CFG2 n), 16, 8⟩
def CE_CFG2_NINIT (n : Nat) : Fld := ⟨(CE_CFG2 n), 24, 4⟩
/-- CE_CFG3: Table 2.17 (R79). -/
def CE_CFG3 (n : Nat) : Nat := 0x100054 + 0x80 * n
def CE_CFG3_CLOW (n : Nat) : Fld := ⟨(CE_CFG3 n), 0, 8⟩
def CE_CFG3_RHIGH (n : Nat) : Fld := ⟨(CE_CFG3 n), 8, 8⟩
def CE_CFG3_CFLOOR (n : Nat) : Fld := ⟨(CE_CFG3 n), 16, 8⟩
def CE_CFG3_QMIN (n : Nat) : Fld := ⟨(CE_CFG3 n), 24, 8⟩
/-- CE_CFG4: Table 2.17 (R79). -/
def CE_CFG4 (n : Nat) : Nat := 0x100058 + 0x80 * n
def CE_CFG4_EWIN (n : Nat) : Fld := ⟨(CE_CFG4 n), 0, 16⟩
def CE_CFG4_IMIN (n : Nat) : Fld := ⟨(CE_CFG4 n), 16, 16⟩
/-- RG_MODCFG0: Table 3.7 (R108). -/
def RG_MODCFG0 (g : Nat) : Nat := 0x30400 + 0x2000 * g
def RG_MODCFG0_UPD (g : Nat) : Fld := ⟨(RG_MODCFG0 g), 0, 1⟩
def RG_MODCFG0_HALTMODE (g : Nat) : Fld := ⟨(RG_MODCFG0 g), 1, 1⟩
def RG_MODCFG0_FULLB (g : Nat) : Fld := ⟨(RG_MODCFG0 g), 2, 1⟩
def RG_MODCFG0_WGT (g : Nat) : Fld := ⟨(RG_MODCFG0 g), 8, 8⟩
def RG_MODCFG0_HYST (g : Nat) : Fld := ⟨(RG_MODCFG0 g), 16, 8⟩
/-- RG_MODCFG1: Table 3.8 (R108). -/
def RG_MODCFG1 (g : Nat) : Nat := 0x30404 + 0x2000 * g
def RG_MODCFG1_RDL (g : Nat) : Fld := ⟨(RG_MODCFG1 g), 0, 6⟩
def RG_MODCFG1_GDL (g : Nat) : Fld := ⟨(RG_MODCFG1 g), 6, 6⟩
def RG_MODCFG1_PDL (g : Nat) : Fld := ⟨(RG_MODCFG1 g), 12, 6⟩
def RG_MODCFG1_CP (g : Nat) : Fld := ⟨(RG_MODCFG1 g), 18, 6⟩
def RG_MODCFG1_RGDL (g : Nat) : Fld := ⟨(RG_MODCFG1 g), 24, 6⟩
/-- RG_MODCFG2: Table 3.9 (R108). -/
def RG_MODCFG2 (g : Nat) : Nat := 0x30408 + 0x2000 * g
def RG_MODCFG2_RCDL (g : Nat) : Fld := ⟨(RG_MODCFG2 g), 0, 6⟩
def RG_MODCFG2_TMIN (g : Nat) : Fld := ⟨(RG_MODCFG2 g), 16, 14⟩
/-- RG_MODCFG3: Table 3.9 (R108). -/
def RG_MODCFG3 (g : Nat) : Nat := 0x3040c + 0x2000 * g
def RG_MODCFG3_SDB (g : Nat) : Fld := ⟨(RG_MODCFG3 g), 0, 16⟩
/-- RG_MODCTL: Table 3.9 (R108). -/
def RG_MODCTL (g : Nat) : Nat := 0x30410 + 0x2000 * g
def RG_MODCTL_HALT (g : Nat) : Fld := ⟨(RG_MODCTL g), 0, 1⟩
/-- RG_MODSTAT: Table 3.10 (R108). -/
def RG_MODSTAT (g : Nat) : Nat := 0x30414 + 0x2000 * g
def RG_MODSTAT_HALTED (g : Nat) : Fld := ⟨(RG_MODSTAT g), 0, 1⟩
def RG_MODSTAT_HALTSAFE (g : Nat) : Fld := ⟨(RG_MODSTAT g), 1, 1⟩
def RG_MODSTAT_CSGN (g : Nat) : Fld := ⟨(RG_MODSTAT g), 2, 1⟩
def RG_MODSTAT_POL (g : Nat) : Fld := ⟨(RG_MODSTAT g), 3, 1⟩
def RG_MODSTAT_DIR (g : Nat) : Fld := ⟨(RG_MODSTAT g), 4, 1⟩
def RG_MODSTAT_HOLD (g : Nat) : Fld := ⟨(RG_MODSTAT g), 5, 1⟩
def RG_MODSTAT_SQUASHED (g : Nat) : Fld := ⟨(RG_MODSTAT g), 6, 1⟩
def RG_MODSTAT_DPH (g : Nat) : Fld := ⟨(RG_MODSTAT g), 8, 4⟩
/-- RG_MODPLAN: Table 3.11 (R108). -/
def RG_MODPLAN (g : Nat) : Nat := 0x30418 + 0x2000 * g
def RG_MODPLAN_L (g : Nat) : Fld := ⟨(RG_MODPLAN g), 0, 12⟩
def RG_MODPLAN_E (g : Nat) : Fld := ⟨(RG_MODPLAN g), 12, 12⟩
/-- RG_MODTRIM: Table 3.11 (R108). -/
def RG_MODTRIM (g : Nat) : Nat := 0x3041c + 0x2000 * g
def RG_MODTRIM_NT (g : Nat) : Fld := ⟨(RG_MODTRIM g), 0, 13⟩
def RG_MODTRIM_TRIMV (g : Nat) : Fld := ⟨(RG_MODTRIM g), 13, 1⟩
def RG_MODTRIM_NOTCH (g : Nat) : Fld := ⟨(RG_MODTRIM g), 14, 1⟩
def RG_MODTRIM_SUPP (g : Nat) : Fld := ⟨(RG_MODTRIM g), 15, 1⟩
/-- RG_MODTRIMW: Table 3.11 (R108). -/
def RG_MODTRIMW (g : Nat) : Nat := 0x30420 + 0x2000 * g
def RG_MODTRIMW_WOUT (g : Nat) : Fld := ⟨(RG_MODTRIMW g), 0, 19⟩
/-- RG_MODSQ: Table 3.12 (R108). -/
def RG_MODSQ (g : Nat) : Nat := 0x30424 + 0x2000 * g
def RG_MODSQ_SIGN (g : Nat) : Fld := ⟨(RG_MODSQ g), 0, 1⟩
def RG_MODSQ_CELL (g : Nat) : Fld := ⟨(RG_MODSQ g), 1, 1⟩
def RG_MODSQ_PROT (g : Nat) : Fld := ⟨(RG_MODSQ g), 2, 1⟩
def RG_MODSQ_SETPT (g : Nat) : Fld := ⟨(RG_MODSQ g), 3, 1⟩
def RG_MODSQ_VOTE (g : Nat) : Fld := ⟨(RG_MODSQ g), 4, 1⟩
def RG_MODSQ_SQCNT (g : Nat) : Fld := ⟨(RG_MODSQ g), 16, 16⟩
/-- RG_MODHOLD: Table 3.12 (R108). -/
def RG_MODHOLD (g : Nat) : Nat := 0x30428 + 0x2000 * g
def RG_MODHOLD_HOLDRUN (g : Nat) : Fld := ⟨(RG_MODHOLD g), 0, 4⟩
def RG_MODHOLD_HOLD2 (g : Nat) : Fld := ⟨(RG_MODHOLD g), 4, 1⟩
def RG_MODHOLD_HOLD8 (g : Nat) : Fld := ⟨(RG_MODHOLD g), 5, 1⟩
def RG_MODHOLD_DEMSAT (g : Nat) : Fld := ⟨(RG_MODHOLD g), 6, 1⟩
def RG_MODHOLD_GLATE (g : Nat) : Fld := ⟨(RG_MODHOLD g), 7, 1⟩
def RG_MODHOLD_HOLDCNT (g : Nat) : Fld := ⟨(RG_MODHOLD g), 16, 16⟩
/-- RG_MODCNT: Table 3.12 (R108). -/
def RG_MODCNT (g : Nat) : Nat := 0x3042c + 0x2000 * g
def RG_MODCNT_SUPPCNT (g : Nat) : Fld := ⟨(RG_MODCNT g), 0, 16⟩
def RG_MODCNT_CARRYSAT (g : Nat) : Fld := ⟨(RG_MODCNT g), 16, 16⟩
/-- RG_BLKCFG: Table 4.10 (R128). -/
def RG_BLKCFG (g : Nat) : Nat := 0x30430 + 0x2000 * g
def RG_BLKCFG_TSTEP (g : Nat) : Fld := ⟨(RG_BLKCFG g), 0, 6⟩
def RG_BLKCFG_CONFN (g : Nat) : Fld := ⟨(RG_BLKCFG g), 6, 8⟩
/-- RG_BLKSTAT: Table 4.10 (R128). -/
def RG_BLKSTAT (g : Nat) : Nat := 0x30434 + 0x2000 * g
def RG_BLKSTAT_PHASE (g : Nat) : Fld := ⟨(RG_BLKSTAT g), 0, 2⟩
def RG_BLKSTAT_CONF (g : Nat) : Fld := ⟨(RG_BLKSTAT g), 2, 1⟩
def RG_BLKSTAT_NOCONF (g : Nat) : Fld := ⟨(RG_BLKSTAT g), 3, 1⟩
def RG_BLKSTAT_NCONF (g : Nat) : Fld := ⟨(RG_BLKSTAT g), 16, 12⟩
/-- LN_CFG: Table 5.8 (R157). -/
def LN_CFG (l : Nat) : Nat := 0x10000 + 0x100 * l
def LN_CFG_EN (l : Nat) : Fld := ⟨(LN_CFG l), 0, 1⟩
def LN_CFG_MAXSTEP (l : Nat) : Fld := ⟨(LN_CFG l), 1, 2⟩
def LN_CFG_TXINV (l : Nat) : Fld := ⟨(LN_CFG l), 3, 1⟩
def LN_CFG_RXINV (l : Nat) : Fld := ⟨(LN_CFG l), 4, 1⟩
def LN_CFG_FFEPRE (l : Nat) : Fld := ⟨(LN_CFG l), 8, 5⟩
def LN_CFG_FFEPOST (l : Nat) : Fld := ⟨(LN_CFG l), 16, 5⟩
/-- LN_TIMCFG: Table 5.8 (R157). -/
def LN_TIMCFG (l : Nat) : Nat := 0x10004 + 0x100 * l
def LN_TIMCFG_TFAST (l : Nat) : Fld := ⟨(LN_TIMCFG l), 0, 8⟩
def LN_TIMCFG_TACQ (l : Nat) : Fld := ⟨(LN_TIMCFG l), 8, 8⟩
def LN_TIMCFG_NACQ (l : Nat) : Fld := ⟨(LN_TIMCFG l), 16, 4⟩
/-- LN_TMXCFG: Table 5.8 (R157). -/
def LN_TMXCFG (l : Nat) : Nat := 0x10008 + 0x100 * l
def LN_TMXCFG_ASYMCOR (l : Nat) : Fld := ⟨(LN_TMXCFG l), 0, 16⟩
def LN_TMXCFG_ASYMTH (l : Nat) : Fld := ⟨(LN_TMXCFG l), 16, 8⟩
def LN_TMXCFG_JUMP (l : Nat) : Fld := ⟨(LN_TMXCFG l), 24, 8⟩
/-- LN_CTL: Table 5.9 (R157). -/
def LN_CTL (l : Nat) : Nat := 0x1000c + 0x100 * l
def LN_CTL_TXSLP (l : Nat) : Fld := ⟨(LN_CTL l), 0, 1⟩
def LN_CTL_RXSLP (l : Nat) : Fld := ⟨(LN_CTL l), 1, 1⟩
def LN_CTL_RETRAIN (l : Nat) : Fld := ⟨(LN_CTL l), 2, 1⟩
def LN_CTL_REACQ (l : Nat) : Fld := ⟨(LN_CTL l), 3, 1⟩
/-- LN_STAT: Table 5.9 (R157). -/
def LN_STAT (l : Nat) : Nat := 0x10010 + 0x100 * l
def LN_STAT_STATE (l : Nat) : Fld := ⟨(LN_STAT l), 0, 3⟩
def LN_STAT_STEP (l : Nat) : Fld := ⟨(LN_STAT l), 3, 2⟩
def LN_STAT_LOS (l : Nat) : Fld := ⟨(LN_STAT l), 5, 1⟩
def LN_STAT_LOCK (l : Nat) : Fld := ⟨(LN_STAT l), 6, 1⟩
def LN_STAT_TXSLEPT (l : Nat) : Fld := ⟨(LN_STAT l), 7, 1⟩
def LN_STAT_RXSLEPT (l : Nat) : Fld := ⟨(LN_STAT l), 8, 1⟩
def LN_STAT_ORGV (l : Nat) : Fld := ⟨(LN_STAT l), 9, 1⟩
def LN_STAT_ORIGIN (l : Nat) : Fld := ⟨(LN_STAT l), 10, 8⟩
/-- LN_EVT: Table 5.10 (R157). -/
def LN_EVT (l : Nat) : Nat := 0x10014 + 0x100 * l
def LN_EVT_LOS (l : Nat) : Fld := ⟨(LN_EVT l), 0, 1⟩
def LN_EVT_LOL (l : Nat) : Fld := ⟨(LN_EVT l), 1, 1⟩
def LN_EVT_FASTRT (l : Nat) : Fld := ⟨(LN_EVT l), 2, 1⟩
def LN_EVT_REACQ (l : Nat) : Fld := ⟨(LN_EVT l), 3, 1⟩
def LN_EVT_STEPFAIL (l : Nat) : Fld := ⟨(LN_EVT l), 4, 1⟩
def LN_EVT_FAILED (l : Nat) : Fld := ⟨(LN_EVT l), 5, 1⟩
def LN_EVT_TMXJUMP (l : Nat) : Fld := ⟨(LN_EVT l), 6, 1⟩
def LN_EVT_ASYM (l : Nat) : Fld := ⟨(LN_EVT l), 7, 1⟩
def LN_EVT_DSAT (l : Nat) : Fld := ⟨(LN_EVT l), 8, 1⟩
/-- LN_CNT: Table 5.10 (R157). -/
def LN_CNT (l : Nat) : Nat := 0x10018 + 0x100 * l
def LN_CNT_FASTCNT (l : Nat) : Fld := ⟨(LN_CNT l), 0, 16⟩
def LN_CNT_REACQCNT (l : Nat) : Fld := ⟨(LN_CNT l), 16, 16⟩
/-- LN_BERC: Table 5.10 (R157). -/
def LN_BERC (l : Nat) : Nat := 0x1001c + 0x100 * l
def LN_BERC_SHERR (l : Nat) : Fld := ⟨(LN_BERC l), 0, 16⟩
def LN_BERC_UNKCNT (l : Nat) : Fld := ⟨(LN_BERC l), 16, 16⟩
/-- LN_EQ: Table 5.11 (R157). -/
def LN_EQ (l : Nat) : Nat := 0x10020 + 0x100 * l
def LN_EQ_CTLE (l : Nat) : Fld := ⟨(LN_EQ l), 0, 5⟩
def LN_EQ_DFE1 (l : Nat) : Fld := ⟨(LN_EQ l), 5, 6⟩
def LN_EQ_DFE2 (l : Nat) : Fld := ⟨(LN_EQ l), 11, 5⟩
def LN_EQ_DFE3 (l : Nat) : Fld := ⟨(LN_EQ l), 16, 4⟩
def LN_EQ_DFE4 (l : Nat) : Fld := ⟨(LN_EQ l), 20, 4⟩
def LN_EQ_DFE5 (l : Nat) : Fld := ⟨(LN_EQ l), 24, 4⟩
def LN_EQ_FROZEN (l : Nat) : Fld := ⟨(LN_EQ l), 28, 1⟩
/-- LN_PRBSCTL: Table 5.11 (R157). -/
def LN_PRBSCTL (l : Nat) : Nat := 0x10024 + 0x100 * l
def LN_PRBSCTL_PAT (l : Nat) : Fld := ⟨(LN_PRBSCTL l), 0, 3⟩
def LN_PRBSCTL_GEN (l : Nat) : Fld := ⟨(LN_PRBSCTL l), 3, 1⟩
def LN_PRBSCTL_CHK (l : Nat) : Fld := ⟨(LN_PRBSCTL l), 4, 1⟩
def LN_PRBSCTL_INJ1 (l : Nat) : Fld := ⟨(LN_PRBSCTL l), 5, 1⟩
def LN_PRBSCTL_INJRATE (l : Nat) : Fld := ⟨(LN_PRBSCTL l), 6, 4⟩
def LN_PRBSCTL_SYNC (l : Nat) : Fld := ⟨(LN_PRBSCTL l), 10, 1⟩
/-- LN_PRBSERR: Table 5.11 (R157). -/
def LN_PRBSERR (l : Nat) : Nat := 0x10028 + 0x100 * l
def LN_PRBSERR_ERRCNT (l : Nat) : Fld := ⟨(LN_PRBSERR l), 0, 32⟩
/-- LN_TMXSEL: Table 5.12 (R157). -/
def LN_TMXSEL (l : Nat) : Nat := 0x1002c + 0x100 * l
def LN_TMXSEL_POS (l : Nat) : Fld := ⟨(LN_TMXSEL l), 0, 7⟩
/-- LN_TMXD: Table 5.12 (R157). -/
def LN_TMXD (l : Nat) : Nat := 0x10030 + 0x100 * l
def LN_TMXD_D (l : Nat) : Fld := ⟨(LN_TMXD l), 0, 16⟩
def LN_TMXD_POS (l : Nat) : Fld := ⟨(LN_TMXD l), 16, 7⟩
def LN_TMXD_VALID (l : Nat) : Fld := ⟨(LN_TMXD l), 23, 1⟩
/-- LN_TMXE2E: Table 5.12 (R157). -/
def LN_TMXE2E (l : Nat) : Nat := 0x10034 + 0x100 * l
def LN_TMXE2E_E2E (l : Nat) : Fld := ⟨(LN_TMXE2E l), 0, 16⟩
def LN_TMXE2E_VALID (l : Nat) : Fld := ⟨(LN_TMXE2E l), 16, 1⟩
/-- QU_CFG: Table 6.7 (R191). -/
def QU_CFG (q : Nat) : Nat := 0x20000 + 0x400 * q
def QU_CFG_NPOS (q : Nat) : Fld := ⟨(QU_CFG q), 0, 8⟩
def QU_CFG_REGION (q : Nat) : Fld := ⟨(QU_CFG q), 8, 3⟩
def QU_CFG_ASSIGNED (q : Nat) : Fld := ⟨(QU_CFG q), 11, 1⟩
/-- QU_FRMCFG: Table 6.7 (R191). -/
def QU_FRMCFG (q : Nat) : Nat := 0x20004 + 0x400 * q
def QU_FRMCFG_ADV (q : Nat) : Fld := ⟨(QU_FRMCFG q), 0, 14⟩
def QU_FRMCFG_NEVS (q : Nat) : Fld := ⟨(QU_FRMCFG q), 16, 3⟩
def QU_FRMCFG_BURST (q : Nat) : Fld := ⟨(QU_FRMCFG q), 20, 4⟩
def QU_FRMCFG_GUARD (q : Nat) : Fld := ⟨(QU_FRMCFG q), 24, 8⟩
/-- QU_SLOTCTL: Table 6.8 (R191). -/
def QU_SLOTCTL (q : Nat) : Nat := 0x20008 + 0x400 * q
def QU_SLOTCTL_BANK (q : Nat) : Fld := ⟨(QU_SLOTCTL q), 0, 1⟩
def QU_SLOTCTL_PEND (q : Nat) : Fld := ⟨(QU_SLOTCTL q), 1, 1⟩
def QU_SLOTCTL_SWAPCNT (q : Nat) : Fld := ⟨(QU_SLOTCTL q), 16, 16⟩
/-- QU_SLOTA: Table 6.8 (R191). -/
def QU_SLOTA (q : Nat) : Nat := 0x2000c + 0x400 * q
def QU_SLOTA_REACHA (q : Nat) : Fld := ⟨(QU_SLOTA q), 0, 8⟩
def QU_SLOTA_REACHB (q : Nat) : Fld := ⟨(QU_SLOTA q), 8, 8⟩
def QU_SLOTA_NSERV (q : Nat) : Fld := ⟨(QU_SLOTA q), 16, 8⟩
/-- QU_SLOTI: Table 6.8 (R191). -/
def QU_SLOTI (q : Nat) : Nat := 0x20010 + 0x400 * q
def QU_SLOTI_REACHA (q : Nat) : Fld := ⟨(QU_SLOTI q), 0, 8⟩
def QU_SLOTI_REACHB (q : Nat) : Fld := ⟨(QU_SLOTI q), 8, 8⟩
def QU_SLOTI_NSERV (q : Nat) : Fld := ⟨(QU_SLOTI q), 16, 8⟩
/-- QU_STAT: Table 6.9 (R191). -/
def QU_STAT (q : Nat) : Nat := 0x20014 + 0x400 * q
def QU_STAT_CHAIN (q : Nat) : Fld := ⟨(QU_STAT q), 0, 3⟩
def QU_STAT_PRIM (q : Nat) : Fld := ⟨(QU_STAT q), 3, 1⟩
def QU_STAT_BUDGET (q : Nat) : Fld := ⟨(QU_STAT q), 4, 1⟩
def QU_STAT_NREG (q : Nat) : Fld := ⟨(QU_STAT q), 8, 8⟩
/-- QU_EVT: Table 6.9 (R191). -/
def QU_EVT (q : Nat) : Nat := 0x20018 + 0x400 * q
def QU_EVT_BREAK (q : Nat) : Fld := ⟨(QU_EVT q), 0, 1⟩
def QU_EVT_REJOIN (q : Nat) : Fld := ⟨(QU_EVT q), 1, 1⟩
def QU_EVT_ENDSW (q : Nat) : Fld := ⟨(QU_EVT q), 2, 1⟩
def QU_EVT_NPOSERR (q : Nat) : Fld := ⟨(QU_EVT q), 3, 1⟩
def QU_EVT_DLVLATE (q : Nat) : Fld := ⟨(QU_EVT q), 4, 1⟩
def QU_EVT_RPTLATE (q : Nat) : Fld := ⟨(QU_EVT q), 5, 1⟩
def QU_EVT_FRMISS (q : Nat) : Fld := ⟨(QU_EVT q), 6, 1⟩
def QU_EVT_EVBAD (q : Nat) : Fld := ⟨(QU_EVT q), 7, 1⟩
def QU_EVT_CLAMP (q : Nat) : Fld := ⟨(QU_EVT q), 8, 1⟩
/-- QU_DLV: Table 6.10 (R191). -/
def QU_DLV (q : Nat) : Nat := 0x2001c + 0x400 * q
def QU_DLV_CMDMARG (q : Nat) : Fld := ⟨(QU_DLV q), 0, 16⟩
def QU_DLV_RPTLAT (q : Nat) : Fld := ⟨(QU_DLV q), 16, 16⟩
/-- QU_ARBCNT: Table 6.10 (R191). -/
def QU_ARBCNT (q : Nat) : Nat := 0x20020 + 0x400 * q
def QU_ARBCNT_GRANTS (q : Nat) : Fld := ⟨(QU_ARBCNT q), 0, 16⟩
def QU_ARBCNT_LOSSES (q : Nat) : Fld := ⟨(QU_ARBCNT q), 16, 16⟩
/-- QU_EVCNT: Table 6.10 (R191). -/
def QU_EVCNT (q : Nat) : Nat := 0x20024 + 0x400 * q
def QU_EVCNT_PREEMPT (q : Nat) : Fld := ⟨(QU_EVCNT q), 0, 16⟩
def QU_EVCNT_EVBADCNT (q : Nat) : Fld := ⟨(QU_EVCNT q), 16, 16⟩
/-- QU_CNT: Table 6.10 (R191). -/
def QU_CNT (q : Nat) : Nat := 0x20028 + 0x400 * q
def QU_CNT_CLAMPCNT (q : Nat) : Fld := ⟨(QU_CNT q), 0, 16⟩
def QU_CNT_FRMISSCNT (q : Nat) : Fld := ⟨(QU_CNT q), 16, 16⟩
/-- RG_STAT: Table 7.6 (R218). -/
def RG_STAT (g : Nat) : Nat := 0x30000 + 0x2000 * g
def RG_STAT_STATE (g : Nat) : Fld := ⟨(RG_STAT g), 0, 3⟩
def RG_STAT_ENERG (g : Nat) : Fld := ⟨(RG_STAT g), 3, 1⟩
def RG_STAT_ZONE (g : Nat) : Fld := ⟨(RG_STAT g), 4, 2⟩
def RG_STAT_LAWRDY (g : Nat) : Fld := ⟨(RG_STAT g), 6, 1⟩
def RG_STAT_FBHOLD (g : Nat) : Fld := ⟨(RG_STAT g), 7, 1⟩
def RG_STAT_REPON (g : Nat) : Fld := ⟨(RG_STAT g), 8, 1⟩
/-- RG_LAWCFG: Table 7.6 (R218). -/
def RG_LAWCFG (g : Nat) : Nat := 0x30004 + 0x2000 * g
def RG_LAWCFG_ROLE (g : Nat) : Fld := ⟨(RG_LAWCFG g), 0, 2⟩
def RG_LAWCFG_PARTNER (g : Nat) : Fld := ⟨(RG_LAWCFG g), 2, 3⟩
def RG_LAWCFG_OUTER (g : Nat) : Fld := ⟨(RG_LAWCFG g), 5, 1⟩
def RG_LAWCFG_ZSRC (g : Nat) : Fld := ⟨(RG_LAWCFG g), 6, 2⟩
def RG_LAWCFG_REPEN (g : Nat) : Fld := ⟨(RG_LAWCFG g), 8, 1⟩
/-- RG_INCFG: Table 7.6 (R218). -/
def RG_INCFG (g : Nat) : Nat := 0x30008 + 0x2000 * g
def RG_INCFG_IAIN (g : Nat) : Fld := ⟨(RG_INCFG g), 0, 5⟩
def RG_INCFG_VDCAIN (g : Nat) : Fld := ⟨(RG_INCFG g), 8, 5⟩
def RG_INCFG_VGAIN (g : Nat) : Fld := ⟨(RG_INCFG g), 16, 5⟩
def RG_INCFG_VPAIN (g : Nat) : Fld := ⟨(RG_INCFG g), 24, 5⟩
/-- RG_ENCFG: Table 7.7 (R218). -/
def RG_ENCFG (g : Nat) : Nat := 0x3000c + 0x2000 * g
def RG_ENCFG_ENTH (g : Nat) : Fld := ⟨(RG_ENCFG g), 0, 16⟩
def RG_ENCFG_FRMIN (g : Nat) : Fld := ⟨(RG_ENCFG g), 16, 8⟩
/-- RG_NOMCFG: Table 7.7 (R218). -/
def RG_NOMCFG (g : Nat) : Nat := 0x30010 + 0x2000 * g
def RG_NOMCFG_FNOM (g : Nat) : Fld := ⟨(RG_NOMCFG g), 0, 16⟩
def RG_NOMCFG_NCYC (g : Nat) : Fld := ⟨(RG_NOMCFG g), 16, 13⟩
/-- RG_LARM: Table 7.7 (R218). -/
def RG_LARM (g : Nat) : Nat := 0x30014 + 0x2000 * g
def RG_LARM_LARM (g : Nat) : Fld := ⟨(RG_LARM g), 0, 20⟩
/-- RG_KPRED: Table 7.7 (R218). -/
def RG_KPRED (g : Nat) : Nat := 0x3004c + 0x2000 * g
def RG_KPRED_KPRED (g : Nat) : Fld := ⟨(RG_KPRED g), 0, 32⟩
/-- RG_LIM0: Table 7.8 (R218). -/
def RG_LIM0 (g : Nat) : Nat := 0x30018 + 0x2000 * g
def RG_LIM0_ILIM (g : Nat) : Fld := ⟨(RG_LIM0 g), 0, 15⟩
def RG_LIM0_IWMAX (g : Nat) : Fld := ⟨(RG_LIM0 g), 16, 15⟩
/-- RG_LIM1: Table 7.8 (R218). -/
def RG_LIM1 (g : Nat) : Nat := 0x3001c + 0x2000 * g
def RG_LIM1_UMIN (g : Nat) : Fld := ⟨(RG_LIM1 g), 0, 16⟩
def RG_LIM1_UMAX (g : Nat) : Fld := ⟨(RG_LIM1 g), 16, 16⟩
/-- RG_LIM2: Table 7.8 (R218). -/
def RG_LIM2 (g : Nat) : Nat := 0x30020 + 0x2000 * g
def RG_LIM2_UPIMAX (g : Nat) : Fld := ⟨(RG_LIM2 g), 0, 16⟩
def RG_LIM2_UREPMAX (g : Nat) : Fld := ⟨(RG_LIM2 g), 16, 16⟩
/-- RG_LIM3: Table 7.8 (R218). -/
def RG_LIM3 (g : Nat) : Nat := 0x30024 + 0x2000 * g
def RG_LIM3_PPHMAX (g : Nat) : Fld := ⟨(RG_LIM3 g), 0, 16⟩
def RG_LIM3_VDCMIN (g : Nat) : Fld := ⟨(RG_LIM3 g), 16, 16⟩
/-- RG_LIM4: Table 7.8 (R218). -/
def RG_LIM4 (g : Nat) : Nat := 0x30028 + 0x2000 * g
def RG_LIM4_VCHON (g : Nat) : Fld := ⟨(RG_LIM4 g), 0, 16⟩
def RG_LIM4_VPKMIN (g : Nat) : Fld := ⟨(RG_LIM4 g), 16, 16⟩
/-- RG_REPCFG: Table 7.9 (R218). -/
def RG_REPCFG (g : Nat) : Nat := 0x3002c + 0x2000 * g
def RG_REPCFG_LEAD (g : Nat) : Fld := ⟨(RG_REPCFG g), 0, 8⟩
def RG_REPCFG_QF (g : Nat) : Fld := ⟨(RG_REPCFG g), 8, 8⟩
/-- RG_ZTH: Table 7.9 (R218). -/
def RG_ZTH (g z : Nat) : Nat := 0x30030 + 0x2000 * g + 0x4 * z
def RG_ZTH_ZTH (g z : Nat) : Fld := ⟨(RG_ZTH g z), 0, 32⟩
/-- RG_ZHYS: Table 7.9 (R218). -/
def RG_ZHYS (g : Nat) : Nat := 0x3003c + 0x2000 * g
def RG_ZHYS_ZHYS (g : Nat) : Fld := ⟨(RG_ZHYS g), 0, 31⟩
/-- RG_FBCFG: Table 7.9 (R218). -/
def RG_FBCFG (g : Nat) : Nat := 0x30040 + 0x2000 * g
def RG_FBCFG_FBHOLD (g : Nat) : Fld := ⟨(RG_FBCFG g), 0, 8⟩
def RG_FBCFG_FBSTK (g : Nat) : Fld := ⟨(RG_FBCFG g), 8, 8⟩
def RG_FBCFG_DSTK (g : Nat) : Fld := ⟨(RG_FBCFG g), 16, 16⟩
/-- RG_RAMP0: Table 7.9 (R218). -/
def RG_RAMP0 (g : Nat) : Nat := 0x30044 + 0x2000 * g
def RG_RAMP0_RP (g : Nat) : Fld := ⟨(RG_RAMP0 g), 0, 16⟩
def RG_RAMP0_RQ (g : Nat) : Fld := ⟨(RG_RAMP0 g), 16, 16⟩
/-- RG_RAMP1: Table 7.9 (R218). -/
def RG_RAMP1 (g : Nat) : Nat := 0x30048 + 0x2000 * g
def RG_RAMP1_RVDC (g : Nat) : Fld := ⟨(RG_RAMP1 g), 0, 16⟩
def RG_RAMP1_RVC (g : Nat) : Fld := ⟨(RG_RAMP1 g), 16, 16⟩
/-- RG_REF: Table 7.10 (R218). -/
def RG_REF (g t : Nat) : Nat := 0x30050 + 0x2000 * g + 0x4 * t
def RG_REF_REF (g t : Nat) : Fld := ⟨(RG_REF g t), 0, 32⟩
/-- RG_REF3: Table 7.10 (R218). -/
def RG_REF3 (g : Nat) : Nat := 0x3005c + 0x2000 * g
def RG_REF3_REF (g : Nat) : Fld := ⟨(RG_REF3 g), 0, 16⟩
/-- RG_TGT: Table 7.10 (R218). -/
def RG_TGT (g t : Nat) : Nat := 0x30060 + 0x2000 * g + 0x4 * t
def RG_TGT_TGT (g t : Nat) : Fld := ⟨(RG_TGT g t), 0, 32⟩
/-- RG_TGT3: Table 7.10 (R218). -/
def RG_TGT3 (g : Nat) : Nat := 0x3006c + 0x2000 * g
def RG_TGT3_TGT (g : Nat) : Fld := ⟨(RG_TGT3 g), 0, 16⟩
/-- RG_UREF: Table 7.10 (R218). -/
def RG_UREF (g : Nat) : Nat := 0x30070 + 0x2000 * g
def RG_UREF_UREF (g : Nat) : Fld := ⟨(RG_UREF g), 0, 32⟩
/-- RG_IREF: Table 7.10 (R218). -/
def RG_IREF (g : Nat) : Nat := 0x30074 + 0x2000 * g
def RG_IREF_IREF (g : Nat) : Fld := ⟨(RG_IREF g), 0, 16⟩
def RG_IREF_I1 (g : Nat) : Fld := ⟨(RG_IREF g), 16, 16⟩
/-- RG_XARM: Table 7.10 (R218). -/
def RG_XARM (g : Nat) : Nat := 0x30078 + 0x2000 * g
def RG_XARM_XA (g : Nat) : Fld := ⟨(RG_XARM g), 0, 32⟩
/-- RG_LAWSTAT: Table 7.11 (R218). -/
def RG_LAWSTAT (g : Nat) : Nat := 0x3007c + 0x2000 * g
def RG_LAWSTAT_ICLAMP (g : Nat) : Fld := ⟨(RG_LAWSTAT g), 0, 1⟩
def RG_LAWSTAT_ULIM (g : Nat) : Fld := ⟨(RG_LAWSTAT g), 1, 1⟩
def RG_LAWSTAT_ZCHG (g : Nat) : Fld := ⟨(RG_LAWSTAT g), 2, 1⟩
def RG_LAWSTAT_ZFRZ (g : Nat) : Fld := ⟨(RG_LAWSTAT g), 3, 1⟩
def RG_LAWSTAT_FBLOSS (g : Nat) : Fld := ⟨(RG_LAWSTAT g), 4, 1⟩
def RG_LAWSTAT_FBEXP (g : Nat) : Fld := ⟨(RG_LAWSTAT g), 5, 1⟩
def RG_LAWSTAT_LMISS (g : Nat) : Fld := ⟨(RG_LAWSTAT g), 6, 1⟩
def RG_LAWSTAT_SPLATE (g : Nat) : Fld := ⟨(RG_LAWSTAT g), 7, 1⟩
def RG_LAWSTAT_REPOFF (g : Nat) : Fld := ⟨(RG_LAWSTAT g), 8, 1⟩
def RG_LAWSTAT_ZCHGCNT (g : Nat) : Fld := ⟨(RG_LAWSTAT g), 16, 16⟩
/-- RG_FBSTAT: Table 7.11 (R218). -/
def RG_FBSTAT (g : Nat) : Nat := 0x30080 + 0x2000 * g
def RG_FBSTAT_STALE (g : Nat) : Fld := ⟨(RG_FBSTAT g), 0, 5⟩
def RG_FBSTAT_STUCK (g : Nat) : Fld := ⟨(RG_FBSTAT g), 8, 5⟩
def RG_FBSTAT_HOLDCNT (g : Nat) : Fld := ⟨(RG_FBSTAT g), 16, 8⟩
/-- RG_LAWCNT: Table 7.11 (R218). -/
def RG_LAWCNT (g : Nat) : Nat := 0x30084 + 0x2000 * g
def RG_LAWCNT_LMISSCNT (g : Nat) : Fld := ⟨(RG_LAWCNT g), 0, 16⟩
def RG_LAWCNT_FBHCNT (g : Nat) : Fld := ⟨(RG_LAWCNT g), 16, 16⟩
/-- RG_SPQ: Table 7.11 (R218). -/
def RG_SPQ (g : Nat) : Nat := 0x30088 + 0x2000 * g
def RG_SPQ_DEPTH (g : Nat) : Fld := ⟨(RG_SPQ g), 0, 4⟩
def RG_SPQ_SUPCNT (g : Nat) : Fld := ⟨(RG_SPQ g), 16, 16⟩
/-- RG_KP: Table 7.12 (R218). -/
def RG_KP (g z l : Nat) : Nat := 0x30100 + 0x2000 * g + 0x40 * z + 0x8 * l
def RG_KP_M (g z l : Nat) : Fld := ⟨(RG_KP g z l), 0, 16⟩
def RG_KP_SH (g z l : Nat) : Fld := ⟨(RG_KP g z l), 16, 5⟩
/-- RG_KI: Table 7.12 (R218). -/
def RG_KI (g z l : Nat) : Nat := 0x30104 + 0x2000 * g + 0x40 * z + 0x8 * l
def RG_KI_M (g z l : Nat) : Fld := ⟨(RG_KI g z l), 0, 16⟩
def RG_KI_SH (g z l : Nat) : Fld := ⟨(RG_KI g z l), 16, 5⟩
/-- RG_KR: Table 7.12 (R218). -/
def RG_KR (g z : Nat) : Nat := 0x30120 + 0x2000 * g + 0x40 * z
def RG_KR_M (g z : Nat) : Fld := ⟨(RG_KR g z), 0, 16⟩
def RG_KR_SH (g z : Nat) : Fld := ⟨(RG_KR g z), 16, 5⟩
/-- CH_VCFG: Table 8.9 (R241). -/
def CH_VCFG (g : Nat) : Nat := 0x30600 + 0x2000 * g
def CH_VCFG_RSRATE (g : Nat) : Fld := ⟨(CH_VCFG g), 0, 8⟩
def CH_VCFG_RSN (g : Nat) : Fld := ⟨(CH_VCFG g), 8, 8⟩
def CH_VCFG_MAXGU (g : Nat) : Fld := ⟨(CH_VCFG g), 16, 4⟩
/-- CH_VSTAT: Table 8.9 (R241). -/
def CH_VSTAT (g : Nat) : Nat := 0x30604 + 0x2000 * g
def CH_VSTAT_NACT (g : Nat) : Fld := ⟨(CH_VSTAT g), 0, 2⟩
def CH_VSTAT_STBY (g : Nat) : Fld := ⟨(CH_VSTAT g), 2, 1⟩
def CH_VSTAT_SRC (g : Nat) : Fld := ⟨(CH_VSTAT g), 4, 2⟩
def CH_VSTAT_NSEG (g : Nat) : Fld := ⟨(CH_VSTAT g), 8, 8⟩
/-- CH_VEVT: Table 8.9 (R241). -/
def CH_VEVT (g : Nat) : Nat := 0x30608 + 0x2000 * g
def CH_VEVT_GIVEUP (g : Nat) : Fld := ⟨(CH_VEVT g), 0, 1⟩
def CH_VEVT_NOAGREE (g : Nat) : Fld := ⟨(CH_VEVT g), 1, 1⟩
def CH_VEVT_SOLE (g : Nat) : Fld := ⟨(CH_VEVT g), 2, 1⟩
def CH_VEVT_VMISS (g : Nat) : Fld := ⟨(CH_VEVT g), 3, 1⟩
def CH_VEVT_PROMOTE (g : Nat) : Fld := ⟨(CH_VEVT g), 4, 1⟩
def CH_VEVT_LOST (g : Nat) : Fld := ⟨(CH_VEVT g), 5, 1⟩
def CH_VEVT_RSDONE (g : Nat) : Fld := ⟨(CH_VEVT g), 6, 1⟩
/-- CH_VCNT: Table 8.10 (R241). -/
def CH_VCNT (g : Nat) : Nat := 0x3060c + 0x2000 * g
def CH_VCNT_VMISSCNT (g : Nat) : Fld := ⟨(CH_VCNT g), 0, 16⟩
def CH_VCNT_DISCNT (g : Nat) : Fld := ⟨(CH_VCNT g), 16, 16⟩
/-- CH_VMULL: Table 8.10 (R241). -/
def CH_VMULL (g : Nat) : Nat := 0x30610 + 0x2000 * g
def CH_VMULL_DIGEST (g : Nat) : Fld := ⟨(CH_VMULL g), 0, 32⟩
/-- CH_STAT: Table 8.10 (R241). -/
def CH_STAT (g c : Nat) : Nat := 0x30640 + 0x2000 * g + 0x20 * c
def CH_STAT_STATE (g c : Nat) : Fld := ⟨(CH_STAT g c), 0, 3⟩
def CH_STAT_CAUSE (g c : Nat) : Fld := ⟨(CH_STAT g c), 4, 4⟩
def CH_STAT_RSPROG (g c : Nat) : Fld := ⟨(CH_STAT g c), 8, 8⟩
def CH_STAT_RSOK (g c : Nat) : Fld := ⟨(CH_STAT g c), 16, 8⟩
def CH_STAT_RSFAIL (g c : Nat) : Fld := ⟨(CH_STAT g c), 24, 2⟩
/-- CH_CNT: Table 8.10 (R241). -/
def CH_CNT (g c : Nat) : Nat := 0x30644 + 0x2000 * g + 0x20 * c
def CH_CNT_GUCNT (g c : Nat) : Fld := ⟨(CH_CNT g c), 0, 8⟩
def CH_CNT_LATE (g c : Nat) : Fld := ⟨(CH_CNT g c), 8, 3⟩
def CH_CNT_PROMCNT (g c : Nat) : Fld := ⟨(CH_CNT g c), 16, 16⟩
/-- GL_TWCFG: Table 8.11 (R241). -/
def GL_TWCFG : Nat := 0x100
def GL_TWCFG_PAIR : Fld := ⟨GL_TWCFG, 0, 1⟩
def GL_TWCFG_END : Fld := ⟨GL_TWCFG, 1, 1⟩
def GL_TWCFG_TWLOSS : Fld := ⟨GL_TWCFG, 8, 8⟩
def GL_TWCFG_RSRATE : Fld := ⟨GL_TWCFG, 16, 8⟩
def GL_TWCFG_RSN : Fld := ⟨GL_TWCFG, 24, 8⟩
/-- GL_TWSTAT: Table 8.11 (R241). -/
def GL_TWSTAT : Nat := 0x104
def GL_TWSTAT_ROLE : Fld := ⟨GL_TWSTAT, 0, 3⟩
def GL_TWSTAT_TWUP : Fld := ⟨GL_TWSTAT, 3, 1⟩
def GL_TWSTAT_PEERACT : Fld := ⟨GL_TWSTAT, 4, 1⟩
/-- GL_TWEVT: Table 8.11 (R241). -/
def GL_TWEVT : Nat := 0x108
def GL_TWEVT_HANDOVER : Fld := ⟨GL_TWEVT, 0, 1⟩
def GL_TWEVT_TWLOST : Fld := ⟨GL_TWEVT, 1, 1⟩
def GL_TWEVT_TWSILENT : Fld := ⟨GL_TWEVT, 2, 1⟩
def GL_TWEVT_ARBLATE : Fld := ⟨GL_TWEVT, 3, 1⟩
def GL_TWEVT_MULLDIF : Fld := ⟨GL_TWEVT, 4, 1⟩
def GL_TWEVT_IMGDIF : Fld := ⟨GL_TWEVT, 5, 1⟩
def GL_TWEVT_DUAL : Fld := ⟨GL_TWEVT, 6, 1⟩
/-- GL_TWCNT: Table 8.11 (R241). -/
def GL_TWCNT : Nat := 0x10c
def GL_TWCNT_HOCNT : Fld := ⟨GL_TWCNT, 0, 16⟩
def GL_TWCNT_ARBLCNT : Fld := ⟨GL_TWCNT, 16, 16⟩
/-- AD_STAT: Table 9.5 (R260). -/
def AD_STAT : Nat := 0x7000
def AD_STAT_RUN : Fld := ⟨AD_STAT, 0, 4⟩
def AD_STAT_LP : Fld := ⟨AD_STAT, 4, 4⟩
def AD_STAT_CALOK : Fld := ⟨AD_STAT, 8, 4⟩
/-- AD_EVT: Table 9.5 (R260). -/
def AD_EVT : Nat := 0x7004
def AD_EVT_MMISS : Fld := ⟨AD_EVT, 0, 1⟩
def AD_EVT_QOVF : Fld := ⟨AD_EVT, 1, 1⟩
def AD_EVT_CALSAT : Fld := ⟨AD_EVT, 2, 1⟩
/-- AD_OVR: Table 9.5 (R260). -/
def AD_OVR : Nat := 0x7008
def AD_OVR_OVR : Fld := ⟨AD_OVR, 0, 32⟩
/-- AD_QSTAT: Table 9.5 (R260). -/
def AD_QSTAT : Nat := 0x700c
def AD_QSTAT_LEVEL : Fld := ⟨AD_QSTAT, 0, 12⟩
def AD_QSTAT_DROPCNT : Fld := ⟨AD_QSTAT, 16, 16⟩
/-- AD_QLO: Table 9.5 (R260). -/
def AD_QLO : Nat := 0x7010
def AD_QLO_ENTRY : Fld := ⟨AD_QLO, 0, 32⟩
/-- AD_QHI: Table 9.5 (R260). -/
def AD_QHI : Nat := 0x7014
def AD_QHI_ENTRY : Fld := ⟨AD_QHI, 0, 32⟩
/-- AD_GCFG: Table 9.6 (R260). -/
def AD_GCFG (a : Nat) : Nat := 0x7100 + 0x40 * a
def AD_GCFG_EN (a : Nat) : Fld := ⟨(AD_GCFG a), 0, 1⟩
def AD_GCFG_LPMODE (a : Nat) : Fld := ⟨(AD_GCFG a), 1, 2⟩
def AD_GCFG_LEN (a : Nat) : Fld := ⟨(AD_GCFG a), 4, 4⟩
/-- AD_SEQ0: Table 9.6 (R260). -/
def AD_SEQ0 (a : Nat) : Nat := 0x7104 + 0x40 * a
def AD_SEQ0_ENT (a : Nat) : Fld := ⟨(AD_SEQ0 a), 0, 24⟩
/-- AD_SEQ1: Table 9.6 (R260). -/
def AD_SEQ1 (a : Nat) : Nat := 0x7108 + 0x40 * a
def AD_SEQ1_ENT (a : Nat) : Fld := ⟨(AD_SEQ1 a), 0, 24⟩
/-- AD_CALCFG: Table 9.6 (R260). -/
def AD_CALCFG (a : Nat) : Nat := 0x710c + 0x40 * a
def AD_CALCFG_CALN (a : Nat) : Fld := ⟨(AD_CALCFG a), 0, 8⟩
def AD_CALCFG_CALDIV (a : Nat) : Fld := ⟨(AD_CALCFG a), 8, 4⟩
def AD_CALCFG_MU (a : Nat) : Fld := ⟨(AD_CALCFG a), 12, 3⟩
/-- AD_GSTAT: Table 9.6 (R260). -/
def AD_GSTAT (a : Nat) : Nat := 0x7110 + 0x40 * a
def AD_GSTAT_OUT (a : Nat) : Fld := ⟨(AD_GSTAT a), 0, 4⟩
def AD_GSTAT_NOROT (a : Nat) : Fld := ⟨(AD_GSTAT a), 4, 1⟩
def AD_GSTAT_GFAIL (a : Nat) : Fld := ⟨(AD_GSTAT a), 5, 1⟩
def AD_GSTAT_CALOK (a : Nat) : Fld := ⟨(AD_GSTAT a), 6, 1⟩
def AD_GSTAT_SLOK (a : Nat) : Fld := ⟨(AD_GSTAT a), 8, 9⟩
/-- AD_INJ: Table 9.6 (R260). -/
def AD_INJ (a : Nat) : Nat := 0x7114 + 0x40 * a
def AD_INJ_INPUT (a : Nat) : Fld := ⟨(AD_INJ a), 0, 3⟩
def AD_INJ_GO (a : Nat) : Fld := ⟨(AD_INJ a), 3, 1⟩
/-- AD_INJCNT: Table 9.6 (R260). -/
def AD_INJCNT (a : Nat) : Nat := 0x7118 + 0x40 * a
def AD_INJCNT_ACCEPT (a : Nat) : Fld := ⟨(AD_INJCNT a), 0, 16⟩
def AD_INJCNT_DROP (a : Nat) : Fld := ⟨(AD_INJCNT a), 16, 16⟩
/-- AD_CALCNT: Table 9.6 (R260). -/
def AD_CALCNT (a : Nat) : Nat := 0x711c + 0x40 * a
def AD_CALCNT_STEPS (a : Nat) : Fld := ⟨(AD_CALCNT a), 0, 16⟩
def AD_CALCNT_SLIPS (a : Nat) : Fld := ⟨(AD_CALCNT a), 16, 16⟩
/-- AD_SLCOEF: Table 9.7 (R260). -/
def AD_SLCOEF (a i : Nat) : Nat := 0x7200 + 0x80 * a + 0x8 * i
def AD_SLCOEF_OFS (a i : Nat) : Fld := ⟨(AD_SLCOEF a i), 0, 16⟩
def AD_SLCOEF_GAIN (a i : Nat) : Fld := ⟨(AD_SLCOEF a i), 16, 16⟩
/-- AD_SLSKEW: Table 9.7 (R260). -/
def AD_SLSKEW (a i : Nat) : Nat := 0x7204 + 0x80 * a + 0x8 * i
def AD_SLSKEW_SKEW (a i : Nat) : Fld := ⟨(AD_SLSKEW a i), 0, 16⟩
/-- AD_INCFG: Table 9.7 (R260). -/
def AD_INCFG (i : Nat) : Nat := 0x7400 + 0x10 * i
def AD_INCFG_WDIV (i : Nat) : Fld := ⟨(AD_INCFG i), 0, 3⟩
def AD_INCFG_FMT (i : Nat) : Fld := ⟨(AD_INCFG i), 3, 1⟩
def AD_INCFG_QEN (i : Nat) : Fld := ⟨(AD_INCFG i), 4, 1⟩
/-- AD_INSC: Table 9.7 (R260). -/
def AD_INSC (i : Nat) : Nat := 0x7404 + 0x10 * i
def AD_INSC_M (i : Nat) : Fld := ⟨(AD_INSC i), 0, 16⟩
def AD_INSC_SH (i : Nat) : Fld := ⟨(AD_INSC i), 16, 5⟩
/-- AD_INOFS: Table 9.7 (R260). -/
def AD_INOFS (i : Nat) : Nat := 0x7408 + 0x10 * i
def AD_INOFS_OFS (i : Nat) : Fld := ⟨(AD_INOFS i), 0, 32⟩
/-- PSUMLO: Table 9.7 (R260). -/
def PSUMLO (i : Nat) : Nat := 0x7800 + 0x20 * i
def PSUMLO_SUM (i : Nat) : Fld := ⟨(PSUMLO i), 0, 32⟩
/-- WSUMLO: Table 9.7 (R260). -/
def WSUMLO (i : Nat) : Nat := 0x780c + 0x20 * i
def WSUMLO_SUM (i : Nat) : Fld := ⟨(WSUMLO i), 0, 32⟩
/-- PSUMHI: Table 9.7 (R260). -/
def PSUMHI (i : Nat) : Nat := 0x7804 + 0x20 * i
def PSUMHI_SUMH (i : Nat) : Fld := ⟨(PSUMHI i), 0, 8⟩
def PSUMHI_COUNT (i : Nat) : Fld := ⟨(PSUMHI i), 8, 24⟩
/-- WSUMHI: Table 9.7 (R260). -/
def WSUMHI (i : Nat) : Nat := 0x7810 + 0x20 * i
def WSUMHI_SUMH (i : Nat) : Fld := ⟨(WSUMHI i), 0, 8⟩
def WSUMHI_COUNT (i : Nat) : Fld := ⟨(WSUMHI i), 8, 24⟩
/-- PMINMAX: Table 9.7 (R260). -/
def PMINMAX (i : Nat) : Nat := 0x7808 + 0x20 * i
def PMINMAX_MIN (i : Nat) : Fld := ⟨(PMINMAX i), 0, 16⟩
def PMINMAX_MAX (i : Nat) : Fld := ⟨(PMINMAX i), 16, 16⟩
/-- WMINMAX: Table 9.7 (R260). -/
def WMINMAX (i : Nat) : Nat := 0x7814 + 0x20 * i
def WMINMAX_MIN (i : Nat) : Fld := ⟨(WMINMAX i), 0, 16⟩
def WMINMAX_MAX (i : Nat) : Fld := ⟨(WMINMAX i), 16, 16⟩
/-- AD_MEAN: Table 9.7 (R260). -/
def AD_MEAN (i : Nat) : Nat := 0x7818 + 0x20 * i
def AD_MEAN_MEAN (i : Nat) : Fld := ⟨(AD_MEAN i), 0, 32⟩
/-- AD_ACCINF: Table 9.7 (R260). -/
def AD_ACCINF (i : Nat) : Nat := 0x781c + 0x20 * i
def AD_ACCINF_PSEQ (i : Nat) : Fld := ⟨(AD_ACCINF i), 0, 8⟩
def AD_ACCINF_WIDX (i : Nat) : Fld := ⟨(AD_ACCINF i), 8, 5⟩
/-- PL_REFCFG: Table 10.5 (R285). -/
def PL_REFCFG : Nat := 0x4000
def PL_REFCFG_FREF : Fld := ⟨PL_REFCFG, 0, 16⟩
def PL_REFCFG_TOL : Fld := ⟨PL_REFCFG, 16, 8⟩
/-- PL_STAT: Table 10.5 (R285). -/
def PL_STAT : Nat := 0x4004
def PL_STAT_TLOCK : Fld := ⟨PL_STAT, 0, 1⟩
def PL_STAT_SLOCK : Fld := ⟨PL_STAT, 1, 1⟩
def PL_STAT_REFOK : Fld := ⟨PL_STAT, 2, 1⟩
def PL_STAT_TPEND : Fld := ⟨PL_STAT, 3, 1⟩
def PL_STAT_SPEND : Fld := ⟨PL_STAT, 4, 1⟩
/-- PL_EVT: Table 10.5 (R285). -/
def PL_EVT : Nat := 0x4008
def PL_EVT_TLOL : Fld := ⟨PL_EVT, 0, 1⟩
def PL_EVT_SLOL : Fld := ⟨PL_EVT, 1, 1⟩
def PL_EVT_REFLOS : Fld := ⟨PL_EVT, 2, 1⟩
/-- PL_TDIV0: Table 10.5 (R285). -/
def PL_TDIV0 : Nat := 0x4010
def PL_TDIV0_NINT : Fld := ⟨PL_TDIV0, 0, 10⟩
def PL_TDIV0_REFM : Fld := ⟨PL_TDIV0, 10, 2⟩
/-- PL_SDIV0: Table 10.5 (R285). -/
def PL_SDIV0 : Nat := 0x4020
def PL_SDIV0_NINT : Fld := ⟨PL_SDIV0, 0, 10⟩
def PL_SDIV0_REFM : Fld := ⟨PL_SDIV0, 10, 2⟩
/-- PL_TDIV1: Table 10.5 (R285). -/
def PL_TDIV1 : Nat := 0x4014
def PL_TDIV1_NFRAC : Fld := ⟨PL_TDIV1, 0, 24⟩
/-- PL_SDIV1: Table 10.5 (R285). -/
def PL_SDIV1 : Nat := 0x4024
def PL_SDIV1_NFRAC : Fld := ⟨PL_SDIV1, 0, 24⟩
/-- PL_TCTL: Table 10.5 (R285). -/
def PL_TCTL : Nat := 0x4018
def PL_TCTL_UPD : Fld := ⟨PL_TCTL, 0, 1⟩
def PL_TCTL_BAND : Fld := ⟨PL_TCTL, 8, 6⟩
def PL_TCTL_PHSCNT : Fld := ⟨PL_TCTL, 16, 16⟩
/-- PL_SCTL: Table 10.5 (R285). -/
def PL_SCTL : Nat := 0x4028
def PL_SCTL_UPD : Fld := ⟨PL_SCTL, 0, 1⟩
def PL_SCTL_BAND : Fld := ⟨PL_SCTL, 8, 6⟩
def PL_SCTL_PHSCNT : Fld := ⟨PL_SCTL, 16, 16⟩
/-- PL_SPHS: Table 10.5 (R285). -/
def PL_SPHS : Nat := 0x402c
def PL_SPHS_STEPS : Fld := ⟨PL_SPHS, 0, 8⟩
/-- TM_CFG: Table 10.8 (R285). -/
def TM_CFG : Nat := 0x5000
def TM_CFG_DOMAIN : Fld := ⟨TM_CFG, 0, 8⟩
def TM_CFG_PORTEN : Fld := ⟨TM_CFG, 8, 2⟩
def TM_CFG_FREERUN : Fld := ⟨TM_CFG, 10, 1⟩
def TM_CFG_ANNTO : Fld := ⟨TM_CFG, 12, 4⟩
/-- TM_SRVCFG: Table 10.8 (R285). -/
def TM_SRVCFG : Nat := 0x5004
def TM_SRVCFG_LOCKTH : Fld := ⟨TM_SRVCFG, 0, 16⟩
def TM_SRVCFG_HOMAX : Fld := ⟨TM_SRVCFG, 16, 16⟩
/-- TM_JMPCFG: Table 10.8 (R285). -/
def TM_JMPCFG : Nat := 0x5008
def TM_JMPCFG_JMAX : Fld := ⟨TM_JMPCFG, 0, 16⟩
def TM_JMPCFG_SLEW : Fld := ⟨TM_JMPCFG, 16, 7⟩
/-- TM_PCOR: Table 10.8 (R285). -/
def TM_PCOR (x : Nat) : Nat := 0x500c + 0x4 * x
def TM_PCOR_INGCOR (x : Nat) : Fld := ⟨(TM_PCOR x), 0, 16⟩
def TM_PCOR_EGRCOR (x : Nat) : Fld := ⟨(TM_PCOR x), 16, 16⟩
/-- TM_INCR: Table 10.8 (R285). -/
def TM_INCR : Nat := 0x501c
def TM_INCR_CORR : Fld := ⟨TM_INCR, 0, 32⟩
/-- TM_ADJ: Table 10.8 (R285). -/
def TM_ADJ : Nat := 0x5020
def TM_ADJ_OFS : Fld := ⟨TM_ADJ, 0, 32⟩
/-- TM_JUMPLO: Table 10.8 (R285). -/
def TM_JUMPLO : Nat := 0x5024
def TM_JUMPLO_JLO : Fld := ⟨TM_JUMPLO, 0, 32⟩
/-- TM_JUMPHI: Table 10.8 (R285). -/
def TM_JUMPHI : Nat := 0x5028
def TM_JUMPHI_JHI : Fld := ⟨TM_JUMPHI, 0, 16⟩
/-- TM_STAT: Table 10.9 (R285). -/
def TM_STAT : Nat := 0x5014
def TM_STAT_STATE : Fld := ⟨TM_STAT, 0, 3⟩
def TM_STAT_PORT : Fld := ⟨TM_STAT, 3, 1⟩
def TM_STAT_TODV : Fld := ⟨TM_STAT, 4, 1⟩
def TM_STAT_SLEWING : Fld := ⟨TM_STAT, 5, 1⟩
def TM_STAT_JUMPPEND : Fld := ⟨TM_STAT, 6, 1⟩
/-- TM_EVT: Table 10.9 (R285). -/
def TM_EVT : Nat := 0x5018
def TM_EVT_JUMP : Fld := ⟨TM_EVT, 0, 1⟩
def TM_EVT_JUMPREF : Fld := ⟨TM_EVT, 1, 1⟩
def TM_EVT_HOLD : Fld := ⟨TM_EVT, 2, 1⟩
def TM_EVT_HOEXP : Fld := ⟨TM_EVT, 3, 1⟩
def TM_EVT_MASTCHG : Fld := ⟨TM_EVT, 4, 1⟩
def TM_EVT_TODINIT : Fld := ⟨TM_EVT, 5, 1⟩
/-- TM_CNT: Table 10.9 (R285). -/
def TM_CNT : Nat := 0x502c
def TM_CNT_IGNCNT : Fld := ⟨TM_CNT, 0, 16⟩
def TM_CNT_SYNCCNT : Fld := ⟨TM_CNT, 16, 16⟩
/-- TM_NOW0: Table 10.9 (R285). -/
def TM_NOW0 : Nat := 0x5030
def TM_NOW0_FRAC : Fld := ⟨TM_NOW0, 0, 16⟩
/-- TM_NOW1: Table 10.9 (R285). -/
def TM_NOW1 : Nat := 0x5034
def TM_NOW1_NS : Fld := ⟨TM_NOW1, 0, 30⟩
/-- TM_NOW2: Table 10.9 (R285). -/
def TM_NOW2 : Nat := 0x5038
def TM_NOW2_SECLO : Fld := ⟨TM_NOW2, 0, 32⟩
/-- TM_NOW3: Table 10.9 (R285). -/
def TM_NOW3 : Nat := 0x503c
def TM_NOW3_SECHI : Fld := ⟨TM_NOW3, 0, 16⟩
/-- TM_OFS: Table 10.9 (R285). -/
def TM_OFS : Nat := 0x5040
def TM_OFS_OFS : Fld := ⟨TM_OFS, 0, 32⟩
/-- TM_PDLY: Table 10.9 (R285). -/
def TM_PDLY : Nat := 0x5044
def TM_PDLY_PDLY : Fld := ⟨TM_PDLY, 0, 32⟩
/-- TM_PERIOD: Table 10.9 (R285). -/
def TM_PERIOD : Nat := 0x5048
def TM_PERIOD_J : Fld := ⟨TM_PERIOD, 0, 32⟩
/-- TM_UTC: Table 10.9 (R285). -/
def TM_UTC : Nat := 0x504c
def TM_UTC_UTCOFS : Fld := ⟨TM_UTC, 0, 16⟩
def TM_UTC_UTCV : Fld := ⟨TM_UTC, 16, 1⟩
/-- TM_GMID: Table 10.9 (R285). -/
def TM_GMID (w : Nat) : Nat := 0x5050 + 0x4 * w
def TM_GMID_ID (w : Nat) : Fld := ⟨(TM_GMID w), 0, 32⟩
/-- FC_SUM: Table 11.5 (R306). -/
def FC_SUM : Nat := 0x2000
def FC_SUM_NOTICE : Fld := ⟨FC_SUM, 0, 1⟩
def FC_SUM_SERVICE : Fld := ⟨FC_SUM, 1, 1⟩
def FC_SUM_PROTR : Fld := ⟨FC_SUM, 2, 1⟩
def FC_SUM_PROTD : Fld := ⟨FC_SUM, 3, 1⟩
def FC_SUM_STOP : Fld := ⟨FC_SUM, 4, 1⟩
/-- FC_CHIP: Table 11.5 (R306). -/
def FC_CHIP : Nat := 0x2004
def FC_CHIP_SBE : Fld := ⟨FC_CHIP, 0, 1⟩
def FC_CHIP_DBEREC : Fld := ⟨FC_CHIP, 1, 1⟩
def FC_CHIP_DBETEL : Fld := ⟨FC_CHIP, 2, 1⟩
def FC_CHIP_DBECE : Fld := ⟨FC_CHIP, 3, 1⟩
def FC_CHIP_DBEBUF : Fld := ⟨FC_CHIP, 4, 1⟩
def FC_CHIP_DBEMULL : Fld := ⟨FC_CHIP, 5, 1⟩
def FC_CHIP_DBESV : Fld := ⟨FC_CHIP, 6, 1⟩
def FC_CHIP_LINKLOST : Fld := ⟨FC_CHIP, 7, 1⟩
def FC_CHIP_LINKLOST1 : Fld := ⟨FC_CHIP, 8, 1⟩
def FC_CHIP_AVS : Fld := ⟨FC_CHIP, 9, 1⟩
def FC_CHIP_TCRAISE : Fld := ⟨FC_CHIP, 10, 1⟩
def FC_CHIP_CLKSTOP : Fld := ⟨FC_CHIP, 11, 1⟩
def FC_CHIP_TJHI : Fld := ⟨FC_CHIP, 12, 1⟩
def FC_CHIP_TJTRIP : Fld := ⟨FC_CHIP, 13, 1⟩
def FC_CHIP_SUPPLY : Fld := ⟨FC_CHIP, 14, 1⟩
def FC_CHIP_BOOT : Fld := ⟨FC_CHIP, 15, 1⟩
def FC_CHIP_WREF : Fld := ⟨FC_CHIP, 16, 1⟩
/-- FC_CHIPCS: Table 11.5 (R306). -/
def FC_CHIPCS : Nat := 0x2008
def FC_CHIPCS_CS : Fld := ⟨FC_CHIPCS, 0, 17⟩
/-- FC_CFG: Table 11.5 (R306). -/
def FC_CFG : Nat := 0x200c
def FC_CFG_INJRUN : Fld := ⟨FC_CFG, 0, 1⟩
def FC_CFG_INJSTOP : Fld := ⟨FC_CFG, 1, 1⟩
/-- FC_TRIPCFG: Table 11.6 (R306). -/
def FC_TRIPCFG (x : Nat) : Nat := 0x2010 + 0x4 * x
def FC_TRIPCFG_EN (x : Nat) : Fld := ⟨(FC_TRIPCFG x), 0, 1⟩
def FC_TRIPCFG_POL (x : Nat) : Fld := ⟨(FC_TRIPCFG x), 1, 1⟩
def FC_TRIPCFG_FILT (x : Nat) : Fld := ⟨(FC_TRIPCFG x), 2, 8⟩
def FC_TRIPCFG_REGMASK (x : Nat) : Fld := ⟨(FC_TRIPCFG x), 10, 8⟩
def FC_TRIPCFG_DEV (x : Nat) : Fld := ⟨(FC_TRIPCFG x), 18, 1⟩
/-- FC_TRIPSTAT: Table 11.6 (R306). -/
def FC_TRIPSTAT : Nat := 0x2020
def FC_TRIPSTAT_RAW : Fld := ⟨FC_TRIPSTAT, 0, 4⟩
def FC_TRIPSTAT_FILT : Fld := ⟨FC_TRIPSTAT, 4, 4⟩
def FC_TRIPSTAT_TOUT : Fld := ⟨FC_TRIPSTAT, 8, 2⟩
/-- FC_TRIPEVT: Table 11.6 (R306). -/
def FC_TRIPEVT : Nat := 0x2024
def FC_TRIPEVT_TRIP : Fld := ⟨FC_TRIPEVT, 0, 4⟩
def FC_TRIPEVT_TRIPCNT : Fld := ⟨FC_TRIPEVT, 16, 16⟩
/-- FC_TOCFG: Table 11.6 (R306). -/
def FC_TOCFG : Nat := 0x2028
def FC_TOCFG_EN0 : Fld := ⟨FC_TOCFG, 0, 1⟩
def FC_TOCFG_DEVBLK0 : Fld := ⟨FC_TOCFG, 1, 1⟩
def FC_TOCFG_IDLEREL0 : Fld := ⟨FC_TOCFG, 2, 1⟩
def FC_TOCFG_RGMASK0 : Fld := ⟨FC_TOCFG, 8, 8⟩
def FC_TOCFG_EN1 : Fld := ⟨FC_TOCFG, 16, 1⟩
def FC_TOCFG_DEVBLK1 : Fld := ⟨FC_TOCFG, 17, 1⟩
def FC_TOCFG_IDLEREL1 : Fld := ⟨FC_TOCFG, 18, 1⟩
def FC_TOCFG_RGMASK1 : Fld := ⟨FC_TOCFG, 24, 8⟩
/-- FC_INJ: Table 11.7 (R306). -/
def FC_INJ : Nat := 0x202c
def FC_INJ_TARGET : Fld := ⟨FC_INJ, 0, 4⟩
def FC_INJ_DOUBLE : Fld := ⟨FC_INJ, 4, 1⟩
def FC_INJ_GO : Fld := ⟨FC_INJ, 5, 1⟩
def FC_INJ_INST : Fld := ⟨FC_INJ, 8, 13⟩
/-- FC_INJCNT: Table 11.7 (R306). -/
def FC_INJCNT : Nat := 0x2030
def FC_INJCNT_DONE : Fld := ⟨FC_INJCNT, 0, 16⟩
def FC_INJCNT_REFUSED : Fld := ⟨FC_INJCNT, 16, 16⟩
/-- FC_RSVEVT: Table 11.7 (R306). -/
def FC_RSVEVT : Nat := 0x2034
def FC_RSVEVT_RSV : Fld := ⟨FC_RSVEVT, 0, 8⟩
/-- FC_RSV: Table 11.7 (R306). -/
def FC_RSV (g : Nat) : Nat := 0x2040 + 0x4 * g
def FC_RSV_MINHLT (g : Nat) : Fld := ⟨(FC_RSV g), 0, 12⟩
/-- FC_SUMGL: Table 11.7 (R306). -/
def FC_SUMGL : Nat := 0x2060
def FC_SUMGL_BLK : Fld := ⟨FC_SUMGL, 0, 10⟩
/-- FC_SUMRG: Table 11.7 (R306). -/
def FC_SUMRG : Nat := 0x2064
def FC_SUMRG_RG : Fld := ⟨FC_SUMRG, 0, 8⟩
/-- FC_SUMQU: Table 11.7 (R306). -/
def FC_SUMQU (h : Nat) : Nat := 0x2068 + 0x4 * h
def FC_SUMQU_QU (h : Nat) : Fld := ⟨(FC_SUMQU h), 0, 32⟩
/-- FC_SUMLN: Table 11.7 (R306). -/
def FC_SUMLN (h : Nat) : Nat := 0x2070 + 0x4 * h
def FC_SUMLN_LN (h : Nat) : Fld := ⟨(FC_SUMLN h), 0, 32⟩
/-- FC_SUMCE: Table 11.7 (R306). -/
def FC_SUMCE (h : Nat) : Nat := 0x2084 + 0x4 * h
def FC_SUMCE_CE (h : Nat) : Fld := ⟨(FC_SUMCE h), 0, 32⟩
/-- FC_CESVC: Table 11.7 (R306). -/
def FC_CESVC (h : Nat) : Nat := 0x208c + 0x4 * h
def FC_CESVC_SVC (h : Nat) : Fld := ⟨(FC_CESVC h), 0, 32⟩
/-- FC_LINKRG: Table 11.7 (R306). -/
def FC_LINKRG : Nat := 0x2094
def FC_LINKRG_RG : Fld := ⟨FC_LINKRG, 0, 8⟩
/-- FC_AMCFG: Table 11.8 (R306). -/
def FC_AMCFG (i : Nat) : Nat := 0x2100 + 0x10 * i
def FC_AMCFG_ACT (i : Nat) : Fld := ⟨(FC_AMCFG i), 0, 2⟩
def FC_AMCFG_CONFN (i : Nat) : Fld := ⟨(FC_AMCFG i), 4, 4⟩
def FC_AMCFG_REGMASK (i : Nat) : Fld := ⟨(FC_AMCFG i), 8, 8⟩
/-- FC_AMHI: Table 11.8 (R306). -/
def FC_AMHI (i : Nat) : Nat := 0x2104 + 0x10 * i
def FC_AMHI_HI (i : Nat) : Fld := ⟨(FC_AMHI i), 0, 32⟩
/-- FC_AMLO: Table 11.8 (R306). -/
def FC_AMLO (i : Nat) : Nat := 0x2108 + 0x10 * i
def FC_AMLO_LO (i : Nat) : Fld := ⟨(FC_AMLO i), 0, 32⟩
/-- FC_AMSTAT: Table 11.8 (R306). -/
def FC_AMSTAT (i : Nat) : Nat := 0x210c + 0x10 * i
def FC_AMSTAT_HIT (i : Nat) : Fld := ⟨(FC_AMSTAT i), 0, 1⟩
def FC_AMSTAT_OUT (i : Nat) : Fld := ⟨(FC_AMSTAT i), 1, 1⟩
def FC_AMSTAT_RUN (i : Nat) : Fld := ⟨(FC_AMSTAT i), 8, 4⟩
/-- SF_OCFG: Table 12.7 (R323). -/
def SF_OCFG : Nat := 0x3000
def SF_OCFG_EN0 : Fld := ⟨SF_OCFG, 0, 1⟩
def SF_OCFG_EN1 : Fld := ⟨SF_OCFG, 1, 1⟩
def SF_OCFG_TPER : Fld := ⟨SF_OCFG, 8, 8⟩
def SF_OCFG_TPW : Fld := ⟨SF_OCFG, 16, 4⟩
def SF_OCFG_RSTMIN : Fld := ⟨SF_OCFG, 24, 8⟩
/-- SF_STAT: Table 12.7 (R323). -/
def SF_STAT : Nat := 0x3004
def SF_STAT_HLT : Fld := ⟨SF_STAT, 0, 8⟩
def SF_STAT_CLASP : Fld := ⟨SF_STAT, 8, 2⟩
def SF_STAT_OUT : Fld := ⟨SF_STAT, 10, 2⟩
def SF_STAT_RSTACT : Fld := ⟨SF_STAT, 12, 1⟩
def SF_STAT_DLOCK : Fld := ⟨SF_STAT, 16, 8⟩
/-- SF_EVT: Table 12.7 (R323). -/
def SF_EVT : Nat := 0x3008
def SF_EVT_DEMAND : Fld := ⟨SF_EVT, 0, 8⟩
def SF_EVT_DISC : Fld := ⟨SF_EVT, 8, 8⟩
def SF_EVT_RBOFF : Fld := ⟨SF_EVT, 16, 2⟩
def SF_EVT_RBON : Fld := ⟨SF_EVT, 18, 2⟩
/-- SF_CNT: Table 12.8 (R323). -/
def SF_CNT : Nat := 0x300c
def SF_CNT_DEMCNT : Fld := ⟨SF_CNT, 0, 16⟩
def SF_CNT_RSTCNT : Fld := ⟨SF_CNT, 16, 16⟩
/-- SF_RB: Table 12.8 (R323). -/
def SF_RB : Nat := 0x3010
def SF_RB_HCMD : Fld := ⟨SF_RB, 0, 2⟩
def SF_RB_LCMD : Fld := ⟨SF_RB, 2, 2⟩
def SF_RB_HRB : Fld := ⟨SF_RB, 4, 2⟩
def SF_RB_LRB : Fld := ⟨SF_RB, 6, 2⟩
/-- SF_INCFG: Table 12.8 (R323). -/
def SF_INCFG (i : Nat) : Nat := 0x3020 + 0x4 * i
def SF_INCFG_EN (i : Nat) : Fld := ⟨(SF_INCFG i), 0, 1⟩
def SF_INCFG_MODE (i : Nat) : Fld := ⟨(SF_INCFG i), 1, 1⟩
def SF_INCFG_FILT (i : Nat) : Fld := ⟨(SF_INCFG i), 2, 8⟩
def SF_INCFG_TDISC (i : Nat) : Fld := ⟨(SF_INCFG i), 10, 10⟩
def SF_INCFG_OMASK (i : Nat) : Fld := ⟨(SF_INCFG i), 20, 2⟩
/-- DR_CFG: Table 13.6 (R340). -/
def DR_CFG : Nat := 0x8000
def DR_CFG_EN : Fld := ⟨DR_CFG, 0, 1⟩
def DR_CFG_AUTOARM : Fld := ⟨DR_CFG, 1, 1⟩
def DR_CFG_RING : Fld := ⟨DR_CFG, 2, 1⟩
def DR_CFG_NRECL : Fld := ⟨DR_CFG, 4, 3⟩
def DR_CFG_PRE : Fld := ⟨DR_CFG, 8, 4⟩
def DR_CFG_HOR : Fld := ⟨DR_CFG, 12, 4⟩
def DR_CFG_POSTMAX : Fld := ⟨DR_CFG, 16, 16⟩
/-- DR_SRCCFG: Table 13.6 (R340). -/
def DR_SRCCFG : Nat := 0x8004
def DR_SRCCFG_CELLRG : Fld := ⟨DR_SRCCFG, 0, 8⟩
def DR_SRCCFG_ARMRG : Fld := ⟨DR_SRCCFG, 8, 8⟩
def DR_SRCCFG_VDB : Fld := ⟨DR_SRCCFG, 16, 8⟩
def DR_SRCCFG_FLAGEN : Fld := ⟨DR_SRCCFG, 24, 1⟩
def DR_SRCCFG_CELLEVEN : Fld := ⟨DR_SRCCFG, 25, 1⟩
def DR_SRCCFG_MODEEN : Fld := ⟨DR_SRCCFG, 26, 1⟩
/-- DR_AINSEL: Table 13.6 (R340). -/
def DR_AINSEL : Nat := 0x8008
def DR_AINSEL_SEL : Fld := ⟨DR_AINSEL, 0, 32⟩
/-- DR_AINWIN: Table 13.6 (R340). -/
def DR_AINWIN : Nat := 0x800c
def DR_AINWIN_WIN : Fld := ⟨DR_AINWIN, 0, 32⟩
/-- DR_XCFG: Table 13.6 (R340). -/
def DR_XCFG : Nat := 0x8010
def DR_XCFG_XIN0EN : Fld := ⟨DR_XCFG, 0, 1⟩
def DR_XCFG_XIN1EN : Fld := ⟨DR_XCFG, 1, 1⟩
def DR_XCFG_XOUT0EN : Fld := ⟨DR_XCFG, 2, 1⟩
def DR_XCFG_XOUT1EN : Fld := ⟨DR_XCFG, 3, 1⟩
def DR_XCFG_TWIN : Fld := ⟨DR_XCFG, 4, 1⟩
def DR_XCFG_TWOUT : Fld := ⟨DR_XCFG, 5, 1⟩
def DR_XCFG_XFILT : Fld := ⟨DR_XCFG, 8, 8⟩
def DR_XCFG_XPW : Fld := ⟨DR_XCFG, 16, 8⟩
/-- DR_XSKEW: Table 13.6 (R340). -/
def DR_XSKEW : Nat := 0x8014
def DR_XSKEW_SKEW0 : Fld := ⟨DR_XSKEW, 0, 16⟩
def DR_XSKEW_SKEW1 : Fld := ⟨DR_XSKEW, 16, 16⟩
/-- DR_CTL: Table 13.6 (R340). -/
def DR_CTL : Nat := 0x8018
def DR_CTL_ARM : Fld := ⟨DR_CTL, 0, 1⟩
def DR_CTL_FORCE : Fld := ⟨DR_CTL, 1, 1⟩
def DR_CTL_DISARM : Fld := ⟨DR_CTL, 2, 1⟩
def DR_CTL_REL : Fld := ⟨DR_CTL, 16, 16⟩
/-- DR_STAT: Table 13.7 (R340). -/
def DR_STAT : Nat := 0x801c
def DR_STAT_STATE : Fld := ⟨DR_STAT, 0, 2⟩
def DR_STAT_CUR : Fld := ⟨DR_STAT, 4, 4⟩
def DR_STAT_FULL : Fld := ⟨DR_STAT, 16, 16⟩
/-- DR_EVT: Table 13.7 (R340). -/
def DR_EVT : Nat := 0x8020
def DR_EVT_DROP : Fld := ⟨DR_EVT, 0, 1⟩
def DR_EVT_LATE : Fld := ⟨DR_EVT, 1, 1⟩
def DR_EVT_HELD : Fld := ⟨DR_EVT, 2, 1⟩
/-- DR_CNT: Table 13.7 (R340). -/
def DR_CNT : Nat := 0x8024
def DR_CNT_DROPCNT : Fld := ⟨DR_CNT, 0, 16⟩
def DR_CNT_LATECNT : Fld := ⟨DR_CNT, 16, 16⟩
/-- DR_SECHI: Table 13.7 (R340). -/
def DR_SECHI : Nat := 0x8028
def DR_SECHI_SECHI : Fld := ⟨DR_SECHI, 0, 16⟩
def DR_SECHI_PAGES : Fld := ⟨DR_SECHI, 16, 14⟩
/-- DR_TCFG: Table 13.7 (R340). -/
def DR_TCFG (u : Nat) : Nat := 0x8100 + 0x20 * u
def DR_TCFG_EN (u : Nat) : Fld := ⟨(DR_TCFG u), 0, 1⟩
def DR_TCFG_KIND (u : Nat) : Fld := ⟨(DR_TCFG u), 1, 4⟩
def DR_TCFG_WSEL (u : Nat) : Fld := ⟨(DR_TCFG u), 5, 2⟩
def DR_TCFG_COMB (u : Nat) : Fld := ⟨(DR_TCFG u), 7, 2⟩
def DR_TCFG_LINESEL (u : Nat) : Fld := ⟨(DR_TCFG u), 9, 7⟩
def DR_TCFG_WIN (u : Nat) : Fld := ⟨(DR_TCFG u), 16, 8⟩
def DR_TCFG_TCNT (u : Nat) : Fld := ⟨(DR_TCFG u), 24, 8⟩
/-- DR_TID: Table 13.7 (R340). -/
def DR_TID (u : Nat) : Nat := 0x8104 + 0x20 * u
def DR_TID_SRC (u : Nat) : Fld := ⟨(DR_TID u), 0, 20⟩
/-- DR_TIDM: Table 13.7 (R340). -/
def DR_TIDM (u : Nat) : Nat := 0x8108 + 0x20 * u
def DR_TIDM_SRCM (u : Nat) : Fld := ⟨(DR_TIDM u), 0, 20⟩
/-- DR_TMATCH: Table 13.7 (R340). -/
def DR_TMATCH (u : Nat) : Nat := 0x810c + 0x20 * u
def DR_TMATCH_MATCH (u : Nat) : Fld := ⟨(DR_TMATCH u), 0, 32⟩
/-- DR_TMASK: Table 13.7 (R340). -/
def DR_TMASK (u : Nat) : Nat := 0x8110 + 0x20 * u
def DR_TMASK_MASK (u : Nat) : Fld := ⟨(DR_TMASK u), 0, 32⟩
/-- DR_RSTART: Table 13.7 (R340). -/
def DR_RSTART (r : Nat) : Nat := 0x8200 + 0x10 * r
def DR_RSTART_SLOT (r : Nat) : Fld := ⟨(DR_RSTART r), 0, 20⟩
/-- DR_RCOUNT: Table 13.7 (R340). -/
def DR_RCOUNT (r : Nat) : Nat := 0x8204 + 0x10 * r
def DR_RCOUNT_COUNT (r : Nat) : Fld := ⟨(DR_RCOUNT r), 0, 21⟩
/-- DR_RTRIG: Table 13.7 (R340). -/
def DR_RTRIG (r : Nat) : Nat := 0x8208 + 0x10 * r
def DR_RTRIG_SLOT (r : Nat) : Fld := ⟨(DR_RTRIG r), 0, 20⟩
def DR_RTRIG_TV (r : Nat) : Fld := ⟨(DR_RTRIG r), 20, 1⟩
/-- DR_RSTAT: Table 13.7 (R340). -/
def DR_RSTAT (r : Nat) : Nat := 0x820c + 0x10 * r
def DR_RSTAT_FULL (r : Nat) : Fld := ⟨(DR_RSTAT r), 0, 1⟩
def DR_RSTAT_PREFULL (r : Nat) : Fld := ⟨(DR_RSTAT r), 1, 1⟩
def DR_RSTAT_UNITS (r : Nat) : Fld := ⟨(DR_RSTAT r), 8, 8⟩
def DR_RSTAT_LINES (r : Nat) : Fld := ⟨(DR_RSTAT r), 16, 7⟩
def DR_RSTAT_FORCE (r : Nat) : Fld := ⟨(DR_RSTAT r), 23, 1⟩
/-- SV_STAT: Table 14.6 (R355). -/
def SV_STAT : Nat := 0x9000
def SV_STAT_RUN : Fld := ⟨SV_STAT, 0, 4⟩
/-- SV_EVT: Table 14.6 (R355). -/
def SV_EVT : Nat := 0x9004
def SV_EVT_SUPREF : Fld := ⟨SV_EVT, 0, 1⟩
def SV_EVT_WDOG : Fld := ⟨SV_EVT, 1, 4⟩
/-- SV_CNT: Table 14.6 (R355). -/
def SV_CNT : Nat := 0x9008
def SV_CNT_SUPREFCNT : Fld := ⟨SV_CNT, 0, 16⟩
def SV_CNT_WDCNT : Fld := ⟨SV_CNT, 16, 16⟩
/-- SV_WDCFG: Table 14.6 (R355). -/
def SV_WDCFG : Nat := 0x900c
def SV_WDCFG_WDT : Fld := ⟨SV_WDCFG, 0, 8⟩
/-- SV_TCMINL: Table 14.6 (R355). -/
def SV_TCMINL : Nat := 0x9010
def SV_TCMINL_TCMINL : Fld := ⟨SV_TCMINL, 0, 8⟩
/-- SV_WPERM: Table 14.6 (R355). -/
def SV_WPERM : Nat := 0x9014
def SV_WPERM_TIME : Fld := ⟨SV_WPERM, 0, 1⟩
def SV_WPERM_PLL : Fld := ⟨SV_WPERM, 1, 1⟩
def SV_WPERM_LANE : Fld := ⟨SV_WPERM, 2, 1⟩
def SV_WPERM_MEAS : Fld := ⟨SV_WPERM, 3, 1⟩
def SV_WPERM_REC : Fld := ⟨SV_WPERM, 4, 1⟩
def SV_WPERM_FLAG : Fld := ⟨SV_WPERM, 5, 1⟩
/-- SV_REFMIN: Table 14.7 (R355). -/
def SV_REFMIN (t : Nat) : Nat := 0x9020 + 0x10 * t
def SV_REFMIN_MIN (t : Nat) : Fld := ⟨(SV_REFMIN t), 0, 32⟩
/-- SV_REFMAX: Table 14.7 (R355). -/
def SV_REFMAX (t : Nat) : Nat := 0x9024 + 0x10 * t
def SV_REFMAX_MAX (t : Nat) : Fld := ⟨(SV_REFMAX t), 0, 32⟩
/-- SV_RAMPMAX: Table 14.7 (R355). -/
def SV_RAMPMAX (t : Nat) : Nat := 0x9028 + 0x10 * t
def SV_RAMPMAX_RAMP (t : Nat) : Fld := ⟨(SV_RAMPMAX t), 0, 16⟩
/-- SV_KPB: Table 14.7 (R355). -/
def SV_KPB (l : Nat) : Nat := 0x9060 + 0x4 * l
def SV_KPB_M (l : Nat) : Fld := ⟨(SV_KPB l), 0, 16⟩
def SV_KPB_SH (l : Nat) : Fld := ⟨(SV_KPB l), 16, 5⟩
/-- SV_KIB: Table 14.7 (R355). -/
def SV_KIB (l : Nat) : Nat := 0x9070 + 0x4 * l
def SV_KIB_M (l : Nat) : Fld := ⟨(SV_KIB l), 0, 16⟩
def SV_KIB_SH (l : Nat) : Fld := ⟨(SV_KIB l), 16, 5⟩
/-- SV_KRB: Table 14.7 (R355). -/
def SV_KRB : Nat := 0x9080
def SV_KRB_M : Fld := ⟨SV_KRB, 0, 16⟩
def SV_KRB_SH : Fld := ⟨SV_KRB, 16, 5⟩
/-- SV_PLIM: Table 14.7 (R355). -/
def SV_PLIM (g : Nat) : Nat := 0x90a0 + 0x4 * g
def SV_PLIM_LMAX (g : Nat) : Fld := ⟨(SV_PLIM g), 0, 12⟩
/-- GL_TCCFG: Table 15.12 (R380). -/
def GL_TCCFG : Nat := 0x200
def GL_TCCFG_TC : Fld := ⟨GL_TCCFG, 0, 8⟩
def GL_TCCFG_TCEFF : Fld := ⟨GL_TCCFG, 8, 8⟩
/-- GL_IMGSTAT: Table 15.12 (R380). -/
def GL_IMGSTAT : Nat := 0x204
def GL_IMGSTAT_BANK : Fld := ⟨GL_IMGSTAT, 0, 1⟩
def GL_IMGSTAT_FALLBK : Fld := ⟨GL_IMGSTAT, 1, 1⟩
def GL_IMGSTAT_KEYSLOT : Fld := ⟨GL_IMGSTAT, 2, 1⟩
def GL_IMGSTAT_ALTHV : Fld := ⟨GL_IMGSTAT, 3, 1⟩
def GL_IMGSTAT_ACAUSE : Fld := ⟨GL_IMGSTAT, 4, 4⟩
def GL_IMGSTAT_BCAUSE : Fld := ⟨GL_IMGSTAT, 8, 4⟩
def GL_IMGSTAT_SKIPCNT : Fld := ⟨GL_IMGSTAT, 16, 16⟩
/-- GL_IMGSEQ: Table 15.12 (R380). -/
def GL_IMGSEQ : Nat := 0x208
def GL_IMGSEQ_SEQ : Fld := ⟨GL_IMGSEQ, 0, 32⟩
/-- GL_IMGALT: Table 15.12 (R380). -/
def GL_IMGALT : Nat := 0x20c
def GL_IMGALT_SEQ : Fld := ⟨GL_IMGALT, 0, 32⟩
/-- GL_IMGWR: Table 15.12 (R380). -/
def GL_IMGWR : Nat := 0x210
def GL_IMGWR_STATE : Fld := ⟨GL_IMGWR, 0, 3⟩
def GL_IMGWR_CAUSE : Fld := ⟨GL_IMGWR, 4, 4⟩
def GL_IMGWR_PROG : Fld := ⟨GL_IMGWR, 8, 24⟩
/-- GL_KEYSTAT: Table 15.12 (R380). -/
def GL_KEYSTAT : Nat := 0x214
def GL_KEYSTAT_PROG0 : Fld := ⟨GL_KEYSTAT, 0, 1⟩
def GL_KEYSTAT_PROG1 : Fld := ⟨GL_KEYSTAT, 1, 1⟩
def GL_KEYSTAT_REV0 : Fld := ⟨GL_KEYSTAT, 2, 1⟩
/-- GL_FWVER: Table 15.12 (R380). -/
def GL_FWVER : Nat := 0x218
def GL_FWVER_FWVER : Fld := ⟨GL_FWVER, 0, 32⟩
/-- GL_KEYHASH: Table 15.12 (R380). -/
def GL_KEYHASH (w : Nat) : Nat := 0x220 + 0x4 * w
def GL_KEYHASH_HASH (w : Nat) : Fld := ⟨(GL_KEYHASH w), 0, 32⟩
/-- GL_MODE: Table 16.5 (R402). -/
def GL_MODE : Nat := 0x300
def GL_MODE_MODE : Fld := ⟨GL_MODE, 0, 3⟩
def GL_MODE_PEND : Fld := ⟨GL_MODE, 3, 1⟩
def GL_MODE_PKIND : Fld := ⟨GL_MODE, 4, 1⟩
def GL_MODE_CHGCNT : Fld := ⟨GL_MODE, 16, 16⟩
/-- GL_SUSTAT: Table 16.5 (R402). -/
def GL_SUSTAT : Nat := 0x304
def GL_SUSTAT_CHGTO : Fld := ⟨GL_SUSTAT, 0, 1⟩
def GL_SUSTAT_RRDY : Fld := ⟨GL_SUSTAT, 8, 8⟩
def GL_SUSTAT_RRUN : Fld := ⟨GL_SUSTAT, 16, 8⟩
/-- GL_SUQRDY: Table 16.5 (R402). -/
def GL_SUQRDY (h : Nat) : Nat := 0x308 + 0x4 * h
def GL_SUQRDY_QRDY (h : Nat) : Fld := ⟨(GL_SUQRDY h), 0, 32⟩
/-- GL_SURDY: Table 16.5 (R402). -/
def GL_SURDY (g : Nat) : Nat := 0x320 + 0x4 * g
def GL_SURDY_QRDY (g : Nat) : Fld := ⟨(GL_SURDY g), 0, 1⟩
def GL_SURDY_HLT (g : Nat) : Fld := ⟨(GL_SURDY g), 1, 1⟩
def GL_SURDY_LAWRDY (g : Nat) : Fld := ⟨(GL_SURDY g), 2, 1⟩
def GL_SURDY_ENERG (g : Nat) : Fld := ⟨(GL_SURDY g), 3, 1⟩
def GL_SURDY_CHAN (g : Nat) : Fld := ⟨(GL_SURDY g), 4, 1⟩
def GL_SURDY_NOPROT (g : Nat) : Fld := ⟨(GL_SURDY g), 5, 1⟩
def GL_SURDY_NOHALT (g : Nat) : Fld := ⟨(GL_SURDY g), 6, 1⟩
def GL_SURDY_RDY (g : Nat) : Fld := ⟨(GL_SURDY g), 7, 1⟩
def GL_SURDY_NHLT (g : Nat) : Fld := ⟨(GL_SURDY g), 8, 12⟩
/-- NT_PCFG: Table 17.7 (R427). -/
def NT_PCFG (x : Nat) : Nat := 0x6000 + 0x4 * x
def NT_PCFG_EN (x : Nat) : Fld := ⟨(NT_PCFG x), 0, 1⟩
def NT_PCFG_MODE (x : Nat) : Fld := ⟨(NT_PCFG x), 1, 1⟩
def NT_PCFG_ANEG (x : Nat) : Fld := ⟨(NT_PCFG x), 2, 1⟩
def NT_PCFG_VEN (x : Nat) : Fld := ⟨(NT_PCFG x), 3, 1⟩
def NT_PCFG_VID (x : Nat) : Fld := ⟨(NT_PCFG x), 4, 12⟩
def NT_PCFG_PCP (x : Nat) : Fld := ⟨(NT_PCFG x), 16, 3⟩
def NT_PCFG_DSCP (x : Nat) : Fld := ⟨(NT_PCFG x), 19, 6⟩
def NT_PCFG_IPV6 (x : Nat) : Fld := ⟨(NT_PCFG x), 25, 1⟩
/-- NT_IPCFG: Table 17.7 (R427). -/
def NT_IPCFG : Nat := 0x6008
def NT_IPCFG_UDPPORT : Fld := ⟨NT_IPCFG, 0, 16⟩
def NT_IPCFG_DPORT : Fld := ⟨NT_IPCFG, 16, 16⟩
/-- NT_SMPCFG: Table 17.7 (R427). -/
def NT_SMPCFG : Nat := 0x600c
def NT_SMPCFG_STPER : Fld := ⟨NT_SMPCFG, 0, 16⟩
def NT_SMPCFG_DUP : Fld := ⟨NT_SMPCFG, 16, 1⟩
/-- NT_MNTCFG: Table 17.7 (R427). -/
def NT_MNTCFG : Nat := 0x6010
def NT_MNTCFG_MEN : Fld := ⟨NT_MNTCFG, 0, 1⟩
def NT_MNTCFG_IMGEN : Fld := ⟨NT_MNTCFG, 1, 1⟩
def NT_MNTCFG_MIDLE : Fld := ⟨NT_MNTCFG, 8, 8⟩
/-- NT_MACHI: Table 17.7 (R427). -/
def NT_MACHI (x : Nat) : Nat := 0x6040 + 0x20 * x
def NT_MACHI_MACH (x : Nat) : Fld := ⟨(NT_MACHI x), 0, 16⟩
/-- NT_MACLO: Table 17.7 (R427). -/
def NT_MACLO (x : Nat) : Nat := 0x6044 + 0x20 * x
def NT_MACLO_MACL (x : Nat) : Fld := ⟨(NT_MACLO x), 0, 32⟩
/-- NT_IP4: Table 17.7 (R427). -/
def NT_IP4 (x : Nat) : Nat := 0x6048 + 0x20 * x
def NT_IP4_ADDR (x : Nat) : Fld := ⟨(NT_IP4 x), 0, 32⟩
/-- NT_PFX: Table 17.7 (R427). -/
def NT_PFX (x : Nat) : Nat := 0x604c + 0x20 * x
def NT_PFX_PFX (x : Nat) : Fld := ⟨(NT_PFX x), 0, 8⟩
/-- NT_IP6: Table 17.7 (R427). -/
def NT_IP6 (x w : Nat) : Nat := 0x6050 + 0x20 * x + 0x4 * w
def NT_IP6_ADDR (x w : Nat) : Fld := ⟨(NT_IP6 x w), 0, 32⟩
/-- NT_PEER: Table 17.7 (R427). -/
def NT_PEER (h w : Nat) : Nat := 0x6080 + 0x10 * h + 0x4 * w
def NT_PEER_ADDR (h w : Nat) : Fld := ⟨(NT_PEER h w), 0, 32⟩
/-- NT_PEERCFG: Table 17.7 (R427). -/
def NT_PEERCFG : Nat := 0x60c0
def NT_PEERCFG_PEER : Fld := ⟨NT_PEERCFG, 0, 16⟩
/-- NT_STAT: Table 17.8 (R427). -/
def NT_STAT : Nat := 0x6014
def NT_STAT_UP0 : Fld := ⟨NT_STAT, 0, 1⟩
def NT_STAT_UP1 : Fld := ⟨NT_STAT, 1, 1⟩
def NT_STAT_SERVE : Fld := ⟨NT_STAT, 2, 1⟩
def NT_STAT_SESS : Fld := ⟨NT_STAT, 3, 2⟩
def NT_STAT_QLEN : Fld := ⟨NT_STAT, 8, 7⟩
def NT_STAT_NSUB : Fld := ⟨NT_STAT, 16, 6⟩
/-- NT_EVT: Table 17.8 (R427). -/
def NT_EVT : Nat := 0x6018
def NT_EVT_LINK0 : Fld := ⟨NT_EVT, 0, 1⟩
def NT_EVT_LINK1 : Fld := ⟨NT_EVT, 1, 1⟩
def NT_EVT_NONET : Fld := ⟨NT_EVT, 2, 1⟩
def NT_EVT_EVOVF : Fld := ⟨NT_EVT, 3, 1⟩
def NT_EVT_AUTHF : Fld := ⟨NT_EVT, 4, 1⟩
def NT_EVT_DGBAD : Fld := ⟨NT_EVT, 5, 1⟩
/-- NT_CNT0: Table 17.8 (R427). -/
def NT_CNT0 : Nat := 0x601c
def NT_CNT0_DGBADCNT : Fld := ⟨NT_CNT0, 0, 16⟩
def NT_CNT0_BUSYCNT : Fld := ⟨NT_CNT0, 16, 16⟩
/-- NT_CNT1: Table 17.8 (R427). -/
def NT_CNT1 : Nat := 0x6020
def NT_CNT1_EVLOST : Fld := ⟨NT_CNT1, 0, 16⟩
def NT_CNT1_AUTHFCNT : Fld := ⟨NT_CNT1, 16, 16⟩
/-- GL_ID: Table 18.8 (R450). -/
def GL_ID : Nat := 0x0
def GL_ID_ID : Fld := ⟨GL_ID, 0, 32⟩
/-- GL_PART: Table 18.8 (R450). -/
def GL_PART : Nat := 0x4
def GL_PART_PART : Fld := ⟨GL_PART, 0, 32⟩
/-- GL_REV: Table 18.8 (R450). -/
def GL_REV : Nat := 0x8
def GL_REV_MINOR : Fld := ⟨GL_REV, 0, 4⟩
def GL_REV_MAJOR : Fld := ⟨GL_REV, 4, 4⟩
def GL_REV_ROMVER : Fld := ⟨GL_REV, 8, 8⟩
/-- GL_UIDLO: Table 18.8 (R450). -/
def GL_UIDLO : Nat := 0xc
def GL_UIDLO_UID : Fld := ⟨GL_UIDLO, 0, 32⟩
/-- GL_UIDHI: Table 18.8 (R450). -/
def GL_UIDHI : Nat := 0x10
def GL_UIDHI_UID : Fld := ⟨GL_UIDHI, 0, 32⟩
/-- GL_CAP: Table 18.8 (R450). -/
def GL_CAP : Nat := 0x14
def GL_CAP_NREG : Fld := ⟨GL_CAP, 0, 8⟩
def GL_CAP_NQUIRE : Fld := ⟨GL_CAP, 8, 8⟩
def GL_CAP_NLANE : Fld := ⟨GL_CAP, 16, 8⟩
def GL_CAP_NPOSMAX : Fld := ⟨GL_CAP, 24, 8⟩
/-- GL_MAPVER: Table 18.8 (R450). -/
def GL_MAPVER : Nat := 0x18
def GL_MAPVER_MAPVER : Fld := ⟨GL_MAPVER, 0, 16⟩
/-- GL_TJ: Table 18.8 (R450). -/
def GL_TJ : Nat := 0x1c
def GL_TJ_TJ : Fld := ⟨GL_TJ, 0, 13⟩
def GL_TJ_TJMAX : Fld := ⟨GL_TJ, 16, 13⟩
/-- GL_MPSTAT: Table 18.8 (R450). -/
def GL_MPSTAT : Nat := 0x20
def GL_MPSTAT_HCRCCNT : Fld := ⟨GL_MPSTAT, 0, 16⟩
def GL_MPSTAT_DCRCCNT : Fld := ⟨GL_MPSTAT, 16, 16⟩
/-- GL_MPCNT: Table 18.8 (R450). -/
def GL_MPCNT : Nat := 0x24
def GL_MPCNT_FRAMES : Fld := ⟨GL_MPCNT, 0, 32⟩

end Sys2Proof.Machine
end

