-- ==== Sys2Proof/Machine/RegMap.lean ====
section
/-! DEFINITION. The register map as data: for every register its base, the strides and counts of its instances, the folio
type that fills it (Table 15.4), and its fields with access code (Table 0.9), reset value (R30) and, where the field
table gives one, the permitted range of a loadable field. From it: the reset word of an address, whether an address
is named at all (R25), and which bits are writable, loadable or reserved. -/

namespace Sys2Proof.Machine

/-- The access codes of Table 0.9; `res` marks reserved bits (R26). -/
inductive Access where
  | ld | ro | rw | w1c | wo | sc | res
  deriving DecidableEq, Repr

/-- One field of a register: bits, access, reset value, and the range its field table permits. -/
structure FldDef where
  lsb : Nat
  width : Nat
  acc : Access
  reset : Nat
  lo : Nat
  hi : Nat
  deriving DecidableEq, Repr

/-- One register: base address, dimensions (stride, count) outermost first, folio type (0 none), fields. -/
structure RegDef where
  base : Nat
  dims : List (Nat × Nat)
  folio : Nat
  fields : List FldDef
  deriving DecidableEq, Repr

/-- FB registers (part 1). -/
def regMapFB0 : List RegDef := [
  /- FB_LADDER -/ ⟨0x1000, [], 0, [⟨0, 3, .ro, 0x0, 0x0, 0x7⟩,
    ⟨3, 1, .w1c, 0x0, 0x0, 0x1⟩,
    ⟨4, 12, .res, 0x0, 0x0, 0xfff⟩,
    ⟨16, 16, .ro, 0x0, 0x0, 0xffff⟩]⟩,
  /- FB_VDD -/ ⟨0x1004, [], 4, [⟨0, 8, .ro, 0xf, 0x0, 0xff⟩,
    ⟨8, 8, .ld, 0x0, 0x0, 0x19⟩,
    ⟨16, 8, .ld, 0x19, 0x0, 0x19⟩,
    ⟨24, 8, .ld, 0xf, 0x0, 0x19⟩]⟩,
  /- FB_TCMIN -/ ⟨0x1008, [], 4, [⟨0, 8, .ro, 0x0, 0x0, 0xff⟩,
    ⟨8, 8, .ro, 0x0, 0x0, 0xff⟩,
    ⟨16, 8, .ld, 0xb4, 0x0, 0xb4⟩,
    ⟨24, 1, .ro, 0x0, 0x0, 0x1⟩,
    ⟨25, 7, .res, 0x0, 0x0, 0x7f⟩]⟩,
  /- FB_EVAL -/ ⟨0x100c, [], 4, [⟨0, 16, .ld, 0x1000, 0x100, 0xffff⟩,
    ⟨16, 8, .ld, 0x10, 0x1, 0xff⟩,
    ⟨24, 8, .res, 0x0, 0x0, 0xff⟩]⟩,
  /- FB_SPARE -/ ⟨0x1010, [], 0, [⟨0, 9, .ro, 0x0, 0x0, 0x1ff⟩,
    ⟨9, 5, .ro, 0x0, 0x0, 0x1f⟩,
    ⟨14, 6, .ro, 0x0, 0x0, 0x3f⟩,
    ⟨20, 12, .ro, 0x0, 0x0, 0xfff⟩]⟩,
  /- FB_JOURNAL -/ ⟨0x1014, [], 0, [⟨0, 12, .ro, 0x0, 0x0, 0xfff⟩,
    ⟨12, 1, .ro, 0x0, 0x0, 0x1⟩,
    ⟨13, 1, .w1c, 0x0, 0x0, 0x1⟩,
    ⟨14, 1, .ro, 0x0, 0x0, 0x1⟩,
    ⟨15, 1, .ro, 0x0, 0x0, 0x1⟩,
    ⟨16, 16, .res, 0x0, 0x0, 0xffff⟩]⟩,
  /- FB_SPINE -/ ⟨0x1018, [], 0, [⟨0, 1, .w1c, 0x0, 0x0, 0x1⟩,
    ⟨1, 1, .w1c, 0x0, 0x0, 0x1⟩,
    ⟨2, 14, .res, 0x0, 0x0, 0x3fff⟩,
    ⟨16, 16, .ro, 0x0, 0x0, 0xffff⟩]⟩,
  /- FB_CLSTHR -/ ⟨0x1100, [(0x10, 6)], 4, [⟨0, 16, .ld, 0xc00, 0x0, 0xffff⟩,
    ⟨16, 16, .ld, 0x800, 0x0, 0xffff⟩]⟩,
  /- FB_CLSRELAX -/ ⟨0x1104, [(0x10, 6)], 4, [⟨0, 16, .ld, 0x2000, 0x0, 0xffff⟩,
    ⟨16, 16, .res, 0x0, 0x0, 0xffff⟩]⟩,
  /- FB_CLSMARG -/ ⟨0x1108, [(0x10, 6)], 0, [⟨0, 16, .ro, 0xffff, 0x0, 0xffff⟩,
    ⟨16, 16, .ro, 0xffff, 0x0, 0xffff⟩]⟩,
  /- FB_CLSSTAT -/ ⟨0x110c, [(0x10, 6)], 0, [⟨0, 1, .w1c, 0x0, 0x0, 0x1⟩,
    ⟨1, 1, .w1c, 0x0, 0x0, 0x1⟩,
    ⟨2, 1, .w1c, 0x0, 0x0, 0x1⟩,
    ⟨3, 5, .res, 0x0, 0x0, 0x1f⟩,
    ⟨8, 8, .ro, 0x0, 0x0, 0xff⟩,
    ⟨16, 16, .ro, 0x0, 0x0, 0xffff⟩]⟩,
  /- FB_SLICE -/ ⟨0x1200, [(0x4, 80)], 0, [⟨0, 6, .ro, 0x0, 0x0, 0x3f⟩,
    ⟨6, 1, .ro, 0x0, 0x0, 0x1⟩,
    ⟨7, 1, .ro, 0x0, 0x0, 0x1⟩,
    ⟨8, 8, .res, 0x0, 0x0, 0xff⟩,
    ⟨16, 16, .ro, 0x0, 0x0, 0xffff⟩]⟩]

/-- CE registers (part 1). -/
def regMapCE0 : List RegDef := [
  /- CE_STAT -/ ⟨0x100000, [(0x80, 8192)], 0, [⟨0, 3, .ro, 0x0, 0x0, 0x7⟩,
    ⟨3, 1, .ro, 0x0, 0x0, 0x1⟩,
    ⟨4, 1, .ro, 0x0, 0x0, 0x1⟩,
    ⟨5, 3, .res, 0x0, 0x0, 0x7⟩,
    ⟨8, 8, .ro, 0x0, 0x0, 0xff⟩,
    ⟨16, 5, .ro, 0x0, 0x0, 0x1f⟩,
    ⟨21, 3, .res, 0x0, 0x0, 0x7⟩,
    ⟨24, 8, .ro, 0x0, 0x0, 0xff⟩]⟩,
  /- CE_IDLO -/ ⟨0x100004, [(0x80, 8192)], 0, [⟨0, 32, .ro, 0x0, 0x0, 0xffffffff⟩]⟩,
  /- CE_IDHI -/ ⟨0x100008, [(0x80, 8192)], 0, [⟨0, 32, .ro, 0x0, 0x0, 0xffffffff⟩]⟩,
  /- CE_REP -/ ⟨0x100010, [(0x80, 8192), (0x4, 4)], 0, [⟨0, 32, .ro, 0x0, 0x0, 0xffffffff⟩]⟩,
  /- CE_VHAT -/ ⟨0x100020, [(0x80, 8192)], 0, [⟨0, 24, .ro, 0x0, 0x0, 0xffffff⟩,
    ⟨24, 8, .res, 0x0, 0x0, 0xff⟩]⟩,
  /- CE_VPRED -/ ⟨0x100024, [(0x80, 8192)], 0, [⟨0, 16, .ro, 0x0, 0x0, 0xffff⟩,
    ⟨16, 16, .res, 0x0, 0x0, 0xffff⟩]⟩,
  /- CE_EST -/ ⟨0x100028, [(0x80, 8192)], 0, [⟨0, 15, .ro, 0x0, 0x0, 0x7fff⟩,
    ⟨15, 1, .ro, 0x0, 0x0, 0x1⟩,
    ⟨16, 15, .ro, 0x0, 0x0, 0x7fff⟩,
    ⟨31, 1, .ro, 0x0, 0x0, 0x1⟩]⟩,
  /- CE_WEAR -/ ⟨0x10002c, [(0x80, 8192)], 0, [⟨0, 16, .ro, 0x8000, 0x0, 0xffff⟩,
    ⟨16, 14, .ro, 0x1000, 0x0, 0x3fff⟩,
    ⟨30, 1, .ro, 0x0, 0x0, 0x1⟩,
    ⟨31, 1, .ro, 0x0, 0x0, 0x1⟩]⟩,
  /- CE_HEALTH -/ ⟨0x100030, [(0x80, 8192)], 0, [⟨0, 1, .w1c, 0x0, 0x0, 0x1⟩,
    ⟨1, 1, .w1c, 0x0, 0x0, 0x1⟩,
    ⟨2, 1, .w1c, 0x0, 0x0, 0x1⟩,
    ⟨3, 1, .w1c, 0x0, 0x0, 0x1⟩,
    ⟨4, 1, .w1c, 0x0, 0x0, 0x1⟩,
    ⟨5, 1, .w1c, 0x0, 0x0, 0x1⟩,
    ⟨6, 1, .w1c, 0x0, 0x0, 0x1⟩,
    ⟨7, 1, .w1c, 0x0, 0x0, 0x1⟩,
    ⟨8, 1, .w1c, 0x0, 0x0, 0x1⟩,
    ⟨9, 1, .w1c, 0x0, 0x0, 0x1⟩,
    ⟨10, 22, .res, 0x0, 0x0, 0x3fffff⟩]⟩,
  /- CE_FRESH -/ ⟨0x100034, [(0x80, 8192)], 0, [⟨0, 4, .ro, 0x0, 0x0, 0xf⟩,
    ⟨4, 12, .res, 0x0, 0x0, 0xfff⟩,
    ⟨16, 16, .ro, 0x0, 0x0, 0xffff⟩]⟩,
  /- CE_CLAIM -/ ⟨0x100038, [(0x80, 8192)], 0, [⟨0, 3, .ro, 0x0, 0x0, 0x7⟩,
    ⟨3, 13, .res, 0x0, 0x0, 0x1fff⟩,
    ⟨16, 16, .ro, 0x0, 0x0, 0xffff⟩]⟩,
  /- CE_DIAGREQ -/ ⟨0x10003c, [(0x80, 8192)], 0, [⟨0, 4, .rw, 0x0, 0x0, 0xf⟩,
    ⟨4, 1, .rw, 0x0, 0x0, 0x1⟩,
    ⟨5, 1, .sc, 0x0, 0x0, 0x1⟩,
    ⟨6, 10, .res, 0x0, 0x0, 0x3ff⟩,
    ⟨16, 16, .rw, 0x0, 0x0, 0xffff⟩]⟩]

/-- CE registers (part 2). -/
def regMapCE1 : List RegDef := [
  /- CE_DIAGRES -/ ⟨0x100040, [(0x80, 8192)], 0, [⟨0, 3, .ro, 0x0, 0x0, 0x7⟩,
    ⟨3, 4, .ro, 0x0, 0x0, 0xf⟩,
    ⟨7, 9, .res, 0x0, 0x0, 0x1ff⟩,
    ⟨16, 16, .ro, 0x0, 0x0, 0xffff⟩]⟩,
  /- CE_CTL -/ ⟨0x100044, [(0x80, 8192)], 0, [⟨0, 1, .sc, 0x0, 0x0, 0x1⟩,
    ⟨1, 1, .sc, 0x0, 0x0, 0x1⟩,
    ⟨2, 30, .res, 0x0, 0x0, 0x3fffffff⟩]⟩,
  /- CE_CFG0 -/ ⟨0x100048, [(0x80, 8192)], 14, [⟨0, 16, .ld, 0xbb8, 0x10, 0xffff⟩,
    ⟨16, 16, .ld, 0x64, 0x1, 0xffff⟩]⟩,
  /- CE_CFG1 -/ ⟨0x10004c, [(0x80, 8192)], 14, [⟨0, 8, .ld, 0x40, 0x0, 0xff⟩,
    ⟨8, 1, .ld, 0x0, 0x0, 0x1⟩,
    ⟨9, 3, .ld, 0x4, 0x0, 0x7⟩,
    ⟨12, 4, .ld, 0x0, 0x0, 0xf⟩,
    ⟨16, 8, .ld, 0x0, 0x0, 0xff⟩,
    ⟨24, 8, .res, 0x0, 0x0, 0xff⟩]⟩,
  /- CE_CFG2 -/ ⟨0x100050, [(0x80, 8192)], 14, [⟨0, 4, .ld, 0x3, 0x1, 0xf⟩,
    ⟨4, 4, .ld, 0x8, 0x1, 0xf⟩,
    ⟨8, 8, .ld, 0x40, 0x1, 0xff⟩,
    ⟨16, 8, .ld, 0x20, 0x4, 0xff⟩,
    ⟨24, 4, .ld, 0x4, 0x1, 0xf⟩,
    ⟨28, 4, .res, 0x0, 0x0, 0xf⟩]⟩,
  /- CE_CFG3 -/ ⟨0x100054, [(0x80, 8192)], 14, [⟨0, 8, .ld, 0xf3, 0x0, 0xff⟩,
    ⟨8, 8, .ld, 0x20, 0x0, 0xff⟩,
    ⟨16, 8, .ld, 0xcc, 0x0, 0xff⟩,
    ⟨24, 8, .ld, 0xa, 0x0, 0xff⟩]⟩,
  /- CE_CFG4 -/ ⟨0x100058, [(0x80, 8192)], 14, [⟨0, 16, .ld, 0x1000, 0x100, 0xffff⟩,
    ⟨16, 16, .ld, 0x190, 0x0, 0xffff⟩]⟩]

/-- RG registers (part 1). -/
def regMapRG0 : List RegDef := [
  /- RG_MODCFG0 -/ ⟨0x30400, [(0x2000, 8)], 13, [⟨0, 1, .ld, 0x0, 0x0, 0x1⟩,
    ⟨1, 1, .ld, 0x0, 0x0, 0x1⟩,
    ⟨2, 1, .ld, 0x0, 0x0, 0x1⟩,
    ⟨3, 5, .res, 0x0, 0x0, 0x1f⟩,
    ⟨8, 8, .ld, 0x0, 0x0, 0xff⟩,
    ⟨16, 8, .ld, 0x0, 0x0, 0xff⟩,
    ⟨24, 8, .res, 0x0, 0x0, 0xff⟩]⟩,
  /- RG_MODCFG1 -/ ⟨0x30404, [(0x2000, 8)], 13, [⟨0, 6, .ld, 0x10, 0x0, 0x3f⟩,
    ⟨6, 6, .ld, 0x16, 0x0, 0x3f⟩,
    ⟨12, 6, .ld, 0x1e, 0x0, 0x3f⟩,
    ⟨18, 6, .ld, 0x20, 0x0, 0x3f⟩,
    ⟨24, 6, .ld, 0x24, 0x0, 0x3f⟩,
    ⟨30, 2, .res, 0x0, 0x0, 0x3⟩]⟩,
  /- RG_MODCFG2 -/ ⟨0x30408, [(0x2000, 8)], 13, [⟨0, 6, .ld, 0x28, 0x0, 0x3f⟩,
    ⟨6, 10, .res, 0x0, 0x0, 0x3ff⟩,
    ⟨16, 14, .ld, 0x1f4, 0x1, 0x30d4⟩,
    ⟨30, 2, .res, 0x0, 0x0, 0x3⟩]⟩,
  /- RG_MODCFG3 -/ ⟨0x3040c, [(0x2000, 8)], 13, [⟨0, 16, .ld, 0x28, 0x0, 0x7fff⟩,
    ⟨16, 16, .res, 0x0, 0x0, 0xffff⟩]⟩,
  /- RG_MODCTL -/ ⟨0x30410, [(0x2000, 8)], 0, [⟨0, 1, .rw, 0x0, 0x0, 0x1⟩,
    ⟨1, 31, .res, 0x0, 0x0, 0x7fffffff⟩]⟩,
  /- RG_MODSTAT -/ ⟨0x30414, [(0x2000, 8)], 0, [⟨0, 1, .ro, 0x0, 0x0, 0x1⟩,
    ⟨1, 1, .ro, 0x0, 0x0, 0x1⟩,
    ⟨2, 1, .ro, 0x0, 0x0, 0x1⟩,
    ⟨3, 1, .ro, 0x0, 0x0, 0x1⟩,
    ⟨4, 1, .ro, 0x0, 0x0, 0x1⟩,
    ⟨5, 1, .ro, 0x0, 0x0, 0x1⟩,
    ⟨6, 1, .ro, 0x0, 0x0, 0x1⟩,
    ⟨7, 1, .res, 0x0, 0x0, 0x1⟩,
    ⟨8, 4, .ro, 0x0, 0x0, 0xf⟩,
    ⟨12, 20, .res, 0x0, 0x0, 0xfffff⟩]⟩,
  /- RG_MODPLAN -/ ⟨0x30418, [(0x2000, 8)], 0, [⟨0, 12, .ro, 0x0, 0x0, 0xfff⟩,
    ⟨12, 12, .ro, 0x0, 0x0, 0xfff⟩,
    ⟨24, 8, .res, 0x0, 0x0, 0xff⟩]⟩,
  /- RG_MODTRIM -/ ⟨0x3041c, [(0x2000, 8)], 0, [⟨0, 13, .ro, 0x0, 0x0, 0x1fff⟩,
    ⟨13, 1, .ro, 0x0, 0x0, 0x1⟩,
    ⟨14, 1, .ro, 0x0, 0x0, 0x1⟩,
    ⟨15, 1, .ro, 0x0, 0x0, 0x1⟩,
    ⟨16, 16, .res, 0x0, 0x0, 0xffff⟩]⟩,
  /- RG_MODTRIMW -/ ⟨0x30420, [(0x2000, 8)], 0, [⟨0, 19, .ro, 0x0, 0x0, 0x7ffff⟩,
    ⟨19, 13, .res, 0x0, 0x0, 0x1fff⟩]⟩,
  /- RG_MODSQ -/ ⟨0x30424, [(0x2000, 8)], 0, [⟨0, 1, .w1c, 0x0, 0x0, 0x1⟩,
    ⟨1, 1, .w1c, 0x0, 0x0, 0x1⟩,
    ⟨2, 1, .w1c, 0x0, 0x0, 0x1⟩,
    ⟨3, 1, .w1c, 0x0, 0x0, 0x1⟩,
    ⟨4, 1, .w1c, 0x0, 0x0, 0x1⟩,
    ⟨5, 11, .res, 0x0, 0x0, 0x7ff⟩,
    ⟨16, 16, .ro, 0x0, 0x0, 0xffff⟩]⟩,
  /- RG_MODHOLD -/ ⟨0x30428, [(0x2000, 8)], 0, [⟨0, 4, .ro, 0x0, 0x0, 0xf⟩,
    ⟨4, 1, .w1c, 0x0, 0x0, 0x1⟩,
    ⟨5, 1, .w1c, 0x0, 0x0, 0x1⟩,
    ⟨6, 1, .w1c, 0x0, 0x0, 0x1⟩,
    ⟨7, 1, .w1c, 0x0, 0x0, 0x1⟩,
    ⟨8, 8, .res, 0x0, 0x0, 0xff⟩,
    ⟨16, 16, .ro, 0x0, 0x0, 0xffff⟩]⟩,
  /- RG_MODCNT -/ ⟨0x3042c, [(0x2000, 8)], 0, [⟨0, 16, .ro, 0x0, 0x0, 0xffff⟩,
    ⟨16, 16, .ro, 0x0, 0x0, 0xffff⟩]⟩]

/-- RG registers (part 2). -/
def regMapRG1 : List RegDef := [
  /- RG_BLKCFG -/ ⟨0x30430, [(0x2000, 8)], 13, [⟨0, 6, .ld, 0xa, 0x4, 0x28⟩,
    ⟨6, 8, .ld, 0x8, 0x1, 0xff⟩,
    ⟨14, 18, .res, 0x0, 0x0, 0x3ffff⟩]⟩,
  /- RG_BLKSTAT -/ ⟨0x30434, [(0x2000, 8)], 0, [⟨0, 2, .ro, 0x0, 0x0, 0x3⟩,
    ⟨2, 1, .ro, 0x0, 0x0, 0x1⟩,
    ⟨3, 1, .w1c, 0x0, 0x0, 0x1⟩,
    ⟨4, 12, .res, 0x0, 0x0, 0xfff⟩,
    ⟨16, 12, .ro, 0x0, 0x0, 0xfff⟩,
    ⟨28, 4, .res, 0x0, 0x0, 0xf⟩]⟩,
  /- RG_STAT -/ ⟨0x30000, [(0x2000, 8)], 0, [⟨0, 3, .ro, 0x0, 0x0, 0x7⟩,
    ⟨3, 1, .ro, 0x0, 0x0, 0x1⟩,
    ⟨4, 2, .ro, 0x0, 0x0, 0x3⟩,
    ⟨6, 1, .ro, 0x0, 0x0, 0x1⟩,
    ⟨7, 1, .ro, 0x0, 0x0, 0x1⟩,
    ⟨8, 1, .ro, 0x0, 0x0, 0x1⟩,
    ⟨9, 23, .res, 0x0, 0x0, 0x7fffff⟩]⟩,
  /- RG_LAWCFG -/ ⟨0x30004, [(0x2000, 8)], 13, [⟨0, 2, .ld, 0x0, 0x0, 0x3⟩,
    ⟨2, 3, .ld, 0x0, 0x0, 0x7⟩,
    ⟨5, 1, .ld, 0x0, 0x0, 0x1⟩,
    ⟨6, 2, .ld, 0x0, 0x0, 0x3⟩,
    ⟨8, 1, .ld, 0x0, 0x0, 0x1⟩,
    ⟨9, 23, .res, 0x0, 0x0, 0x7fffff⟩]⟩,
  /- RG_INCFG -/ ⟨0x30008, [(0x2000, 8)], 13, [⟨0, 5, .ld, 0x0, 0x0, 0x1f⟩,
    ⟨5, 3, .res, 0x0, 0x0, 0x7⟩,
    ⟨8, 5, .ld, 0x0, 0x0, 0x1f⟩,
    ⟨13, 3, .res, 0x0, 0x0, 0x7⟩,
    ⟨16, 5, .ld, 0x0, 0x0, 0x1f⟩,
    ⟨21, 3, .res, 0x0, 0x0, 0x7⟩,
    ⟨24, 5, .ld, 0x0, 0x0, 0x1f⟩,
    ⟨29, 3, .res, 0x0, 0x0, 0x7⟩]⟩,
  /- RG_ENCFG -/ ⟨0x3000c, [(0x2000, 8)], 13, [⟨0, 16, .ld, 0x200, 0x1, 0xffff⟩,
    ⟨16, 8, .ld, 0x4, 0x1, 0xff⟩,
    ⟨24, 8, .res, 0x0, 0x0, 0xff⟩]⟩,
  /- RG_NOMCFG -/ ⟨0x30010, [(0x2000, 8)], 13, [⟨0, 16, .ld, 0xc350, 0x0, 0xffff⟩,
    ⟨16, 13, .ro, 0x0, 0x0, 0x1fff⟩,
    ⟨29, 3, .res, 0x0, 0x0, 0x7⟩]⟩,
  /- RG_LARM -/ ⟨0x30014, [(0x2000, 8)], 13, [⟨0, 20, .ld, 0xc350, 0x3e8, 0xfffff⟩,
    ⟨20, 12, .res, 0x0, 0x0, 0xfff⟩]⟩,
  /- RG_KPRED -/ ⟨0x3004c, [(0x2000, 8)], 0, [⟨0, 32, .ro, 0x0, 0x0, 0xffffffff⟩]⟩,
  /- RG_LIM0 -/ ⟨0x30018, [(0x2000, 8)], 13, [⟨0, 15, .ld, 0x1770, 0x0, 0x7fff⟩,
    ⟨15, 1, .res, 0x0, 0x0, 0x1⟩,
    ⟨16, 15, .ld, 0x190, 0x0, 0x7fff⟩,
    ⟨31, 1, .res, 0x0, 0x0, 0x1⟩]⟩,
  /- RG_LIM1 -/ ⟨0x3001c, [(0x2000, 8)], 13, [⟨0, 16, .ld, 0x0, 0x0, 0xffff⟩,
    ⟨16, 16, .ld, 0x493e, 0x0, 0xffff⟩]⟩,
  /- RG_LIM2 -/ ⟨0x30020, [(0x2000, 8)], 13, [⟨0, 16, .ld, 0x140, 0x1, 0xffff⟩,
    ⟨16, 16, .ld, 0x10, 0x0, 0xffff⟩]⟩]

/-- RG registers (part 3). -/
def regMapRG2 : List RegDef := [
  /- RG_LIM3 -/ ⟨0x30024, [(0x2000, 8)], 13, [⟨0, 16, .ld, 0x3d09, 0x0, 0xffff⟩,
    ⟨16, 16, .ld, 0xc35, 0x0, 0xffff⟩]⟩,
  /- RG_LIM4 -/ ⟨0x30028, [(0x2000, 8)], 13, [⟨0, 16, .ld, 0x0, 0x0, 0xffff⟩,
    ⟨16, 16, .ld, 0x320, 0x0, 0xffff⟩]⟩,
  /- RG_REPCFG -/ ⟨0x3002c, [(0x2000, 8)], 13, [⟨0, 8, .ld, 0x5, 0x0, 0x63⟩,
    ⟨8, 8, .ld, 0xfa, 0x0, 0xff⟩,
    ⟨16, 16, .res, 0x0, 0x0, 0xffff⟩]⟩,
  /- RG_ZTH -/ ⟨0x30030, [(0x2000, 8), (0x4, 3)], 13, [⟨0, 32, .ld, 0x7fffffff, 0x0, 0xffffffff⟩]⟩,
  /- RG_ZHYS -/ ⟨0x3003c, [(0x2000, 8)], 13, [⟨0, 31, .ld, 0x0, 0x0, 0x7fffffff⟩,
    ⟨31, 1, .res, 0x0, 0x0, 0x1⟩]⟩,
  /- RG_FBCFG -/ ⟨0x30040, [(0x2000, 8)], 13, [⟨0, 8, .ld, 0x4, 0x1, 0xff⟩,
    ⟨8, 8, .ld, 0x20, 0x4, 0xff⟩,
    ⟨16, 16, .ld, 0x10, 0x1, 0xffff⟩]⟩,
  /- RG_RAMP0 -/ ⟨0x30044, [(0x2000, 8)], 13, [⟨0, 16, .ld, 0x64, 0x1, 0xffff⟩,
    ⟨16, 16, .ld, 0x64, 0x1, 0xffff⟩]⟩,
  /- RG_RAMP1 -/ ⟨0x30048, [(0x2000, 8)], 13, [⟨0, 16, .ld, 0x64, 0x1, 0xffff⟩,
    ⟨16, 16, .ld, 0x10, 0x1, 0xffff⟩]⟩,
  /- RG_REF -/ ⟨0x30050, [(0x2000, 8), (0x4, 3)], 0, [⟨0, 32, .ro, 0x0, 0x0, 0xffffffff⟩]⟩,
  /- RG_REF3 -/ ⟨0x3005c, [(0x2000, 8)], 0, [⟨0, 16, .ro, 0x0, 0x0, 0xffff⟩,
    ⟨16, 16, .res, 0x0, 0x0, 0xffff⟩]⟩,
  /- RG_TGT -/ ⟨0x30060, [(0x2000, 8), (0x4, 3)], 0, [⟨0, 32, .ro, 0x0, 0x0, 0xffffffff⟩]⟩,
  /- RG_TGT3 -/ ⟨0x3006c, [(0x2000, 8)], 0, [⟨0, 16, .ro, 0x0, 0x0, 0xffff⟩,
    ⟨16, 16, .res, 0x0, 0x0, 0xffff⟩]⟩]

/-- RG registers (part 4). -/
def regMapRG3 : List RegDef := [
  /- RG_UREF -/ ⟨0x30070, [(0x2000, 8)], 0, [⟨0, 32, .ro, 0x0, 0x0, 0xffffffff⟩]⟩,
  /- RG_IREF -/ ⟨0x30074, [(0x2000, 8)], 0, [⟨0, 16, .ro, 0x0, 0x0, 0xffff⟩,
    ⟨16, 16, .ro, 0x0, 0x0, 0xffff⟩]⟩,
  /- RG_XARM -/ ⟨0x30078, [(0x2000, 8)], 0, [⟨0, 32, .ro, 0x0, 0x0, 0xffffffff⟩]⟩,
  /- RG_LAWSTAT -/ ⟨0x3007c, [(0x2000, 8)], 0, [⟨0, 1, .w1c, 0x0, 0x0, 0x1⟩,
    ⟨1, 1, .w1c, 0x0, 0x0, 0x1⟩,
    ⟨2, 1, .w1c, 0x0, 0x0, 0x1⟩,
    ⟨3, 1, .ro, 0x0, 0x0, 0x1⟩,
    ⟨4, 1, .w1c, 0x0, 0x0, 0x1⟩,
    ⟨5, 1, .w1c, 0x0, 0x0, 0x1⟩,
    ⟨6, 1, .w1c, 0x0, 0x0, 0x1⟩,
    ⟨7, 1, .w1c, 0x0, 0x0, 0x1⟩,
    ⟨8, 1, .ro, 0x0, 0x0, 0x1⟩,
    ⟨9, 7, .res, 0x0, 0x0, 0x7f⟩,
    ⟨16, 16, .ro, 0x0, 0x0, 0xffff⟩]⟩,
  /- RG_FBSTAT -/ ⟨0x30080, [(0x2000, 8)], 0, [⟨0, 5, .ro, 0x0, 0x0, 0x1f⟩,
    ⟨5, 3, .res, 0x0, 0x0, 0x7⟩,
    ⟨8, 5, .ro, 0x0, 0x0, 0x1f⟩,
    ⟨13, 3, .res, 0x0, 0x0, 0x7⟩,
    ⟨16, 8, .ro, 0x0, 0x0, 0xff⟩,
    ⟨24, 8, .res, 0x0, 0x0, 0xff⟩]⟩,
  /- RG_LAWCNT -/ ⟨0x30084, [(0x2000, 8)], 0, [⟨0, 16, .ro, 0x0, 0x0, 0xffff⟩,
    ⟨16, 16, .ro, 0x0, 0x0, 0xffff⟩]⟩,
  /- RG_SPQ -/ ⟨0x30088, [(0x2000, 8)], 0, [⟨0, 4, .ro, 0x0, 0x0, 0xf⟩,
    ⟨4, 12, .res, 0x0, 0x0, 0xfff⟩,
    ⟨16, 16, .ro, 0x0, 0x0, 0xffff⟩]⟩,
  /- RG_KP -/ ⟨0x30100, [(0x2000, 8), (0x40, 4), (0x8, 4)], 13, [⟨0, 16, .ld, 0x0, 0x0, 0xffff⟩,
    ⟨16, 5, .ld, 0x0, 0x0, 0x1f⟩,
    ⟨21, 11, .res, 0x0, 0x0, 0x7ff⟩]⟩,
  /- RG_KI -/ ⟨0x30104, [(0x2000, 8), (0x40, 4), (0x8, 4)], 13, [⟨0, 16, .ld, 0x0, 0x0, 0xffff⟩,
    ⟨16, 5, .ld, 0x0, 0x0, 0x1f⟩,
    ⟨21, 11, .res, 0x0, 0x0, 0x7ff⟩]⟩,
  /- RG_KR -/ ⟨0x30120, [(0x2000, 8), (0x40, 4)], 13, [⟨0, 16, .ld, 0x0, 0x0, 0xffff⟩,
    ⟨16, 5, .ld, 0x0, 0x0, 0x1f⟩,
    ⟨21, 11, .res, 0x0, 0x0, 0x7ff⟩]⟩]

/-- LN registers (part 1). -/
def regMapLN0 : List RegDef := [
  /- LN_CFG -/ ⟨0x10000, [(0x100, 130)], 11, [⟨0, 1, .ld, 0x0, 0x0, 0x1⟩,
    ⟨1, 2, .ld, 0x3, 0x0, 0x3⟩,
    ⟨3, 1, .ld, 0x0, 0x0, 0x1⟩,
    ⟨4, 1, .ld, 0x0, 0x0, 0x1⟩,
    ⟨5, 3, .res, 0x0, 0x0, 0x7⟩,
    ⟨8, 5, .ld, 0x0, 0x0, 0x1f⟩,
    ⟨13, 3, .res, 0x0, 0x0, 0x7⟩,
    ⟨16, 5, .ld, 0x4, 0x0, 0x1f⟩,
    ⟨21, 11, .res, 0x0, 0x0, 0x7ff⟩]⟩,
  /- LN_TIMCFG -/ ⟨0x10004, [(0x100, 130)], 11, [⟨0, 8, .ld, 0x32, 0x5, 0xff⟩,
    ⟨8, 8, .ld, 0xa, 0x2, 0xff⟩,
    ⟨16, 4, .ld, 0x8, 0x1, 0xf⟩,
    ⟨20, 12, .res, 0x0, 0x0, 0xfff⟩]⟩,
  /- LN_TMXCFG -/ ⟨0x10008, [(0x100, 130)], 11, [⟨0, 16, .ld, 0x0, 0x0, 0xffff⟩,
    ⟨16, 8, .ld, 0x10, 0x1, 0xff⟩,
    ⟨24, 8, .ld, 0x20, 0x2, 0xff⟩]⟩,
  /- LN_CTL -/ ⟨0x1000c, [(0x100, 130)], 0, [⟨0, 1, .rw, 0x0, 0x0, 0x1⟩,
    ⟨1, 1, .rw, 0x0, 0x0, 0x1⟩,
    ⟨2, 1, .sc, 0x0, 0x0, 0x1⟩,
    ⟨3, 1, .sc, 0x0, 0x0, 0x1⟩,
    ⟨4, 28, .res, 0x0, 0x0, 0xfffffff⟩]⟩,
  /- LN_STAT -/ ⟨0x10010, [(0x100, 130)], 0, [⟨0, 3, .ro, 0x0, 0x0, 0x7⟩,
    ⟨3, 2, .ro, 0x0, 0x0, 0x3⟩,
    ⟨5, 1, .ro, 0x0, 0x0, 0x1⟩,
    ⟨6, 1, .ro, 0x0, 0x0, 0x1⟩,
    ⟨7, 1, .ro, 0x0, 0x0, 0x1⟩,
    ⟨8, 1, .ro, 0x0, 0x0, 0x1⟩,
    ⟨9, 1, .ro, 0x0, 0x0, 0x1⟩,
    ⟨10, 8, .ro, 0x0, 0x0, 0xff⟩,
    ⟨18, 14, .res, 0x0, 0x0, 0x3fff⟩]⟩,
  /- LN_EVT -/ ⟨0x10014, [(0x100, 130)], 0, [⟨0, 1, .w1c, 0x0, 0x0, 0x1⟩,
    ⟨1, 1, .w1c, 0x0, 0x0, 0x1⟩,
    ⟨2, 1, .w1c, 0x0, 0x0, 0x1⟩,
    ⟨3, 1, .w1c, 0x0, 0x0, 0x1⟩,
    ⟨4, 1, .w1c, 0x0, 0x0, 0x1⟩,
    ⟨5, 1, .w1c, 0x0, 0x0, 0x1⟩,
    ⟨6, 1, .w1c, 0x0, 0x0, 0x1⟩,
    ⟨7, 1, .w1c, 0x0, 0x0, 0x1⟩,
    ⟨8, 1, .w1c, 0x0, 0x0, 0x1⟩,
    ⟨9, 23, .res, 0x0, 0x0, 0x7fffff⟩]⟩,
  /- LN_CNT -/ ⟨0x10018, [(0x100, 130)], 0, [⟨0, 16, .ro, 0x0, 0x0, 0xffff⟩,
    ⟨16, 16, .ro, 0x0, 0x0, 0xffff⟩]⟩,
  /- LN_BERC -/ ⟨0x1001c, [(0x100, 130)], 0, [⟨0, 16, .ro, 0x0, 0x0, 0xffff⟩,
    ⟨16, 16, .ro, 0x0, 0x0, 0xffff⟩]⟩,
  /- LN_EQ -/ ⟨0x10020, [(0x100, 130)], 0, [⟨0, 5, .ro, 0x0, 0x0, 0x1f⟩,
    ⟨5, 6, .ro, 0x0, 0x0, 0x3f⟩,
    ⟨11, 5, .ro, 0x0, 0x0, 0x1f⟩,
    ⟨16, 4, .ro, 0x0, 0x0, 0xf⟩,
    ⟨20, 4, .ro, 0x0, 0x0, 0xf⟩,
    ⟨24, 4, .ro, 0x0, 0x0, 0xf⟩,
    ⟨28, 1, .ro, 0x0, 0x0, 0x1⟩,
    ⟨29, 3, .res, 0x0, 0x0, 0x7⟩]⟩,
  /- LN_PRBSCTL -/ ⟨0x10024, [(0x100, 130)], 0, [⟨0, 3, .rw, 0x0, 0x0, 0x7⟩,
    ⟨3, 1, .rw, 0x0, 0x0, 0x1⟩,
    ⟨4, 1, .rw, 0x0, 0x0, 0x1⟩,
    ⟨5, 1, .sc, 0x0, 0x0, 0x1⟩,
    ⟨6, 4, .rw, 0x0, 0x0, 0xf⟩,
    ⟨10, 1, .ro, 0x0, 0x0, 0x1⟩,
    ⟨11, 21, .res, 0x0, 0x0, 0x1fffff⟩]⟩,
  /- LN_PRBSERR -/ ⟨0x10028, [(0x100, 130)], 0, [⟨0, 32, .ro, 0x0, 0x0, 0xffffffff⟩]⟩,
  /- LN_TMXSEL -/ ⟨0x1002c, [(0x100, 130)], 0, [⟨0, 7, .rw, 0x0, 0x0, 0x7f⟩,
    ⟨7, 25, .res, 0x0, 0x0, 0x1ffffff⟩]⟩]

/-- LN registers (part 2). -/
def regMapLN1 : List RegDef := [
  /- LN_TMXD -/ ⟨0x10030, [(0x100, 130)], 0, [⟨0, 16, .ro, 0x0, 0x0, 0xffff⟩,
    ⟨16, 7, .ro, 0x0, 0x0, 0x7f⟩,
    ⟨23, 1, .ro, 0x0, 0x0, 0x1⟩,
    ⟨24, 8, .res, 0x0, 0x0, 0xff⟩]⟩,
  /- LN_TMXE2E -/ ⟨0x10034, [(0x100, 130)], 0, [⟨0, 16, .ro, 0x0, 0x0, 0xffff⟩,
    ⟨16, 1, .ro, 0x0, 0x0, 0x1⟩,
    ⟨17, 15, .res, 0x0, 0x0, 0x7fff⟩]⟩]

/-- QU registers (part 1). -/
def regMapQU0 : List RegDef := [
  /- QU_CFG -/ ⟨0x20000, [(0x400, 64)], 12, [⟨0, 8, .ld, 0x0, 0x0, 0x80⟩,
    ⟨8, 3, .ld, 0x0, 0x0, 0x7⟩,
    ⟨11, 1, .ld, 0x0, 0x0, 0x1⟩,
    ⟨12, 20, .res, 0x0, 0x0, 0xfffff⟩]⟩,
  /- QU_FRMCFG -/ ⟨0x20004, [(0x400, 64)], 12, [⟨0, 14, .ld, 0x0, 0x0, 0x3e80⟩,
    ⟨14, 2, .res, 0x0, 0x0, 0x3⟩,
    ⟨16, 3, .ld, 0x4, 0x1, 0x6⟩,
    ⟨19, 1, .res, 0x0, 0x0, 0x1⟩,
    ⟨20, 4, .ld, 0x4, 0x1, 0xf⟩,
    ⟨24, 8, .ld, 0x19, 0x0, 0xff⟩]⟩,
  /- QU_SLOTCTL -/ ⟨0x20008, [(0x400, 64)], 0, [⟨0, 1, .ro, 0x0, 0x0, 0x1⟩,
    ⟨1, 1, .ro, 0x0, 0x0, 0x1⟩,
    ⟨2, 14, .res, 0x0, 0x0, 0x3fff⟩,
    ⟨16, 16, .ro, 0x0, 0x0, 0xffff⟩]⟩,
  /- QU_SLOTA -/ ⟨0x2000c, [(0x400, 64)], 0, [⟨0, 8, .ro, 0x0, 0x0, 0xff⟩,
    ⟨8, 8, .ro, 0x0, 0x0, 0xff⟩,
    ⟨16, 8, .ro, 0x0, 0x0, 0xff⟩,
    ⟨24, 8, .res, 0x0, 0x0, 0xff⟩]⟩,
  /- QU_SLOTI -/ ⟨0x20010, [(0x400, 64)], 0, [⟨0, 8, .ro, 0x0, 0x0, 0xff⟩,
    ⟨8, 8, .ro, 0x0, 0x0, 0xff⟩,
    ⟨16, 8, .ro, 0x0, 0x0, 0xff⟩,
    ⟨24, 8, .res, 0x0, 0x0, 0xff⟩]⟩,
  /- QU_STAT -/ ⟨0x20014, [(0x400, 64)], 0, [⟨0, 3, .ro, 0x0, 0x0, 0x7⟩,
    ⟨3, 1, .ro, 0x0, 0x0, 0x1⟩,
    ⟨4, 1, .ro, 0x0, 0x0, 0x1⟩,
    ⟨5, 3, .res, 0x0, 0x0, 0x7⟩,
    ⟨8, 8, .ro, 0x0, 0x0, 0xff⟩,
    ⟨16, 16, .res, 0x0, 0x0, 0xffff⟩]⟩,
  /- QU_EVT -/ ⟨0x20018, [(0x400, 64)], 0, [⟨0, 1, .w1c, 0x0, 0x0, 0x1⟩,
    ⟨1, 1, .w1c, 0x0, 0x0, 0x1⟩,
    ⟨2, 1, .w1c, 0x0, 0x0, 0x1⟩,
    ⟨3, 1, .w1c, 0x0, 0x0, 0x1⟩,
    ⟨4, 1, .w1c, 0x0, 0x0, 0x1⟩,
    ⟨5, 1, .w1c, 0x0, 0x0, 0x1⟩,
    ⟨6, 1, .w1c, 0x0, 0x0, 0x1⟩,
    ⟨7, 1, .w1c, 0x0, 0x0, 0x1⟩,
    ⟨8, 1, .w1c, 0x0, 0x0, 0x1⟩,
    ⟨9, 23, .res, 0x0, 0x0, 0x7fffff⟩]⟩,
  /- QU_DLV -/ ⟨0x2001c, [(0x400, 64)], 0, [⟨0, 16, .ro, 0x0, 0x0, 0xffff⟩,
    ⟨16, 16, .ro, 0x0, 0x0, 0xffff⟩]⟩,
  /- QU_ARBCNT -/ ⟨0x20020, [(0x400, 64)], 0, [⟨0, 16, .ro, 0x0, 0x0, 0xffff⟩,
    ⟨16, 16, .ro, 0x0, 0x0, 0xffff⟩]⟩,
  /- QU_EVCNT -/ ⟨0x20024, [(0x400, 64)], 0, [⟨0, 16, .ro, 0x0, 0x0, 0xffff⟩,
    ⟨16, 16, .ro, 0x0, 0x0, 0xffff⟩]⟩,
  /- QU_CNT -/ ⟨0x20028, [(0x400, 64)], 0, [⟨0, 16, .ro, 0x0, 0x0, 0xffff⟩,
    ⟨16, 16, .ro, 0x0, 0x0, 0xffff⟩]⟩]

/-- CH registers (part 1). -/
def regMapCH0 : List RegDef := [
  /- CH_VCFG -/ ⟨0x30600, [(0x2000, 8)], 13, [⟨0, 8, .ld, 0x8, 0x1, 0x40⟩,
    ⟨8, 8, .ld, 0x10, 0x4, 0xff⟩,
    ⟨16, 4, .ld, 0x4, 0x1, 0xf⟩,
    ⟨20, 12, .res, 0x0, 0x0, 0xfff⟩]⟩,
  /- CH_VSTAT -/ ⟨0x30604, [(0x2000, 8)], 0, [⟨0, 2, .ro, 0x0, 0x0, 0x3⟩,
    ⟨2, 1, .ro, 0x1, 0x0, 0x1⟩,
    ⟨3, 1, .res, 0x0, 0x0, 0x1⟩,
    ⟨4, 2, .ro, 0x0, 0x0, 0x3⟩,
    ⟨6, 2, .res, 0x0, 0x0, 0x3⟩,
    ⟨8, 8, .ro, 0x0, 0x0, 0xff⟩,
    ⟨16, 16, .res, 0x0, 0x0, 0xffff⟩]⟩,
  /- CH_VEVT -/ ⟨0x30608, [(0x2000, 8)], 0, [⟨0, 1, .w1c, 0x0, 0x0, 0x1⟩,
    ⟨1, 1, .w1c, 0x0, 0x0, 0x1⟩,
    ⟨2, 1, .w1c, 0x0, 0x0, 0x1⟩,
    ⟨3, 1, .w1c, 0x0, 0x0, 0x1⟩,
    ⟨4, 1, .w1c, 0x0, 0x0, 0x1⟩,
    ⟨5, 1, .w1c, 0x0, 0x0, 0x1⟩,
    ⟨6, 1, .w1c, 0x0, 0x0, 0x1⟩,
    ⟨7, 25, .res, 0x0, 0x0, 0x1ffffff⟩]⟩,
  /- CH_VCNT -/ ⟨0x3060c, [(0x2000, 8)], 0, [⟨0, 16, .ro, 0x0, 0x0, 0xffff⟩,
    ⟨16, 16, .ro, 0x0, 0x0, 0xffff⟩]⟩,
  /- CH_VMULL -/ ⟨0x30610, [(0x2000, 8)], 0, [⟨0, 32, .ro, 0x0, 0x0, 0xffffffff⟩]⟩,
  /- CH_STAT -/ ⟨0x30640, [(0x2000, 8), (0x20, 3)], 0, [⟨0, 3, .ro, 0x1, 0x0, 0x7⟩,
    ⟨3, 1, .res, 0x0, 0x0, 0x1⟩,
    ⟨4, 4, .ro, 0x0, 0x0, 0xf⟩,
    ⟨8, 8, .ro, 0x0, 0x0, 0xff⟩,
    ⟨16, 8, .ro, 0x0, 0x0, 0xff⟩,
    ⟨24, 2, .ro, 0x0, 0x0, 0x3⟩,
    ⟨26, 6, .res, 0x0, 0x0, 0x3f⟩]⟩,
  /- CH_CNT -/ ⟨0x30644, [(0x2000, 8), (0x20, 3)], 0, [⟨0, 8, .ro, 0x0, 0x0, 0xff⟩,
    ⟨8, 3, .ro, 0x0, 0x0, 0x7⟩,
    ⟨11, 5, .res, 0x0, 0x0, 0x1f⟩,
    ⟨16, 16, .ro, 0x0, 0x0, 0xffff⟩]⟩]

/-- GL registers (part 1). -/
def regMapGL0 : List RegDef := [
  /- GL_TWCFG -/ ⟨0x100, [], 3, [⟨0, 1, .ld, 0x0, 0x0, 0x1⟩,
    ⟨1, 1, .ld, 0x0, 0x0, 0x1⟩,
    ⟨2, 6, .res, 0x0, 0x0, 0x3f⟩,
    ⟨8, 8, .ld, 0x4, 0x2, 0xff⟩,
    ⟨16, 8, .ld, 0x10, 0x1, 0x80⟩,
    ⟨24, 8, .ld, 0x10, 0x4, 0xff⟩]⟩,
  /- GL_TWSTAT -/ ⟨0x104, [], 0, [⟨0, 3, .ro, 0x0, 0x0, 0x7⟩,
    ⟨3, 1, .ro, 0x0, 0x0, 0x1⟩,
    ⟨4, 1, .ro, 0x0, 0x0, 0x1⟩,
    ⟨5, 27, .res, 0x0, 0x0, 0x7ffffff⟩]⟩,
  /- GL_TWEVT -/ ⟨0x108, [], 0, [⟨0, 1, .w1c, 0x0, 0x0, 0x1⟩,
    ⟨1, 1, .w1c, 0x0, 0x0, 0x1⟩,
    ⟨2, 1, .w1c, 0x0, 0x0, 0x1⟩,
    ⟨3, 1, .w1c, 0x0, 0x0, 0x1⟩,
    ⟨4, 1, .w1c, 0x0, 0x0, 0x1⟩,
    ⟨5, 1, .w1c, 0x0, 0x0, 0x1⟩,
    ⟨6, 1, .w1c, 0x0, 0x0, 0x1⟩,
    ⟨7, 25, .res, 0x0, 0x0, 0x1ffffff⟩]⟩,
  /- GL_TWCNT -/ ⟨0x10c, [], 0, [⟨0, 16, .ro, 0x0, 0x0, 0xffff⟩,
    ⟨16, 16, .ro, 0x0, 0x0, 0xffff⟩]⟩,
  /- GL_TCCFG -/ ⟨0x200, [], 3, [⟨0, 8, .ld, 0x14, 0x0, 0xb4⟩,
    ⟨8, 8, .ro, 0x14, 0x0, 0xff⟩,
    ⟨16, 16, .res, 0x0, 0x0, 0xffff⟩]⟩,
  /- GL_IMGSTAT -/ ⟨0x204, [], 0, [⟨0, 1, .ro, 0x0, 0x0, 0x1⟩,
    ⟨1, 1, .ro, 0x0, 0x0, 0x1⟩,
    ⟨2, 1, .ro, 0x0, 0x0, 0x1⟩,
    ⟨3, 1, .ro, 0x0, 0x0, 0x1⟩,
    ⟨4, 4, .ro, 0xe, 0x0, 0xf⟩,
    ⟨8, 4, .ro, 0xe, 0x0, 0xf⟩,
    ⟨12, 4, .res, 0x0, 0x0, 0xf⟩,
    ⟨16, 16, .ro, 0x0, 0x0, 0xffff⟩]⟩,
  /- GL_IMGSEQ -/ ⟨0x208, [], 0, [⟨0, 32, .ro, 0x0, 0x0, 0xffffffff⟩]⟩,
  /- GL_IMGALT -/ ⟨0x20c, [], 0, [⟨0, 32, .ro, 0x0, 0x0, 0xffffffff⟩]⟩,
  /- GL_IMGWR -/ ⟨0x210, [], 0, [⟨0, 3, .ro, 0x0, 0x0, 0x7⟩,
    ⟨3, 1, .res, 0x0, 0x0, 0x1⟩,
    ⟨4, 4, .ro, 0x0, 0x0, 0xf⟩,
    ⟨8, 24, .ro, 0x0, 0x0, 0xffffff⟩]⟩,
  /- GL_KEYSTAT -/ ⟨0x214, [], 0, [⟨0, 1, .ro, 0x0, 0x0, 0x1⟩,
    ⟨1, 1, .ro, 0x0, 0x0, 0x1⟩,
    ⟨2, 1, .ro, 0x0, 0x0, 0x1⟩,
    ⟨3, 29, .res, 0x0, 0x0, 0x1fffffff⟩]⟩,
  /- GL_FWVER -/ ⟨0x218, [], 0, [⟨0, 32, .ro, 0x0, 0x0, 0xffffffff⟩]⟩,
  /- GL_KEYHASH -/ ⟨0x220, [(0x4, 8)], 0, [⟨0, 32, .ro, 0x0, 0x0, 0xffffffff⟩]⟩]

/-- GL registers (part 2). -/
def regMapGL1 : List RegDef := [
  /- GL_MODE -/ ⟨0x300, [], 0, [⟨0, 3, .ro, 0x0, 0x0, 0x7⟩,
    ⟨3, 1, .ro, 0x0, 0x0, 0x1⟩,
    ⟨4, 1, .ro, 0x0, 0x0, 0x1⟩,
    ⟨5, 11, .res, 0x0, 0x0, 0x7ff⟩,
    ⟨16, 16, .ro, 0x0, 0x0, 0xffff⟩]⟩,
  /- GL_SUSTAT -/ ⟨0x304, [], 0, [⟨0, 1, .ro, 0x0, 0x0, 0x1⟩,
    ⟨1, 7, .res, 0x0, 0x0, 0x7f⟩,
    ⟨8, 8, .ro, 0x0, 0x0, 0xff⟩,
    ⟨16, 8, .ro, 0x0, 0x0, 0xff⟩,
    ⟨24, 8, .res, 0x0, 0x0, 0xff⟩]⟩,
  /- GL_SUQRDY -/ ⟨0x308, [(0x4, 2)], 0, [⟨0, 32, .ro, 0x0, 0x0, 0xffffffff⟩]⟩,
  /- GL_SURDY -/ ⟨0x320, [(0x4, 8)], 0, [⟨0, 1, .ro, 0x0, 0x0, 0x1⟩,
    ⟨1, 1, .ro, 0x0, 0x0, 0x1⟩,
    ⟨2, 1, .ro, 0x0, 0x0, 0x1⟩,
    ⟨3, 1, .ro, 0x0, 0x0, 0x1⟩,
    ⟨4, 1, .ro, 0x0, 0x0, 0x1⟩,
    ⟨5, 1, .ro, 0x0, 0x0, 0x1⟩,
    ⟨6, 1, .ro, 0x1, 0x0, 0x1⟩,
    ⟨7, 1, .ro, 0x0, 0x0, 0x1⟩,
    ⟨8, 12, .ro, 0x0, 0x0, 0xfff⟩,
    ⟨20, 12, .res, 0x0, 0x0, 0xfff⟩]⟩,
  /- GL_ID -/ ⟨0x0, [], 0, [⟨0, 32, .ro, 0x181925a7, 0x0, 0xffffffff⟩]⟩,
  /- GL_PART -/ ⟨0x4, [], 0, [⟨0, 32, .ro, 0x4b582000, 0x0, 0xffffffff⟩]⟩,
  /- GL_REV -/ ⟨0x8, [], 0, [⟨0, 4, .ro, 0x0, 0x0, 0xf⟩,
    ⟨4, 4, .ro, 0x1, 0x0, 0xf⟩,
    ⟨8, 8, .ro, 0x1, 0x0, 0xff⟩,
    ⟨16, 16, .res, 0x0, 0x0, 0xffff⟩]⟩,
  /- GL_UIDLO -/ ⟨0xc, [], 0, [⟨0, 32, .ro, 0x0, 0x0, 0xffffffff⟩]⟩,
  /- GL_UIDHI -/ ⟨0x10, [], 0, [⟨0, 32, .ro, 0x0, 0x0, 0xffffffff⟩]⟩,
  /- GL_CAP -/ ⟨0x14, [], 0, [⟨0, 8, .ro, 0x8, 0x0, 0xff⟩,
    ⟨8, 8, .ro, 0x40, 0x0, 0xff⟩,
    ⟨16, 8, .ro, 0x82, 0x0, 0xff⟩,
    ⟨24, 8, .ro, 0x80, 0x0, 0xff⟩]⟩,
  /- GL_MAPVER -/ ⟨0x18, [], 0, [⟨0, 16, .ro, 0x1, 0x0, 0xffff⟩,
    ⟨16, 16, .res, 0x0, 0x0, 0xffff⟩]⟩,
  /- GL_TJ -/ ⟨0x1c, [], 0, [⟨0, 13, .ro, 0x0, 0x0, 0x1fff⟩,
    ⟨13, 3, .res, 0x0, 0x0, 0x7⟩,
    ⟨16, 13, .ro, 0x0, 0x0, 0x1fff⟩,
    ⟨29, 3, .res, 0x0, 0x0, 0x7⟩]⟩]

/-- GL registers (part 3). -/
def regMapGL2 : List RegDef := [
  /- GL_MPSTAT -/ ⟨0x20, [], 0, [⟨0, 16, .ro, 0x0, 0x0, 0xffff⟩,
    ⟨16, 16, .ro, 0x0, 0x0, 0xffff⟩]⟩,
  /- GL_MPCNT -/ ⟨0x24, [], 0, [⟨0, 32, .ro, 0x0, 0x0, 0xffffffff⟩]⟩]

/-- AD registers (part 1). -/
def regMapAD0 : List RegDef := [
  /- AD_STAT -/ ⟨0x7000, [], 0, [⟨0, 4, .ro, 0x0, 0x0, 0xf⟩,
    ⟨4, 4, .ro, 0x0, 0x0, 0xf⟩,
    ⟨8, 4, .ro, 0x0, 0x0, 0xf⟩,
    ⟨12, 20, .res, 0x0, 0x0, 0xfffff⟩]⟩,
  /- AD_EVT -/ ⟨0x7004, [], 0, [⟨0, 1, .w1c, 0x0, 0x0, 0x1⟩,
    ⟨1, 1, .w1c, 0x0, 0x0, 0x1⟩,
    ⟨2, 1, .w1c, 0x0, 0x0, 0x1⟩,
    ⟨3, 29, .res, 0x0, 0x0, 0x1fffffff⟩]⟩,
  /- AD_OVR -/ ⟨0x7008, [], 0, [⟨0, 32, .w1c, 0x0, 0x0, 0xffffffff⟩]⟩,
  /- AD_QSTAT -/ ⟨0x700c, [], 0, [⟨0, 12, .ro, 0x0, 0x0, 0xfff⟩,
    ⟨12, 4, .res, 0x0, 0x0, 0xf⟩,
    ⟨16, 16, .ro, 0x0, 0x0, 0xffff⟩]⟩,
  /- AD_QLO -/ ⟨0x7010, [], 0, [⟨0, 32, .ro, 0x0, 0x0, 0xffffffff⟩]⟩,
  /- AD_QHI -/ ⟨0x7014, [], 0, [⟨0, 32, .ro, 0x0, 0x0, 0xffffffff⟩]⟩,
  /- AD_GCFG -/ ⟨0x7100, [(0x40, 4)], 10, [⟨0, 1, .ld, 0x0, 0x0, 0x1⟩,
    ⟨1, 2, .ld, 0x0, 0x0, 0x3⟩,
    ⟨3, 1, .res, 0x0, 0x0, 0x1⟩,
    ⟨4, 4, .ld, 0x7, 0x0, 0xf⟩,
    ⟨8, 24, .res, 0x0, 0x0, 0xffffff⟩]⟩,
  /- AD_SEQ0 -/ ⟨0x7104, [(0x40, 4)], 10, [⟨0, 24, .ld, 0xfac688, 0x0, 0xffffff⟩,
    ⟨24, 8, .res, 0x0, 0x0, 0xff⟩]⟩,
  /- AD_SEQ1 -/ ⟨0x7108, [(0x40, 4)], 10, [⟨0, 24, .ld, 0xfac688, 0x0, 0xffffff⟩,
    ⟨24, 8, .res, 0x0, 0x0, 0xff⟩]⟩,
  /- AD_CALCFG -/ ⟨0x710c, [(0x40, 4)], 10, [⟨0, 8, .ld, 0x40, 0x10, 0xff⟩,
    ⟨8, 4, .ld, 0x2, 0x1, 0xf⟩,
    ⟨12, 3, .ld, 0x4, 0x2, 0x7⟩,
    ⟨15, 17, .res, 0x0, 0x0, 0x1ffff⟩]⟩,
  /- AD_GSTAT -/ ⟨0x7110, [(0x40, 4)], 0, [⟨0, 4, .ro, 0x8, 0x0, 0xf⟩,
    ⟨4, 1, .ro, 0x0, 0x0, 0x1⟩,
    ⟨5, 1, .ro, 0x0, 0x0, 0x1⟩,
    ⟨6, 1, .ro, 0x0, 0x0, 0x1⟩,
    ⟨7, 1, .res, 0x0, 0x0, 0x1⟩,
    ⟨8, 9, .ro, 0x0, 0x0, 0x1ff⟩,
    ⟨17, 15, .res, 0x0, 0x0, 0x7fff⟩]⟩,
  /- AD_INJ -/ ⟨0x7114, [(0x40, 4)], 0, [⟨0, 3, .rw, 0x0, 0x0, 0x7⟩,
    ⟨3, 1, .sc, 0x0, 0x0, 0x1⟩,
    ⟨4, 28, .res, 0x0, 0x0, 0xfffffff⟩]⟩]

/-- AD registers (part 2). -/
def regMapAD1 : List RegDef := [
  /- AD_INJCNT -/ ⟨0x7118, [(0x40, 4)], 0, [⟨0, 16, .ro, 0x0, 0x0, 0xffff⟩,
    ⟨16, 16, .ro, 0x0, 0x0, 0xffff⟩]⟩,
  /- AD_CALCNT -/ ⟨0x711c, [(0x40, 4)], 0, [⟨0, 16, .ro, 0x0, 0x0, 0xffff⟩,
    ⟨16, 16, .ro, 0x0, 0x0, 0xffff⟩]⟩,
  /- AD_SLCOEF -/ ⟨0x7200, [(0x80, 4), (0x8, 9)], 0, [⟨0, 16, .ro, 0x0, 0x0, 0xffff⟩,
    ⟨16, 16, .ro, 0x8000, 0x0, 0xffff⟩]⟩,
  /- AD_SLSKEW -/ ⟨0x7204, [(0x80, 4), (0x8, 9)], 0, [⟨0, 16, .ro, 0x0, 0x0, 0xffff⟩,
    ⟨16, 16, .res, 0x0, 0x0, 0xffff⟩]⟩,
  /- AD_INCFG -/ ⟨0x7400, [(0x10, 32)], 10, [⟨0, 3, .ld, 0x0, 0x0, 0x4⟩,
    ⟨3, 1, .ld, 0x0, 0x0, 0x1⟩,
    ⟨4, 1, .ld, 0x0, 0x0, 0x1⟩,
    ⟨5, 27, .res, 0x0, 0x0, 0x7ffffff⟩]⟩,
  /- AD_INSC -/ ⟨0x7404, [(0x10, 32)], 10, [⟨0, 16, .ld, 0x0, 0x0, 0xffff⟩,
    ⟨16, 5, .ld, 0x0, 0x0, 0x1f⟩,
    ⟨21, 11, .res, 0x0, 0x0, 0x7ff⟩]⟩,
  /- AD_INOFS -/ ⟨0x7408, [(0x10, 32)], 10, [⟨0, 32, .ld, 0x0, 0x0, 0xffffffff⟩]⟩,
  /- PSUMLO -/ ⟨0x7800, [(0x20, 32)], 0, [⟨0, 32, .ro, 0x0, 0x0, 0xffffffff⟩]⟩,
  /- WSUMLO -/ ⟨0x780c, [(0x20, 32)], 0, [⟨0, 32, .ro, 0x0, 0x0, 0xffffffff⟩]⟩,
  /- PSUMHI -/ ⟨0x7804, [(0x20, 32)], 0, [⟨0, 8, .ro, 0x0, 0x0, 0xff⟩,
    ⟨8, 24, .ro, 0x0, 0x0, 0xffffff⟩]⟩,
  /- WSUMHI -/ ⟨0x7810, [(0x20, 32)], 0, [⟨0, 8, .ro, 0x0, 0x0, 0xff⟩,
    ⟨8, 24, .ro, 0x0, 0x0, 0xffffff⟩]⟩,
  /- PMINMAX -/ ⟨0x7808, [(0x20, 32)], 0, [⟨0, 16, .ro, 0x0, 0x0, 0xffff⟩,
    ⟨16, 16, .ro, 0x0, 0x0, 0xffff⟩]⟩]

/-- AD registers (part 3). -/
def regMapAD2 : List RegDef := [
  /- WMINMAX -/ ⟨0x7814, [(0x20, 32)], 0, [⟨0, 16, .ro, 0x0, 0x0, 0xffff⟩,
    ⟨16, 16, .ro, 0x0, 0x0, 0xffff⟩]⟩,
  /- AD_MEAN -/ ⟨0x7818, [(0x20, 32)], 0, [⟨0, 32, .ro, 0x0, 0x0, 0xffffffff⟩]⟩,
  /- AD_ACCINF -/ ⟨0x781c, [(0x20, 32)], 0, [⟨0, 8, .ro, 0x0, 0x0, 0xff⟩,
    ⟨8, 5, .ro, 0x0, 0x0, 0x1f⟩,
    ⟨13, 19, .res, 0x0, 0x0, 0x7ffff⟩]⟩]

/-- PL registers (part 1). -/
def regMapPL0 : List RegDef := [
  /- PL_REFCFG -/ ⟨0x4000, [], 5, [⟨0, 16, .ld, 0x61a8, 0x2710, 0xc350⟩,
    ⟨16, 8, .ld, 0xa, 0x2, 0x64⟩,
    ⟨24, 8, .res, 0x0, 0x0, 0xff⟩]⟩,
  /- PL_STAT -/ ⟨0x4004, [], 0, [⟨0, 1, .ro, 0x0, 0x0, 0x1⟩,
    ⟨1, 1, .ro, 0x0, 0x0, 0x1⟩,
    ⟨2, 1, .ro, 0x0, 0x0, 0x1⟩,
    ⟨3, 1, .ro, 0x0, 0x0, 0x1⟩,
    ⟨4, 1, .ro, 0x0, 0x0, 0x1⟩,
    ⟨5, 27, .res, 0x0, 0x0, 0x7ffffff⟩]⟩,
  /- PL_EVT -/ ⟨0x4008, [], 0, [⟨0, 1, .w1c, 0x0, 0x0, 0x1⟩,
    ⟨1, 1, .w1c, 0x0, 0x0, 0x1⟩,
    ⟨2, 1, .w1c, 0x0, 0x0, 0x1⟩,
    ⟨3, 29, .res, 0x0, 0x0, 0x1fffffff⟩]⟩,
  /- PL_TDIV0 -/ ⟨0x4010, [], 5, [⟨0, 10, .rw, 0xa0, 0x10, 0x3ff⟩,
    ⟨10, 2, .rw, 0x0, 0x0, 0x3⟩,
    ⟨12, 20, .res, 0x0, 0x0, 0xfffff⟩]⟩,
  /- PL_SDIV0 -/ ⟨0x4020, [], 5, [⟨0, 10, .rw, 0xc8, 0x10, 0x3ff⟩,
    ⟨10, 2, .rw, 0x0, 0x0, 0x3⟩,
    ⟨12, 20, .res, 0x0, 0x0, 0xfffff⟩]⟩,
  /- PL_TDIV1 -/ ⟨0x4014, [], 5, [⟨0, 24, .rw, 0x0, 0x0, 0xffffff⟩,
    ⟨24, 8, .res, 0x0, 0x0, 0xff⟩]⟩,
  /- PL_SDIV1 -/ ⟨0x4024, [], 5, [⟨0, 24, .rw, 0x0, 0x0, 0xffffff⟩,
    ⟨24, 8, .res, 0x0, 0x0, 0xff⟩]⟩,
  /- PL_TCTL -/ ⟨0x4018, [], 0, [⟨0, 1, .sc, 0x0, 0x0, 0x1⟩,
    ⟨1, 7, .res, 0x0, 0x0, 0x7f⟩,
    ⟨8, 6, .ro, 0x0, 0x0, 0x3f⟩,
    ⟨14, 2, .res, 0x0, 0x0, 0x3⟩,
    ⟨16, 16, .ro, 0x0, 0x0, 0xffff⟩]⟩,
  /- PL_SCTL -/ ⟨0x4028, [], 0, [⟨0, 1, .sc, 0x0, 0x0, 0x1⟩,
    ⟨1, 7, .res, 0x0, 0x0, 0x7f⟩,
    ⟨8, 6, .ro, 0x0, 0x0, 0x3f⟩,
    ⟨14, 2, .res, 0x0, 0x0, 0x3⟩,
    ⟨16, 16, .ro, 0x0, 0x0, 0xffff⟩]⟩,
  /- PL_SPHS -/ ⟨0x402c, [], 0, [⟨0, 8, .wo, 0x0, 0x0, 0xff⟩,
    ⟨8, 24, .res, 0x0, 0x0, 0xffffff⟩]⟩]

/-- TM registers (part 1). -/
def regMapTM0 : List RegDef := [
  /- TM_CFG -/ ⟨0x5000, [], 6, [⟨0, 8, .ld, 0x0, 0x0, 0xff⟩,
    ⟨8, 2, .ld, 0x0, 0x0, 0x3⟩,
    ⟨10, 1, .ld, 0x0, 0x0, 0x1⟩,
    ⟨11, 1, .res, 0x0, 0x0, 0x1⟩,
    ⟨12, 4, .ld, 0x3, 0x2, 0xf⟩,
    ⟨16, 16, .res, 0x0, 0x0, 0xffff⟩]⟩,
  /- TM_SRVCFG -/ ⟨0x5004, [], 6, [⟨0, 16, .ld, 0x32, 0x1, 0xffff⟩,
    ⟨16, 16, .ld, 0x3c, 0x1, 0xffff⟩]⟩,
  /- TM_JMPCFG -/ ⟨0x5008, [], 6, [⟨0, 16, .ld, 0x64, 0x1, 0xffff⟩,
    ⟨16, 7, .ld, 0x32, 0x1, 0x64⟩,
    ⟨23, 9, .res, 0x0, 0x0, 0x1ff⟩]⟩,
  /- TM_PCOR -/ ⟨0x500c, [(0x4, 2)], 6, [⟨0, 16, .ld, 0x0, 0x0, 0xffff⟩,
    ⟨16, 16, .ld, 0x0, 0x0, 0xffff⟩]⟩,
  /- TM_INCR -/ ⟨0x501c, [], 0, [⟨0, 32, .rw, 0x0, 0x0, 0xffffffff⟩]⟩,
  /- TM_ADJ -/ ⟨0x5020, [], 0, [⟨0, 32, .wo, 0x0, 0x0, 0xffffffff⟩]⟩,
  /- TM_JUMPLO -/ ⟨0x5024, [], 0, [⟨0, 32, .wo, 0x0, 0x0, 0xffffffff⟩]⟩,
  /- TM_JUMPHI -/ ⟨0x5028, [], 0, [⟨0, 16, .wo, 0x0, 0x0, 0xffff⟩,
    ⟨16, 16, .res, 0x0, 0x0, 0xffff⟩]⟩,
  /- TM_STAT -/ ⟨0x5014, [], 0, [⟨0, 3, .ro, 0x0, 0x0, 0x7⟩,
    ⟨3, 1, .ro, 0x0, 0x0, 0x1⟩,
    ⟨4, 1, .ro, 0x0, 0x0, 0x1⟩,
    ⟨5, 1, .ro, 0x0, 0x0, 0x1⟩,
    ⟨6, 1, .ro, 0x0, 0x0, 0x1⟩,
    ⟨7, 25, .res, 0x0, 0x0, 0x1ffffff⟩]⟩,
  /- TM_EVT -/ ⟨0x5018, [], 0, [⟨0, 1, .w1c, 0x0, 0x0, 0x1⟩,
    ⟨1, 1, .w1c, 0x0, 0x0, 0x1⟩,
    ⟨2, 1, .w1c, 0x0, 0x0, 0x1⟩,
    ⟨3, 1, .w1c, 0x0, 0x0, 0x1⟩,
    ⟨4, 1, .w1c, 0x0, 0x0, 0x1⟩,
    ⟨5, 1, .w1c, 0x0, 0x0, 0x1⟩,
    ⟨6, 26, .res, 0x0, 0x0, 0x3ffffff⟩]⟩,
  /- TM_CNT -/ ⟨0x502c, [], 0, [⟨0, 16, .ro, 0x0, 0x0, 0xffff⟩,
    ⟨16, 16, .ro, 0x0, 0x0, 0xffff⟩]⟩,
  /- TM_NOW0 -/ ⟨0x5030, [], 0, [⟨0, 16, .ro, 0x0, 0x0, 0xffff⟩,
    ⟨16, 16, .res, 0x0, 0x0, 0xffff⟩]⟩]

/-- TM registers (part 2). -/
def regMapTM1 : List RegDef := [
  /- TM_NOW1 -/ ⟨0x5034, [], 0, [⟨0, 30, .ro, 0x0, 0x0, 0x3fffffff⟩,
    ⟨30, 2, .res, 0x0, 0x0, 0x3⟩]⟩,
  /- TM_NOW2 -/ ⟨0x5038, [], 0, [⟨0, 32, .ro, 0x0, 0x0, 0xffffffff⟩]⟩,
  /- TM_NOW3 -/ ⟨0x503c, [], 0, [⟨0, 16, .ro, 0x0, 0x0, 0xffff⟩,
    ⟨16, 16, .res, 0x0, 0x0, 0xffff⟩]⟩,
  /- TM_OFS -/ ⟨0x5040, [], 0, [⟨0, 32, .ro, 0x0, 0x0, 0xffffffff⟩]⟩,
  /- TM_PDLY -/ ⟨0x5044, [], 0, [⟨0, 32, .ro, 0x0, 0x0, 0xffffffff⟩]⟩,
  /- TM_PERIOD -/ ⟨0x5048, [], 0, [⟨0, 32, .ro, 0x0, 0x0, 0xffffffff⟩]⟩,
  /- TM_UTC -/ ⟨0x504c, [], 0, [⟨0, 16, .ro, 0x0, 0x0, 0xffff⟩,
    ⟨16, 1, .ro, 0x0, 0x0, 0x1⟩,
    ⟨17, 15, .res, 0x0, 0x0, 0x7fff⟩]⟩,
  /- TM_GMID -/ ⟨0x5050, [(0x4, 2)], 0, [⟨0, 32, .ro, 0x0, 0x0, 0xffffffff⟩]⟩]

/-- FC registers (part 1). -/
def regMapFC0 : List RegDef := [
  /- FC_SUM -/ ⟨0x2000, [], 0, [⟨0, 1, .ro, 0x0, 0x0, 0x1⟩,
    ⟨1, 1, .ro, 0x0, 0x0, 0x1⟩,
    ⟨2, 1, .ro, 0x0, 0x0, 0x1⟩,
    ⟨3, 1, .ro, 0x0, 0x0, 0x1⟩,
    ⟨4, 1, .ro, 0x0, 0x0, 0x1⟩,
    ⟨5, 27, .res, 0x0, 0x0, 0x7ffffff⟩]⟩,
  /- FC_CHIP -/ ⟨0x2004, [], 0, [⟨0, 1, .w1c, 0x0, 0x0, 0x1⟩,
    ⟨1, 1, .w1c, 0x0, 0x0, 0x1⟩,
    ⟨2, 1, .w1c, 0x0, 0x0, 0x1⟩,
    ⟨3, 1, .w1c, 0x0, 0x0, 0x1⟩,
    ⟨4, 1, .w1c, 0x0, 0x0, 0x1⟩,
    ⟨5, 1, .w1c, 0x0, 0x0, 0x1⟩,
    ⟨6, 1, .w1c, 0x0, 0x0, 0x1⟩,
    ⟨7, 1, .w1c, 0x0, 0x0, 0x1⟩,
    ⟨8, 1, .w1c, 0x0, 0x0, 0x1⟩,
    ⟨9, 1, .w1c, 0x0, 0x0, 0x1⟩,
    ⟨10, 1, .w1c, 0x0, 0x0, 0x1⟩,
    ⟨11, 1, .w1c, 0x0, 0x0, 0x1⟩,
    ⟨12, 1, .w1c, 0x0, 0x0, 0x1⟩,
    ⟨13, 1, .w1c, 0x0, 0x0, 0x1⟩,
    ⟨14, 1, .w1c, 0x0, 0x0, 0x1⟩,
    ⟨15, 1, .w1c, 0x0, 0x0, 0x1⟩,
    ⟨16, 1, .w1c, 0x0, 0x0, 0x1⟩,
    ⟨17, 15, .res, 0x0, 0x0, 0x7fff⟩]⟩,
  /- FC_CHIPCS -/ ⟨0x2008, [], 0, [⟨0, 17, .ro, 0x0, 0x0, 0x1ffff⟩,
    ⟨17, 15, .res, 0x0, 0x0, 0x7fff⟩]⟩,
  /- FC_CFG -/ ⟨0x200c, [], 9, [⟨0, 1, .ld, 0x0, 0x0, 0x1⟩,
    ⟨1, 1, .ld, 0x0, 0x0, 0x1⟩,
    ⟨2, 30, .res, 0x0, 0x0, 0x3fffffff⟩]⟩,
  /- FC_TRIPCFG -/ ⟨0x2010, [(0x4, 4)], 9, [⟨0, 1, .ld, 0x0, 0x0, 0x1⟩,
    ⟨1, 1, .ld, 0x0, 0x0, 0x1⟩,
    ⟨2, 8, .ld, 0xa, 0x1, 0xff⟩,
    ⟨10, 8, .ld, 0x0, 0x0, 0xff⟩,
    ⟨18, 1, .ld, 0x0, 0x0, 0x1⟩,
    ⟨19, 13, .res, 0x0, 0x0, 0x1fff⟩]⟩,
  /- FC_TRIPSTAT -/ ⟨0x2020, [], 0, [⟨0, 4, .ro, 0x0, 0x0, 0xf⟩,
    ⟨4, 4, .ro, 0x0, 0x0, 0xf⟩,
    ⟨8, 2, .ro, 0x0, 0x0, 0x3⟩,
    ⟨10, 22, .res, 0x0, 0x0, 0x3fffff⟩]⟩,
  /- FC_TRIPEVT -/ ⟨0x2024, [], 0, [⟨0, 4, .w1c, 0x0, 0x0, 0xf⟩,
    ⟨4, 12, .res, 0x0, 0x0, 0xfff⟩,
    ⟨16, 16, .ro, 0x0, 0x0, 0xffff⟩]⟩,
  /- FC_TOCFG -/ ⟨0x2028, [], 9, [⟨0, 1, .ld, 0x0, 0x0, 0x1⟩,
    ⟨1, 1, .ld, 0x0, 0x0, 0x1⟩,
    ⟨2, 1, .ld, 0x0, 0x0, 0x1⟩,
    ⟨3, 5, .res, 0x0, 0x0, 0x1f⟩,
    ⟨8, 8, .ld, 0x0, 0x0, 0xff⟩,
    ⟨16, 1, .ld, 0x0, 0x0, 0x1⟩,
    ⟨17, 1, .ld, 0x0, 0x0, 0x1⟩,
    ⟨18, 1, .ld, 0x0, 0x0, 0x1⟩,
    ⟨19, 5, .res, 0x0, 0x0, 0x1f⟩,
    ⟨24, 8, .ld, 0x0, 0x0, 0xff⟩]⟩,
  /- FC_INJ -/ ⟨0x202c, [], 0, [⟨0, 4, .rw, 0x0, 0x0, 0xf⟩,
    ⟨4, 1, .rw, 0x0, 0x0, 0x1⟩,
    ⟨5, 1, .sc, 0x0, 0x0, 0x1⟩,
    ⟨6, 2, .res, 0x0, 0x0, 0x3⟩,
    ⟨8, 13, .rw, 0x0, 0x0, 0x1fff⟩,
    ⟨21, 11, .res, 0x0, 0x0, 0x7ff⟩]⟩,
  /- FC_INJCNT -/ ⟨0x2030, [], 0, [⟨0, 16, .ro, 0x0, 0x0, 0xffff⟩,
    ⟨16, 16, .ro, 0x0, 0x0, 0xffff⟩]⟩,
  /- FC_RSVEVT -/ ⟨0x2034, [], 0, [⟨0, 8, .w1c, 0x0, 0x0, 0xff⟩,
    ⟨8, 24, .res, 0x0, 0x0, 0xffffff⟩]⟩,
  /- FC_RSV -/ ⟨0x2040, [(0x4, 8)], 9, [⟨0, 12, .ld, 0x0, 0x0, 0x800⟩,
    ⟨12, 20, .res, 0x0, 0x0, 0xfffff⟩]⟩]

/-- FC registers (part 2). -/
def regMapFC1 : List RegDef := [
  /- FC_SUMGL -/ ⟨0x2060, [], 0, [⟨0, 10, .ro, 0x0, 0x0, 0x3ff⟩,
    ⟨10, 22, .res, 0x0, 0x0, 0x3fffff⟩]⟩,
  /- FC_SUMRG -/ ⟨0x2064, [], 0, [⟨0, 8, .ro, 0x0, 0x0, 0xff⟩,
    ⟨8, 24, .res, 0x0, 0x0, 0xffffff⟩]⟩,
  /- FC_SUMQU -/ ⟨0x2068, [(0x4, 2)], 0, [⟨0, 32, .ro, 0x0, 0x0, 0xffffffff⟩]⟩,
  /- FC_SUMLN -/ ⟨0x2070, [(0x4, 5)], 0, [⟨0, 32, .ro, 0x0, 0x0, 0xffffffff⟩]⟩,
  /- FC_SUMCE -/ ⟨0x2084, [(0x4, 2)], 0, [⟨0, 32, .ro, 0x0, 0x0, 0xffffffff⟩]⟩,
  /- FC_CESVC -/ ⟨0x208c, [(0x4, 2)], 0, [⟨0, 32, .w1c, 0x0, 0x0, 0xffffffff⟩]⟩,
  /- FC_LINKRG -/ ⟨0x2094, [], 0, [⟨0, 8, .ro, 0x0, 0x0, 0xff⟩,
    ⟨8, 24, .res, 0x0, 0x0, 0xffffff⟩]⟩,
  /- FC_AMCFG -/ ⟨0x2100, [(0x10, 32)], 9, [⟨0, 2, .ld, 0x0, 0x0, 0x3⟩,
    ⟨2, 2, .res, 0x0, 0x0, 0x3⟩,
    ⟨4, 4, .ld, 0x1, 0x1, 0xf⟩,
    ⟨8, 8, .ld, 0x0, 0x0, 0xff⟩,
    ⟨16, 16, .res, 0x0, 0x0, 0xffff⟩]⟩,
  /- FC_AMHI -/ ⟨0x2104, [(0x10, 32)], 9, [⟨0, 32, .ld, 0x7fffffff, 0x0, 0xffffffff⟩]⟩,
  /- FC_AMLO -/ ⟨0x2108, [(0x10, 32)], 9, [⟨0, 32, .ld, 0x80000000, 0x0, 0xffffffff⟩]⟩,
  /- FC_AMSTAT -/ ⟨0x210c, [(0x10, 32)], 0, [⟨0, 1, .w1c, 0x0, 0x0, 0x1⟩,
    ⟨1, 1, .ro, 0x0, 0x0, 0x1⟩,
    ⟨2, 6, .res, 0x0, 0x0, 0x3f⟩,
    ⟨8, 4, .ro, 0x0, 0x0, 0xf⟩,
    ⟨12, 20, .res, 0x0, 0x0, 0xfffff⟩]⟩]

/-- SF registers (part 1). -/
def regMapSF0 : List RegDef := [
  /- SF_OCFG -/ ⟨0x3000, [], 8, [⟨0, 1, .ld, 0x0, 0x0, 0x1⟩,
    ⟨1, 1, .ld, 0x0, 0x0, 0x1⟩,
    ⟨2, 6, .res, 0x0, 0x0, 0x3f⟩,
    ⟨8, 8, .ld, 0x3c, 0x1, 0xff⟩,
    ⟨16, 4, .ld, 0x2, 0x1, 0xa⟩,
    ⟨20, 4, .res, 0x0, 0x0, 0xf⟩,
    ⟨24, 8, .ld, 0xa, 0x5, 0x64⟩]⟩,
  /- SF_STAT -/ ⟨0x3004, [], 0, [⟨0, 8, .ro, 0x0, 0x0, 0xff⟩,
    ⟨8, 2, .ro, 0x3, 0x0, 0x3⟩,
    ⟨10, 2, .ro, 0x0, 0x0, 0x3⟩,
    ⟨12, 1, .ro, 0x0, 0x0, 0x1⟩,
    ⟨13, 3, .res, 0x0, 0x0, 0x7⟩,
    ⟨16, 8, .ro, 0x0, 0x0, 0xff⟩,
    ⟨24, 8, .res, 0x0, 0x0, 0xff⟩]⟩,
  /- SF_EVT -/ ⟨0x3008, [], 0, [⟨0, 8, .w1c, 0x0, 0x0, 0xff⟩,
    ⟨8, 8, .w1c, 0x0, 0x0, 0xff⟩,
    ⟨16, 2, .w1c, 0x0, 0x0, 0x3⟩,
    ⟨18, 2, .ro, 0x0, 0x0, 0x3⟩,
    ⟨20, 12, .res, 0x0, 0x0, 0xfff⟩]⟩,
  /- SF_CNT -/ ⟨0x300c, [], 0, [⟨0, 16, .ro, 0x0, 0x0, 0xffff⟩,
    ⟨16, 16, .ro, 0x0, 0x0, 0xffff⟩]⟩,
  /- SF_RB -/ ⟨0x3010, [], 0, [⟨0, 2, .ro, 0x0, 0x0, 0x3⟩,
    ⟨2, 2, .ro, 0x0, 0x0, 0x3⟩,
    ⟨4, 2, .ro, 0x0, 0x0, 0x3⟩,
    ⟨6, 2, .ro, 0x0, 0x0, 0x3⟩,
    ⟨8, 24, .res, 0x0, 0x0, 0xffffff⟩]⟩,
  /- SF_INCFG -/ ⟨0x3020, [(0x4, 8)], 8, [⟨0, 1, .ld, 0x0, 0x0, 0x1⟩,
    ⟨1, 1, .ld, 0x0, 0x0, 0x1⟩,
    ⟨2, 8, .ld, 0xa, 0x1, 0xff⟩,
    ⟨10, 10, .ld, 0x32, 0x2, 0x3e8⟩,
    ⟨20, 2, .ld, 0x0, 0x0, 0x3⟩,
    ⟨22, 10, .res, 0x0, 0x0, 0x3ff⟩]⟩]

/-- DR registers (part 1). -/
def regMapDR0 : List RegDef := [
  /- DR_CFG -/ ⟨0x8000, [], 15, [⟨0, 1, .ld, 0x0, 0x0, 0x1⟩,
    ⟨1, 1, .ld, 0x0, 0x0, 0x1⟩,
    ⟨2, 1, .ld, 0x0, 0x0, 0x1⟩,
    ⟨3, 1, .res, 0x0, 0x0, 0x1⟩,
    ⟨4, 3, .ld, 0x0, 0x0, 0x4⟩,
    ⟨7, 1, .res, 0x0, 0x0, 0x1⟩,
    ⟨8, 4, .ld, 0x4, 0x0, 0xf⟩,
    ⟨12, 4, .ld, 0x4, 0x2, 0xf⟩,
    ⟨16, 16, .ld, 0x0, 0x0, 0xffff⟩]⟩,
  /- DR_SRCCFG -/ ⟨0x8004, [], 15, [⟨0, 8, .ld, 0x0, 0x0, 0xff⟩,
    ⟨8, 8, .ld, 0x0, 0x0, 0xff⟩,
    ⟨16, 8, .ld, 0x10, 0x1, 0xff⟩,
    ⟨24, 1, .ld, 0x1, 0x0, 0x1⟩,
    ⟨25, 1, .ld, 0x1, 0x0, 0x1⟩,
    ⟨26, 1, .ld, 0x1, 0x0, 0x1⟩,
    ⟨27, 5, .res, 0x0, 0x0, 0x1f⟩]⟩,
  /- DR_AINSEL -/ ⟨0x8008, [], 15, [⟨0, 32, .ld, 0x0, 0x0, 0xffffffff⟩]⟩,
  /- DR_AINWIN -/ ⟨0x800c, [], 15, [⟨0, 32, .ld, 0x0, 0x0, 0xffffffff⟩]⟩,
  /- DR_XCFG -/ ⟨0x8010, [], 15, [⟨0, 1, .ld, 0x0, 0x0, 0x1⟩,
    ⟨1, 1, .ld, 0x0, 0x0, 0x1⟩,
    ⟨2, 1, .ld, 0x0, 0x0, 0x1⟩,
    ⟨3, 1, .ld, 0x0, 0x0, 0x1⟩,
    ⟨4, 1, .ld, 0x0, 0x0, 0x1⟩,
    ⟨5, 1, .ld, 0x0, 0x0, 0x1⟩,
    ⟨6, 2, .res, 0x0, 0x0, 0x3⟩,
    ⟨8, 8, .ld, 0x5, 0x1, 0xff⟩,
    ⟨16, 8, .ld, 0xa, 0x1, 0xff⟩,
    ⟨24, 8, .res, 0x0, 0x0, 0xff⟩]⟩,
  /- DR_XSKEW -/ ⟨0x8014, [], 15, [⟨0, 16, .ld, 0x0, 0x0, 0xffff⟩,
    ⟨16, 16, .ld, 0x0, 0x0, 0xffff⟩]⟩,
  /- DR_CTL -/ ⟨0x8018, [], 0, [⟨0, 1, .sc, 0x0, 0x0, 0x1⟩,
    ⟨1, 1, .sc, 0x0, 0x0, 0x1⟩,
    ⟨2, 1, .sc, 0x0, 0x0, 0x1⟩,
    ⟨3, 13, .res, 0x0, 0x0, 0x1fff⟩,
    ⟨16, 16, .wo, 0x0, 0x0, 0xffff⟩]⟩,
  /- DR_STAT -/ ⟨0x801c, [], 0, [⟨0, 2, .ro, 0x0, 0x0, 0x3⟩,
    ⟨2, 2, .res, 0x0, 0x0, 0x3⟩,
    ⟨4, 4, .ro, 0x0, 0x0, 0xf⟩,
    ⟨8, 8, .res, 0x0, 0x0, 0xff⟩,
    ⟨16, 16, .ro, 0x0, 0x0, 0xffff⟩]⟩,
  /- DR_EVT -/ ⟨0x8020, [], 0, [⟨0, 1, .w1c, 0x0, 0x0, 0x1⟩,
    ⟨1, 1, .w1c, 0x0, 0x0, 0x1⟩,
    ⟨2, 1, .w1c, 0x0, 0x0, 0x1⟩,
    ⟨3, 29, .res, 0x0, 0x0, 0x1fffffff⟩]⟩,
  /- DR_CNT -/ ⟨0x8024, [], 0, [⟨0, 16, .ro, 0x0, 0x0, 0xffff⟩,
    ⟨16, 16, .ro, 0x0, 0x0, 0xffff⟩]⟩,
  /- DR_SECHI -/ ⟨0x8028, [], 0, [⟨0, 16, .ro, 0x0, 0x0, 0xffff⟩,
    ⟨16, 14, .ro, 0x2000, 0x0, 0x3fff⟩,
    ⟨30, 2, .res, 0x0, 0x0, 0x3⟩]⟩,
  /- DR_TCFG -/ ⟨0x8100, [(0x20, 8)], 15, [⟨0, 1, .ld, 0x0, 0x0, 0x1⟩,
    ⟨1, 4, .ld, 0x0, 0x0, 0xf⟩,
    ⟨5, 2, .ld, 0x0, 0x0, 0x3⟩,
    ⟨7, 2, .ld, 0x0, 0x0, 0x3⟩,
    ⟨9, 7, .ld, 0x0, 0x0, 0x7f⟩,
    ⟨16, 8, .ld, 0x1, 0x1, 0xff⟩,
    ⟨24, 8, .ro, 0x0, 0x0, 0xff⟩]⟩]

/-- DR registers (part 2). -/
def regMapDR1 : List RegDef := [
  /- DR_TID -/ ⟨0x8104, [(0x20, 8)], 15, [⟨0, 20, .ld, 0x0, 0x0, 0xfffff⟩,
    ⟨20, 12, .res, 0x0, 0x0, 0xfff⟩]⟩,
  /- DR_TIDM -/ ⟨0x8108, [(0x20, 8)], 15, [⟨0, 20, .ld, 0x0, 0x0, 0xfffff⟩,
    ⟨20, 12, .res, 0x0, 0x0, 0xfff⟩]⟩,
  /- DR_TMATCH -/ ⟨0x810c, [(0x20, 8)], 15, [⟨0, 32, .ld, 0x0, 0x0, 0xffffffff⟩]⟩,
  /- DR_TMASK -/ ⟨0x8110, [(0x20, 8)], 15, [⟨0, 32, .ld, 0x0, 0x0, 0xffffffff⟩]⟩,
  /- DR_RSTART -/ ⟨0x8200, [(0x10, 16)], 0, [⟨0, 20, .ro, 0x0, 0x0, 0xfffff⟩,
    ⟨20, 12, .res, 0x0, 0x0, 0xfff⟩]⟩,
  /- DR_RCOUNT -/ ⟨0x8204, [(0x10, 16)], 0, [⟨0, 21, .ro, 0x0, 0x0, 0x1fffff⟩,
    ⟨21, 11, .res, 0x0, 0x0, 0x7ff⟩]⟩,
  /- DR_RTRIG -/ ⟨0x8208, [(0x10, 16)], 0, [⟨0, 20, .ro, 0x0, 0x0, 0xfffff⟩,
    ⟨20, 1, .ro, 0x0, 0x0, 0x1⟩,
    ⟨21, 11, .res, 0x0, 0x0, 0x7ff⟩]⟩,
  /- DR_RSTAT -/ ⟨0x820c, [(0x10, 16)], 0, [⟨0, 1, .ro, 0x0, 0x0, 0x1⟩,
    ⟨1, 1, .ro, 0x0, 0x0, 0x1⟩,
    ⟨2, 6, .res, 0x0, 0x0, 0x3f⟩,
    ⟨8, 8, .ro, 0x0, 0x0, 0xff⟩,
    ⟨16, 7, .ro, 0x0, 0x0, 0x7f⟩,
    ⟨23, 1, .ro, 0x0, 0x0, 0x1⟩,
    ⟨24, 8, .res, 0x0, 0x0, 0xff⟩]⟩]

/-- SV registers (part 1). -/
def regMapSV0 : List RegDef := [
  /- SV_STAT -/ ⟨0x9000, [], 0, [⟨0, 4, .ro, 0x0, 0x0, 0xf⟩,
    ⟨4, 28, .res, 0x0, 0x0, 0xfffffff⟩]⟩,
  /- SV_EVT -/ ⟨0x9004, [], 0, [⟨0, 1, .w1c, 0x0, 0x0, 0x1⟩,
    ⟨1, 4, .w1c, 0x0, 0x0, 0xf⟩,
    ⟨5, 27, .res, 0x0, 0x0, 0x7ffffff⟩]⟩,
  /- SV_CNT -/ ⟨0x9008, [], 0, [⟨0, 16, .ro, 0x0, 0x0, 0xffff⟩,
    ⟨16, 16, .ro, 0x0, 0x0, 0xffff⟩]⟩,
  /- SV_WDCFG -/ ⟨0x900c, [], 1, [⟨0, 8, .ld, 0xa, 0x2, 0xff⟩,
    ⟨8, 24, .res, 0x0, 0x0, 0xffffff⟩]⟩,
  /- SV_TCMINL -/ ⟨0x9010, [], 1, [⟨0, 8, .ld, 0x0, 0x0, 0xb4⟩,
    ⟨8, 24, .res, 0x0, 0x0, 0xffffff⟩]⟩,
  /- SV_WPERM -/ ⟨0x9014, [], 1, [⟨0, 1, .ld, 0x0, 0x0, 0x1⟩,
    ⟨1, 1, .ld, 0x0, 0x0, 0x1⟩,
    ⟨2, 1, .ld, 0x0, 0x0, 0x1⟩,
    ⟨3, 1, .ld, 0x0, 0x0, 0x1⟩,
    ⟨4, 1, .ld, 0x0, 0x0, 0x1⟩,
    ⟨5, 1, .ld, 0x0, 0x0, 0x1⟩,
    ⟨6, 26, .res, 0x0, 0x0, 0x3ffffff⟩]⟩,
  /- SV_REFMIN -/ ⟨0x9020, [(0x10, 4)], 1, [⟨0, 32, .ld, 0x0, 0x0, 0xffffffff⟩]⟩,
  /- SV_REFMAX -/ ⟨0x9024, [(0x10, 4)], 1, [⟨0, 32, .ld, 0x0, 0x0, 0xffffffff⟩]⟩,
  /- SV_RAMPMAX -/ ⟨0x9028, [(0x10, 4)], 1, [⟨0, 16, .ld, 0x1, 0x1, 0xffff⟩,
    ⟨16, 16, .res, 0x0, 0x0, 0xffff⟩]⟩,
  /- SV_KPB -/ ⟨0x9060, [(0x4, 4)], 1, [⟨0, 16, .ld, 0x0, 0x0, 0xffff⟩,
    ⟨16, 5, .ld, 0x0, 0x0, 0x1f⟩,
    ⟨21, 11, .res, 0x0, 0x0, 0x7ff⟩]⟩,
  /- SV_KIB -/ ⟨0x9070, [(0x4, 4)], 1, [⟨0, 16, .ld, 0x0, 0x0, 0xffff⟩,
    ⟨16, 5, .ld, 0x0, 0x0, 0x1f⟩,
    ⟨21, 11, .res, 0x0, 0x0, 0x7ff⟩]⟩,
  /- SV_KRB -/ ⟨0x9080, [], 1, [⟨0, 16, .ld, 0x0, 0x0, 0xffff⟩,
    ⟨16, 5, .ld, 0x0, 0x0, 0x1f⟩,
    ⟨21, 11, .res, 0x0, 0x0, 0x7ff⟩]⟩]

/-- SV registers (part 2). -/
def regMapSV1 : List RegDef := [
  /- SV_PLIM -/ ⟨0x90a0, [(0x4, 8)], 1, [⟨0, 12, .ld, 0x0, 0x0, 0x800⟩,
    ⟨12, 20, .res, 0x0, 0x0, 0xfffff⟩]⟩]

/-- NT registers (part 1). -/
def regMapNT0 : List RegDef := [
  /- NT_PCFG -/ ⟨0x6000, [(0x4, 2)], 7, [⟨0, 1, .ld, 0x0, 0x0, 0x1⟩,
    ⟨1, 1, .ld, 0x0, 0x0, 0x1⟩,
    ⟨2, 1, .ld, 0x1, 0x0, 0x1⟩,
    ⟨3, 1, .ld, 0x0, 0x0, 0x1⟩,
    ⟨4, 12, .ld, 0x1, 0x1, 0xffe⟩,
    ⟨16, 3, .ld, 0x4, 0x0, 0x7⟩,
    ⟨19, 6, .ld, 0x2e, 0x0, 0x3f⟩,
    ⟨25, 1, .ld, 0x0, 0x0, 0x1⟩,
    ⟨26, 6, .res, 0x0, 0x0, 0x3f⟩]⟩,
  /- NT_IPCFG -/ ⟨0x6008, [], 7, [⟨0, 16, .ld, 0x1b5a, 0x400, 0xffff⟩,
    ⟨16, 16, .ld, 0x1b5b, 0x400, 0xffff⟩]⟩,
  /- NT_SMPCFG -/ ⟨0x600c, [], 7, [⟨0, 16, .ld, 0x3e8, 0x64, 0xffff⟩,
    ⟨16, 1, .ld, 0x0, 0x0, 0x1⟩,
    ⟨17, 15, .res, 0x0, 0x0, 0x7fff⟩]⟩,
  /- NT_MNTCFG -/ ⟨0x6010, [], 7, [⟨0, 1, .ld, 0x0, 0x0, 0x1⟩,
    ⟨1, 1, .ld, 0x0, 0x0, 0x1⟩,
    ⟨2, 6, .res, 0x0, 0x0, 0x3f⟩,
    ⟨8, 8, .ld, 0x3c, 0x5, 0xff⟩,
    ⟨16, 16, .res, 0x0, 0x0, 0xffff⟩]⟩,
  /- NT_MACHI -/ ⟨0x6040, [(0x20, 2)], 7, [⟨0, 16, .ld, 0x0, 0x0, 0xffff⟩,
    ⟨16, 16, .res, 0x0, 0x0, 0xffff⟩]⟩,
  /- NT_MACLO -/ ⟨0x6044, [(0x20, 2)], 7, [⟨0, 32, .ld, 0x0, 0x0, 0xffffffff⟩]⟩,
  /- NT_IP4 -/ ⟨0x6048, [(0x20, 2)], 7, [⟨0, 32, .ld, 0x0, 0x0, 0xffffffff⟩]⟩,
  /- NT_PFX -/ ⟨0x604c, [(0x20, 2)], 7, [⟨0, 8, .ld, 0x18, 0x0, 0xff⟩,
    ⟨8, 24, .res, 0x0, 0x0, 0xffffff⟩]⟩,
  /- NT_IP6 -/ ⟨0x6050, [(0x20, 2), (0x4, 4)], 7, [⟨0, 32, .ld, 0x0, 0x0, 0xffffffff⟩]⟩,
  /- NT_PEER -/ ⟨0x6080, [(0x10, 4), (0x4, 4)], 7, [⟨0, 32, .ld, 0x0, 0x0, 0xffffffff⟩]⟩,
  /- NT_PEERCFG -/ ⟨0x60c0, [], 7, [⟨0, 16, .ld, 0x0, 0x0, 0xffff⟩,
    ⟨16, 16, .res, 0x0, 0x0, 0xffff⟩]⟩,
  /- NT_STAT -/ ⟨0x6014, [], 0, [⟨0, 1, .ro, 0x0, 0x0, 0x1⟩,
    ⟨1, 1, .ro, 0x0, 0x0, 0x1⟩,
    ⟨2, 1, .ro, 0x0, 0x0, 0x1⟩,
    ⟨3, 2, .ro, 0x0, 0x0, 0x3⟩,
    ⟨5, 3, .res, 0x0, 0x0, 0x7⟩,
    ⟨8, 7, .ro, 0x0, 0x0, 0x7f⟩,
    ⟨15, 1, .res, 0x0, 0x0, 0x1⟩,
    ⟨16, 6, .ro, 0x0, 0x0, 0x3f⟩,
    ⟨22, 10, .res, 0x0, 0x0, 0x3ff⟩]⟩]

/-- NT registers (part 2). -/
def regMapNT1 : List RegDef := [
  /- NT_EVT -/ ⟨0x6018, [], 0, [⟨0, 1, .w1c, 0x0, 0x0, 0x1⟩,
    ⟨1, 1, .w1c, 0x0, 0x0, 0x1⟩,
    ⟨2, 1, .w1c, 0x0, 0x0, 0x1⟩,
    ⟨3, 1, .w1c, 0x0, 0x0, 0x1⟩,
    ⟨4, 1, .w1c, 0x0, 0x0, 0x1⟩,
    ⟨5, 1, .w1c, 0x0, 0x0, 0x1⟩,
    ⟨6, 26, .res, 0x0, 0x0, 0x3ffffff⟩]⟩,
  /- NT_CNT0 -/ ⟨0x601c, [], 0, [⟨0, 16, .ro, 0x0, 0x0, 0xffff⟩,
    ⟨16, 16, .ro, 0x0, 0x0, 0xffff⟩]⟩,
  /- NT_CNT1 -/ ⟨0x6020, [], 0, [⟨0, 16, .ro, 0x0, 0x0, 0xffff⟩,
    ⟨16, 16, .ro, 0x0, 0x0, 0xffff⟩]⟩]

/-- The whole register map, in the order of the chapters. -/
def regMap : List RegDef :=
  regMapFB0 ++
  regMapCE0 ++
  regMapCE1 ++
  regMapRG0 ++
  regMapRG1 ++
  regMapRG2 ++
  regMapRG3 ++
  regMapLN0 ++
  regMapLN1 ++
  regMapQU0 ++
  regMapCH0 ++
  regMapGL0 ++
  regMapGL1 ++
  regMapGL2 ++
  regMapAD0 ++
  regMapAD1 ++
  regMapAD2 ++
  regMapPL0 ++
  regMapTM0 ++
  regMapTM1 ++
  regMapFC0 ++
  regMapFC1 ++
  regMapSF0 ++
  regMapDR0 ++
  regMapDR1 ++
  regMapSV0 ++
  regMapSV1 ++
  regMapNT0 ++
  regMapNT1

/-- Whether offset `r` from a base hits an instance of the dimensions `dims`. -/
def dimsHit : List (Nat × Nat) → Nat → Bool
  | [], r => r == 0
  | (st, ct) :: ds, r => decide (r / st < ct) && dimsHit ds (r % st)

/-- The register at an address, if the map names one (R25, R433). -/
def regAt (a : Nat) : Option RegDef :=
  regMap.find? fun d => decide (d.base ≤ a) && dimsHit d.dims (a - d.base)

/-- The reset word of a register definition (R30). -/
def RegDef.resetNat (d : RegDef) : Nat :=
  d.fields.foldl (fun acc f => acc + f.reset * 2 ^ f.lsb) 0

/-- The value a register holds from power-up until something changes it; 0 where no register is (R25, R30). -/
def resetWord (a : Nat) : Word :=
  match regAt a with
  | some d => BitVec.ofNat 32 d.resetNat
  | none => 0

/-- The mask of the bits of a register whose access satisfies `p`. -/
def RegDef.mask (d : RegDef) (p : Access → Bool) : Word :=
  d.fields.foldl (fun acc f => if p f.acc then acc ||| BitVec.ofNat 32 ((2 ^ f.width - 1) * 2 ^ f.lsb) else acc) 0

end Sys2Proof.Machine
end

