-- ==== Sys2Proof/Machine/State.lean ====
section
/-! DEFINITION. The state of the block, as plain data, and the state at power-up. -/

namespace Sys2Proof.Machine

/-- The one way the model itself stops. -/
inductive Fault where
  /-- A command that no input of the device can be (WellFormed.lean): raised by every meaning that takes such an operand;
  safe, since the hardware never meets it. -/
  | illFormed
  deriving DecidableEq, Repr

/-- Commands without a meaning. -/
inductive Refusal where
  /-- The command has no meaning in this model: raised by an arm of the dispatch only; safe. -/
  | notModelled (mnemonic : String)
  deriving DecidableEq, Repr

/-- The device without its fuses, its flash, what VBAT keeps, and the recorder memory. -/
structure Dev where
  /-- reset has been released since power was applied (R455) -/
  released : Bool
  /-- power cycles so far: the index of the free values of one power-up -/
  cyc : Nat
  /-- the register words that differ from their reset values -/
  regs : List (Nat × Word)
  /-- telemetry points that differ from 0x8000_0000 (R77) -/
  telem : List (Nat × Word)
  /-- snapshots per origin and low-half address (R435) -/
  snaps : List (Nat × List Word)
  /-- everything the device has sent, latest first -/
  sent : List Sent
  tm : TimeSt
  fc : FaultSt
  dr : RecSt
  sf : SafetySt
  nt : NetSt
  fb : FabricSt
  jtag : JtagSt
  /-- lanes, quires, cells, regions, analog inputs and conversion groups that differ from their state at reset -/
  lanes : List (Nat × LaneSt)
  quires : List (Nat × QuireSt)
  cells : List (Nat × CellSt)
  regions : List (Nat × RegionSt)
  ains : List (Nat × AinSt)
  groups : List (Nat × AdGrp)
  /-- queue of conversions (R255) -/
  adq : List (BitVec 64)
  tw : TwinSt
  su : StartSt
  deriving DecidableEq, Repr

/-- The machine. -/
structure State where
  dev : Dev
  /-- recorder memory: slots that differ from zero (R325) -/
  recMem : List (Nat × BitVec 256)
  fuse : Fuse
  flash : Flash
  vbat : Vbat
  /-- commands that wait, first in first out -/
  pending : List Instr
  deriving DecidableEq, Repr

/-- The device as power comes up for the `cyc`-th time: every register at its reset value, the time base stopped, reset not
yet released (R455). -/
def Dev.reset (cyc : Nat) : Dev :=
  ⟨false, cyc, [], [], [], [], tm0, fc0, dr0, sf0, nt0, fb0, jtag0, [], [], [], [], [], [], [], tw0, su0⟩

/-- The machine at its first power-up: nothing fused, blank flash, VBAT lost, recorder memory zero, no command waiting. -/
def State.reset : State := ⟨Dev.reset 0, [], fuse0, flash0, ⟨false, 0, 0⟩, []⟩

end Sys2Proof.Machine
end

