-- ==== Sys2Proof/Machine/Ops.lean ====
section
/-! DEFINITION. The named operations over the state: fields of registers, counters, the timebase, telemetry points, what is
sent, recorder entries of the sources, events, and setting a sticky flag with the reaction of its class (R16, R291). -/

namespace Sys2Proof.Machine

/-! ## Register fields -/

/-- The bits of a field within its word. -/
def fldMask (f : Fld) : Word := BitVec.ofNat 32 ((2 ^ f.width - 1) * 2 ^ f.lsb)

/-- The value of a field of a word. -/
def fldGet (w : Word) (f : Fld) : Nat := (w >>> f.lsb).toNat % 2 ^ f.width

/-- A word with a field replaced. -/
def fldPut (w : Word) (f : Fld) (v : Nat) : Word :=
  (w &&& ~~~(fldMask f)) ||| BitVec.ofNat 32 (v % 2 ^ f.width * 2 ^ f.lsb)

/-- The word a register holds. -/
def Dev.word (d : Dev) (a : Nat) : Word := smGet resetWord d.regs a

/-- Store a word in a register. -/
def Dev.setWord (d : Dev) (a : Nat) (w : Word) : Dev := { d with regs := smSet resetWord d.regs a w }

/-- The value of a field. -/
def Dev.get (d : Dev) (f : Fld) : Nat := fldGet (d.word f.addr) f

/-- Store a value in a field, modulo its width. -/
def Dev.put (d : Dev) (f : Fld) (v : Nat) : Dev := d.setWord f.addr (fldPut (d.word f.addr) f v)

/-- A field read as two's complement (R32). -/
def Dev.getS (d : Dev) (f : Fld) : Int := toS f.width (d.get f)

/-- A 32-bit setpoint or limit value of target `t` in the format of Table 7.3: two's complement, but rVC (target 3) is zero-extended
(R415, Table 14.7). -/
def refVal (t n : Nat) : Int := if t = 3 then n else toS 32 n

/-- Store a signed value in a field. -/
def Dev.putS (d : Dev) (f : Fld) (x : Int) : Dev := d.put f (ofS f.width x)

/-- A field that is one bit, or any nonzero value. -/
def Dev.flag (d : Dev) (f : Fld) : Bool := d.get f != 0

/-- Bit `i` of a field. -/
def Dev.bit (d : Dev) (f : Fld) (i : Nat) : Bool := bitOf (d.get f) i

/-- Store a Boolean in a one-bit field. -/
def Dev.putB (d : Dev) (f : Fld) (b : Bool) : Dev := d.put f (b2n b)

/-- Store bit `i` of a field. -/
def Dev.putBit (d : Dev) (f : Fld) (i : Nat) (b : Bool) : Dev :=
  d.put f (if b then setBit (d.get f) i else clrBit (d.get f) i)

/-- Count in a saturating counter. -/
def Dev.bump (d : Dev) (f : Fld) (k : Nat := 1) : Dev := d.put f (satInc f.width (d.get f) k)

/-- Count in a counter modulo its width. -/
def Dev.count (d : Dev) (f : Fld) (k : Nat := 1) : Dev := d.put f (d.get f + k)

/-! ## Modes and region states (Tables 0.3, 16.5, 7.6) -/

def modeLOAD : Nat := 0
def modeCHECK : Nat := 1
def modeIDLE : Nat := 2
def modeCHARGE : Nat := 3
def modeRUN : Nat := 4
def modeBLOCK : Nat := 5
def modeSTOP : Nat := 6

def rgOFF : Nat := 0
def rgCHARGE : Nat := 1
def rgREADY : Nat := 2
def rgRUN : Nat := 3
def rgBLOCK : Nat := 4

/-- The present mode of the device (R11). -/
def Dev.mode (d : Dev) : Nat := d.get GL_MODE_MODE

/-- The state of a region (R14). -/
def Dev.rgState (d : Dev) (g : Nat) : Nat := d.get (RG_STAT_STATE g)

/-- The device runs in CHARGE, RUN or BLOCK. -/
def Dev.converting (d : Dev) : Bool := d.mode == modeCHARGE || d.mode == modeRUN || d.mode == modeBLOCK

/-- The device is in IDLE, CHARGE, RUN or BLOCK. -/
def Dev.live (d : Dev) : Bool := d.mode == modeIDLE || d.converting

/-! ## Time (R270, R273) -/

/-- Grid point nearest the present tick, in 2 ns ticks since the PTP epoch (R271). -/
def Dev.nowTick (d : Dev) : Nat := (d.tm.label + 2 ^ 32) / 2 ^ 33

/-- Present station time in nanoseconds, on the 2 ns grid. -/
def Dev.nowNs (d : Dev) : Nat := 2 * d.nowTick

/-- Servo states (Table 10.6). -/
def svFREE : Nat := 0
def svACQUIRE : Nat := 1
def svLOCKED : Nat := 2
def svHOLDOVER : Nat := 3

/-- PLL-T is locked: the timebase runs and stamped releases take place (R267). -/
def Dev.timeRuns (d : Dev) : Bool := d.tm.pllT.seq == 3

/-- The slew of one tick at full rate: SLEW ppm of 2 ns, in 2^-32 ns (R272). -/
def slewPerTick (d : Dev) : Int := rdiv ((d.get TM_JMPCFG_SLEW * 2 ^ 33 : Nat) : Int) 1000000

/-- The slew taken in the next `n` ticks: at full rate with the sign of the remaining amount, the last tick takes the remainder
(R272); in FREE, and while SUP0 does not run, the amount holds (Table 10.6, R343). -/
def slewIn (n : Nat) (d : Dev) : Int :=
  if d.get TM_STAT_STATE = svFREE ∨ ¬ d.bit SV_STAT_RUN 0 then 0
  else satI d.tm.slew (-(n * slewPerTick d)) (n * slewPerTick d)

/-- An amount of slew has been taken. -/
def slewTaken (s : Int) (d : Dev) : Dev :=
  if s = 0 then d
  else ({ d with tm := { d.tm with slew := d.tm.slew - s } }).putB TM_STAT_SLEWING (d.tm.slew != s)

/-- Steps of PLL-S that leave its queue in `n` ticks, no two within 8 of its output cycles, which are 25.6 ticks (R269). -/
def stepsIn (n : Nat) (p : PllSt) : Nat := if n ≤ p.stepGap then 0 else min p.steps.natAbs (1 + (n - p.stepGap - 1) / 26)

/-- `n` ticks of steps of PLL-S and of the spacing of those of PLL-T (R269). -/
def stepsPass (n : Nat) (d : Dev) : Dev :=
  let p := d.tm.pllS
  let k := stepsIn n p
  let u : Int := if 0 < p.steps then k else -k
  let d := { d with tm := { d.tm with
    pllT := { d.tm.pllT with stepGap := d.tm.pllT.stepGap - n }
    pllS := { p with steps := p.steps - u, stepGap := if k = 0 then p.stepGap - n else 26 * k + p.stepGap - n } } }
  if k = 0 then d else d.putS PL_SCTL_PHSCNT (d.getS PL_SCTL_PHSCNT + u)

/-- ρ of R271 in 2^-32 ns: the label minus the nearest multiple of 2 ns. -/
def tickRho (d : Dev) : Int := (d.tm.label : Int) - (d.nowTick * 2 ^ 33 : Nat)

/-- The alignment rule over ticks that change ρ from `r` in one direction: the steps of 2^-8 ns by which the label has been moved back
towards the grid, up where they advance an edge (R271). -/
def alignCount (r : Int) : Int := Int.tdiv r (2 ^ 24)

/-- Steps of PLL-T counted in PHSCNT, `k` of them advancing an edge (R269, R271). Log entry 12 (DESIGN CHOICE). -/
def alignShow (k : Int) (d : Dev) : Dev :=
  if k = 0 then d else d.putS PL_TCTL_PHSCNT (d.getS PL_TCTL_PHSCNT + (if Config.phaseAdvance then k else -k))

/-- `n` ticks with a slew of `s` in all: the label moves by 2 ns, CORR and the slew at each, and the alignment rule keeps it on the grid
(R270, R271, R272). -/
def ticksRun (n : Nat) (s : Int) (d : Dev) : Dev :=
  let r := tickRho d + n * d.getS TM_INCR_CORR + s
  let k := alignCount r
  let d := slewTaken s d
  alignShow k { d with tm := { d.tm with label := (((d.nowTick + n) * 2 ^ 33 : Nat) + (r - k * 2 ^ 24) : Int).toNat } }

/-- The ticks of the next `n` that slew at full rate (R272). -/
def slewTicks (n : Nat) (d : Dev) : Nat := min n ((slewIn n d).natAbs / (slewPerTick d).natAbs)

/-- The device after the ticks up to an instant `t` since the epoch; time never moves back, and stands while PLL-T is gated (R267). The
ticks at full slew come first, then the one that takes the remainder, then those without slew (R272). -/
def ticksPass (t : Nat) (d : Dev) : Dev :=
  if ¬ d.timeRuns ∨ t ≤ d.nowTick then d
  else
    let n := t - d.nowTick
    let a := slewTicks n d
    let b := min 1 (n - a)
    let d := ticksRun a (slewIn a d) (stepsPass n d)
    let d := ticksRun b (slewIn b d) d
    ticksRun (n - a - b) 0 d

/-- Let time move on to an instant `t` in ticks since the epoch: of the device, only its timebase and the registers that show slew and
phase steps change. Log entry 4 (DESIGN CHOICE). -/
def Dev.until_ (d : Dev) (t : Nat) : Dev :=
  let e := ticksPass t d
  { d with tm := e.tm, regs := e.regs }

/-- Let time move on to tick `tk` of the present period. Log entry 4 (DESIGN CHOICE). -/
def Dev.at_ (d : Dev) (tk : Nat) : Dev := d.until_ (d.tm.bj + tk)

/-- The instant a position of the present period is measured from: its boundary, or N − T in a gap period (R274). -/
def Dev.posBase (d : Dev) : Nat :=
  match d.tm.gapEnd with
  | none => d.tm.bj
  | some n => n - d.tm.tTicks

/-- Control period in ticks of a code of Table 1.8: 10.0 µs + 0.5 µs × code. -/
def ticksOfCode (c : Nat) : Nat := 5000 + 250 * c

/-- The control period in ticks. -/
def Dev.T (d : Dev) : Nat := d.tm.tTicks

/-- The length of the present period in ticks: a gap period lasts up to its end (R274). -/
def Dev.perLen (d : Dev) : Nat := match d.tm.gapEnd with
  | none => d.tm.tTicks
  | some n => n - d.tm.bj

/-- Period index modulo 2^32 and modulo 256 (R273). -/
def Dev.j32 (d : Dev) : Nat := d.tm.jAbs % 2 ^ 32
def Dev.j8 (d : Dev) : Nat := d.tm.jAbs % 256

/-- Boundary of the next period, in ticks. -/
def Dev.nextB (d : Dev) : Nat :=
  match d.tm.gapEnd with
  | some n => n
  | none => if d.tm.grid then d.tm.bj + d.tm.tTicks else (d.nowTick + d.tm.tTicks - 1) / d.tm.tTicks * d.tm.tTicks

/-! ## The periods that have passed (R169, R273, R274) -/

/-- The present period joins those that have passed, at most 256 runs of them. -/
def eraNote (d : Dev) : Dev :=
  let j := d.tm.jAbs
  let b := d.tm.bj
  let t := d.tm.tTicks
  let es : List Era := match d.tm.eras with
    | [] => [⟨j, j, b, t, 0⟩]
    | e :: r => if j = e.last + 1 ∧ b = e.start + (j - e.first) * e.len ∧ t = e.len then { e with last := j } :: r
        else ⟨j, j, b, t, e.ord + (e.last - e.first) + 1⟩ :: e :: r
  { d with tm := { d.tm with eras := es.take 256 } }

/-- The present period is taken back, to be noted anew with another number (R274). -/
def eraDrop (d : Dev) : Dev :=
  { d with tm := { d.tm with eras := match d.tm.eras with
    | [] => []
    | e :: r => if e.last = e.first then r else { e with last := e.last - 1 } :: r } }

/-- The number of the present period among all those of the device. -/
def periodOrd (d : Dev) : Nat := match d.tm.eras with
  | [] => 0
  | e :: _ => e.ord + (e.last - e.first)

/-- The latest period, not later than the present one, whose index is `m` modulo 256: its boundary in ticks, and its number (R169). -/
def eraFind (m : Nat) : List Era → Option (Nat × Nat)
  | [] => none
  | e :: r =>
    let k := (e.last % 256 + 256 - m % 256) % 256
    if k ≤ e.last - e.first then some (e.start + (e.last - k - e.first) * e.len, e.ord + (e.last - k - e.first)) else eraFind m r

/-- The 10-byte time of SMP bodies (R409): 48-bit seconds and 32-bit nanoseconds. -/
def timeBytes (ns : Nat) : List Byte := bytesBE 6 (ns / 10 ^ 9) ++ bytesBE 4 (ns % 10 ^ 9)

/-! ## Telemetry (R77) -/

/-- What a point without a valid value reads. -/
def telemNone (_ : Nat) : Word := 0x80000000

/-- The value of a point. -/
def Dev.point (d : Dev) (id : Nat) : Word := smGet telemNone d.telem id

/-- Give a point a value; a value never takes the code of no value (R77). -/
def Dev.setPoint (d : Dev) (id : Nat) (w : Word) : Dev := { d with telem := smSet telemNone d.telem id w }

/-- A point ID (R8). -/
def pointId (n k : Nat) : Nat := 128 * n + k

/-- Give a point an unsigned value. -/
def Dev.tel (d : Dev) (n k v : Nat) : Dev :=
  if d.fb.telBad.contains n then d else d.setPoint (pointId n k) (BitVec.ofNat 32 v)

/-- Give a point a signed value, kept off the code of no value. -/
def Dev.telS (d : Dev) (n k : Nat) (x : Int) : Dev := d.tel n k (ofS 32 (satI x (-(2 ^ 31 : Nat) + 1) ((2 ^ 31 : Nat) - 1)))

/-- Count in a telemetry counter, modulo 2^31. -/
def Dev.telCount (d : Dev) (n k : Nat) (by_ : Nat := 1) : Dev :=
  let w := (d.point (pointId n k)).toNat
  d.tel n k ((if w = 0x80000000 then by_ else w + by_) % 2 ^ 31)

/-- Points of a cell read as without value. -/
def Dev.telClear (d : Dev) (n : Nat) : Dev :=
  foldN 128 (fun x k => x.setPoint (pointId n k) 0x80000000) d

/-! ## What leaves the device -/

/-- Send something to a partner. Log entry 72 (DESIGN CHOICE). -/
def Dev.send (d : Dev) (x : Sent) : Dev := { d with sent := x :: d.sent }

/-! ## Recorder sources (R326) -/

/-- The kinds of Table 13.2. -/
def kCELLREP : BitVec 4 := 1
def kARM : BitVec 4 := 2
def kAIN : BitVec 4 := 3
def kFLAG : BitVec 4 := 4
def kCELLEV : BitVec 4 := 5
def kLINE : BitVec 4 := 6
def kMODE : BitVec 4 := 7
def kTRIG : BitVec 4 := 8
def kGAP : BitVec 4 := 9

/-- Hand an entry to the recorder; sources produce entries while the recorder may write (R334). -/
def Dev.source (d : Dev) (kind : BitVec 4) (src : Nat) (key : Nat) (payload : Nat) (late : Bool := false)
    (refr : Bool := false) : Dev :=
  if d.flag DR_CFG_EN && d.live then
    { d with dr := { d.dr with inq := d.dr.inq ++
        [⟨kind, late, refr, BitVec.ofNat 20 src, key, BitVec.ofNat 128 payload⟩] } }
  else d

/-- Change the device mode, with its MODE entry (Table 13.2). The charge timeout shows in CHARGE only (R398). -/
def Dev.setMode (d : Dev) (m : Nat) : Dev :=
  if d.mode = m then d
  else
    let d := (d.put GL_MODE_MODE m).put GL_SUSTAT_CHGTO 0
    if d.flag DR_SRCCFG_MODEEN then d.source kMODE 0 d.nowNs m else d

/-- Change the state of a region, with its MODE entry. -/
def Dev.setRegion (d : Dev) (g st : Nat) : Dev :=
  if d.rgState g = st then d
  else
    let d := d.put (RG_STAT_STATE g) st
    if d.flag DR_SRCCFG_MODEEN then d.source kMODE (1 + g) d.nowNs st else d

/-! ## Flags, events and reactions (R16, R287-R292, R420) -/

/-- The class of a source, with the scope of a PROTECTIVE one. -/
inductive Cls where
  | notice
  | service
  | prot (mask : Nat)
  | protDev
  | stop
  deriving DecidableEq, Repr

/-- The class code of recorder entries and events (R326, R420). -/
def Cls.code : Cls → Nat
  | .notice => 0
  | .service => 1
  | .prot _ => 2
  | .protDev => 2
  | .stop => 3

/-! ## Ports and peers (R403-R408, R413)

What the way of an event to its peers is read from. -/

/-- NETx is up (R406). Log entry 80 (DEDUCED). -/
def netUp (x : Nat) (d : Dev) : Bool := if x = 0 then d.flag NT_STAT_UP0 else d.flag NT_STAT_UP1

/-- The 128-bit address of a peer (R408), and the IPv6 address of a port. -/
def peerAddr (h : Nat) (d : Dev) : Nat := (List.range 4).foldl (fun a w => a * 2 ^ 32 + d.get (NT_PEER_ADDR h w)) 0
def portIp6 (x : Nat) (d : Dev) : Nat := (List.range 4).foldl (fun a w => a * 2 ^ 32 + d.get (NT_IP6_ADDR x w)) 0

/-- The prefix of an IPv4 address held as 128 bits. -/
def v4Prefix : Nat := 0xFFFF * 2 ^ 32

/-- An address is an IPv4 address. -/
def isV4 (a : Nat) : Bool := a / 2 ^ 32 == 0xFFFF

/-- The own address of a port, as 128 bits (R407). -/
def ownAddr (x : Nat) (d : Dev) : Nat :=
  if d.flag (NT_PCFG_IPV6 x) then portIp6 x d else v4Prefix + d.get (NT_IP4_ADDR x)

/-- The own MAC address of a port. -/
def ownMac (x : Nat) (d : Dev) : Nat := d.get (NT_MACHI_MACH x) * 2 ^ 32 + d.get (NT_MACLO_MACL x)

/-- An address has the family of port `x` and lies on its subnet: there is no routing (Table 17.2). -/
def onSubnet (x a : Nat) (d : Dev) : Bool :=
  let host := 2 ^ ((if d.flag (NT_PCFG_IPV6 x) then 128 else 32) - d.get (NT_PFX_PFX x))
  isV4 a != d.flag (NT_PCFG_IPV6 x) && a / host == ownAddr x d / host

/-- A supervisor runs. -/
def supRuns (sv : Nat) (d : Dev) : Bool := d.bit SV_STAT_RUN sv

/-- Ports a message leaves by, and its BOTH flag. -/
def outPorts (d : Dev) : List Nat :=
  let up := (List.range 2).filter fun x => netUp x d
  if d.flag NT_SMPCFG_DUP then up else up.take 1

/-- The peers that receive events and status. -/
def evtPeers (d : Dev) : List (BitVec 128 × Nat) :=
  ((List.range 4).filter fun h => d.bit NT_PEERCFG_PEER (4 * h) && d.bit NT_PEERCFG_PEER (4 * h + 3)).map fun h =>
    (BitVec.ofNat 128 (peerAddr h d), d.get NT_IPCFG_DPORT)

/-- A port by which messages leave has a destination (R413). Log entry 68 (DEDUCED). -/
def evtWay (d : Dev) : Bool := (outPorts d).any fun x => (evtPeers d).any fun p => onSubnet x p.1.toNat d

/-- EVENT messages can leave (R420): SUP1 runs and has a way to a destination. -/
def eventsLeave (d : Dev) : Bool := supRuns 1 d && evtWay d

/-- Capacity of the event queue (R420). -/
def evCap : Nat := 4096

/-- The recorder entry of a flag that sets (Table 13.2). -/
def Dev.flagEntry (d : Dev) (src payload : Nat) : Dev :=
  if d.flag DR_SRCCFG_FLAGEN then d.source kFLAG src d.nowNs payload else d

/-- An event is lost and counted; the first of a gap leaves its stamp, and EVOVF owes an event of its own if it sets now.
Log entry 65 (DEDUCED). -/
def Dev.loseEvent (d : Dev) (stamp : Nat) (new : Bool) : Dev :=
  let d := d.bump NT_CNT1_EVLOST
  { d with fc := { d.fc with
      evLost := d.fc.evLost + 1
      evLostAt := if d.fc.evLost = 0 then stamp else d.fc.evLostAt
      evOvf := d.fc.evOvf || new } }

/-- EVOVF sets, with its recorder entry. -/
def Dev.setEvovf (d : Dev) : Dev :=
  (d.put NT_EVT_EVOVF 1).flagEntry (NT_EVT_EVOVF.addr / 4) NT_EVT_EVOVF.lsb

/-- An event enters the queue, or is discarded where no peer has EVT. One that finds the queue full while messages cannot leave, or that
follows a loss not yet reported, is lost and counted, and the first loss sets EVOVF, whose own event waits behind the gap entry (R420):
while they can leave, EVENT_MESSAGE_SEND takes them in time. Log entry 65 (DEDUCED). -/
def Dev.pushEvent (d : Dev) (addr bit cls stamp : Nat) : Dev :=
  if (evtPeers d).isEmpty then d
  else if d.fc.evLost = 0 ∧ (d.fc.evq.length < evCap ∨ eventsLeave d) then
    { d with fc := { d.fc with evq := d.fc.evq ++ [⟨addr, bit, cls, stamp⟩] } }
  else if d.fc.evLost = 0 ∧ d.get NT_EVT_EVOVF = 0 then (d.loseEvent stamp true).setEvovf
  else d.loseEvent stamp false

/-- The reaction of a class: PROTECTIVE and STOP act in the next and in this step (R16, R289, R293, R302).
Log entry 9 (DEDUCED). -/
def Dev.react (d : Dev) (c : Cls) : Dev :=
  match c with
  | .notice => d
  | .service => d
  | .prot m => if d.converting then { d with fc := { d.fc with prots := d.fc.prots ++ [m] } } else d
  | .protDev => if d.converting then { d with fc := { d.fc with protDev := true } } else d
  | .stop => { d with fc := { d.fc with stopReq := true } }

/-- Set bit `i` of a sticky flag field. A set of a flag that reads 0 makes one event and one recorder entry and the
reaction of its class; a set of a flag that reads 1 makes none (R291). -/
def Dev.raiseBit (d : Dev) (f : Fld) (i : Nat) (c : Cls) : Dev :=
  if d.bit f i then d
  else
    let d := d.putBit f i true
    ((d.pushEvent f.addr (f.lsb + i) c.code d.nowNs).flagEntry (f.addr / 4) (f.lsb + i + 32 * c.code)).react c

/-- Set a one-bit sticky flag. -/
def Dev.raise (d : Dev) (f : Fld) (c : Cls) : Dev := d.raiseBit f 0 c

/-! ## Refused writes (R28, R350, R351) -/

/-- A refused write of MP or SMPM is counted and sets FC_CHIP.WREF (R350). Log entry 25 (DEDUCED). -/
def Dev.wref (d : Dev) : Dev := Dev.raise { d with fc := { d.fc with wrefs := d.fc.wrefs + 1 } } FC_CHIP_WREF .notice

/-- A write of an origin is refused: nothing of the target changes and the refusal is collected. Log entry 25 (DEDUCED). -/
def Dev.refuse (d : Dev) (o : Origin) : Dev :=
  match o with
  | .sup => (d.bump SV_CNT_SUPREFCNT).raise SV_EVT_SUPREF .service
  | .smps => d.wref
  | .smpm => d.wref
  | .mp => d.wref

/-! ## Assignment of quires -/

/-- The region a quire is assigned to (R9). -/
def Dev.quireRegion (d : Dev) (q : Nat) : Option Nat :=
  if d.flag (QU_CFG_ASSIGNED q) then some (d.get (QU_CFG_REGION q)) else none

/-- Quires assigned to a region, ascending. -/
def Dev.quiresOf (d : Dev) (g : Nat) : List Nat := (List.range 64).filter fun q => d.quireRegion q == some g

/-- A region with at least one assigned quire. -/
def Dev.assigned (d : Dev) (g : Nat) : Bool := !(d.quiresOf g).isEmpty

/-- The regions of a mask. -/
def maskRegions (m : Nat) : List Nat := (List.range 8).filter fun g => bitOf m g

/-- Cells of a region, ascending by number. -/
def Dev.cellsOf (d : Dev) (g : Nat) : List Nat :=
  (d.quiresOf g).flatMap fun q => (List.range (d.get (QU_CFG_NPOS q))).map fun p => 128 * q + p

/-! ## Injections (R303, R304) -/

/-- An accepted injection into a target waits at an instance. Log entry 63 (DESIGN CHOICE). -/
def injHit (target inst : Nat) (d : Dev) : Bool := match d.fc.inj with
  | some (t, _, i) => t == target && i == inst
  | none => false

/-- The inverted bits of the waiting injection: two with DOUBLE. -/
def injBits (d : Dev) : Nat := match d.fc.inj with
  | some (_, true, _) => 3
  | _ => 1

/-- The checker has consumed the inverted bits. -/
def injDone (d : Dev) : Dev := ({ d with fc := { d.fc with inj := none, injAt := none } }).put FC_INJ_GO 0

/-- Target and instance of a memory (Table 11.3). -/
def memTarget (m : Memory) : Nat × Nat := match m with
  | .recorder _ => (1, 0)
  | .telemetry n => (2, n.val)
  | .cellEngine n => (3, n.val)
  | .channel g c => (4, 3 * g.val + c.val)
  | .mullStore g => (5, g.val)
  | .buffer i => (6, i.val)
  | .supervisor => (7, 0)

/-- A memory is the one an injection names; TARGETs 0x1 and 0x7 ignore INST (R303). -/
def injNames (m : Memory) (d : Dev) : Bool := match d.fc.inj with
  | some (t, _, i) => t == (memTarget m).1 && (t == 1 || t == 7 || i == (memTarget m).2)
  | none => false

/-- A word is written to a memory: the first one after an injection into it is stored with its check bits inverted (R304). -/
def injStore (m : Memory) (d : Dev) : Dev :=
  if injNames m d ∧ d.fc.injAt = none then { d with fc := { d.fc with injAt := some m } } else d

end Sys2Proof.Machine
end

