-- ==== Sys2Proof/Machine/Shell.lean ====
section
/-! DEFINITION. The limit shell for register writes (R348, R350, Table 14.4): which origin may write which group, and the one
way a write of a group is accepted or refused. -/

namespace Sys2Proof.Machine

/-- The write groups of Table 14.4. -/
inductive Group where
  | time | pll | lane | meas | recd | flag | stopflag | inj | cell | halt | safe
  deriving DecidableEq, Repr

/-- Whether an origin may write a group (Table 14.4). No setpoint origin writes a register. -/
def Dev.permits (d : Dev) (o : Origin) (g : Group) : Bool :=
  match o, g with
  | .smps, _ => false
  | .sup, .time => d.flag SV_WPERM_TIME
  | .sup, .pll => d.flag SV_WPERM_PLL
  | .sup, .lane => d.flag SV_WPERM_LANE
  | .sup, .meas => d.flag SV_WPERM_MEAS
  | .sup, .recd => d.flag SV_WPERM_REC
  | .sup, .flag => d.flag SV_WPERM_FLAG
  | .sup, _ => false
  | .smpm, .halt => false
  | .smpm, _ => true
  | .mp, _ => true

/-- Writes are refused in LOAD and in STOP (R437). -/
def Dev.writable (d : Dev) : Bool := d.mode != modeLOAD && d.mode != modeSTOP

/-- A register write of a group: accepted with its effect when mode, origin and the chapter's own rule `ok` permit it
(R350), refused otherwise (R28). The Boolean says whether it was accepted. -/
def shellWrite (o : Origin) (g : Group) (ok : Bool) (eff : Dev → Dev) (d : Dev) : Bool × Dev :=
  if d.writable && d.permits o g && ok then (true, eff d) else (false, d.refuse o)

end Sys2Proof.Machine
end

