-- ==== Sys2Proof/Machine/Units.lean ====
section
/-! DEFINITION. The units of the device beyond their registers, as sparse maps: the state each unit has at reset, reading one
unit and replacing one unit. -/

namespace Sys2Proof.Machine

def posD0 (_ : Nat) : PosD := ⟨0, false, 0, 0, 0, none, none⟩

def lane0 (_ : Nat) : LaneSt :=
  ⟨0, 0, 0, none, false, false, 0, [], 0, [], 0, 0, 0, 0, none, 0, 0, [], none, [], 0, 0, 0, 0, [], 0, 0⟩

def quire0 (_ : Nat) : QuireSt where
  intact := false
  again := false
  lossCnt := []
  ptr := 0
  reqs := []
  slots := []
  uwait := []
  built := none
  lastJ := 0
  arb := none
  refs := []
  marg := (0, false)
  margNext := (0, false)
  rpt := none
  phase := 0
  evgs := []
  evSeen := []
  evOpen := []
  budRun := 0
  dlvRun := 0
  sentOne := false

/-- A period with one state throughout. -/
def segConst (s : Nat) : Seg := ⟨s, 0, s, none, 0⟩

def cell0 (_ : Nat) : CellSt where
  qAcc := 0
  ancOfs := 0
  first := true
  got := false
  freshRun := 0
  susp := 0
  stuckV := 0
  stuckN := 0
  stuckQ := []
  lastCopy := none
  win := 0
  prev := segConst 0
  cur := segConst 0
  nxt := none
  lastByp := none
  nc := 0
  nr := 0
  sqv := 0
  sqq := 0
  sex := 0
  sxx := 0
  vmin := 0xFFFF
  vmax := 0
  cors := []
  innov := 0
  insT := 0
  reg := none
  tRel := false
  tHealthy := false
  tSus := 0
  tByp := 0
  tRet := false
  known := false
  calId := none
  diag := 0
  dCode := 0
  dArg := 0
  nCode := 0
  nArg := 0
  entry := 0
  endSt := 0
  vpred := 0
  owes := 0

def ctl0 : Ctl := ⟨0, 0, 0, 0, false, false, false, false, 0, [], 0, 0, 0, 0, 1, 1, 1, 1, 0, 0⟩

def meas0 : Meas := ⟨[], 0, none, 0, 0, 0, 0, [], [], [], false⟩

def chan0 : Chan := ⟨none, none, none, false, false, false, false, none, none⟩

/-- The mull set of a region at reset. -/
def mull0 : Mull := ⟨ctl0, meas0, none, none, none, false, 0, [], none, 0, 0, 0⟩

def region0 (_ : Nat) : RegionSt where
  ovr := none
  ctl := ctl0
  meas := meas0
  lawIn := none
  chA := chan0
  chB := chan0
  chC := chan0
  ib0 := 0
  ib1 := 0
  i1p := 0
  u0 := none
  u1 := none
  u2 := none
  keys := []
  gath := []
  gathPrev := []
  gathLate := []
  gathHold := false
  regath := []
  rdlPast := false
  gdlPast := false
  pdlPast := false
  rgdlPast := false
  vdlPast := false
  cCell := false
  cSetpt := false
  squash := none
  sqCut := []
  sqUsed := none
  i1r := none
  csgnNew := false
  voted := none
  vLaw := none
  vSat := false
  vCsat := false
  cpPast := false
  voteDone := false
  last := none
  carry := []
  dph := 0
  halt := 0
  resume := none
  staged := []
  stagedOrd := 0
  tgtSet := 0
  tgtNow := 0
  ramps := []
  runStart := false
  runPer := 0
  vmiss := false
  hold2 := false
  base := mull0
  store := none
  recNow := none
  noag := false
  readyEver := false

def acc0 : Acc := ⟨0, 0, 0, 0⟩

def ain0 (_ : Nat) : AinSt := ⟨acc0, acc0, acc0, acc0, none, none, none, 1, 0, []⟩

def group0 (_ : Nat) : AdGrp :=
  ⟨0, 0, 0, [0, 1, 2, 3, 4, 5, 6, 7], [], 0, 0, 0, 0, 0, 0, 0, 0, 0, [], none, [], 0⟩

def Dev.lane (d : Dev) (l : Nat) : LaneSt := smGet lane0 d.lanes l
def Dev.setLane (d : Dev) (l : Nat) (x : LaneSt) : Dev := { d with lanes := smSet lane0 d.lanes l x }
def Dev.quire (d : Dev) (q : Nat) : QuireSt := smGet quire0 d.quires q
def Dev.setQuire (d : Dev) (q : Nat) (x : QuireSt) : Dev := { d with quires := smSet quire0 d.quires q x }
def Dev.cell (d : Dev) (n : Nat) : CellSt := smGet cell0 d.cells n
def Dev.setCell (d : Dev) (n : Nat) (x : CellSt) : Dev := { d with cells := smSet cell0 d.cells n x }
def Dev.region (d : Dev) (g : Nat) : RegionSt := smGet region0 d.regions g
def Dev.setRegionSt (d : Dev) (g : Nat) (x : RegionSt) : Dev := { d with regions := smSet region0 d.regions g x }
def Dev.ain (d : Dev) (i : Nat) : AinSt := smGet ain0 d.ains i
def Dev.setAin (d : Dev) (i : Nat) (x : AinSt) : Dev := { d with ains := smSet ain0 d.ains i x }
def Dev.group (d : Dev) (a : Nat) : AdGrp := smGet group0 d.groups a
def Dev.setGroup (d : Dev) (a : Nat) (x : AdGrp) : Dev := { d with groups := smSet group0 d.groups a x }

/-- Change one unit. -/
def Dev.onLane (d : Dev) (l : Nat) (f : LaneSt → LaneSt) : Dev := d.setLane l (f (d.lane l))
def Dev.onQuire (d : Dev) (q : Nat) (f : QuireSt → QuireSt) : Dev := d.setQuire q (f (d.quire q))
def Dev.onCell (d : Dev) (n : Nat) (f : CellSt → CellSt) : Dev := d.setCell n (f (d.cell n))
def Dev.onRegion (d : Dev) (g : Nat) (f : RegionSt → RegionSt) : Dev := d.setRegionSt g (f (d.region g))
def Dev.onAin (d : Dev) (i : Nat) (f : AinSt → AinSt) : Dev := d.setAin i (f (d.ain i))
def Dev.onGroup (d : Dev) (a : Nat) (f : AdGrp → AdGrp) : Dev := d.setGroup a (f (d.group a))

/-- The region plans for period j + 1: it is in RUN, and no freeze holds (R105, R107). -/
def planning (g : Nat) (d : Dev) : Bool :=
  let r := d.region g
  d.assigned g && d.rgState g == rgRUN && (r.halt != 2 || match r.resume with
    | some k => decide (k ≤ d.tm.jAbs + 1)
    | none => false)

end Sys2Proof.Machine
end

