-- ==== Sys2Proof/Machine/Lanes.lean ====
section
/-! DEFINITION. The lane layer of chapter 5 (R130-R157) and, of chapter 6, what follows a lane at once: the chain state, the
reach, and the slot table (R167, R171, R172, R188). -/

namespace Sys2Proof.Machine

/-- Lane states (Table 5.2). -/
def lnDOWN : Nat := 0
def lnACQUIRE : Nat := 1
def lnNEGOTIATE : Nat := 2
def lnACTIVE : Nat := 3
def lnFASTRT : Nat := 4
def lnFAILED : Nat := 5

/-- The other lane of the quire. -/
def partner (l : Nat) : Nat := if l % 2 = 0 then l + 1 else l - 1

/-- The state of a lane. -/
def Dev.lnState (d : Dev) (l : Nat) : Nat := d.get (LN_STAT_STATE l)

/-- In pair operation the lanes of end `e` of every quire belong to the twin. -/
def twinEnd (e : Nat) (d : Dev) : Bool := d.flag GL_TWCFG_PAIR && d.get GL_TWCFG_END != e

/-- The lane of end `e` of a quire is ACTIVE, by the twin's report where it is the twin's (R234). -/
def endActive (q e : Nat) (d : Dev) : Bool :=
  if twinEnd e d then d.tw.lanes.contains (2 * q + e) else d.lnState (2 * q + e) == lnACTIVE

/-- A control block of a type with its fields, and its CHK in bits 63:56 (R133). -/
def ctlBlock (typ fields : Nat) : BitVec 64 :=
  let body := (typ + fields) % 2 ^ 56
  BitVec.ofNat 64 (body + crc8 56 body * 2 ^ 56)

/-- The type of a control block, and whether its CHK is correct. -/
def blockType (b : BitVec 64) : Nat := b.toNat % 256
def blockChk (b : BitVec 64) : Bool := crc8 56 (b.toNat % 2 ^ 56) == b.toNat / 2 ^ 56

/-- The types of Tables 5.1, 6.1 and R235, each taken as assigned on every lane: log entry 84 (DESIGN CHOICE). -/
def blockAssigned (t : Nat) : Bool :=
  [0x1E, 0xA0, 0xA3, 0xA5, 0xAA, 0xAC, 0xB0, 0xB1, 0xB2, 0xB3, 0xB4, 0xC0, 0xC1, 0xC2].contains t

/-- The IDLE block of a lane at a rate step (Table 5.1). -/
def idleWord (l step : Nat) : BitVec 64 := ctlBlock 0x1E (l * 2 ^ 8 + step * 2 ^ 16)

/-- Control and data blocks. -/
def ctl (w : BitVec 64) : Block := ⟨true, w⟩
def dat (w : BitVec 64) : Block := ⟨false, w⟩

/-- A lane can transmit: its direction is awake (R144) and PLL-S gives it a clock (R132, R267). -/
def txOn (l : Nat) (d : Dev) : Bool := !d.flag (LN_STAT_TXSLEPT l) && d.flag PL_STAT_SLOCK

/-- Something leaves on a lane that can transmit; a direction that is asleep or without a clock stays idle (R131, R144, R267). -/
def laneOut (l : Nat) (x : Sent) (d : Dev) : Dev := if txOn l d then d.send x else d

/-- A lane sends IDLE blocks until it sends something else (Tables 5.1, 5.2). -/
def sendIdle (l : Nat) (d : Dev) : Dev := laneOut l (.run l [ctl (idleWord l (d.get (LN_STAT_STEP l)))] none) d

/-- Sixteen blocks of a type with CNT = 15 down to 0 (R134). -/
def send16 (l typ fields : Nat) (d : Dev) : Dev :=
  foldN 16 (fun d i => laneOut l (.laneBlock l (ctlBlock typ (fields + (15 - i) * 2 ^ 16))) d) d

/-! ## Chain state, reach and slot table (R171, R172, R188) -/

/-- Chain states (Table 6.3). -/
def chDOWN : Nat := 0
def chINTACT : Nat := 1
def chSPLIT : Nat := 2
def chONLYA : Nat := 3
def chONLYB : Nat := 4
def chONEWAY : Nat := 5
def chUNSETTLED : Nat := 6

/-- What the origin of the lane of end `e` says: 1 its partner, 2 itself, 0 neither. The twin's lane says what the own one
says. -/
def originKind (q e : Nat) (d : Dev) : Nat :=
  let l := if twinEnd e d then 2 * q + (1 - e) else 2 * q + e
  if ¬ d.flag (LN_STAT_ORGV l) then 0
  else if d.get (LN_STAT_ORIGIN l) = partner l then 1
  else if d.get (LN_STAT_ORIGIN l) = l then 2
  else 0

/-- The chain state by Table 6.3. -/
def chainOf (q : Nat) (d : Dev) : Nat :=
  match endActive q 0 d, endActive q 1 d with
  | false, false => chDOWN
  | true, false => chONLYA
  | false, true => chONLYB
  | true, true =>
    match originKind q 0 d, originKind q 1 d with
    | 1, 1 => chINTACT
    | 2, 2 => chSPLIT
    | 1, 2 => chONEWAY
    | 2, 1 => chONEWAY
    | _, _ => chUNSETTLED

/-- End whose stream passes through a ONE_WAY chain: that of the lane which the partner lane shows as its origin. -/
def throughEnd (q : Nat) (d : Dev) : Nat := if originKind q 0 d = 1 then 1 else 0

/-- REACH of the stream of end `e` (R171); the twin reports that of its own stream (R234). -/
def reachOf (q e : Nat) (d : Dev) : Nat :=
  if d.get (QU_STAT_CHAIN q) = chUNSETTLED then (d.lane (2 * q + e)).reach
  else if ¬ endActive q e d then 0
  else if d.get (QU_STAT_CHAIN q) = chONEWAY ∧ throughEnd q d ≠ e then 0
  else if twinEnd e d then smGet (fun _ => 0) d.tw.reach (2 * q + e)
  else (d.lane (2 * q + e)).reach

/-- Positions reached from at least one end. -/
def nserv (npos a b : Nat) : Nat := ((List.range npos).filter fun p => decide (p < a) || decide (npos - 1 - p < b)).length

/-- A new slot table into the inactive bank (R172). -/
def slotWrite (q : Nat) (d : Dev) : Dev :=
  let a := reachOf q 0 d
  let b := reachOf q 1 d
  let d := (d.put (QU_SLOTI_REACHA q) a).put (QU_SLOTI_REACHB q) b
  let d := (d.put (QU_SLOTI_NSERV q) (nserv (d.get (QU_CFG_NPOS q)) a b)).put (QU_SLOTCTL_PEND q) 1
  match (d.quire q).built with
  | some bt => if bt.swap then d.onQuire q fun x => { x with again := true } else d
  | none => d

/-- The reach of a stream has been taken since the chain last changed (R171). Log entry 56 (DEDUCED). -/
def reachTaken (q e : Nat) (d : Dev) : Bool := twinEnd e d ||
  (decide (4 ≤ (d.lane (2 * q + e)).hopRun) && (d.lane (2 * q + e)).reach == (d.lane (2 * q + e)).hopVal)

/-- The conditions of NPOSERR on chain and reach (R171). -/
def nposBad (q : Nat) (d : Dev) : Bool :=
  let n := d.get (QU_CFG_NPOS q)
  let a := reachOf q 0 d
  let b := reachOf q 1 d
  let c := d.get (QU_STAT_CHAIN q)
  let e := throughEnd q d
  (c == chINTACT && ((reachTaken q 0 d && a != n) || (reachTaken q 1 d && b != n))) ||
    (c == chONEWAY && reachTaken q e d && reachOf q e d != n) ||
    (c == chSPLIT && reachTaken q 0 d && reachTaken q 1 d && decide (n < a + b))

/-- NPOSERR once a reach has been taken (R171). Log entry 56 (DEDUCED). -/
def nposCheck (q : Nat) (d : Dev) : Dev := if nposBad q d then d.raise (QU_EVT_NPOSERR q) .service else d

/-- The E2E measurement starts anew when the chain is not intact (R154). -/
def e2eReset (q : Nat) (d : Dev) : Dev :=
  [2 * q, 2 * q + 1].foldl (fun d l =>
    ((d.onLane l fun x => { x with e2eSum := 0, e2eN := 0 }).put (LN_TMXE2E_VALID l) 0)) d

/-- Distance of a position from end `e`. -/
def distOf (npos e p : Nat) : Nat := if e = 0 then p else npos - 1 - p

/-- The active slot table's REACH of end `e`. -/
def tabReach (q e : Nat) (d : Dev) : Nat := if e = 0 then d.get (QU_SLOTA_REACHA q) else d.get (QU_SLOTA_REACHB q)

/-- The reference end of a position (R167). -/
def refEnd (q p : Nat) (d : Dev) : Nat := if endActive q 0 d ∧ p < d.get (QU_SLOTA_REACHA q) then 0 else 1

/-- A position is reached from an end by the active slot table. -/
def reachedEnd (q e p : Nat) (d : Dev) : Bool :=
  decide (distOf (d.get (QU_CFG_NPOS q)) e p < tabReach q e d)

/-- Reference ends of the positions reached over them; ENDSW and PRIM follow (R188, Table 6.9). -/
def refsUpdate (q : Nat) (d : Dev) : Dev :=
  let npos := d.get (QU_CFG_NPOS q)
  let new := ((List.range npos).filter fun p => endActive q (refEnd q p d) d && reachedEnd q (refEnd q p d) p d).map
    fun p => (p, refEnd q p d)
  let moved := new.any fun x => match smLook (d.quire q).refs x.1 with
    | some e => e != x.2
    | none => false
  let d := if moved then d.raise (QU_EVT_ENDSW q) .notice else d
  (d.putB (QU_STAT_PRIM q) ((List.range npos).all fun p => refEnd q p d != 0)).onQuire q fun x => { x with refs := new }

/-- The chain state after a lane or an origin has changed: flags of R188 and, but into UNSETTLED, a new slot table; `lane`
says that a lane has entered or left ACTIVE, with which the reference ends follow (R167). Log entry 56 (DEDUCED). -/
def chainUpdate (q : Nat) (lane : Bool) (d : Dev) : Dev :=
  let d := if lane then refsUpdate q d else d
  let old := d.get (QU_STAT_CHAIN q)
  let new := chainOf q d
  if old = new then (if lane && new != chUNSETTLED then slotWrite q d else d)
  else
    let d := foldN 2 (fun d e => d.onLane (2 * q + e) fun x => { x with hopRun := 0 }) (d.put (QU_STAT_CHAIN q) new)
    let d := if new = chINTACT then
        let d := if (d.quire q).intact then d.raise (QU_EVT_REJOIN q) .notice else d
        d.onQuire q fun x => { x with intact := true }
      else e2eReset q (d.raise (QU_EVT_BREAK q) .service)
    if new = chUNSETTLED then d else slotWrite q d

/-! ## What a STANDBY device has seen of the chains (R239) -/

/-- The device takes part in a pair. -/
def Dev.paired (d : Dev) : Bool := d.flag GL_TWCFG_PAIR

/-- Change the twin record. -/
def Dev.onTw (d : Dev) (f : TwinSt → TwinSt) : Dev := { d with tw := f d.tw }

/-- The quires that are INTACT, and those whose own lane shows LOS or ORIGIN equal to itself, are noted for the interval since the
last record of the twin (R239). -/
def twinNote (d : Dev) : Dev :=
  if ¬ d.paired then d
  else
    let l := fun q => 2 * q + d.get GL_TWCFG_END
    let qs := (List.range 64).filter fun q => d.flag (QU_CFG_ASSIGNED q)
    let now := qs.filter fun q => d.get (QU_STAT_CHAIN q) == chINTACT
    let cut := qs.filter fun q => d.flag (LN_STAT_LOS (l q)) || (d.flag (LN_STAT_ORGV (l q)) && d.get (LN_STAT_ORIGIN (l q)) == l q)
    d.onTw fun t => { t with intact := (t.intact ++ now).eraseDups, cut := (t.cut ++ cut).eraseDups }

/-! ## The lane state machine (Tables 5.2, 5.3) -/

/-- Place and width of the code of tap `k` in LN_EQ, CTLE first (Table 5.11). -/
def eqShape (k : Nat) : Nat × Nat := [(0, 5), (5, 6), (11, 5), (16, 4), (20, 4), (24, 4)].getD k (0, 0)

/-- A code as a number: CTLE is unsigned, the DFE taps are signed (Table 5.11). -/
def eqVal (k c : Nat) : Int := if k = 0 then c else toS (eqShape k).2 c

/-- The end of the coarse adaptation that follows a step change: 200 µs (R147). -/
def eqCoarseEnd (l : Nat) (d : Dev) : Nat := (d.lane l).eqStep + 100000

/-- Ticks that one change of tap `k` takes at the least: 1 µs in coarse adaptation, else 64 µs for a DFE tap and 1 ms for the CTLE
(R147). -/
def eqSlow (k : Nat) : Nat := if k = 0 then 500000 else 32000

/-- The taps adapt: in ACQUIRE, for 200 µs after a step change, and in ACTIVE, while nothing freezes them (R147). -/
def eqRuns (l : Nat) (d : Dev) : Bool :=
  !d.flag (LN_EQ_FROZEN l) && (d.lnState l == lnACQUIRE || d.lnState l == lnACTIVE ||
    (d.lnState l == lnNEGOTIATE && decide (d.nowTick ≤ eqCoarseEnd l d)))

/-- How many codes tap `k` may have moved since instant `t` (R147). -/
def eqBudget (l k t : Nat) (d : Dev) : Nat :=
  let e := eqCoarseEnd l d
  if d.flag (LN_EQ_FROZEN l) then 0
  else if d.lnState l = lnACQUIRE then (d.nowTick - t) / 500
  else if d.lnState l = lnACTIVE then (min d.nowTick e - t) / 500 + (d.nowTick - max t e) / eqSlow k
  else if d.lnState l = lnNEGOTIATE then (min d.nowTick e - t) / 500
  else 0

/-- Tap `k` after its adaptation up to the present instant: it follows a free code by as many steps as R147 lets it, one that is held
not at all. Log entry 20 (DESIGN CHOICE). -/
def eqStepTap (l k : Nat) (d : Dev) : EqTap :=
  let x := (d.lane l).eq.getD k ⟨0, 0, 0⟩
  let w := (eqShape k).2
  let n : Int := if (smLook (d.lane l).eqHeld k).isSome then 0 else eqBudget l k x.at_ d
  let want := eqVal k (bitsOf (Config.eqTaps l ((d.lane l).eqGen + 1)).toNat (eqShape k).1 w)
  let m := satI (want - eqVal k x.code) (-n) n
  let int := if d.lnState l = lnACTIVE ∧ eqCoarseEnd l d ≤ d.nowTick then eqSlow k else 500
  ⟨ofS w (eqVal k x.code + m),
    if m = 0 then x.prev else ofS w (eqVal k x.code + m - (if 0 < m then 1 else -1)),
    if eqRuns l d ∧ (smLook (d.lane l).eqHeld k).isNone then max (x.at_ + int * m.natAbs) (d.nowTick - int) else d.nowTick⟩

/-- The taps of a lane adapt up to the present instant (R147). Log entry 20 (DESIGN CHOICE). -/
def eqAdapt (l : Nat) (d : Dev) : Dev :=
  d.onLane l fun x => { x with
    eqGen := if eqRuns l d then x.eqGen + 1 else x.eqGen
    eq := (List.range 6).map fun k => eqStepTap l k d }

/-- Tap `k` returns to its previous code and holds there (R147). -/
def eqRevert (l k : Nat) (d : Dev) : Dev :=
  d.onLane l fun x =>
    let t := x.eq.getD k ⟨0, 0, 0⟩
    { x with eq := listSet x.eq k { t with code := t.prev }, eqHeld := (x.eqHeld.filter fun h => h.1 != k) ++ [(k, t.prev)] }

/-- Whether adaptation is frozen (R147). -/
def eqFreeze (l : Nat) (d : Dev) : Dev :=
  (eqAdapt l d).putB (LN_EQ_FROZEN l) (d.lnState l == lnFASTRT || d.flag (LN_STAT_RXSLEPT l) || (d.flag (LN_STAT_LOS l) && d.lnState l != lnDOWN))

/-- A lane enters a state, with what Tables 5.2 and 5.3 attach to it: IDLE blocks where it sends no frames, nothing in DOWN. A lane in
FASTRT relocks: the frame under way goes on with its fill at the same step, and no new one leaves (R158, R164).
Log entry 89 (DEDUCED). -/
def laneSet (l st : Nat) (d : Dev) : Dev :=
  let old := d.lnState l
  let on := st = lnFASTRT ∨ (old = lnFASTRT ∧ st = lnACTIVE)
  let d := (eqAdapt l d).put (LN_STAT_STATE l) st
  let d := if on then d else d.onLane l fun x => { x with sof := none }
  let d := if st = lnDOWN ∨ st = lnACQUIRE ∨ st = lnFAILED then
      let d := ((d.put (LN_STAT_STEP l) 0).put (LN_STAT_LOCK l) 0).put (LN_STAT_ORGV l) 0
      d.onLane l fun x => { x with target := none, passed := false, fell := false, orgRun := 0, tmx := [] }
    else d
  let d := if st = lnACTIVE then d else d.onLane l fun x => { x with hopRun := 0, reach := 0 }
  let d := if st = lnFASTRT then
      let d := d.put (LN_STAT_LOCK l) 0
      (d.raise (LN_EVT_FASTRT l) .notice).bump (LN_CNT_FASTCNT l)
    else d
  let d := if st = lnACQUIRE ∧ old = lnFASTRT then
      (d.raise (LN_EVT_REACQ l) .service).bump (LN_CNT_REACQCNT l) else d
  let d := if st = lnFAILED then d.raise (LN_EVT_FAILED l) .service else d
  eqFreeze l (if st = lnDOWN then d.send (.quiet l) else if on then d else sendIdle l d)

/-- A lane enters a state; a change into or out of ACTIVE reaches the chain. -/
def laneGo (l st : Nat) (d : Dev) : Dev :=
  if l < 128 ∧ (d.lnState l = lnACTIVE) ≠ (st = lnACTIVE) then chainUpdate (l / 2) true (laneSet l st d) else laneSet l st d

/-- Both lanes of a quire become ACTIVE together (R140). Log entry 54 (DEDUCED). -/
def pairActive (l : Nat) (d : Dev) : Dev := chainUpdate (l / 2) true (laneSet (partner l) lnACTIVE (laneSet l lnACTIVE d))

/-- Whether lane `l` may start: enabled, and its quire assigned (Table 5.3). -/
def laneWanted (l : Nat) (d : Dev) : Bool := d.flag (LN_CFG_EN l) && (decide (128 ≤ l) || d.flag (QU_CFG_ASSIGNED (l / 2)))

/-- Entry of the device to IDLE (Table 5.3). -/
def lanesStart (d : Dev) : Dev :=
  foldN 130 (fun d l => if laneWanted l d ∧ d.lnState l = lnDOWN then laneGo l lnACQUIRE d else d) d

/-- Entry of the device to STOP: every lane is powered down (Table 5.3). -/
def lanesDown (d : Dev) : Dev :=
  foldN 130 (fun d l => if d.lnState l = lnDOWN then d else laneGo l lnDOWN d) d

/-! ## Rate negotiation (R140-R143) -/

/-- A lane negotiates alone (R140): a twin lane; a lane whose partner is ACTIVE, or not enabled, or belongs to the twin's
end; a lane that receives its own stream. -/
def alone (l : Nat) (d : Dev) : Bool :=
  decide (128 ≤ l) || d.lnState (partner l) == lnACTIVE || !d.flag (LN_CFG_EN (partner l)) ||
    (d.flag (LN_STAT_ORGV l) && d.get (LN_STAT_ORIGIN l) == l)

/-- The highest step a lane tries: MAXSTEP, and the partner's step while that is ACTIVE (R140, R141). -/
def stepCap (l : Nat) (d : Dev) : Nat :=
  let m := d.get (LN_CFG_MAXSTEP l)
  if l < 128 ∧ d.lnState (partner l) = lnACTIVE then min m (d.get (LN_STAT_STEP (partner l))) else m

/-- One lane starts a step change to `s` (Table 5.4): 16 TRN blocks, then its transmitter changes. -/
def stepStart (l s : Nat) (d : Dev) : Dev :=
  let d := send16 l 0xA0 (s * 2 ^ 8) (eqAdapt l d)
  let d := sendIdle l ((d.put (LN_STAT_STEP l) s).put (LN_STAT_LOCK l) 0)
  d.onLane l fun x => { x with target := some s, passed := false, eqStep := d.nowTick }

/-- The unit of lane `l` goes on: to the next target, or to ACTIVE when the last has stood (R141-R143).
Log entry 54 (DEDUCED). -/
def stepNext (l : Nat) (d : Dev) : Dev :=
  if alone l d then
    if d.get (LN_STAT_STEP l) < stepCap l d then stepStart l (d.get (LN_STAT_STEP l) + 1) d else laneGo l lnACTIVE d
  else
    let m := partner l
    if d.lnState m ≠ lnNEGOTIATE ∨ (d.lane m).target.isSome ∨ (d.lane m).fell then d
    else if d.get (LN_STAT_STEP l) < stepCap l d ∧ d.get (LN_STAT_STEP l) < stepCap m d then
      let s := d.get (LN_STAT_STEP l) + 1
      stepStart m s (stepStart l s d)
    else pairActive l d

/-- A lane that waits in NEGOTIATE for its partner is looked at again: its partner has become ACTIVE, or its origin has changed
(R140). -/
def stepResume (l : Nat) (d : Dev) : Dev :=
  if d.lnState l = lnNEGOTIATE ∧ (d.lane l).target = none ∧ ¬ (d.lane l).fell ∧ d.flag (LN_STAT_LOCK l) then stepNext l d else d

/-- The partner of a lane that has become ACTIVE is looked at again. -/
def wakePartner (l : Nat) (d : Dev) : Dev := if l < 128 ∧ d.lnState l = lnACTIVE then stepResume (partner l) d else d

/-- Block lock at S0 has been held for 0.5 ms (Table 5.3). -/
def blockLockHeld (l : Nat) (d : Dev) : Dev :=
  if d.lnState l = lnACQUIRE ∧ d.flag (LN_STAT_LOCK l) ∧ ¬ d.flag (LN_STAT_LOS l) then
    wakePartner l (stepNext l (laneGo l lnNEGOTIATE (d.onLane l fun x => { x with acq := 0 })))
  else d

/-- The step of a lane stands: 16 CFM blocks (Table 5.4). -/
def stepStands (l s : Nat) (d : Dev) : Dev :=
  (send16 l 0xA3 (s * 2 ^ 8) d).onLane l fun x => { x with target := none, passed := false }

/-- In pair operation a step stands only when both devices report it passed (R234). -/
def twinPassed (l s : Nat) (d : Dev) : Bool :=
  if d.flag GL_TWCFG_PAIR ∧ l < 128 ∧ ¬ (d.flag (LN_STAT_ORGV l) ∧ d.get (LN_STAT_ORIGIN l) = l) then
    decide (s ≤ smGet (fun _ => 0) d.tw.steps (partner l))
  else true

/-- Verification at the new step passes (R142); in a unit of two lanes a step passes only if both pass it, and on a twin lane only
where the twin has announced the same step (R140). Log entry 54 (DEDUCED). -/
def rateStepPass (l : Nat) (d : Dev) : Dev :=
  match (d.lane l).target with
  | none => d
  | some s =>
    if d.lnState l ≠ lnNEGOTIATE ∨ ¬ d.flag (LN_STAT_LOCK l) ∨ (128 ≤ l ∧ (d.lane l).rxStep ≠ s) then d
    else
      let d := d.onLane l fun x => { x with passed := true }
      if alone l d then (if twinPassed l s d then wakePartner l (stepNext l (stepStands l s d)) else d)
      else if (d.lane (partner l)).passed then stepNext l (stepStands (partner l) s (stepStands l s d))
      else d

/-- One lane reverts to the previous step and waits for block lock (Table 5.4, step 8). -/
def stepRevert (l : Nat) (d : Dev) : Dev :=
  match (d.lane l).target with
  | none => d
  | some s =>
    let d := sendIdle l (((eqAdapt l d).put (LN_STAT_STEP l) (s - 1)).put (LN_STAT_LOCK l) 0)
    let d := d.onLane l fun x => { x with target := none, passed := false, fell := true, eqStep := d.nowTick }
    d.raise (LN_EVT_STEPFAIL l) .notice

/-- A step fails (R142): the unit reverts, STEPFAIL sets. -/
def rateStepFail (l : Nat) (d : Dev) : Dev :=
  if d.lnState l = lnNEGOTIATE ∧ (d.lane l).target.isSome then
    if alone l d then stepRevert l d else stepRevert (partner l) (stepRevert l d)
  else d

/-- A receiver gains block lock (R136). After a failed step the previous step is then locked again and the lane becomes
ACTIVE (R143). -/
def blockLock (l : Nat) (d : Dev) : Dev :=
  if d.lnState l = lnDOWN ∨ d.flag (LN_STAT_RXSLEPT l) then d
  else
    let d := d.put (LN_STAT_LOCK l) 1
    if d.lnState l = lnNEGOTIATE ∧ (d.lane l).fell then
      wakePartner l (laneGo l lnACTIVE (d.onLane l fun x => { x with fell := false })) else d

/-- TACQ passes without held lock: an acquisition fails, or the previous step is not regained (R137, R142). While LOS is
asserted ACQUIRE waits without limit (R138). -/
def acquireTimeout (l : Nat) (d : Dev) : Dev :=
  if d.lnState l = lnACQUIRE ∧ ¬ d.flag (LN_STAT_LOS l) then
    let k := (d.lane l).acq + 1
    if d.get (LN_TIMCFG_NACQ l) ≤ k then laneGo l lnFAILED (d.onLane l fun x => { x with acq := 0 })
    else d.onLane l fun x => { x with acq := k }
  else if d.lnState l = lnNEGOTIATE ∧ (d.lane l).fell ∧ ¬ d.flag (LN_STAT_LOCK l) then laneGo l lnACQUIRE d
  else d

/-- FASTRT without block lock within TFAST. -/
def fastrtTimeout (l : Nat) (d : Dev) : Dev :=
  if d.lnState l = lnFASTRT ∧ ¬ d.flag (LN_STAT_LOCK l) then laneGo l lnACQUIRE d else d

/-- Block lock held for 64 blocks in FASTRT. -/
def fastrtRelock (l : Nat) (d : Dev) : Dev :=
  if d.lnState l = lnFASTRT ∧ d.flag (LN_STAT_LOCK l) then wakePartner l (laneGo l lnACTIVE d) else d

/-- 1.0 s after entry to FAILED. -/
def failedRetry (l : Nat) (d : Dev) : Dev := if d.lnState l = lnFAILED then laneGo l lnACQUIRE d else d

/-- LOS asserts (R136): an asleep receive direction ignores it. -/
def losAsserted (l : Nat) (d : Dev) : Dev :=
  if d.lnState l = lnDOWN ∨ d.flag (LN_STAT_LOS l) then d
  else
    let d := d.put (LN_STAT_LOS l) 1
    if d.flag (LN_STAT_RXSLEPT l) then eqFreeze l d
    else
      let d := d.raise (LN_EVT_LOS l) .notice
      if d.lnState l = lnACTIVE then laneGo l lnFASTRT d else eqFreeze l d

/-- LOS deasserts. -/
def losGone (l : Nat) (d : Dev) : Dev := eqFreeze l (d.put (LN_STAT_LOS l) 0)

/-- The polynomials of ITU-T O.150, as the two taps of x^n + x^k + 1, and whether the sequence is sent inverted. Log entry 85
(PRESUMED). -/
def prbsPoly (pat : Nat) : Nat × Nat × Bool :=
  match pat with
  | 1 => (7, 6, false)
  | 2 => (9, 5, false)
  | 3 => (15, 14, true)
  | 4 => (23, 18, true)
  | _ => (31, 28, true)

/-- The next bit of a sequence whose last bits are `st`, the latest in bit 0. -/
def prbsNext (pat st : Nat) : Bool := bitOf st ((prbsPoly pat).1 - 1) != bitOf st ((prbsPoly pat).2.1 - 1)

/-- The next 64 bits of a sequence as a word, the first in bit 0, and the bits that follow from it. -/
def prbsGenWord (pat st : Nat) : Nat × Nat :=
  foldN 64 (fun (a : Nat × Nat) i =>
    let b := prbsNext pat a.2
    (a.1 + b2n (b != (prbsPoly pat).2.2) * 2 ^ i, (2 * a.2 + b2n b) % 2 ^ (prbsPoly pat).1)) (0, st)

/-- The last bits of a sequence that a received word ends with. -/
def prbsLast (pat w : Nat) : Nat :=
  foldN (prbsPoly pat).1 (fun a i => a + b2n (bitOf w (63 - i) != (prbsPoly pat).2.2) * 2 ^ i) 0

/-- Words of a pattern that a locked checker has not received count as errors and pass in its sequence; before lock they break the run
of error-free words (R149). -/
def prbsMissed (l n : Nat) (d : Dev) : Dev :=
  if d.flag (LN_PRBSCTL_SYNC l) then
    (d.bump (LN_PRBSERR_ERRCNT l) (64 * n)).onLane l fun x => { x with
      chk := x.chk.map fun st => foldN n (fun s _ => (prbsGenWord (d.get (LN_PRBSCTL_PAT l)) s).2) st }
  else if n = 0 then d
  else d.onLane l fun x => { x with chk := none, chkRun := 0 }

/-- LOL (R136): an asleep receive direction ignores it. Block lock is gone where `lost` says so, and on entry to FASTRT; invalid sync
headers are counted. A tap that has changed within 10 µs returns to its previous code and holds (R147). Log entry 20 (DESIGN
CHOICE). -/
def lolDetected (l : Nat) (lost : Bool) (badHeaders : Nat) (tap : Option Nat) (d : Dev) : Dev :=
  if d.lnState l = lnDOWN ∨ d.flag (LN_STAT_RXSLEPT l) then d
  else
    let d := if lost then d.put (LN_STAT_LOCK l) 0 else d
    let d := (d.raise (LN_EVT_LOL l) .notice).bump (LN_BERC_SHERR l) badHeaders
    let d := if d.flag (LN_PRBSCTL_CHK l) ∧ d.get (LN_PRBSCTL_PAT l) ≠ 0 then prbsMissed l badHeaders d else d
    let d := match tap with
      | some k => eqRevert l k (eqAdapt l d)
      | none => d
    if d.lnState l = lnACTIVE then laneGo l lnFASTRT d else d

/-- The 1 s hold of the tap reverted first ends, and it adapts again (R147). -/
def eqHoldEnd (l : Nat) (d : Dev) : Dev :=
  if (d.lane l).eqHeld = [] then d else (eqAdapt l d).onLane l fun x => { x with eqHeld := x.eqHeld.drop 1 }

/-- The codes that LN_EQ shows (R147). -/
def eqWord (l : Nat) (d : Dev) : Word :=
  BitVec.ofNat 32 ((List.range 6).foldl (fun a k => a + (eqStepTap l k d).code * 2 ^ (eqShape k).1) 0 +
    d.get (LN_EQ_FROZEN l) * 2 ^ 28)

/-! ## LN_CTL: retrain, reacquire, sleep (R139, R144, R145) -/

/-- The transmit direction sleeps, after 16 SLP blocks in electrical idle, or wakes with 16 WAK blocks. -/
def txSleep (l : Nat) (on : Bool) (d : Dev) : Dev :=
  if d.flag (LN_CTL_TXSLP l) == on then d
  else
    let d := d.putB (LN_CTL_TXSLP l) on
    if on then
      let d := (send16 l 0xAA 0 d).putB (LN_STAT_TXSLEPT l) true
      (d.onLane l fun x => { x with sof := none }).send (.quiet l)
    else sendIdle l (send16 l 0xAC 0 (d.putB (LN_STAT_TXSLEPT l) false))

/-- The receive direction sleeps, or wakes and relocks through FASTRT. -/
def rxSleep (l : Nat) (on : Bool) (d : Dev) : Dev :=
  if d.flag (LN_CTL_RXSLP l) == on then d
  else
    let d := (d.putB (LN_CTL_RXSLP l) on).putB (LN_STAT_RXSLEPT l) on
    if on then eqFreeze l (d.put (LN_STAT_LOCK l) 0)
    else if d.lnState l = lnACTIVE then laneGo l lnFASTRT d else eqFreeze l d

/-- What a write of LN_CTL needs (R139, R144). -/
def lnCtlOk (l w : Nat) (d : Dev) : Bool :=
  let active := d.lnState l == lnACTIVE
  (!(bitOf w 0 || bitOf w 1) || (d.mode == modeIDLE && active)) &&
    (!bitOf w 2 || active) && (!bitOf w 3 || d.lnState l != lnDOWN)

/-- REACQ (Table 5.3). -/
def reacq (l : Nat) (d : Dev) : Dev :=
  if d.lnState l = lnACTIVE ∨ d.lnState l = lnNEGOTIATE ∨ d.lnState l = lnFAILED then laneGo l lnACQUIRE d else d

/-- Write of LN_CTL. -/
def wrLnCtl (o : Origin) (l : Nat) (w : Word) (d : Dev) : Bool × Dev :=
  let v := w.toNat
  shellWrite o .lane (lnCtlOk l v d) (fun d =>
    let d := rxSleep l (bitOf v 1) (txSleep l (bitOf v 0) d)
    let d := if bitOf v 2 ∧ d.lnState l = lnACTIVE then laneGo l lnFASTRT d else d
    if bitOf v 3 then reacq l d else d) d

/-- The LN_CTL word as it stands. -/
def lnCtl (l : Nat) (d : Dev) : Nat := (d.word (LN_CTL l)).toNat

def laneRetrain (o : Origin) (l : Nat) (d : Dev) : Dev := (wrLnCtl o l (BitVec.ofNat 32 (setBit (lnCtl l d) 2)) d).2
def laneReacq (o : Origin) (l : Nat) (d : Dev) : Dev := (wrLnCtl o l (BitVec.ofNat 32 (setBit (lnCtl l d) 3)) d).2
def laneTxSleep (o : Origin) (l : Nat) (d : Dev) : Dev := (wrLnCtl o l (BitVec.ofNat 32 (setBit (lnCtl l d) 0)) d).2
def laneTxWake (o : Origin) (l : Nat) (d : Dev) : Dev := (wrLnCtl o l (BitVec.ofNat 32 (clrBit (lnCtl l d) 0)) d).2
def laneRxSleep (o : Origin) (l : Nat) (d : Dev) : Dev := (wrLnCtl o l (BitVec.ofNat 32 (setBit (lnCtl l d) 1)) d).2
def laneRxWake (o : Origin) (l : Nat) (d : Dev) : Dev := (wrLnCtl o l (BitVec.ofNat 32 (clrBit (lnCtl l d) 1)) d).2

/-! ## Received control blocks (R134, R135) -/

/-- A control block is counted in UNKCNT when its type is unassigned or its CHK is wrong. -/
def blockDiscard (l : Nat) (b : BitVec 64) (d : Dev) : Dev :=
  if d.lnState l = lnDOWN ∨ (blockAssigned (blockType b) ∧ blockChk b) then d else d.bump (LN_BERC_UNKCNT l)

/-- A block arrives under sync header `hdr`: an invalid header is counted in SHERR, and by a locked pattern checker as 64 errors
(R149, R157); under 0b10 it is a control block. -/
def blockIn (l hdr : Nat) (b : BitVec 64) (d : Dev) : Dev :=
  if d.lnState l = lnDOWN ∨ d.flag (LN_STAT_RXSLEPT l) then d
  else if hdr = 2 then blockDiscard l b d
  else if hdr = 1 then d
  else
    let d := d.bump (LN_BERC_SHERR l)
    if d.flag (LN_PRBSCTL_CHK l) ∧ d.get (LN_PRBSCTL_PAT l) ≠ 0 then prbsMissed l 1 d else d

/-- An IDLE block: a valid one counts toward its origin. -/
def idleBlock (l : Nat) (b : BitVec 64) (d : Dev) : Dev :=
  if d.lnState l = lnDOWN then d
  else if blockType b ≠ 0x1E ∨ ¬ blockChk b then blockDiscard l b d
  else
    let o := bitsOf b.toNat 8 8
    d.onLane l fun x =>
      if d.flag (LN_STAT_ORGV l) ∧ d.get (LN_STAT_ORIGIN l) = o then { x with orgRun := 0, orgCand := o }
      else if x.orgCand = o then { x with orgRun := x.orgRun + 1 }
      else { x with orgCand := o, orgRun := 1 }

/-- Sixteen valid IDLE blocks in a row of a new origin (R135). -/
def originChanged (l : Nat) (d : Dev) : Dev :=
  let x := d.lane l
  if x.orgRun < 16 then d
  else
    let d := (d.put (LN_STAT_ORIGIN l) x.orgCand).put (LN_STAT_ORGV l) 1
    let d := d.onLane l fun x => { x with orgRun := 0 }
    if l < 128 then wakePartner l (stepResume l (chainUpdate (l / 2) false d)) else d

/-- The twin's TRN blocks: the receive direction follows the announced step (R140). -/
def trnBlock (x step : Nat) (d : Dev) : Dev :=
  if d.lnState (128 + x) = lnNEGOTIATE then
    (d.put (LN_STAT_LOCK (128 + x)) 0).onLane (128 + x) fun y => { y with rxStep := step }
  else d

/-! ## Pattern test (R148, R149) -/

/-- What a write of LN_PRBSCTL needs (R149, R434). -/
def prbsOk (l w : Nat) (d : Dev) : Bool :=
  let rate := bitsOf w 6 4
  decide (w % 8 ≤ 5) && (rate == 0 || (decide (3 ≤ rate) && decide (rate ≤ 0xC))) &&
    (!(bitOf w 3 || bitOf w 4) || (d.mode == modeIDLE && d.lnState l == lnACTIVE)) &&
    !(bitOf w 5 && d.flag (LN_PRBSCTL_INJ1 l))

/-- Write of LN_PRBSCTL. -/
def wrPrbs (o : Origin) (l : Nat) (w : Word) (d : Dev) : Bool × Dev :=
  let v := w.toNat
  shellWrite o .lane (prbsOk l v d) (fun d =>
    let d := if bitOf v 4 ∧ ¬ d.flag (LN_PRBSCTL_CHK l) then
        ((d.put (LN_PRBSERR_ERRCNT l) 0).put (LN_PRBSCTL_SYNC l) 0).onLane l fun x => { x with chk := none, chkRun := 0 } else d
    let d := if bitOf v 4 then d else d.put (LN_PRBSCTL_SYNC l) 0
    let d := if bitOf v 3 ∧ (¬ d.flag (LN_PRBSCTL_GEN l) ∨ d.get (LN_PRBSCTL_PAT l) ≠ v % 8) then
        d.onLane l fun x => { x with gen := max 1 ((Config.prbsSeed l x.genBits).toNat % 2 ^ (prbsPoly (v % 8)).1), genBits := x.genBits + 1 }
      else d
    let d := ((d.put (LN_PRBSCTL_PAT l) (v % 8)).putB (LN_PRBSCTL_GEN l) (bitOf v 3)).putB (LN_PRBSCTL_CHK l) (bitOf v 4)
    let d := d.put (LN_PRBSCTL_INJRATE l) (bitsOf v 6 4)
    if bitOf v 5 then d.put (LN_PRBSCTL_INJ1 l) 1 else d) d

/-- The words of the data blocks that a lane sends: the pattern in their place while its generator runs (R148), with a waiting single
injection in the first, and one bit inverted in every 10^m generated bits (R149). Both injections invert a bit of their own where they fall
in one word: log entry 93 (DESIGN CHOICE). -/
def prbsFill (l : Nat) (ws : List (BitVec 64)) (d : Dev) : List (BitVec 64) × Dev :=
  let pat := d.get (LN_PRBSCTL_PAT l)
  if ¬ d.flag (LN_PRBSCTL_GEN l) ∨ pat = 0 then (ws, d)
  else
    let m := d.get (LN_PRBSCTL_INJRATE l)
    ws.foldl (fun (a : List (BitVec 64) × Dev) _ =>
      let x := a.2.lane l
      let r := prbsGenWord pat x.gen
      let i := (Config.prbsBit l x.genBits).val
      let k := (i + 1 + (Config.prbsBit l (x.genBits + 1)).val % 63) % 64
      let rate := m != 0 && x.genBits / 10 ^ m != (x.genBits + 64) / 10 ^ m
      let w := BitVec.ofNat 64 r.1
      let w := if a.2.flag (LN_PRBSCTL_INJ1 l) then w ^^^ BitVec.ofNat 64 (2 ^ i) else w
      let w := if rate then w ^^^ BitVec.ofNat 64 (2 ^ k) else w
      (a.1 ++ [w], (a.2.put (LN_PRBSCTL_INJ1 l) 0).onLane l fun x => { x with gen := r.2, genBits := x.genBits + 64 })) ([], d)

/-- The writable part of LN_PRBSCTL as it stands, INJ1 clear. -/
def prbsCtl (l : Nat) (d : Dev) : Nat := (d.word (LN_PRBSCTL l)).toNat % 2 ^ 10 - 32 * b2n (bitOf (d.word (LN_PRBSCTL l)).toNat 5)

def prbsGen (o : Origin) (l pat : Nat) (d : Dev) : Dev :=
  (wrPrbs o l (BitVec.ofNat 32 (setBit (prbsCtl l d / 8 * 8 + pat) 3)) d).2
def prbsChk (o : Origin) (l pat : Nat) (d : Dev) : Dev :=
  (wrPrbs o l (BitVec.ofNat 32 (setBit (prbsCtl l d / 8 * 8 + pat) 4)) d).2
def prbsInj1 (o : Origin) (l : Nat) (d : Dev) : Dev := (wrPrbs o l (BitVec.ofNat 32 (setBit (prbsCtl l d) 5)) d).2
def prbsRate (o : Origin) (l rate : Nat) (d : Dev) : Dev :=
  (wrPrbs o l (BitVec.ofNat 32 (prbsCtl l d % 64 + rate * 64)) d).2

/-- A data word reaches the pattern checker (R149): it locks after 64 words in a row that follow from the one before, and then counts
every bit that differs from the sequence. -/
def prbsWordIn (l : Nat) (w : BitVec 64) (d : Dev) : Dev :=
  let pat := d.get (LN_PRBSCTL_PAT l)
  let x := d.lane l
  let own := prbsLast pat w.toNat
  match x.chk with
  | none => d.onLane l fun x => { x with chk := some own, chkRun := 0 }
  | some st =>
    let r := prbsGenWord pat st
    if d.flag (LN_PRBSCTL_SYNC l) then
      let n := (List.range 64).foldl (fun a i => a + b2n (bitOf r.1 i != bitOf w.toNat i)) 0
      (d.bump (LN_PRBSERR_ERRCNT l) n).onLane l fun x => { x with chk := some r.2 }
    else
      let run := if r.1 = w.toNat ∧ st ≠ 0 then x.chkRun + 1 else 0
      (d.putB (LN_PRBSCTL_SYNC l) (decide (64 ≤ run))).onLane l fun x => { x with chk := some own, chkRun := run }

/-- Data words reach a lane whose checker runs. -/
def prbsWords (l : Nat) (ws : List (BitVec 64)) (d : Dev) : Dev :=
  if ¬ d.flag (LN_PRBSCTL_CHK l) ∨ d.get (LN_PRBSCTL_PAT l) = 0 then d else ws.foldl (fun d w => prbsWordIn l w d) d

/-! ## Timing exchanges (R150-R154) -/

/-- The path delay of a position on a lane. -/
def Dev.posD (d : Dev) (l p : Nat) : PosD := smGet posD0 (d.lane l).ds p
def Dev.setPosD (d : Dev) (l p : Nat) (x : PosD) : Dev := d.onLane l fun y => { y with ds := smSet posD0 y.ds p x }

/-- The lowest tag not in use. -/
def freeTag (x : LaneSt) : Option Nat := (List.range 16).find? fun t => !x.tmx.any fun r => r.tag == t

/-- The block of a lane that a request may take now, as its departure in 1/16 tick and its number in the fill: of the frame under way
the next IDLE block of the fill, never one of the first 16 (R163, Table 6.2); where the lane sends no frame, an IDLE block at once. A
block at S3 takes 3.2 ticks, twice as long at each step below (R179). -/
def tmxSlot (l : Nat) (d : Dev) : Option (Nat × Option Nat) :=
  match (d.lane l).sof with
  | none => some (16 * d.nowTick, none)
  | some (dep, body, free) =>
    let bt := 256 * 2 ^ (3 - d.get (LN_STAT_STEP l))
    let i := max (max 16 free) (ceilDiv (80 * d.nowTick - 5 * dep) bt - body)
    let i := if (i - 16) % 4 = 3 then i + 1 else i
    if 80 * d.T < (body + i + 1) * bt then none else some ((5 * dep + (body + i) * bt) / 5, some i)

/-- Send a request, for a calibration or of a period, if a tag and a block are free: its departure is stamped in 1/16 tick (R150).
Log entry 60 (DEDUCED). -/
def tmxSend (l p : Nat) (cal : Bool) (d : Dev) : Bool × Dev :=
  match freeTag (d.lane l), tmxSlot l d with
  | some t, some s =>
    if ¬ txOn l d then (false, d)
    else
      let b := ctlBlock 0xA5 (t * 2 ^ 12 + p * 2 ^ 16)
      let d := match s.2 with
        | some i => d.send (.inFill l i b)
        | none => d.send (.laneBlock l b)
      (true, d.onLane l fun x => { x with
        tmx := x.tmx ++ [⟨t, p, s.1, cal⟩]
        sof := x.sof.map fun y => (y.1, y.2.1, match s.2 with
          | some i => i + 1
          | none => y.2.2) })
  | _, _ => (false, d)

/-- Lane `l` reaches position `p`. -/
def laneReaches (l p : Nat) (d : Dev) : Bool :=
  let npos := d.get (QU_CFG_NPOS (l / 2))
  decide (p < npos) && decide (distOf npos (l % 2) p < tabReach (l / 2) (l % 2) d)

/-- The engine of a position is registered. -/
def posRegistered (q p : Nat) (d : Dev) : Bool :=
  let st := d.get (CE_STAT_STATE (128 * q + p))
  decide (1 ≤ st) && decide (st ≤ 4)

/-- A position of lane `l` that calibration still needs exchanges for (R151). -/
def calNext (l : Nat) (d : Dev) : Option Nat :=
  (List.range (d.get (QU_CFG_NPOS (l / 2)))).find? fun p =>
    laneReaches l p d && posRegistered (l / 2) p d && !(d.posD l p).valid && (d.posD l p).newD.isNone &&
      decide ((d.posD l p).calN + ((d.lane l).tmx.filter fun r => r.pos == p && r.cal).length < 256)

/-- From CHARGE on, keep up to 16 exchanges of the calibration in flight (R151, R392); in RUN one tag stays free for the exchange of the
period (R152). -/
def calPump (l : Nat) (d : Dev) : Dev :=
  if ¬ d.converting ∨ d.lnState l ≠ lnACTIVE ∨ 128 ≤ l then d
  else foldN 16 (fun d _ =>
    if d.mode = modeRUN ∧ 15 ≤ (d.lane l).tmx.length then d
    else match calNext l d with
      | some p => (tmxSend l p true d).2
      | none => d) d

/-- A sample in the u16 of D; one out of range saturates and sets DSAT (R153). Log entry 55 (DEDUCED). -/
def satD (l : Nat) (x : Int) (d : Dev) : Nat × Dev :=
  let v := satU 16 x
  (v, if (v : Int) = x then d else d.raise (LN_EVT_DSAT l) .service)

/-- A sample of calibration: the mean of 256 becomes D (R151), in RUN at the next boundary (R152); one out of range takes D to the end of
its range until then (R153). Log entry 60 (DEDUCED). -/
def calSample (l p : Nat) (d1 : Int) (d : Dev) : Dev :=
  let s := satD l d1 d
  let d := s.2
  let x := d.posD l p
  let x := { x with calN := x.calN + 1, calSum := x.calSum + d1, d := if (s.1 : Int) = d1 then x.d else s.1 }
  if x.calN < 256 then d.setPosD l p x
  else
    let m := satD l (rdiv x.calSum 256) d
    let x := { x with calN := 0, calSum := 0 }
    let d := m.2.setPosD l p (if d.mode = modeRUN then { x with newD := some m.1 } else { x with d := m.1, valid := true })
    if l < 128 then
      let n := 128 * (l / 2) + p
      d.onCell n fun c => { c with calId := some (BitVec.ofNat 64 (d.get (CE_IDLO_ID n) + 2 ^ 32 * d.get (CE_IDHI_ID n))) }
    else d

/-- A sample in RUN (R152): filtered, rejected, or part of a replacement; D changes at the next boundary, and a further sample before that
goes on from the value that waits. One out of range sets DSAT, and takes D to the end of its range where it is no rejected one (R153).
Log entry 60 (DEDUCED). -/
def runSample (l p : Nat) (d1 : Int) (d : Dev) : Dev :=
  let x := d.posD l p
  let v := satD l d1 d
  let d := v.2
  match x.rep with
  | some (k, s) =>
    if k + 1 < 16 then d.setPosD l p { x with rep := some (k + 1, s + d1) }
    else
      let m := satD l (rdiv (s + d1) 16) d
      m.2.setPosD l p { x with rep := none, newD := some m.1 }
  | none =>
    let now := x.newD.getD x.d
    if absN (d1 - now) ≤ d.get (LN_TMXCFG_JUMP l) then
      let n := if (v.1 : Int) = d1 then satU 16 ((now : Int) + rdiv (d1 - now) 16) else v.1
      d.setPosD l p { x with bad := 0, newD := some n }
    else if x.bad + 1 < 4 then d.setPosD l p { x with bad := x.bad + 1 }
    else (d.raise (LN_EVT_TMXJUMP l) .notice).setPosD l p { x with bad := 0, rep := some (0, 0) }

/-- The sample of a request: of a calibration while that is under way, of a period once D is calibrated (R151, R152, R392). -/
def tmxSample (l p : Nat) (cal : Bool) (d1 : Int) (d : Dev) : Dev :=
  match cal, (d.posD l p).valid with
  | true, false => calSample l p d1 d
  | false, true => runSample l p d1 d
  | _, _ => d

/-- A response arrives at `trx` (1/16 tick): one later than 20 µs is discarded (R150). -/
def tmxResponse (l tag pos res trx : Nat) (d : Dev) : Dev :=
  match (d.lane l).tmx.find? fun r => r.tag == tag && r.pos == pos with
  | none => d
  | some r =>
    let d := d.onLane l fun x => { x with tmx := x.tmx.filter fun y => y.tag != tag }
    let rtt : Int := ((trx + 2 ^ 32 - r.ttx % 2 ^ 32) % 2 ^ 32 : Nat)
    let d := if 160000 < rtt then d
      else
        let d1 := rdiv (rtt - res + d.getS (LN_TMXCFG_ASYMCOR l)) 2
        tmxSample l pos r.cal d1 d
    calPump l d

/-- No response within 20 µs (R150). -/
def tmxTimeout (l tag : Nat) (d : Dev) : Dev :=
  calPump l (d.onLane l fun x => { x with tmx := x.tmx.filter fun y => y.tag != tag })

/-- At a boundary the values of D that wait take effect (R152). -/
def tmxApply (l : Nat) (d : Dev) : Dev :=
  (d.lane l).ds.foldl (fun d e => match e.2.newD with
    | some v => d.setPosD l e.1 { e.2 with d := v, valid := true, newD := none }
    | none => d) d

/-- One exchange per period of RUN on an ACTIVE quire lane, positions in rising round-robin order; a twin lane exchanges
with the twin (R152, R156). -/
def tmxPeriod (l : Nat) (d : Dev) : Dev :=
  if d.lnState l ≠ lnACTIVE then d
  else if 128 ≤ l then (tmxSend l 0 (!(d.posD l 0).valid) d).2
  else if d.mode ≠ modeRUN then d
  else
    let npos := d.get (QU_CFG_NPOS (l / 2))
    let ps := (List.range npos).filter fun p => laneReaches l p d
    match (ps.find? fun p => decide ((d.lane l).tmxNext ≤ p)).orElse (fun _ => ps.head?) with
    | none => d
    | some p =>
      let r := tmxSend l p false d
      if r.1 then r.2.onLane l fun x => { x with tmxNext := p + 1 } else r.2

/-- The comparison of the two end-to-end delays with the lane's own threshold (R154). -/
def asymCheck (l : Nat) (d : Dev) : Dev :=
  let m := partner l
  if d.flag (LN_TMXE2E_VALID l) ∧ d.flag (LN_TMXE2E_VALID m) ∧
      d.get (LN_TMXCFG_ASYMTH l) < absN ((d.get (LN_TMXE2E_E2E l) : Int) - d.get (LN_TMXE2E_E2E m)) then
    d.raise (LN_EVT_ASYM l) .notice
  else d

/-- A request of the partner lane is stamped at arrival: the mean of the delays of an intact chain (R154).
Log entry 60 (DEDUCED). -/
def e2eStamp (l delay : Nat) (d : Dev) : Dev :=
  if 128 ≤ l ∨ d.get (QU_STAT_CHAIN (l / 2)) ≠ chINTACT then d
  else
    let d := d.onLane l fun x => { x with e2eSum := x.e2eSum + delay, e2eN := x.e2eN + 1 }
    let x := d.lane l
    let d := (d.put (LN_TMXE2E_E2E l) (satU 16 (rdiv x.e2eSum x.e2eN))).put (LN_TMXE2E_VALID l) 1
    asymCheck (partner l) (asymCheck l d)

/-- The twin's request on a twin lane is answered (R150, R156). -/
def tmxRequest (x tag res : Nat) (d : Dev) : Dev :=
  if d.lnState (128 + x) = lnACTIVE ∧ txOn (128 + x) d then
    d.send (.laneBlock (128 + x) (ctlBlock 0xA5 (2 ^ 8 + tag * 2 ^ 12 + res * 2 ^ 24))) else d

/-- What LN_TMXD shows (R157): D of the selected position. -/
def tmxdWord (l : Nat) (d : Dev) : Word :=
  let p := if 128 ≤ l then 0 else d.get (LN_TMXSEL_POS l)
  let x := d.posD l p
  BitVec.ofNat 32 (x.d + p * 2 ^ 16 + b2n x.valid * 2 ^ 23)

/-- The device's own lane at the reference end of a position; in pair operation the one lane it has. -/
def refLane (q p : Nat) (d : Dev) : Nat :=
  let e := refEnd q p d
  2 * q + (if twinEnd e d then 1 - e else e)

/-- The delivery correction of a position, in 1/16 tick (R168). -/
def delivery (q p : Nat) (d : Dev) : Int :=
  let l := refLane q p d
  ((smGet (fun _ => 0) (d.lane l).rofs p : Nat) : Int) - (d.posD l p).d

/-- Whether LN_TMXD.VALID of a cell's position is 1 at its reference end (R392). -/
def posValid (n : Nat) (d : Dev) : Bool := (d.posD (refLane (n / 128) (n % 128) d) (n % 128)).valid

/-- Entry to CHARGE wakes every lane and ends the pattern tests (R145, R149). -/
def lanesCharge (d : Dev) : Dev :=
  foldN 130 (fun d l =>
    let d := rxSleep l false (txSleep l false d)
    ((d.put (LN_PRBSCTL_GEN l) 0).put (LN_PRBSCTL_CHK l) 0).put (LN_PRBSCTL_SYNC l) 0) d

/-! ## Records on the twin lanes (R235) -/

/-- The twin lanes that carry what is sent. -/
def twinTx (d : Dev) : List Nat := [128, 129].filter fun l => d.lnState l == lnACTIVE && txOn l d

/-- A record of KIND `kind`, between TSOR and TEOR, on both twin lanes; its length and CRC are those of the device's own payload. While the
pattern generator of a lane runs, the pattern takes the place of the record in its data blocks (R148, R156).
Log entry 91 (DESIGN CHOICE). -/
def twinSend (kind : Nat) (x : TwinLoad) (d : Dev) : Dev :=
  let j := d.tm.jAbs
  let n := (Config.twinLength kind j).toNat
  (twinTx d).foldl (fun d l =>
    let on := d.flag (LN_PRBSCTL_GEN l) ∧ d.get (LN_PRBSCTL_PAT l) ≠ 0
    let r := if on then prbsFill l (List.replicate n 0) d else ([], d)
    r.2.send (.twinRec l (ctlBlock 0xC0 (kind * 2 ^ 8 + j % 256 * 2 ^ 16 + n * 2 ^ 24)) (if on then .pattern r.1 else x)
      (ctlBlock 0xC1 ((Config.twinCrc kind j).toNat * 2 ^ 16)))) d

/-- The first copy of a record with a correct CRC is taken, on either twin lane (R235). -/
def firstCopy (kind : Nat) (h : TwinHdr) (f : Dev → Dev) (d : Dev) : Dev :=
  if ¬ h.crcOk ∨ d.lnState (128 + h.lane.val) ≠ lnACTIVE ∨ smLook d.tw.got kind = some h.period.toNat then d
  else f (d.onTw fun t => { t with got := smInsert t.got kind h.period.toNat })

/-! ## Reach (R171) -/

/-- A HOP block that ends its stream at lane `l`: the stream is that of the partner lane where the origin says so. Of a ONE_WAY chain
only the partner lane of the through stream counts. A frame whose HOP has not come, more than one frame having been released since the last
HOP, breaks the run. -/
def hopBlock (l hopcnt : Nat) (d : Dev) : Dev :=
  if d.lnState l ≠ lnACTIVE ∨ 0x80 < hopcnt ∨
    (d.get (QU_STAT_CHAIN (l / 2)) = chONEWAY ∧ originKind (l / 2) (l % 2) d ≠ 1) then d
  else
    let s := if originKind (l / 2) (l % 2) d = 1 then partner l else l
    d.onLane s fun x =>
      if x.hopRun ≠ 0 ∧ x.hopVal = hopcnt ∧ x.hopGap ≤ 1 then { x with hopRun := x.hopRun + 1, hopGap := 0 }
      else { x with hopVal := hopcnt, hopRun := 1, hopGap := 0 }

/-- The same HOPCNT in four frames in a row is taken as REACH; the change writes a slot table (R171, R172).
Log entry 56 (DEDUCED). -/
def reachUpdated (q : Nat) (endB : Bool) (d : Dev) : Dev :=
  let l := 2 * q + b2n endB
  let x := d.lane l
  if x.hopRun < 4 ∨ d.get (QU_STAT_CHAIN q) = chUNSETTLED then d
  else nposCheck q (if x.reach = x.hopVal then d else slotWrite q (d.onLane l fun y => { y with reach := x.hopVal }))

end Sys2Proof.Machine
end

