-- ==== Sys2Proof/Machine/Timebase.lean ====
section
/-! DEFINITION. The timebase and the PTP servo of chapter 10: the tick, the alignment steps, the corrections, the jump request,
the ports' messages and the servo states. -/

namespace Sys2Proof.Machine

/-- The next tick of the 500 MHz clock (R270, R272). Steps of PLL-S leave on its own clock, also while PLL-T is gated (R269).
Log entry 3 (DESIGN CHOICE). -/
def tickTimebase (d : Dev) : Dev :=
  let d := stepsPass 1 d
  if ¬ d.flag PL_STAT_TLOCK then d
  else
    let s := slewIn 1 d
    let d := slewTaken s d
    { d with tm := { d.tm with label := ((d.tm.label : Int) + 2 ^ 33 + d.getS TM_INCR_CORR + s).toNat } }

/-- A step of PLL-T, from which the next keeps 8 of its output cycles (R269), and the label after it; `u` is 1 for one that advances an
edge, -1 for one that delays it. -/
def alignStep (u : Int) (label : Nat) (d : Dev) : Dev :=
  { (alignShow u d) with tm := { d.tm with
      label := label
      pllT := { d.tm.pllT with stepGap := 8 } } }

/-- The alignment rule (R271): a step of PLL-T and the label moved by 2^-8 ns against ρ. Log entry 12 (DESIGN CHOICE). -/
def timebaseAlign (d : Dev) : Dev :=
  let q : Nat := 2 ^ 24
  if ¬ d.flag PL_STAT_TLOCK ∨ d.tm.pllT.stepGap ≠ 0 then d
  else if (q : Int) ≤ tickRho d then alignStep 1 (d.tm.label - q) d
  else if tickRho d ≤ -(q : Int) then alignStep (-1) (d.tm.label + q) d
  else d

/-- Add to the slew amount, saturating at ±16 × 1,000 × JMAX sixteenths of a nanosecond (R272); `x` in 2^-32 ns. -/
def addSlew (x : Int) (d : Dev) : Dev :=
  let lim : Int := ((16 * 1000 * d.get TM_JMPCFG_JMAX * 2 ^ 28 : Nat) : Int)
  let r := satI (d.tm.slew + x) (-lim) lim
  ({ d with tm := { d.tm with slew := r } }).putB TM_STAT_SLEWING (r != 0)

/-- Write of TM_INCR (R272): a correction within ±100 ppm is accepted. -/
def wrTmIncr (o : Origin) (w : Word) (d : Dev) : Bool × Dev :=
  shellWrite o .time (decide (absN (toS 32 w.toNat) ≤ 0xD1B71)) (fun d => d.put TM_INCR_CORR w.toNat) d

/-- Write of TM_ADJ (R272). -/
def wrTmAdj (o : Origin) (w : Word) (d : Dev) : Bool × Dev :=
  shellWrite o .time true (addSlew (toS 32 w.toNat * 2 ^ 28)) d

/-- Write of TM_JUMPHI (R282). -/
def wrTmJumpHi (o : Origin) (w : Word) (d : Dev) : Bool × Dev :=
  shellWrite o .time (decide (w.toNat < 2 ^ 16)) (fun d => { d with tm := { d.tm with jumpHi := w.toNat } }) d

/-- Write of TM_JUMPLO: the request is submitted and replaces a pending one (R282). -/
def wrTmJumpLo (o : Origin) (w : Word) (d : Dev) : Bool × Dev :=
  shellWrite o .time true (fun d =>
    ({ d with tm := { d.tm with jumpReq := some (toS 48 (d.tm.jumpHi * 2 ^ 32 + w.toNat)) } }).put TM_STAT_JUMPPEND 1) d

/-- The servo enters HOLDOVER (Table 10.6). -/
def servoHoldover (d : Dev) : Dev := (d.put TM_STAT_STATE svHOLDOVER).raise TM_EVT_HOLD .notice

/-- A jump is refused (R280): JUMPREF, and from LOCKED the servo enters HOLDOVER. -/
def jumpRefused (d : Dev) : Dev :=
  let d := d.raise TM_EVT_JUMPREF .service
  if d.get TM_STAT_STATE = svLOCKED then servoHoldover d else d

/-- Clear a pending jump request. -/
def jumpClear (d : Dev) : Dev := ({ d with tm := { d.tm with jumpReq := none } }).put TM_STAT_JUMPPEND 0

/-- A jump by a signed offset in 2 ns ticks at the present boundary: the largest whole multiple of T_C moves the label and
the grid, the rest is slewed (R280). -/
def jumpBy (ticks : Int) (d : Dev) : Dev :=
  let t := d.tm.tTicks
  let m := ticks.natAbs / t
  let rest := ticks.natAbs % t
  let sg : Int := if ticks < 0 then -1 else 1
  let b := ((d.tm.bj : Int) + sg * (m * t : Nat)).toNat
  let d := { d with tm := { d.tm with
      label := ((d.tm.label : Int) + sg * (m * t * 2 ^ 33 : Nat)).toNat
      bj := b
      jAbs := b / t } }
  (addSlew (sg * (rest * 2 ^ 33 : Nat)) d).raise TM_EVT_JUMP .notice

/-- The request at a period boundary (R282): taken in IDLE, refused otherwise. -/
def jumpApply (idle : Bool) (d : Dev) : Dev :=
  match d.tm.jumpReq with
  | none => d
  | some us =>
    let d := jumpClear d
    if idle then jumpBy (us * 500) d else jumpRefused d

/-! ## PTP -/

/-- The addresses at which PTP is received; peer-delay messages go to the second (Table 10.4). -/
def ptpMac : BitVec 48 := 0x011B19000000
def ptpPeerMac : BitVec 48 := 0x0180C200000E

/-- The Ethertypes of Table 17.1. -/
def etIP4 : BitVec 16 := 0x0800
def etARP : BitVec 16 := 0x0806
def etIP6 : BitVec 16 := 0x86DD
def etPTP : BitVec 16 := 0x88F7

/-- The solicited-node multicast address of an IPv6 address (Table 17.1). -/
def solicitedMac (a : Nat) : BitVec 48 := BitVec.ofNat 48 (0x3333FF000000 + a % 2 ^ 24)

/-- The destination addresses of Table 17.1 that port `x` accepts. -/
def ethDstOk (x : Nat) (e : EthHdr) (d : Dev) : Bool :=
  e.dst.toNat == ownMac x d || (e.dst == BitVec.allOnes 48 && e.typ == etARP) ||
    (d.flag (NT_PCFG_IPV6 x) && e.dst == solicitedMac (portIp6 x d)) || e.dst == ptpMac || e.dst == ptpPeerMac

/-- What R404 and R405 accept of a frame of an Ethertype on port `x`. -/
def ethOk (x : Nat) (typ : BitVec 16) (e : EthHdr) (d : Dev) : Bool :=
  e.typ == typ && ethDstOk x e d && decide (64 ≤ e.len) && decide (e.len ≤ 1522) && d.flag (NT_PCFG_EN x) &&
    (if d.flag (NT_PCFG_VEN x) then
      match e.tags with
      | [v] => v.toNat == d.get (NT_PCFG_VID x)
      | _ => false
     else e.tags.isEmpty)

/-- The header of a frame that port `x` sends: with VEN = 1 it carries a tag with VID and PCP (R405). -/
def frameHdr (x : Nat) (dst : Option (BitVec 48)) (d : Dev) : FrameHdr :=
  ⟨BitVec.ofNat 48 (ownMac x d), dst,
    if d.flag (NT_PCFG_VEN x) then some (BitVec.ofNat 12 (d.get (NT_PCFG_VID x)), BitVec.ofNat 3 (d.get (NT_PCFG_PCP x))) else none⟩

/-- PTP runs on a port: enabled, up, the frame accepted at an address of Table 10.4, and SUP0 running for its servo (R277, R343, R405).
Log entry 80 (DEDUCED). -/
def ptpOn (x : Nat) (e : EthHdr) (d : Dev) : Bool :=
  d.bit TM_CFG_PORTEN x && netUp x d && ethOk x etPTP e d && (e.dst == ptpMac || e.dst == ptpPeerMac) && d.bit SV_STAT_RUN 0

/-- An ignored PTP message (Table 10.4). -/
def ptpIgnore (d : Dev) : Dev := d.bump TM_CNT_IGNCNT

/-- The state of a PTP port. -/
def ptpPort (x : Nat) (d : Dev) : PtpPort := if x = 0 then d.tm.port0 else d.tm.port1

/-- Replace the state of a PTP port. -/
def setPtpPort (x : Nat) (p : PtpPort) (d : Dev) : Dev :=
  if x = 0 then { d with tm := { d.tm with port0 := p } } else { d with tm := { d.tm with port1 := p } }

/-- Receive stamp corrected to the reference plane (R278), in 2^-16 ns. -/
def ptpRx (x : Nat) (t : Int) (d : Dev) : Int :=
  t - (if d.flag (NT_PCFG_MODE x) then 11534336 else 2726298) + d.getS (TM_PCOR_INGCOR x) * 4096

/-- Transmit stamp corrected to the reference plane (R278), in 2^-16 ns. -/
def ptpTx (x : Nat) (t : Int) (d : Dev) : Int :=
  t + (if d.flag (NT_PCFG_MODE x) then 7864320 else 1887437) + d.getS (TM_PCOR_EGRCOR x) * 4096

/-- The comparison of two masters, lower is better: priority1, class, accuracy, variance, priority2, identity, then steps
removed and source port. Log entry 23 (PRESUMED). -/
def annRank (a : Announce) : List Nat :=
  [a.priority1.toNat, a.clockClass.toNat, a.accuracy.toNat, a.variance.toNat, a.priority2.toNat, a.gmId.toNat,
    a.stepsRemoved.toNat, a.srcPort.toNat, a.port.val]

/-- Lexicographic order of two ranks. Log entry 23 (PRESUMED). -/
def rankLt : List Nat → List Nat → Bool
  | a :: as, b :: bs => decide (a < b) || (decide (a = b) && rankLt as bs)
  | _, _ => false

/-- The better of the masters heard on the two ports. Log entry 23 (PRESUMED). -/
def bestMaster (d : Dev) : Option Announce :=
  match d.tm.port0.master, d.tm.port1.master with
  | none, m => m
  | m, none => m
  | some a, some b => if rankLt (annRank b) (annRank a) then some b else some a

/-- Show the selected master, and start the servo from FREE (R277, R279, Table 10.6). Log entry 23 (PRESUMED). -/
def selectMaster (d : Dev) : Dev :=
  match bestMaster d with
  | none => d
  | some m =>
    let d := d.put TM_STAT_PORT m.port.val
    let d := (d.put TM_UTC_UTCOFS m.utcOfs.toNat).putB TM_UTC_UTCV m.utcValid
    let d := if d.tm.gm = some m.gmId then d
      else
        let d := (d.put (TM_GMID_ID 0) (m.gmId.toNat % 2 ^ 32)).put (TM_GMID_ID 1) (m.gmId.toNat / 2 ^ 32)
        ({ d with tm := { d.tm with gm := some m.gmId } }).raise TM_EVT_MASTCHG .notice
    if d.get TM_STAT_STATE = svFREE then
      ({ d with tm := { d.tm with lockRun := 0, badRun := 0 } }).put TM_STAT_STATE svACQUIRE
    else d

/-- An Announce message: domain and interval are tested, the better master is kept (R277). -/
def ptpAnnounce (m : Announce) (d : Dev) : Dev :=
  if ¬ ptpOn m.port.val m.eth d then d
  else if m.domain.toNat ≠ d.get TM_CFG_DOMAIN then ptpIgnore d
  else if m.logInterval < -4 ∨ 1 < m.logInterval then d
  else
    let p := ptpPort m.port.val d
    let keep := match p.master with
      | none => m
      | some a => if a.srcPort = m.srcPort ∨ rankLt (annRank m) (annRank a) then m else a
    selectMaster (setPtpPort m.port.val { p with master := some keep } d)

/-- What the servo does to the timebase for an offset of `ofs`, in 2^-16 ns, by writes of SUP0 (R279, R280, R350): frequency by CORR;
an offset of at most JMAX is slewed, for a larger one a jump is requested in IDLE. Log entry 90 (DESIGN CHOICE). -/
def servoAct (ofs : Int) (big : Bool) (d : Dev) : Dev :=
  let d := (wrTmIncr .sup (BitVec.ofInt 32 (satI (Config.servoCorr d.cyc (d.get TM_CNT_SYNCCNT)).toInt (-0xD1B71) 0xD1B71)) d).2
  if ¬ big then (wrTmAdj .sup (BitVec.ofInt 32 (satS 32 (rdiv (-ofs) 4096 - Int.tdiv d.tm.slew (2 ^ 28)))) d).2
  else if d.mode = modeIDLE then
    let us := ofS 48 (Int.tdiv (-ofs) 65536000)
    (wrTmJumpLo .sup (BitVec.ofNat 32 us) (wrTmJumpHi .sup (BitVec.ofNat 32 (us / 2 ^ 32)) d).2).2
  else d

/-- The state the servo takes on one offset of `ns` nanoseconds (R281, Table 10.6). -/
def servoState (ns : Int) (big : Bool) (d : Dev) : Dev :=
  let lockTh := d.get TM_SRVCFG_LOCKTH
  let st := d.get TM_STAT_STATE
  if st = svACQUIRE then
    let n := if ns.natAbs ≤ lockTh then d.tm.lockRun + 1 else 0
    let d := { d with tm := { d.tm with lockRun := n, badRun := 0 } }
    if 16 ≤ n then d.put TM_STAT_STATE svLOCKED else d
  else if st = svLOCKED then
    let n := if 4 * lockTh < ns.natAbs then d.tm.badRun + 1 else 0
    let d := { d with tm := { d.tm with badRun := n, lockRun := 0 } }
    if 4 ≤ n then ({ d with tm := { d.tm with badRun := 0 } }).put TM_STAT_STATE svACQUIRE else d
  else if st = svHOLDOVER ∧ (¬ big ∨ d.mode = modeIDLE) then
    ({ d with tm := { d.tm with lockRun := 0, badRun := 0 } }).put TM_STAT_STATE svACQUIRE
  else d

/-- The servo steers the timebase (Table 10.6). -/
def servoSteers (d : Dev) : Bool := d.get TM_STAT_STATE == svACQUIRE || d.get TM_STAT_STATE == svLOCKED

/-- TM_PDLY shows the mean path delay of port `x` (R279). -/
def pdlyShow (x : Nat) (d : Dev) : Dev := d.put TM_PDLY_PDLY (satU 32 (rdiv (ptpPort x d).pdly 4096))

/-- The servo takes one offset, in 2^-16 ns (R279, R280, R281, Table 10.6). -/
def servoOffset (ofs : Int) (d : Dev) : Dev :=
  let ns := rdiv ofs 65536
  let d := pdlyShow (d.get TM_STAT_PORT) ((d.putS TM_OFS_OFS (satS 32 ns)).count TM_CNT_SYNCCNT)
  let big := decide ((d.get TM_JMPCFG_JMAX * 1000 : Nat) < ns.natAbs)
  let d := { d with tm := { d.tm with ofsBig := big } }
  if big && d.converting && servoSteers d then jumpRefused { d with tm := { d.tm with lockRun := 0 } }
  else
    let d := servoState ns big d
    if servoSteers d then servoAct ofs big d else d

/-- Whether port `x` serves a selected master. -/
def ptpServes (x : Nat) (d : Dev) : Bool := d.tm.gm.isSome && d.get TM_STAT_PORT == x

/-- A Sync: one-step gives the offset at once, two-step waits for its Follow_Up (R277, R279). -/
def ptpSync (x : Nat) (e : EthHdr) (dom : Nat) (li : Int) (two : Bool) (seq : BitVec 16) (origin corr rx : Int)
    (d : Dev) : Dev :=
  if ¬ ptpOn x e d then d
  else if dom ≠ d.get TM_CFG_DOMAIN then ptpIgnore d
  else if li < -4 ∨ 1 < li then d
  else if ¬ ptpServes x d then d
  else
    let p := ptpPort x d
    let t2 := ptpRx x rx d
    if two then setPtpPort x { p with syncSeq := some (seq, t2, corr) } d
    else servoOffset (t2 - origin - corr - p.pdly) (setPtpPort x { p with syncSeq := none } d)

/-- A Follow_Up of the Sync that waits (R277). -/
def ptpFollowUp (x : Nat) (e : EthHdr) (dom : Nat) (seq : BitVec 16) (origin corr : Int) (d : Dev) : Dev :=
  if ¬ ptpOn x e d then d
  else if dom ≠ d.get TM_CFG_DOMAIN then ptpIgnore d
  else
    let p := ptpPort x d
    match p.syncSeq with
    | none => d
    | some (s, t2, c0) =>
      if s = seq ∧ ptpServes x d then
        servoOffset (t2 - origin - c0 - corr - p.pdly) (setPtpPort x { p with syncSeq := none } d)
      else d

/-- A Pdelay_Req is answered two-step with both corrected stamps (Table 10.4, R278). -/
def ptpPdelayReq (x : Nat) (e : EthHdr) (dom : Nat) (seq : BitVec 16) (src : BitVec 80) (rx tx : Int) (d : Dev) : Dev :=
  if ¬ ptpOn x e d then d
  else if dom ≠ d.get TM_CFG_DOMAIN then ptpIgnore d
  else
    let h := frameHdr x (some ptpPeerMac) d
    (d.send (.pdelayResp x h seq.toNat src (ptpRx x rx d))).send (.pdelayRespFollowUp x h seq.toNat src (ptpTx x tx d))

/-- A Pdelay_Resp or its follow-up: with both the mean path delay is ((t4 − t1) − (t3 − t2) − corrections) / 2 (R279). -/
def ptpPdelayResp (x : Nat) (e : EthHdr) (dom : Nat) (seq : BitVec 16) (fu : Bool) (t corr rx : Int) (d : Dev) : Dev :=
  if ¬ ptpOn x e d then d
  else if dom ≠ d.get TM_CFG_DOMAIN then ptpIgnore d
  else
    let p := ptpPort x d
    if seq.toNat ≠ p.reqSeq % 2 ^ 16 then d
    else if fu then
      match p.respSeen with
      | none => d
      | some acc =>
        let dly := rdiv (acc - t - corr) 2
        let d := setPtpPort x { p with respSeen := none, pdly := dly } d
        if d.get TM_STAT_PORT = x then pdlyShow x d else d
    else setPtpPort x { p with respSeen := some (ptpRx x rx d - p.reqTx + t - corr) } d

/-- A Pdelay_Req leaves with its corrected stamp (Table 10.4). -/
def ptpPdelaySend (x : Nat) (tx : Int) (d : Dev) : Dev :=
  if d.bit TM_CFG_PORTEN x && netUp x d && d.bit SV_STAT_RUN 0 then
    let p := ptpPort x d
    let sq := (p.reqSeq + 1) % 2 ^ 16
    (setPtpPort x { p with reqSeq := sq, reqTx := ptpTx x tx d, respSeen := none } d).send
      (.pdelayReq x (frameHdr x (some ptpPeerMac) d) sq)
  else d

/-- The serving master is lost: its port forgets it, and the best master that is left serves (R277). -/
def masterLost (d : Dev) : Dev :=
  let x := d.get TM_STAT_PORT
  let d := if d.tm.gm.isSome then setPtpPort x { ptpPort x d with master := none } d else d
  if (bestMaster d).isSome then d else { d with tm := { d.tm with gm := none } }

/-- No master or no Sync for ANNTO announce intervals (Table 10.6); SUP0's servo acts on it (R343). -/
def ptpTimeout (lost : Bool) (d : Dev) : Dev :=
  if ¬ d.bit SV_STAT_RUN 0 then d
  else
    let d := if lost then masterLost d else d
    let st := d.get TM_STAT_STATE
    let d := if st = svLOCKED then servoHoldover d
      else if st = svACQUIRE ∧ lost ∧ d.tm.gm.isNone then d.put TM_STAT_STATE svFREE
      else d
    if lost then selectMaster d else d

/-- Holdover has lasted HOMAX seconds (R281); SUP0's servo counts them (R343). -/
def holdoverExpired (d : Dev) : Dev :=
  if d.get TM_STAT_STATE = svHOLDOVER ∧ d.bit SV_STAT_RUN 0 then d.raise TM_EVT_HOEXP .service else d

end Sys2Proof.Machine
end

