-- ==== Sys2Proof/Machine/Clocks.lean ====
section
/-! DEFINITION. The reference monitor and the two PLLs (R262-R269, Table 10.2, Table 10.3). -/

namespace Sys2Proof.Machine

/-- The state of a PLL. -/
def pllOf (p : Pll) (d : Dev) : PllSt := match p with
  | .t => d.tm.pllT
  | .s => d.tm.pllS

/-- Change the state of a PLL. -/
def onPll (p : Pll) (f : PllSt → PllSt) (d : Dev) : Dev := match p with
  | .t => { d with tm := { d.tm with pllT := f d.tm.pllT } }
  | .s => { d with tm := { d.tm with pllS := f d.tm.pllS } }

/-- The registers of a PLL (Table 10.5). -/
def pllLockFld (p : Pll) : Fld := match p with
  | .t => PL_STAT_TLOCK
  | .s => PL_STAT_SLOCK
def pllPendFld (p : Pll) : Fld := match p with
  | .t => PL_STAT_TPEND
  | .s => PL_STAT_SPEND
def pllLolFld (p : Pll) : Fld := match p with
  | .t => PL_EVT_TLOL
  | .s => PL_EVT_SLOL
def pllUpdFld (p : Pll) : Fld := match p with
  | .t => PL_TCTL_UPD
  | .s => PL_SCTL_UPD
def pllBandFld (p : Pll) : Fld := match p with
  | .t => PL_TCTL_BAND
  | .s => PL_SCTL_BAND
def pllNint (p : Pll) : Fld := match p with
  | .t => PL_TDIV0_NINT
  | .s => PL_SDIV0_NINT
def pllRefm (p : Pll) : Fld := match p with
  | .t => PL_TDIV0_REFM
  | .s => PL_SDIV0_REFM
def pllNfrac (p : Pll) : Fld := match p with
  | .t => PL_TDIV1_NFRAC
  | .s => PL_SDIV1_NFRAC

/-- TPEND and SPEND: the shadow set differs from the active set (R264). -/
def pllPend (p : Pll) (d : Dev) : Dev :=
  let x := pllOf p d
  d.putB (pllPendFld p) (d.get (pllNint p) != x.nint || d.get (pllRefm p) != x.refm || d.get (pllNfrac p) != x.nfrac)

/-- The shadow set becomes the active one in one step (R264). Log entry 62 (DEDUCED). -/
def pllApply (p : Pll) (d : Dev) : Dev :=
  pllPend p ((onPll p (fun x => { x with
    refm := d.get (pllRefm p), nint := d.get (pllNint p), nfrac := d.get (pllNfrac p), updPend := false }) d).put (pllUpdFld p) 0)

/-- What a gated output does beyond the PLL (Table 10.3): in IDLE PLL-T stops the timebase; in LOAD and CHECK, once the PLL
folio has been applied, the self-test has failed; while converting, STOP. `fault` says that lock or the reference was lost. -/
def gateEffect (p : Pll) (fault : Bool) (d : Dev) : Dev :=
  if d.mode = modeIDLE then
    (match p with
      | .t => (d.put TM_STAT_STATE svFREE).put TM_STAT_TODV 0
      | .s => d)
  else if ¬ fault then d
  else if d.mode = modeLOAD ∨ d.mode = modeCHECK then (if d.tm.pllLoaded then d.raise FC_CHIP_BOOT .stop else d)
  else if d.converting then d.raise FC_CHIP_CLKSTOP .stop
  else d

/-- Without PLL-S no block leaves any more: what the lanes were sending ends (R267). -/
def lanesUnclocked (d : Dev) : Dev :=
  foldN 130 (fun d l =>
    if d.lnState l = lnDOWN ∨ d.flag (LN_STAT_TXSLEPT l) then d
    else (d.onLane l fun x => { x with sof := none }).send (.quiet l)) d

/-- The output is gated: its lock bit clears and its queue of steps is emptied (R266, R269), and with PLL-S the lanes fall silent.
Log entry 62 (DEDUCED). -/
def pllGate (p : Pll) (d : Dev) : Dev :=
  let d := match p with
    | .t => d
    | .s => if d.flag PL_STAT_SLOCK then lanesUnclocked d else d
  (onPll p (fun x => { x with seq := 0, steps := 0, stepGap := 0 }) d).put (pllLockFld p) 0

/-- A lock sequence starts while the reference is qualified; a pending update is applied first (R265, R268).
Log entry 29 (DEDUCED). -/
def pllStart (p : Pll) (d : Dev) : Dev :=
  if ¬ d.flag PL_STAT_REFOK then d
  else
    let d := if (pllOf p d).updPend then pllApply p d else d
    onPll p (fun x => { x with seq := 1 }) d

/-- The reference is lost (R262, R266). Log entry 29 (DEDUCED). -/
def referenceLost (d : Dev) : Dev :=
  if ¬ d.flag PL_STAT_REFOK then d
  else
    let d := (d.put PL_STAT_REFOK 0).raise PL_EVT_REFLOS .service
    gateEffect .s true (gateEffect .t true (pllGate .s (pllGate .t d)))

/-- The reference is qualified: both PLLs start a lock sequence (R262, R265). -/
def referenceQualified (d : Dev) : Dev :=
  if d.flag PL_STAT_REFOK then d
  else pllStart .s (pllStart .t (d.put PL_STAT_REFOK 1))

/-- The band search is complete (Table 10.2 step 2). -/
def bandFound (p : Pll) (band : Nat) (d : Dev) : Dev :=
  if (pllOf p d).seq = 1 then (onPll p (fun x => { x with seq := 2 }) d).put (pllBandFld p) band else d

/-- No lock within 4,096 PFD cycles: the sequence restarts; in the first sequence after the folio the self-test has failed
(Table 10.2 step 4, Table 10.3). -/
def lockFailed (p : Pll) (d : Dev) : Dev :=
  if (pllOf p d).seq ≠ 2 then d
  else
    let d := pllStart p (onPll p (fun x => { x with seq := 0 }) d)
    if (d.mode = modeLOAD ∨ d.mode = modeCHECK) ∧ d.tm.pllLoaded then d.raise FC_CHIP_BOOT .stop else d

/-- Lock is lost (R266): a new sequence starts at once while the reference is qualified. Log entry 29 (DEDUCED). -/
def lockLost (p : Pll) (d : Dev) : Dev :=
  if (pllOf p d).seq ≠ 3 then d
  else pllStart p (gateEffect p true (pllGate p (d.raise (pllLolFld p) .service)))

/-- Lock is declared and the output ungated (Table 10.2 step 3); at a lock of PLL-T the servo is FREE (Table 10.6). -/
def lockFound (p : Pll) (d : Dev) : Dev :=
  if (pllOf p d).seq = 2 then
    let d := (onPll p (fun x => { x with seq := 3 }) d).put (pllLockFld p) 1
    match p with
    | .t => d.put TM_STAT_STATE svFREE
    | .s => d
  else d

/-- UPD (R264, R268): the shadow set is applied and a lock sequence starts; while the reference is not qualified the update stays
pending. Log entry 62 (DEDUCED). -/
def pllUpdate (p : Pll) (d : Dev) : Dev :=
  if d.flag PL_STAT_REFOK then pllStart p (gateEffect p false (pllGate p (pllApply p d)))
  else (onPll p (fun x => { x with updPend := true }) (pllPend p d)).put (pllUpdFld p) 1

/-- Write of PL_xCTL (R264): UPD is accepted in IDLE only, and a 0 has no effect (R434). Log entry 62 (DEDUCED). -/
def wrPllCtl (o : Origin) (p : Pll) (w : Word) (d : Dev) : Bool × Dev :=
  shellWrite o .pll (d.mode == modeIDLE && !(bitOf w.toNat 0 && d.flag (pllUpdFld p)))
    (fun d => if bitOf w.toNat 0 then pllUpdate p d else d) d

/-- Write of PL_xDIV0 (R264, Table 10.5). -/
def wrPllDiv0 (o : Origin) (p : Pll) (w : Word) (d : Dev) : Bool × Dev :=
  let v := w.toNat
  shellWrite o .pll (d.mode == modeIDLE && decide (16 ≤ v % 2 ^ 10) && bitsOf v 10 2 != 3)
    (fun d => pllPend p ((d.put (pllNint p) v).put (pllRefm p) (bitsOf v 10 2))) d

/-- Write of PL_xDIV1. -/
def wrPllDiv1 (o : Origin) (p : Pll) (w : Word) (d : Dev) : Bool × Dev :=
  shellWrite o .pll (d.mode == modeIDLE) (fun d => pllPend p (d.put (pllNfrac p) w.toNat)) d

/-- Write of PL_SPHS (R269): the count joins the queue, saturating at ±127; a gated output keeps none. -/
def wrSphs (o : Origin) (w : Word) (d : Dev) : Bool × Dev :=
  shellWrite o .pll true (fun d =>
    if d.flag PL_STAT_SLOCK then onPll .s (fun x => { x with steps := satI (x.steps + toS 8 w.toNat) (-127) 127 }) d else d) d

end Sys2Proof.Machine
end

