-- ==== Sys2Proof/Machine/Cells.lean ====
section
/-! DEFINITION. The cell engines of chapter 2: report intake (R67-R68), the capacitor-voltage observer (R69-R72), the estimator
(R73-R74), the states of Table 2.2, and the diagnostics of R76 and R119-R123. -/

namespace Sys2Proof.Machine

/-- Engine states (Table 2.1) and cell states (Table 4.1). -/
def ceUNREG : Nat := 0
def ceREG : Nat := 1
def ceHEALTHY : Nat := 2
def ceSUSPECT : Nat := 3
def ceBYPASSED : Nat := 4
def ceRETIRED : Nat := 5

def stBLOCK : Nat := 0
def stBYPASS : Nat := 1
def stPOS : Nat := 2
def stNEG : Nat := 3
def stSOFT : Nat := 4

/-- The state of an engine. -/
def Dev.ceState (d : Dev) (n : Nat) : Nat := d.get (CE_STAT_STATE n)

/-- The region of a cell. -/
def Dev.cellRegion (d : Dev) (n : Nat) : Option Nat :=
  if n % 128 < d.get (QU_CFG_NPOS (n / 128)) then d.quireRegion (n / 128) else none

/-- A position code of RG_MODCFG1 or RG_MODCFG2 in ticks after the boundary (R96). -/
def planTick (code : Nat) (d : Dev) : Nat := code * d.T / 64

/-- Tick `tk` of the period lies after a position of it; the positions of a gap period count from N − T (R274). -/
def pastPos (code tk : Nat) (d : Dev) : Bool := decide (d.posBase + planTick code d < d.tm.bj + tk)

/-! ## Estimates kept in two registers (Table 2.13) -/

def cestOf (n : Nat) (d : Dev) : Nat := d.get (CE_EST_CEST n) + 2 ^ 15 * d.get (CE_WEAR_CEST15 n)
def resrOf (n : Nat) (d : Dev) : Nat := d.get (CE_EST_RESR n) + 2 ^ 15 * d.get (CE_WEAR_RESR15 n)
def putCest (n v : Nat) (d : Dev) : Dev := (d.put (CE_EST_CEST n) v).put (CE_WEAR_CEST15 n) (v / 2 ^ 15)
/-- Log entry 37 (DEDUCED). -/
def putResr (n v : Nat) (d : Dev) : Dev := (d.put (CE_EST_RESR n) v).put (CE_WEAR_RESR15 n) (v / 2 ^ 15)

/-- RRATIO in all its bits (R74); CE_WEAR shows 14 of them. -/
def ceRratio (n : Nat) (d : Dev) : Nat := satU 16 (rdiv ((resrOf n d * 2 ^ 12 : Nat) : Int) (d.get (CE_CFG0_RNOM n)))

/-! ## Charge (R70) -/

/-- Charge of a segment `[a, b)` in nC. -/
def segCharge (a b : Nat) (i0 i1 : Int) (t state : Nat) (fullb : Bool) (isup : Nat) : Int :=
  let im := i0 + rdiv ((i1 - i0) * ((a + b : Nat) : Int)) (2 * t)
  let mag : Int :=
    if state = stPOS then im
    else if state = stNEG then -im
    else if state = stBYPASS then 0
    else if fullb then (im.natAbs : Int)
    else if 0 < im then im else 0
  mag * ((b - a : Nat) : Int) - rdiv ((isup * (b - a) : Nat) : Int) 50

/-- The segments of a period: a segment ends at every instant at which the state changes (R70, R82). -/
def segParts (s : Seg) (t : Nat) : List (Nat × Nat × Nat) :=
  let raw : List (Nat × Nat) := match s.tb with
    | none => [(0, s.s0), (s.ta, s.sa)]
    | some (tb, sb) => [(0, s.s0), (s.ta, s.sa), (max s.ta tb, sb)]
  let step := fun (acc : List (Nat × Nat)) (x : Nat × Nat) => match acc with
    | [] => [x]
    | y :: r => if y.1 = x.1 then (match r with
        | [] => [x]
        | z :: _ => if z.2 = x.2 then r else x :: r)
      else if y.2 = x.2 then acc else x :: acc
  let starts := (raw.foldl step []).reverse
  let ends := (starts.drop 1).map (fun x => x.1) ++ [t]
  (starts.zip ends).map fun x => (x.1.1, x.2, x.1.2)

/-- Charge over `[x, y)` of a period with boundary currents `i0` and `i1`. -/
def spanCharge (s : Seg) (x y : Nat) (i0 i1 : Int) (t : Nat) (fullb : Bool) (isup : Nat) : Int :=
  (segParts s t).foldl (fun q p =>
    let a := max p.1 x
    let b := min p.2.1 y
    if a < b then q + segCharge a b i0 i1 t p.2.2 fullb isup else q) 0

/-- The state at the end of a period. -/
def segEnd (s : Seg) : Nat := match s.tb with
  | none => s.sa
  | some (_, sb) => sb

/-- Charge as a voltage in uQ12.12. -/
def chargeDv (q : Int) (cest : Nat) : Int := rdiv (q * 4096) (1000 * cest)

/-- `spanCharge` with the cell's own settings. -/
def cellCharge (n : Nat) (s : Seg) (x y : Nat) (i0 i1 : Int) (d : Dev) : Int :=
  spanCharge s x y i0 i1 d.T (d.flag (CE_CFG1_FULLB n)) (d.get (CE_CFG1_ISUP n))

/-! ## Identity, registration and the capability check (R65, R123, R184) -/

/-- The identity in the registers. -/
def ceIdent (n : Nat) (d : Dev) : BitVec 64 := BitVec.ofNat 64 (d.get (CE_IDLO_ID n) + 2 ^ 32 * d.get (CE_IDHI_ID n))

/-- Whether a capability word fails the check (R123). -/
def capBad (n cap : Nat) (d : Dev) : Bool :=
  let tmin := match d.quireRegion (n / 128) with
    | some g => d.get (RG_MODCFG2_TMIN g)
    | none => 0
  (bitOf cap 0 != d.flag (CE_CFG1_FULLB n)) || decide (tmin < bitsOf cap 1 11)

/-- A window of the estimator starts (R73). -/
def estRestart (n : Nat) (d : Dev) : Dev :=
  d.onCell n fun c => { c with win := 0, nc := 0, nr := 0, sqv := 0, sqq := 0, sex := 0, sxx := 0, vmin := 0xFFFF, vmax := 0 }

/-- The estimator starts from nominal (R73); with the estimates, which are no window's, CVALID and RVALID read 0 and the ratios those of
the nominal values: log entry 86 (DEDUCED). -/
def estNominal (n : Nat) (d : Dev) : Dev :=
  let d := putResr n (d.get (CE_CFG0_RNOM n)) (putCest n (d.get (CE_CFG0_CNOM n)) d)
  let d := ((d.put (CE_EST_CVALID n) 0).put (CE_EST_RVALID n) 0)
  let d := (d.put (CE_WEAR_CRATIO n) 0x8000).put (CE_WEAR_RRATIO n) 0x1000
  estRestart n d

/-- A cause for BYPASSED; SUSPECT timeout gives way to the others (R65), and a capability or IDENT mismatch or a forced bypass shows as
cause 5 whatever else comes (R123). Of a cell fault and the capacitance floor the one that comes last shows: log entry 87 (DESIGN
CHOICE). -/
def bypassTrig (n cause : Nat) (d : Dev) : Dev :=
  d.onCell n fun c => if (cause = 3 ∧ c.tByp ≠ 0) ∨ c.tByp = 5 then c else { c with tByp := cause }

/-- A squash cause CELL counts from the report deadline up to CP (R97). -/
def squashCell (n : Nat) (d : Dev) : Dev :=
  match d.cellRegion n with
  | some g => d.onRegion g fun r => if r.rdlPast && !r.cpPast then { r with cCell := true } else r
  | none => d

/-- A cell leaves the base set or the trim place of a plan in preparation by becoming not selectable (Table 3.4). -/
def squashUnsel (n : Nat) (d : Dev) : Dev :=
  match d.cellRegion n with
  | some g =>
    let used := [(d.region g).chA, (d.region g).chB, (d.region g).chC].any fun c => match c.ra with
      | some k => k.p.base.contains n || k.p.trim == some n
      | none => false
    if used then squashCell n d else d
  | none => d

/-- A registration record is delivered to its engine (R184): recorded whatever transition follows (R65). A changed identity
restarts the estimator and, at a calibrated position, the calibration. -/
def registerCell (n : Nat) (id : BitVec 64) (cap : Nat) (d : Dev) : Dev :=
  if d.ceState n = ceRETIRED ∨ d.cellRegion n = none then d
  else
    let c := d.cell n
    let changed := c.known && ceIdent n d != id
    let d := (d.put (CE_IDLO_ID n) (id.toNat % 2 ^ 32)).put (CE_IDHI_ID n) (id.toNat / 2 ^ 32)
    let d := d.put (CE_STAT_REGCNT n) (d.get (CE_STAT_REGCNT n) + 1)
    let d := [48, 49, 50, 51, 53, 54, 55, 56, 57].foldl (fun d k => d.telCount n k 0) (d.telCount n 52)
    let d := (d.tel n 66 (id.toNat % 2 ^ 32)).tel n 67 (id.toNat / 2 ^ 32)
    let bad := capBad n cap d
    let d := if changed then estNominal n (d.raise (CE_HEALTH_IDCHG n) .notice) else d
    let d := d.onCell n fun c => { c with reg := some (id, !bad), known := true }
    let d := if bad ∧ d.ceState n ≠ ceUNREG then bypassTrig n 5 d else d
    if c.calId.isSome && c.calId != some id then
      let d := squashUnsel n d
      let p := n % 128
      let d := [2 * (n / 128), 2 * (n / 128) + 1].foldl (fun d l =>
        d.setPosD l p { d.posD l p with valid := false, calN := 0, calSum := 0, rep := none, bad := 0, newD := none }) d
      calPump (2 * (n / 128) + 1) (calPump (2 * (n / 128)) (d.onCell n fun c => { c with calId := none }))
    else calPump (2 * (n / 128) + 1) (calPump (2 * (n / 128)) d)

/-! ## Report intake (R67, R68, R71, R73) -/

/-- Confirmation of the two-step block by an accepted report (R127): only the first one captured at or after the step 3
instant counts, and only if it is accepted by the latest time of step 4. -/
def blockConfirm (n cap stcap : Nat) (d : Dev) : Dev :=
  match d.cellRegion n with
  | none => d
  | some g =>
    match (d.region g).ovr with
    | none => d
    | some o =>
      let step3 := o.t0 * d.T + 2 * (250 * d.get (RG_BLKCFG_TSTEP g))
      if (d.cell n).owes ≠ 1 ∨ cap < step3 ∨ step3 + d.get (RG_BLKCFG_CONFN g) * d.T < d.nowTick then d
      else
        let ok := stcap == stBLOCK || (stcap == stBYPASS && d.ceState n == ceBYPASSED)
        let d := d.onCell n fun c => { c with owes := if ok then 0 else 2 }
        if (d.cellsOf g).all fun m => (d.cell m).owes == 0 then d.put (RG_BLKSTAT_CONF g) 1 else d

/-- What an accepted report does (R67, R68, R71, R73): `capofs` is already corrected by R169.
Log entries 35 (DEDUCED), 36 (DEDUCED). -/
def acceptReport (n : Nat) (raw : Nat) (capofs : Nat) (late : Bool) (d : Dev) : Dev :=
  match d.cellRegion n with
  | none => d
  | some g =>
    let r := d.region g
    let c := d.cell n
    let vcap := bitsOf raw 0 16
    let st := bitsOf raw 40 3
    let q := c.qAcc + cellCharge n c.prev c.ancOfs capofs r.ib0 r.ib1 d
    let vh : Int := d.get (CE_VHAT_VHAT n)
    let prior := vh + chargeDv q (cestOf n d)
    let vm : Int := vcap * 256
    let iat := rdiv (r.ib0 * d.T + (r.ib1 - r.ib0) * capofs) d.T
    let x : Int := if st = stPOS then iat else if st = stNEG then -iat else 0
    let drop := rdiv (x * resrOf n d * 512) 25000
    let innov := (vm - drop) - prior
    let v := if c.first then vm - drop else prior + rdiv ((d.get (CE_CFG1_LGAIN n) : Int) * innov) 256
    let healthy := d.ceState n = ceHEALTHY
    let dv : Int := (vcap : Int) - (c.lastByp.getD 0 : Nat)
    let pairOk := healthy && st == stBYPASS && c.lastByp.isSome && !c.first && decide (d.get (CE_CFG3_QMIN n) * 100000 ≤ absN q)
    let e := vm - prior
    let esrOk := healthy && (st == stPOS || st == stNEG) && !c.first && decide (d.get (CE_CFG4_IMIN n) ≤ absN x)
    let same := c.stuckN != 0 && c.stuckV == vcap
    let fresh := if late then c.freshRun else c.freshRun + 1
    let need := if d.ceState n = ceREG then d.get (CE_CFG2_NINIT n) else d.get (CE_CFG2_NREC n)
    let c := { c with
      qAcc := 0
      ancOfs := capofs
      first := false
      got := true
      innov := innov
      freshRun := fresh
      tHealthy := c.tHealthy || (!late && decide (need ≤ fresh))
      stuckV := vcap
      stuckN := if same then c.stuckN + 1 else 1
      stuckQ := if same then (q :: c.stuckQ).take (d.get (CE_CFG2_NSTUCK n) - 1) else []
      lastByp := if st = stBYPASS then some vcap else none
      nc := if pairOk then c.nc + 1 else c.nc
      sqv := if pairOk then c.sqv + q * dv else c.sqv
      sqq := if pairOk then c.sqq + q * q else c.sqq
      nr := if esrOk then c.nr + 1 else c.nr
      sex := if esrOk then c.sex + e * x else c.sex
      sxx := if esrOk then c.sxx + x * x else c.sxx
      vmin := min c.vmin vcap
      vmax := max c.vmax vcap }
    let d := d.setCell n c
    let d := d.put (CE_VHAT_VHAT n) (satU 24 v)
    let d := foldN 4 (fun d i => d.put (CE_REP_REP n i) (bitsOf raw (32 * i) 32)) d
    let d := (d.put (CE_STAT_LASTSEQ n) (bitsOf raw 32 8)).put (CE_FRESH_MISSRUN n) 0
    let d := if late then (d.raise (CE_HEALTH_LATE n) .notice).telCount n 50 else d
    let d := if d.get (CE_CFG2_NSTUCK n) ≤ c.stuckN ∧ 4000 * cestOf n d ≤ 16 * absN (c.stuckQ.foldl (fun a x => a + x) 0) then
        let d := (d.raise (CE_HEALTH_STUCK n) .notice).telCount n 51
        d.onCell n fun c => { c with tSus := 2, freshRun := 0, tHealthy := false }
      else d
    let d := if bitsOf raw 64 6 ≠ 0 then
        squashCell n (bypassTrig n 4 (d.raise (CE_HEALTH_CELLFLT n) .service)) else d
    let d := if d.bit DR_SRCCFG_CELLRG g then
        d.source kCELLREP n (2 * (d.tm.bj - d.T + capofs)) raw else d
    blockConfirm n (d.tm.bj - d.T + capofs) st d

/-- A report reaches its engine at tick `tk` of the period (Table 2.3). A report with a wrong CHK is not received (R115),
and the copy on the other lane of one that has come is discarded (R176). Log entry 35 (DEDUCED). -/
def reportIn (n : Nat) (laneB : Bool) (raw tk : Nat) (d : Dev) : Dev :=
  match d.cellRegion n with
  | none => d
  | some g =>
    let st := d.ceState n
    if ¬ d.live ∨ st = ceUNREG ∨ st = ceRETIRED ∨ crc8 120 (raw % 2 ^ 120) ≠ raw / 2 ^ 120 then d
    else if (d.cell n).lastCopy = some (!laneB, raw) then d.onCell n fun c => { c with lastCopy := none }
    else
      let d := d.onCell n fun c => { c with lastCopy := some (laneB, raw) }
      let dist := (d.tm.jAbs + 511 - bitsOf raw 32 8) % 256
      if dist ≠ 0 then (d.raise (CE_HEALTH_STALE n) .notice).telCount n 49
      else if (d.cell n).got then d
      else
        let cap := satI ((bitsOf raw 16 16 : Int) - rdiv (d.cell n).prev.cor 16) 0 (d.T - 1 : Nat)
        let late := pastPos (d.get (RG_MODCFG1_RDL g)) tk d
        acceptReport n raw cap.toNat late d

/-! ## Prediction (R72) -/

/-- VPRED with boundary currents `ib0`, `ib1` of the region and the predicted `i1`. -/
def vpredOf (n : Nat) (ib0 ib1 i1 : Int) (d : Dev) : Nat :=
  let c := d.cell n
  let th := d.get (CE_CFG1_HOFS n) * d.T / 16
  let q := c.qAcc + cellCharge n c.prev c.ancOfs d.T ib0 ib1 d + cellCharge n c.cur 0 d.T ib1 i1 d +
    cellCharge n (segConst (segEnd c.cur)) 0 th i1 i1 d
  let v := (d.get (CE_VHAT_VHAT n) : Int) + chargeDv q (cestOf n d)
  satU 16 (rdiv v 256)

/-- A cell is selectable for a new plan (R64, R392). -/
def selectable (n : Nat) (d : Dev) : Bool :=
  d.ceState n == ceHEALTHY && decide ((d.cell n).diag < 2) && posValid n d && (d.cellRegion n).isSome

/-! ## Estimator window (R73, R74) -/

/-- End of a window, once EWIN periods of it have passed. Log entry 37 (DEDUCED). -/
def estWindow (n : Nat) (d : Dev) : Dev :=
  if d.ceState n ≠ ceHEALTHY ∨ (d.cell n).win + 1 < d.get (CE_CFG4_EWIN n) then d
  else
    let c := d.cell n
    let cnom := d.get (CE_CFG0_CNOM n)
    let rnom := d.get (CE_CFG0_RNOM n)
    let sh := 2 ^ d.get (CE_CFG1_ESTSH n)
    let cok := decide (16 ≤ c.nc) && decide (0 < c.sqv)
    let rok := decide (16 ≤ c.nr) && decide (0 < c.sex)
    let cw : Int := satU 16 (rdivI (16 * c.sqq) (1000 * c.sqv))
    let rw : Int := satU 16 (rdivI (25000 * c.sex) (512 * c.sxx))
    let ce : Int := cestOf n d
    let re : Int := resrOf n d
    let d := if cok then putCest n (satI (ce + rdiv (cw - ce) sh) (rdiv cnom 4) (2 * cnom : Nat)).toNat d else d
    let d := if rok then putResr n (satI (re + rdiv (rw - re) sh) (rdiv rnom 4) (16 * rnom : Nat)).toNat d else d
    let d := (d.putB (CE_EST_CVALID n) cok).putB (CE_EST_RVALID n) rok
    let cr := satU 16 (rdiv ((cestOf n d * 2 ^ 15 : Nat) : Int) cnom)
    let rr := ceRratio n d
    let d := (d.put (CE_WEAR_CRATIO n) cr).put (CE_WEAR_RRATIO n) (min rr 0x3FFF)
    let d := [(32, cestOf n d), (33, resrOf n d), (34, cr), (35, rr), (36, c.nc), (37, c.nr)].foldl
      (fun d p => d.tel n p.1 p.2) d
    let d := if c.vmax < c.vmin then (d.setPoint (pointId n 38) 0x80000000).setPoint (pointId n 39) 0x80000000 else (d.tel n 38 c.vmin).tel n 39 c.vmax
    let d := if cr < d.get (CE_CFG3_CLOW n) * 128 then d.raise (CE_HEALTH_CAGE n) .notice else d
    let d := if d.get (CE_CFG3_RHIGH n) * 256 < rr then d.raise (CE_HEALTH_RAGE n) .notice else d
    let d := if cr < d.get (CE_CFG3_CFLOOR n) * 128 then bypassTrig n 6 (d.raise (CE_HEALTH_CEOL n) .service) else d
    estRestart n d

/-! ## Diagnostics (R76, R120-R122) -/

/-- ARG bits to which Table 4.7 gives a meaning. -/
def diagArgOk (code arg : Nat) : Bool :=
  match code with
  | 1 => arg == 0
  | 2 => true
  | 3 => arg == 0
  | 4 => decide (arg < 32)
  | _ => false

/-- A code that is idle-only (Table 4.7). -/
def diagIdleOnly (code : Nat) : Bool := code == 2 || code == 3

/-- The region of a cell is in RUN. -/
def cellInRun (n : Nat) (d : Dev) : Bool := match d.cellRegion n with
  | some g => d.rgState g == rgRUN
  | none => false

/-- Engine state, region state and INRUN permit a code (R76, R120). -/
def diagPermits (n code : Nat) (inrun : Bool) (d : Dev) : Bool :=
  let st := d.ceState n
  if st = ceBYPASSED then code == 1
  else (st == ceREG || st == ceHEALTHY || st == ceSUSPECT) && (!cellInRun n d || (inrun && !diagIdleOnly code))

/-- Write of CE_DIAGREQ: GO submits CODE and ARG (R76, R120). -/
def wrDiagReq (o : Origin) (n : Nat) (w : Word) (d : Dev) : Bool × Dev :=
  let v := w.toNat
  let code := v % 16
  let go := bitOf v 5
  let arg := bitsOf v 16 16
  let ok := !go || (decide (1 ≤ code) && decide (code ≤ 4) && diagArgOk code arg && diagPermits n code (bitOf v 4) d &&
    ((d.cell n).diag == 0 || (d.cell n).diag == 3))
  shellWrite o .cell ok (fun d =>
    let d := ((d.put (CE_DIAGREQ_CODE n) code).putB (CE_DIAGREQ_INRUN n) (bitOf v 4)).put (CE_DIAGREQ_ARG n) arg
    if go then
      let d := (d.put (CE_DIAGRES_STATUS n) 1).put (CE_DIAGRES_CODE n) code
      d.onCell n fun c => if c.diag = 3 then { c with diag := 4, nCode := code, nArg := arg }
        else { c with diag := 1, dCode := code, dArg := arg }
    else d) d

/-- A diagnostic ends as ABORTED (R76). -/
def diagAbort (n : Nat) (d : Dev) : Dev :=
  let d := (d.put (CE_DIAGRES_STATUS n) 6).raise (CE_HEALTH_DIAGFAIL n) .notice
  (d.telCount n 55).onCell n fun c => { c with diag := 0 }

/-- The pending request falls due at the boundary: taken, or ended, by INRUN as it then stands (R76). Taking it clears the dwell carry
(R94); a hold whose result has come ends (R121). -/
def diagTake (n : Nat) (d : Dev) : Dev :=
  let d := d.onCell n fun c =>
    if c.diag = 3 then { c with diag := 0 }
    else if c.diag = 4 then { c with diag := 1, dCode := c.nCode, dArg := c.nArg }
    else c
  let c := d.cell n
  if c.diag ≠ 1 then d
  else if diagPermits n c.dCode (d.flag (CE_DIAGREQ_INRUN n)) d then
    let d := (d.put (CE_DIAGRES_STATUS n) 2).onCell n fun c => { c with diag := 2 }
    match d.cellRegion n with
    | some g => d.onRegion g fun r => { r with carry := smErase r.carry n }
    | none => d
  else diagAbort n d

/-- The timeout of a diagnostic (R121). -/
def diagTimedOut (n : Nat) (d : Dev) : Dev :=
  if (d.cell n).diag = 2 then (d.put (CE_DIAGRES_STATUS n) 5).onCell n fun c => { c with diag := 0 } else d

/-- A result event: stored in telemetry, and in CE_DIAGRES while the diagnostic holds the cell (R121, R122). Any 0x24 event is the
result of an XTEL that holds the cell, whatever its point, and its ARGW is the result word; one that no XTEL asked for is no diagnostic
result: log entry 88 (DESIGN CHOICE). An identity that differs restarts the estimator (R73). -/
def diagResult (n code argw data : Nat) (d : Dev) : Dev :=
  let d := if code = 4 ∧ ¬ ((d.cell n).diag = 2 ∧ (d.cell n).dCode = 4) then d else d.tel n 68 (d.nowNs / 10 ^ 9 % 2 ^ 31)
  let d := if code = 2 then d.tel n 64 argw
    else if code = 3 then d.tel n 65 argw
    else if code = 1 then (d.tel n 66 (data % 2 ^ 32)).tel n 67 (data / 2 ^ 32)
    else d
  let d := if code = 1 then
      let idBad := ceIdent n d != BitVec.ofNat 64 data
      let d := if idBad then estNominal n (d.raise (CE_HEALTH_IDCHG n) .notice) else d
      if (idBad || capBad n argw d) ∧ d.ceState n ≠ ceUNREG ∧ d.ceState n ≠ ceRETIRED then bypassTrig n 5 d else d
    else d
  let c := d.cell n
  if c.diag ≠ 2 ∨ c.dCode ≠ code then d
  else
    let fail := (code == 2 || code == 3) && bitOf argw 15
    let d := ((d.put (CE_DIAGRES_STATUS n) (if fail then 4 else 3)).put (CE_DIAGRES_CODE n) code).put (CE_DIAGRES_RESULT n) argw
    let d := if fail then d.raise (CE_HEALTH_DIAGFAIL n) .notice else d
    d.onCell n fun c => { c with diag := 3 }

/-! ## Events of a cell (R118, R119, R184) -/

/-- An accepted urgent event acts as a report with the matching cell-fault flag (R119, R65). An event is urgent by its code in Table 4.6,
whatever its URG bit says: log entry 96 (DESIGN CHOICE). -/
def urgentEvent (n rec_ : Nat) (d : Dev) : Dev :=
  let ecode := rec_ % 256
  if ecode = 0 ∨ 6 < ecode ∨ d.ceState n = ceUNREG ∨ d.ceState n = ceRETIRED then d
  else squashCell n (bypassTrig n 4 (d.raise (CE_HEALTH_CELLFLT n) .service))

/-- An event record delivered to its engine; `ns` is the event's instant (R169). A 0x24 event whose ARGW is no index of Table 4.6 is stored
in no point: log entry 96 (DESIGN CHOICE). -/
def cellEvent (n : Nat) (rec_ : Nat) (ns : Nat) (d : Dev) : Dev :=
  let ecode := rec_ % 256
  let argw := bitsOf rec_ 40 16
  let data := bitsOf rec_ 56 64
  let d := if d.flag DR_SRCCFG_CELLEVEN then d.source kCELLEV n ns rec_ else d
  if ecode = 0x30 then registerCell n (BitVec.ofNat 64 data) argw d
  else if ecode = 0x24 then
    let d := if 96 ≤ argw ∧ argw < 128 then d.tel n argw (data % 2 ^ 32) else d
    diagResult n 4 argw data d
  else if 0x21 ≤ ecode ∧ ecode ≤ 0x23 then diagResult n (ecode - 0x20) argw data d
  else d

/-! ## CE_CTL (R65, R66) -/

/-- Write of CE_CTL. -/
def wrCeCtl (o : Origin) (n : Nat) (w : Word) (d : Dev) : Bool × Dev :=
  let rel := bitOf w.toNat 0
  let byp := bitOf w.toNat 1
  let c := d.cell n
  let ok := (!rel || (d.ceState n == ceBYPASSED && !cellInRun n d && !c.tRel)) && (!byp || !d.flag (CE_CTL_BYPASS n))
  shellWrite o .cell ok (fun d =>
    let d := if rel then d.onCell n fun c => { c with tRel := true } else d
    if byp ∧ d.ceState n ≠ ceUNREG ∧ d.ceState n ≠ ceRETIRED then bypassTrig n 5 (d.put (CE_CTL_BYPASS n) 1) else d) d

/-- TSUS × 16 periods in SUSPECT have passed (Table 2.2). Log entry 39 (DEDUCED). -/
def suspectTimedOut (n : Nat) (d : Dev) : Dev :=
  if d.ceState n = ceSUSPECT ∧ 16 * d.get (CE_CFG2_TSUS n) ≤ (d.cell n).susp + 1 then bypassTrig n 3 d else d

/-- No engine is left for a cell number (R54). -/
def retireCell (n : Nat) (d : Dev) : Dev := d.onCell n fun c => { c with tRet := true }

/-! ## The engine at a period boundary (R65, R67) -/

/-- The missed-period rule at the end of a period. Log entry 38 (DEDUCED). -/
def missCheck (n : Nat) (d : Dev) : Dev :=
  let st := d.ceState n
  if st = ceUNREG ∨ st = ceRETIRED ∨ (d.cell n).got then d
  else
    let d := ((d.bump (CE_FRESH_MISSRUN n)).bump (CE_FRESH_MISSCNT n)).raise (CE_HEALTH_MISS n) .notice
    let d := (d.telCount n 48).onCell n fun c => { c with freshRun := 0, tHealthy := false }
    if (st = ceREG ∨ st = ceHEALTHY) ∧ d.get (CE_CFG2_NMISS n) ≤ d.get (CE_FRESH_MISSRUN n) then
      d.onCell n fun c => { c with tSus := if c.tSus = 0 then 1 else c.tSus }
    else d

/-- The transition an engine takes: target state and cause (Table 2.2, lowest applicable row). Log entry 38 (DEDUCED). -/
def engineNext (st : Nat) (c : CellSt) : Option (Nat × Nat) :=
  if c.tRet ∧ st ≠ ceRETIRED then some (ceRETIRED, 7)
  else if st = ceRETIRED then none
  else if st = ceUNREG then
    match c.reg with
    | some (_, true) => some (ceREG, 0)
    | some (_, false) => some (ceBYPASSED, 5)
    | none => none
  else if 4 ≤ c.tByp then some (ceBYPASSED, c.tByp)
  else if c.tByp = 3 ∧ st = ceSUSPECT then some (ceBYPASSED, 3)
  else if c.tSus ≠ 0 ∧ (st = ceHEALTHY ∨ st = ceREG) then some (ceSUSPECT, c.tSus)
  else if c.tRel ∧ st = ceBYPASSED then some (ceREG, 0)
  else if c.reg.isSome then some (ceREG, 0)
  else if c.tHealthy ∧ (st = ceREG ∨ st = ceSUSPECT) then some (ceHEALTHY, 0)
  else none

/-- The engine's transition at the boundary, and the counts that start with the new period. Log entry 38 (DEDUCED). -/
def engineBoundary (n : Nat) (d : Dev) : Dev :=
  let st := d.ceState n
  let nx := engineNext st (d.cell n)
  let clear := fun (c : CellSt) => { c with
    reg := none, tRel := false, tHealthy := false, tSus := 0, tByp := 0, tRet := false, got := false, win := c.win + 1,
    susp := if st = ceSUSPECT then c.susp + 1 else 0 }
  let d := (d.put (CE_CTL_BYPASS n) 0).onCell n clear
  match nx with
  | none => d
  | some (dst, cause) =>
    let d := d.put (CE_STAT_STATE n) dst
    let d := if cause = 0 then d else d.put (CE_STAT_CAUSE n) cause
    let d := if st = ceHEALTHY ∧ dst ≠ ceHEALTHY then
        match d.cellRegion n with
        | some g => d.onRegion g fun r => { r with carry := smErase r.carry n }
        | none => d
      else d
    let d := if dst = ceREG then d.onCell n fun c => { c with first := true, freshRun := 0, lastByp := none, stuckN := 0 } else d
    let d := if dst = ceHEALTHY then estRestart n d else d
    let d := if dst = ceSUSPECT then (d.telCount n 53).onCell n fun c => { c with freshRun := 0, susp := 0 } else d
    let d := if (dst = ceBYPASSED ∧ (st = ceSUSPECT ∨ cause = 5)) ∨ dst = ceRETIRED then
        d.raiseBit (FC_CESVC_SVC (n / 128 / 32)) (n / 128 % 32) .service else d
    let d := if dst = ceRETIRED then d.telClear n else d
    let q := n / 128
    d.put (QU_STAT_NREG q) ((List.range (d.get (QU_CFG_NPOS q))).filter fun p => posRegistered q p d).length

/-- Recorded corrections with that of period `o` of the device, as far back as 256 periods. -/
def corNote (o : Nat) (v : Int) (l : List (Nat × Int)) : List (Nat × Int) :=
  let l := match l with
    | [] => [(o, v)]
    | e :: _ => if e.2 = v then l else (o, v) :: l
  (l.filter fun e => decide (o < e.1 + 256)) ++ (l.filter fun e => !decide (o < e.1 + 256)).take 1

/-- The correction recorded for period `o` of the device (R166). -/
def corAt (o : Nat) (l : List (Nat × Int)) : Int := ((l.find? fun e => decide (e.1 ≤ o)).map fun e => e.2).getD 0

/-- At a boundary the committed period becomes the last complete one (R70), and the per-period points take their values
(R77). `ia`, `ib`, `ic` are the boundary currents at the start of the last complete period, at its end, and now.
Log entry 37 (DEDUCED). -/
def cellPeriod (n : Nat) (ia ib ic : Int) (d : Dev) : Dev :=
  let st := d.ceState n
  let c := d.cell n
  let nx := c.nxt.getD (segConst (segEnd c.cur))
  let c := { c with cors := corNote (periodOrd d) nx.cor c.cors }
  if st = ceUNREG ∨ st = ceRETIRED then
    d.setCell n { c with prev := c.cur, cur := nx, nxt := none, qAcc := 0, ancOfs := 0 }
  else
    let q1 := cellCharge n c.prev c.ancOfs d.T ia ib d
    let per := cellCharge n c.cur 0 d.T ib ic d
    let ins := fun s => s == stPOS || s == stNEG
    let parts := segParts c.cur d.T
    let into := (((c.cur.s0 :: parts.map fun p => p.2.2).zip parts).filter fun p => ins p.2.2.2 && p.2.2.2 != p.1).length
    let ticks := parts.foldl (fun a p => if ins p.2.2 then a + (p.2.1 - p.1) else a) c.insT
    let d := d.setCell n { c with qAcc := c.qAcc + q1, ancOfs := 0, prev := c.cur, cur := nx, nxt := none,
                                  insT := ticks % 500 }
    let raw := fun (i : Nat) => d.get (CE_REP_REP n i)
    let d := if raw 0 + raw 1 + raw 2 + raw 3 = 0 then d else
      let d := d.tel n 0 (raw 0 % 2 ^ 16)
      let d := d.tel n 1 (raw 0 / 2 ^ 16)
      let d := d.telS n 2 (toS 12 (bitsOf (raw 1) 12 12))
      let d := d.tel n 3 (raw 2 % 2 ^ 16)
      let d := d.tel n 4 (raw 1 % 256)
      let d := d.tel n 5 (bitsOf (raw 1) 8 3)
      (d.telS n 18 c.innov).tel n 16 (d.get (CE_VHAT_VHAT n))
    let d := if d.get (CE_VPRED_VPRED n) = 0 then d else d.tel n 17 (d.get (CE_VPRED_VPRED n))
    let d := d.telS n 19 per
    let d := d.tel n 20 (st + 8 * b2n (selectable n d))
    let d := if into = 0 then d else d.telCount n 56 into
    if ticks < 500 then d else d.telCount n 57 (ticks / 500)

end Sys2Proof.Machine
end

