-- ==== Sys2Proof/Machine/Crypto.lean ====
section
/-! DEFINITION. The cryptographic checks of chapters 15 and 17: SHA-256 (FIPS 180-4) and the verification of ECDSA P-256
signatures (FIPS 186-5), as R360, R361, R367 and R423 use them. The constants are those of the standards the manual names. -/

namespace Sys2Proof.Machine

/-- The integer `k`-th root of `x` found bit by bit, from `r` and its lowest `n` bits on. -/
def rootBits (k x : Nat) : Nat → Nat → Nat
  | 0, r => r
  | n + 1, r => rootBits k x n (if (r + 2 ^ n) ^ k ≤ x then r + 2 ^ n else r)

/-- The first 32 fractional bits of the `k`-th root of `p`. -/
def rootFrac (k p : Nat) : Word := BitVec.ofNat 32 (rootBits k (p * 2 ^ (32 * k)) 36 0)

/-- The primes below 312, none of whose composites lacks a divisor below 18: there are 64 of them. -/
def smallPrimes : List Nat :=
  (List.range 312).filter fun n => decide (1 < n) && (List.range 18).all fun m => decide (m < 2) || n % m != 0 || n == m

/-- Round constants of SHA-256: the fractions of the cube roots of the first 64 primes. -/
def shaConst : List Word := smallPrimes.map (rootFrac 3)

/-- The eight working words of SHA-256. -/
structure Sha where
  a : Word
  b : Word
  c : Word
  d : Word
  e : Word
  f : Word
  g : Word
  h : Word
  deriving DecidableEq, Repr

/-- The initial hash value of SHA-256: the fractions of the square roots of the first eight primes. -/
def shaInit : Sha :=
  let r := rootFrac 2
  { a := r 2, b := r 3, c := r 5, d := r 7, e := r 11, f := r 13, g := r 17, h := r 19 }

/-- One round with constant `k` and schedule word `w`. -/
def shaRound (s : Sha) (k w : Word) : Sha :=
  let s1 := s.e.rotateRight 6 ^^^ s.e.rotateRight 11 ^^^ s.e.rotateRight 25
  let ch := (s.e &&& s.f) ^^^ (~~~s.e &&& s.g)
  let t1 := s.h + s1 + ch + k + w
  let s0 := s.a.rotateRight 2 ^^^ s.a.rotateRight 13 ^^^ s.a.rotateRight 22
  let mj := (s.a &&& s.b) ^^^ (s.a &&& s.c) ^^^ (s.b &&& s.c)
  ⟨t1 + (s0 + mj), s.a, s.b, s.c, s.d + t1, s.e, s.f, s.g⟩

/-- Extend a reversed message schedule by `n` words. -/
def shaSched : Nat → List Word → List Word
  | 0, ws => ws
  | n + 1, ws =>
    let w2 := ws.getD 1 0
    let w7 := ws.getD 6 0
    let w15 := ws.getD 14 0
    let w16 := ws.getD 15 0
    let s0 := w15.rotateRight 7 ^^^ w15.rotateRight 18 ^^^ (w15 >>> 3)
    let s1 := w2.rotateRight 17 ^^^ w2.rotateRight 19 ^^^ (w2 >>> 10)
    shaSched n ((w16 + s0 + w7 + s1) :: ws)

/-- The sixteen words of a 64-byte block, last first. -/
def shaWords (blk : List Byte) : List Word :=
  ((List.range 16).map fun i => BitVec.ofNat 32 (fieldBE blk (4 * i) 4)).reverse

/-- The compression function over one block. -/
def shaBlock (s : Sha) (blk : List Byte) : Sha :=
  let ws := (shaSched 48 (shaWords blk)).reverse
  let r := (List.zip shaConst ws).foldl (fun x kw => shaRound x kw.1 kw.2) s
  ⟨s.a + r.a, s.b + r.b, s.c + r.c, s.d + r.d, s.e + r.e, s.f + r.f, s.g + r.g, s.h + r.h⟩

/-- The compression function over `n` successive blocks. -/
def shaBlocks : Nat → List Byte → Sha → Sha
  | 0, _, s => s
  | n + 1, bs, s => shaBlocks n (bs.drop 64) (shaBlock s (bs.take 64))

/-- The padded message of SHA-256. -/
def shaPad (bs : List Byte) : List Byte :=
  let l := bs.length
  bs ++ [0x80] ++ List.replicate ((119 - l % 64) % 64) 0 ++ bytesBE 8 (8 * l)

/-- SHA-256 of a byte string, as a number whose first byte is the most significant. Log entry 22 (PRESUMED). -/
def sha256 (bs : List Byte) : Nat :=
  let p := shaPad bs
  let s := shaBlocks (p.length / 64) p shaInit
  natBE ((bytesBE 4 s.a.toNat) ++ bytesBE 4 s.b.toNat ++ bytesBE 4 s.c.toNat ++ bytesBE 4 s.d.toNat ++
    bytesBE 4 s.e.toNat ++ bytesBE 4 s.f.toNat ++ bytesBE 4 s.g.toNat ++ bytesBE 4 s.h.toNat)

/-- The field prime of P-256. -/
def p256P : Nat := 2 ^ 256 - 2 ^ 224 + 2 ^ 192 + 2 ^ 96 - 1

/-- The order of the base point of P-256. -/
def p256N : Nat := 0xFFFFFFFF00000000FFFFFFFFFFFFFFFFBCE6FAADA7179E84F3B9CAC2FC632551

/-- The coefficient b of P-256. -/
def p256B : Nat := 0x5AC635D8AA3A93E7B3EBBD55769886BC651D06B0CC53B0F63BCE3C3E27D2604B

/-- A point of P-256 in affine coordinates; `none` is the point at infinity. -/
abbrev P256Point := Option (Nat × Nat)

/-- The base point of P-256. -/
def p256G : P256Point :=
  some (0x6B17D1F2E12C4247F8BCE6E563A440F277037D812DEB33A0F4A13945D898C296,
    0x4FE342E2FE1A7F9B8EE7EB4A7C0F9E162BCE33576B315ECECBB6406837BF51F5)

/-- Whether coordinates describe a point of P-256 other than infinity (R360). -/
def p256OnCurve (x y : Nat) : Bool :=
  decide (x < p256P) && decide (y < p256P) &&
    decide (y * y % p256P = (x * x * x + (p256P - 3) * x + p256B) % p256P)

/-- Modular power by `n` bits of exponent, low bit first. -/
def powModAux (m : Nat) : Nat → Nat → Nat → Nat → Nat
  | 0, _, _, acc => acc
  | n + 1, b, e, acc => powModAux m n (b * b % m) (e / 2) (if e % 2 = 1 then acc * b % m else acc)

/-- Inverse modulo a prime of at most 256 bits. -/
def invMod (m a : Nat) : Nat := powModAux m 256 (a % m) (m - 2) 1

/-- Addition of points of P-256. Log entry 22 (PRESUMED). -/
def p256Add : P256Point → P256Point → P256Point
  | none, q => q
  | p, none => p
  | some (x1, y1), some (x2, y2) =>
    if x1 = x2 ∧ (y1 + y2) % p256P = 0 then none
    else
      let l := if x1 = x2 then (3 * x1 * x1 + (p256P - 3)) * invMod p256P (2 * y1) % p256P
        else (y2 + (p256P - y1)) * invMod p256P (x2 + (p256P - x1)) % p256P
      let x3 := (l * l + (p256P - x1) + (p256P - x2)) % p256P
      some (x3, (l * (x1 + (p256P - x3)) + (p256P - y1)) % p256P)

/-- Scalar multiplication by `n` bits, low bit first. -/
def p256MulAux : Nat → Nat → P256Point → P256Point → P256Point
  | 0, _, _, acc => acc
  | n + 1, k, p, acc => p256MulAux n (k / 2) (p256Add p p) (if k % 2 = 1 then p256Add acc p else acc)

/-- Scalar multiple of a point of P-256. Log entry 22 (PRESUMED). -/
def p256Mul (k : Nat) (p : P256Point) : P256Point := p256MulAux 256 k p none

/-- ECDSA P-256 verification of a digest against a key and a signature (R360). Log entry 22 (PRESUMED). -/
def ecdsaVerify (digest keyX keyY r s : Nat) : Bool :=
  if r = 0 ∨ p256N ≤ r ∨ s = 0 ∨ p256N ≤ s ∨ ¬ p256OnCurve keyX keyY then false
  else
    let w := invMod p256N s
    match p256Add (p256Mul (digest * w % p256N) p256G) (p256Mul (r * w % p256N) (some (keyX, keyY))) with
    | none => false
    | some (x, _) => decide (x % p256N = r)

end Sys2Proof.Machine
end

