-- ==== Sys2Proof/Machine/Measure.lean ====
section
/-! DEFINITION. Analog measurement, chapter 9: slots and conversions (R244-R247), live and foreground calibration
(R248-R250), records (R251-R254), the queue (R255), injected conversions (R256-R257), and the trip monitors of R299. -/

namespace Sys2Proof.Machine

/-- A group runs. -/
def adRun (a : Nat) (d : Dev) : Bool := d.bit AD_STAT_RUN a

/-- A group is at low power. -/
def adLp (a : Nat) (d : Dev) : Bool := d.bit AD_STAT_LP a

/-- Offset of slot `s` in ticks, conversion time and LAT (R244, R246). -/
def slotOff (lp : Bool) (s : Nat) : Nat := if lp then 250 * s else 125 * s / 2
def adLat (lp : Bool) : Nat := if lp then 2250 else 750
def convTicks (lp : Bool) : Nat := if lp then 2000 else 500

/-- Sequence entry of slot `s` (R245). -/
def seqEntry (a s : Nat) (d : Dev) : Nat :=
  let k := s % (d.get (AD_GCFG_LEN a) + 1)
  if k < 8 then bitsOf (d.get (AD_SEQ0_ENT a)) (3 * k) 3 else bitsOf (d.get (AD_SEQ1_ENT a)) (3 * (k - 8)) 3

/-- The mode a group takes by LPMODE in the present device mode (R258). -/
def wantLp (a : Nat) (d : Dev) : Bool :=
  match d.get (AD_GCFG_LPMODE a) with
  | 0 => false
  | 1 => true
  | _ => d.mode == modeIDLE

/-- The slices in cyclic order with slice `r` out. -/
def sliceOrder (r : Nat) : List Nat := (List.range 9).filter (fun i => i != r)

/-- A group starts at a boundary (R243); its first pair falls one spacing of R248 after the first slot. Log entries 61 (DEDUCED), 95
(DESIGN CHOICE). -/
def groupStart (a : Nat) (d : Dev) : Dev :=
  let d := (d.putBit AD_STAT_RUN a true).putBit AD_STAT_LP a (wantLp a d)
  let d := (d.put (AD_GSTAT_CALOK a) 0).putBit AD_STAT_CALOK a false
  let g := group0 a
  let d := d.setGroup a { g with per := d.tm.jAbs, closedPer := d.tm.jAbs, order := sliceOrder (d.get (AD_GSTAT_OUT a)),
                                 pairDue := 8 * d.get (AD_CALCFG_CALDIV a) + 1 }
  foldN 8 (fun d k => d.setAin (8 * a + k) { ain0 0 with wPer := d.tm.jAbs }) d

/-- The grid of slots at a boundary: groups start, modes change, slot numbers restart (R243-R245, R258).
Log entry 61 (DEDUCED). -/
def adBoundary (d : Dev) : Dev :=
  foldN 4 (fun d a =>
    if ¬ d.live ∨ ¬ d.flag (AD_GCFG_EN a) ∨ d.flag (AD_GSTAT_GFAIL a) then d
    else if ¬ adRun a d then groupStart a d
    else
      let d := d.onGroup a fun g => { g with per := d.tm.jAbs, slot := 0 }
      if adLp a d = wantLp a d then d
      else
        let d := (d.putBit AD_STAT_LP a (wantLp a d)).putBit AD_STAT_CALOK a false
        (d.put (AD_GSTAT_CALOK a) 0).onGroup a fun g => { g with done := [] }) d

/-- The instant of the next slot of a group, in ticks since the epoch (R244, R275). -/
def slotTick (a : Nat) (d : Dev) : Nat := d.tm.bj + slotOff (adLp a d) (d.group a).slot

/-- The instant at which a conversion completes (R244, R246). -/
def convEnd (c : Conv) : Nat := c.tick + convTicks c.lp

/-- An injected conversion runs on the out slice at instant `t` (R257). -/
def outBusy (g : AdGrp) (t : Nat) : Bool := g.flight.any fun c => decide (2 ≤ c.out) && decide (t < convEnd c)

/-- A conversion slot starts at its stamped instant (R244, R245, R275): the slice due samples its input; a pair or an injected
conversion joins it on the out slice (R248, R256, R257). -/
def slotStart (a : Nat) (d : Dev) : Dev :=
  let g := d.group a
  let lp := adLp a d
  if ¬ adRun a d ∨ ¬ d.timeRuns ∨ d.perLen ≤ slotOff lp g.slot then d
  else
    let t := slotTick a d
    let d := d.until_ t
    let busy := outBusy g t
    let pairNow := g.inj.isNone && !busy && decide (g.pairDue ≤ g.serial) && !d.flag (AD_GSTAT_NOROT a)
    let out := match g.inj with
      | some k => 2 + k
      | none => b2n pairNow
    let inp := seqEntry a g.slot d
    let c : Conv := ⟨g.serial, slotOff lp g.slot, g.per, d.perLen, t, inp, g.order.getD (g.serial % 8) 0, lp, out,
      d.get (AD_GSTAT_OUT a), d.tm.jAbs⟩
    let d := if busy ∧ g.pairDue = g.serial then d.bump (AD_CALCNT_SLIPS a) else d
    d.setGroup a { g with
      slot := g.slot + 1
      serial := g.serial + 1
      flight := g.flight ++ [c]
      pairDue := if pairNow then g.serial + 8 * d.get (AD_CALCFG_CALDIV a) + 1 else g.pairDue
      inj := none }

/-- Correction of a raw code by slice `i` (R247). -/
def adCorrect (a i : Nat) (x : Int) (d : Dev) : Int :=
  satS 16 (rdiv ((x * 64 - d.getS (AD_SLCOEF_OFS a i)) * (d.get (AD_SLCOEF_GAIN a i) : Int)) 131072)

/-- Add a code to an accumulator. -/
def accAdd (x : Acc) (c : Int) : Acc :=
  if x.cnt = 0 then ⟨c, 1, c, c⟩
  else ⟨x.sum + c, x.cnt + 1, if c < x.mn then c else x.mn, if x.mx < c then c else x.mx⟩

/-- The window grid of a period of `len` ticks (R251). -/
def gridOf (i m len : Nat) (d : Dev) : Nat := m * len / 2 ^ d.get (AD_INCFG_WDIV i)

/-- The window that covers offset `y` of a period of `len` ticks. -/
def windowAt (i y len : Nat) (d : Dev) : Nat :=
  match (List.range (2 ^ d.get (AD_INCFG_WDIV i))).find? fun m => decide (y < gridOf i (m + 1) len d) with
  | some m => m + 1
  | none => 2 ^ d.get (AD_INCFG_WDIV i)

/-- The period and window to which a conversion belongs (R251): LAT after its sample, in its own period or in the next. -/
def windowOf (i : Nat) (c : Conv) (d : Dev) : Nat × Nat :=
  let x := c.off + adLat c.lp
  if x < c.len then (c.per, windowAt i x c.len d) else (c.per + 1, windowAt i (x - c.len) d.perLen d)

/-- TOFS of a sample instant (Table 9.2). A gap period may be longer than its 16 bits count. Log entry 95 (DESIGN CHOICE). -/
def tofsOf (off : Nat) : Nat := if off < 2 ^ 16 then off else (Config.tofsBeyond off).toNat

/-- A result enters the queue (R255). -/
def adQueue (c : Conv) (a inp slice : Nat) (code : Int) (inj ovr : Bool) (d : Dev) : Dev :=
  if 2048 ≤ d.adq.length then (d.bump AD_QSTAT_DROPCNT).raise AD_EVT_QOVF .notice
  else
    let w := ofS 16 code + 2 ^ 16 * (8 * a + inp) + 2 ^ 21 * b2n inj + 2 ^ 22 * b2n c.lp + 2 ^ 23 + 2 ^ 24 * (c.pseq % 256) +
      2 ^ 32 * tofsOf c.off + 2 ^ 48 * slice + 2 ^ 52 * b2n ovr
    let d := { d with adq := d.adq ++ [BitVec.ofNat 64 w] }
    d.put AD_QSTAT_LEVEL d.adq.length

/-- A read of AD_QLO removes the oldest entry (R255). -/
def adPop (d : Dev) : BitVec 64 × Dev :=
  match d.adq with
  | [] => (0, d)
  | e :: r => (e, ({ d with adq := r }).put AD_QSTAT_LEVEL r.length)

/-- A completed in-service conversion takes its place by slot. -/
def codeInsert (x : Nat × Int) : List (Nat × Int) → List (Nat × Int)
  | [] => [x]
  | y :: t => if x.1 < y.1 then x :: y :: t else y :: codeInsert x t

/-- Of the completed conversions of an input, those that a pair may still need: from the last one before slot `lo` on. -/
def codeKeep (lo : Nat) (l : List (Nat × Int)) : List (Nat × Int) := l.drop ((l.filter fun x => decide (x.1 < lo)).length - 1)

/-- The first slot of an input that is in flight or waits in a pair; `top` if there is none. -/
def openSlot (g : AdGrp) (inp top : Nat) : Nat :=
  ((g.flight.filter fun c => c.inp == inp).map fun c => c.slot).foldl min
    (((g.wait.filter fun p => p.inp == inp).map fun p => p.slot).foldl min top)

/-- One pair is added to the sums with the conversions of its input that precede and follow its slot, up to the `caln` of a step (R248,
R249). -/
def pairAdd (caln : Nat) (p : Pair) (prev : Option (Nat × Int)) (next : Nat × Int) (g : AdGrp) : AdGrp :=
  match prev with
  | none => g
  | some (s0, c0) =>
    if caln ≤ g.pairs then g
    else
      let sl := rdiv (next.2 - c0) (next.1 - s0)
      let dd := p.cr - p.ci
      { g with so := g.so + dd, sg := g.sg + dd * p.ci, sq := g.sq + p.ci * p.ci, ss := g.ss + dd * sl, sl := g.sl + sl * sl,
               pairs := g.pairs + 1 }

/-- A pair is added once the next conversion of its input completes, of which `l` are the completed ones, and no earlier one of the
input is still in flight (R249). -/
def pairClose (caln inp : Nat) (l : List (Nat × Int)) (g : AdGrp) : AdGrp :=
  (g.wait.filter fun p => p.inp == inp).foldl (fun g p =>
    match l.find? fun x => decide (p.slot < x.1) with
    | none => g
    | some n =>
      if g.flight.any fun c => c.inp == inp && decide (c.slot < n.1) then g
      else pairAdd caln p (l.filter fun x => decide (x.1 < p.slot)).getLast? n { g with wait := g.wait.erase p }) g

/-- The conversion in flight that completes first. -/
def firstDone : List Conv → Option Conv
  | [] => none
  | c :: t => match firstDone t with
    | none => some c
    | some m => if convEnd m < convEnd c then some m else some c

/-- The conversion that completes first does so with raw code `x`; `y` is the raw code of the out slice where that converts
with it (R246, R247, R242, R258); a pair belongs to the step of the slice that sampled it (R248, R249). Log entry 61 (DEDUCED). -/
def convDone (a : Nat) (x y : Int) (d : Dev) : Dev :=
  let g := d.group a
  match firstDone g.flight with
  | none => d
  | some c =>
    let rest := g.flight.erase c
    let i := 8 * a + c.inp
    let code := adCorrect a c.slice x d
    let ovr := x == -2048 || x == 2047
    let d := if ovr then d.raiseBit AD_OVR_OVR i .notice else d
    let oy := y == -2048 || y == 2047
    let d := if c.out ≠ 0 ∧ oy then d.raiseBit AD_OVR_OVR (8 * a + (if c.out = 1 then c.inp else c.out - 2)) .notice else d
    let n := d.ain i
    let rp := if c.off + adLat c.lp < c.len then c.per else c.per + 1
    let w := windowOf i c d
    let toW1 := decide (n.wPer < w.1) || (n.wPer == w.1 && decide (n.wm < w.2))
    let toP1 := decide (g.closedPer < rp)
    let n' := { n with
      p0 := if toP1 then n.p0 else accAdd n.p0 code
      p1 := if toP1 then accAdd n.p1 code else n.p1
      w0 := if toW1 then n.w0 else accAdd n.w0 code
      w1 := if toW1 then accAdd n.w1 code else n.w1 }
    let d := if d.flag (AD_INCFG_QEN i) then adQueue c a c.inp c.slice code false ovr d else d
    let r := c.outSlice
    let g := { g with flight := rest }
    let g := if c.out = 1 ∧ r = d.get (AD_GSTAT_OUT a) then
        { g with wait := g.wait ++ [⟨adCorrect a r y d, code, c.inp, c.slot⟩] } else g
    let l := codeInsert (c.slot, code) n.lastC
    let g := pairClose (d.get (AD_CALCFG_CALN a)) c.inp l g
    let d := (d.setAin i { n' with lastC := codeKeep (openSlot g c.inp g.serial) l }).setGroup a g
    if 2 ≤ c.out then adQueue c a (c.out - 2) r (adCorrect a r y d) true oy (d.put (AD_INJ_GO a) 0)
    else d

/-! ## Calibration -/

/-- Store a coefficient within its limits; reaching one sets CALSAT. -/
def putCoef (f : Fld) (signed : Bool) (v lo hi : Int) (d : Dev) : Dev :=
  let x := satI v lo hi
  let d := if signed then d.putS f x else d.put f x.toNat
  if x = lo ∨ x = hi then d.raise AD_EVT_CALSAT .notice else d

/-- Mean over the nine slices. -/
def sliceMean (f : Nat → Int) : Int := rdiv ((List.range 9).foldl (fun s i => s + f i) 0) 9

/-- A coefficient moves by the mean; one that reaches a limit sets CALSAT (R249). -/
def moveCoef (f : Fld) (signed : Bool) (v lo hi : Int) (d : Dev) : Dev :=
  let d := if signed then d.putS f v else d.put f v.toNat
  if v ≤ lo ∨ hi ≤ v then d.raise AD_EVT_CALSAT .notice else d

/-- The coefficients are normalised over all nine slices (R249). -/
def adNormalise (a : Nat) (d : Dev) : Dev :=
  let mo := sliceMean fun i => d.getS (AD_SLCOEF_OFS a i)
  let mg := sliceMean fun i => (d.get (AD_SLCOEF_GAIN a i) : Int) - 0x8000
  let mk := sliceMean fun i => d.getS (AD_SLSKEW_SKEW a i)
  foldN 9 (fun d i =>
    let d := moveCoef (AD_SLCOEF_OFS a i) true (d.getS (AD_SLCOEF_OFS a i) - mo) (-0x0800) 0x0800 d
    let d := moveCoef (AD_SLCOEF_GAIN a i) false ((d.get (AD_SLCOEF_GAIN a i) : Int) - mg) 0x7000 0x9000 d
    moveCoef (AD_SLSKEW_SKEW a i) true (d.getS (AD_SLSKEW_SKEW a i) - mk) (-0x0100) 0x0100 d) d

/-- CALN pairs are complete: the out slice's coefficients are updated and it waits for its swap (R248, R249). -/
def calStepEnd (a : Nat) (d : Dev) : Dev :=
  let g := d.group a
  let caln := d.get (AD_CALCFG_CALN a)
  if ¬ adRun a d ∨ g.swapWait ≠ 0 ∨ g.pairs < caln ∨ d.flag (AD_GSTAT_NOROT a) then d
  else
    let r := d.get (AD_GSTAT_OUT a)
    let mu := 2 ^ d.get (AD_CALCFG_MU a)
    let d := putCoef (AD_SLCOEF_OFS a r) true (d.getS (AD_SLCOEF_OFS a r) + rdiv (g.so * 4) (caln * mu)) (-0x0800) 0x0800 d
    let d := if (caln * 65536 : Nat) ≤ g.sq then
        putCoef (AD_SLCOEF_GAIN a r) false ((d.get (AD_SLCOEF_GAIN a r) : Int) - rdiv (g.sg * 32768) (g.sq.toNat * mu)) 0x7000
          0x9000 d else d
    let d := if (caln * 256 : Nat) ≤ g.sl then
        putCoef (AD_SLSKEW_SKEW a r) true
          (d.getS (AD_SLSKEW_SKEW a r) - rdiv (g.ss * (if adLp a d then 1000000 else 250000)) (g.sl.toNat * mu)) (-0x0100) 0x0100 d
      else d
    let d := (adNormalise a d).count (AD_CALCNT_STEPS a)
    let done := if g.done.contains r then g.done else g.done ++ [r]
    let d := d.setGroup a { g with swapWait := 1, done := done }
    if 9 ≤ done.length then (d.put (AD_GSTAT_CALOK a) 1).putBit AD_STAT_CALOK a true else d

/-- The calibrated slice swaps in at its slot (R248); a running injected conversion delays it (R257).
Log entry 5 (DESIGN CHOICE). -/
def sliceSwap (a : Nat) (d : Dev) : Dev :=
  let g := d.group a
  let pos := g.serial % 8
  if ¬ adRun a d ∨ g.swapWait = 0 ∨ (g.swapWait = 1 ∧ pos ≠ (g.swapPos + 1) % 8) then d
  else if outBusy g (slotTick a d) ∨ g.inj.isSome then
    if g.swapWait = 1 then (d.setGroup a { g with swapWait := 2 }).bump (AD_CALCNT_SLIPS a) else d
  else
    let r := d.get (AD_GSTAT_OUT a)
    let due := g.order.getD pos 0
    (d.put (AD_GSTAT_OUT a) due).setGroup a { g with
      order := listSet g.order pos r
      swapPos := pos
      swapWait := 0
      pairs := 0
      so := 0
      sg := 0
      sq := 0
      ss := 0
      sl := 0
      wait := [] }

/-- The foreground calibration of CHECK (R250): OFS and GAIN of each slice, SKEW 0; a slice outside the limits is
excluded. -/
def fgCal (cal : List SliceCal) (d : Dev) : Dev :=
  let d := foldN 4 (fun d a => d.put (AD_GSTAT_SLOK a) 0x1FF) d
  let d := cal.foldl (fun d c =>
    let a := c.acg.val
    let i := c.slice.val
    let ok := decide (-0x0800 ≤ c.ofs) && decide (c.ofs ≤ 0x0800) && decide (0x7000 ≤ c.gain) && decide (c.gain ≤ 0x9000)
    let d := d.put (AD_SLSKEW_SKEW a i) 0
    if ok then (d.putS (AD_SLCOEF_OFS a i) c.ofs).put (AD_SLCOEF_GAIN a i) c.gain.toNat
    else d.putBit (AD_GSTAT_SLOK a) i false) d
  foldN 4 (fun d a =>
    let bad := (List.range 9).filter fun i => !d.bit (AD_GSTAT_SLOK a) i
    match bad with
    | [] => d
    | [i] => (d.put (AD_GSTAT_OUT a) i).raise (AD_GSTAT_NOROT a) .service
    | _ => d.raise (AD_GSTAT_GFAIL a) .service) d

/-! ## Records -/

/-- A value scaled to the input's format (R252). -/
def adScale (i : Nat) (sum : Int) (cnt : Nat) (d : Dev) : Int :=
  let v := rdiv (sum * d.getS (AD_INSC_M i)) (cnt * 2 ^ d.get (AD_INSC_SH i)) + d.getS (AD_INOFS_OFS i)
  if d.flag (AD_INCFG_FMT i) then satS 32 v else satS 16 v

/-- The delivered values of a record. -/
def adDeliver (i per idx : Nat) (x : Acc) (d : Dev) : Clo :=
  if x.cnt = 0 then ⟨per, idx, 0, 0, 0, 0⟩
  else ⟨per, idx, x.cnt, adScale i x.sum x.cnt d, adScale i x.mn 1 d, adScale i x.mx 1 d⟩

/-- An AIN entry for the recorder (Table 13.2). -/
def adRecord (i : Nat) (win : Bool) (m : Nat) (c : Clo) (key : Nat) (refr : Bool) (d : Dev) : Dev :=
  if d.bit DR_AINSEL_SEL i ∧ d.bit DR_AINWIN_WIN i = win then
    d.source kAIN (i + 2 ^ 5 * b2n win + 2 ^ 6 * m) key
      (ofS 32 c.mean + 2 ^ 32 * ofS 32 c.mn + 2 ^ 64 * ofS 32 c.mx + 2 ^ 96 * (c.cnt % 2 ^ 24)) false refr
  else d

/-- The period record of one input closes. -/
def periodClose (i per : Nat) (d : Dev) : Dev :=
  let n := d.ain i
  let x := n.p0
  let c := adDeliver i per 0 x d
  let d := (d.put (PSUMLO_SUM i) (ofS 32 x.sum)).put (PSUMHI_SUMH i) (ofS 40 x.sum / 2 ^ 32)
  let d := ((d.put (PSUMHI_COUNT i) x.cnt).putS (PMINMAX_MIN i) x.mn).putS (PMINMAX_MAX i) x.mx
  let d := (d.putS (AD_MEAN_MEAN i) c.mean).put (AD_ACCINF_PSEQ i) per
  let d := d.setAin i { n with p0 := n.p1, p1 := acc0, pC := some c }
  adRecord i false 0 c d.nowNs false d

/-- The period records of a group close at the boundary (R251, R253). Log entry 61 (DEDUCED). -/
def periodRecords (a : Nat) (inTime : Bool) (d : Dev) : Dev :=
  let g := d.group a
  if ¬ adRun a d ∨ d.tm.jAbs < g.closedPer then d
  else
    let d := if g.closedPer = d.tm.jAbs then d.until_ d.nextB else d
    let d := if inTime then d else d.raise AD_EVT_MMISS .notice
    let d := foldN 8 (fun d k => periodClose (8 * a + k) g.closedPer d) d
    d.onGroup a fun g => { g with closedPer := g.closedPer + 1 }

/-- The trip monitor of an input at a window close (R299). -/
def amEval (i : Nat) (c : Clo) (d : Dev) : Dev :=
  let act := d.get (FC_AMCFG_ACT i)
  if act = 0 ∨ ¬ d.live ∨ c.cnt = 0 then d
  else
    let out := decide (d.getS (FC_AMHI_HI i) < c.mx) || decide (c.mn < d.getS (FC_AMLO_LO i))
    let d := d.putB (FC_AMSTAT_OUT i) out
    if ¬ out then d.put (FC_AMSTAT_RUN i) 0
    else
      let run := d.get (FC_AMSTAT_RUN i) + 1
      let d := d.bump (FC_AMSTAT_RUN i)
      if run < d.get (FC_AMCFG_CONFN i) then d
      else d.raise (FC_AMSTAT_HIT i)
        (if act = 1 then .notice else if act = 2 then .prot (d.get (FC_AMCFG_REGMASK i)) else .protDev)

/-- The window that closes at the present boundary is the boundary current of the regions that name the input (R194). -/
def ibDeliver (i : Nat) (c : Clo) (d : Dev) : Dev :=
  if c.per ≠ d.tm.jAbs ∨ c.cnt = 0 then d
  else foldN 8 (fun d g => if d.assigned g ∧ d.get (RG_INCFG_IAIN g) = i then
    d.onRegion g fun r => { r with ib1 := c.mean } else d) d

/-- A window record closes at its grid instant (R251). -/
def windowClose (i : Nat) (d : Dev) : Dev :=
  let n := d.ain i
  let wd := 2 ^ d.get (AD_INCFG_WDIV i)
  if ¬ adRun (i / 8) d ∨ d.tm.jAbs < n.wPer then d
  else
    let d := if n.wPer = d.tm.jAbs then d.at_ (gridOf i n.wm d.perLen d) else d
    let x := n.w0
    let c := adDeliver i n.wPer n.wm x d
    let d := (d.put (WSUMLO_SUM i) (ofS 32 x.sum)).put (WSUMHI_SUMH i) (ofS 40 x.sum / 2 ^ 32)
    let d := ((d.put (WSUMHI_COUNT i) x.cnt).putS (WMINMAX_MIN i) x.mn).putS (WMINMAX_MAX i) x.mx
    let d := d.put (AD_ACCINF_WIDX i) n.wm
    let last := decide (wd ≤ n.wm)
    let cb := { c with per := n.wPer + 1 }
    let d := d.setAin i { n with
      w0 := n.w1
      w1 := acc0
      wC := some c
      wB := if last then some cb else n.wB
      wm := if last then 1 else n.wm + 1
      wPer := if last then n.wPer + 1 else n.wPer }
    let d := amEval i c (adRecord i true n.wm c d.nowNs false d)
    if last then ibDeliver i cb d else d

/-! ## The periods renumbered (R274, R280) -/

/-- A number moved by `k`. -/
def moveBy (k : Int) (j : Nat) : Nat := ((j : Int) + k).toNat

/-- A closed record keeps its distance to the present period. Log entry 61 (DEDUCED). -/
def cloMove (k : Int) (c : Clo) : Clo := { c with per := moveBy k c.per }

/-- The periods are renumbered by `k` and station time moves by `dt` ticks; what measurement has open or has just closed stays where
it is on the grid, and a sample keeps the number that its period had (R255). -/
def renumber (k dt : Int) (d : Dev) : Dev :=
  let d := (d.groups.map fun x => x.1).foldl (fun d a => d.onGroup a fun g => { g with
    per := moveBy k g.per, closedPer := moveBy k g.closedPer
    flight := g.flight.map fun c => { c with
      per := moveBy k c.per, tick := moveBy dt c.tick
      pseq := if dt = 0 ∧ d.tm.bj ≤ c.tick then moveBy k c.pseq else c.pseq } }) d
  (d.ains.map fun x => x.1).foldl (fun d i => d.onAin i fun n => { n with
    pC := n.pC.map (cloMove k), wC := n.wC.map (cloMove k), wB := n.wB.map (cloMove k), wPer := moveBy k n.wPer }) d

/-! ## Injected conversions (R256) -/

/-- Slice `r`, which is out, converts: a pair or an injected conversion, or its last one in service at instant `t` (R256). -/
def outConverts (g : AdGrp) (r t : Nat) : Bool :=
  g.flight.any fun c => (c.out != 0 && c.outSlice == r) || (c.slice == r && decide (t < convEnd c))

/-- Write of AD_INJ. -/
def wrAdInj (o : Origin) (a : Nat) (w : Word) (d : Dev) : Bool × Dev :=
  shellWrite o .meas true (fun d =>
    let d := d.put (AD_INJ_INPUT a) (w.toNat % 8)
    if ¬ bitOf w.toNat 3 then d
    else
      let g := d.group a
      let r := d.get (AD_GSTAT_OUT a)
      let swapNext := g.swapWait == 2 || (g.swapWait == 1 && g.serial % 8 == (g.swapPos + 1) % 8)
      let pairNext := decide (g.pairDue ≤ g.serial) && !d.flag (AD_GSTAT_NOROT a)
      let idle := g.inj.isNone && !outConverts g r d.nowTick && d.bit (AD_GSTAT_SLOK a) r
      if adRun a d ∧ idle ∧ ¬ swapNext ∧ ¬ pairNext then
        ((d.bump (AD_INJCNT_ACCEPT a)).put (AD_INJ_GO a) 1).onGroup a fun g => { g with inj := some (w.toNat % 8) }
      else d.bump (AD_INJCNT_DROP a)) d

end Sys2Proof.Machine
end

