-- ==== Sys2Proof/Machine/Image.lean ====
section
/-! DEFINITION. The configuration image (chapter 15): header, folios, runs and trailer as bytes, the checks of Table 15.7 in
their order, the rules that step 13 makes, the choice of the bank, and loading as one step. -/

namespace Sys2Proof.Machine

/-! ## Bytes of a bank -/

/-- The first `n` bytes of a bank; what the bank does not hold reads as erased flash. -/
def imgBytes (n : Nat) (b : Bank) : List Byte := (b.image ++ List.replicate (n - b.image.length) 0xFF).take n

/-- Bytes `off` to `off + n − 1`. -/
def slice (bs : List Byte) (off n : Nat) : List Byte := (bs.drop off).take n

/-- Every byte of a range is 0. -/
def zeros (bs : List Byte) (off n : Nat) : Bool := (slice bs off n).all fun b => b == 0

/-- IMGLEN, SEQ and KEYSLOT of a header (Table 15.1). -/
def imgLen (h : List Byte) : Nat := fieldBE h 12 4
def imgSeq (h : List Byte) : Nat := fieldBE h 16 4
def imgSlot (h : List Byte) : Nat := fieldBE h 20 1

/-- The image area of a bank in the flash. -/
def imgOf (fl : Flash) (bankB : Bool) : List Byte := if bankB then fl.imgB else fl.imgA
def imgSet (fl : Flash) (bankB : Bool) (img : List Byte) : Flash := if bankB then { fl with imgB := img } else { fl with imgA := img }

/-- Bytes programmed into an image area from an offset on; what lies before them is erased where nothing stands there. -/
def imgPut (img : List Byte) (off : Nat) (bs : List Byte) : List Byte :=
  img.take off ++ List.replicate (off - img.length) 0xFF ++ bs ++ img.drop (off + bs.length)

/-- The first 4 KiB sector of an image area is erased (R378 step 5). -/
def imgSector (img : List Byte) : List Byte := imgPut img 0 (List.replicate 4096 0xFF)

/-- The flash that LOAD finds: what has been programmed outside the device stands in the banks (R356, R357). -/
def flashFound (a b : BankRx) (fl : Flash) : Flash :=
  let jr := fun (x : BankRx) (j : JBank) => match x.journal with
    | some h => (⟨h.1, h.2⟩ : JBank)
    | none => j
  ⟨jr a fl.a, jr b fl.b, a.image.getD fl.imgA, b.image.getD fl.imgB⟩

/-- A bank as its checks see it. -/
def bankSeen (x : BankRx) (img : List Byte) : Bank := ⟨x.sfdpOk, x.density, img⟩

/-! ## Checks 1 to 5 -/

/-- Checks 2 to 5 on the 128 header bytes, for a bank of `density` bytes (Table 15.7). -/
def headCause (h : List Byte) (density : Nat) : Nat :=
  if fieldBE h 0 4 ≠ 0x4B584948 ∨ fieldBE h 4 2 ≠ 1 ∨ fieldBE h 6 2 ≠ 0x80 then 1
  else if crc32c (h.take 124) ≠ fieldBE h 124 4 then 2
  else if fieldBE h 8 4 ≠ 0x4B582000 then 3
  else if imgLen h % 4 ≠ 0 ∨ density - 0x40000 < imgLen h ∨ imgLen h < 128 + 12 + 116 ∨ imgSeq h = 0xFFFFFFFF then 5
  else 0

/-- Check 1: the bank answers as R356 asks. -/
def bankOk (b : Bank) : Bool := b.sfdpOk && decide (8 * 2 ^ 20 ≤ b.density) && decide (b.density ≤ 64 * 2 ^ 20)

/-- Checks 1 to 5 on a bank. -/
def bankCause (b : Bank) : Nat := if bankOk b then headCause (imgBytes 128 b) b.density else 0xD

/-! ## Check 6 -/

/-- SHA-256 of the owner's key of a header. -/
def keyHash (h : List Byte) : Nat := sha256 (slice h 32 64)

/-- Slot `s` is usable (R361). -/
def slotUsable (k : Fuse) (s : Nat) : Bool := if s = 0 then k.prog0 && !k.rev0 else if s = 1 then k.prog1 else false

def slotHash (k : Fuse) (s : Nat) : Nat := if s = 0 then k.hash0.toNat else k.hash1.toNat

/-- The key slot authenticates the key of the header, and the key is a point. -/
def keyOk (k : Fuse) (h : List Byte) : Bool :=
  slotUsable k (imgSlot h) && slotHash k (imgSlot h) == keyHash h && p256OnCurve (fieldBE h 32 32) (fieldBE h 64 32)

/-! ## Folios (Table 15.3) -/

/-- A folio of an image: type, flags, instance, payload, padding, all its bytes. -/
structure Folio where
  typ : Nat
  flags : Nat
  inst : Nat
  payload : List Byte
  pad : List Byte
  raw : List Byte
  deriving DecidableEq, Repr

/-- Walk the folios from offset `o` up to `stop`; `none` where an FCRC is wrong or lies outside the image. The flag says that
the last one ends at `stop`. Log entry 28 (DEDUCED). -/
def folios (img : List Byte) (stop : Nat) : Nat → Nat → Option (List Folio × Bool)
  | 0, _ => some ([], false)
  | fuel + 1, o =>
    if o = stop then some ([], true)
    else if stop < o then some ([], false)
    else
      let len := fieldBE img (o + 4) 4
      let pad := (4 - len % 4) % 4
      let size := 12 + len + pad
      if img.length < o + size then none
      else
        let raw := slice img o size
        if crc32c (raw.take (size - 4)) ≠ fieldBE raw (size - 4) 4 then none
        else (folios img stop fuel (o + size)).map fun r =>
          (⟨fieldBE raw 0 1, fieldBE raw 1 1, fieldBE raw 2 2, slice raw 8 len, slice raw (8 + len) pad, raw⟩ :: r.1, r.2)

/-- A type of Table 15.4 other than NOTE. -/
def typKnown (t : Nat) : Bool := decide (1 ≤ t) && decide (t ≤ 0xF)

/-- Framing of one folio (R362, R364). -/
def folioOk (f : Folio) : Bool :=
  f.typ != 0 && decide (f.flags < 2) && f.inst == 0 && f.pad.all (fun b => b == 0) &&
    (if f.typ = 0xF0 then decide (f.payload.length ≤ 65536) else typKnown f.typ || f.flags == 0)

/-- A list rises strictly. -/
def rising : List Nat → Bool
  | a :: b :: t => decide (a < b) && rising (b :: t)
  | _ => true

/-- Order and occurrence (R363, R364). -/
def folioOrder (fs : List Folio) : Bool :=
  let ts := (fs.map fun f => f.typ).filter typKnown
  rising ts && ts.contains 1 && ts.contains 2 && ts.contains 3

/-! ## Runs (Table 15.5) -/

/-- The registers that one run fills, in order. -/
def runFill (addr nw nrep stride : Nat) (ws : List Byte) : List (Nat × Word) :=
  (List.range nrep).flatMap fun r => (List.range nw).map fun w =>
    (addr + 4 * w + stride * r, BitVec.ofNat 32 (fieldBE ws (4 * w) 4))

/-- The runs of a payload; `none` where one is malformed or they do not fill it. -/
def runs : Nat → List Byte → Option (List (Nat × Word))
  | 0, bs => if bs.isEmpty then some [] else none
  | fuel + 1, bs =>
    if bs.isEmpty then some []
    else
      let addr := fieldBE bs 0 4
      let nw := fieldBE bs 4 2
      let nrep := fieldBE bs 6 2
      let stride := fieldBE bs 8 4
      if bs.length < 12 + 4 * nw ∨ addr % 4 ≠ 0 ∨ nw = 0 ∨ 0x100 < nw ∨ nrep = 0 ∨ 0x2000 < nrep ∨ stride % 4 ≠ 0 ∨
        (1 < nrep ∧ stride < 4 * nw) then none
      else (runs fuel (bs.drop (12 + 4 * nw))).map fun r => runFill addr nw nrep stride (slice bs 12 (4 * nw)) ++ r

/-- The bits of a register that a folio of type `t` may load (R366). -/
def loadMask (t : Nat) (r : RegDef) : Word :=
  r.mask fun a => match a with
    | .ld => true
    | .rw => t == 5
    | _ => false

/-- A word may be loaded into an address by a folio of type `t`. -/
def fillOk (t : Nat) (x : Nat × Word) : Bool :=
  match regAt x.1 with
  | some r => r.folio == t && x.2 &&& ~~~(loadMask t r) == 0
  | none => false

/-- The registers of a register folio; `none` where R365 or R366 is broken. -/
def folioFill (f : Folio) : Option (List (Nat × Word)) :=
  match runs (f.payload.length + 1) f.payload with
  | some l => if l.all (fillOk f.typ) then some l else none
  | none => none

/-- All registers that an image fills, in ascending type and run order; none twice. -/
def imageFill (fs : List Folio) : Option (List (Nat × Word)) :=
  let r := (fs.filter fun f => typKnown f.typ && f.typ != 2).foldl
    (fun (acc : Option (List (Nat × Word))) f => match acc, folioFill f with
      | some l, some m => some (l ++ m)
      | _, _ => none) (some [])
  match r with
  | some l => if (l.map fun x => x.1).Nodup then some l else none
  | none => none

/-! ## Checks 9 to 12 -/

/-- Check 9: the trailer (Table 15.2). -/
def trailerOk (h t : List Byte) (n : Nat) : Bool :=
  fieldBE t 0 4 == 0x4B584954 && fieldBE t 4 4 == imgSeq h && fieldBE t 8 4 == imgLen h && fieldBE t 12 4 == n &&
    crc32c (t.take 112) == fieldBE t 112 4

/-- Check 12: layout and signature of the firmware (R367). Log entry 15 (DESIGN CHOICE). -/
def firmwareOk (p : List Byte) : Bool :=
  let n := fieldBE p 4 4
  p.length == 80 + n && n % 8 == 0 && decide (0x1000 ≤ n) && decide (n ≤ 0x300000) && zeros p 8 8 &&
    ecdsaVerify (sha256 (p.take (16 + n))) Config.fwKeyX Config.fwKeyY (fieldBE p (16 + n) 32) (fieldBE p (48 + n) 32)

/-! ## Check 13 -/

/-- Load words into the loadable fields of registers; the other fields keep what they hold (R366). -/
def stageRegs (l : List (Nat × Word)) (d : Dev) : Dev :=
  l.foldl (fun d x => match regAt x.1 with
    | some r => d.setWord x.1 (d.word x.1 &&& ~~~(loadMask r.folio r) ||| x.2)
    | none => d) d

/-- The range statements of the field tables, over every register filled; registers of a region without a quire are not
checked (R219). -/
def rangesOk (l : List (Nat × Word)) (d : Dev) : Bool :=
  l.all fun x => match regAt x.1 with
    | none => true
    | some r => (r.folio == 13 && !d.assigned ((x.1 - 0x30000) / 0x2000)) ||
        r.fields.all fun f =>
          let v := bitsOf x.2.toNat f.lsb f.width
          !(f.acc == .ld || f.acc == .rw) || (decide (f.lo ≤ v) && decide (v ≤ f.hi))

/-- R354: a gain within its bound. -/
def gainOk (m sh mb shb : Fld) (d : Dev) : Bool :=
  decide ((d.getS m).natAbs * 2 ^ d.get shb ≤ (d.getS mb).toNat * 2 ^ d.get sh)

/-- Every gain of a region (R354). -/
def gainsOk (g : Nat) (d : Dev) : Bool :=
  (List.range 4).all fun z =>
    gainOk (RG_KR_M g z) (RG_KR_SH g z) SV_KRB_M SV_KRB_SH d &&
    (List.range 4).all fun l =>
      gainOk (RG_KP_M g z l) (RG_KP_SH g z l) (SV_KPB_M l) (SV_KPB_SH l) d &&
        gainOk (RG_KI_M g z l) (RG_KI_SH g z l) (SV_KIB_M l) (SV_KIB_SH l) d

/-- The zone thresholds ascend up to the first unused one (R205). -/
def zonesOk (g : Nat) (d : Dev) : Bool :=
  let t := fun z => d.getS (RG_ZTH_ZTH g z)
  let unused := fun z => d.get (RG_ZTH_ZTH g z) == 0x7FFFFFFF
  (List.range 2).all fun z => if unused z then unused (z + 1) else unused (z + 1) || decide (t z < t (z + 1))

/-- Role, partner and zone source of a region (R192, R219). -/
def roleOk (g : Nat) (d : Dev) : Bool :=
  let r := d.get (RG_LAWCFG_ROLE g)
  let p := d.get (RG_LAWCFG_PARTNER g)
  decide (r < 3) && d.get (RG_LAWCFG_ZSRC g) != 3 &&
    (r == 2 || (d.assigned p && d.get (RG_LAWCFG_ROLE p) == 1 - r && d.get (RG_LAWCFG_PARTNER p) == g))

/-- An input appears in its running group's sequence (R261). -/
def inputServed (i : Nat) (d : Dev) : Bool :=
  let a := i / 8
  d.flag (AD_GCFG_EN a) && (List.range (d.get (AD_GCFG_LEN a) + 1)).any fun s => seqEntry a s d == i % 8

/-- The inputs of a region (R215, R261). -/
def inputsOk (g : Nat) (d : Dev) : Bool :=
  let arm := d.get (RG_LAWCFG_ROLE g) != 2
  let ia := d.get (RG_INCFG_IAIN g)
  let vd := d.get (RG_INCFG_VDCAIN g)
  let vg := d.get (RG_INCFG_VGAIN g)
  let vp := d.get (RG_INCFG_VPAIN g)
  !d.flag (AD_INCFG_FMT ia) && d.flag (AD_INCFG_FMT vd) && d.flag (AD_INCFG_FMT vp) && inputServed ia d && inputServed vd d &&
    (!arm || (d.flag (AD_INCFG_FMT vg) && inputServed vg d))

/-- The planning positions of a region (R96). -/
def positionsOk (g : Nat) (d : Dev) : Bool :=
  let a := d.get (RG_MODCFG1_RDL g)
  let b := d.get (RG_MODCFG1_GDL g)
  let c := d.get (RG_MODCFG1_PDL g)
  let e := d.get (RG_MODCFG1_CP g)
  let f := d.get (RG_MODCFG1_RGDL g)
  let h := d.get (RG_MODCFG2_RCDL g)
  decide (1 ≤ a) && decide (a < b) && decide (b ≤ c) && decide (c < e) && decide (e < f) && decide (f < h) && decide (h ≤ 48)

/-- NCYC for a control period of `t` ticks (R206). -/
def ncycOf (g t : Nat) (d : Dev) : Int := rdiv (10 ^ 12 : Nat) (2 * d.get (RG_NOMCFG_FNOM g) * t)

/-- FULLB = 1 asks for full-bridge cells throughout the region (Table 3.7). -/
def fullbOk (g : Nat) (d : Dev) : Bool := !d.flag (RG_MODCFG0_FULLB g) || (d.cellsOf g).all fun n => d.flag (CE_CFG1_FULLB n)

/-- The rules of an assigned region (R95, R96, R108, R192, R205, R206, R219, R261, R353). -/
def regionOk (g t : Nat) (d : Dev) : Bool :=
  !d.assigned g ||
    (roleOk g d && zonesOk g d && decide (100 ≤ ncycOf g t d) && decide (ncycOf g t d ≤ 4096) &&
      decide (d.getS (RG_LIM1_UMIN g) < (d.get (RG_LIM1_UMAX g) : Int)) && fullbOk g d && gainsOk g d && decide (4 * d.get (RG_MODCFG2_TMIN g) ≤ t) &&
      positionsOk g d && inputsOk g d && decide (d.get (RG_RAMP0_RP g) ≤ d.get (SV_RAMPMAX_RAMP 0)) &&
      decide (d.get (RG_RAMP0_RQ g) ≤ d.get (SV_RAMPMAX_RAMP 1)) && decide (d.get (RG_RAMP1_RVDC g) ≤ d.get (SV_RAMPMAX_RAMP 2)) &&
      decide (d.get (RG_RAMP1_RVC g) ≤ d.get (SV_RAMPMAX_RAMP 3)) &&
      decide ((d.quiresOf g).length ≤ 16) && decide ((d.cellsOf g).length ≤ 2048))

/-- The rules of a quire (R178, R191). -/
def quireOk (q t : Nat) (d : Dev) : Bool :=
  !d.flag (QU_CFG_ASSIGNED q) ||
    (d.get (QU_CFG_NPOS q) != 0 && decide (d.get (QU_FRMCFG_ADV q) ≤ 16000) &&
      decide (d.get (QU_FRMCFG_ADV q) + d.get (RG_MODCFG2_RCDL (d.get (QU_CFG_REGION q))) * t / 64 + 500 ≤ t))

/-- Both PLLs (R263): REFM, f_PFD in 5–100 MHz, and the VCO within 0.1 ppm of its nominal frequency, in kHz. -/
def pllOk (p : Pll) (d : Dev) : Bool :=
  let vco := match p with
    | .t => 4000000
    | .s => 5000000
  let m := d.get (pllRefm p)
  let f2 := d.get PL_REFCFG_FREF * [2, 4, 1, 0].getD m 0
  let n := d.get (pllNint p) * 2 ^ 24 + d.get (pllNfrac p)
  let want := vco * 2 ^ 25
  m != 3 && decide (10000 ≤ f2) && decide (f2 ≤ 200000) &&
    decide (((f2 * n : Nat) - (want : Nat) : Int).natAbs * 10 ^ 7 ≤ want)

/-- The limit folio (R353). -/
def limitsOk (d : Dev) : Bool :=
  (List.range 4).all (fun t => decide (refVal t (d.get (SV_REFMIN_MIN t)) ≤ refVal t (d.get (SV_REFMAX_MAX t)))) &&
    (List.range 4).all (fun l => decide (0 ≤ d.getS (SV_KPB_M l)) && decide (0 ≤ d.getS (SV_KIB_M l))) &&
    decide (0 ≤ d.getS SV_KRB_M) && decide (d.get SV_TCMINL_TCMINL ≤ d.get GL_TCCFG_TC) &&
    (d.get TM_CFG_PORTEN == 0 || d.flag SV_WPERM_TIME)

/-- A mask names only regions that have a quire. -/
def maskOk (m : Nat) (d : Dev) : Bool := (maskRegions m).all fun g => d.assigned g

/-- The fault folio (R307). -/
def faultOk (d : Dev) : Bool :=
  (List.range 4).all (fun x =>
    maskOk (d.get (FC_TRIPCFG_REGMASK x)) d &&
      (!d.flag (FC_TRIPCFG_EN x) || d.get (FC_TRIPCFG_REGMASK x) != 0 || d.flag (FC_TRIPCFG_DEV x))) &&
    (List.range 32).all (fun i =>
      maskOk (d.get (FC_AMCFG_REGMASK i)) d && !(d.get (FC_AMCFG_ACT i) == 2 && d.get (FC_AMCFG_REGMASK i) == 0) &&
        (d.get (FC_AMCFG_ACT i) == 0 || decide (d.getS (FC_AMLO_LO i) < d.getS (FC_AMHI_HI i)))) &&
    maskOk (d.get FC_TOCFG_RGMASK0) d && maskOk (d.get FC_TOCFG_RGMASK1) d &&
    (List.range 8).all fun g => decide (d.get (FC_RSV_MINHLT g) ≤ (d.cellsOf g).length)

/-- The safety folio (R324). -/
def safetyOk (d : Dev) : Bool :=
  (List.range 8).all (fun i => !d.flag (SF_INCFG_EN i) || d.get (SF_INCFG_OMASK i) != 0) &&
    (List.range 2).all fun x => !(if x = 0 then d.flag SF_OCFG_EN0 else d.flag SF_OCFG_EN1) ||
      (List.range 8).any fun i => d.flag (SF_INCFG_EN i) && d.bit (SF_INCFG_OMASK i) x

/-- The recorder folio (R341). -/
def recorderOk (d : Dev) : Bool :=
  maskOk (d.get DR_SRCCFG_CELLRG) d && maskOk (d.get DR_SRCCFG_ARMRG) d &&
    (List.range 8).all fun u => !d.flag (DR_TCFG_EN u) ||
      (decide (d.get (DR_TCFG_KIND u) ≤ 9) && !(d.get (DR_TCFG_LINESEL u) == 0 && d.get (DR_TCFG_COMB u) != 0))

/-- A port's own configuration (R428). -/
def portOk (x : Nat) (d : Dev) : Bool :=
  let v6 := d.flag (NT_PCFG_IPV6 x)
  let p := d.get (NT_PFX_PFX x)
  let h := 2 ^ (32 - p)
  let a := d.get (NT_IP4_ADDR x)
  (if v6 then decide (0x40 ≤ p) && decide (p ≤ 0x7F) else decide (8 ≤ p) && decide (p ≤ 0x1E)) &&
    (!d.flag (NT_PCFG_EN x) ||
      (!(d.get (NT_MACHI_MACH x) == 0 && d.get (NT_MACLO_MACL x) == 0) && !d.bit (NT_MACHI_MACH x) 8 &&
        (v6 || (a != 0 && a % h != 0 && a % h != h - 1))))

/-- The network folio (R428). -/
def networkOk (d : Dev) : Bool :=
  portOk 0 d && portOk 1 d &&
    (List.range 4).all (fun h => !d.bit NT_PEERCFG_PEER (4 * h) || peerAddr h d != 0) &&
    d.get NT_IPCFG_UDPPORT != d.get NT_IPCFG_DPORT && (!d.flag NT_MNTCFG_IMGEN || d.flag NT_MNTCFG_MEN)

/-- The budget of R179 for a quire whose own end `e` reaches every position, for a control period of `t` ticks: margin of the farthest
entry, length of the frame, arrival of the last report. No delay has been measured when an image is checked: each counts as the 0
that LN_TMXD shows, at the highest step of the lane. Log entry 28 (DEDUCED). -/
def budgetOk (q e t : Nat) (d : Dev) : Bool :=
  let npos := d.get (QU_CFG_NPOS q)
  let adv := d.get (QU_FRMCFG_ADV q)
  let step := d.get (LN_CFG_MAXSTEP (2 * q + e))
  let blocks := fun (n : Nat) => n * 32 * 2 ^ (3 - step)
  decide (10 * d.get (QU_FRMCFG_GUARD q) + blocks (9 + npos) ≤ 10 * adv) &&
    decide (blocks (42 + 3 * npos + 2 * d.get (QU_FRMCFG_NEVS q)) ≤ 10 * t) &&
    decide (blocks (9 + 3 * npos) ≤ 10 * (adv + d.get (RG_MODCFG1_RDL (d.get (QU_CFG_REGION q))) * t / 64))

/-- Pair operation (R232). -/
def pairOk (t : Nat) (d : Dev) : Bool :=
  let e := d.get GL_TWCFG_END
  !d.flag GL_TWCFG_PAIR ||
    (d.flag (LN_CFG_EN 128) && d.flag (LN_CFG_EN 129) &&
      (List.range 64).all fun q => !d.flag (LN_CFG_EN (2 * q + (1 - e))) && (!d.flag (QU_CFG_ASSIGNED q) || budgetOk q e t d))

/-- The remaining rules: thresholds (R45), lanes (R146), cell engines, and LPMODE (R261). -/
def plainOk (l : List (Nat × Word)) (d : Dev) : Bool :=
  (List.range 6).all (fun x => decide (0x200 ≤ d.get (FB_CLSTHR_ACT x)) &&
      decide (d.get (FB_CLSTHR_ACT x) < d.get (FB_CLSTHR_WARN x)) &&
      decide (d.get (FB_CLSTHR_WARN x) < d.get (FB_CLSRELAX_RELAX x))) &&
    (List.range 130).all (fun i => decide (d.get (LN_CFG_FFEPRE i) + d.get (LN_CFG_FFEPOST i) ≤ 12)) &&
    (List.range 4).all (fun a => d.get (AD_GCFG_LPMODE a) != 3) &&
    l.all fun x => !(decide (0x100000 ≤ x.1) && decide (x.1 < 0x200000) && x.1 % 0x80 == 0x54) ||
      decide (bitsOf x.2.toNat 16 8 < bitsOf x.2.toNat 0 8)

/-- Check 13: every range and cross-folio rule (R369). Log entry 28 (DEDUCED). -/
def rulesOk (l : List (Nat × Word)) (d0 : Dev) : Bool :=
  let d := stageRegs l d0
  let t := ticksOfCode (d.get GL_TCCFG_TC)
  rangesOk l d && limitsOk d && plainOk l d && pllOk .t d && pllOk .s d && networkOk d && safetyOk d && faultOk d &&
    recorderOk d && pairOk t d && (List.range 8).all (fun g => regionOk g t d) && (List.range 64).all fun q => quireOk q t d

/-! ## A whole image -/

/-- What an image that passes leaves to be applied. -/
structure Loaded where
  regs : List (Nat × Word)
  skip : Nat
  seq : Nat
  slot : Nat
  ownX : Nat
  ownY : Nat
  fwver : Nat
  code : List Byte
  folio : Nat
  safety : Bool
  deriving DecidableEq, Repr

/-- The digest of a folio type (R368). Log entry 28 (DEDUCED). -/
def folioDigest (fs : List Folio) (t : Nat) : Nat := sha256 ((fs.filter fun f => f.typ == t).flatMap fun f => f.raw)

/-- Checks 6 to 13 on a bank whose header passed: the cause of the first that fails, or what is to be loaded.
Log entry 28 (DEDUCED). -/
def bodyCheck (k : Fuse) (b : Bank) (d : Dev) : Nat × Option Loaded :=
  let h := imgBytes 128 b
  let n := imgLen h
  let img := imgBytes n b
  let t := slice img (n - 116) 116
  if ¬ keyOk k h then (4, none)
  else match folios img (n - 116) (n + 1) 128 with
  | none => (9, none)
  | some (fs, ends) =>
    if ¬ (ends && fs.all folioOk && folioOrder fs) then (0xA, none)
    else match imageFill fs with
    | none => (0xA, none)
    | some l =>
      let fw := (fs.filter fun f => f.typ == 2).flatMap fun f => f.payload
      if ¬ trailerOk h t fs.length then (6, none)
      else if sha256 (img.take (n - 100)) ≠ fieldBE t 16 32 then (7, none)
      else if ¬ ecdsaVerify (fieldBE t 16 32) (fieldBE h 32 32) (fieldBE h 64 32) (fieldBE t 48 32) (fieldBE t 80 32) then
        (8, none)
      else if ¬ firmwareOk fw then (0xB, none)
      else if ¬ (zeros h 21 3 && zeros h 30 2 && zeros h 96 28 && rulesOk l { d with regs := [] }) then (0xC, none)
      else
        let dig := [13, 12, 14, 1].flatMap fun x => bytesBE 32 (folioDigest fs x)
        (0, some ⟨l, (fs.filter fun f => !typKnown f.typ).length, imgSeq h, imgSlot h, fieldBE h 32 32, fieldBE h 64 32,
          fieldBE fw 0 4, slice fw 16 (fieldBE fw 4 4), sha256 dig, fs.any fun f => f.typ == 8⟩)

/-- The candidates in their order (R371): `true` is bank B. -/
def candidates (a b : Bank) : List Bool :=
  let ca := bankCause a
  let cb := bankCause b
  if ca = 0 ∧ cb = 0 then
    (if imgSeq (imgBytes 128 a) < imgSeq (imgBytes 128 b) then [true, false] else [false, true])
  else if ca = 0 then [false]
  else if cb = 0 then [true]
  else []

/-- The words of a key hash as GL_KEYHASH shows them. -/
def showHash (h : Nat) (d : Dev) : Dev := foldN 8 (fun d w => d.put (GL_KEYHASH_HASH w) (h / 2 ^ (32 * (7 - w)))) d

/-- Load in one step (R370): registers in ascending type, the supervisors' code, the image's identity, the estimates at nominal
(R73), the safety configuration, and the PLLs as if UPD had been written (R264, R383). -/
def imageApply (x : Loaded) (d : Dev) : Dev :=
  let d := stageRegs x.regs d
  let d := (d.put GL_IMGSEQ_SEQ x.seq).put GL_FWVER_FWVER x.fwver
  let d := (d.put GL_IMGSTAT_SKIPCNT (min x.skip 0xFFFF)).put GL_IMGSTAT_KEYSLOT x.slot
  let d := showHash (slotHash d.su.keys x.slot) d
  let d := { d with
    su := { d.su with imageOk := true, folio := x.folio, ownX := x.ownX, ownY := x.ownY, svCode := x.code }
    sf := { d.sf with folio := x.safety }
    tm := { d.tm with pllLoaded := true } }
  let d := (List.range 8192).foldr estNominal d
  pllUpdate .s (pllUpdate .t d)

/-- The choice of the bank (R371): causes, SEQ of both banks, and the image applied; STOP where none passes. -/
def imageLoad (a b : Bank) (d : Dev) : Dev :=
  if d.mode ≠ modeLOAD ∨ d.su.imageOk then d
  else
    let ca := bankCause a
    let cb := bankCause b
    let cause := fun (isB : Bool) => if isB then cb else ca
    let fld := fun (isB : Bool) => if isB then GL_IMGSTAT_BCAUSE else GL_IMGSTAT_ACAUSE
    let bank := fun (isB : Bool) => if isB then b else a
    let d := if ca = 0 then d else d.put GL_IMGSTAT_ACAUSE ca
    let d := if cb = 0 then d else d.put GL_IMGSTAT_BCAUSE cb
    let r := (candidates a b).foldl (fun (acc : Option (Bool × Loaded) × Dev) c =>
      match acc.1 with
      | some _ => acc
      | none =>
        let x := bodyCheck d.su.keys (bank c) d
        (x.2.map fun y => (c, y), acc.2.put (fld c) x.1)) (none, d)
    match r.1 with
    | none => r.2.raise FC_CHIP_BOOT .stop
    | some (c, y) =>
      let d := r.2
      let oc := d.get (fld (!c))
      let d := d.putB GL_IMGSTAT_BANK c
      let d := d.putB GL_IMGSTAT_FALLBK (oc != 0 && oc != 0xE)
      let d := d.putB GL_IMGSTAT_ALTHV (cause (!c) == 0)
      let d := if cause (!c) = 0 then d.put GL_IMGALT_SEQ (imgSeq (imgBytes 128 (bank (!c)))) else d
      imageApply y d

end Sys2Proof.Machine
end

