-- ==== Sys2Proof/Machine/Recorder.lean ====
section
/-! DEFINITION. The disturbance recorder (chapter 13): reorder stage, writing in key order, change-only storage, records and
their states, trigger units and lines. -/

namespace Sys2Proof.Machine

/-- Recorder states (Table 13.3). -/
def drIDLE : Nat := 0
def drARMED : Nat := 1
def drPOST : Nat := 2
def drHELD : Nat := 3

/-! ## Slots of a record (R332, R335) -/

/-- Number of records and slots of each. -/
def nRec (d : Dev) : Nat := 2 ^ d.get DR_CFG_NRECL
def recSize (d : Dev) : Nat := 2 ^ 20 / nRec d

/-- Pages of record `r` that are out of service. -/
def recRemoved (r : Nat) (d : Dev) : Nat :=
  (d.dr.removed.filter fun p => p * 128 / recSize d == r).length

/-- Entries record `r` can hold. -/
def recCap (r : Nat) (d : Dev) : Nat := recSize d - 128 * recRemoved r d

/-- First offset at or after `o` of record `r` that lies in a page in service, wrapping; `n` pages may be tried. -/
def skipPages (d : Dev) (r : Nat) : Nat → Nat → Nat
  | 0, o => o
  | n + 1, o =>
    if d.dr.removed.contains ((r * recSize d + o) / 128) then skipPages d r n ((o / 128 + 1) * 128 % recSize d) else o

/-- The offset after `o` in record `r`, wrapping and skipping removed pages. -/
def nextOff (d : Dev) (r o : Nat) : Nat := skipPages d r 8193 ((o + 1) % recSize d)

/-- Advance an offset by `n` entries. -/
def advOff (d : Dev) (r : Nat) : Nat → Nat → Nat
  | 0, o => o
  | n + 1, o => advOff d r n (nextOff d r o)

/-! ## Records -/

/-- A record that is free: not complete. -/
def recFree (d : Dev) (r : Nat) : Bool := !d.bit DR_STAT_FULL r

/-- Start a record: empty, and the change comparisons begin anew (R328, R332). -/
def recStart (r : Nat) (d : Dev) : Dev :=
  let o := skipPages d r 8193 0
  let d := ((d.put DR_STAT_STATE drARMED).put DR_STAT_CUR r).put (DR_RSTART_SLOT r) o
  let d := ((d.put (DR_RCOUNT_COUNT r) 0).put (DR_RTRIG_TV r) 0).put (DR_RTRIG_SLOT r) 0
  let d := d.setWord (DR_RSTAT r) 0
  { d with dr := { d.dr with
      armAt := d.nowNs, num := 0, wr := o, trigWr := false, trigWait := none, keys := [], cellLast := [], ainLast := [] } }

/-- ARM, or entry to IDLE with AUTOARM: from IDLE with EN = 1 and a free record, into the lowest-numbered one (Table
13.3). -/
def recArm (d : Dev) : Dev :=
  if d.get DR_STAT_STATE = drIDLE ∧ d.flag DR_CFG_EN then
    match (List.range (nRec d)).find? (recFree d) with
    | some r => recStart r d
    | none => d
  else d

/-- Free record `r` (R333). -/
def recRelease (r : Nat) (d : Dev) : Dev :=
  let d := d.putBit DR_STAT_FULL r false
  ((d.put (DR_RCOUNT_COUNT r) 0).put (DR_RTRIG_TV r) 0).setWord (DR_RSTAT r) 0

/-- The complete record with the earliest trigger instant. -/
def recOldest (d : Dev) : Option Nat :=
  ((List.range (nRec d)).filter fun r => d.bit DR_STAT_FULL r).foldl
    (fun best r => match best with
      | none => some r
      | some b => if smGet (fun _ => 0) d.dr.trigAt r < smGet (fun _ => 0) d.dr.trigAt b then some r else some b) none

/-- At its TRIG entry, or where it completes before that is written, the record keeps the newest floor(size × PRE / 16) of the entries
whose keys precede the trigger instant, and those written since (R333). -/
def recCut (d : Dev) : Dev :=
  let r := d.get DR_STAT_CUR
  let n := d.get (DR_RCOUNT_COUNT r)
  let t := smGet (fun _ => 0) d.dr.trigAt r
  let pre := ((d.dr.keys.take n).filter fun k => decide (k < t)).length
  let keep := recCap r d * d.get DR_CFG_PRE / 16
  if pre < keep then d
  else
    let d := d.put (DR_RSTAT_PREFULL r) 1
    (d.put (DR_RSTART_SLOT r) (advOff d r (pre - keep) (d.get (DR_RSTART_SLOT r)))).put (DR_RCOUNT_COUNT r) (n - (pre - keep))

/-- The cut of a record that completes after its trigger and before its TRIG entry. -/
def recCutOwed (d : Dev) : Dev := if d.get DR_STAT_STATE = drPOST ∧ ¬ d.dr.trigWr then recCut d else d

/-- The record is complete (R333): the next free record, a freed one in a ring, or HELD. -/
def recComplete (d : Dev) : Dev :=
  let r := d.get DR_STAT_CUR
  let d := recCutOwed d
  let d := (d.put (DR_RSTAT_FULL r) 1).putBit DR_STAT_FULL r true
  match ((List.range (nRec d)).map fun k => (r + 1 + k) % nRec d).find? (recFree d) with
  | some k => recStart k d
  | none =>
    match (if d.flag DR_CFG_RING then recOldest d else none) with
    | some k => recStart k (recRelease k d)
    | none => (d.put DR_STAT_STATE drHELD).raise DR_EVT_HELD .notice

/-- The record being written holds all it may after its trigger. -/
def recFull (d : Dev) : Bool :=
  let r := d.get DR_STAT_CUR
  d.get DR_STAT_STATE == drPOST && d.dr.trigWr && decide (recCap r d ≤ d.get (DR_RCOUNT_COUNT r))

/-- DISARM (R334): ARMED frees the record, POST completes it with what it holds. -/
def recDisarm (d : Dev) : Dev :=
  let r := d.get DR_STAT_CUR
  let st := d.get DR_STAT_STATE
  let d := recCutOwed d
  let d := if st = drPOST then (d.put (DR_RSTAT_FULL r) 1).putBit DR_STAT_FULL r true
    else if st = drARMED then recRelease r d else d
  d.put DR_STAT_STATE drIDLE

/-- Entry to STOP (R302, R334): writing stops and the records stay as they are; the XTRIG lines are released (R454). -/
def recStop (d : Dev) : Dev := { d.put DR_STAT_STATE drIDLE with dr := { d.dr with drive := 0 } }

/-! ## Triggers (R332, R337, R338) -/

/-- A trigger in ARMED or POST: TRIG entry with its causes, unit counters, lines driven, relay to the twin. A trigger
whose instant precedes the start of the record has no effect (R334). -/
def recTrigger (units lines : Nat) (force late relayed : Bool) (t : Nat) (d : Dev) : Dev :=
  let st := d.get DR_STAT_STATE
  if (st ≠ drARMED ∧ st ≠ drPOST) ∨ t < d.dr.armAt then d
  else
    let r := d.get DR_STAT_CUR
    let x0 := d.flag DR_XCFG_XOUT0EN
    let x1 := d.flag DR_XCFG_XOUT1EN
    let tw := d.flag DR_XCFG_TWOUT && !relayed
    let d := foldN 8 (fun d u => if bitOf units u then d.bump (DR_TCFG_TCNT u) else d) d
    let d := if st = drARMED then
        let d := ((d.put DR_STAT_STATE drPOST).put (DR_RTRIG_TV r) 1).put (DR_RSTAT_UNITS r) units
        let d := (d.put (DR_RSTAT_LINES r) lines).putB (DR_RSTAT_FORCE r) force
        { d with dr := { d.dr with trigAt := smSet (fun _ => 0) d.dr.trigAt r t } }
      else d
    let d := { d with dr := { d.dr with
        drive := d.dr.drive ||| (b2n x0 + 2 * b2n x1)
        twTrig := if tw then d.dr.twTrig ++ [t] else d.dr.twTrig } }
    let d := d.source kTRIG (units + 256 * b2n force + 512 * lines) t (b2n x0 + 2 * b2n x1 + 4 * b2n tw) late
    if st = drARMED then { d with dr := { d.dr with trigWait := d.dr.inq.getLast? } } else d

/-- Whether an entry matches the pattern of unit `u` (R336). -/
def unitMatch (e : RecEntry) (d : Dev) (u : Nat) : Bool :=
  d.flag (DR_TCFG_EN u) && d.get (DR_TCFG_KIND u) == e.kind.toNat &&
    ((e.src.toNat ^^^ d.get (DR_TID_SRC u)) &&& d.get (DR_TIDM_SRCM u)) == 0 &&
    ((bitsOf e.payload.toNat (32 * d.get (DR_TCFG_WSEL u)) 32 ^^^ d.get (DR_TMATCH_MATCH u)) &&&
      d.get (DR_TMASK_MASK u)) == 0

/-- Two instants lie within the window of unit `u`. -/
def unitNear (u a b : Nat) (d : Dev) : Bool :=
  decide (a ≤ b + 1000 * d.get (DR_TCFG_WIN u)) && decide (b ≤ a + 1000 * d.get (DR_TCFG_WIN u))

/-- A firing: the unit, the instant that completes its condition, and the lines it names. -/
abbrev Firing := Nat × Nat × Nat

/-- The firings whose instant does not precede the ARM that started the record: the others have no effect (R334). -/
def armedFirings (d : Dev) (fs : List Firing) : List Firing := fs.filter fun f => decide (d.dr.armAt ≤ f.2.1)

/-- The earliest of several firings of one unit that have an effect. -/
def firstFiring (d : Dev) (fs : List Firing) : Option Firing :=
  (armedFirings d fs).foldl (fun best f => match best with
    | none => some f
    | some b => if f.2.1 < b.2.1 then some f else some b) none

/-- Unit `u` selects `line`. -/
def unitLine (u line : Nat) (d : Dev) : Bool := d.flag (DR_TCFG_EN u) && d.bit (DR_TCFG_LINESEL u) line

/-- Units that fire on an entry as it leaves the stage (Table 13.4). -/
def entryFires (e : RecEntry) (d : Dev) : List Firing :=
  (List.range 8).filterMap fun u =>
    if ¬ unitMatch e d u then none
    else match d.get (DR_TCFG_COMB u) with
      | 0 => some (u, e.key, 0)
      | 2 => some (u, e.key, 0)
      | 1 => firstFiring d ((d.dr.lineAt.filter fun l => unitLine u l.1 d && unitNear u l.2 e.key d).map fun l =>
          (u, max l.2 e.key, 2 ^ l.1))
      | _ => none

/-- Units that fire on a line event (Table 13.4). -/
def lineFires (line t : Nat) (d : Dev) : List Firing :=
  (List.range 8).filterMap fun u =>
    if ¬ unitLine u line d then none
    else match d.get (DR_TCFG_COMB u) with
      | 3 => some (u, t, 2 ^ line)
      | 2 => some (u, t, 2 ^ line)
      | 1 => firstFiring d ((d.dr.unitAt.filter fun k => k.1 == u && unitNear u k.2 t d).map fun k =>
          (u, max k.2 t, 2 ^ line))
      | _ => none

/-- What fires in one step forms one trigger that lists every cause; its instant is the earliest (R332).
Log entry 67 (DEDUCED). -/
def fire (fs : List Firing) (late : Bool) (d : Dev) : Dev :=
  let fs := armedFirings d fs
  match fs with
  | [] => d
  | f :: _ =>
    recTrigger (fs.foldl (fun m p => setBit m p.1) 0) (fs.foldl (fun m p => m ||| p.2.2) 0) false late false
      (fs.foldl (fun m p => min m p.2.1) f.2.1) d

/-- Some enabled unit combines entries with events of `line` (COMB 0x1). -/
def lineKept (line : Nat) (d : Dev) : Bool := (List.range 8).any fun u => unitLine u line d && d.get (DR_TCFG_COMB u) == 1

/-- A line event is remembered while a unit may combine it with an entry (Table 13.4). -/
def lineNote (line t : Nat) (d : Dev) : Dev :=
  if lineKept line d then { d with dr := { d.dr with lineAt := (line, t) :: d.dr.lineAt } } else d

/-- Line events of one step (R336), each with its instant: they fire the units that select the lines. -/
def lineEvents (ls : List (Nat × Nat)) (d : Dev) : Dev :=
  let fs := ls.flatMap fun l => lineFires l.1 l.2 d
  fire fs false (ls.foldl (fun d l => lineNote l.1 l.2 d) d)

/-- A line event alone in its step. -/
def lineEvent (line t : Nat) (d : Dev) : Dev := lineEvents [(line, t)] d

/-! ## The reorder stage (R327, R331) -/

/-- Places of the stage; the last 1,024 accept only KINDs 0x4 to 0x9. -/
def stageRoom (e : RecEntry) (d : Dev) : Bool :=
  let n := d.dr.stage.length
  decide (n < 15360) || (decide (n < 16384) && decide (4 ≤ e.kind.toNat) && decide (e.kind.toNat ≤ 9))

/-- Put an entry into the stage; one older than the last written takes that key and counts as late (R327). LATE shows on
CELLREP, CELLEV and what comes of a relayed twin trigger: its LINE entry, and a TRIG entry that names line 2. -/
def stageIn (e : RecEntry) (d : Dev) : Dev :=
  let lk := d.dr.lastKey.getD 0
  let isLate := d.dr.lastKey.isSome && decide (e.key < lk)
  let twin := (e.kind == kLINE && e.src.toNat == 2) || (e.kind == kTRIG && bitOf e.src.toNat 11)
  let e' : RecEntry := if isLate then { e with key := lk, late := e.kind == kCELLREP || e.kind == kCELLEV || twin }
    else { e with late := false }
  let d := { d with dr := { d.dr with
      stage := d.dr.stage ++ [e']
      newest := max d.dr.newest e.key
      trigWait := if d.dr.trigWait == some e then some e' else d.dr.trigWait } }
  if isLate then (d.bump DR_CNT_LATECNT).raise DR_EVT_LATE .notice else d

/-- The oldest entry of the sources reaches the stage, or is dropped (R331). -/
def entryIn (d : Dev) : Dev :=
  match d.dr.inq with
  | [] => d
  | e :: rest =>
    let d := { d with dr := { d.dr with inq := rest } }
    if stageRoom e d then stageIn e d
    else
      let d := { d with dr := { d.dr with
          dropN := d.dr.dropN + 1, dropKey := if d.dr.dropN = 0 then e.key else d.dr.dropKey } }
      (d.bump DR_CNT_DROPCNT).raise DR_EVT_DROP .notice

/-- Space has returned: one GAP entry with the number dropped and the first dropped key (R331). Log entry 67 (DEDUCED). -/
def gapEntry (d : Dev) : Dev :=
  let e : RecEntry := ⟨kGAP, false, false, 0, d.dr.dropKey, BitVec.ofNat 128 (d.dr.dropN % 2 ^ 32)⟩
  if d.dr.dropN = 0 ∨ ¬ stageRoom e d then d
  else stageIn e { d with dr := { d.dr with dropN := 0, dropKey := 0 } }

/-- The order in which entries leave: key, then KIND, then SRC (R327). -/
def entryLt (a b : RecEntry) : Bool :=
  decide (a.key < b.key) || (a.key == b.key &&
    (decide (a.kind.toNat < b.kind.toNat) || (a.kind == b.kind && decide (a.src.toNat < b.src.toNat))))

/-- The first entry in that order. -/
def stageMin : List RecEntry → Option RecEntry
  | [] => none
  | e :: t => match stageMin t with
    | none => some e
    | some m => if entryLt m e then some m else some e

/-- The horizon H in nanoseconds. -/
def horizon (d : Dev) : Nat := d.get DR_CFG_HOR * d.tm.tTicks * 2

/-- Whether a change-only entry is stored (R328): CELLREP by STATUS, STCAP, LOSSRUN, VCAP and TEMP, AIN by any value. -/
def recChanged (e : RecEntry) (d : Dev) : Bool :=
  if e.refr then true
  else if e.kind = kCELLREP then
    match smGet (fun _ => none) d.dr.cellLast e.src.toNat with
    | none => true
    | some l =>
      let p := e.payload.toNat
      let q := l.toNat
      bitsOf p 64 16 != bitsOf q 64 16 || bitsOf p 40 3 != bitsOf q 40 3 || bitsOf p 88 4 != bitsOf q 88 4 ||
        decide (d.get DR_SRCCFG_VDB ≤ ((bitsOf p 0 16 : Int) - bitsOf q 0 16).natAbs) ||
        decide (16 ≤ (toS 12 (bitsOf p 44 12) - toS 12 (bitsOf q 44 12)).natAbs)
  else if e.kind = kAIN then
    match smGet (fun _ => none) d.dr.ainLast (e.src.toNat % 64) with
    | none => true
    | some l => bitsOf e.payload.toNat 0 96 != bitsOf l.toNat 0 96
  else true

/-- Remember what was stored of a change-only source; a refresh leaves the comparison alone (R329). -/
def remember (e : RecEntry) (d : Dev) : Dev :=
  if e.refr then d
  else if e.kind = kCELLREP then
    { d with dr := { d.dr with cellLast := smSet (fun _ => none) d.dr.cellLast e.src.toNat (some e.payload) } }
  else if e.kind = kAIN then
    { d with dr := { d.dr with ainLast := smSet (fun _ => none) d.dr.ainLast (e.src.toNat % 64) (some e.payload) } }
  else d

/-- The 256 bits of a slot (Table 13.1). -/
def slotBits (e : RecEntry) (num : Nat) : BitVec 256 :=
  BitVec.ofNat 256 (e.kind.toNat + 2 ^ 4 * b2n e.late + 2 ^ 5 * b2n e.refr + 2 ^ 8 * e.src.toNat +
    2 ^ 32 * (num % 2 ^ 32) + 2 ^ 64 * (e.key % 10 ^ 9) + 2 ^ 96 * (e.key / 10 ^ 9 % 2 ^ 32) +
    2 ^ 128 * e.payload.toNat)

/-- What a slot reads that nothing has written. Log entry 2 (DESIGN CHOICE). -/
def slotNone (_ : Nat) : BitVec 256 := 0

/-- A slot of the recorder memory, and storing one (R325). Log entry 2 (DESIGN CHOICE). -/
def slotGet (m : List (Nat × BitVec 256)) (s : Nat) : BitVec 256 := smGet slotNone m s
/-- Log entry 2 (DESIGN CHOICE). -/
def slotSet (m : List (Nat × BitVec 256)) (s : Nat) (v : BitVec 256) : List (Nat × BitVec 256) := smSet slotNone m s v

/-- The canonical form of the recorder memory. -/
def Memory.wf (m : List (Nat × BitVec 256)) : Bool := smWf slotNone m

/-- Write an entry into the present record, as a ring over its slots in service; answers where and what. -/
def recPut (e : RecEntry) (d : Dev) : Dev × Option (Nat × BitVec 256) :=
  let isTrig := d.dr.trigWait == some e && d.get DR_STAT_STATE == drPOST
  let d := if isTrig then recCut d else d
  let r := d.get DR_STAT_CUR
  let o := d.dr.wr
  if recCap r d = 0 then (d, none)
  else
    let slot := r * recSize d + o
    let v := slotBits e d.dr.num
    let n := d.get (DR_RCOUNT_COUNT r)
    let d := if n < recCap r d then d.put (DR_RCOUNT_COUNT r) (n + 1)
      else d.put (DR_RSTART_SLOT r) (nextOff d r (d.get (DR_RSTART_SLOT r)))
    let d := if isTrig then { (d.put (DR_RTRIG_SLOT r) o) with dr := { d.dr with trigWr := true, trigWait := none } } else d
    let d := injStore (.recorder (Fin.ofNat 8192 (slot / 128))) d
    ({ d with dr := { d.dr with
        wr := nextOff d r o, num := d.dr.num + 1, lastKey := some e.key, keys := e.key :: d.dr.keys } }, some (slot, v))

/-- The entry due leaves the stage (R327): trigger units see it first (R330), then it is stored if the recorder writes and
the change-only test keeps it. -/
def entryWriteD (d : Dev) : Dev × Option (Nat × BitVec 256) :=
  match stageMin d.dr.stage with
  | none => (d, none)
  | some e =>
    if ¬ (d.live ∧ e.key + horizon d ≤ d.dr.newest) then (d, none)
    else
      let d := { d with dr := { d.dr with stage := d.dr.stage.erase e, lastKey := some e.key } }
      let d := if recFull d then recComplete d else d
      let fs := entryFires e d
      let d := foldN 8 (fun d u => if unitMatch e d u ∧ d.get (DR_TCFG_COMB u) = 1 then
          { d with dr := { d.dr with unitAt := (u, e.key) :: d.dr.unitAt } } else d) d
      let st := d.get DR_STAT_STATE
      let (d, w) := if (st = drARMED ∨ st = drPOST) ∧ recChanged e d then recPut e (remember e d) else (d, none)
      (fire fs e.late d, w)

/-- The entry due is written to the recorder memory (R325, R327). -/
def entryWrite (s : State) : State :=
  match entryWriteD s.dev with
  | (d, none) => { s with dev := d }
  | (d, some (slot, v)) => { s with dev := d, recMem := slotSet s.recMem slot v }

/-- The record has reached its size (R333). -/
def recordCompleteD (d : Dev) : Dev := if recFull d then recComplete d else d

/-- POSTMAX ms have passed since the trigger (R333). -/
def postmaxExpired (d : Dev) : Dev :=
  if d.get DR_STAT_STATE = drPOST ∧ d.get DR_CFG_POSTMAX ≠ 0 then recComplete d else d

/-! ## DR_CTL (R334) -/

/-- Whether a DR_CTL word is acceptable: ARM only in IDLE, FORCE only in ARMED and POST, no REL of the record being
written. -/
def drCtlOk (w : Nat) (d : Dev) : Bool :=
  let st := d.get DR_STAT_STATE
  let busy := st == drARMED || st == drPOST
  (!bitOf w 0 || st == drIDLE) && (!bitOf w 1 || busy) && !(busy && bitOf w (16 + d.get DR_STAT_CUR))

/-- Free the records of a REL mask; from HELD the recorder arms into the first freed one (Table 13.3). -/
def recRel (mask : Nat) (d : Dev) : Dev :=
  let rs := (List.range (nRec d)).filter fun r => bitOf mask r && d.bit DR_STAT_FULL r
  let held := d.get DR_STAT_STATE == drHELD
  let d := rs.foldl (fun d r => recRelease r d) d
  match rs with
  | [] => d
  | r :: _ => if held then recStart r d else d

/-- Write of DR_CTL: each bit acts. -/
def wrDrCtl (o : Origin) (w : Word) (d : Dev) : Bool × Dev :=
  let n := w.toNat
  shellWrite o .recd (decide (n % 2 ^ 16 < 8) && drCtlOk n d) (fun d =>
    let d := if n / 2 ^ 16 ≠ 0 then recRel (n / 2 ^ 16) d else d
    let d := if bitOf n 0 then recArm d else d
    let d := if bitOf n 1 then recTrigger 0 0 true false false d.nowNs d else d
    if bitOf n 2 then recDisarm d else d) d

/-! ## Lines (R337) -/

/-- The input of XTRIG `x` is enabled. -/
def xinEn (x : Nat) (d : Dev) : Bool := if x = 0 then d.flag DR_XCFG_XIN0EN else d.flag DR_XCFG_XIN1EN

/-- An XTRIG input asserts at tick `tk`: its instant is the first tick of the active run less the skew. The line's own
input ignores assertions while the device drives it and for 1.0 µs afterwards. -/
def xtrigIn (x tk : Nat) (d : Dev) : Dev :=
  if ¬ (d.live ∧ xinEn x d) ∨ bitOf d.dr.drive x ∨ 2 * (d.tm.bj + tk) < smGet (fun _ => 0) d.dr.lockUntil x then d
  else
    let d := d.at_ tk
    let sk := if x = 0 then d.get DR_XSKEW_SKEW0 else d.get DR_XSKEW_SKEW1
    let t := 2 * (d.tm.bj + tk) - 100 * d.get DR_XCFG_XFILT - sk
    let d := { d with dr := { d.dr with xAsserted := setBit d.dr.xAsserted x } }
    lineEvent x t (d.source kLINE x t 1)

/-- An XTRIG input that asserted returns inactive. -/
def xtrigOut (x tk : Nat) (d : Dev) : Dev :=
  if ¬ (d.live ∧ xinEn x d) ∨ ¬ bitOf d.dr.xAsserted x then d
  else
    let d := d.at_ tk
    let d := { d with dr := { d.dr with xAsserted := clrBit d.dr.xAsserted x } }
    d.source kLINE x (2 * (d.tm.bj + tk)) 0

/-- The drive of XTRIG `x` ends; its input stays deaf for 1.0 µs. -/
def xtrigEnd (x : Nat) (d : Dev) : Dev :=
  if bitOf d.dr.drive x then
    { d with dr := { d.dr with
        drive := clrBit d.dr.drive x
        lockUntil := smSet (fun _ => 0) d.dr.lockUntil x (d.nowNs + 1000) } }
  else d

/-- The lines that one STAT record relays (R298, R338): trip lines `ls` and, while TWIN = 1, the twin's triggers at the instants
`ts`, each line 2. All of them that do not precede the ARM form one trigger (R332, R334); one that has no cause but the twin's is not
relayed back. -/
def relayEvents (ls : List (Nat × Nat)) (ts : List Nat) (d : Dev) : Dev :=
  let ts := if d.flag DR_XCFG_TWIN then ts else []
  let all := ls ++ ts.map fun t => (2, t)
  let own := ls.flatMap fun l => lineFires l.1 l.2 d
  let twin := ts.flatMap fun t => lineFires 2 t d
  let d := ts.foldl (fun d t => d.source kLINE 2 t 1) d
  let d := all.foldl (fun d l => lineNote l.1 l.2 d) d
  match ts.filter fun t => decide (d.dr.armAt ≤ t) with
  | [] => fire (own ++ twin) false d
  | t :: us =>
    let own := armedFirings d own
    let fs := own ++ armedFirings d twin
    let t0 := us.foldl min (fs.foldl (fun m p => min m p.2.1) t)
    let late := d.dr.lastKey.isSome && decide (t0 < d.dr.lastKey.getD 0)
    recTrigger (fs.foldl (fun m p => setBit m p.1) 0) (fs.foldl (fun m p => m ||| p.2.2) 4) false late own.isEmpty t0 d

/-- Whether offset `o` of record `r` holds one of its COUNT entries, which lie from its first one on, wrapping (R335). -/
def recHolds (d : Dev) (r o : Nat) : Bool :=
  let n := recSize d
  let back := fun x => (x + n - d.get (DR_RSTART_SLOT r)) % n
  let skipped := (d.dr.removed.filter fun p => p * 128 / n == r && decide (back (p * 128 % n) < back o)).length
  decide (back o < d.get (DR_RCOUNT_COUNT r) + 128 * skipped)

/-- A page is removed (R335): it reads zero, the entries it held are no longer of their record, and the ring and the first
entry of the record move past it. Log entry 64 (DEDUCED). -/
def pageRemoved (p : Nat) (s : State) : State :=
  let d := s.dev
  if d.dr.removed.contains p then s
  else
    let r := p * 128 / recSize d
    let o := p * 128 % recSize d
    let lost := ((List.range 128).filter fun i => recHolds d r (o + i)).length
    let d := d.put DR_SECHI_PAGES (d.get DR_SECHI_PAGES - 1)
    let d := d.put (DR_RCOUNT_COUNT r) (d.get (DR_RCOUNT_COUNT r) - lost)
    let d := { d with dr := { d.dr with removed := p :: d.dr.removed } }
    let d := d.put (DR_RSTART_SLOT r) (skipPages d r 8193 (d.get (DR_RSTART_SLOT r)))
    let d := if d.get DR_STAT_CUR = r then { d with dr := { d.dr with wr := skipPages d r 8193 d.dr.wr } } else d
    { s with
      dev := d
      recMem := foldN 128 (fun m i => slotSet m (128 * p + i) 0) s.recMem }

end Sys2Proof.Machine
end

