-- ==== Sys2Proof/Machine/SafetyChan.lean ====
section
/-! DEFINITION. The personnel safety channel (chapter 12): the 125 µs cycle with demands, discrepancy locks, resets, clasps
and force-off, the readback flags, and the permit tests. -/

namespace Sys2Proof.Machine

/-- Enable of output `x`. -/
def sfEn (x : Nat) (d : Dev) : Bool := if x = 0 then d.flag SF_OCFG_EN0 else d.flag SF_OCFG_EN1

/-- The force-off of output `x` (R309). -/
def forceOff (x : Nat) (d : Dev) : Bool := !sfEn x d || !d.live

/-- The clasp of output `x` is engaged. -/
def clasped (x : Nat) (d : Dev) : Bool := d.bit SF_STAT_CLASP x

/-- Command both switches of an output. -/
def sfSwitch (x : Nat) (on : Bool) (d : Dev) : Dev := (d.putBit SF_RB_HCMD x on).putBit SF_RB_LCMD x on

/-- End any test of output `x`. -/
def sfEndTest (x : Nat) (d : Dev) : Dev := { d with sf := { d.sf with test := smErase d.sf.test x } }

/-- Engage the clasp of `x` (R320): both switches off, a running test ends, and a reset whose channels are active cannot
release it (R322). -/
def engage (x : Nat) (d : Dev) : Dev :=
  let d := sfEndTest x (sfSwitch x false (d.putBit SF_STAT_CLASP x true))
  { d with sf := { d.sf with
      rstOk := clrBit d.sf.rstOk x
      rstBar := if d.sf.rstA || d.sf.rstB then setBit d.sf.rstBar x else d.sf.rstBar
      relPend := clrBit d.sf.relPend x } }

/-- Healthy state of input `i` (Table 12.1). -/
def sfHealthA (i : Nat) (d : Dev) : Bool := bitOf d.sf.lvlA i
def sfHealthB (i : Nat) (d : Dev) : Bool := bitOf d.sf.lvlB i != d.flag (SF_INCFG_MODE i)
def sfHealthy (i : Nat) (d : Dev) : Bool := sfHealthA i d && sfHealthB i d

/-- A switch of `x` differs from its command at the last sample; a node between its two thresholds does so for either command (R466). -/
def sfMismatch (x : Nat) (d : Dev) : Bool :=
  d.bit SF_RB_HCMD x != d.bit SF_RB_HRB x || d.bit SF_RB_LCMD x != d.bit SF_RB_LRB x || bitOf d.sf.midH x || bitOf d.sf.midL x

/-- The conditions of Table 12.4 for output `x`, as they stand. -/
def claspCond (x : Nat) (d : Dev) : Bool :=
  ((List.range 8).all fun i =>
    !(d.flag (SF_INCFG_EN i) && d.bit (SF_INCFG_OMASK i) x) ||
      (sfHealthy i d && d.bit SF_STAT_HLT i && !d.bit SF_STAT_DLOCK i)) &&
  !d.bit SF_EVT_RBOFF x && !sfMismatch x d && !forceOff x d

/-- The outputs whose conditions hold, as a mask. -/
def claspMask (d : Dev) : Nat := b2n (claspCond 0 d) + 2 * b2n (claspCond 1 d)

/-- A demand of input `i` (R313). -/
def demand (i : Nat) (d : Dev) : Dev :=
  let d := foldN 2 (fun d x => if d.bit (SF_INCFG_OMASK i) x then engage x d else d) d
  (d.raiseBit SF_EVT_DEMAND i .protDev).bump SF_CNT_DEMCNT

/-- Sample one input in a cycle: demand when first sampled, lock cleared when both channels are unhealthy (R313, R315). -/
def sfInput (d : Dev) (i : Nat) : Dev :=
  let h := sfHealthy i d
  let d := d.putBit SF_STAT_HLT i h
  if ¬ d.flag (SF_INCFG_EN i) then d
  else
    let d := if ¬ sfHealthA i d ∧ ¬ sfHealthB i d then d.putBit SF_STAT_DLOCK i false else d
    if h then { d with sf := { d.sf with dem := clrBit d.sf.dem i } }
    else if bitOf d.sf.dem i then d
    else demand i { d with sf := { d.sf with dem := setBit d.sf.dem i } }

/-- Release the clasp of `x`: its switches go on unless forced off; during an on-test the release waits for its end, and a test pair
that is half done ends, so that the next one starts with the high side (R318, R320). -/
def release (x : Nat) (d : Dev) : Dev :=
  if (smGet (fun _ => 0) d.sf.test x) = 1 ∨ (smGet (fun _ => 0) d.sf.test x) = 2 then
    { d with sf := { d.sf with relPend := setBit d.sf.relPend x } }
  else
    let d := sfEndTest x (d.putBit SF_STAT_CLASP x false)
    let d := { d with sf := { d.sf with relAt := smSet (fun _ => 0) d.sf.relAt x d.sf.cycle } }
    sfSwitch x (!forceOff x d) d

/-- A valid reset: counted, and every clasp whose conditions held throughout is released unless a demand lasts (R321,
R322). -/
def validReset (d : Dev) : Dev :=
  let d := d.bump SF_CNT_RSTCNT
  let ok := d.sf.rstOk &&& claspMask d
  foldN 2 (fun d x => if bitOf ok x ∧ clasped x d then release x d else d) d

/-- Move the reset phase. Log entry 66 (DESIGN CHOICE). -/
def rstGo (p : Nat) (d : Dev) : Dev := { d with sf := { d.sf with rstPhase := p, rstAt := d.sf.cycle } }

/-- The outputs whose enabled inputs were all healthy in the cycle before, of which `hlt` shows the health (Table 12.4). -/
def beforeMask (hlt : Nat) (d : Dev) : Nat :=
  let ok := fun x => (List.range 8).all fun i => !(d.flag (SF_INCFG_EN i) && d.bit (SF_INCFG_OMASK i) x) || bitOf hlt i
  b2n (ok 0) + 2 * b2n (ok 1)

/-- The reset channels in a cycle (R321). One cycle is 125 µs: 500 ms are 4,000, 10 ms are 80, 1.0 s are 8,000. `hlt` shows
which inputs were healthy in the cycle before, since they are to be so from before the active interval (Table 12.4). -/
def sfReset (hlt : Nat) (d : Dev) : Dev :=
  let a := d.sf.rstA
  let b := d.sf.rstB
  let d := d.putB SF_STAT_RSTACT (a && b)
  let d := if a || b then d else { d with sf := { d.sf with rstBar := 0 } }
  let c := d.sf.cycle
  let start (d : Dev) : Dev :=
    { d with sf := { d.sf with
        rstPhase := 2, rstBoth := c, rstAt := c
        rstOk := (List.range 2).foldl (fun m x => if bitOf d.sf.rstBar x then clrBit m x else m) (claspMask d &&& beforeMask hlt d) } }
  match d.sf.rstPhase with
  | 0 => if a && b then start d else if a || b then rstGo 1 d else d
  | 1 =>
    if a && b then (if c - d.sf.rstAt ≤ 4000 then start d else rstGo 4 d)
    else if a || b then d else rstGo 0 d
  | 2 =>
    let d := { d with sf := { d.sf with rstOk := d.sf.rstOk &&& claspMask d } }
    if a && b then d
    else if 40000 < c - d.sf.rstBoth then rstGo 5 d
    else if c - d.sf.rstBoth < 80 * d.get SF_OCFG_RSTMIN then (if a || b then rstGo 4 d else rstGo 0 d)
    else if a || b then rstGo 3 d
    else validReset (rstGo 0 d)
  | 3 =>
    if a && b then rstGo 4 d
    else if a || b then { d with sf := { d.sf with rstOk := d.sf.rstOk &&& claspMask d } }
    else if c - d.sf.rstAt ≤ 4000 then validReset (rstGo 0 d) else rstGo 0 d
  | 4 => if a || b then d else rstGo 0 d
  | _ => if a || b then rstGo 5 d else if 8000 ≤ c - d.sf.rstAt then rstGo 0 d else d

/-- A reset is held beyond 5.0 s: ignored until both channels have been inactive for 1.0 s (R321).
Log entry 66 (DESIGN CHOICE). -/
def rstHeld (d : Dev) : Dev := if d.sf.rstA ∨ d.sf.rstB then rstGo 5 d else d

/-- A filtered channel of an input, and of the reset, takes a level (R312, R321). -/
def sfFilter (i : Nat) (chB level : Bool) (d : Dev) : Dev :=
  let move := fun (m : Nat) => if level then setBit m i else clrBit m i
  if chB then { d with sf := { d.sf with lvlB := move d.sf.lvlB } } else { d with sf := { d.sf with lvlA := move d.sf.lvlA } }

def rstFilter (chB level : Bool) (d : Dev) : Dev :=
  if chB then { d with sf := { d.sf with rstB := level } } else { d with sf := { d.sf with rstA := level } }

/-- The outputs in a cycle: on while the clasp is released and nothing forces off, energised when both switches conduct
(R316, R320). -/
def sfOutput (d : Dev) (x : Nat) : Dev :=
  let d := if forceOff x d then sfEndTest x (sfSwitch x false d)
    else if smGet (fun _ => 0) d.sf.test x = 1 ∨ smGet (fun _ => 0) d.sf.test x = 2 then d
    else sfSwitch x (!clasped x d) d
  d.putBit SF_STAT_OUT x (d.bit SF_RB_HCMD x && d.bit SF_RB_LCMD x && d.bit SF_RB_HRB x && d.bit SF_RB_LRB x)

/-- A mismatch of the configuration CRC (R311): both clasps, and DEMAND of every enabled input. -/
def sfCrcFail (d : Dev) : Dev :=
  let d := engage 1 (engage 0 d)
  foldN 8 (fun d i => if d.flag (SF_INCFG_EN i) then d.raiseBit SF_EVT_DEMAND i .protDev else d) d

/-- The safety cycle (R308): readback sampled, configuration CRC, inputs, reset, outputs. Before the folio has loaded both
clasps stay engaged (R311). Log entry 66 (DESIGN CHOICE). -/
def safetyCycleD (crcOk : Bool) (hrb lrb : NodeRx) (d : Dev) : Dev :=
  let d := { d with sf := { d.sf with cycle := d.sf.cycle + 1, midH := hrb.between.toNat, midL := lrb.between.toNat } }
  let d := (d.put SF_RB_HRB hrb.reads.toNat).put SF_RB_LRB lrb.reads.toNat
  if ¬ d.sf.folio then foldN 2 sfOutput (engage 1 (engage 0 d))
  else
    let d := if crcOk then d else sfCrcFail d
    foldN 2 sfOutput (sfReset (d.get SF_STAT_HLT) (foldN 8 sfInput d))

/-- A discrepancy outlasts T_disc (R314): DISC and the lock, while the channels of the enabled input still disagree. -/
def discrepancy (i : Nat) (d : Dev) : Dev :=
  if d.flag (SF_INCFG_EN i) ∧ sfHealthA i d ≠ sfHealthB i d then
    (d.putBit SF_STAT_DLOCK i true).raiseBit SF_EVT_DISC i .protDev
  else d

/-- An off-test of output `x` runs: its clasp is released and one of its switches is off for the test (R318). -/
def offTest (x : Nat) (d : Dev) : Bool :=
  !clasped x d && (smGet (fun _ => 0) d.sf.test x == 1 || smGet (fun _ => 0) d.sf.test x == 2)

/-- A switch disagrees with its command for more than 100 µs (R317, Table 12.2); one that does not conduct while commanded on
counts outside an off-test only. -/
def readback (x : Nat) (sw : Switch) (d : Dev) : Dev :=
  let cmd := match sw with
    | .high => d.bit SF_RB_HCMD x
    | .low => d.bit SF_RB_LCMD x
  if cmd then (if offTest x d then d else (engage x d).raiseBit SF_EVT_RBOFF x .service)
  else d.raiseBit SF_EVT_RBON x .stop

/-- The next test of the pair of output `x` starts (R318): an off-test of an energised output no sooner than 1 s after its
release, an on-test of a de-energised one; none while it is forced off. -/
def permitTestD (x : Nat) (d : Dev) : Dev :=
  let t := smGet (fun _ => 0) d.sf.test x
  if forceOff x d ∨ t = 1 ∨ t = 2 then d
  else
    let on := !clasped x d
    if on ∧ d.sf.cycle - smGet (fun _ => 0) d.sf.relAt x < 8000 then d
    else
      let side := if t = 3 then 2 else 1
      let d := { d with sf := { d.sf with test := smSet (fun _ => 0) d.sf.test x side } }
      if side = 1 then d.putBit SF_RB_HCMD x (!on) else d.putBit SF_RB_LCMD x (!on)

/-- The test width of output `x` ends: the switch returns to its command, a waiting release takes effect (R318). -/
def testEnd (x : Nat) (d : Dev) : Dev :=
  let t := smGet (fun _ => 0) d.sf.test x
  if t = 1 ∨ t = 2 then
    let nt := if t = 1 then 3 else 0
    let d := { d with sf := { d.sf with test := smSet (fun _ => 0) d.sf.test x nt } }
    let d := sfSwitch x (!clasped x d && !forceOff x d) d
    if bitOf d.sf.relPend x then
      release x { d with sf := { d.sf with relPend := clrBit d.sf.relPend x } }
    else d
  else d

end Sys2Proof.Machine
end

