-- ==== Sys2Proof/Machine/Fabric.lean ====
section
/-! DEFINITION. The fabric of chapter 1: slack margins and evaluation windows (R42-R45), the re-plan ladder (R57-R61), spares
and swaps (R48-R50), spine links (R47), and the field repair journal in its two banks (R55, R373-R377). -/

namespace Sys2Proof.Machine

/-! ## Slack (R42, R44) -/

/-- The window record of a class before any run. -/
def clsWin0 (_ : Nat) : ClsWin := ⟨0xFFFF, 0, false, false⟩

/-- The window record of a class. -/
def clsWin (x : Nat) (d : Dev) : ClsWin := smGet clsWin0 d.fb.cls x

/-- Replace the window record of a class. -/
def setClsWin (x : Nat) (w : ClsWin) (d : Dev) : Dev :=
  { d with fb := { d.fb with cls := smSet clsWin0 d.fb.cls x w } }

/-- The margin of a run and whether it missed its deadline (R42); busy is at least 1 tick (Instr.wf). -/
def margin (ts td tdl : Nat) : Nat × Bool :=
  if tdl ≤ td then (0, true) else (min ((tdl - td) * 4096 / (td - ts)) 0xFFFF, false)

/-- Units of each class (Table 1.1). -/
def classUnits (x : Nat) : Nat := [64, 24, 8, 8, 64, 4].getD x 0

/-- The slice that serves a quire. -/
def sliceOf (q : Nat) (d : Dev) : Option Nat :=
  (List.range 80).find? fun i => d.flag (FB_SLICE_ASSIGNED i) && d.get (FB_SLICE_QUIRE i) == q

/-- The GATHER unit of a quire has live work: a registered cell, in a region that plans (R43). -/
def gatherLive (q : Nat) (d : Dev) : Bool :=
  ((List.range (d.get (QU_CFG_NPOS q))).any fun p =>
    1 ≤ d.get (CE_STAT_STATE (128 * q + p)) && d.get (CE_STAT_STATE (128 * q + p)) < 5) &&
  match d.quireRegion q with
  | some g => planning g d
  | none => false

/-- Cells that a run of a quire's GATHER unit sorts: the quire's positions in a live run, 128 in a dry pass (R43). Log entry 81
(DEDUCED). -/
def sortLoad (q : Nat) (d : Dev) : Nat := if gatherLive q d then d.get (QU_CFG_NPOS q) else 128

/-- A 128-cell sort of slice `i` shows in SPEED (Table 1.14). -/
def sliceSpeed (i busy : Nat) (d : Dev) : Dev := d.put (FB_SLICE_SPEED i) (min busy 0xFFFF)

/-- The spare of a swap in its shadow period. -/
def shadowing (c i : Nat) (d : Dev) : Bool :=
  match d.fb.swap with
  | some (k, _, sp, _) => k == c && sp == i
  | none => false

/-- A slice that serves nothing, shadows nothing and is in service. -/
def sliceFree (d : Dev) (i : Nat) : Bool :=
  !d.flag (FB_SLICE_ASSIGNED i) && !d.flag (FB_SLICE_RETIRED i) && !d.fb.spareBad.contains (2, i) && !shadowing 2 i d

/-- A unit run completes: margin, window minimum and miss of its class (R42, R44); a 128-cell sort shows in SPEED. In class GATHER
the numbers from 64 on are the dry passes of the slices that serve no quire, no units of Table 1.1. Log entry 81 (DEDUCED). -/
def unitRun (x unit ts td tdl : Nat) (d : Dev) : Dev :=
  if d.mode = modeLOAD ∨ d.mode = modeSTOP then d
  else if classUnits x ≤ unit then (if sliceFree d (unit - 64) then sliceSpeed (unit - 64) (td - ts) d else d)
  else
    let m := margin ts td tdl
    let d := d.put (FB_CLSMARG_LAST x) m.1
    let d := if m.2 then d.bump (FB_CLSSTAT_MISSCNT x) else d
    let d := if d.fb.holdoff then d
      else
        let w := clsWin x d
        let w := if ¬ w.seen ∨ m.1 < w.minM then { w with minM := m.1, unit := unit, seen := true } else w
        setClsWin x { w with miss := w.miss || m.2 } d
    if x = 0 ∧ sortLoad unit d = 128 then
      match sliceOf unit d with
      | some i => sliceSpeed i (td - ts) d
      | none => d
    else d

/-! ## Journal entries waiting (R55) -/

/-- An entry for the next journal write, stamped with the present second. -/
def journal (kind uclass unit arg : Nat) (d : Dev) : Dev :=
  { d with fb := { d.fb with jq := d.fb.jq ++ [⟨kind, uclass, unit, arg, d.nowNs / 10 ^ 9⟩] } }

/-- The class code of Table 15.9. -/
def uclassCode : UClass → Nat
  | .cellEngine => 1
  | .sortSlice => 2
  | .chanElement => 3
  | .sramRow => 4
  | .sramCol => 5
  | .spineGroup => 6

/-- Retire a unit for the power cycle, with its journal entry (R50, R55). -/
def retireUnit (c u : Nat) (d : Dev) : Dev :=
  journal 1 c u 0 { d with fb := { d.fb with retired := d.fb.retired ++ [(c, u)] } }

/-- Assign a spare to a unit, with its journal entry. -/
def assignSpare (c u sp : Nat) (d : Dev) : Dev :=
  journal 2 c u sp { d with fb := { d.fb with assigned := d.fb.assigned ++ [(c, u, sp)] } }

/-! ## Spares (R48-R52, Table 1.2) -/

/-- The spares that may replace a unit (Table 1.2), by class and unit index (Table 15.9). Log entry 30 (DESIGN CHOICE). -/
def sparesFor (c u : Nat) : List Nat :=
  match c with
  | 1 => (List.range 4).map fun k => 132 * (u / 132) + 128 + k
  | 2 => (List.range 16).map fun k => 64 + k
  | 3 => (List.range 2).map fun k => 18 * (u / 18) + 16 + k
  | 4 => (List.range 8).map fun k => 4096 * (u / 4096) + 0xFF8 + k
  | 5 => (List.range 2).map fun k => 4096 * (u / 4096) + 0xFFE + k
  | 6 => [17 * (u / 17) + 16]
  | _ => []

/-- A spare that serves nothing and is not known defective. -/
def spareOk (c : Nat) (d : Dev) (sp : Nat) : Bool :=
  !(d.fb.assigned.any fun a => a.1 == c && a.2.2 == sp) && !d.fb.spareBad.contains (c, sp) && !d.fb.retired.contains (c, sp)

/-- The first spare left for a unit. Log entry 30 (DESIGN CHOICE). -/
def spareFor (c u : Nat) (d : Dev) : Option Nat := (sparesFor c u).find? (spareOk c d)

/-- The spare assigned last to a unit. -/
def assignedTo (c u : Nat) (d : Dev) : Option Nat :=
  ((d.fb.assigned.filter fun a => a.1 == c && a.2.1 == u).getLast?).map fun a => a.2.2

/-- The physical unit that serves unit `u`, through spares that were themselves replaced. -/
def servedBy (c : Nat) (d : Dev) : Nat → Nat → Nat
  | 0, u => u
  | k + 1, u => match assignedTo c u d with
    | some sp => servedBy c d k sp
    | none => u

/-- The unit that serves `u` is out of service. -/
def unserved (c u : Nat) (d : Dev) : Bool :=
  let x := servedBy c d 17 u
  d.fb.retired.contains (c, x) || d.fb.spareBad.contains (c, x)

/-- The unit that a spare replaces. -/
def replaces (c sp : Nat) (d : Dev) : Option Nat :=
  ((d.fb.assigned.filter fun a => a.1 == c && a.2.2 == sp).getLast?).map fun a => a.2.1

/-- The unit at the root of a chain of spares. -/
def rootOf (c : Nat) (d : Dev) : Nat → Nat → Nat
  | 0, u => u
  | k + 1, u => match replaces c u d with
    | some v => rootOf c d k v
    | none => u

/-- The next spare in the scope of a unit takes its place; whether there was one. -/
def fillUnit (c u : Nat) (d : Dev) : Dev × Bool :=
  match spareFor c u d with
  | some sp => (assignSpare c u sp d, true)
  | none => (d, false)

/-- A spare found defective that no fuse assigned: it is marked and journalled, and the unit it served gets another (R52). -/
def dropSpare (c sp : Nat) (d : Dev) : Dev × Bool :=
  let e := journal 3 c sp 0 { d with fb := { d.fb with spareBad := d.fb.spareBad ++ [(c, sp)] } }
  match replaces c sp d with
  | none => (e, true)
  | some u => fillUnit c u e

/-- A unit found defective: it retires and a spare takes its place; answers false where a unit stays without one. A defect in a
fused spare is one of the unit it serves (R52). -/
def repairUnit (c u : Nat) (spareBad : Bool) (d : Dev) : Dev × Bool :=
  if ¬ spareBad ∧ ¬ (sparesFor c u).contains u then fillUnit c u (retireUnit c u d)
  else if d.su.keys.repair.any fun x => x.1 == c && x.2.2 == u then
    match replaces c u d with
    | none => (retireUnit c u d, true)
    | some v => fillUnit c v (retireUnit c u d)
  else dropSpare c u d

/-- Spares of engines and channel elements left, as FB_SPARE counts them (Table 1.10). Log entry 50 (DEDUCED). -/
def spareCounts (d : Dev) : Dev :=
  let used := fun (c : Nat) =>
    ((d.fb.assigned.filter fun a => a.1 == c).map (fun a => a.2.2) ++
      (d.fb.spareBad.filter fun a => a.1 == c).map (fun a => a.2)).eraseDups.length
  (d.put FB_SPARE_CE (256 - used 1)).put FB_SPARE_CHEL (48 - used 3)

/-! ## The ladder (Table 1.4) -/

/-- The element of a list with the least measure, the first among equals. -/
def leastBy (f : Nat → Nat) : List Nat → Option Nat
  | [] => none
  | a :: t => match leastBy f t with
    | none => some a
    | some b => if f a ≤ f b then some a else some b

/-- The slowest assigned slice. -/
def slowSlice (d : Dev) : Option Nat :=
  leastBy (fun i => 0xFFFF - d.get (FB_SLICE_SPEED i)) ((List.range 80).filter fun i => d.flag (FB_SLICE_ASSIGNED i))

/-- The fastest unassigned slice whose sort time has been measured. A SPEED of 0 is taken as not measured and is no candidate;
the lowest index is taken among equals. Log entry 81 (DEDUCED). -/
def fastSlice (d : Dev) : Option Nat :=
  leastBy (fun i => d.get (FB_SLICE_SPEED i))
    ((List.range 80).filter fun i => sliceFree d i && d.get (FB_SLICE_SPEED i) != 0)

/-- Step 1 can be taken: below the ceiling and the AVS link healthy (R57, R58, R459). -/
def step1Ok (d : Dev) : Bool :=
  decide (d.get FB_VDD_TARGET < d.get FB_VDD_CEIL) && !d.flag FC_CHIP_AVS && d.fb.vout.isSome

/-- Step 2: slices to exchange for class GATHER. -/
def step2 (x : Nat) (d : Dev) : Option (Nat × Nat) :=
  if x ≠ 0 then none
  else match slowSlice d, fastSlice d with
    | some s, some f => if d.get (FB_SLICE_SPEED f) < d.get (FB_SLICE_SPEED s) then some (s, f) else none
    | _, _ => none

/-- Step 3: the unit that produced the minimum and a spare for it, by class of the journal. GATHER replaces the slice of its quire;
LAW one element of its channel, which Table 1.2 allows while the channel is STANDBY or GIVENUP; the units of the other classes
have no spare in Table 1.2. Log entry 64 (DEDUCED). -/
def step3 (x unit : Nat) (d : Dev) : Option (Nat × Nat × Nat) :=
  if d.fb.swap.isSome then none
  else if x = 0 then
    match sliceOf unit d, (List.range 80).find? (sliceFree d) with
    | some s, some f => some (2, s, f)
    | _, _ => none
  else if x = 1 ∧ (d.get (CH_STAT_STATE (unit / 3) (unit % 3)) = 1 ∨ d.get (CH_STAT_STATE (unit / 3) (unit % 3)) = 2) then
    let u := servedBy 3 d 3 (18 * unit + (Config.slowElement unit).val)
    (spareFor 3 u d).map fun sp => (3, u, sp)
  else none

/-- Step 4 can be taken. -/
def step4Ok (d : Dev) : Bool := decide (d.get FB_TCMIN_MIN < d.get FB_TCMIN_CEIL)

/-- Record a ladder action. -/
def ladderMark (n : Nat) (d : Dev) : Dev := (d.put FB_LADDER_STEP n).count FB_LADDER_STEPCNT

/-- The exponent that an answer to VOUT_MODE gives, without its sign: linear mode, from -8 to -13 (R458). -/
def voutExp (m : BitVec 8) : Option Nat :=
  let e := (-toS 5 m.toNat).toNat
  if m.toNat / 32 = 0 ∧ 8 ≤ e ∧ e ≤ 13 then some e else none

/-- The mantissa of VOUT_COMMAND for a target code: rdiv(V_target × 2^(-exp), 1), V_target = 0.650 V + 0.010 V × code (R458). -/
def voutMantissa (code : Nat) (d : Dev) : Nat := (rdiv ((650 + 10 * code) * 2 ^ d.fb.vout.getD 8 : Nat) 1000).toNat

/-- A write on the AVS link to the regulator at 7-bit address 0x40: the command, the word with its low byte first, and the PEC (R458).
Log entry 94 (PRESUMED). -/
def smbusWrite (cmd w : Nat) : List Byte :=
  let bs : List Byte := [0x80, BitVec.ofNat 8 cmd, BitVec.ofNat 8 w, BitVec.ofNat 8 (w / 256)]
  bs ++ [BitVec.ofNat 8 ((bitsMsb 32 (natBE bs)).foldl (crcStep 8 0x07) 0)]

/-- VOUT_COMMAND for a target code leaves (R458). -/
def sendVout (code : Nat) (d : Dev) : Dev := d.send (.avs code (smbusWrite 0x21 (voutMantissa code d)))

/-- Command the VDD target (R57, R58, R61): margins are discarded until the regulator has settled. -/
def setVdd (code : Nat) (d : Dev) : Dev :=
  let d := sendVout code (d.put FB_VDD_TARGET code)
  journal 4 0 0 code { d with fb := { d.fb with holdoff := true, avsPend := true } }

/-- Raise the pending minimum T_C (R59). -/
def raiseTcmin (d : Dev) : Dev :=
  let base := if d.flag FB_TCMIN_PENDV then d.get FB_TCMIN_PEND else d.get FB_TCMIN_MIN
  let c := min (base + 1) (d.get FB_TCMIN_CEIL)
  let d := (d.put FB_TCMIN_PEND c).put FB_TCMIN_PENDV 1
  (journal 5 0 0 c d).raise FC_CHIP_TCRAISE .service

/-- One ladder step for a class and the unit of its minimum (R57, R60). A sort slice without a spare makes step 4 the next step
of every later GATHER request of the power cycle (Table 1.3). Log entry 81 (DEDUCED). -/
def ladderStep (x unit : Nat) (d : Dev) : Dev :=
  if d.fb.gatherStep4 && x == 0 && step4Ok d then ladderMark 4 (raiseTcmin d)
  else if step1Ok d then ladderMark 1 (setVdd (d.get FB_VDD_TARGET + 1) d)
  else match step2 x d with
  | some r => ladderMark 2 { d with fb := { d.fb with reassign := some r } }
  | none =>
    match step3 x unit d with
    | some (c, u, sp) => ladderMark 3 { d with fb := { d.fb with swap := some (c, u, sp, 2) } }
    | none =>
      if step4Ok d then ladderMark 4 (raiseTcmin d)
      else (d.put FB_LADDER_STEP 7).raise FB_LADDER_EXHAUST .service

/-- Compare one class with its thresholds at the window end (R44). -/
def evalClass (d : Dev) (x : Nat) : Dev :=
  let w := clsWin x d
  let d := (d.put (FB_CLSMARG_WINMIN x) w.minM).put (FB_CLSSTAT_UNIT x) w.unit
  let d := if w.minM < d.get (FB_CLSTHR_WARN x) then d.raise (FB_CLSSTAT_WARN x) .notice else d
  let d := if w.minM < d.get (FB_CLSTHR_ACT x) then d.raise (FB_CLSSTAT_ACT x) .notice else d
  if w.miss then d.raise (FB_CLSSTAT_MISS x) .notice else d

/-- The lowest class that requests a step at this window end. -/
def requester (d : Dev) : Option Nat :=
  (List.range 6).find? fun x => decide ((clsWin x d).minM < d.get (FB_CLSTHR_ACT x))

/-- Every class is at or above RELAX. -/
def allRelaxed (d : Dev) : Bool := (List.range 6).all fun x => decide (d.get (FB_CLSRELAX_RELAX x) ≤ (clsWin x d).minM)

/-- A period counts in the evaluation window under way (R44). -/
def windowCount (d : Dev) : Dev := { d with fb := { d.fb with winPer := d.fb.winPer + 1 } }

/-- The end of an evaluation window, after FB_EVAL.WINDOW periods (R44, R57, R61); SUP3 evaluates the ladder, and requests lapse
without it (R343). -/
def evalWindow (d : Dev) : Dev :=
  if d.mode = modeLOAD ∨ d.mode = modeSTOP ∨ d.fb.holdoff ∨ d.fb.winPer < d.get FB_EVAL_WINDOW then d
  else
    let req := requester d
    let rel := allRelaxed d
    let unit := match req with
      | some x => (clsWin x d).unit
      | none => 0
    let d := foldN 6 evalClass d
    let d := { d with fb := { d.fb with cls := [], winPer := 0, relaxRun := if rel then d.fb.relaxRun + 1 else 0 } }
    if ¬ d.bit SV_STAT_RUN 3 then d
    else match req with
      | some x => ladderStep x unit d
      | none =>
        if d.get FB_EVAL_RELAXN ≤ d.fb.relaxRun ∧ d.get FB_VDD_FLOOR < d.get FB_VDD_TARGET ∧ d.fb.vout.isSome then
          ladderMark 6 (setVdd (d.get FB_VDD_TARGET - 1) { d with fb := { d.fb with relaxRun := 0 } })
        else d

/-- A VOUT_COMMAND is acknowledged, or is not within 10 ms, which brings the fault of the AVS link and no retry (R58, R459). -/
def avsEnd (ok : Bool) (d : Dev) : Dev :=
  let d := { d with fb := { d.fb with avsPend := false, avsLate := none }, fc := { d.fc with avsBad := !ok } }
  if ok then d else d.raise FC_CHIP_AVS .service

/-- The outcome of the open VOUT_COMMAND: SUP3, which waits for it, takes it when it runs (Table 14.1, R343). -/
def avsOutcome (ok : Bool) (d : Dev) : Dev :=
  if ¬ d.fb.avsPend ∨ d.fb.avsLate.isSome then d
  else if d.bit SV_STAT_RUN 3 then avsEnd ok d
  else { d with fb := { d.fb with avsLate := some ok } }

/-- The regulator acknowledges (R459). -/
def avsAcked (d : Dev) : Dev := avsOutcome true d

/-- No acknowledgement within 10 ms (R58, R459). -/
def avsTimedOut (d : Dev) : Dev := avsOutcome false d

/-- SUP3 runs again: it takes the outcome that has come meanwhile. -/
def avsResume (d : Dev) : Dev := match d.fb.avsLate with
  | some ok => if d.fb.avsPend then avsEnd ok d else d
  | none => d

/-- 2.0 ms after power-good: margins count again and a new window starts (R58). -/
def holdoffEnd (d : Dev) : Dev :=
  if d.fb.holdoff ∧ ¬ d.fb.avsPend then { d with fb := { d.fb with holdoff := false, cls := [], winPer := 0 } } else d

/-- Unused sort slices shown in FB_SPARE (at most 0x10). -/
def showSlices (d : Dev) : Dev :=
  d.put FB_SPARE_SLICE (min 0x10 ((List.range 80).filter (sliceFree d)).length)

/-- A boundary passes: the shadow period of a swap is the first whole period after the step, and the spare takes over at the
boundary that ends it (R49). Log entry 64 (DEDUCED). -/
def swapBoundary (d : Dev) : Dev :=
  match d.fb.swap with
  | none => d
  | some (c, u, sp, k) => { d with fb := { d.fb with swap := some (c, u, sp, k - 1) } }

/-- The spare takes over once its boundary has come, and the replaced unit retires (R49, R50, R55): a slice takes its quire, an
engine its cell number. -/
def takeover (d : Dev) : Dev :=
  match d.fb.swap with
  | none => d
  | some (c, u, sp, k) =>
    if k ≠ 0 then d
    else
      let d := spareCounts (assignSpare c u sp (retireUnit c u { d with fb := { d.fb with swap := none } }))
      if c = 2 then
        let q := d.get (FB_SLICE_QUIRE u)
        let serves := d.get (FB_SLICE_ASSIGNED u)
        let d := (d.put (FB_SLICE_ASSIGNED u) 0).put (FB_SLICE_RETIRED u) 1
        showSlices ((d.put (FB_SLICE_QUIRE sp) q).put (FB_SLICE_ASSIGNED sp) serves)
      else if c = 1 then
        let r := rootOf 1 d 5 u
        d.put (CE_STAT_SPARE (128 * (r / 132) + r % 132)) 1
      else d

/-- Step 2 takes effect at the period boundary. -/
def reassignSlices (d : Dev) : Dev :=
  match d.fb.reassign with
  | none => d
  | some (s, f) =>
    let d := { d with fb := { d.fb with reassign := none } }
    let q := d.get (FB_SLICE_QUIRE s)
    ((d.put (FB_SLICE_ASSIGNED s) 0).put (FB_SLICE_QUIRE f) q).put (FB_SLICE_ASSIGNED f) 1

/-! ## Spine links (R47) -/

/-- A link is lost: PROTECTIVE for the regions whose traffic crosses it, STOP if it carries priority-1 traffic.
Log entry 17 (DESIGN CHOICE). -/
def linkLost (link : Nat) (prio1 : Bool) (d : Dev) : Dev :=
  if prio1 then d.raise FC_CHIP_LINKLOST1 .stop
  else
    let m := (List.range 8).foldl
      (fun acc g => if bitOf (Config.linkRegions link).toNat g && d.assigned g then setBit acc g else acc) 0
    let d := d.put FC_LINKRG_RG (d.get FC_LINKRG_RG ||| m)
    (d.raise FC_CHIP_LINKLOST (.prot m)).react (.prot m)

/-- An error on a spine link: retry, spare wire group, loss (R47). Log entry 17 (DESIGN CHOICE). -/
def spineError (link : Nat) (retryFails spareFails prio1 : Bool) (d : Dev) : Dev :=
  if d.mode = modeSTOP then d
  else
    let d := (d.raise FB_SPINE_RETRY .notice).bump FB_SPINE_RETRYCNT
    if ¬ retryFails then d
    else
      let d := d.raise FB_SPINE_LINKFAIL .notice
      let sp := 17 * link + 16
      if ¬ spareOk 6 d sp then linkLost link prio1 d
      else if spareFails then linkLost link prio1 (dropSpare 6 sp d).1
      else
        let u := 17 * link + (Config.wireGroup link).val
        assignSpare 6 u sp (retireUnit 6 u d)

/-! ## The repair journal (R55, R373-R377) -/

/-- Whether entry `n` supersedes the earlier entry `e` (Table 15.10). -/
def supersedes (n e : JEntry) : Bool :=
  match e.kind with
  | 2 => n.kind == 2 && n.uclass == e.uclass && n.unit == e.unit
  | 4 => n.kind == 4
  | 5 => n.kind == 5 && decide (e.arg < n.arg)
  | 6 => (n.kind == 1 || n.kind == 2) && n.uclass == e.uclass && n.unit == e.unit
  | _ => false

/-- Add an entry to those in force. -/
def jAdd (l : List JEntry) (n : JEntry) : List JEntry := l.filter (fun e => !supersedes n e) ++ [n]

/-- Slots of a half for entries (R373). -/
def jSlots : Nat := 4095

/-- 32 bytes of flash that are erased. -/
def jErased : BitVec 256 := BitVec.allOnes 256

/-- The 32 bytes of a header or a slot: 28 bytes and their CRC-32C (Tables 15.8, 15.9). -/
def jSeal (body : List Byte) : BitVec 256 := BitVec.ofNat 256 (fieldBE (body ++ bytesBE 4 (crc32c body)) 0 32)

/-- A tag and the CRC of a header or a slot are right. -/
def jSealed (tag : Nat) (v : BitVec 256) : Bool :=
  let b := bytesBE 32 v.toNat
  fieldBE b 0 2 == tag && crc32c (b.take 28) == fieldBE b 28 4

/-- A half header (Table 15.8). -/
def jHead (gen nsnap : Nat) : BitVec 256 :=
  jSeal (bytesBE 2 0x4A48 ++ bytesBE 2 0 ++ bytesBE 4 gen ++ bytesBE 4 0x4B582000 ++ bytesBE 4 nsnap ++ bytesBE 12 0)

/-- A half is valid: TAG, PART and HCRC (R373). -/
def jValid (h : JHalf) : Bool := jSealed 0x4A48 h.head && fieldBE (bytesBE 32 h.head.toNat) 8 4 == 0x4B582000

/-- GEN of a half. -/
def jGen (h : JHalf) : Nat := fieldBE (bytesBE 32 h.head.toNat) 4 4

/-- A slot that holds an entry (Table 15.9). -/
def jSlot (e : JEntry) : BitVec 256 :=
  jSeal (bytesBE 2 0x4A45 ++ bytesBE 1 e.kind ++ bytesBE 1 e.uclass ++ bytesBE 4 e.unit ++ bytesBE 4 e.arg ++ bytesBE 6 e.time ++ bytesBE 10 0)

/-- The entry of a slot; one whose TAG or ECRC is wrong, or whose KIND or UCLASS is unassigned, is ignored (R56, R374). -/
def jEntry (v : BitVec 256) : Option JEntry :=
  let b := bytesBE 32 v.toNat
  let k := fieldBE b 2 1
  if jSealed 0x4A45 v && decide (1 ≤ k) && decide (k ≤ 6) && decide (fieldBE b 3 1 ≤ 6) then
    some ⟨k, fieldBE b 3 1, fieldBE b 4 4, fieldBE b 8 4, fieldBE b 12 6⟩
  else none

/-- The valid half with the higher generation is current (R373). -/
def jCurrent (b : JBank) : Option (Bool × JHalf) :=
  match jValid b.h0, jValid b.h1 with
  | false, false => none
  | true, false => some (false, b.h0)
  | false, true => some (true, b.h1)
  | true, true => if jGen b.h0 < jGen b.h1 then some (true, b.h1) else some (false, b.h0)

/-- Store a half of a bank. -/
def jPut (b : JBank) (one : Bool) (h : JHalf) : JBank := if one then { b with h1 := h } else { b with h0 := h }

/-- The valid entries of a half, in order up to the first erased slot (R375). -/
def jEntries (h : JHalf) : List JEntry := (h.slots.takeWhile fun v => v != jErased).filterMap jEntry

/-- Entries in force after reading a bank (R375). -/
def jRead (b : JBank) : Option (List JEntry) := (jCurrent b).map fun p => (jEntries p.2).foldl jAdd []

/-- Erased slots of a half. -/
def jFree (h : JHalf) : Nat := jSlots - (h.slots.filter fun v => v != jErased).length

/-- What the writes of a bank read back: as programmed, but for those that the outside names. -/
def jBack (w : BankWrite) (vs : List (BitVec 256)) : List (BitVec 256) := vs.zipIdx.map fun p => (smLook w.bad p.2).getD p.1

/-- Slots programmed into the next erased ones (R376). -/
def jFill : List (BitVec 256) → List (BitVec 256) → List (BitVec 256)
  | [], vs => vs
  | o :: os, [] => o :: os
  | o :: os, v :: vs => if o = jErased then v :: jFill os vs else o :: jFill os (v :: vs)

/-- A half written anew: everything in force from slot 0 on and the header last; whether all of it reads back. -/
def jSnap (w : BankWrite) (gen : Nat) (all : List JEntry) : JHalf × Bool :=
  let vs := all.map jSlot ++ [jHead gen all.length]
  let rs := jBack w vs
  (⟨rs.getLastD jErased, rs.dropLast⟩, rs == vs)

/-- Write entries to one bank: into the current half, by compaction into the other half when erased slots do not suffice
(R376), or as a full snapshot into half 0 of a bank that was unreadable (R377); and whether nothing failed. `all` is everything in
force. A slot that fails is not written again, and what follows it is written all the same: log entry 99 (DEDUCED). -/
def jWriteBank (fresh : Bool) (w : BankWrite) (b : JBank) (new all : List JEntry) : JBank × Bool :=
  match (if fresh then none else jCurrent b), w.erase with
  | none, some x => (⟨x, b.h1⟩, false)
  | none, none => (⟨(jSnap w 1 all).1, jHalf0⟩, (jSnap w 1 all).2)
  | some (one, h), e =>
    if jFree h < new.length then
      match e with
      | some x => (jPut b (!one) x, false)
      | none => (jPut b (!one) (jSnap w (jGen h + 1) all).1, (jSnap w (jGen h + 1) all).2)
    else
      let vs := new.map jSlot
      (jPut b one { h with slots := jFill h.slots (jBack w vs) }, jBack w vs == vs)

/-- ENTRIES and FULL show the current half of the bank loaded from (Table 1.11, R376). -/
def journalShow (fl : Flash) (d : Dev) : Dev :=
  let h := ((jCurrent (if d.flag GL_IMGSTAT_BANK then fl.b else fl.a)).map Prod.snd).getD jHalf0
  (d.put FB_JOURNAL_ENTRIES (min (jEntries h).length 0xFFF)).putB FB_JOURNAL_FULL (decide (jFree h < 64))

/-- Entries waiting are written to bank A and then bank B (R55, R56, R376, R377). -/
def journalWriteF (wa wb : BankWrite) (s : State) : State :=
  let d := s.dev
  if d.fb.jq.isEmpty ∨ ¬ d.bit SV_STAT_RUN 3 then s
  else
    let new := d.fb.jq
    let all := new.foldl jAdd d.fb.inForce
    let ra := jWriteBank d.fb.eraseA wa s.flash.a new all
    let rb := jWriteBank d.fb.eraseB wb s.flash.b new all
    let fl : Flash := { s.flash with a := ra.1, b := rb.1 }
    let d := { d with fb := { d.fb with jq := [], inForce := all, eraseA := false, eraseB := false } }
    let d := if ra.2 && rb.2 then d else d.raise FB_JOURNAL_WRFAIL .service
    { s with dev := journalShow fl d, flash := fl }

end Sys2Proof.Machine
end

