-- ==== Sys2Proof/Machine/MullSet.lean ====
section
/-! DEFINITION. The mull set of a region in the state (R228): the common set that the registers and the region show, a channel's own
copy where it differs, and the changes that a mull record lists (R229, R230). -/

namespace Sys2Proof.Machine

/-- Channel `c` of a region. -/
def RegionSt.chan (r : RegionSt) (c : Nat) : Chan := if c = 0 then r.chA else if c = 1 then r.chB else r.chC
def RegionSt.setChan (r : RegionSt) (c : Nat) (x : Chan) : RegionSt :=
  if c = 0 then { r with chA := x } else if c = 1 then { r with chB := x } else { r with chC := x }
def Dev.onChan (d : Dev) (g c : Nat) (f : Chan → Chan) : Dev := d.onRegion g fun r => r.setChan c (f (r.chan c))

/-! ## The common set -/

/-- The mull set that the region and its registers hold (R228). -/
def mullOf (g : Nat) (d : Dev) : Mull :=
  let r := d.region g
  { ctl := r.ctl, meas := r.meas, u0 := r.u0, u1 := r.u1, u2 := r.u2, csgn := d.flag (RG_MODSTAT_CSGN g), dph := r.dph,
    carry := r.carry, last := r.last, holdRun := d.get (RG_MODHOLD_HOLDRUN g), fbCnt := d.get (RG_FBSTAT_HOLDCNT g),
    state := d.rgState g }

/-- Put a mull set in place of the region's; the region state moves only by Table 16.3. -/
def setMull (g : Nat) (m : Mull) (d : Dev) : Dev :=
  let d := d.onRegion g fun r => { r with
    ctl := m.ctl, meas := m.meas, u0 := m.u0, u1 := m.u1, u2 := m.u2, dph := m.dph, carry := m.carry, last := m.last }
  ((d.putB (RG_MODSTAT_CSGN g) m.csgn).put (RG_MODHOLD_HOLDRUN g) m.holdRun).put (RG_FBSTAT_HOLDCNT g) m.fbCnt

/-! ## The copies of the channels -/

/-- The set that channel `c` works with, and as it stood at the last record. -/
def chanNow (g c : Nat) (d : Dev) : Mull := match ((d.region g).chan c).own with
  | some p => p.1
  | none => mullOf g d
def chanBase (g c : Nat) (d : Dev) : Mull := match ((d.region g).chan c).own with
  | some p => p.2
  | none => (d.region g).base

/-- The device as channel `c` sees it: with its own copy, and what its run took from it, in place of the common set. -/
def asChan (g c : Nat) (d : Dev) : Dev :=
  let x := (d.region g).chan c
  match x.own with
  | none => d
  | some p => (setMull g p.1 d).onRegion g fun r => { r with lawIn := x.lawIn.orElse fun _ => r.lawIn }

/-- Change every copy that a channel holds of its own. -/
def ownEach (g : Nat) (f : Mull → Mull) (d : Dev) : Dev :=
  foldN 3 (fun d c => d.onChan g c fun x => { x with own := x.own.map fun p => (f p.1, p.2) }) d

/-- Change the common set and every copy alike. -/
def onMull (g : Nat) (f : Mull → Mull) (d : Dev) : Dev := ownEach g f (setMull g (f (mullOf g d)) d)

/-- A channel's copy; it is held apart only where it differs from the common set. -/
def keepOwn (g c : Nat) (now base : Mull) (d : Dev) : Dev :=
  d.onChan g c fun x => { x with own := if now = mullOf g d ∧ base = (d.region g).base then none else some (now, base) }

/-! ## Records (R229) -/

/-- A value where it differs from the old one. -/
def changed {α : Type} [DecidableEq α] (a b : α) : Option α := if a = b then none else some b

/-- The entries of a sparse map that differ from the old ones. -/
def mapDiff (a b : List (Nat × Int)) : List (Nat × Int) :=
  (b.filter fun e => smGet (fun _ => (0 : Int)) a e.1 != e.2) ++
    (a.filter fun e => (smLook b e.1).isNone).map fun e => (e.1, 0)

/-- Entries take their place in a sparse map. -/
def mapApply (l a : List (Nat × Int)) : List (Nat × Int) := l.foldl (fun m e => smSet (fun _ => (0 : Int)) m e.1 e.2) a

/-- The items of a mull set that differ from an older one. -/
def mullDiff (a b : Mull) : MullChange :=
  { ctl := changed { a.ctl with mem := [] } { b.ctl with mem := [] }
    mem := mapDiff a.ctl.mem b.ctl.mem
    meas := changed { a.meas with hist := [] } { b.meas with hist := [] }
    hist := mapDiff a.meas.hist b.meas.hist
    u := changed (a.u0, a.u1, a.u2) (b.u0, b.u1, b.u2)
    csgn := changed a.csgn b.csgn
    dph := changed a.dph b.dph
    carry := mapDiff a.carry b.carry
    last := changed a.last b.last
    holdRun := changed a.holdRun b.holdRun
    fbCnt := changed a.fbCnt b.fbCnt
    state := changed a.state b.state }

/-- A record is applied to a copy. -/
def mullApply (x : MullChange) (a : Mull) : Mull :=
  let u := x.u.getD (a.u0, a.u1, a.u2)
  { ctl := { x.ctl.getD a.ctl with mem := mapApply x.mem a.ctl.mem }
    meas := { x.meas.getD a.meas with hist := mapApply x.hist a.meas.hist }
    u0 := u.1
    u1 := u.2.1
    u2 := u.2.2
    csgn := x.csgn.getD a.csgn
    dph := x.dph.getD a.dph
    carry := mapApply x.carry a.carry
    last := x.last.getD a.last
    holdRun := x.holdRun.getD a.holdRun
    fbCnt := x.fbCnt.getD a.fbCnt
    state := x.state.getD a.state }

/-- The items that a record lists, each by a number of its own. -/
def changeItems (x : MullChange) : List Nat :=
  let one := fun (b : Bool) (k : Nat) => if b then [k] else []
  one x.ctl.isSome 0 ++ one x.meas.isSome 1 ++ one x.u.isSome 2 ++ one x.csgn.isSome 3 ++ one x.dph.isSome 4 ++
    one x.last.isSome 5 ++ one x.holdRun.isSome 6 ++ one x.fbCnt.isSome 7 ++ one x.state.isSome 8 ++
    x.mem.map (fun e => 9 + 3 * e.1) ++ x.hist.map (fun e => 10 + 3 * e.1) ++ x.carry.map fun e => 11 + 3 * e.1

/-- Two sets differ in a segment (R228, R230): in an item that lies in it. Log entry 19 (DESIGN CHOICE). -/
def segDiffers (a b : Mull) (nseg seg : Nat) : Bool :=
  (changeItems (mullDiff a b)).any fun k => Config.mullSegment k nseg % nseg == seg

end Sys2Proof.Machine
end

