-- ==== Sys2Proof/Machine/Law.lean ====
section
/-! DEFINITION. The region control law, chapter 7: inputs (R194-R196), the run and its commit (R197-R204), zones (R205), the
repetitive memory and the voltage history (R206-R208), setpoints (R210-R213), feedback loss (R214-R216), entry to RUN
(R217). -/

namespace Sys2Proof.Machine

/-- Roles (Table 7.6). -/
def roleUPPER : Nat := 0
def roleLOWER : Nat := 1
def roleCHOPPER : Nat := 2

/-- Channel states (Table 8.1). -/
def chACTIVE : Nat := 0
def chSTANDBY : Nat := 1
def chGIVENUP : Nat := 2
def chRESYNC : Nat := 3
def chLOST : Nat := 4

/-- The channels of a region in a state. -/
def chansIn (g st : Nat) (d : Dev) : List Nat := (List.range 3).filter fun c => d.get (CH_STAT_STATE g c) == st

/-! ## Coefficients and the loop element (R201, R202) -/

/-- Product of a value and a coefficient. -/
def mulc (x m : Int) (sh : Nat) : Int := rdiv (x * m) (2 ^ sh)

/-- The gains. -/
def kpMul (g z l : Nat) (x : Int) (d : Dev) : Int := mulc x (d.getS (RG_KP_M g z l)) (d.get (RG_KP_SH g z l))
def kiMul (g z l : Nat) (x : Int) (d : Dev) : Int := mulc x (d.getS (RG_KI_M g z l)) (d.get (RG_KI_SH g z l))
def krMul (g z : Nat) (x : Int) (d : Dev) : Int := mulc x (d.getS (RG_KR_M g z)) (d.get (RG_KR_SH g z))

/-- The loop element: output, provisional integrator, FRZ (R202). -/
def piLoop (g l z zold : Nat) (e hi x : Int) (frz : Bool) (d : Dev) : Int × Int × Bool :=
  let p := kpMul g z l e d
  let chg := z != zold
  let po := kpMul g zold l e d
  let frz := frz || (chg && decide (hi < (po + x).natAbs))
  let xn := if chg then satI (x + po - p) (-hi) hi else x
  let raw := p + xn
  if raw.natAbs ≤ hi then (satI raw (-hi) hi, satI (xn + kiMul g z l e d) (-hi) hi, false)
  else (satI raw (-hi) hi, xn, frz)

/-! ## Inputs (R194-R196, R214, R215) -/

/-- The last period record of an input, if it is that of the period before the present one. -/
def lastPeriod (i : Nat) (d : Dev) : Option Clo :=
  match (d.ain i).pC with
  | some c => if c.per + 1 = d.tm.jAbs then some c else none
  | none => none

/-- Mean of an input over the last period; 0 without a record. -/
def pmean (i : Nat) (d : Dev) : Int := match lastPeriod i d with
  | some c => c.mean
  | none => 0

/-- Freshness of an analog input (R214). -/
def ainFresh (g i : Nat) (d : Dev) : Bool := match lastPeriod i d with
  | some c => decide (d.get (RG_ENCFG_FRMIN g) ≤ c.cnt)
  | none => false

/-- The energy state over the HEALTHY engines `cs` of a region at the boundary (R195). Log entry 42 (DEDUCED). -/
def energyState (cs : List Nat) (d : Dev) : Nat :=
  let sw := cs.foldl (fun s n => let v := d.get (CE_REP_REP n 0) % 2 ^ 16; s + cestOf n d * v * v) 0
  let sc := cs.foldl (fun s n => s + cestOf n d) 0
  if sc = 0 then 0 else satU 32 (rdiv sw (256 * sc))

/-- At least half the HEALTHY engines accepted a report in the period that ends (R214). Log entry 42 (DEDUCED). -/
def energyFresh (cs : List Nat) (d : Dev) : Bool :=
  decide (cs.length ≤ 2 * (cs.filter fun n => (d.cell n).got).length)

/-- ENERGISED at the end of a period (R196). -/
def energised (g : Nat) (d : Dev) : Dev :=
  let i := d.get (RG_INCFG_VPAIN g)
  let th := d.get (RG_ENCFG_ENTH g)
  let v := (pmean i d).natAbs
  let run := fun (k : Nat) => onMull g (fun m => { m with meas := { m.meas with enCnt := k } }) d
  if ¬ ainFresh g i d ∨ 16384 * th < v then (run 0).put (RG_STAT_ENERG g) 1
  else if v ≤ 14336 * th then
    let k := (d.region g).meas.enCnt + 1
    if 16 ≤ k then (run (min k 16)).put (RG_STAT_ENERG g) 0 else run (min k 16)
  else run 0

/-- Boundary currents at a boundary (R194): the window that closed there, else the prediction of the run made, else 0. -/
def ibShift (g : Nat) (d : Dev) : Dev :=
  let r := d.region g
  let i := d.get (RG_INCFG_IAIN g)
  let now : Int := match (d.ain i).wB with
    | some c => if c.per = d.tm.jAbs ∧ c.cnt ≠ 0 ∧ adRun (i / 8) d then c.mean else if r.lawIn.isSome then r.i1p else 0
    | none => if r.lawIn.isSome then r.i1p else 0
  d.setRegionSt g { r with ib0 := r.ib1, ib1 := now }

/-- Inputs that a role uses, of ia, vdc, vg, xa, xp (R215). -/
def usedInputs (g : Nat) (d : Dev) : Nat := if d.get (RG_LAWCFG_ROLE g) = roleCHOPPER then 0x03 else 0x1F

/-- N of the history (R206). -/
def histN (g : Nat) (d : Dev) : Nat := if d.flag (RG_LAWSTAT_REPOFF g) then 100 else max 1 (d.get (RG_NOMCFG_NCYC g))

/-- The target registers (Table 7.10). -/
def tgtFld (g t : Nat) : Fld := if t = 3 then RG_TGT3_TGT g else RG_TGT_TGT g t
def refFld (g t : Nat) : Fld := if t = 3 then RG_REF3_REF g else RG_REF_REF g t

/-- The value of a target: signed but for rVC. -/
def tgtOf (g t : Nat) (d : Dev) : Int := if t = 3 then d.get (RG_TGT3_TGT g) else d.getS (RG_TGT_TGT g t)

/-- The default ramp of a target. -/
def rampOf (g t : Nat) (d : Dev) : Nat :=
  match t with
  | 0 => d.get (RG_RAMP0_RP g)
  | 1 => d.get (RG_RAMP0_RQ g)
  | 2 => d.get (RG_RAMP1_RVDC g)
  | _ => d.get (RG_RAMP1_RVC g)

/-- The step of a reference in one run, for a ramp of which 0 names the default (R213). -/
def rampStep (g t ramp : Nat) (d : Dev) : Nat :=
  let r := if ramp = 0 then rampOf g t d else ramp
  (max 1 (rdiv ((r * (if t = 3 then 2 else 512) * d.T : Nat) : Int) (10 ^ 6))).toNat

/-- Entry of the device to CHARGE: KPRED, NCYC, empty history and memory, steps of the ramps, with the ramp that a setpoint gave
for its target (R204, R206, R208, R213). -/
def lawCharge (g : Nat) (d : Dev) : Dev :=
  let t := d.T
  let kp := rdiv ((t * 2 ^ 26 : Nat) : Int) (1000 * d.get (RG_LARM_LARM g))
  let nc := (rdiv (10 ^ 12) (2 * d.get (RG_NOMCFG_FNOM g) * t)).toNat
  let d := (d.put (RG_KPRED_KPRED g) kp.toNat).put (RG_NOMCFG_NCYC g) nc
  let d := if nc < 100 then d.raise (RG_LAWSTAT_REPOFF g) .notice else d
  let d := d.put (RG_STAT_LAWRDY g) 0
  let step := fun t => rampStep g t (smGet (fun _ => 0) (d.region g).ramps t) d
  onMull g (fun m => { m with
    meas := { m.meas with hist := [], s2 := 0, vgRun := 0, goodRun := 0 }
    ctl := { m.ctl with mem := [], step0 := step 0, step1 := step 1, step2 := step 2, step3 := step 3 } }) d

/-! ## Setpoints (R210-R213) -/

/-- The step of one target in a set. -/
def setStep (t st : Nat) (m : Mull) : Mull :=
  { m with ctl := { m.ctl with
      step0 := if t = 0 then st else m.ctl.step0
      step1 := if t = 1 then st else m.ctl.step1
      step2 := if t = 2 then st else m.ctl.step2
      step3 := if t = 3 then st else m.ctl.step3 } }

/-- A setpoint takes effect: its value becomes the target, its ramp the step, until the next one for that target (R213). -/
def takeSetpoint (g : Nat) (s : Staged) (d : Dev) : Dev :=
  let d := d.put (tgtFld g s.tgt) (ofS 32 s.value)
  let d := d.onRegion g fun r => { r with
    tgtSet := setBit r.tgtSet s.tgt
    tgtNow := setBit r.tgtNow s.tgt
    ramps := smSet (fun _ => 0) r.ramps s.tgt s.ramp }
  onMull g (setStep s.tgt (rampStep g s.tgt s.ramp d)) d

/-- The staged setpoints due in the run of the present period: of two for one target the later accepted stands, the other
is counted, also where it had already been taken for this run at the boundary (R211, R212). Log entry 46 (DEDUCED). -/
def applySetpoints (g : Nat) (d : Dev) : Dev :=
  let r := d.region g
  let due := r.staged.filter fun s => decide (s.per ≤ d.tm.jAbs + 1)
  let keep := r.staged.filter fun s => !decide (s.per ≤ d.tm.jAbs + 1)
  let d := d.setRegionSt g { r with staged := keep }
  let d := d.put (RG_SPQ_DEPTH g) keep.length
  foldN 4 (fun d t =>
    let ss := due.filter fun s => s.tgt == t
    match ss.foldl (fun (a : Option Staged) s => match a with
        | none => some s
        | some b => if b.ord < s.ord then some s else some b) none with
    | none => d
    | some s => takeSetpoint g s (d.bump (RG_SPQ_SUPCNT g) (ss.length - 1 + b2n (bitOf r.tgtNow t)))) d

/-- A reference moves one step toward its target (R213). -/
def moveRef (r tgt : Int) (step : Nat) : Int :=
  if r < tgt then min tgt (r + step) else max tgt (r - step)

/-! ## The run -/

/-- The zone source (R205). -/
def zoneSource (g : Nat) (c : Ctl) (i : LawIn) (d : Dev) : Int :=
  match d.get (RG_LAWCFG_ZSRC g) with
  | 0 => (c.pph.natAbs : Int)
  | 1 => i.vdc
  | _ => i.xa

/-- The zone a run takes, one step at most (R205). Log entry 41 (DEDUCED). -/
def zoneNext (g : Nat) (c : Ctl) (i : LawIn) (d : Dev) : Nat :=
  let zs := zoneSource g c i d
  let th := fun z => d.getS (RG_ZTH_ZTH g (z - 1))
  if c.zone < 3 ∧ th (c.zone + 1) < zs then c.zone + 1
  else if 0 < c.zone ∧ zs < th c.zone - d.get (RG_ZHYS_ZHYS g) then c.zone - 1
  else c.zone

/-- The controller state of a set at the first run after the region enters RUN (R217). Log entry 45 (DEDUCED). -/
def enterCtl (g : Nat) (i : LawIn) (d : Dev) (c0 : Ctl) : Ctl :=
  let p := d.get (RG_LAWCFG_PARTNER g)
  let zs := zoneSource g c0 i d
  let th := fun z => d.getS (RG_ZTH_ZTH g (z - 1))
  let z := if th 3 < zs then 3 else if th 2 < zs then 2 else if th 1 < zs then 1 else 0
  let base : Ctl := { c0 with
    x0 := 0, x1 := 0, x2 := 0, x3 := 0, f0 := false, f1 := false, f2 := false, f3 := false, zone := z, mem := []
    rP := 0, rQ := 0, rVDC := i.vdc, rVC := (isqrt (256 * i.xa.toNat) : Nat) }
  if d.get (RG_LAWCFG_ROLE g) ≠ roleCHOPPER ∧ d.rgState p = rgRUN ∧ ¬ (d.region p).runStart ∧
      (d.region p).runPer < d.tm.jAbs then
    let q := (d.region p).ctl
    { base with x0 := q.x0, x1 := q.x1, x2 := q.x2, rP := q.rP, rQ := q.rQ, rVDC := q.rVDC, rVC := q.rVC, zone := q.zone }
  else base

/-- The registers that show the controller state: references and frozen integrators (R202, Tables 7.10 and 7.11). -/
def showState (g : Nat) (d : Dev) : Dev :=
  let n := (d.region g).ctl
  let d := foldN 4 (fun d t =>
    d.put (refFld g t) (ofS 32 (if t = 0 then n.rP else if t = 1 then n.rQ else if t = 2 then n.rVDC else n.rVC))) d
  d.putB (RG_LAWSTAT_ZFRZ g) (n.f0 || n.f1 || n.f2 || n.f3)

/-- The first run after the region enters RUN: the controller state, and the targets that no setpoint has set (R217).
Log entry 45 (DEDUCED). -/
def lawEnter (g : Nat) (i : LawIn) (d : Dev) : Dev :=
  let c := enterCtl g i d (d.region g).ctl
  let d := onMull g (fun m => { m with ctl := enterCtl g i d m.ctl }) d
  let d := showState g (d.onRegion g fun r => { r with runStart := false, runPer := d.tm.jAbs })
  foldN 4 (fun d t => if bitOf (d.region g).tgtSet t then d else
    d.put (tgtFld g t) (ofS 32 (if t = 0 then c.rP else if t = 1 then c.rQ else if t = 2 then c.rVDC else c.rVC))) d

/-- The law of an arm for one channel (R203, R204, R207), or of a chopper (R209).
Log entries 21 (DESIGN CHOICE), 41 (DEDUCED). -/
def lawCompute (g : Nat) (d : Dev) : Option LawOut :=
  let r := d.region g
  match r.lawIn with
  | none => none
  | some i =>
    let run := d.rgState g == rgRUN
    let c := r.ctl
    let kv := match i.dv with
      | some x => rdiv ((d.get (RG_KPRED_KPRED g) : Int) * x) (2 ^ 32)
      | none => 0
    let i1 := if bitOf i.stale 0 && i.held then r.meas.i1 else satS 16 (2 * i.ia - i.ibPrev - kv)
    let umin := 16384 * d.getS (RG_LIM1_UMIN g)
    let umax := 16384 * (d.get (RG_LIM1_UMAX g) : Int)
    if i.held then
      some ⟨c.uref, i1, d.getS (RG_IREF_IREF g), c, false, false, true, false⟩
    else
      let z := zoneNext g c i d
      let rP := if run then moveRef c.rP (tgtOf g 0 d) c.step0 else c.rP
      let rQ := if run then moveRef c.rQ (tgtOf g 1 d) c.step1 else c.rQ
      let rVDC := if run then moveRef c.rVDC (tgtOf g 2 d) c.step2 else c.rVDC
      let rVC := if run then moveRef c.rVC (tgtOf g 3 d) c.step3 else c.rVC
      if d.get (RG_LAWCFG_ROLE g) = roleCHOPPER then
        let ec := i.vdc - 16384 * (d.get (RG_LIM4_VCHON g) : Int)
        let u := kpMul g z 0 ec d
        let uref := satI u umin umax
        let ctl : Ctl := { c with
          zone := z
          rP := rP
          rQ := rQ
          rVDC := rVDC
          rVC := rVC
          uref := uref }
        some ⟨uref, i1, 0, ctl, false, u != uref, false, z != c.zone⟩
      else
        let n := histN g d
        let s : Int := if d.get (RG_LAWCFG_ROLE g) = roleUPPER then 1 else -1
        let ph := 16384 * (d.get (RG_LIM3_PPHMAX g) : Int)
        let iw : Int := d.get (RG_LIM0_IWMAX g)
        let up := 16384 * (d.get (RG_LIM2_UPIMAX g) : Int)
        let ur := 16384 * (d.get (RG_LIM2_UREPMAX g) : Int)
        let ilim : Int := d.get (RG_LIM0_ILIM g)
        let vok := decide (16384 * (d.get (RG_LIM4_VPKMIN g) : Int) ≤ i.vpk)
        let nuN := i.vff * 32768
        let nu := if vok then satS 16 (if i.vpk = 0 then Config.divZero nuN else rdivI nuN i.vpk) else 0
        let vdcLoop := piLoop g 0 z c.zone (rVDC - i.vdc) ph c.x0 c.f0 d
        let outer := d.flag (RG_LAWCFG_OUTER g)
        let pph := if outer then vdcLoop.1 else rdiv rP 3
        let qph := rdiv rQ 3
        let isN := 2000 * (n : Int) * (pph * i.vff + qph * i.v90)
        let isr := if vok then satS 16 (if i.s2 = 0 then Config.divZero isN else rdivI isN i.s2) else 0
        let idc := if 0 < i.vdc ∧ 16384 * (d.get (RG_LIM3_VDCMIN g) : Int) ≤ i.vdc then satS 16 (rdivI (2000 * pph) i.vdc) else 0
        let xr := rdiv (rVC * rVC) 256
        let ws := piLoop g 1 z c.zone (2 * xr - i.xa - i.xp) iw c.x1 c.f1 d
        let wd := piLoop g 2 z c.zone (s * (i.xa - i.xp)) iw c.x2 c.f2 d
        let ic := idc + ws.1 + rdiv (wd.1 * nu) 32768
        let ir0 := ic + s * rdiv isr 2
        let iclamp := decide (ilim < ir0.natAbs)
        let ir := satI ir0 (-ilim) ilim
        let ei := i.ia - ir
        let ia := piLoop g 3 z c.zone ei up c.x3 c.f3 d
        let repon := d.flag (RG_STAT_REPON g)
        let m := fun k => smGet (fun _ => (0 : Int)) c.mem k
        let j1 := d.tm.jAbs + 1
        let urep := if repon then satI (m (j1 % n)) (-ur) ur else 0
        let uraw := rdiv i.vdc 2 - s * i.vff + ia.1 + urep
        let ulim := decide (uraw < umin) || decide (umax < uraw)
        let uref := satI uraw umin umax
        let w := (j1 + n - d.get (RG_REPCFG_LEAD g)) % n
        let mem := if repon then
            smSet (fun _ => (0 : Int)) c.mem w
              (satI (rdiv ((d.get (RG_REPCFG_QF g) : Int) * m w) 256 + krMul g z ei d) (-ur) ur)
          else c.mem
        let ctl : Ctl := { c with
          x0 := if outer then vdcLoop.2.1 else c.x0
          x1 := ws.2.1
          x2 := wd.2.1
          x3 := ia.2.1
          f0 := if outer then vdcLoop.2.2 else c.f0
          f1 := ws.2.2
          f2 := wd.2.2
          f3 := ia.2.2
          zone := z
          mem := mem
          rP := rP
          rQ := rQ
          rVDC := rVDC
          rVC := rVC
          pph := pph
          uref := uref }
        some ⟨uref, i1, ir, ctl, iclamp, ulim, false, z != c.zone⟩

/-- Per input: runs without change (R215). Log entry 43 (DEDUCED). -/
def stuckStep (vals last : List (Int × Int)) (same : List Nat) : List Nat :=
  (List.range 5).map fun k =>
    let v := vals.getD k (0, 0)
    let eq := (match last[k]? with
      | some l => v.1 == v.2 && v == l
      | none => false)
    if eq then same.getD k 0 + 1 else 0

/-- The feedback hold in RUN (R216): starts, goes on, recovers, expires; a run that
missed its deadline does not end it (R198). Answers whether this run is held. -/
def feedback (g : Nat) (bad miss : Bool) (d : Dev) : Bool × Dev :=
  if d.rgState g ≠ rgRUN then (false, d)
  else if ¬ d.flag (RG_STAT_FBHOLD g) then
    if ¬ bad then (false, d)
    else
      let d := (d.raise (RG_LAWSTAT_FBLOSS g) .service).bump (RG_LAWCNT_FBHCNT g)
      let d := (d.put (RG_STAT_FBHOLD g) 1).put (RG_FBSTAT_HOLDCNT g) 1
      let d := if d.get (RG_FBCFG_FBHOLD g) ≤ 1 then d.raise (RG_LAWSTAT_FBEXP g) (.prot (2 ^ g)) else d
      (true, d)
  else
    let d := d.bump (RG_FBSTAT_HOLDCNT g)
    if 4 ≤ (d.region g).meas.goodRun ∧ ¬ miss then (true, (d.put (RG_STAT_FBHOLD g) 0).put (RG_FBSTAT_HOLDCNT g) 0)
    else if d.get (RG_FBCFG_FBHOLD g) ≤ d.get (RG_FBSTAT_HOLDCNT g) then (true, d.raise (RG_LAWSTAT_FBEXP g) (.prot (2 ^ g)))
    else (true, d)

/-- What the measurement gives a run of the present period (Table 7.1): the values, which of them are fresh, and the extremes of
each over the last period (R194, R195, R214, R215). -/
structure LawSrc where
  ia : Int
  vdc : Int
  vg : Int
  xa : Int
  xp : Int
  fresh : List Bool
  vals : List (Int × Int)
  deriving DecidableEq, Repr

/-- The inputs of the run in the present period. -/
def lawSrc (g : Nat) (d : Dev) : LawSrc :=
  let p := d.get (RG_LAWCFG_PARTNER g)
  let iI := d.get (RG_INCFG_IAIN g)
  let iD := d.get (RG_INCFG_VDCAIN g)
  let iG := d.get (RG_INCFG_VGAIN g)
  let xa : Int := d.get (RG_XARM_XA g)
  let xp : Int := d.get (RG_XARM_XA p)
  let mm := fun i => match lastPeriod i d with
    | some c => (c.mn, c.mx)
    | none => (0, 1)
  ⟨(d.region g).ib1, pmean iD d, pmean iG d, xa, xp,
    [ainFresh g iI d, ainFresh g iD d, ainFresh g iG d, (d.region g).meas.xFresh,
      (d.region p).meas.xFresh && d.rgState p != rgOFF],
    [mm iI, mm iD, mm iG, (xa, xa), (xp, xp)]⟩

/-- The bits of a list of five that a role uses and that satisfy a test. -/
def usedMask (g : Nat) (f : Nat → Bool) (d : Dev) : Nat :=
  (List.range 5).foldl (fun a k => if bitOf (usedInputs g d) k && f k then a + 2 ^ k else a) 0

/-- A run updates the measurement state of a set and takes its inputs from it (R199, R203, R204, R208, R214, R215). The demand of
R215 is summed over the periods whose values the run has, the newest of which is the last one. -/
def measRun (g : Nat) (x : LawSrc) (w : Mull) (d : Dev) : Meas × LawIn :=
  let m := w.meas
  let chop := d.get (RG_LAWCFG_ROLE g) == roleCHOPPER
  let stale := usedMask g (fun k => !x.fresh.getD k false) d
  let du : Int := match w.u1, w.u2 with
    | some a, some b => ((a - b).natAbs : Int)
    | _, _ => 0
  let st := stuckStep x.vals m.last m.same
  let dem := (du :: m.dem).take (d.get (RG_FBCFG_FBSTK g))
  let moving := decide (16384 * (d.get (RG_FBCFG_DSTK g) : Int) ≤ dem.foldl (fun a x => a + x) 0)
  let stuck := usedMask g (fun k => decide (d.get (RG_FBCFG_FBSTK g) ≤ st.getD k 0) && moving) d
  let bad := stale != 0 || stuck != 0
  let n := histN g d
  let j := d.tm.jAbs
  let at_ := (j + n - 1) % n
  let old := smGet (fun _ => (0 : Int)) m.hist at_
  let s2 := if chop then m.s2 else m.s2 + x.vg * x.vg - old * old
  let hist := if chop then m.hist else smSet (fun _ => (0 : Int)) m.hist at_ x.vg
  let h := fun k => smGet (fun _ => (0 : Int)) hist k
  let vpk : Int := satS 32 (isqrt (rdiv (2 * s2) n).toNat : Nat)
  let ua := fun (a b : Option Int) => match a, b with
    | some x, some y => if d.flag (RG_MODCFG0_UPD g) then some (rdiv (x + y) 2) else some x
    | some x, none => if d.flag (RG_MODCFG0_UPD g) then none else some x
    | none, _ => none
  let dv := match ua w.u0 w.u1, ua w.u1 w.u2 with
    | some x, some y => some (x - y)
    | _, _ => none
  ({ m with hist := hist, s2 := s2, ibPrev := some x.ia, vgRun := if x.fresh.getD 2 false then m.vgRun + 1 else 0,
            goodRun := if bad then 0 else m.goodRun + 1, last := x.vals, same := st, dem := dem },
    ⟨x.ia, m.ibPrev.getD x.ia, x.vdc, x.vg, x.xa, x.xp, stale, stuck, h ((j + 1) % n), h ((j + 1 + n - n / 4) % n), s2, vpk, dv,
      false⟩)

/-- LAWRDY after a run (R208). -/
def lawRdy (g : Nat) (m : Meas) (vpk : Int) (d : Dev) : Bool :=
  decide (16 ≤ m.goodRun) && (d.get (RG_LAWCFG_ROLE g) == roleCHOPPER ||
    (decide (histN g d ≤ m.vgRun) && decide (16384 * (d.get (RG_LIM4_VPKMIN g) : Int) ≤ vpk)))

/-- The inputs of the period's run, once for all channels: measurement state, freshness, stuck inputs, LAWRDY, feedback hold, entry
to RUN (R194, R199, R208, R214-R217); a channel with a copy of its own draws its inputs from that. `miss` says that every
channel missed the deadline. -/
def lawPrepare (g : Nat) (miss : Bool) (d : Dev) : Dev :=
  let start := (d.region g).runStart
  let x := lawSrc g d
  let y := measRun g x (mullOf g d) d
  let d' := d.onRegion g fun r => { r with meas := y.1 }
  let d' := (d'.put (RG_FBSTAT_STALE g) y.2.stale).put (RG_FBSTAT_STUCK g) y.2.stuck
  let d' := d'.putB (RG_STAT_LAWRDY g) (lawRdy g y.1 y.2.vpk d)
  let fb := feedback g (y.2.stale != 0 || y.2.stuck != 0) miss d'
  let d' := foldN 3 (fun e c => e.onChan g c fun k => match k.own with
    | none => k
    | some p =>
      let z := measRun g x p.1 d
      { k with own := some ({ p.1 with meas := z.1 }, p.2), lawIn := some { z.2 with held := fb.1 } }) fb.2
  let i : LawIn := { y.2 with held := fb.1 }
  let d' := d'.onRegion g fun r => { r with lawIn := some i }
  if start ∧ d'.rgState g = rgRUN then lawEnter g i d' else d'

/-- A channel that runs law and planning (Table 8.1). -/
def chanRuns (g c : Nat) (d : Dev) : Bool :=
  let st := d.get (CH_STAT_STATE g c)
  st == chACTIVE || st == chSTANDBY || (st == chRESYNC && ((d.region g).chan c).copied)

/-- Store a channel's law output; the readouts follow the lowest-lettered ACTIVE channel. Log entry 40 (DEDUCED). -/
def lawStore (g c : Nat) (o : LawOut) (d : Dev) : Dev :=
  let d := d.onChan g c fun x => { x with law := some o }
  if (chansIn g chACTIVE d).head? = some c ∨ (d.region g).i1p ≠ o.i1 ∧ (chansIn g chACTIVE d) = [] then
    let d := onMull g (fun m => { m with meas := { m.meas with i1 := o.i1 } }) (d.onRegion g fun r => { r with i1p := o.i1 })
    let d := if o.iclamp then d.put (RG_LAWSTAT_ICLAMP g) 1 else d
    if o.ulim then d.put (RG_LAWSTAT_ULIM g) 1 else d
  else d

/-- The accumulators of the last period have closed for the inputs of a region (R197). -/
def lawReady (g : Nat) (d : Dev) : Bool :=
  [d.get (RG_INCFG_IAIN g), d.get (RG_INCFG_VDCAIN g), d.get (RG_INCFG_VGAIN g), d.get (RG_INCFG_VPAIN g)].all fun i =>
    !adRun (i / 8) d || decide (d.tm.jAbs ≤ (d.group (i / 8)).closedPer)

/-- One channel runs the law (R197, R199). Log entry 5 (DESIGN CHOICE). -/
def lawRun (g c : Nat) (d : Dev) : Dev :=
  if ¬ d.assigned g ∨ d.rgState g = rgOFF ∨ ¬ chanRuns g c d ∨ ((d.region g).chan c).law.isSome ∨ ¬ lawReady g d then d
  else
    let d := if (d.region g).lawIn.isSome then d else lawPrepare g false d
    match lawCompute g (asChan g c d) with
    | some o => lawStore g c o d
    | none => d

/-- The fallback of a channel that missed the LAW deadline (R198). Log entry 40 (DEDUCED). -/
def lawFallback (g : Nat) (d : Dev) : LawOut :=
  let c := (d.region g).ctl
  ⟨c.uref, (d.region g).ib1, d.getS (RG_IREF_IREF g), c, false, false, true, false⟩

/-- The LAW deadline: every channel that runs the law and has not completed it takes the fallback, and each miss shows and counts
(R198). Log entry 40 (DEDUCED). -/
def lawDeadline (g : Nat) (d : Dev) : Dev :=
  if ¬ d.assigned g ∨ d.rgState g = rgOFF then d
  else
    let d := if (d.region g).lawIn.isNone ∧ lawReady g d then lawPrepare g true d else d
    foldN 3 (fun d c =>
    if chanRuns g c d ∧ ((d.region g).chan c).law.isNone then
      let d := (d.raise (RG_LAWSTAT_LMISS g) .notice).bump (RG_LAWCNT_LMISSCNT g)
      lawStore g c (lawFallback g (asChan g c d)) d
    else d) d

/-- The controller state that the commit of a run leaves (R199): nothing with a hold plan or a frozen run; no integrator of loops 0
to 2 with ICLAMP; none of loop 3 and no memory with ULIM or DEMSAT. Log entry 44 (DEDUCED). -/
def commitCtl (o : LawOut) (hold demsat : Bool) (c : Ctl) : Ctl :=
  if hold ∨ o.frozen then c
  else
    let n := o.ctl
    let n := if o.iclamp then { n with x0 := c.x0, x1 := c.x1, x2 := c.x2 } else n
    if o.ulim || demsat then { n with x3 := c.x3, mem := c.mem } else n

/-- The readouts of a committed run: references, zone, frozen integrators. -/
def showCtl (g : Nat) (o : LawOut) (hold : Bool) (d : Dev) : Dev :=
  if hold ∨ o.frozen then d
  else
    let d := (showState g d).put (RG_STAT_ZONE g) (d.region g).ctl.zone
    if o.zchg then (d.raise (RG_LAWSTAT_ZCHG g) .notice).bump (RG_LAWSTAT_ZCHGCNT g) else d

/-- A region leaves RUN: a feedback hold ends (R216), REPON falls (R207). -/
def lawLeaveRun (g : Nat) (d : Dev) : Dev :=
  ((d.put (RG_STAT_FBHOLD g) 0).put (RG_FBSTAT_HOLDCNT g) 0).put (RG_STAT_REPON g) 0

/-- A region has had a period without a run of the law: its history is not of consecutive periods any more, and LAWRDY falls (R208). -/
def lawStopped (g : Nat) (d : Dev) : Dev :=
  onMull g (fun m => { m with meas := { m.meas with vgRun := 0, goodRun := 0 } }) (d.put (RG_STAT_LAWRDY g) 0)

/-- A region enters RUN: REPON (R207), and the first run sets the controller state (R217). -/
def lawEnterRun (g : Nat) (d : Dev) : Dev :=
  let d := d.putB (RG_STAT_REPON g) (d.flag (RG_LAWCFG_REPEN g) && !d.flag (RG_LAWSTAT_REPOFF g))
  d.onRegion g fun r => { r with runStart := true }

end Sys2Proof.Machine
end

