-- ==== Sys2Proof/Machine/Channels.lean ====
section
/-! DEFINITION. The channels of a region and the twin roles (chapter 8): give-up, promotion, self-test and resynchronisation
(R220-R222, R227, R231), and the hand-over to the twin (R238-R240). -/

namespace Sys2Proof.Machine

/-- Twin roles (Table 8.11). -/
def roleSOLO : Nat := 0
def roleACTIVE : Nat := 1
def roleSTANDBY : Nat := 2
def roleRESYNC : Nat := 3
def roleGIVENUP : Nat := 4

/-- The twin role of the device. -/
def Dev.role (d : Dev) : Nat := d.get GL_TWSTAT_ROLE

/-- The device controls the cells (R233, R234). -/
def Dev.controls (d : Dev) : Bool := d.role == roleSOLO || d.role == roleACTIVE

/-! ## Hand-over (R238) -/

/-- The device follows its twin's mull sets and plans in shadow (R237). -/
def Dev.shadow (d : Dev) : Bool := d.role == roleSTANDBY || d.role == roleRESYNC

/-- A STANDBY twin exists and PLL-S is locked. -/
def canHandOver (d : Dev) : Bool := d.role == roleACTIVE && d.tw.role == roleSTANDBY && d.tm.pllS.seq == 3

/-- TGIV: 16 blocks with CNT = 15 down to 0 on both twin lanes (R235). -/
def tgivSend (d : Dev) : Dev := (twinTx d).foldl (fun d l => send16 l 0xC2 0 d) d

/-- The ACTIVE device gives up to its twin: TGIV, and the role GIVENUP. Log entry 51 (DEDUCED). -/
def handOver (d : Dev) : Dev :=
  let d := (tgivSend d).put GL_TWSTAT_ROLE roleGIVENUP
  { d with tw := { d.tw with tgivSent := true } }

/-- A region would take SOLE or NOAGREE: it hands over to a STANDBY twin, or the flag blocks it (R222, R224, R238). -/
def soleOr (g : Nat) (f : Fld) (d : Dev) : Dev := if canHandOver d then handOver d else d.raise f (.prot (2 ^ g))

/-- NOAGREE, whose cause lasts until a mull record is voted in agreement (R224). -/
def noAgree (g : Nat) (d : Dev) : Dev :=
  soleOr g (CH_VEVT_NOAGREE g) (d.onRegion g fun r => { r with noag := true })

/-! ## Channel states (Tables 8.1, 8.2) -/

/-- NACT and STBY follow the states. -/
def chanCount (g : Nat) (d : Dev) : Dev :=
  (d.put (CH_VSTAT_NACT g) (chansIn g chACTIVE d).length).putB (CH_VSTAT_STBY g) (!(chansIn g chSTANDBY d).isEmpty)

/-- A channel takes a state. -/
def chanGo (g c st : Nat) (d : Dev) : Dev := chanCount g (d.put (CH_STAT_STATE g c) st)

/-- The lowest-lettered STANDBY channel becomes ACTIVE (R221). -/
def promote (g c : Nat) (d : Dev) : Dev :=
  ((chanGo g c chACTIVE d).bump (CH_CNT_PROMCNT g c)).raise (CH_VEVT_PROMOTE g) .notice

/-- A channel leaves for LOST (R54, Table 8.2). -/
def chanLost (g c : Nat) (d : Dev) : Dev := (chanGo g c chLOST d).raise (CH_VEVT_LOST g) .service

/-- The check of a resynchronising channel is complete (R231). -/
def checkOk (g c : Nat) (d : Dev) : Bool :=
  d.get (CH_STAT_STATE g c) == chRESYNC && ((d.region g).chan c).copied && decide (d.get (CH_VCFG_RSN g) ≤ d.get (CH_STAT_RSOK g c))

/-- A channel gives up with a cause of Table 8.4: it withdraws at once, and is LOST once it has given up MAXGU times; a channel
whose resynchronisation completes in this step enters STANDBY first; a promotion or SOLE may follow (R220-R222, R231). A channel
of a region without a quire stays STANDBY (R220). Log entry 51 (DEDUCED). -/
def giveUp (g c cause : Nat) (d : Dev) : Dev :=
  let st := d.get (CH_STAT_STATE g c)
  if ¬ (st = chACTIVE ∨ st = chSTANDBY ∨ st = chRESYNC) ∨ ¬ d.assigned g then d
  else
    let d := (chanGo g c chGIVENUP d).put (CH_STAT_CAUSE g c) cause
    let d := (d.bump (CH_CNT_GUCNT g c)).raise (CH_VEVT_GIVEUP g) .service
    let d := d.onChan g c fun _ => chan0
    let d := if d.get (CH_VCFG_MAXGU g) ≤ d.get (CH_CNT_GUCNT g c) then chanLost g c d else d
    if st ≠ chACTIVE then d
    else
      let d := foldN 3 (fun d k => if checkOk g k d then (chanGo g k chSTANDBY d).raise (CH_VEVT_RSDONE g) .notice else d) d
      match chansIn g chSTANDBY d with
      | s :: _ => promote g s d
      | [] => if (chansIn g chACTIVE d).length < 2 then soleOr g (CH_VEVT_SOLE g) d else d

/-- The self-test of a channel completes, having found the elements `bad` defective: each is retired and a spare of the channel
swapped in, journalled (R48, R55); an element without a spare makes the channel LOST, else it enters RESYNC (R54, Table 8.2).
Log entry 50 (DEDUCED). -/
def selfTestDone (g c : Nat) (bad : List Nat) (d : Dev) : Dev :=
  if d.get (CH_STAT_STATE g c) ≠ chGIVENUP ∨ ¬ ((d.region g).chan c).testing then d
  else
    let r := bad.foldl (fun (a : Dev × Bool) e =>
      let x := repairUnit 3 (18 * (3 * g + c) + e) false a.1
      (x.1, a.2 && x.2)) (d, true)
    let d := (spareCounts r.1).onChan g c fun x => { x with testing := false, copied := false, diff := false }
    if ¬ r.2 then chanLost g c d
    else chanGo g c chRESYNC (((d.put (CH_STAT_RSPROG g c) 0).put (CH_STAT_RSOK g c) 0).put (CH_STAT_RSFAIL g c) 0)

/-! ## Resynchronisation (Table 8.5) -/

/-- Segments of the mull set: M holds NCYC entries, H as many, or 100 under REPOFF (R206, R207, R228). -/
def nsegOf (g : Nat) (d : Dev) : Nat :=
  let m := d.get (RG_NOMCFG_NCYC g)
  let h := if d.flag (RG_LAWSTAT_REPOFF g) then 100 else m
  ceilDiv (8192 + 4 * m + 4 * h + 4 * (d.cellsOf g).length) 256

/-- A resynchronising channel restarts its copy (R231, Table 11.1 DBEMULL). -/
def copyRestart (g c : Nat) (d : Dev) : Dev :=
  if d.get (CH_STAT_STATE g c) = chRESYNC then
    ((d.put (CH_STAT_RSPROG g c) 0).put (CH_STAT_RSOK g c) 0).onChan g c fun x => { x with copied := false, diff := false, own := none }
  else d

/-- NSEG; a change of it restarts a copy (R231). -/
def nsegUpdate (g : Nat) (d : Dev) : Dev :=
  let n := nsegOf g d
  if d.get (CH_VSTAT_NSEG g) = n then d else foldN 3 (fun d c => copyRestart g c d) (d.put (CH_VSTAT_NSEG g) n)

/-- Channel `c` has shown no plan equal to a voted one in the period that ends, though the region planned (R231). Where no region plan was
due only records and scans are compared: log entry 51 (DEDUCED). -/
def checkMissed (g c : Nat) (d : Dev) : Bool :=
  let r := d.region g
  match r.voted with
  | some _ => !(r.chan c).present
  | none => r.vdlPast && r.vmiss && d.rgState g == rgRUN

/-- A period without a plan of a resynchronising channel that equals the voted one breaks its run of RSN periods (R231). -/
def checkBreak (g : Nat) (d : Dev) : Dev :=
  foldN 3 (fun d c =>
    if d.get (CH_STAT_STATE g c) = chRESYNC ∧ ((d.region g).chan c).copied ∧ checkMissed g c d then
      (d.put (CH_STAT_RSOK g c) 0).onChan g c fun x => { x with diff := true }
    else d) d

/-- The channels at a period boundary: a self-test starts; segments are copied; a whole check period without a difference ends
(R221, R231). Log entry 51 (DEDUCED). -/
def chanBoundary (g : Nat) (d : Dev) : Dev :=
  let d := nsegUpdate g d
  foldN 3 (fun d c =>
    let st := d.get (CH_STAT_STATE g c)
    let x := (d.region g).chan c
    if st = chGIVENUP ∧ ¬ x.testing then d.onChan g c fun x => { x with testing := true }
    else if st ≠ chRESYNC then d
    else if x.copied then
      (if x.diff then d else d.bump (CH_STAT_RSOK g c)).onChan g c fun x => { x with diff := false }
    else d.put (CH_STAT_RSPROG g c) (min (d.get (CH_VSTAT_NSEG g)) (d.get (CH_STAT_RSPROG g c) + d.get (CH_VCFG_RSRATE g)))) d

/-- The mull store (R229). -/
def mullStore (g : Nat) (d : Dev) : Mull := (d.region g).store.getD (d.region g).base

/-- The copy is complete: the channel holds what the store holds, and the check begins with the next whole period (R231). -/
def copyDone (g c : Nat) (d : Dev) : Dev :=
  if d.get (CH_STAT_STATE g c) = chRESYNC ∧ ¬ ((d.region g).chan c).copied ∧
      d.get (CH_VSTAT_NSEG g) ≤ d.get (CH_STAT_RSPROG g c) then
    let d := d.onChan g c fun x => { x with copied := true, diff := true }
    match (d.region g).store with
    | none => d.onChan g c fun x => { x with own := none }
    | some m => d.onChan g c fun x => { x with own := some (m, m) }
  else d

/-- RSN periods of equal digests are complete: STANDBY, or ACTIVE while fewer than two channels are (Table 8.2). -/
def checkDone (g c : Nat) (d : Dev) : Dev :=
  if checkOk g c d then
    let st := if (chansIn g chACTIVE d).length < 2 then chACTIVE else chSTANDBY
    (chanGo g c st d).raise (CH_VEVT_RSDONE g) .notice
  else d

/-- A digest of a channel differs from the voted one: counted; the channel gives up, but a resynchronising one restarts its check,
and gives up at the third restart (R224, R229-R231). -/
def dissent (g c cause : Nat) (d : Dev) : Dev :=
  let d := d.bump (CH_VCNT_DISCNT g)
  if d.get (CH_STAT_STATE g c) = chRESYNC then
    let d := ((d.put (CH_STAT_RSOK g c) 0).bump (CH_STAT_RSFAIL g c)).onChan g c fun x => { x with diff := true }
    if d.get (CH_STAT_RSFAIL g c) = 3 then giveUp g c 9 d else d
  else giveUp g c cause d

/-! ## Votes (Table 8.3) -/

/-- What a vote finds. -/
inductive VoteRes where
  /-- the digest in the majority and the lowest-lettered channel that gave it -/
  | agree (digest src : Nat)
  /-- every ACTIVE channel is present and no majority exists -/
  | split
  /-- the digests present cannot meet the rule (R225) -/
  | few
  deriving DecidableEq, Repr

/-- The agreement rule over the digests of the ACTIVE channels that are present, of `n` that are ACTIVE (Table 8.3, R225). -/
def voteOf (ds : List (Nat × Nat)) (n : Nat) : VoteRes :=
  let votes := fun (x : Nat) => (ds.filter fun p => p.2 == x).length
  if n < 2 then .few
  else match ds.find? fun p => decide (2 ≤ votes p.2) with
    | some p => .agree p.2 p.1
    | none => if ds.length = n then .split else .few

/-- The vote of what channels show, where `same` says that two show the same: a channel's vote is the number of the first channel of
the list that shows what it shows. -/
def voteClasses {α : Type} (same : α → α → Bool) (xs : List (Nat × α)) : List (Nat × Nat) :=
  xs.map fun p => (p.1, ((xs.find? fun q => same q.2 p.2).map Prod.fst).getD p.1)

/-- Every channel of a list whose digest differs dissents. -/
def dissenters (g cause digest : Nat) (ds : List (Nat × Nat)) (d : Dev) : Dev :=
  ds.foldl (fun d p => if p.2 = digest then d else dissent g p.1 cause d) d

/-! ## The twin (R237-R240) -/

/-- A valid record has arrived: the interval of R239 starts anew (R233, R239). -/
def twinHeard (d : Dev) : Dev := twinNote (d.onTw fun t => { t with silent := 0, recNow := true, intact := [], cut := [] })

/-- TGIV arrives: the STANDBY device becomes ACTIVE (Table 8.7). Log entry 52 (DEDUCED). -/
def tgivIn (d : Dev) : Dev :=
  if ¬ d.paired then d
  else
    let d := (twinHeard d).onTw fun t => { t with role := roleGIVENUP }
    let d := d.put GL_TWSTAT_PEERACT 0
    if d.role = roleSTANDBY ∧ d.converting then
      ((d.put GL_TWSTAT_ROLE roleACTIVE).raise GL_TWEVT_HANDOVER .notice).bump GL_TWCNT_HOCNT
    else d

/-- At its own lanes every quire that was INTACT in the interval without a record has shown LOS, or ORIGIN equal to the lane itself
(R239). -/
def chainsLost (d : Dev) : Bool := d.tw.intact.all fun q => d.tw.cut.contains q

/-- TWLOSS periods have passed without a valid record: a STANDBY device is promoted if the chains are lost with the twin,
else gives up (R239). -/
def twinTimeout (d : Dev) : Dev :=
  if ¬ d.paired ∨ d.tw.silent < d.get GL_TWCFG_TWLOSS then d
  else
    let d := twinNote ((d.put GL_TWSTAT_PEERACT 0).put GL_TWSTAT_TWUP 0)
    if d.role ≠ roleSTANDBY ∨ ¬ d.converting then d
    else if chainsLost d then (d.put GL_TWSTAT_ROLE roleACTIVE).raise GL_TWEVT_TWLOST .protDev
    else (d.put GL_TWSTAT_ROLE roleGIVENUP).raise GL_TWEVT_TWSILENT .service

/-- A STANDBY device gives up with MULLDIF (R237). -/
def mullDif (d : Dev) : Dev :=
  if d.role = roleSTANDBY ∧ d.converting then (d.put GL_TWSTAT_ROLE roleGIVENUP).raise GL_TWEVT_MULLDIF .service else d

/-- No MULL record for 4 periods (R237). -/
def mullTimeoutD (d : Dev) : Dev := if d.paired ∧ 4 ≤ d.tw.mullSilent then mullDif d else d

/-- Frames with real entries on its own lanes (R240). -/
def dualFound (d : Dev) : Dev :=
  if d.role ≠ roleACTIVE then d
  else
    let d := d.raise GL_TWEVT_DUAL .service
    if d.flag GL_TWCFG_END then d.put GL_TWSTAT_ROLE roleGIVENUP else d

/-- Segments of every region's mull set (R237). -/
def twinSegs (d : Dev) : Nat := (List.range 8).foldl (fun a g => if d.assigned g then a + d.get (CH_VSTAT_NSEG g) else a) 0

/-- The RESYNC device has copied every set and RSN periods of equal digests are complete (R237). -/
def twinResynced (d : Dev) : Dev :=
  if d.role = roleRESYNC ∧ d.tw.copied ∧ d.get GL_TWCFG_RSN ≤ d.tw.rsOk then d.put GL_TWSTAT_ROLE roleSTANDBY else d

/-- The roles at entry to CHARGE (R233). -/
def twinCharge (d : Dev) : Dev :=
  if ¬ d.paired then d
  else if (¬ d.flag GL_TWCFG_END ∧ ¬ d.flag GL_TWSTAT_PEERACT) ∨ d.get GL_TWCFG_TWLOSS ≤ d.tw.silent then
    d.put GL_TWSTAT_ROLE roleACTIVE
  else
    (d.put GL_TWSTAT_ROLE roleRESYNC).onTw fun t => { t with copied := false, rsProg := 0, rsOk := 0, rsFail := 0, diff := false }

/-- After TWLOSS periods of IDLE without a record that reports ACTIVE the END = 0 device frames and arbitrates (R386). -/
def twinIdleActive (d : Dev) : Dev :=
  if d.paired ∧ d.mode = modeIDLE ∧ d.su.idleOnce ∧ ¬ d.flag GL_TWCFG_END ∧ ¬ d.flag GL_TWSTAT_PEERACT ∧
    d.su.idleAt + d.get GL_TWCFG_TWLOSS ≤ d.tm.jAbs ∧ d.role = roleSTANDBY ∧ d.get GL_MODE_CHGCNT = 0 then
    d.put GL_TWSTAT_ROLE roleACTIVE
  else d

/-- The twin at a period boundary: silence is counted, a period without a MULL record ends the run of equal ones, a device that gave
up resynchronises when the twin's records report ACTIVE, and segments are copied (R233, R237, R239). Log entries 50 (DEDUCED), 52
(DEDUCED). -/
def twinBoundary (d : Dev) : Dev :=
  if ¬ d.paired then d
  else
    let t := d.tw
    let d := (twinNote d).putB GL_TWSTAT_TWUP t.recNow
    let d := d.onTw fun t => { t with
      silent := if t.recNow then 0 else t.silent + 1
      mullSilent := if t.mullNow then 0 else t.mullSilent + 1
      rsOk := if t.mullNow then t.rsOk else 0
      recNow := false, mullNow := false, mullSent := false }
    if d.role = roleGIVENUP ∧ d.converting ∧ t.recNow ∧ d.flag GL_TWSTAT_PEERACT then
      (d.put GL_TWSTAT_ROLE roleRESYNC).onTw fun t => { t with copied := false, rsProg := 0, rsOk := 0, rsFail := 0, diff := false }
    else if d.role = roleRESYNC ∧ ¬ d.tw.copied ∧ t.recNow then
      d.onTw fun t =>
        let p := min (twinSegs d) (t.rsProg + d.get GL_TWCFG_RSRATE)
        { t with rsProg := p, copied := decide (twinSegs d ≤ p) }
    else d

end Sys2Proof.Machine
end

