-- ==== Sys2Proof/Machine/Planning.lean ====
section
/-! DEFINITION. Planning of a region for period j + 1 (chapter 3) and its votes (R223-R226, R229-R230): keys and gatherings,
demand and selection, the trim cell and its carry, the commit point, squash and recompute, the hold plan, the commit. -/

namespace Sys2Proof.Machine

/-- Window offset E (R81). -/
def windowOfs (g : Nat) (d : Dev) : Nat := if d.flag (RG_MODCFG0_UPD g) then d.T / 2 else 0

/-! ## Keys and gatherings (R86-R88) -/

/-- The key of a cell with a predicted voltage (R86). -/
def keyOf (g n v : Nat) (d : Dev) : Key :=
  let def_ := 0x8000 - min (d.get (CE_WEAR_CRATIO n)) 0x8000
  let b : Int := (d.get (RG_MODCFG0_WGT g) * def_ / 128 : Nat)
  let s := segEnd (d.cell n).cur
  let h : Int := if s = stPOS ∨ s = stNEG then 4 * d.get (RG_MODCFG0_HYST g) else 0
  ⟨n, v, (v : Int) + b - h, -(v : Int) + b - h⟩

/-- Place a key in a list ordered by rising `f`, equal values by rising cell number. -/
def keyInsert (f : Key → Int) (k : Key) : List Key → List Key
  | [] => [k]
  | x :: l => if f k < f x ∨ (f k = f x ∧ k.n < x.n) then k :: x :: l else x :: keyInsert f k l

/-- A list of keys in order. -/
def keySort (f : Key → Int) (l : List Key) : List Key := l.foldr (keyInsert f) []

/-- The gathering of a quire from its keys: both lists (R87). -/
def gathOf (ks : List Key) : Gath := ⟨keySort Key.kc ks, keySort Key.kd ks⟩

/-- A gathering without the cells that fail a test. -/
def gathKeep (ok : Nat → Bool) (x : Gath) : Gath := ⟨x.chg.filter fun k => ok k.n, x.dis.filter fun k => ok k.n⟩

/-- The keys of a quire with a prediction `i1` (R72, R86). -/
def quireKeys (q g : Nat) (i1 : Int) (d : Dev) : List Key :=
  let r := d.region g
  let ns := ((List.range (d.get (QU_CFG_NPOS q))).map fun p => 128 * q + p).filter fun n => selectable n d
  ns.map fun n => keyOf g n (vpredOf n r.ib0 r.ib1 i1 d) d

/-- The report deadline (Table 3.3 step 2). -/
def reportDeadlineD (g : Nat) (d : Dev) : Dev :=
  if ¬ d.assigned g ∨ (d.region g).rdlPast then d
  else
    let d := d.onRegion g fun r => { r with rdlPast := true }
    if ¬ planning g d then d
    else
      let ks := (d.quiresOf g).map fun q => (q, quireKeys q g (d.region g).i1p d)
      d.onRegion g fun r => { r with keys := ks }

/-- A bit of the squash causes. -/
def sqHas (r : RegionSt) (i : Nat) : Bool := match r.squash with
  | some m => bitOf m i
  | none => false

/-- A gathering or a regathering arrives at tick `tk` (R87, R98). -/
def gatherIn (q tk : Nat) (d : Dev) : Dev :=
  match d.quireRegion q with
  | none => d
  | some g =>
    let r := d.region g
    if ¬ planning g d ∨ ¬ r.rdlPast then d
    else if ¬ r.gdlPast ∧ d.tm.bj + tk < d.posBase + planTick (d.get (RG_MODCFG1_GDL g)) d then
      d.onRegion g fun r => { r with gath := smInsert r.gath q (gathOf ((smLook r.keys q).getD [])) }
    else if sqHas r 0 ∧ ¬ r.rgdlPast ∧ d.tm.bj + tk < d.posBase + planTick (d.get (RG_MODCFG1_RGDL g)) d then
      let ks := (((smLook r.keys q).getD []).filter fun k => !r.sqCut.contains k.n).map fun k =>
        keyOf g k.n (vpredOf k.n r.ib0 r.ib1 (r.i1r.getD 0) d) d
      d.onRegion g fun r => { r with regath := smInsert r.regath q (gathOf ks) }
    else d

/-- The gathering deadline: a missing gathering is replaced by the one of the last period without the cells no longer
eligible; a second miss in a row of one quire gives the hold plan (R88). A quire that has delivered no gathering yet has empty lists:
log entry 82 (DESIGN CHOICE). -/
def gatherDeadlineD (g : Nat) (d : Dev) : Dev :=
  let r := d.region g
  if ¬ planning g d ∨ r.gdlPast then d
  else
    let late := (d.quiresOf g).filter fun q => (smLook r.gath q).isNone
    let hold := late.any fun q => r.gathLate.contains q
    let fill := late.foldl (fun m q =>
      let ks := (smLook r.keys q).getD []
      let old := (smLook r.gathPrev q).getD ⟨[], []⟩
      smInsert m q (gathKeep (fun n => ks.any fun k => k.n == n) old)) r.gath
    let d := d.setRegionSt g { r with gdlPast := true, gath := fill, gathLate := late, gathHold := hold }
    if late.isEmpty then d else d.raise (RG_MODHOLD_GLATE g) .notice

/-! ## Demand and selection (R83-R85, R89, R90, R93) -/

/-- The demand: POL, L, e, DEMSAT (R83). -/
def demandOf (uref : Int) (fullb : Bool) (ec sv : Nat) : Bool × Nat × Int × Bool :=
  let u := if fullb then uref else max uref 0
  let pol := decide (u < 0)
  let mag := u.natAbs
  let dm : Nat := if ec = 0 ∨ mag = 0 then 0
    else if sv = 0 then 0xFFFFFF
    else min 0xFFFFFF (rdiv ((mag * ec * 256 : Nat) : Int) sv).toNat
  let l := (dm + 0x800) / 2 ^ 12
  let e : Int := (dm : Int) - (l * 2 ^ 12 : Nat)
  let s1 := decide (ec < l)
  let l := if s1 then ec else l
  let e := if s1 then 0 else e
  let s2 := decide (l = ec) && decide (0 < e)
  (pol, l, if s2 then 0 else e, s1 || s2)

/-- CSGN after a plan with prediction `i1` (R85). -/
def csgnOf (g : Nat) (i1 : Int) (d : Dev) : Bool :=
  if (d.get (RG_MODCFG3_SDB g) : Int) < i1.natAbs then decide (i1 < 0) else d.flag (RG_MODSTAT_CSGN g)

/-- Trim width, suppression, carry after, and whether the carry saturated (R90, R93). -/
def trimOf (g n : Nat) (e : Int) (d : Dev) : Nat × Bool × Int × Bool :=
  let t := d.T
  let w := rdiv ((absN e * t * 16 : Nat) : Int) 4096
  let ws := if 0 < e then w else -w
  let tm : Int := 16 * d.get (RG_MODCFG2_TMIN g)
  let r := ws + smGet (fun _ => (0 : Int)) (d.region g).carry n
  let match_ := if 0 < ws then decide (0 < r) else decide (r < 0)
  if match_ ∧ tm ≤ r.natAbs then
    let wo := min r.natAbs (8 * t - 16)
    let v := if 0 < r then r - wo else r + wo
    let c := satI v (-(tm - 1)) (tm - 1)
    (wo, false, c, c != v)
  else
    let c := satI r (-(tm - 1)) (tm - 1)
    (0, true, c, c != r)

/-- The 276-byte plan record (Table 8.3a). -/
def planRecord (g : Nat) (p : Plan) (d : Dev) : List Byte :=
  let cs := d.cellsOf g
  let flags := b2n p.pol + 2 * b2n p.dir + 4 * b2n p.hold + 8 * b2n p.trim.isSome + 16 * b2n p.notch + 32 * b2n p.supp
  let byte := fun i => (List.range 8).foldl (fun a k => 2 * a + match cs[8 * i + k]? with
    | some n => b2n (p.base.contains n)
    | none => 0) 0
  bytesBE 4 p.j1 ++ bytesBE 2 p.l ++ bytesBE 2 (ofS 16 p.e) ++ bytesBE 1 flags ++ bytesBE 1 p.dph ++
    bytesBE 2 (p.trim.getD 0) ++ bytesBE 4 p.wout ++ (List.range 256).map (fun i => BitVec.ofNat 8 (byte i)) ++
    bytesBE 4 (ofS 32 (if p.trim.isSome then p.carry else 0))

/-- The plan digest (R223). -/
def planDigest (g : Nat) (p : Plan) (d : Dev) : Nat := crc32c (planRecord g p d)

/-- A plan from U_REF, a current sign and the gatherings of the quires (R83, R89, R90, R93). `upset` is what a faulty
channel's arithmetic does to its digest. -/
def planFrom (g : Nat) (uref : Int) (csgn : Bool) (lists : List (Nat × Gath)) (upset : Nat) (d : Dev) : Cand :=
  let all := lists.flatMap fun x => x.2.chg
  let ec := all.length
  let sv := all.foldl (fun a k => a + k.v) 0
  let dem := demandOf uref (d.flag (RG_MODCFG0_FULLB g)) ec sv
  let pol := dem.1
  let l := dem.2.1
  let e := dem.2.2.1
  let dir := csgn != pol
  let order := keySort (if dir then Key.kd else Key.kc) (lists.flatMap fun x => if dir then x.2.dis else x.2.chg)
  let trim := if 0 < e then (order[l]?).map Key.n else if e < 0 then (order[l - 1]?).map Key.n else none
  let t := match trim with
    | some n => trimOf g n e d
    | none => (0, false, 0, false)
  let p : Plan := {
    j1 := (d.tm.jAbs + 1) % 2 ^ 32, l := l, e := e, pol := pol, dir := dir, hold := false, standing := false, trim := trim
    notch := decide (e < 0) && trim.isSome, supp := t.2.1, dph := ((d.region g).dph + 1) % 16, wout := t.1
    base := (order.take l).map Key.n, carry := t.2.2.1 }
  ⟨p, dem.2.2.2, t.2.2.2, planDigest g p d ^^^ upset⟩

/-- The gatherings of step 3 without the cells that a squash took out (Table 3.4 CELL). -/
def planLists (r : RegionSt) : List (Nat × Gath) :=
  if r.sqCut.isEmpty then r.gath else r.gath.map fun p => (p.1, gathKeep (fun n => !r.sqCut.contains n) p.2)

/-- Every regathering of the region is complete. -/
def regathered (g : Nat) (d : Dev) : Bool := (d.quiresOf g).all fun q => (smLook (d.region g).regath q).isSome

/-- The plan that channel `c` makes with its law output `o`: the run-ahead plan (`sq` none), or the recompute after a squash with the
causes `sq` (Table 3.4, R98). A recompute for cause SIGN sums and sorts the regathered lists where it uses them: log entry 83
(DEDUCED). -/
def channelPlan (g c upset : Nat) (sq : Option Nat) (o : LawOut) (d : Dev) : Cand :=
  let r := d.region g
  let e := asChan g c d
  let sign := match sq with
    | some m => bitOf m 0
    | none => false
  planFrom g o.uref (if sign then r.csgnNew else csgnOf g o.i1 e) (if sign && regathered g d then r.regath else planLists r) upset e

/-- The run-ahead plan of a channel (Table 3.3 step 4): once the gatherings and its law output are present; a second gathering miss
gives none (R88). One that comes after PDL is at the voter when it decides if it comes before CP (R224, R225). -/
def runAhead (g c upset : Nat) (d : Dev) : Dev :=
  let r := d.region g
  let x := r.chan c
  let have_ := r.gdlPast || (d.quiresOf g).all fun q => (smLook r.gath q).isSome
  match x.law with
  | none => d
  | some o =>
    if ¬ planning g d ∨ ¬ chanRuns g c d ∨ ¬ r.rdlPast ∨ ¬ have_ ∨ r.cpPast ∨ r.voteDone ∨ r.gathHold ∨ x.ra.isSome then d
    else d.onChan g c fun x => { x with ra := some (channelPlan g c upset none o d), present := true }

/-! ## The hold plan (R102-R104) -/

/-- One base member that is no longer selectable gets its replacement: from its own quire's list, else from the next quires
in rising order (R102). -/
def holdReplace (g : Nat) (dir : Bool) (base : List Nat) (n : Nat) (d : Dev) : Option Nat :=
  let qs := d.quiresOf g
  let qs := (qs.filter fun q => decide (n / 128 ≤ q)) ++ qs.filter fun q => decide (q < n / 128)
  let cand := qs.flatMap fun q =>
    let x := (smLook (d.region g).gath q).getD ⟨[], []⟩
    (if dir then x.dis else x.chg).map Key.n
  cand.find? fun m => selectable m d && !base.contains m

/-- The hold plan for period j + 1, and DEMSAT (R102). An extra trim cell that replaces a base member has no pulse left; the first
hold after a freeze repeats the plan before it. Log entry 47 (DEDUCED). -/
def holdPlan (g : Nat) (d : Dev) : Plan × Bool :=
  let r := d.region g
  let j1 := (d.tm.jAbs + 1) % 2 ^ 32
  let dph := (r.dph + 1) % 16
  match r.last with
  | none => (⟨j1, 0, 0, d.flag (RG_MODSTAT_POL g), d.flag (RG_MODSTAT_DIR g), true, true, none, false, false, dph, 0, [], 0⟩, false)
  | some p =>
    if p.standing then ({ p with j1 := j1, dph := dph }, false)
    else
      let kept := p.base.filter fun n => selectable n d
      let gone := p.base.filter fun n => !selectable n d
      let base := gone.foldl (fun (a : List Nat) n => match holdReplace g p.dir a n d with
        | some m => a ++ [m]
        | none => a) kept
      let trimOk := match p.trim with
        | some t => selectable t d && p.notch == base.contains t
        | none => false
      let q := { p with j1 := j1, dph := dph, hold := true, l := base.length, base := base }
      let q := if trimOk then { q with carry := smGet (fun _ => (0 : Int)) r.carry (p.trim.getD 0) }
        else { q with trim := none, notch := false, supp := false, wout := 0, carry := 0 }
      (q, decide (base.length < p.l))

/-- The hold plan of channel `c`, from its own copy of the mull set. -/
def holdCand (g c : Nat) (d : Dev) : Cand :=
  let h := holdPlan g (asChan g c d)
  ⟨h.1, h.2, false, planDigest g h.1 d⟩

/-- A hold is sent: counted, and faulted at 2 and at 8 in a row (R103, R104). -/
def countHold (g : Nat) (d : Dev) : Dev :=
  let d := (d.bump (RG_MODHOLD_HOLDCNT g)).bump (RG_MODHOLD_HOLDRUN g)
  let d := ownEach g (fun m => { m with holdRun := min 15 (m.holdRun + 1) }) d
  let d := if d.get (RG_MODHOLD_HOLDRUN g) = 2 then
      (d.raise (RG_MODHOLD_HOLD2 g) .service).onRegion g fun r => { r with hold2 := true } else d
  if d.get (RG_MODHOLD_HOLDRUN g) = 8 then d.raise (RG_MODHOLD_HOLD8 g) (.prot (2 ^ g)) else d

/-- The digest of the channels in a state of Table 8.1 at one of the votes. -/
def candsIn (g st : Nat) (f : Nat → Option Cand) (d : Dev) : List (Nat × Nat) :=
  (chansIn g st d).filterMap fun c => (f c).map fun k => (c, k.digest)

/-- The voter sends the plan of channel `src`: the digests of all channels are compared with it, and the absences of the ACTIVE ones
end (R224, R225). A hold plan carries no run of the law. -/
def voteSent (g src digest : Nat) (f : Nat → Option Cand) (d : Dev) : Dev :=
  match f src with
  | none => d
  | some k =>
    let law := if k.p.hold then none else ((d.region g).chan src).law
    let act := candsIn g chACTIVE f d
    let ds := act ++ candsIn g chSTANDBY f d ++ candsIn g chRESYNC f d
    let d := ds.foldl (fun d p => (d.put (CH_CNT_LATE g p.1) 0).onChan g p.1 fun x => { x with present := true }) d
    let d := d.put (CH_VSTAT_SRC g) src
    let d := d.onRegion g fun r => { r with voted := some k.p, vLaw := law, vSat := k.demsat, vCsat := k.csat, sqUsed := r.squash,
                                            voteDone := true, squash := none }
    dissenters g 5 digest ds (if k.p.hold then countHold g d else d)

/-- The hold plan is formed and voted by the column "Recompute vote" (R224): every channel that runs forms it from its own copy; with
no agreement no plan is sent. Log entry 47 (DEDUCED). -/
def takeHold (g : Nat) (d : Dev) : Dev :=
  let f := fun c => some (holdCand g c d)
  let act := candsIn g chACTIVE f d
  let d := d.onRegion g fun r => { r with voteDone := true, squash := none }
  match voteOf act act.length with
  | .agree x src => voteSent g src x (fun c => if chanRuns g c d then f c else none) d
  | .split => noAgree g d
  | .few => d

/-- The run-ahead plans and the recomputes by channel. -/
def raOf (g : Nat) (d : Dev) (c : Nat) : Option Cand := ((d.region g).chan c).ra
def rcOf (g : Nat) (d : Dev) (c : Nat) : Option Cand := ((d.region g).chan c).rc

/-- PDL: run-ahead plans that cannot meet the agreement rule have missed it, and the region takes the hold plan (R103,
R225). -/
def planDeadlineD (g : Nat) (d : Dev) : Dev :=
  if ¬ planning g d ∨ (d.region g).pdlPast then d
  else
    let d := d.onRegion g fun r => { r with pdlPast := true }
    if (candsIn g chACTIVE (raOf g d) d).length < 2 then takeHold g d else d

/-! ## The votes (R224, R225, R352) -/

/-- The limit shell on a voted plan (R352). -/
def planLimitOk (g : Nat) (p : Plan) (d : Dev) : Bool :=
  decide (p.l ≤ d.get (SV_PLIM_LMAX g)) && (!p.pol || d.flag (RG_MODCFG0_FULLB g)) &&
  ((p.base ++ p.trim.toList).all fun n => d.quireRegion (n / 128) == some g) &&
  (p.trim.isNone || p.supp || p.wout == 0 ||
    (decide (16 * d.get (RG_MODCFG2_TMIN g) ≤ p.wout) && decide (p.wout ≤ 8 * d.T - 16)))

/-- The recompute vote (Table 8.3, last column). -/
def recomputeVoteNow (g : Nat) (d : Dev) : Dev :=
  match voteOf (candsIn g chACTIVE (rcOf g d) d) (chansIn g chACTIVE d).length with
  | .agree x src => voteSent g src x (rcOf g d) d
  | .split => noAgree g (d.onRegion g fun r => { r with voteDone := true, squash := none })
  | .few => takeHold g d

/-! ## The commit point (R97-R100) -/

/-- A squash is counted with its causes (R99). -/
def noteSquash (g causes : Nat) (d : Dev) : Dev :=
  let d := (d.bump (RG_MODSQ_SQCNT g)).put (RG_MODSTAT_SQUASHED g) 1
  d.setWord (RG_MODSQ g) (d.word (RG_MODSQ g) ||| BitVec.ofNat 32 (causes % 32))

/-- The measured arm current of the window that closed last at or before CP (Table 3.4). -/
def measuredI (g : Nat) (d : Dev) : Option Int :=
  match (d.ain (d.get (RG_INCFG_IAIN g))).wC with
  | some c => if c.cnt = 0 then none else some c.mean
  | none => none

/-- A planned cell has become not selectable (Table 3.4 CELL). -/
def plannedLost (g : Nat) (d : Dev) : Bool :=
  (chansIn g chACTIVE d).any fun c => match ((d.region g).chan c).ra with
    | some k => (k.p.base ++ k.p.trim.toList).any fun n => !selectable n d
    | none => false

/-- Cause SIGN against the current sign of the run-ahead plans (Table 3.4): the measured current, if it holds. -/
def signCause (g : Nat) (d : Dev) : Option Int :=
  match measuredI g d with
  | none => none
  | some im =>
    let bad := (chansIn g chACTIVE d).any fun c => match ((d.region g).chan c).ra with
      | some k => (k.p.dir != k.p.pol) != decide (im < 0)
      | none => false
    if bad && decide (d.get (RG_MODCFG3_SDB g) < im.natAbs) then some im else none

/-- The rerun of the law for cause SETPT (R200); it takes the place of a fallback of R198 as well. Log entry 46 (DEDUCED). -/
def lawRerun (g : Nat) (d : Dev) : Dev :=
  foldN 3 (fun d c =>
    if chanRuns g c d ∧ ((d.region g).chan c).law.isSome then
      match lawCompute g (asChan g c d) with
      | some o => lawStore g c o d
      | none => d
    else d) d

/-- What a squash sets in motion: the revised prediction of SIGN, the cells that CELL takes out, the rerun of SETPT; the run-ahead plans
are gone (R97, R98, R100, R200). -/
def squashNow (g causes : Nat) (im : Option Int) (d : Dev) : Dev :=
  let d := noteSquash g causes d
  let r := d.region g
  let r := { r with
    squash := some causes
    sqCut := if bitOf causes 1 then (r.gath.flatMap fun p => p.2.chg.map Key.n).filter fun n => !selectable n d else []
    chA := { r.chA with ra := none, present := false }
    chB := { r.chB with ra := none, present := false }
    chC := { r.chC with ra := none, present := false } }
  let r := match im with
    | some i =>
      let ip := r.ib1 + rdiv ((r.i1p - r.ib1) * planTick (d.get (RG_MODCFG1_CP g)) d) d.T
      { r with i1r := some (satS 16 (r.i1p + (i - ip))), csgnNew := decide (i < 0) }
    | none => r
  let d := d.setRegionSt g r
  if bitOf causes 3 then lawRerun g (applySetpoints g d) else d

/-- CP: the causes, and the run-ahead vote, which is held in every case (R97, R224). A region that does not plan takes a
setpoint accepted in this period all the same (R211). Log entry 46 (DEDUCED). -/
def commitPointD (g : Nat) (d : Dev) : Dev :=
  let r := d.region g
  if ¬ d.assigned g ∨ r.cpPast then d
  else
    let d := d.onRegion g fun r => { r with cpPast := true }
    if ¬ planning g d then
      let d := if r.cSetpt then applySetpoints g d else d
      if r.cSetpt ∧ d.rgState g ≠ rgOFF then lawRerun g d else d
    else if r.voteDone then (if r.cSetpt then applySetpoints g d else d)
    else
      let im := signCause g d
      let causes := b2n im.isSome + 2 * b2n (r.cCell || plannedLost g d) + 8 * b2n r.cSetpt
      let ds := candsIn g chACTIVE (raOf g d) d
      let n := (chansIn g chACTIVE d).length
      let d := ds.foldl (fun d p => d.put (CH_CNT_LATE g p.1) 0) d
      match voteOf ds n with
      | .few => takeHold g (if r.cSetpt then applySetpoints g d else d)
      | .split => squashNow g (causes + 16) im d
      | .agree x src =>
        if causes = 0 then voteSent g src x (raOf g d) (d.put (RG_MODSTAT_SQUASHED g) 0)
        else squashNow g causes im (dissenters g 5 x ds d)

/-- RGDL: regatherings not complete are late (R98). -/
def regatherDeadlineD (g : Nat) (d : Dev) : Dev := d.onRegion g fun r => { r with rgdlPast := true }

/-- A plan comes after its vote, and is compared with the plan sent (R224, R225); a hold is formed by all channels at once. -/
def comparePlan (g c upset : Nat) (d : Dev) : Dev :=
  let r := d.region g
  let x := r.chan c
  match r.voted, x.law with
  | some p, some o =>
    if ¬ r.voteDone ∨ x.present ∨ ¬ chanRuns g c d ∨ r.vdlPast ∨ p.hold then d
    else
      let d' := d.onChan g c fun x => { x with present := true }
      if (channelPlan g c upset r.sqUsed o d).digest = planDigest g p d then d' else dissent g c 5 d'
  | _, _ => d

/-- The recompute of a channel (Table 3.4, R97, R98); one that comes after the vote is compared. -/
def recomputeD (g c upset : Nat) (d : Dev) : Dev :=
  let r := d.region g
  let x := r.chan c
  if ¬ planning g d then d
  else if r.voteDone then comparePlan g c upset d
  else match r.squash, x.law with
    | some m, some o =>
      if ¬ chanRuns g c d ∨ x.rc.isSome ∨ (bitOf m 0 ∧ ¬ regathered g d ∧ ¬ r.rgdlPast) then d
      else d.onChan g c fun x => { x with rc := some (channelPlan g c upset (some m) o d), present := true }
    | _, _ => d

/-- The recompute vote, once every ACTIVE channel has delivered (R224). -/
def recomputeVoteD (g : Nat) (d : Dev) : Dev :=
  let r := d.region g
  if planning g d ∧ r.squash.isSome ∧ ¬ r.voteDone ∧ (chansIn g chACTIVE d).all (fun c => (r.chan c).rc.isSome) then
    recomputeVoteNow g d
  else d

/-- RCDL: the vote is decided over what has come (R224); a missing recompute gives the hold plan (R103). -/
def recomputeDeadlineD (g : Nat) (d : Dev) : Dev :=
  let r := d.region g
  if planning g d ∧ r.squash.isSome ∧ ¬ r.voteDone then recomputeVoteNow g d else d

/-- A plan comes after its deadline: before CP it still takes part in the vote, after the vote it is compared (R225). -/
def latePlan (g c upset : Nat) (d : Dev) : Dev :=
  if ¬ planning g d then d
  else if (d.region g).voteDone then comparePlan g c upset d
  else runAhead g c upset d

/-! ## The VOTE deadline (R226, R229, R230) -/

/-- The predictions of the gatherings that a plan used become CE_VPRED; a hold, the standing hold too, shows those of step 3
(R75, R100). -/
def showVpred (g : Nat) (p : Plan) (d : Dev) : Dev :=
  let r := d.region g
  let sign := match r.sqUsed with
    | some m => bitOf m 0
    | none => false
  let lists := if p.hold then r.gath else if sign && regathered g d then r.regath else planLists r
  lists.foldl (fun d x => x.2.chg.foldl (fun d k => d.put (CE_VPRED_VPRED k.n) k.v) d) d

/-- The readouts of the last plan sent (Tables 3.10, 3.11), and its recorder entry (Table 13.2). Log entry 47 (DEDUCED). -/
def showPlan (g : Nat) (p : Plan) (uref : Int) (d : Dev) : Dev :=
  let d := (d.putB (RG_MODSTAT_POL g) p.pol).putB (RG_MODSTAT_DIR g) p.dir
  let d := (d.putB (RG_MODSTAT_HOLD g) p.hold).put (RG_MODSTAT_DPH g) p.dph
  let d := (d.put (RG_MODPLAN_L g) p.l).put (RG_MODPLAN_E g) (ofS 12 p.e)
  let d := (d.put (RG_MODTRIM_NT g) (p.trim.getD 0)).putB (RG_MODTRIM_TRIMV g) p.trim.isSome
  let d := (d.putB (RG_MODTRIM_NOTCH g) p.notch).putB (RG_MODTRIM_SUPP g) p.supp
  let d := d.put (RG_MODTRIMW_WOUT g) p.wout
  if d.bit DR_SRCCFG_ARMRG g then
    let r := d.region g
    let w := ofS 32 uref + 2 ^ 32 * ofS 16 (d.getS (RG_IREF_IREF g)) + 2 ^ 48 * ofS 16 r.i1p +
      2 ^ 64 * d.get (RG_XARM_XA g) + 2 ^ 96 * p.l + 2 ^ 108 * ofS 12 p.e + 2 ^ 120 * b2n p.hold + 2 ^ 121 * b2n p.dir +
      2 ^ 122 * b2n p.pol
    d.source kARM g (2 * d.nextB) w
  else d

/-- U of the next period in a set (R204). -/
def shiftU (u : Option Int) (m : Mull) : Mull := { m with u2 := m.u1, u1 := m.u0, u0 := u }

/-- What the commit of the voted plan makes of a mull set whose holder's run gave `o` (R92, R93, R103, R199, R204). Log entry 44
(DEDUCED). -/
def commitMull (p : Plan) (o : Option LawOut) (demsat : Bool) (m : Mull) : Mull :=
  let u := if p.hold then m.u0 else (o.map LawOut.uref).orElse fun _ => m.u0
  let m := shiftU u { m with dph := p.dph, last := some p }
  if p.hold then m
  else
    { m with
      ctl := match o with
        | some o => commitCtl o false demsat m.ctl
        | none => m.ctl
      csgn := p.dir != p.pol
      holdRun := 0
      carry := match p.trim with
        | some n => smSet (fun _ => (0 : Int)) m.carry n p.carry
        | none => m.carry }

/-- Every set that the region holds takes its commit: the common one that of the channel whose plan was sent, each channel that runs
its own (R228, R229). -/
def commitSets (g : Nat) (p : Plan) (d : Dev) : Dev :=
  let r := d.region g
  let common := commitMull p r.vLaw r.vSat (chanNow g (d.get (CH_VSTAT_SRC g)) d)
  let d' := setMull g common d
  foldN 3 (fun e c =>
    if chanRuns g c d then
      keepOwn g c (commitMull p (if p.hold then none else (r.chan c).law) r.vSat (chanNow g c d)) (chanBase g c d) e
    else e) d'

/-- The voted plan is committed, with its readouts and counts (R84, R93, R103, R199). Log entry 44 (DEDUCED). -/
def commitPlan (g : Nat) (p : Plan) (d : Dev) : Dev :=
  let r := d.region g
  let d := (injStore (.mullStore (Fin.ofNat 8 g)) (commitSets g p d)).onRegion g fun x => { x with vmiss := false, i1p := if p.hold then x.i1p else r.i1r.getD x.i1p }
  let d := if p.hold then d
    else
      let d := d.onRegion g fun x => { x with hold2 := false }
      let d := if p.supp ∧ p.trim.isSome then d.bump (RG_MODCNT_SUPPCNT g) else d
      if r.vCsat then d.bump (RG_MODCNT_CARRYSAT g) else d
  let d := if r.vSat then d.raise (RG_MODHOLD_DEMSAT g) .notice else d
  let d := match r.vLaw with
    | some o => showCtl g o p.hold
        (((d.putS (RG_UREF_UREF g) o.uref).putS (RG_IREF_IREF g) o.ir).putS (RG_IREF_I1 g) o.i1)
    | none => d
  showPlan g p ((d.region g).u0.getD 0) (showVpred g p d)

/-- No plan reached the quire units by the VOTE deadline: standing entries, VMISS (R226). Log entry 47 (DEDUCED). -/
def voteMiss (g : Nat) (d : Dev) : Dev :=
  let d := (d.raise (CH_VEVT_VMISS g) .service).bump (CH_VCNT_VMISSCNT g)
  let d := d.onRegion g fun r => { r with vmiss := true, voted := none, vLaw := none }
  onMull g (fun m => shiftU m.u0 { m with last := none, dph := (m.dph + 1) % 16 }) d

/-- An ACTIVE channel whose plan has not come by the VOTE deadline (R225). Log entry 51 (DEDUCED). -/
def lateCount (g : Nat) (d : Dev) : Dev :=
  foldN 3 (fun d c =>
    if d.get (CH_STAT_STATE g c) = chACTIVE ∧ ¬ ((d.region g).chan c).present then
      let d := d.bump (CH_CNT_LATE g c)
      if 4 ≤ d.get (CH_CNT_LATE g c) then giveUp g c 8 d else d
    else d) d

/-- The channels whose digests are compared: ACTIVE, STANDBY, and a resynchronising one whose copy is complete (R229, R230). -/
def comparedChans (g : Nat) (d : Dev) : List Nat :=
  chansIn g chACTIVE d ++ chansIn g chSTANDBY d ++ (chansIn g chRESYNC d).filter fun c => ((d.region g).chan c).copied

/-- The votes of a list of channels over what each shows; one of `bad` shows what no other shows. -/
def votesOver {α : Type} (bad : Nat) (same : α → α → Bool) (f : Nat → α) (cs : List Nat) : List (Nat × Nat) :=
  voteClasses (fun (x y : Nat × α) => x.1 == y.1 || (!bitOf bad x.1 && !bitOf bad y.1 && same x.2 y.2)) (cs.map fun c => (c, c, f c))

/-- The copies after the records: a voted one reaches the store and the copies of the channels that are not ACTIVE; every set stands as
the base of the next record (R229). In a device that is STANDBY or resynchronises only the twin's records move it (R237).
Log entry 19 (DESIGN CHOICE). -/
def applyRecord (g : Nat) (x : Option MullChange) (d : Dev) : Dev :=
  if d.shadow then d
  else
  let now := mullOf g d
  let old := mullStore g d
  let store := match x with
    | some x => mullApply x old
    | none => old
  let sets := (List.range 3).map fun c =>
    if d.get (CH_STAT_STATE g c) = chACTIVE ∨ ¬ chanRuns g c d then chanNow g c d
    else match x with
      | some x => mullApply x (chanBase g c d)
      | none => chanBase g c d
  let d' := d.onRegion g fun r => { r with base := now, store := if store = now then none else some store, recNow := x }
  foldN 3 (fun e c =>
    let m := sets.getD c now
    if chanRuns g c d then keepOwn g c m m e else e) d'

/-- The vote of the mull scans: the digests of segment j mod NSEG, after the record is applied (R230). -/
def scanVote (g bad : Nat) (d : Dev) : Dev :=
  let nseg := d.get (CH_VSTAT_NSEG g)
  let act := chansIn g chACTIVE d
  let vs := votesOver bad (fun a b => !segDiffers a b nseg (d.tm.jAbs % nseg)) (fun c => chanNow g c d) (comparedChans g d)
  if act.length < 2 then d
  else match voteOf (vs.take act.length) act.length with
    | .agree x _ => dissenters g 7 x vs d
    | _ => noAgree g d

/-- The vote of the mull records (R229): the majority record is written and its digest shown, and the scans are voted after it; dissent
and NOAGREE follow the column "Recompute vote". A single ACTIVE channel writes without a vote. `recBad` and `scanBad` name the
channels whose digest a fault has changed. Log entry 19 (DESIGN CHOICE). -/
def mullVote (g recBad scanBad : Nat) (d : Dev) : Dev :=
  let rcd := fun c => mullDiff (chanBase g c d) (chanNow g c d)
  let act := chansIn g chACTIVE d
  match act with
  | [] => applyRecord g none d
  | [c] => applyRecord g (some (rcd c)) d
  | _ =>
    let vs := votesOver recBad (fun a b => decide (a = b)) rcd (comparedChans g d)
    match voteOf (vs.take act.length) act.length with
    | .agree x src =>
      let d := (d.put (CH_VMULL_DIGEST g) (Config.recordDigest (rcd src)).toNat).onRegion g fun r => { r with noag := false }
      scanVote g scanBad (dissenters g 6 x vs (applyRecord g (some (rcd src)) d))
    | _ => noAgree g (applyRecord g none d)

/-- After the VOTE deadline of the last region the ACTIVE device of a pair sends its MULL record (Table 8.6), with the full sets while
the twin resynchronises (R237). Log entry 52 (DEDUCED). -/
def mullSend (d : Dev) : Dev :=
  let gs := (List.range 8).filter fun g => d.assigned g
  if ¬ d.paired ∨ d.role ≠ roleACTIVE ∨ d.tw.mullSent ∨ ¬ gs.all (fun g => (d.region g).vdlPast) then d
  else
    let qs := (List.finRange 64).filter fun q => d.flag (QU_CFG_ASSIGNED q.val)
    let gs := (List.finRange 8).filter fun g => d.assigned g.val
    let r : MullRec := {
      mode := BitVec.ofNat 3 d.mode
      states := gs.map fun g => (g, BitVec.ofNat 3 (d.rgState g.val))
      records := gs.filterMap fun g => (d.region g.val).recNow.map fun x => (g, x)
      sets := if d.tw.role = roleRESYNC then gs.map fun g => (g, mullStore g.val d) else []
      digests := gs.map fun g => (g, Config.mullDigest (mullStore g.val d))
      loss := qs.flatMap fun q => (d.quire q.val).lossCnt.map fun p => (Fin.ofNat 8192 (128 * q.val + p.1), p.2)
      pointers := qs.map fun q => (q, (d.quire q.val).ptr)
      staged := gs.flatMap fun g => (d.region g.val).staged.map fun s =>
        (g, BitVec.ofNat 2 s.tgt, BitVec.ofInt 32 s.value, s.per, BitVec.ofNat 16 s.ramp) }
    (twinSend 1 (.mull r) d).onTw fun t => { t with mullSent := true }

/-- The VOTE deadline: the voted plan is committed, also that of a region that has entered BLOCK since, where t0 lies later (R295). -/
def voteDeadlineD (g recBad scanBad : Nat) (d : Dev) : Dev :=
  if ¬ d.assigned g ∨ ¬ d.live ∨ (d.region g).vdlPast then d
  else
    let d := d.onRegion g fun r => { r with vdlPast := true, voteDone := true }
    let d := if planning g d then
        let d := lateCount g d
        match (d.region g).voted with
        | some p => if planLimitOk g p d then commitPlan g p d else voteMiss g d
        | none => voteMiss g d
      else if d.rgState g = rgRUN then onMull g (fun m => shiftU m.u0 m) d
      else
        let d := match (d.region g).voted with
          | some p => if planLimitOk g p d then commitPlan g p d else voteMiss g d
          | none => d
        onMull g (fun m => { m with u0 := none, u1 := none, u2 := none }) d
    mullSend (mullVote g recBad scanBad d)

end Sys2Proof.Machine
end

