-- ==== Sys2Proof/Machine/Claim.lean ====
section
/-! DEFINITION. Protective overrides and their t0 (R289-R295), the two-step block (R124-R127), the debug halt (R105-R107), and
claimant arbitration (Table 2.6). -/

namespace Sys2Proof.Machine

/-! ## Overrides -/

/-- ADVS of a scope (R293). -/
def advsOf (gs : List Nat) (d : Dev) : Nat :=
  gs.foldl (fun a g => (d.quiresOf g).foldl (fun a q => max a (d.get (QU_FRMCFG_ADV q))) a) 0

/-- The period whose boundary is t0, for a stamp in ticks (R293). Log entry 49 (DEDUCED). -/
def ovrT0 (advs stamp : Nat) (d : Dev) : Nat :=
  let b := d.nextB
  let k := stamp + advs + 250
  if k ≤ b then d.tm.jAbs + 1 else d.tm.jAbs + 1 + ceilDiv (k - b) d.T

/-- A region leaves RUN, for whatever state (R195, R204, R207, R216); `keep` says that the plan the voter has sent still reaches its
period. -/
def leaveRun (g : Nat) (keep : Bool) (d : Dev) : Dev :=
  if d.rgState g = rgRUN then
    let d := onMull g (fun m => { m with u0 := none, u1 := none, u2 := none }) (lawLeaveRun g d)
    d.onRegion g fun r => { r with
      voted := if keep then r.voted else none, vLaw := if keep then r.vLaw else none, squash := none }
  else d

/-- A protective override aborts every diagnostic that holds a cell of the region (R76). -/
def diagsAbort (g : Nat) (d : Dev) : Dev :=
  (d.cellsOf g).foldl (fun d n => if (d.cell n).diag = 2 then diagAbort n d else d) d

/-- No step of a two-step block has been sent (R127). -/
def phaseClear (g : Nat) (d : Dev) : Dev :=
  (d.quiresOf g).foldl (fun d q => d.onQuire q fun x => { x with phase := 0 })
    ((d.put (RG_BLKSTAT_PHASE g) 0).put (RG_BLKSTAT_CONF g) 0)

/-- The override of a region becomes active at a stamp: the region is in BLOCK, a plan in preparation is squashed with cause
PROT, diagnostics end, and a sequence starts unless one runs (R76, R97, R126, R295). A plan that the voter has sent before the stamp is
still committed where the next period begins before t0. Log entry 49 (DEDUCED). -/
def blockRegion (g t0 stamp : Nat) (d : Dev) : Dev :=
  let st := d.rgState g
  if st = rgBLOCK then diagsAbort g d
  else if ¬ (st = rgCHARGE ∨ st = rgREADY ∨ st = rgRUN) then d
  else
    let r := d.region g
    let d := if planning g d ∧ r.rdlPast ∧ ¬ r.cpPast ∧ ¬ r.voteDone then
        noteSquash g (4 + 2 * b2n (r.cCell || plannedLost g d) + 8 * b2n r.cSetpt) d else d
    let d := (leaveRun g (decide (d.tm.jAbs + 1 < t0)) d).setRegion g rgBLOCK
    let d := phaseClear g (diagsAbort g d)
    d.onRegion g fun r => { r with ovr := some ⟨t0, stamp, st == rgRUN⟩ }

/-- The regions of a scope block with one t0. -/
def blockScope (gs : List Nat) (stamp : Nat) (d : Dev) : Dev :=
  let gs := gs.filter fun g => d.assigned g
  let t0 := ovrT0 (advsOf gs d) stamp d
  gs.foldl (fun d g => blockRegion g t0 stamp d) d

/-- The step after PROTECTIVE flags have set: their overrides become active (R289, R290, R293). Log entry 49 (DEDUCED). -/
def overrideD (tk : Nat) (d : Dev) : Dev :=
  if d.fc.prots.isEmpty ∧ ¬ d.fc.protDev then d
  else
    let d := d.at_ tk
    let masks := d.fc.prots
    let dev := d.fc.protDev
    let d := { d with fc := { d.fc with prots := [], protDev := false } }
    if ¬ d.converting then d
    else if dev then
      let d := if d.mode = modeCHARGE ∨ d.mode = modeRUN then d.setMode modeBLOCK else d
      blockScope (List.range 8) d.nowTick d
    else masks.foldl (fun d m => blockScope (maskRegions m) d.nowTick d) d

/-- A region leaves BLOCK: its sequence is over (R127). -/
def endBlock (g : Nat) (d : Dev) : Dev :=
  let d := (phaseClear g d).onRegion g fun r => { r with ovr := none }
  (d.cellsOf g).foldl (fun d n => d.onCell n fun c => { c with owes := 0 }) d

/-- A region enters CHARGE: CSGN is 0 (R85) and its STANDBY channels become ACTIVE (Table 8.2). -/
def regionCharge (g : Nat) (d : Dev) : Dev :=
  let d := (endBlock g d).setRegion g rgCHARGE
  let d := onMull g (fun m => { m with csgn := false }) d
  foldN 3 (fun d c => if d.get (CH_STAT_STATE g c) = chSTANDBY then chanGo g c chACTIVE d else d) d

/-- A region enters RUN: no plan sent before counts for a hold any more (R102), and every dwell carry is 0 (R94). -/
def regionRun (g : Nat) (d : Dev) : Dev :=
  onMull g (fun m => { m with last := none, carry := [] }) (lawEnterRun g ((endBlock g d).setRegion g rgRUN))

/-- A region enters OFF: the first run after it has no boundary current before it (R204). -/
def regionOff (g : Nat) (d : Dev) : Dev :=
  if d.rgState g = rgOFF then d
  else lawStopped g (onMull g (fun m => { m with meas := { m.meas with ibPrev := none } }) ((endBlock g (leaveRun g false d)).setRegion g rgOFF))

/-- The region of a STANDBY or RESYNC device takes the state of its twin's region, with what entering that state does
(R235, R237). Log entry 52 (DEDUCED). -/
def followRegion (g st : Nat) (d : Dev) : Dev :=
  if d.rgState g = st then d
  else if st = rgOFF then regionOff g d
  else if st = rgCHARGE then regionCharge g (leaveRun g false d)
  else if st = rgRUN then regionRun g d
  else (leaveRun g false d).setRegion g st

/-- t_step in ticks. -/
def tStep (g : Nat) (d : Dev) : Nat := 250 * d.get (RG_BLKCFG_TSTEP g)

/-- The block sequence at a boundary: at t0 the cells that take part are fixed, and once step 3 has passed with nothing owed
the block is confirmed (R127). -/
def blockBoundary (g : Nat) (d : Dev) : Dev :=
  match (d.region g).ovr with
  | none => d
  | some o =>
    let d := if d.tm.jAbs = o.t0 then
        (d.cellsOf g).foldl (fun d n =>
          if posRegistered (n / 128) (n % 128) d then d.onCell n fun c => { c with owes := 1 } else d) d
      else d
    if o.t0 < d.tm.jAbs ∧ o.t0 * d.T + 2 * tStep g d ≤ d.tm.bj ∧ (d.cellsOf g).all (fun n => (d.cell n).owes == 0) then
      d.put (RG_BLKSTAT_CONF g) 1
    else d

/-- The latest time of step 4 (R127). -/
def blockExpiry (g : Nat) (d : Dev) : Dev :=
  match (d.region g).ovr with
  | none => d
  | some o =>
    if d.nowTick < o.t0 * d.T + 2 * tStep g d + d.get (RG_BLKCFG_CONFN g) * d.T then d
    else
      let k := ((d.cellsOf g).filter fun n => (d.cell n).owes != 0).length
      if k = 0 then d else (d.raise (RG_BLKSTAT_NOCONF g) .notice).put (RG_BLKSTAT_NCONF g) k

/-! ## Debug halt (R105-R107) -/

/-- SAFE: the region enters BLOCK by a block at the present instant. Log entry 48 (DEDUCED). -/
def haltSafe (g : Nat) (d : Dev) : Dev :=
  let d := (d.put (RG_MODSTAT_HALTED g) 1).put (RG_MODSTAT_HALTSAFE g) 1
  blockScope [g] d.nowTick (d.onRegion g fun r => { r with halt := 3, resume := none })

/-- Write of RG_MODCTL. Log entry 48 (DEDUCED). -/
def wrModCtl (o : Origin) (g : Nat) (w : Word) (d : Dev) : Bool × Dev :=
  shellWrite o .halt true (fun d =>
    let h := (d.region g).halt
    if bitOf w.toNat 0 then
      let d := d.put (RG_MODCTL_HALT g) 1
      if h = 3 ∨ h = 1 then d
      else if h = 2 then d.onRegion g fun r => { r with resume := none }
      else if ¬ d.flag (RG_MODCFG0_HALTMODE g) ∨ d.flag (RG_STAT_ENERG g) then haltSafe g d
      else d.onRegion g fun r => { r with halt := 1 }
    else
      let d := d.put (RG_MODCTL_HALT g) 0
      if h = 3 then (d.put (RG_MODSTAT_HALTED g) 0).onRegion g fun r => { r with halt := 0 }
      else if h = 1 then d.onRegion g fun r => { r with halt := 0 }
      else if h = 2 then
        let k := if d.nowTick + d.T ≤ d.nextB then d.tm.jAbs + 1 else d.tm.jAbs + 2
        d.onRegion g fun r => { r with resume := some (r.resume.getD k) }
      else d) d

/-- The halt at a boundary: a freeze takes effect, gives way to SAFE, or ends. A region that becomes ENERGISED once HALT = 0 is written
takes no SAFE any more. Log entry 48 (DEDUCED). -/
def haltBoundary (g : Nat) (d : Dev) : Dev :=
  let r := d.region g
  if r.halt = 1 then
    if d.flag (RG_STAT_ENERG g) then haltSafe g d
    else ((d.put (RG_MODSTAT_HALTED g) 1).put (RG_MODSTAT_HALTSAFE g) 0).onRegion g fun r => { r with halt := 2 }
  else if r.halt = 2 then
    match r.resume with
    | some k => if k ≤ d.tm.jAbs then (d.put (RG_MODSTAT_HALTED g) 0).onRegion g fun r => { r with halt := 0, resume := none } else d
    | none => if d.flag (RG_STAT_ENERG g) then haltSafe g d else d
  else d

/-! ## Claimant arbitration (Table 2.6) -/

/-- What arbitration selects for a cell: row, state of change A and its instant in 1/16 tick, change B, kind, diagnostic code
and argument, whether the delivery correction applies to the instants, and whether it is the standing entry (R177). -/
structure Pick where
  row : Nat
  sta : Nat
  ta : Nat
  tb : Option (Nat × Nat)
  kind : Nat
  dcode : Nat
  arg : Nat
  fix : Bool
  stand : Bool
  deriving DecidableEq, Repr

/-- An entry of one state for the whole period. -/
def pickState (row st : Nat) (fix : Bool) : Pick := ⟨row, st, 0, none, 0, 0, 0, fix, false⟩

/-- The modulator's entry of a cell for the period of a plan (Table 3.1, R82, R90). -/
def planPick (g n : Nat) (p : Plan) (d : Dev) : Pick :=
  let ins := if p.pol then stNEG else stPOS
  let end_ := if p.base.contains n then ins else stBYPASS
  let e := 16 * windowOfs g d
  if p.trim = some n ∧ ¬ p.supp ∧ p.wout ≠ 0 then
    ⟨4, if p.notch then stBYPASS else ins, e, some (e + p.wout, end_), 0, 0, 0, true, false⟩
  else ⟨4, end_, e, none, 0, 0, 0, true, false⟩

/-- Row 4 for the frame of period `f`: the plan sent for it, the base state under a freeze, else the standing entry (R102,
R105, R226). -/
def modPick (g n f : Nat) (d : Dev) : Pick :=
  let standing := { pickState 4 (d.cell n).endSt false with stand := true }
  match (d.region g).last with
  | none => standing
  | some p =>
    if p.standing then standing
    else if (d.region g).halt = 2 ∧ ¬ planning g d then
      pickState 4 (if p.base.contains n then (if p.pol then stNEG else stPOS) else stBYPASS) false
    else if p.j1 = f % 2 ^ 32 then planPick g n p d
    else standing

/-- Row 2 for the frame of period `f` (R124, R125). -/
def ovrPick (g n f : Nat) (o : Ovr) (d : Dev) : Pick :=
  let t := d.T
  let ts := tStep g d
  let dt := (f - o.t0) * t
  let soft := if (n / 128 + n % 128) % 2 = 0 then 0 else ts
  let inP := fun x => decide (dt ≤ x) && decide (x < dt + t)
  let k := fun (sta ta : Nat) (tb : Option (Nat × Nat)) (fix : Bool) => (⟨2, sta, ta, tb, 1, 0, 0, fix, false⟩ : Pick)
  if d.ceState n = ceUNREG ∨ 2 * ts < dt then k stBLOCK 0 none false
  else match inP soft, inP (2 * ts) with
    | true, true => k stSOFT (16 * (soft - dt)) (some (16 * (2 * ts - dt), stBLOCK)) true
    | true, false => k stSOFT (16 * (soft - dt)) none true
    | false, true => k stBLOCK (16 * (2 * ts - dt)) none true
    | false, false => k (d.cell n).endSt 0 none false

/-- The steps of a block whose changes fall before the instant `t` after t0 (Table 4.9). -/
def stepsBefore (g t : Nat) (d : Dev) : Nat := b2n (decide (0 < t)) + b2n (decide (tStep g d < t)) + b2n (decide (2 * tStep g d < t))

/-- The phases of a block before and after the frame of period `f`, by the changes that fall in the periods (Table 4.10). -/
def blockPhase (g f : Nat) (o : Ovr) (d : Dev) : Nat × Nat :=
  (stepsBefore g ((f - o.t0) * d.T) d, if f < o.t0 then 0 else stepsBefore g ((f - o.t0 + 1) * d.T) d)

/-- The phase reached once a frame with the changes of `p` has been sent: a step counts as sent only after the steps before it, and
BLOCK with every entry that carries it (R125, R128). -/
def phaseAfter (have_ : Nat) (p : Nat × Nat) : Nat := if p.2 = 3 then 3 else if p.1 ≤ have_ then max have_ p.2 else have_

/-- A diagnostic entry (R121). -/
def diagPick (row n hold : Nat) (d : Dev) : Pick := ⟨row, hold, 0, none, 2, (d.cell n).dCode, (d.cell n).dArg, false, false⟩

/-- The entry of cell `n` for the frame of period `f` (Table 2.6). An entry for a whole period has its instant TA = 0 corrected like every
other: log entry 97 (DESIGN CHOICE). -/
def claimOf (n f : Nat) (d : Dev) : Pick :=
  let st := d.ceState n
  let c := d.cell n
  match d.cellRegion n with
  | none => pickState 6 stBLOCK false
  | some g =>
    let r := d.region g
    let ovr := match r.ovr with
      | some o => if o.t0 ≤ f then some o else none
      | none => none
    let run := d.rgState g == rgRUN || match r.ovr with
      | some o => o.run && decide (f < o.t0)
      | none => false
    if st = ceBYPASSED ∨ st = ceRETIRED then
      if c.diag = 2 ∧ c.dCode = 1 ∧ st = ceBYPASSED then diagPick 1 n stBYPASS d else pickState 1 stBYPASS true
    else match ovr with
      | some o => ovrPick g n f o d
      | none =>
        if c.diag = 2 then diagPick 3 n (if run ∧ (c.dCode = 1 ∨ c.dCode = 4) then stBYPASS else stBLOCK) d
        else if st = ceHEALTHY ∧ run then modPick g n f d
        else if (st = ceREG ∨ st = ceSUSPECT) ∧ run then pickState 5 stBYPASS true
        else pickState 6 stBLOCK true

end Sys2Proof.Machine
end

