-- ==== Sys2Proof/Machine/Framing.lean ====
section
/-! DEFINITION. Frames of the quires (chapter 6): the build at the collection point, the release, the standing frame, slot-table
swaps, reports and events coming back, the arbiter and the delivery budget. -/

namespace Sys2Proof.Machine

/-! ## Command entries (R112, R91, R168) -/

/-- The 64-bit command entry (Table 4.2). -/
def entryWord (ta tb sta stb : Nat) (tbv : Bool) (kind dcode sq : Nat) : Nat :=
  let b := ta % 2 ^ 16 + tb % 2 ^ 16 * 2 ^ 16 + sta * 2 ^ 32 + stb * 2 ^ 35 + b2n tbv * 2 ^ 38 + kind * 2 ^ 40 +
    dcode * 2 ^ 42 + sq % 256 * 2 ^ 48
  b + crc8 56 b * 2 ^ 56

/-- A void entry of a device that does not control the cells (R234). -/
def voidWord (sq : Nat) : Nat := entryWord 0 0 0 0 false 3 0 sq

/-- The standing entry: the last entry sent, with TA = 0, TBV = 0, STA the state at its end and SEQ = j (R177).
Log entry 58 (DEDUCED). -/
def standWord (last : Nat) (endSt sq : Nat) : Nat :=
  entryWord 0 (bitsOf last 16 16) endSt (bitsOf last 35 3) false (bitsOf last 40 2) (bitsOf last 42 4) sq

/-- A corrected instant narrowed to a tick; a saturation is counted (R168, R91). -/
def tickOf (q n : Nat) (t16 c : Int) (dph : Nat) (d : Dev) : Nat × Dev :=
  let x := satI (t16 + c) 0 (16 * (d.T - 1) : Nat)
  let d := if x = t16 + c then d else (d.bump (QU_CNT_CLAMPCNT q)).raise (QU_EVT_CLAMP q) .notice
  let v := x.toNat
  (v / 16 + (if bitrev 4 ((dph + n) % 16) < v % 16 then 1 else 0), d)

/-- Row 2 of Table 2.6 is counted, and the winner is shown (R75, Table 2.10). -/
def noteClaim (n row : Nat) (d : Dev) : Dev :=
  let d := d.put (CE_CLAIM_WINNER n) row
  if row = 2 then (d.bump (CE_CLAIM_OVRCNT n)).telCount n 54 else d

/-- TB stays after TA (R113): of two instants that the correction has pushed together at an end of the period, one moves by a tick.
Log entry 58 (DEDUCED). -/
def tbAfter (ta tb t : Nat) : Nat × Nat := if ta < tb then (ta, tb) else if ta + 1 < t then (ta, ta + 1) else (tb - 1, tb)

/-- The entry of a position for the frame of period `f`: its word, the state at its end, and the committed states; a standing entry
repeats the last one sent but for TA, TBV, STA and SEQ (R177). Log entry 63 (DESIGN CHOICE). -/
def buildEntry (q p f : Nat) (d : Dev) : (Nat × BitVec 64 × Nat × Seg) × Dev :=
  let n := 128 * q + p
  let k := claimOf n f d
  let d := noteClaim n k.row d
  let c := delivery q p d
  let dph := match d.quireRegion q with
    | some g => (d.region g).dph
    | none => 0
  let s0 := (d.cell n).endSt
  let ta := if k.fix then tickOf q n k.ta c dph d else (k.ta / 16, d)
  let tb := match k.tb with
    | some (t, _) => if k.fix then tickOf q n t c dph ta.2 else (t / 16, ta.2)
    | none => (k.arg, ta.2)
  let d := tb.2
  let stb := match k.tb with
    | some (_, s) => s
    | none => 0
  let ab := if k.tb.isSome then tbAfter ta.1 tb.1 d.T else (ta.1, tb.1)
  let w := if k.stand then standWord (d.cell n).entry.toNat k.sta f
    else entryWord ab.1 ab.2 k.sta stb k.tb.isSome k.kind k.dcode f
  let hit := injHit 0xB n d
  let w := if hit then w ^^^ (injBits d * 2 ^ 56) else w
  let d := if hit then injDone d else d
  let seg : Seg := ⟨s0, k.ta / 16, k.sta, k.tb.map fun x => (x.1 / 16, x.2), c⟩
  ((p, BitVec.ofNat 64 w, segEnd seg, seg), d)

/-! ## The build (R173, R177) -/

/-- T_C in ticks after an entry to CHARGE (R59). -/
def chargeTicks (d : Dev) : Nat :=
  let m := if d.flag FB_TCMIN_PENDV then d.get FB_TCMIN_PEND else d.get FB_TCMIN_MIN
  ticksOfCode (max (d.get GL_TCCFG_TC) m)

/-- The next boundary starts a gap period (R274): no frame carries it. -/
def gapNext (d : Dev) : Bool := d.su.chargeAt == some (d.tm.jAbs + 1) && chargeTicks d != d.tm.tTicks

/-- The active slot table that a swap would give. -/
def withTable (q tab : Nat) (d : Dev) : Dev := d.setWord (QU_SLOTA q) (BitVec.ofNat 32 tab)

/-- A position is reached from either end by the active slot table. -/
def reached (q p : Nat) (d : Dev) : Bool := reachedEnd q 0 p d || reachedEnd q 1 p d

/-- The request words of a window are kept until the frame that answers it is built. -/
def reqMod (w : Nat) : Nat := w % 256

/-! ## The event window (R180-R182) -/

/-- The request code of a position. -/
def reqCode (words : BitVec 256) (p : Nat) : Nat := words.toNat / 4 ^ p % 4

/-- A request that receives neither a grant nor a loss bit (R180). -/
def masked (q p code : Nat) (d : Dev) : Bool :=
  let n := 128 * q + p
  let st := d.ceState n
  if code = 3 then decide (d.get (QU_CFG_NPOS q) ≤ p) || st == ceRETIRED
  else decide (d.get (QU_CFG_NPOS q) ≤ p) || st == ceUNREG || st == ceBYPASSED || st == ceRETIRED ||
    (st == ceSUSPECT && decide (d.get (CE_CFG2_NMISS n) ≤ d.get (CE_FRESH_MISSRUN n)))

/-- The lowest free slot. -/
def freeSlot (q : Nat) (d : Dev) : Option Nat :=
  (List.range (d.get (QU_FRMCFG_NEVS q))).find? fun s => (smLook (d.quire q).slots s).isNone

/-- A position holds a slot. -/
def holdsSlot (q p : Nat) (d : Dev) : Bool := (d.quire q).slots.any fun s => s.2.pos == p

/-- Distance in the round robin from the pointer. -/
def rot (ptr p : Nat) : Nat := (p + 128 - ptr % 128) % 128

/-- The station time of an event in nanoseconds, by the boundary and the correction that its period had (R169). An ESEQ of no period that
the device has had counts on the present grid. -/
def eventNs (q p rec_ : Nat) (d : Dev) : Nat :=
  let w := (eraFind (bitsOf rec_ 32 8) d.tm.eras).getD (d.tm.bj - (d.j8 + 256 - bitsOf rec_ 32 8) % 256 * d.T, 0)
  (((2 * w.1 + 2 * bitsOf rec_ 16 16 : Nat) : Int) - rdiv (corAt w.2 (d.cell (128 * q + p)).cors) 8).toNat

/-- Deliver a record to the engine of a position. Log entry 59 (DEDUCED). -/
def deliverRec (q p : Nat) (x : BitVec 128) (d : Dev) : Dev := cellEvent (128 * q + p) x.toNat (eventNs q p x.toNat d) d

/-- A record is discarded or lost (R182, R185). -/
def eventBad (q : Nat) (d : Dev) : Dev := (d.bump (QU_EVCNT_EVBADCNT q)).raise (QU_EVT_EVBAD q) .notice

/-- Frames in the order sent, by their FSEQ: the latest possible one is that of the period after next. -/
def sentKey (fs : Nat) (d : Dev) : Nat := (fs + 254 - d.j8) % 256

/-- A record takes its place in the order sent (R182). -/
def gotInsert (d : Dev) (x : Nat × BitVec 128) : List (Nat × BitVec 128) → List (Nat × BitVec 128)
  | [] => [x]
  | y :: l => if sentKey x.1 d < sentKey y.1 d then x :: y :: l else y :: gotInsert d x l

/-- The slot of frame `fs` has come back: the frames sent before it that have not are overtaken. -/
def slotBack (fs : Nat) (t : XferSlot) : XferSlot :=
  if t.out.contains fs then
    { t with lost := t.lost ++ t.out.takeWhile (fun x => x != fs), out := (t.out.dropWhile fun x => x != fs).drop 1 }
  else { t with lost := t.lost.filter fun x => x != fs }

/-- A transfer ends: its records are delivered in the order sent, and those lost in transit are counted (R182). -/
def endXfer (q s : Nat) (d : Dev) : Dev :=
  match smLook (d.quire q).slots s with
  | none => d
  | some x =>
    let d := d.onQuire q fun y => { y with slots := smErase y.slots s }
    let d := foldN x.lost.length (fun d _ => eventBad q d) d
    x.got.foldl (fun d r => deliverRec q x.pos r.2 d) d

/-- A grant opens a transfer. -/
def openXfer (q s p : Nat) (urg reg : Bool) (n : Nat) (d : Dev) : Dev :=
  (d.onQuire q fun x => { x with
    slots := smInsert x.slots s ⟨p, urg, reg, n, [], [], []⟩
    lossCnt := smErase x.lossCnt p }).bump (QU_ARBCNT_GRANTS q)

/-- The held non-urgent transfer with the most records still due; of equals the lowest slot (R181). A registration transfer ends without
registration only where its position is no longer reached (R391), and is not pre-empted: log entry 59 (DEDUCED). -/
def victim (q : Nat) (d : Dev) : Option Nat :=
  ((d.quire q).slots.foldl (fun (best : Option (Nat × Nat)) e =>
    if e.2.urg ∨ e.2.reg then best
    else
      let due := e.2.n - e.2.got.length
      match best with
      | none => some (e.1, due)
      | some b => if b.2 < due then some (e.1, due) else best) none).map fun b => b.1

/-- An urgent requester: a free slot, a pre-empted one, or the next frame (R181). -/
def grantUrgent (q : Nat) (d : Dev) (u : Nat) : Dev :=
  match freeSlot q d with
  | some s => openXfer q s u true false 1 d
  | none => match victim q d with
    | some s => openXfer q s u true false 1 ((endXfer q s d).bump (QU_EVCNT_PREEMPT q))
    | none => d.onQuire q fun x => { x with uwait := x.uwait ++ [u] }

/-- Place a position in a list ordered by a relation. -/
def insertBy (lt : Nat → Nat → Bool) (p : Nat) : List Nat → List Nat
  | [] => [p]
  | x :: l => if lt p x then p :: x :: l else x :: insertBy lt p l

def sortBy (lt : Nat → Nat → Bool) (l : List Nat) : List Nat := l.foldl (fun acc p => insertBy lt p acc) []

/-- The records of a transfer that is neither urgent nor a registration (R182): EVQ of the last accepted report, at most
BURST, at least one. -/
def burstOf (q p : Nat) (d : Dev) : Nat :=
  max 1 (min (bitsOf (d.get (CE_REP_REP (128 * q + p) 3)) 16 8) (d.get (QU_FRMCFG_BURST q)))

/-- The arbiter's decision on the request words of a window: grants by slot and the positions with a loss bit (R181).
Log entry 53 (DEDUCED). -/
def arbitrate (q : Nat) (words : BitVec 256) (d : Dev) : (List (Option Nat) × List Nat) × Dev :=
  let ptr := (d.quire q).ptr
  let waits := (d.quire q).uwait.filter fun p => !masked q p 2 d
  let order := sortBy (fun a b => decide (rot ptr a < rot ptr b)) (List.range 128)
  let bad := order.any fun p => reqCode words p == 3 && decide (d.get (QU_CFG_NPOS q) ≤ p)
  let d := if bad then d.raise (QU_EVT_NPOSERR q) .service else d
  let live := order.filter fun p => reqCode words p != 0 && !masked q p (reqCode words p) d
  let urg := live.filter fun p => reqCode words p == 2 && !waits.contains p
  let d := d.onQuire q fun x => { x with uwait := [] }
  let d := (waits ++ urg).foldl (grantUrgent q) d
  let m := fun p => smGet (fun _ => 0) (d.quire q).lossCnt p
  let held := fun p => holdsSlot q p d
  let cand := sortBy (fun a b => decide (m b < m a)) (live.filter fun p => reqCode words p != 2 && !held p)
  let r := cand.foldl (fun (acc : List Nat × Dev) p =>
    match freeSlot q acc.2 with
    | some s =>
      let reg := reqCode words p == 3
      let d := openXfer q s p false reg (if reg then 1 else burstOf q p acc.2) acc.2
      (acc.1, d.onQuire q fun x => { x with ptr := (p + 1) % 128 })
    | none =>
      (acc.1 ++ [p], acc.2.onQuire q fun x => { x with
        lossCnt := smSet (fun _ => 0) x.lossCnt p (min 11 (smGet (fun _ => 0) x.lossCnt p + 1)) })) ([], d)
  let d := r.2.bump (QU_ARBCNT_LOSSES q) r.1.length
  (((List.range (d.get (QU_FRMCFG_NEVS q))).map fun s => (smLook (d.quire q).slots s).map fun x => x.pos, r.1), d)

/-- The payload of an EVG block (Table 6.1). -/
def evgWord (gr : List (Option Nat)) : BitVec 64 :=
  ctlBlock 0xB3 ((gr.zip (List.range gr.length)).foldl (fun a x => match x.1 with
    | some p => a + (128 + p % 128) * 2 ^ (8 * x.2 + 8)
    | none => a) 0)

/-- Grants that an EVG block spells. -/
def evgRead (nevs : Nat) (w : BitVec 64) : List (Option Nat) :=
  (List.range nevs).map fun s =>
    let b := bitsOf w.toNat (8 * s + 8) 8
    if 128 ≤ b then some (b - 128) else none

/-- A mask of positions. -/
def posMask (l : List Nat) : BitVec 128 := BitVec.ofNat 128 (l.foldl setBit 0)

/-- At a boundary of pair operation the ACTIVE device decides for every quire, and sends the ARB record (R236).
Log entry 53 (DEDUCED). -/
def arbBoundary (d : Dev) : Dev :=
  if ¬ d.paired ∨ d.role ≠ roleACTIVE ∨ ¬ d.live then d
  else
    let f := d.tm.jAbs + 1
    let r := (List.finRange 64).foldl (fun (acc : List (Fin 64 × BitVec 64 × BitVec 128) × Dev) (q : Fin 64) =>
      if acc.2.quireRegion q.val = none then acc
      else
        let words := smGet (fun _ => (0 : BitVec 256)) (acc.2.quire q.val).reqs (reqMod (f + 254))
        let x := arbitrate q.val words acc.2
        let d := x.2.onQuire q.val fun y => { y with arb := some x.1, reqs := smErase y.reqs (reqMod (f + 254)) }
        (acc.1 ++ [(q, evgWord x.1.1, posMask x.1.2)], d)) ([], d)
    twinSend 0 (.arb ⟨f, r.1⟩) r.2

/-! ## The collection point and the standing frame (R173, R177) -/

/-- No grant and no loss bit. -/
def noAnswers (q : Nat) (d : Dev) : List (Option Nat) × List Nat :=
  ((List.range (d.get (QU_FRMCFG_NEVS q))).map fun _ => none, [])

/-- The ARB record of frame `f` has not come by the build of a frame that needs it: a late record counts once, for all quires (R236,
Table 8.11). Log entry 53 (DEDUCED). -/
def arbLate (f : Nat) (d : Dev) : Dev :=
  if d.tw.arbLate = some f then d
  else ((d.onTw fun t => { t with arbLate := some f }).bump GL_TWCNT_ARBLCNT).raise GL_TWEVT_ARBLATE .notice

/-- The answers that the frame of period `f` carries, decided when its build starts (R177, R181): by the arbiter of a single
device; of a pair, by the ACTIVE device at the boundary before, and relayed by the other (R236). Log entry 53 (DEDUCED). -/
def answersAt (q f : Nat) (words : BitVec 256) (d : Dev) : (List (Option Nat) × List Nat) × Dev :=
  if ¬ d.paired then arbitrate q words d
  else if d.role = roleACTIVE then ((d.quire q).arb.getD (noAnswers q d), d)
  else
    let late := (noAnswers q d, arbLate f d)
    match d.tw.arb with
    | none => late
    | some a => if a.frame ≠ f then late
      else match a.quires.find? fun x => x.1.val == q with
        | none => (noAnswers q d, d)
        | some x => ((evgRead (d.get (QU_FRMCFG_NEVS q)) x.2.1, (List.range 128).filter fun p => bitOf x.2.2.toNat p), d)

/-- What undoes the decision between two states of the arbiter. -/
def undoOf (q : Nat) (before after : Dev) : ArbUndo :=
  let old := before.quire q
  ⟨((after.quire q).slots.filter fun s => match smLook old.slots s.1 with
      | some t => t.pos != s.2.pos
      | none => true).map fun s => (s.1, smLook old.slots s.1),
    old.lossCnt, old.ptr, old.uwait,
    (before.get (QU_ARBCNT_GRANTS q), before.get (QU_ARBCNT_LOSSES q), before.get (QU_EVCNT_PREEMPT q))⟩

/-- The standing frame carries no answer: what the arbiter decided for the frame that it replaces is undone, and a transfer
that was pre-empted goes on with the records still due (R177, R182). Log entry 53 (DEDUCED). -/
def arbUndo (q : Nat) (u : ArbUndo) (d : Dev) : Dev :=
  let d := d.onQuire q fun x => { x with
    slots := u.opened.foldl (fun m e => match e.2 with
      | some t => smInsert m e.1 { t with n := t.n - t.got.length, got := [], lost := [] }
      | none => smErase m e.1) x.slots
    lossCnt := u.lossCnt, ptr := u.ptr, uwait := u.uwait }
  ((d.put (QU_ARBCNT_GRANTS q) u.counts.1).put (QU_ARBCNT_LOSSES q) u.counts.2.1).put (QU_EVCNT_PREEMPT q) u.counts.2.2

/-- The transfers of the positions that the table of a decided swap no longer reaches end with it (R174). -/
def swapEnds (q tab : Nat) (d : Dev) : Dev :=
  let n := withTable q tab d
  ((d.quire q).slots.filter fun s => !reached q s.2.pos n).foldl (fun d s => endXfer q s.1 d) d

/-- The collection point of the frame of the next period (R177): the entries are selected, a pending swap is decided, and the
arbiter answers the request words that have arrived. Log entry 5 (DESIGN CHOICE). -/
def collect (q : Nat) (d : Dev) : Dev :=
  let f := d.tm.jAbs + 1
  if ¬ d.live ∨ ¬ d.timeRuns ∨ ¬ d.tm.grid ∨ d.quireRegion q = none ∨ (d.quire q).lastJ = f ∨ gapNext d then d
  else
    let d := d.until_ (d.nextB - d.get (QU_FRMCFG_ADV q) - 250)
    let swap := d.flag (QU_SLOTCTL_PEND q)
    let old := (d.word (QU_SLOTA q)).toNat
    let tab := if swap then (d.word (QU_SLOTI q)).toNat else old
    let d := withTable q tab d
    let r := foldN (d.get (QU_CFG_NPOS q)) (fun (acc : List (Nat × BitVec 64 × Nat × Seg) × Dev) p =>
      let x := buildEntry q p f acc.2
      (acc.1 ++ [x.1], x.2)) ([], d)
    let d := withTable q old r.2
    let words := smGet (fun _ => (0 : BitVec 256)) (d.quire q).reqs (reqMod (f + 254))
    let void := !d.controls
    let d := if swap then swapEnds q tab d else d
    let a := answersAt q f words d
    let undo := if d.paired then none else some (undoOf q d a.2)
    let phase := match d.quireRegion q with
      | some g => match (d.region g).ovr with
        | some o => blockPhase g f o d
        | none => (0, 0)
      | none => (0, 0)
    a.2.onQuire q fun x => { x with
      built := some ⟨f, phase, r.1, undo, tab, swap, void, false⟩
      arb := some a.1
      again := false
      lastJ := f
      reqs := x.reqs.filter fun e => e.1 == reqMod (f + 255) || e.1 == reqMod f }

/-- The FRAME deadline of the next period passes without a frame: the standing frame replaces it (R177).
Log entry 58 (DEDUCED). -/
def frameMiss (q : Nat) (d : Dev) : Dev :=
  let f := d.tm.jAbs + 1
  if ¬ d.live ∨ ¬ d.timeRuns ∨ ¬ d.tm.grid ∨ d.quireRegion q = none ∨ gapNext d then d
  else
    let d := d.until_ (d.nextB - d.get (QU_FRMCFG_ADV q))
    let b := (d.quire q).built
    let mine : Option Built := match b with
      | some x => if x.j = f then some x else none
      | none => none
    if (match mine with
        | some x => x.standing
        | none => decide ((d.quire q).lastJ = f)) then d
    else
      let tab := match mine with
        | some x => x.tab
        | none => (d.word (QU_SLOTA q)).toNat
      let es := (List.range (d.get (QU_CFG_NPOS q))).map fun p =>
        let c := d.cell (128 * q + p)
        (p, BitVec.ofNat 64 (standWord c.entry.toNat c.endSt f), c.endSt, { segConst c.endSt with cor := delivery q p d })
      let d := match mine.bind Built.undo with
        | some u => arbUndo q u d
        | none => d
      let d := d.onQuire q fun x => { x with
        built := some ⟨f, (0, 0), es, none, tab, (match mine with
          | some x => x.swap
          | none => false), !d.controls, true⟩
        lastJ := f }
      (d.bump (QU_CNT_FRMISSCNT q)).raise (QU_EVT_FRMISS q) .service

/-! ## The release (R158-R166) -/

/-- Move a sent reference offset toward D by at most 16 sixteenths (R166). -/
def moveRofs (prev want : Nat) : Nat :=
  if prev < want then min want (prev + 16) else max want (prev - 16)

/-- The ROFS block of lane `l`: the position it addresses and its value, recorded. -/
def nextRofs (l : Nat) (d : Dev) : Option (Nat × Nat) × Dev :=
  let q := l / 2
  let m := tabReach q (l % 2) d
  if m = 0 then (none, d)
  else
    let i := (d.lane l).rofsNext % m
    let npos := d.get (QU_CFG_NPOS q)
    let p := if l % 2 = 0 then i else npos - 1 - i
    let want := (d.posD l p).d
    let prev := smGet (fun _ => 0) (d.lane l).rofs p
    let v := if d.mode = modeRUN ∨ d.mode = modeBLOCK then moveRofs prev want else want
    (some (p, v), d.onLane l fun x => { x with rofs := smSet (fun _ => 0) x.rofs p v, rofsNext := (i + 1) % m })

/-- The blocks of a frame of lane `l` up to the fill (Table 6.2); the words of its data blocks are those of the pattern while the
generator of the lane runs (R148). A stream with REACH 0 has no position to address: its ROFS block carries POS 0 and ROFS 0, log entry 97
(DESIGN CHOICE). -/
def frameBlocks (l f adv16 : Nat) (b : Built) (rofs : Option (Nat × Nat)) (gr : List (Option Nat)) (loss : List Nat) (d : Dev) :
    List Block × Dev :=
  let q := l / 2
  let e := l % 2
  let m := tabReach q e d
  let npos := d.get (QU_CFG_NPOS q)
  let nevs := d.get (QU_FRMCFG_NEVS q)
  let sof := ctlBlock 0xB0 (f % 256 * 2 ^ 8 + e * 2 ^ 16 + d.get (QU_SLOTCTL_BANK q) * 2 ^ 17 + nevs * 2 ^ 18 +
    npos * 2 ^ 21 + m * 2 ^ 29 + adv16 % 2 ^ 18 * 2 ^ 37)
  let hop := ctlBlock 0xB1 (e * 2 ^ 16)
  let ro := match rofs with
    | some (p, v) => ctlBlock 0xB2 (p * 2 ^ 16 + e * 2 ^ 23 + v % 2 ^ 16 * 2 ^ 24)
    | none => ctlBlock 0xB2 (e * 2 ^ 23)
  let lw := (posMask loss).toNat
  let posAt := fun i => if e = 0 then i else npos - 1 - i
  let ent := (List.range m).map fun i =>
    if b.void then BitVec.ofNat 64 (voidWord f)
    else match smLook b.entries (posAt i) with
      | some x => x.1
      | none => BitVec.ofNat 64 (voidWord f)
  let rep := (List.range m).flatMap fun i =>
    [ctlBlock 0xB4 (posAt i * 2 ^ 16), ctlBlock 0xB4 (2 ^ 10 + posAt i * 2 ^ 16)]
  let ev := (List.range nevs).flatMap fun s =>
    [ctlBlock 0xB4 (2 ^ 8 + s * 2 ^ 16), ctlBlock 0xB4 (2 ^ 8 + 2 ^ 10 + s * 2 ^ 16)]
  let ws := prbsFill l ([BitVec.ofNat 64 (lw % 2 ^ 64), BitVec.ofNat 64 (lw / 2 ^ 64), 0, 0, 0, 0] ++ ent) d
  (([sof, hop, ro, evgWord gr].map ctl) ++ (ws.1.map dat) ++ ((rep ++ ev).map ctl), ws.2)

/-- The fill of `n` blocks: 16 IDLE blocks, then groups of three and one OPEN for a TMX response, up to the next SOF (Table 6.2). -/
def fillSend (l n : Nat) (d : Dev) : Dev :=
  let idle := ctl (idleWord l (d.get (LN_STAT_STEP l)))
  let group := [idle, idle, idle, ctl (ctlBlock 0xB4 (2 * 2 ^ 8))]
  let d := d.send (.run l [idle] (some (min 16 n)))
  let d := if (n - 16) / 4 = 0 then d else d.send (.run l group (some ((n - 16) / 4)))
  if (n - 16) % 4 = 0 then d else d.send (.run l (group.take ((n - 16) % 4)) (some 1))

/-- Blocks between two departures of SOFs, each stamped in 1/16 tick: the whole number nearest to their distance in blocks of 51.2 at S3,
twice as long at each step below (R164, R179). -/
def blocksBetween (old dep step : Nat) : Nat := (rdiv (5 * ((dep : Int) - old)) (256 * 2 ^ (3 - step))).toNat

/-- The frame of period `f` leaves lane `l` with its SOF at `dep`, in 1/16 tick: the fill of the frame before reaches up to it without
gap (R162, R164). -/
def frameSend (l f dep : Nat) (blocks : List Block) (d : Dev) : Dev :=
  let d := match (d.lane l).sof with
    | some (old, body, _) => fillSend l (blocksBetween old dep (d.get (LN_STAT_STEP l)) - body) d
    | none => d
  (d.send (.frame l f blocks)).onLane l fun x => { x with sof := some (dep, blocks.length, 16) }

/-- An own lane of a quire that sends frames: ACTIVE, its transmit direction awake, with a clock (R144, R158, R267). -/
def sendsOn (q e : Nat) (d : Dev) : Bool := !twinEnd e d && d.lnState (2 * q + e) == lnACTIVE && txOn (2 * q + e) d

/-- CMDMARG of the frame just released, if a position is reached, and whether its length fits the period (R162, R179).
Log entry 57 (DEDUCED). -/
def frameBudget (q advA advB : Nat) (d : Dev) : Option Int × Bool :=
  let npos := d.get (QU_CFG_NPOS q)
  let ends := (List.range 2).filter fun e => sendsOn q e d
  let step := fun e => d.get (LN_STAT_STEP (2 * q + e))
  let marg := fun (p : Nat) => ends.foldl (fun (best : Option Int) e =>
    if reachedEnd q e p d then
      let adv : Nat := if e = 0 then advA else advB
      let v : Int := ((adv : Int) - (d.posD (2 * q + e) p).d) * 10 -
        ((10 + distOf npos e p) * 512 * 2 ^ (3 - step e) : Nat)
      match best with
      | none => some v
      | some b => some (max b v)
    else best) none
  let all := (List.range npos).filterMap marg
  let cm := match all with
    | [] => none
    | v :: vs => some ((vs.foldl min v) / 160)
  let fits := ends.all fun e =>
    decide ((42 + 3 * tabReach q e d + 2 * d.get (QU_FRMCFG_NEVS q)) * 256 ≤ 10 * d.T * 2 ^ step e)
  (cm, fits)

/-- A swap at the release of its first frame (R173): the inactive bank becomes the active one with what it holds by then, a change since
the build included, so that one swap follows all the changes (R172). -/
def swapTables (q : Nat) (b : Built) (d : Dev) : Dev :=
  if ¬ b.swap then d
  else
    let tab := (d.word (QU_SLOTI q)).toNat
    let d := if (d.quire q).again then swapEnds q tab d else d
    let old := d.word (QU_SLOTA q)
    let d := withTable q tab d
    let d := (d.put (QU_SLOTCTL_BANK q) (1 - d.get (QU_SLOTCTL_BANK q))).bump (QU_SLOTCTL_SWAPCNT q)
    ((d.setWord (QU_SLOTI q) old).put (QU_SLOTCTL_PEND q) 0).onQuire q fun x => { x with again := false }

/-- The entries of a released frame: the phase of a two-step block that every quire of the region has sent (R126, R128). -/
def phaseSent (q : Nat) (b : Built) (d : Dev) : Dev :=
  if b.standing then d
  else
    let d := d.onQuire q fun x => { x with phase := phaseAfter x.phase b.phase }
    match d.quireRegion q with
    | none => d
    | some g =>
      if (d.region g).ovr.isNone then d
      else d.put (RG_BLKSTAT_PHASE g) ((d.quiresOf g).foldl (fun a k => min a (d.quire k).phase) 3)

/-- The end whose stream the lane of end `x` brings back (R159, R171); of a ONE_WAY chain only the partner lane of the through stream
brings one. -/
def wayBack (q x : Nat) (d : Dev) : Option Nat :=
  let k := originKind q x d
  if k = 0 ∨ (k = 2 ∧ d.get (QU_STAT_CHAIN q) = chONEWAY) then none else some (if k = 1 then 1 - x else x)

/-- What a release does before the frame leaves: the swap and the phase of the frame, and the references as they now are (R126, R172,
R188). -/
def releaseTables (q : Nat) (b : Built) (d : Dev) : Dev :=
  refsUpdate q (phaseSent q b (swapTables q b (d.until_ (d.nextB - d.get (QU_FRMCFG_ADV q)))))

/-- The answers that the frame carries, its grants and its losing positions (R173, R182, R183); a standing frame carries none. -/
def releaseAnswers (q : Nat) (b : Built) (d : Dev) : List (Option Nat) × List Nat :=
  if b.standing then noAnswers q d else (d.quire q).arb.getD (noAnswers q d)

/-- The entries of the frame stand from here on, and its grants are read by its FSEQ (R38, R174). -/
def releaseEntries (q : Nat) (b : Built) (gr : List (Option Nat)) (d : Dev) : Dev :=
  let d := b.entries.foldl (fun d e => d.onCell (128 * q + e.1) fun c =>
    { c with entry := e.2.1, endSt := e.2.2.1, nxt := some e.2.2.2 }) d
  d.onQuire q fun x =>
    let evgs := (⟨b.j % 256, (d.word (QU_SLOTA q)).toNat, gr, (List.range 2).map fun x => wayBack q x d⟩ :: x.evgs).take 8
    let here := fun (fs : Nat) => evgs.any fun e => e.fs == fs
    { x with
      built := none, arb := none, sentOne := true, evgs := evgs
      evSeen := x.evSeen.filter fun e => here e.1 && e.1 != b.j % 256
      evOpen := x.evOpen.filter fun e => here e.1 && e.1 != b.j % 256
      slots := x.slots.map fun e => (e.1, if gr.getD e.1 none = some e.2.pos then { e.2 with out := e.2.out ++ [b.j % 256] } else e.2) }

/-- The frame leaves on the lane of end `e`, where that lane sends frames, its SOF `dep` sixteenths of a tick after t_rel (R158, R162,
R164). -/
def frameOut (q : Nat) (b : Built) (a : List (Option Nat) × List Nat) (e dep : Nat) (d : Dev) : Dev :=
  let l := 2 * q + e
  let adv := d.get (QU_FRMCFG_ADV q)
  let d := d.onLane l fun x => { x with hopGap := x.hopGap + 1 }
  if ¬ sendsOn q e d then d
  else
    let r := nextRofs l d
    let w := frameBlocks l b.j (16 * adv - dep) b r.1 a.1 a.2 r.2
    frameSend l b.j (16 * (d.nextB - adv) + dep) w.1 w.2

/-- The frame of the next period is released at the instant stamped with it (R38, R164): `depA` and `depB` are the departures of the two
SOFs after t_rel, 1/16 tick. A frame built for another period is not sent. -/
def releaseFrame (q depA depB : Nat) (d : Dev) : Dev :=
  match (d.quire q).built with
  | none => d
  | some b =>
    if ¬ d.timeRuns then d
    else if ¬ d.live ∨ b.j ≠ d.tm.jAbs + 1 then d.onQuire q fun x => { x with built := none }
    else
      let adv := d.get (QU_FRMCFG_ADV q)
      let d := releaseTables q b d
      let a := releaseAnswers q b d
      let d := frameOut q b a 1 depB (frameOut q b a 0 depA (releaseEntries q b a.1 d))
      let m := frameBudget q (16 * adv - depA) (16 * adv - depB) d
      match m.1 with
      | none => d.onQuire q fun x => { x with margNext := (0, false) }
      | some c =>
        let d := d.putS (QU_DLV_CMDMARG q) (satS 16 c)
        let d := d.onQuire q fun x => { x with margNext := (c, m.2 && decide ((d.get (QU_FRMCFG_GUARD q) : Int) ≤ c)) }
        if c < 0 ∧ d.mode = modeRUN then d.raise (QU_EVT_DLVLATE q) .service else d

/-- The budget of the frame of the period that ends (R179): called at each boundary, when a frame that has not been released is gone. No
frame carries a gap period (R274), which therefore neither meets the budget nor fails it. Log entry 57 (DEDUCED). -/
def budgetBoundary (q : Nat) (d : Dev) : Dev :=
  let x := d.quire q
  let d := if x.sentOne ∧ ¬ d.tm.gapWas then
      let rdl : Nat := match d.quireRegion q with
        | some g => planTick (d.get (RG_MODCFG1_RDL g)) d
        | none => 0
      let ok := x.marg.2 && decide (x.rpt.getD 0 ≤ (rdl : Int))
      let d := if ok then d else d.put (QU_STAT_BUDGET q) 0
      d.onQuire q fun x => { x with
        budRun := if ok then x.budRun + 1 else 0
        dlvRun := if 0 ≤ x.marg.1 then x.dlvRun + 1 else 0 }
    else d
  d.onQuire q fun x => { x with
    marg := x.margNext, margNext := (0, false), rpt := none, built := x.built.filter fun b => decide (d.tm.jAbs < b.j) }

/-- 64 frames in a row have met the budget (R179). -/
def budgetAchieved (q : Nat) (d : Dev) : Dev :=
  if 64 ≤ (d.quire q).budRun then d.put (QU_STAT_BUDGET q) 1 else d

/-! ## What comes back (R175, R176, R180-R185) -/

/-- A report arrives on a lane at tick `tk` of the period (R67, R176, R179). Its position in the period counts from where the positions
of the period do (R274). -/
def reportRx (n : Nat) (laneB : Bool) (raw tk : Nat) (d : Dev) : Dev :=
  let d := d.at_ tk
  let before := (d.cell n).got
  let d := reportIn n laneB raw tk d
  if before ∨ ¬ (d.cell n).got then d
  else
    let q := n / 128
    let ofs : Int := ((d.posBase : Nat) : Int) - d.tm.bj
    let t : Int := max ((tk : Int) - ofs) ((d.quire q).rpt.getD ((tk : Int) - ofs))
    let d := (d.onQuire q fun x => { x with rpt := some t }).putS (QU_DLV_RPTLAT q) (satS 16 (t + ofs))
    match d.quireRegion q with
    | none => d
    | some g => if d.mode = modeRUN ∧ pastPos (d.get (RG_MODCFG1_RDL g)) tk d then d.raise (QU_EVT_RPTLATE q) .notice else d

/-- Request words of a window arrive: the union over both streams, while the frame that answers them is not built (R180,
R181). -/
def requestsRx (q w : Nat) (words : BitVec 256) (d : Dev) : Dev :=
  if ¬ d.live ∨ d.quireRegion q = none then d
  else
    let j := d.tm.jAbs
    let fits := (w == (j + 255) % 256 && decide ((d.quire q).lastJ < j + 1)) || w == j % 256 || w == (j + 1) % 256
    if ¬ fits then d
    else d.onQuire q fun x => { x with reqs := smSet (fun _ => (0 : BitVec 256)) x.reqs w (smGet (fun _ => 0) x.reqs w ||| words) }

/-- The codes of Table 4.6. -/
def ecodeAssigned (c : Nat) : Bool :=
  (decide (1 ≤ c) && decide (c ≤ 6)) || (decide (0x10 ≤ c) && decide (c ≤ 0x14)) || (decide (0x21 ≤ c) && decide (c ≤ 0x24)) ||
    c == 0x30

/-- The CHK of a record (R118). -/
def recordChk (r : BitVec 128) : Bool := crc8 120 (r.toNat % 2 ^ 120) == r.toNat / 2 ^ 120

/-- The transfer of position `p` that slot `s` holds. -/
def slotHeld (q s p : Nat) (d : Dev) : Option XferSlot := match smLook (d.quire q).slots s with
  | some t => if t.pos = p then some t else none
  | none => none

/-- The lane of end `x` of a frame in flight brings back a stream that reaches position `p` on its outbound pass, by the table of the bank
the frame was sent with (R159, R171, R174). -/
def bringsBack (q p x : Nat) (f : SentFrame) (d : Dev) : Bool :=
  !twinEnd x d && d.lnState (2 * q + x) == lnACTIVE && match f.ways.getD x none with
    | some e => reachedEnd q e p (withTable q f.tab d)
    | none => false

/-- A slot still OPEN ends its transfer once every lane that brings back a stream of the position has brought it (R176, R182). -/
def slotOpen (q s p : Nat) (laneB : Bool) (f : SentFrame) (held : Option XferSlot) (d : Dev) : Dev :=
  let fs := f.fs
  let d := d.onQuire q fun y => { y with evOpen := if y.evOpen.contains (fs, s, laneB) then y.evOpen else (fs, s, laneB) :: y.evOpen }
  let all := (List.range 2).all fun x => !bringsBack q p x f d || (d.quire q).evOpen.contains (fs, s, x == 1)
  match held with
  | some t =>
    if ¬ all then d
    else
      let d := d.onQuire q fun y => { y with slots := smInsert y.slots s (slotBack fs t) }
      if t.reg then d else endXfer q s d
  | none => d

/-- A record is one that the quire unit takes: its CHK is correct and its code assigned (R118, R185). -/
def recordOk (r : BitVec 128) : Bool := recordChk r && ecodeAssigned (r.toNat % 256)

/-- A record with a correct CHK has been taken from slot `s` of frame `fs`: its copy on the other lane is discarded (R176). -/
def markSeen (q fs s : Nat) (r : BitVec 128) (d : Dev) : Dev :=
  if recordChk r then d.onQuire q fun y => { y with evSeen := (fs, s) :: y.evSeen } else d

/-- A record that is taken reaches its transfer, or its engine at once where it belongs to none in progress (R182, R391).
Log entry 59 (DEDUCED). -/
def recordTake (q s fs p : Nat) (r : BitVec 128) (held : Option XferSlot) (d : Dev) : Dev :=
  let v := r.toNat
  let d := urgentEvent (128 * q + p) v d
  match held with
  | none => deliverRec q p r d
  | some t =>
    let t := slotBack fs t
    if t.reg ∧ v % 256 ≠ 0x30 then deliverRec q p r (d.onQuire q fun y => { y with slots := smInsert y.slots s t })
    else
      let d := d.onQuire q fun y => { y with slots := smInsert y.slots s { t with got := gotInsert d (fs, r) t.got } }
      if t.n ≤ t.got.length + 1 then endXfer q s d else d

/-- Event slot `s` of the frame with FSEQ `fs` comes back on a lane: a record, or still OPEN (R182, R391). The first correct copy is
taken (R176). A record belongs to the transfer of the position that the EVG of that frame named; one with a wrong CHK or an unassigned code
is discarded and counted, whatever slot brings it (R185), and so is one in a slot of the frame that named none. Log entry 59
(DEDUCED). -/
def eventRx (q : Nat) (laneB : Bool) (s fs : Nat) (x : Option (BitVec 128)) (tk : Nat) (d : Dev) : Dev :=
  if d.quireRegion q = none ∨ d.lnState (2 * q + b2n laneB) ≠ lnACTIVE ∨ (d.quire q).evSeen.contains (fs, s) then d
  else
    match (d.quire q).evgs.find? fun f => f.fs == fs with
    | none => match x with
      | some r => if recordOk r then d else eventBad q (markSeen q fs s r (d.at_ tk))
      | none => d
    | some f =>
      let d := d.at_ tk
      match x, f.grants.getD s none with
      | none, none => d
      | none, some p => slotOpen q s p laneB f (slotHeld q s p d) d
      | some r, none => if recordOk r then d else eventBad q (markSeen q fs s r d)
      | some r, some p =>
        let d := markSeen q fs s r d
        if recordOk r then recordTake q s fs p r (slotHeld q s p d) d
        else
          let d := eventBad q d
          match slotHeld q s p d with
          | some t => d.onQuire q fun y => { y with slots := smInsert y.slots s (slotBack fs t) }
          | none => d

/-- The twin's ARB record (R236). -/
def twinArb (r : ArbRec) (d : Dev) : Dev :=
  if ¬ d.paired then d else (twinHeard d).onTw fun t => { t with arb := some r }

end Sys2Proof.Machine
end

