-- ==== Sys2Proof/Machine/Faults.lean ====
section
/-! DEFINITION. Fault collection (chapter 11): the class of every flag and whether its cause persists (Table 11.1), the summaries,
trip inputs and outputs, the cell reserve, memory errors, and fault injection. -/

namespace Sys2Proof.Machine

/-! ## Flags (Table 11.1) -/

/-- The instance of a register group that an address belongs to. -/
def instAt (base stride count a : Nat) : Option Nat :=
  if base ≤ a ∧ (a - base) % stride = 0 ∧ (a - base) / stride < count then some ((a - base) / stride) else none

/-- Class of the trip flag of input `x`. -/
def tripCls (x : Nat) (d : Dev) : Cls :=
  if d.flag (FC_TRIPCFG_DEV x) then .protDev else .prot (d.get (FC_TRIPCFG_REGMASK x))

/-- Class of the monitor of input `i`. -/
def amCls (i : Nat) (d : Dev) : Cls :=
  match d.get (FC_AMCFG_ACT i) with
  | 2 => .prot (d.get (FC_AMCFG_REGMASK i))
  | 3 => .protDev
  | _ => .notice

/-- Bit `b` is one of a list. -/
def bitIn (l : List Nat) (b : Nat) : Bool := l.contains b

/-- Class of a flag of the chip-level blocks. -/
def chipClass (a b : Nat) (d : Dev) : Option Cls :=
  if a = FC_CHIP then
    if bitIn [0, 4, 16] b then some .notice
    else if bitIn [1, 2, 3, 5, 9, 10, 12] b then some .service
    else if b = 7 then some (.prot (d.get FC_LINKRG_RG))
    else if bitIn [6, 8, 11, 13, 14, 15] b then some .stop
    else none
  else if a = FB_LADDER then (if b = 3 then some .service else none)
  else if a = FB_JOURNAL then (if b = 13 then some .service else none)
  else if a = FB_SPINE then (if b < 2 then some .notice else none)
  else if a = GL_TWEVT then
    if b = 0 ∨ b = 3 then some .notice else if b = 1 then some .protDev else if b < 7 then some .service else none
  else if a = AD_EVT then (if b < 3 then some .notice else none)
  else if a = AD_OVR then (if b < 32 then some .notice else none)
  else if a = PL_EVT then (if b < 3 then some .service else none)
  else if a = TM_EVT then (if b = 1 ∨ b = 3 then some .service else if b < 6 then some .notice else none)
  else if a = FC_TRIPEVT then (if b < 4 then some (tripCls b d) else none)
  else if a = FC_RSVEVT then (if b < 8 then some (.prot (2 ^ b)) else none)
  else if a = SF_EVT then
    if b < 16 then some .protDev else if b < 18 then some .service else if b < 20 then some .stop else none
  else if a = DR_EVT then (if b < 3 then some .notice else none)
  else if a = SV_EVT then (if b = 0 then some .service else if b < 5 then some .protDev else none)
  else if a = NT_EVT then (if b = 2 then some .service else if b < 6 then some .notice else none)
  else none

/-- Class of a flag of a group with one register per unit. Log entry 55 (DEDUCED). -/
def unitClass (a b : Nat) (d : Dev) : Option Cls :=
  if (instAt (FB_CLSSTAT 0) 0x10 6 a).isSome then (if b < 3 then some .notice else none)
  else if (instAt (FC_CESVC 0) 4 2 a).isSome then (if b < 32 then some .service else none)
  else if (instAt (AD_GSTAT 0) 0x40 4 a).isSome then (if b = 4 ∨ b = 5 then some .service else none)
  else match instAt (FC_AMSTAT 0) 0x10 32 a with
  | some i => if b = 0 then some (amCls i d) else none
  | none =>
  if (instAt (CE_HEALTH 0) 0x80 8192 a).isSome then
    if b = 6 ∨ b = 8 then some .service else if b < 10 then some .notice else none
  else if (instAt (LN_EVT 0) 0x100 130 a).isSome then
    if b = 3 ∨ b = 5 ∨ b = 8 then some .service else if b < 9 then some .notice else none
  else if (instAt (QU_EVT 0) 0x400 64 a).isSome then
    if bitIn [0, 3, 4, 6] b then some .service else if b < 9 then some .notice else none
  else match instAt (RG_MODHOLD 0) 0x2000 8 a with
  | some g => if b = 4 then some .service else if b = 5 then some (.prot (2 ^ g))
      else if b = 6 ∨ b = 7 then some .notice else none
  | none =>
  if (instAt (RG_BLKSTAT 0) 0x2000 8 a).isSome then (if b = 3 then some .notice else none)
  else match instAt (RG_LAWSTAT 0) 0x2000 8 a with
  | some g => if bitIn [2, 6, 7, 8] b then some .notice else if b = 4 then some .service
      else if b = 5 then some (.prot (2 ^ g)) else none
  | none =>
  match instAt (CH_VEVT 0) 0x2000 8 a with
  | some g => if bitIn [0, 3, 5] b then some .service else if b = 1 ∨ b = 2 then some (.prot (2 ^ g))
      else if b = 4 ∨ b = 6 then some .notice else none
  | none => none

/-- The class of bit `b` of the register at `a`, if it is a fault source. Log entry 27 (DEDUCED). -/
def flagClass (a b : Nat) (d : Dev) : Option Cls :=
  match chipClass a b d with
  | some c => some c
  | none => unitClass a b d

/-- HEALTHY engines of a region. -/
def healthyOf (g : Nat) (d : Dev) : Nat := ((d.cellsOf g).filter fun n => d.ceState n == ceHEALTHY).length

/-- No ladder step can be taken (Table 1.4). -/
def ladderSpent (d : Dev) : Bool :=
  !step1Ok d && !step4Ok d && (step2 0 d).isNone && ((List.range 64).all fun q => (step3 0 q d).isNone) &&
    (List.range 24).all fun k => (step3 1 k d).isNone

/-- A clasp of input `i` is engaged. -/
def claspOf (i : Nat) (d : Dev) : Bool :=
  (d.bit (SF_INCFG_OMASK i) 0 && clasped 0 d) || (d.bit (SF_INCFG_OMASK i) 1 && clasped 1 d)

/-- The cause of a flag of FC_CHIP persists. -/
def chipPersists (b : Nat) (d : Dev) : Bool :=
  if bitIn [6, 7, 8, 11, 13, 14, 15] b then d.bit ⟨FC_CHIP, 0, 17⟩ b
  else if b = 9 then d.fc.avsBad else if b = 12 then d.fc.tjHot else false

/-- A used input of a region is stale or stuck (R216). -/
def feedBad (g : Nat) (d : Dev) : Bool := d.get (RG_FBSTAT_STALE g) != 0 || d.get (RG_FBSTAT_STUCK g) != 0

/-- The cause of a flag persists (the last column of Table 11.1). Which PLL a flag of PL_EVT looks at: log entry 98 (DEDUCED). -/
def persistsOf (a b : Nat) (d : Dev) : Bool :=
  if a = FC_CHIP then chipPersists b d
  else if a = FB_LADDER then ladderSpent d
  else if a = GL_TWEVT then b == 5 && d.tw.imgDif
  else if a = PL_EVT then
    !d.flag PL_STAT_REFOK || (b != 1 && !d.flag PL_STAT_TLOCK) || (b != 0 && !d.flag PL_STAT_SLOCK)
  else if a = TM_EVT then (b == 1 && d.tm.ofsBig && d.mode != modeIDLE) || (b == 3 && d.get TM_STAT_STATE != svLOCKED)
  else if a = FC_TRIPEVT then d.bit FC_TRIPSTAT_FILT b
  else if a = FC_RSVEVT then decide (healthyOf b d < d.get (FC_RSV_MINHLT b))
  else if a = SF_EVT then
    if b < 8 then claspOf b d else if b < 16 then claspOf (b - 8) d else if b < 18 then sfMismatch (b - 16) d else true
  else if a = SV_EVT then decide (1 ≤ b) && !d.bit SV_STAT_RUN (b - 1)
  else if a = NT_EVT then
    (b == 0 && !d.flag NT_STAT_UP0) || (b == 1 && !d.flag NT_STAT_UP1) ||
      (b == 2 && !d.flag NT_STAT_UP0 && !d.flag NT_STAT_UP1)
  else if (instAt (AD_GSTAT 0) 0x40 4 a).isSome then true
  else match instAt (FC_AMSTAT 0) 0x10 32 a with
  | some i => d.flag (FC_AMSTAT_OUT i)
  | none =>
  match instAt (CE_HEALTH 0) 0x80 8192 a with
  | some n =>
    (b == 4 && decide (d.get (CE_WEAR_CRATIO n) < d.get (CE_CFG3_CLOW n) * 128)) ||
      (b == 5 && decide (d.get (CE_CFG3_RHIGH n) * 256 < ceRratio n d)) ||
      (b == 6 && decide (d.get (CE_WEAR_CRATIO n) < d.get (CE_CFG3_CFLOOR n) * 128)) ||
      (b == 8 && bitsOf (d.get (CE_REP_REP n 2)) 0 6 != 0)
  | none =>
  match instAt (LN_EVT 0) 0x100 130 a with
  | some l =>
    ((b == 3 || b == 5) && d.lnState l != lnACTIVE) ||
      (b == 8 && (d.lane l).ds.any fun e => e.2.valid && (e.2.d == 0xFFFF || e.2.d == 0))
  | none =>
  match instAt (QU_EVT 0) 0x400 64 a with
  | some q =>
    (b == 0 && d.get (QU_STAT_CHAIN q) != chINTACT) || (b == 3 && nposBad q d) || (b == 4 && decide ((d.quire q).dlvRun < 64))
  | none =>
  match instAt (RG_MODHOLD 0) 0x2000 8 a with
  | some g => b == 4 && (d.region g).hold2
  | none =>
  match instAt (RG_LAWSTAT 0) 0x2000 8 a with
  | some g => (b == 4 || b == 5) && feedBad g d
  | none =>
  match instAt (CH_VEVT 0) 0x2000 8 a with
  | some g =>
    (b == 1 && (d.region g).noag) || (b == 2 && decide ((chansIn g chACTIVE d).length < 2)) || (b == 3 && (d.region g).vmiss) ||
      b == 5
  | none => false

/-- Bit `b` of the register at `a` reads 1. -/
def Dev.reads1 (d : Dev) (a b : Nat) : Bool := bitOf (d.word a).toNat b

/-- The PROTECTIVE flags set: their masks of regions, and whether one has device scope (R289). -/
def protFlags (d : Dev) : List Nat × Bool :=
  let regs := (List.range 8).flatMap fun g =>
    if d.flag (RG_MODHOLD_HOLD8 g) || d.flag (RG_LAWSTAT_FBEXP g) || d.flag (CH_VEVT_NOAGREE g) || d.flag (CH_VEVT_SOLE g) ||
        d.bit FC_RSVEVT_RSV g then [2 ^ g] else []
  let link := if d.flag FC_CHIP_LINKLOST then [d.get FC_LINKRG_RG] else []
  let trips := (List.range 4).filter fun x => d.bit FC_TRIPEVT_TRIP x
  let hits := (List.range 32).filter fun i => d.flag (FC_AMSTAT_HIT i)
  let masks := regs ++ link ++ ((trips.filter fun x => !d.flag (FC_TRIPCFG_DEV x)).map fun x => d.get (FC_TRIPCFG_REGMASK x)) ++
    ((hits.filter fun i => d.get (FC_AMCFG_ACT i) == 2).map fun i => d.get (FC_AMCFG_REGMASK i))
  (masks, d.flag GL_TWEVT_TWLOST || (trips.any fun x => d.flag (FC_TRIPCFG_DEV x)) ||
    (hits.any fun i => d.get (FC_AMCFG_ACT i) == 3) || d.get SV_EVT_WDOG != 0 || d.get SF_EVT_DEMAND != 0 ||
    d.get SF_EVT_DISC != 0)

/-- A PROTECTIVE flag of device scope is set. -/
def devProt (d : Dev) : Bool := (protFlags d).2

/-- A PROTECTIVE flag whose scope includes region `g` is set. -/
def regionProt (g : Nat) (d : Dev) : Bool := (protFlags d).2 || (protFlags d).1.any fun m => bitOf m g

/-- No PROTECTIVE status is set. -/
def noProt (d : Dev) : Bool := !(protFlags d).2 && (protFlags d).1.isEmpty

/-! ## Summaries (Tables 11.5, 11.7) -/

/-- The sticky bits of the register at an address, W1C or of access RO. -/
def stickyMask (a : Nat) : Nat :=
  let w := match regAt a with
    | some r => (r.mask fun x => x == .w1c).toNat
    | none => 0
  if (instAt (RG_LAWSTAT 0) 0x2000 8 a).isSome then w ||| 2 ^ 8
  else if (instAt (AD_GSTAT 0) 0x40 4 a).isSome then w ||| 0x30
  else if a = SF_EVT then w ||| 0xC0000
  else w

/-- A sticky bit of the register at `a` reads 1. -/
def stickySet (a : Nat) (w : Word) : Bool := w.toNat &&& stickyMask a != 0

/-- FC_SUM (Table 11.5). -/
def fcSum (d : Dev) : Nat :=
  let has := fun (p : Cls → Bool) => d.regs.any fun e =>
    stickySet e.1 e.2 && (List.range 32).any fun b =>
      bitOf (e.2.toNat &&& stickyMask e.1) b && match flagClass e.1 b d with
        | some c => p c
        | none => false
  b2n (has fun c => c == .notice) + 2 * b2n (has fun c => c == .service) + 4 * b2n (!(protFlags d).1.isEmpty) +
    8 * b2n (protFlags d).2 + 16 * b2n (d.mode == modeSTOP)

/-- A mask of the units whose sticky bits are set: `f` names the unit of an address. -/
def sumMask (f : Nat → Option Nat) (d : Dev) : Nat :=
  d.regs.foldl (fun m e => match f e.1 with
    | some i => if stickySet e.1 e.2 then setBit m i else m
    | none => m) 0

/-- The MNT_ALERT_N pin is asserted: driven low while FC_SUM shows SERVICE, PROTR, PROTD or STOP (R445). -/
def mntAlert (d : Dev) : Bool := fcSum d / 2 != 0

def fcSumGl (d : Dev) : Nat := sumMask (fun a => if a < 0xA000 then some (a / 0x1000) else none) d
def fcSumRg (d : Dev) : Nat := sumMask (fun a => if 0x30000 ≤ a ∧ a < 0x40000 then some ((a - 0x30000) / 0x2000) else none) d
def fcSumQu (h : Nat) (d : Dev) : Nat := sumMask (instAt (QU_EVT 0) 0x400 64) d / 2 ^ (32 * h) % 2 ^ 32
def fcSumLn (h : Nat) (d : Dev) : Nat := sumMask (instAt (LN_EVT 0) 0x100 130) d / 2 ^ (32 * h) % 2 ^ 32
def fcSumCe (h : Nat) (d : Dev) : Nat :=
  sumMask (fun a => (instAt (CE_HEALTH 0) 0x80 8192 a).map fun n => n / 128) d / 2 ^ (32 * h) % 2 ^ 32

/-- FC_CHIPCS: the flags of FC_CHIP whose cause persists. -/
def fcChipCs (d : Dev) : Nat := (List.range 17).foldl (fun m b => if chipPersists b d then setBit m b else m) 0

/-! ## Clearing a flag (R29, R288, R297) -/

/-- A write of ones to flags at `a`: the bits whose cause is gone clear. Log entry 102 (DESIGN CHOICE). -/
def clearFlags (a ones : Nat) (d : Dev) : Dev :=
  foldN 32 (fun d b =>
    if bitOf ones b ∧ d.reads1 a b ∧ ¬ ((flagClass a b d).isSome ∧ persistsOf a b d) then
      let d := d.setWord a (BitVec.ofNat 32 (clrBit (d.word a).toNat b))
      if a = FC_RSVEVT then { d with fc := { d.fc with rsvRun := smErase d.fc.rsvRun b } } else d
    else d) d

/-! ## Trip inputs (R296-R298) -/

/-- FILT follows own and relayed levels. -/
def tripShow (d : Dev) : Dev := d.put FC_TRIPSTAT_FILT (d.fc.tripOwn ||| d.fc.tripRel)

/-- An assertion of input `x`, own or relayed: counted, the flag acts, and its LINE entry is made (R296, R337). -/
def tripFlag (x : Nat) (d : Dev) : Dev :=
  let d := (d.bump FC_TRIPEVT_TRIPCNT).raiseBit FC_TRIPEVT_TRIP x (tripCls x d)
  d.source kLINE (3 + x) d.nowNs 1

/-- An assertion of the device's own input `x`, also a line event. -/
def tripAct (x : Nat) (d : Dev) : Dev := lineEvent (3 + x) d.nowNs (tripFlag x d)

/-- A filtered trip input asserts at tick `tk`. -/
def tripAssert (x tk : Nat) (d : Dev) : Dev :=
  let d := d.putBit FC_TRIPSTAT_RAW x true
  if ¬ d.live ∨ ¬ d.flag (FC_TRIPCFG_EN x) ∨ bitOf d.fc.tripOwn x then d
  else
    let d := d.at_ tk
    let relay := d.paired && d.role != roleACTIVE
    let d := { d with fc := { d.fc with
      tripOwn := setBit d.fc.tripOwn x
      relEdges := if relay then d.fc.relEdges ++ [(Fin.ofNat 4 x, true)] else d.fc.relEdges } }
    tripAct x (tripShow d)

/-- A filtered trip input deasserts. -/
def tripDeassert (x tk : Nat) (d : Dev) : Dev :=
  let d := d.putBit FC_TRIPSTAT_RAW x false
  if ¬ d.live ∨ ¬ bitOf d.fc.tripOwn x then d
  else
    let d := d.at_ tk
    let relay := d.paired && d.role != roleACTIVE
    let d := tripShow { d with fc := { d.fc with
      tripOwn := clrBit d.fc.tripOwn x
      relEdges := if relay then d.fc.relEdges ++ [(Fin.ofNat 4 x, false)] else d.fc.relEdges } }
    d.source kLINE (3 + x) d.nowNs 0

/-- The relayed level of input `x` rises: an assertion of the device's own input (R298). -/
def relayRise (x : Nat) (d : Dev) : Dev :=
  tripFlag x (tripShow { d with fc := { d.fc with tripRel := setBit d.fc.tripRel x } })

/-- The relayed level of input `x` falls, with its LINE entry (R298, R326). -/
def relayFall (x : Nat) (d : Dev) : Dev :=
  if bitOf d.fc.tripRel x then
    (tripShow { d with fc := { d.fc with tripRel := clrBit d.fc.tripRel x } }).source kLINE (3 + x) d.nowNs 0
  else d

/-- What a STAT record relays to the ACTIVE device: every edge in its turn (R298). -/
def tripRelay (es : List (Fin 4 × Bool)) (d : Dev) : Dev :=
  if d.role ≠ roleACTIVE then d
  else es.foldl (fun d e => if e.2 then relayRise e.1.val d else relayFall e.1.val d) d

/-- The line events of the assertions that a STAT record relays. -/
def relayLines (es : List (Fin 4 × Bool)) (d : Dev) : List (Nat × Nat) :=
  if d.role ≠ roleACTIVE then [] else (es.filter fun e => e.2).map fun e => (3 + e.1.val, d.nowNs)

/-! ## The cell reserve (R300) -/

/-- HEALTHY engines are counted at a boundary while the region is in RUN. -/
def rsvBoundary (g : Nat) (d : Dev) : Dev :=
  let m := d.get (FC_RSV_MINHLT g)
  let k := if d.rgState g = rgRUN ∧ m ≠ 0 ∧ healthyOf g d < m then min 16 (smGet (fun _ => 0) d.fc.rsvRun g + 1) else 0
  let d := { d with fc := { d.fc with rsvRun := smSet (fun _ => 0) d.fc.rsvRun g k } }
  if k = 16 then d.raiseBit FC_RSVEVT_RSV g (.prot (2 ^ g)) else d

/-! ## Trip outputs (R301) -/

/-- The conditions of TRIPOUT `x`. -/
def tripOutOk (x : Nat) (d : Dev) : Bool :=
  let en := if x = 0 then d.flag FC_TOCFG_EN0 else d.flag FC_TOCFG_EN1
  let devblk := if x = 0 then d.flag FC_TOCFG_DEVBLK0 else d.flag FC_TOCFG_DEVBLK1
  let idlerel := if x = 0 then d.flag FC_TOCFG_IDLEREL0 else d.flag FC_TOCFG_IDLEREL1
  let mask := if x = 0 then d.get FC_TOCFG_RGMASK0 else d.get FC_TOCFG_RGMASK1
  en && (d.converting || (d.mode == modeIDLE && !idlerel)) && !(devblk && (d.mode == modeBLOCK || devProt d)) &&
    (maskRegions mask).all fun g => d.rgState g != rgBLOCK

/-- Release every energised output whose conditions fail. -/
def tripOutRelease (d : Dev) : Dev :=
  foldN 2 (fun d x => if d.bit FC_TRIPSTAT_TOUT x ∧ ¬ tripOutOk x d then d.putBit FC_TRIPSTAT_TOUT x false else d) d

/-- At a boundary every output whose conditions hold is energised. -/
def tripOutBoundary (d : Dev) : Dev := foldN 2 (fun d x => d.putBit FC_TRIPSTAT_TOUT x (tripOutOk x d)) d

/-! ## Memory errors (R53, Table 11.1) -/

/-- A corrected error is counted; a row seen in two scrub passes is journalled (R53). -/
def eccSingle (row : Nat) (scrub : Bool) (d : Dev) : Dev :=
  let d := Dev.raise { d with fb := { d.fb with corrected := d.fb.corrected + 1 } } FC_CHIP_SBE .notice
  if ¬ scrub ∨ d.fb.rowBad.contains row then d
  else match smLook d.fb.rowSeen row with
    | some p => if p = d.fb.scrubPass then d
        else journal 6 4 row 0 { d with fb := { d.fb with rowBad := row :: d.fb.rowBad } }
    | none => { d with fb := { d.fb with rowSeen := smInsert d.fb.rowSeen row d.fb.scrubPass } }

/-- A double-bit error in a memory other than the recorder's. -/
def eccDouble (m : Memory) (d : Dev) : Dev :=
  match m with
  | .recorder _ => d.raise FC_CHIP_DBEREC .service
  | .telemetry n =>
    let d := (d.raise FC_CHIP_DBETEL .service).telClear n.val
    { d with fb := { d.fb with telBad := n.val :: d.fb.telBad } }
  | .cellEngine n =>
    let d := d.raise FC_CHIP_DBECE .service
    if d.ceState n.val = ceUNREG ∨ d.ceState n.val = ceRETIRED then d else squashCell n.val (bypassTrig n.val 5 d)
  | .channel g c => giveUp g.val c.val 2 d
  | .mullStore g => foldN 3 (fun d c => copyRestart g.val c d) (d.raise FC_CHIP_DBEMULL .service)
  | .buffer _ => d.raise FC_CHIP_DBEBUF .notice
  | .supervisor => d.raise FC_CHIP_DBESV .stop

/-- A memory error found on a read: a double-bit error in a page of the recorder takes the page out (R335). -/
def memError (m : Memory) (double : Bool) (row : Nat) (scrub : Bool) (s : State) : State :=
  if double then
    let s := { s with dev := eccDouble m s.dev }
    match m with
    | .recorder p => pageRemoved p.val s
    | _ => s
  else { s with dev := eccSingle row scrub s.dev }

/-- The accepted injection is one of two bits. -/
def injDouble (d : Dev) : Bool := match d.fc.inj with
  | some (_, dbl, _) => dbl
  | none => false

/-- SRAM_ECC_ERROR: where the memory holds the word of a waiting injection, the error is that of the injection (R304). Log entry 63
(DESIGN CHOICE). -/
def eccError (m : Memory) (double : Bool) (row : Nat) (scrub : Bool) (s : State) : State :=
  if s.dev.fc.injAt = some m then memError m (injDouble s.dev) row scrub { s with dev := injDone s.dev }
  else memError m double row scrub s

/-- The memories in use write their words all the time (R304): the telemetry and the engine of a registered cell and the state of a
channel that runs from IDLE on, where every period is computed, dry or live (R43), the buffers of a lane that is not DOWN and of a
network port that is up, and a supervisor's data while it runs. Recorder and mull store write only entries and records. Log entry 63
(DESIGN CHOICE). -/
def memUsed (m : Memory) (d : Dev) : Bool := match m with
  | .recorder _ => false
  | .telemetry n => (d.mode == modeIDLE || d.converting) && d.ceState n.val != ceUNREG
  | .cellEngine n => (d.mode == modeIDLE || d.converting) && d.ceState n.val != ceUNREG
  | .channel g c => (d.mode == modeIDLE || d.converting) && chanRuns g.val c.val d
  | .mullStore _ => false
  | .buffer i =>
    if i.val < 130 then d.lnState i.val != lnDOWN
    else if i.val = 130 then d.flag NT_STAT_UP0 else d.flag NT_STAT_UP1
  | .supervisor => d.get SV_STAT_RUN != 0

/-- The memory, other than the recorder's, that the waiting injection names (Table 11.3). -/
def injMemory (d : Dev) : Option Memory :=
  match d.fc.inj with
  | none => none
  | some (t, _, i) =>
    if t = 2 then some (.telemetry (Fin.ofNat 8192 i))
    else if t = 3 then some (.cellEngine (Fin.ofNat 8192 i))
    else if t = 4 then some (.channel (Fin.ofNat 8 (i / 3)) (Fin.ofNat 3 (i % 3)))
    else if t = 5 then some (.mullStore (Fin.ofNat 8 i))
    else if t = 6 then some (.buffer (Fin.ofNat 132 i))
    else if t = 7 then some .supervisor
    else none

/-- Words are written to the memories in use. -/
def injUse (d : Dev) : Dev := match injMemory d with
  | some m => if memUsed m d then injStore m d else d
  | none => d

/-- A pass of the scrub reads every word: a word stored with inverted check bits comes to light, in the row where it stands (R53,
R304). Log entry 63 (DESIGN CHOICE). -/
def scrubPass (s : State) : State :=
  let d := injUse { s.dev with fb := { s.dev.fb with scrubPass := s.dev.fb.scrubPass + 1 } }
  match d.fc.injAt with
  | some m => memError m (injDouble d) (Config.memoryRow m d.fb.scrubPass) true { s with dev := injDone d }
  | none => { s with dev := d }

/-! ## Injection (R303, R304) -/

/-- The class that a give-up of channel `c` would raise. -/
def giveUpClass (g c : Nat) (d : Dev) : Cls :=
  if d.get (CH_STAT_STATE g c) = chACTIVE ∧ (chansIn g chSTANDBY d).isEmpty ∧ (chansIn g chACTIVE d).length < 3 ∧
    ¬ canHandOver d then .prot (2 ^ g) else .service

/-- The class that an injection would raise now (Table 11.3). -/
def injClass (t : Nat) (dbl : Bool) (i : Nat) (d : Dev) : Cls :=
  if t = 8 ∨ t = 9 ∨ (t = 4 ∧ dbl) then giveUpClass (i / 3) (i % 3) d
  else if ¬ dbl then .notice
  else if t = 1 ∨ t = 2 ∨ t = 3 ∨ t = 5 then .service
  else if t = 7 then .stop
  else .notice

/-- Whether an injection is accepted (R303). -/
def injOk (t : Nat) (dbl : Bool) (i : Nat) (d : Dev) : Bool :=
  let c := injClass t dbl i d
  let severe := match c with
    | .prot _ => true
    | .protDev => true
    | .stop => true
    | _ => false
  decide (1 ≤ t) && decide (t ≤ 12) && !(t == 10 && dbl) && !d.flag FC_INJ_GO &&
    ((d.mode == modeIDLE && (c != .stop || d.flag FC_CFG_INJSTOP)) || (d.converting && d.flag FC_CFG_INJRUN && !severe)) &&
    !((t == 4 || t == 8 || t == 9) && decide (23 < i)) && !(t == 5 && decide (7 < i)) && !(t == 6 && decide (131 < i)) &&
    !(t == 12 && decide (129 < i))

/-- Write of FC_INJ (R303): GO requests an injection, and every request counts, also one that LOAD or STOP refuses.
Log entry 25 (DEDUCED). -/
def wrInj (o : Origin) (w : Word) (d : Dev) : Bool × Dev :=
  let v := w.toNat
  let go := bitOf v 5
  let t := v % 16
  let dbl := bitOf v 4
  let i := bitsOf v 8 13
  let r := shellWrite o .inj (!go || injOk t dbl i d) (fun d =>
    let d := ((d.put FC_INJ_TARGET t).putB FC_INJ_DOUBLE dbl).put FC_INJ_INST i
    if go then (({ d with fc := { d.fc with inj := some (t, dbl, i) } }).put FC_INJ_GO 1).bump FC_INJCNT_DONE else d) d
  if go ∧ ¬ r.1 then (false, r.2.bump FC_INJCNT_REFUSED) else r

/-- The arithmetic of a channel meets an injected residue or parity error at its next run (targets 0x8 and 0x9).
Log entry 63 (DESIGN CHOICE). -/
def injChan (g c : Nat) (f : Dev → Dev) (d : Dev) : Dev :=
  if injHit 8 (3 * g + c) d then giveUp g c 1 (injDone d)
  else if injHit 9 (3 * g + c) d then giveUp g c 3 (injDone d)
  else f d

/-- A lane's receiver meets an injected error in a control block (target 0xC): it is discarded and counted.
Log entry 63 (DESIGN CHOICE). -/
def injLane (l : Nat) (f : Dev → Dev) (d : Dev) : Dev :=
  if injHit 12 l d ∧ d.lnState l ≠ lnDOWN then injDone (d.bump (LN_BERC_UNKCNT l)) else f d

/-- The spine link from the supervisors is used in every period (target 0xA). Log entry 63 (DESIGN CHOICE). -/
def injSpine (d : Dev) : Dev :=
  match d.fc.inj with
  | some (10, _, _) => injDone ((d.raise FB_SPINE_RETRY .notice).bump FB_SPINE_RETRYCNT)
  | _ => d

/-! ## Junction temperature and supplies (R453, R456, R467) -/

/-- GL_TJ takes a new value (sQ8.4 °C); TJHI above 125 °C. -/
def tjUpdate (tj : Nat) (d : Dev) : Dev :=
  let v := toS 13 tj
  let d := d.put GL_TJ_TJ tj
  let d := if d.getS GL_TJ_TJMAX < v then d.put GL_TJ_TJMAX tj else d
  let hot := decide (2000 < v)
  let d := { d with fc := { d.fc with tjHot := hot } }
  if hot then d.raise FC_CHIP_TJHI .service else d

/-- Above 140 °C for 1 ms. -/
def tjTrip (d : Dev) : Dev := if 2240 < d.getS GL_TJ_TJ then d.raise FC_CHIP_TJTRIP .stop else d

/-- A supply outside its window, or RESET_N low (R453, R456). -/
def supplyFault (d : Dev) : Dev := d.raise FC_CHIP_SUPPLY .stop

/-- VAUX leaves its range: the clasps engage whatever else runs (R320). -/
def vauxLost (d : Dev) : Dev := engage 1 (engage 0 d)

end Sys2Proof.Machine
end

