-- ==== Sys2Proof/Machine/Twin.lean ====
section
/-! DEFINITION. The STAT and MULL records of the twin pair (Table 8.6): what a device sends at each boundary, and what a record
that arrives does (R232, R234, R235, R237, R298, R338, R388). -/

namespace Sys2Proof.Machine

/-- The own quire lanes of a paired device. -/
def ownLanes (d : Dev) : List Nat :=
  ((List.range 64).filter fun q => d.flag (QU_CFG_ASSIGNED q)).map fun q => 2 * q + d.get GL_TWCFG_END

/-- The rate step that a lane reports as passed (R234): the one that waits to stand, else the one that stands. -/
def stepReport (l : Nat) (d : Dev) : Nat :=
  match (d.lane l).target, (d.lane l).passed with
  | some s, true => s
  | some s, false => s - 1
  | none, _ => d.get (LN_STAT_STEP l)

/-- Every paired device sends its STAT record at each boundary; relayed edges and triggers leave with it (R235, R298, R338).
Log entry 52 (DEDUCED). -/
def statSend (d : Dev) : Dev :=
  if ¬ d.paired ∨ ¬ d.live then d
  else
    let ls := (ownLanes d).map fun l => Fin.ofNat 128 l
    let gs := (List.finRange 8).filter fun g => d.assigned g.val
    let r : StatRec := {
      role := BitVec.ofNat 3 d.role
      laneActive := ls.filter fun l => d.lnState l.val == lnACTIVE
      reach := ls.map fun l => (l, BitVec.ofNat 8 (d.lane l.val).reach)
      stepPass := ls.map fun l => (l, BitVec.ofNat 2 (stepReport l.val d))
      folioDigests := BitVec.ofNat 256 d.su.folio
      mullDigests := gs.map fun g => (g, Config.mullDigest (mullStore g.val d))
      tripEdges := d.fc.relEdges
      triggers := d.dr.twTrig
      chargeAt := d.su.chargeAt
      stopAt := d.su.stopAt }
    let d := twinSend 2 (.stat r) d
    { d with fc := { d.fc with relEdges := [] }, dr := { d.dr with twTrig := [] } }

/-- The twin's lanes and reach as its record gives them: the chains follow (R234, R172). -/
def twinLanes (lanes : List Nat) (reach : List (Nat × Nat)) (d : Dev) : Dev :=
  let e := 1 - d.get GL_TWCFG_END
  let old := d.tw
  let d := d.onTw fun t => { t with lanes := lanes.filter fun l => decide (l < 128), reach := reach }
  foldN 64 (fun d q =>
    let l := 2 * q + e
    if ¬ d.flag (QU_CFG_ASSIGNED q) then d
    else
      let d := if old.lanes.contains l ≠ lanes.contains l then chainUpdate q true d else d
      if smGet (fun _ => 0) old.reach l ≠ smGet (fun _ => 0) reach l ∧ d.get (QU_STAT_CHAIN q) ≠ chUNSETTLED then
        nposCheck q (slotWrite q d) else d) d

/-- A step that waited for the twin stands once the twin reports it passed (R234). -/
def twinSteps (steps : List (Nat × Nat)) (d : Dev) : Dev :=
  let d := d.onTw fun t => { t with steps := steps }
  (ownLanes d).foldl (fun d l => if (d.lane l).passed then rateStepPass l d else d) d

/-- In IDLE the digests of the REGION, QUIRE, CELL and LIMIT folios are compared (R232). -/
def twinFolios (digest : Nat) (d : Dev) : Dev :=
  if d.mode ≠ modeIDLE then d
  else
    let dif := digest != d.su.folio
    let d := d.onTw fun t => { t with imgDif := dif }
    if dif then d.raise GL_TWEVT_IMGDIF .service else d

/-- An announced entry to CHARGE or to IDLE is followed at its boundary, or at the next one (R388, R399).
Log entry 34 (DEDUCED). -/
def twinFollow (chargeAt stopAt : Option Nat) (d : Dev) : Dev :=
  if d.su.chargeAt.isSome ∨ d.su.stopAt.isSome then d
  else
    match chargeAt, stopAt with
    | some b, _ =>
      if d.mode = modeIDLE ∧ ¬ d.flag GL_TWEVT_IMGDIF then
        ({ d with su := { d.su with chargeAt := some (max b (d.tm.jAbs + 1)) } }.put GL_MODE_PEND 1).put GL_MODE_PKIND 0
      else d
    | none, some b =>
      if d.mode = modeCHARGE ∨ d.mode = modeRUN then
        ({ d with su := { d.su with stopAt := some (max b (d.tm.jAbs + 1)) } }.put GL_MODE_PEND 1).put GL_MODE_PKIND 1
      else d
    | none, none => d

/-- A list of pairs as a sparse map. -/
def asMap (l : List (Nat × Nat)) : List (Nat × Nat) := l.foldl (fun m p => smSet (fun _ => 0) m p.1 p.2) []

/-- The twin's STAT record arrives (R234, R235). Log entry 52 (DEDUCED). -/
def twinStat (r : StatRec) (d : Dev) : Dev :=
  if ¬ d.paired ∨ ¬ d.live then d
  else
    let d := (twinHeard d).onTw fun t => { t with role := r.role.toNat, chargeAt := r.chargeAt, stopAt := r.stopAt }
    let d := d.putB GL_TWSTAT_PEERACT (r.role.toNat == roleACTIVE)
    let d := if r.role.toNat = roleACTIVE then { d with su := { d.su with idleAt := d.tm.jAbs + 1 } } else d
    let d := d.onTw fun t => { t with mull := asMap (r.mullDigests.map fun p => (p.1.val, p.2.toNat)) }
    let d := twinLanes (r.laneActive.map fun l => l.val) (asMap (r.reach.map fun p => (p.1.val, p.2.toNat))) d
    let d := twinSteps (asMap (r.stepPass.map fun p => (p.1.val, p.2.toNat))) d
    let d := twinFolios r.folioDigests.toNat d
    let d := tripRelay r.tripEdges d
    let d := relayEvents (relayLines r.tripEdges d) r.triggers d
    twinFollow r.chargeAt r.stopAt d

/-- The copy of a region's mull set takes what the ACTIVE device holds; the shadow runs of all channels go on from it (R237). -/
def takeSet (g : Nat) (m : Mull) (d : Dev) : Dev :=
  let d := showState g ((setMull g m d).onRegion g fun r => { r with base := m, store := none })
  foldN 3 (fun d c => d.onChan g c fun x => { x with own := none }) d

/-- The mull records are applied to the copies; a device that still copies takes the sets that the record brings (R237).
Log entry 52 (DEDUCED). -/
def twinSets (m : MullRec) (d : Dev) : Dev :=
  if d.role = roleRESYNC ∧ ¬ d.tw.copied then m.sets.foldl (fun d p => takeSet p.1.val p.2 d) d
  else foldN 8 (fun d g =>
    if ¬ d.assigned g then d
    else
      let old := mullStore g d
      takeSet g ((m.records.filter fun p => p.1.val == g).foldl (fun a p => mullApply p.2 a) old) d) d

/-- The mode that a following device in mode `own` takes where the record shows `m`: the next one by Table 0.3 on the way to it (R11); it
leaves BLOCK only while no PROTECTIVE status is set. Log entry 52 (DEDUCED). -/
def followMode (own m : Nat) (d : Dev) : Nat :=
  if m < modeCHARGE ∨ modeBLOCK < m ∨ m = own then own
  else if own = modeCHARGE then m
  else if own = modeRUN then modeBLOCK
  else if noProt d then modeCHARGE
  else own

/-- The state that a following region in state `own` takes where the record shows `st`: the next one by Table 16.3 on the way to it. It
leaves BLOCK, or OFF, only while no PROTECTIVE flag in scope is set, and BLOCK for RUN only where its deblock has taken effect at the
twin (R14, R395). Log entry 52 (DEDUCED). -/
def followTo (own st : Nat) (prot : Bool) (mode : Nat) : Nat :=
  if own = st ∨ st = rgOFF ∨ rgBLOCK < st then (if rgBLOCK < st then own else st)
  else if own = rgOFF then (if prot then own else rgCHARGE)
  else if st = rgBLOCK ∨ own = rgRUN then rgBLOCK
  else if own = rgBLOCK then
    if prot then own else if mode = modeCHARGE then rgCHARGE else if mode = modeRUN ∧ st = rgRUN then rgRUN else own
  else if own = rgCHARGE then rgREADY
  else if st = rgCHARGE then rgCHARGE
  else if mode = modeRUN then rgRUN
  else own

/-- The twin's MULL record (R235, R237): a STANDBY or RESYNC device applies it to its own copies and compares the digests.
Log entry 52 (DEDUCED). -/
def twinMull (m : MullRec) (d : Dev) : Dev :=
  if ¬ d.paired then d
  else
    let d := (twinHeard d).onTw fun t => { t with mode := m.mode.toNat, mullNow := true, mullSilent := 0 }
    if ¬ d.converting ∨ ¬ (d.role = roleSTANDBY ∨ d.role = roleRESYNC) then d
    else
      let d := d.setMode (followMode d.mode m.mode.toNat d)
      let d := m.states.foldl (fun d p =>
        let g := p.1.val
        if d.assigned g then followRegion g (followTo (d.rgState g) p.2.toNat (regionProt g d) d.mode) d else d) d
      let d := twinSets m d
      let d := foldN 64 (fun d q => if d.flag (QU_CFG_ASSIGNED q) then d.onQuire q fun x => { x with lossCnt := [] } else d) d
      let d := m.loss.foldl (fun d p => d.onQuire (p.1.val / 128) fun q =>
        { q with lossCnt := smSet (fun _ => 0) q.lossCnt (p.1.val % 128) p.2 }) d
      let d := m.pointers.foldl (fun d p => d.onQuire p.1.val fun q => { q with ptr := p.2 }) d
      let d := foldN 8 (fun d g =>
        let l := (m.staged.filter fun x => x.1.val == g).map fun x => x.2
        let ss := (l.zip (List.range l.length)).map fun x =>
          (⟨x.1.1.toNat, toS 32 x.1.2.1.toNat, x.1.2.2.1, x.1.2.2.2.toNat, x.2⟩ : Staged)
        (d.onRegion g fun r => { r with staged := ss }).put (RG_SPQ_DEPTH g) ss.length) d
      let bad := m.digests.any fun p => Config.mullDigest (mullStore p.1.val d) != p.2
      if d.role = roleSTANDBY then (if bad then mullDif d else d)
      else if ¬ d.tw.copied then d
      else if ¬ bad then d.onTw fun t => { t with rsOk := t.rsOk + 1 }
      else
        let d := d.onTw fun t => { t with rsOk := 0, rsFail := t.rsFail + 1 }
        if 3 ≤ d.tw.rsFail then (d.put GL_TWSTAT_ROLE roleGIVENUP).raise GL_TWEVT_MULLDIF .service else d

end Sys2Proof.Machine
end

