-- ==== Sys2Proof/Machine/Startup.lean ====
section
/-! DEFINITION. Power-up, CHECK with its repairs, the entries to IDLE and to CHARGE, deblocks and readiness (chapter 16; R51-R56,
R62, R375, R453-R461). -/

namespace Sys2Proof.Machine

/-! ## Power (R276, R315, R453-R461) -/

/-- One entry of the fused repair: its unit is out of service and its spare serves, with no journal entry (R51). -/
def fusedRepair (d : Dev) (x : Nat × Nat × Nat) : Dev :=
  { d with fb := { d.fb with retired := d.fb.retired ++ [(x.1, x.2.1)], assigned := d.fb.assigned ++ [x] } }

/-- Reset is released (R455): the fused repair is applied (R51), LOAD, time of day from VBAT (R276), the fuses as they stand (R449),
the die identity (R450), both clasps engaged (R320). Log entries 7 (DEDUCED), 13 (DESIGN CHOICE), 14 (DESIGN CHOICE). -/
def resetReleaseF (s : State) : State :=
  let d := s.dev
  if d.released then s
  else
    let d := (engage 1 (engage 0 { d with released := true })).put GL_MODE_MODE modeLOAD
    let k : Fuse := { s.fuse with busy := 0 }
    let d := k.repair.foldl fusedRepair { d with su := { d.su with keys := k } }
    let d := ((d.putB GL_KEYSTAT_PROG0 k.prog0).putB GL_KEYSTAT_PROG1 k.prog1).putB GL_KEYSTAT_REV0 k.rev0
    let d := showHash k.hash0.toNat d
    let d := d.setWord GL_UIDLO (Config.dieId.extractLsb' 0 32)
    let d := d.setWord GL_UIDHI (Config.dieId.extractLsb' 32 32)
    let d := if s.vbat.valid then
        let d := { d with tm := { d.tm with label := s.vbat.tod + Config.vbatElapsed d.cyc } }
        (d.put TM_STAT_TODV 1).raise TM_EVT_TODINIT .notice
      else d
    { s with dev := d }

/-- A power cycle of the main supplies: everything they feed starts anew; fuses, flash, VBAT and the filters of the safety
logic, which VAUX feeds, keep what they hold (R12, R315, R453).
Log entries 2 (DESIGN CHOICE), 7 (DEDUCED), 10 (DESIGN CHOICE), 11 (DEDUCED). -/
def powerCycleF (s : State) : State :=
  let d := s.dev
  let n := Dev.reset (d.cyc + 1)
  let v := if s.vbat.valid ∧ d.released ∧ d.sf.folio then { s.vbat with dlock := d.get SF_STAT_DLOCK } else s.vbat
  { s with
    dev := { n with
      sent := d.sent
      sf := { n.sf with lvlA := d.sf.lvlA, lvlB := d.sf.lvlB, rstA := d.sf.rstA, rstB := d.sf.rstB, cycle := d.sf.cycle } }
    recMem := []
    fuse := { s.fuse with busy := 0, res := 0 }
    vbat := v }

/-- VBAT is lost: the time of day and the discrepancy locks (R276, R315, R461). Log entries 7 (DEDUCED), 11 (DEDUCED). -/
def vbatLossF (s : State) : State := { s with vbat := ⟨false, 0, 0⟩ }

/-- Once per second while PLL-T is locked SUP0 writes station time back to the counter (R276, Table 14.1, R343).
Log entry 11 (DEDUCED). -/
def todWritebackF (s : State) : State :=
  if s.dev.released ∧ s.dev.flag PL_STAT_TLOCK ∧ s.dev.bit SV_STAT_RUN 0 then
    { s with vbat := ⟨true, s.dev.tm.label, if s.vbat.valid then s.vbat.dlock else s.dev.get SF_STAT_DLOCK⟩ }
  else s

/-- Enabled safety inputs. -/
def sfInputsOn (d : Dev) : Nat := (List.range 8).foldl (fun a i => if d.flag (SF_INCFG_EN i) then setBit a i else a) 0

/-- Image checks end (R371), on the flash as it stands in the banks; with the safety folio the discrepancy locks come back from
VBAT, or all set if it was lost (R315). Log entries 11 (DEDUCED), 29 (DEDUCED). -/
def imageLoadF (a b : BankRx) (s : State) : State :=
  let was := s.dev.su.imageOk
  let fl := if s.dev.mode ≠ modeLOAD ∨ was then s.flash else flashFound a b s.flash
  let d := imageLoad (bankSeen a fl.imgA) (bankSeen b fl.imgB) s.dev
  let d := if d.su.imageOk ∧ ¬ was ∧ d.sf.folio then
      d.put SF_STAT_DLOCK (if s.vbat.valid then s.vbat.dlock else sfInputsOn d)
    else d
  { s with dev := d, flash := fl }

/-! ## CHECK: the journal (R51, R62, R375, R384) -/

/-- Apply one entry in force. Log entry 29 (DEDUCED). -/
def applyEntry (d : Dev) (e : JEntry) : Dev :=
  match e.kind with
  | 1 => { d with fb := { d.fb with retired := d.fb.retired ++ [(e.uclass, e.unit)] } }
  | 2 => { d with fb := { d.fb with assigned := d.fb.assigned ++ [(e.uclass, e.unit, e.arg)] } }
  | 3 => { d with fb := { d.fb with spareBad := d.fb.spareBad ++ [(e.uclass, e.unit)] } }
  | 4 => { d with fb := { d.fb with avsCode := some (e.arg % 256) } }
  | 5 => d.put FB_TCMIN_MIN (max (d.get FB_TCMIN_MIN) (e.arg % 256))
  | 6 => { d with fb := { d.fb with rowBad := e.unit :: d.fb.rowBad } }
  | _ => d

/-- Entry to CHECK: the supervisors start (R342), the journal of the bank loaded from, else of the other one, is applied
(R51, R375), and VDD is commanded after VOUT_MODE has been read, whose answer is `vout`; without a usable answer the AVS link is faulty and
VDD stays at 0.800 V (R62, R457-R459). Log entry 94 (PRESUMED). -/
def enterCheck (vout : Option (BitVec 8)) (s : State) : State :=
  let d := (s.dev.setMode modeCHECK).put SV_STAT_RUN 0xF
  let ra := jRead s.flash.a
  let rb := jRead s.flash.b
  let onB := d.flag GL_IMGSTAT_BANK
  let chosen := if onB then rb.orElse (fun _ => ra) else ra.orElse (fun _ => rb)
  let entries := chosen.getD []
  let d := (d.putB FB_JOURNAL_AOK ra.isSome).putB FB_JOURNAL_BOK rb.isSome
  let d := journalShow s.flash d
  let d := { d with fb := { d.fb with inForce := entries, eraseA := ra.isNone, eraseB := rb.isNone } }
  let d := entries.foldl applyEntry d
  let target := min (d.get FB_VDD_CEIL) (max (d.get FB_VDD_START) (d.fb.avsCode.getD 0))
  let d := d.send (.voutMode [0x80, 0x20, 0x81])
  match vout.bind voutExp with
  | none =>
    { s with dev := ({ d with fc := { d.fc with avsBad := true } }.put FB_VDD_TARGET 0x0F).raise FC_CHIP_AVS .service }
  | some e =>
    let d := { d with fb := { d.fb with vout := some e, avsPend := true, holdoff := true } }
    { s with dev := sendVout target (d.put FB_VDD_TARGET target) }

/-- Lanes that lost their clock in IDLE enter ACQUIRE once PLL-S is locked (Table 10.3). -/
def lanesReclock (d : Dev) : Dev := foldN 130 (fun d l => if d.lnState l = lnDOWN then d else laneGo l lnACQUIRE d) d

/-- Lock is declared (R265); the first locks of both PLLs after the image lead to CHECK (Table 16.1). -/
def pllLockF (x : PllRx) (s : State) : State :=
  let d0 := s.dev
  let p := x.pll
  if (pllOf p d0).seq ≠ 2 then s
  else
    let d := lockFound p d0
    let d := match p with
      | .s => if d.mode = modeIDLE then lanesReclock d else d
      | .t => d
    let s := { s with dev := d }
    if d.mode = modeLOAD ∧ d.su.imageOk ∧ d.tm.pllT.seq = 3 ∧ d.tm.pllS.seq = 3 then enterCheck x.vout s else s

/-! ## CHECK: repairs (R48, R51-R54) -/

/-- SRAM without a spare (Table 1.3): rows of the recorder and of the telemetry store go out of service, any other memory
fails the self-test. -/
def sramLost (m : Option Memory) (s : State) : State :=
  match m with
  | some (.recorder p) => let t := pageRemoved p.val s; { t with dev := t.dev.raise FC_CHIP_DBEREC .service }
  | some (.telemetry n) =>
    let d := s.dev.telClear n.val
    { s with dev := ({ d with fb := { d.fb with telBad := n.val :: d.fb.telBad } }).raise FC_CHIP_DBETEL .service }
  | _ => { s with dev := s.dev.raise FC_CHIP_BOOT .stop }

/-- A defect that found no spare draws the consequence of Table 1.3; CHECK's end draws that of engines, slices and channel
elements (`placeUnits`, `placeSlices`). -/
def unrepaired (c u : Nat) (m : Option Memory) (s : State) : State :=
  if c = 4 ∨ c = 5 then sramLost m s
  else if c = 6 then { s with dev := linkLost (u / 17) false s.dev }
  else s

/-- One defect that self-test found (R51, R52). -/
def repairDefect (s : State) (x : Defect) : State :=
  let c := uclassCode x.cls
  let r := repairUnit c x.unit x.spareBad s.dev
  let s := { s with dev := r.1 }
  if r.2 then s else unrepaired c x.unit x.mem s

/-- A row that waited for CHECK (R53): without a spare, the consequence of Table 1.3 for the memory that holds it.
Log entry 64 (DEDUCED). -/
def repairRow (s : State) (u : Nat) : State :=
  let r := repairUnit 4 u false s.dev
  let s := { s with dev := r.1 }
  if r.2 then s else unrepaired 4 u (some (Config.rowMemory u)) s

/-- The slices serve their quires (Table 1.1): slice q serves quire q unless it is out of service. -/
def placeSlices (d : Dev) : Dev :=
  let d := (List.range 80).foldl (fun d i => if d.fb.retired.contains (2, i) then d.put (FB_SLICE_RETIRED i) 1 else d) d
  let d := (List.range 64).foldl (fun d q =>
    if ¬ d.flag (QU_CFG_ASSIGNED q) then d
    else if ¬ unserved 2 q d then
      let i := servedBy 2 d 17 q
      (d.put (FB_SLICE_QUIRE i) q).put (FB_SLICE_ASSIGNED i) 1
    else match (sparesFor 2 q).find? (fun i => spareOk 2 d i && sliceFree d i) with
      | some i => (d.put (FB_SLICE_QUIRE i) q).put (FB_SLICE_ASSIGNED i) 1
      | none => { d with fb := { d.fb with gatherStep4 := true } }) d
  showSlices d

/-- Engines and channel elements after repair (Table 1.3): a cell number without an engine retires, a channel without an
element is lost. -/
def placeUnits (d : Dev) : Dev :=
  let gone := (d.fb.retired ++ d.fb.spareBad).map fun x => x.1
  let d := if gone.contains 1 then
      foldN 8192 (fun d n =>
        let u := 132 * (n / 128) + n % 128
        if unserved 1 u d then retireCell n d
        else if servedBy 1 d 17 u = u then d
        else d.put (CE_STAT_SPARE n) 1) d
    else d
  if gone.contains 3 then
    foldN 24 (fun d k =>
      if d.get (CH_STAT_STATE (k / 3) (k % 3)) ≠ chLOST ∧ (List.range 16).any (fun e => unserved 3 (18 * k + e) d) then
        chanLost (k / 3) (k % 3) d
      else d) d
  else d

/-- FB_SPARE after CHECK (Table 1.10). Log entry 18 (DESIGN CHOICE). -/
def showSpares (d : Dev) : Dev := (spareCounts d).put FB_SPARE_SRAMROW (min 0xFFF (Config.sramMacros d.cyc))

/-- CHECK is complete (R384): defects are repaired, the conversion groups are calibrated (R250), and the control period takes
effect (R382). A failed self-test is STOP. -/
def checkCompleteF (pass : Bool) (defects : List Defect) (cal : List SliceCal) (s : State) : State :=
  if s.dev.mode ≠ modeCHECK ∨ s.dev.fb.checkDone then s
  else if ¬ pass then { s with dev := s.dev.raise FC_CHIP_BOOT .stop }
  else
    let s := defects.foldl repairDefect s
    let rows := s.dev.fb.rowBad
    let s := rows.foldl repairRow { s with dev := { s.dev with fb := { s.dev.fb with rowBad := [] } } }
    let d := showSpares (placeUnits (placeSlices (fgCal cal s.dev)))
    let c := max (d.get GL_TCCFG_TC) (d.get FB_TCMIN_MIN)
    let d := d.put GL_TCCFG_TCEFF c
    { s with dev := { d with fb := { d.fb with checkDone := true }, tm := { d.tm with tTicks := ticksOfCode c } } }

/-! ## Readiness (R393, R394) -/

/-- The distance of position `p` of quire `q` from an end lies within the reach of the active slot table, and the lane of that
end is ACTIVE. -/
def reachActive (q p : Nat) (d : Dev) : Bool :=
  (reachedEnd q 0 p d && endActive q 0 d) || (reachedEnd q 1 p d && endActive q 1 d)

/-- Item 4 of R393 for one position: a reached position with a calibrated D has received it as ROFS. -/
def rofsDone (q p : Nat) (d : Dev) : Bool :=
  let l := refLane q p d
  let x := d.posD l p
  !x.valid || smLook (d.lane l).rofs p == some x.d

/-- Quire `q` is ready (R393). -/
def quireReady (q : Nat) (d : Dev) : Bool :=
  (d.quireRegion q).isSome && d.flag (QU_STAT_BUDGET q) &&
    (List.range (d.get (QU_CFG_NPOS q))).all fun p =>
      let n := 128 * q + p
      let st := d.ceState n
      let r := reached q p d
      (d.get (QU_STAT_CHAIN q) == chINTACT || !r || reachActive q p d) && st != ceREG &&
        (!(st == ceHEALTHY || st == ceSUSPECT || st == ceBYPASSED) || posValid n d) && (!r || rofsDone q p d)

/-- The ready conditions of a region as they stand (R394). -/
def regionReady (g : Nat) (d : Dev) : Dev :=
  let hlt := healthyOf g d
  let bits := [((d.quiresOf g).all fun q => bitOf (d.get (GL_SUQRDY_QRDY (q / 32))) (q % 32)),
    decide (max 1 (d.get (FC_RSV_MINHLT g)) ≤ hlt), d.flag (RG_STAT_LAWRDY g), d.flag (RG_STAT_ENERG g),
    decide (2 ≤ (chansIn g chACTIVE d).length), !regionProt g d, !d.flag (RG_MODCTL_HALT g)]
  let w := (bits.zip (List.range 7)).foldl (fun a b => if b.1 then setBit a b.2 else a) 0
  let w := if bits.all id && d.assigned g then setBit w 7 else w
  (d.setWord (GL_SURDY g) (BitVec.ofNat 32 w)).put (GL_SURDY_NHLT g) hlt

/-- Readiness at a boundary: quires, then regions. Log entry 31 (DEDUCED). -/
def readiness (d : Dev) : Dev :=
  let half := fun (h : Nat) => (List.range 32).foldl (fun a i => if quireReady (32 * h + i) d then setBit a i else a) 0
  let w0 := half 0
  let w1 := half 1
  let d := (d.put (GL_SUQRDY_QRDY 0) w0).put (GL_SUQRDY_QRDY 1) w1
  foldN 8 (fun d g => regionReady g d) d

/-- Every assigned region is READY, and there is one. -/
def allReady (d : Dev) : Bool :=
  (List.range 8).any (fun g => d.assigned g) &&
    (List.range 8).all fun g => !d.assigned g || d.rgState g == rgREADY

/-! ## Region states (Table 16.3) -/

/-- The rows of Table 16.3 that need no command, at a boundary: CHARGE to READY, READY to CHARGE, OFF to CHARGE.
Log entry 31 (DEDUCED). -/
def regionBoundary (g : Nat) (d : Dev) : Dev :=
  if ¬ d.assigned g then d
  else
    let st := d.rgState g
    let rdy := d.flag (GL_SURDY_RDY g)
    if st = rgCHARGE ∧ rdy then (d.setRegion g rgREADY).onRegion g fun r => { r with readyEver := true }
    else if st = rgREADY ∧ ¬ rdy then regionCharge g d
    else if st = rgOFF ∧ (d.mode = modeCHARGE ∨ d.mode = modeRUN) ∧ ¬ regionProt g d then regionCharge g d
    else d

/-! ## Entries to IDLE and to CHARGE -/

/-- Nothing is pending any more (R388, R399). Log entry 34 (DEDUCED). -/
def clearPend (d : Dev) : Dev :=
  ({ d with su := { d.su with chargeAt := none, stopAt := none } }).put GL_MODE_PEND 0

/-- The recorder arms at an entry to IDLE (R385). -/
def autoArm (d : Dev) : Dev := if d.flag DR_CFG_AUTOARM then recArm d else d

/-- The first entry to IDLE in a power cycle (R385, R386). -/
def firstIdle (d : Dev) : Dev :=
  let b := d.nextB
  let j := b / d.T
  let d := d.until_ b
  let d := { d with
    tm := { d.tm with grid := true, bj := b, jAbs := j }
    su := { d.su with idleOnce := true, idleAt := j }
    nt := { d.nt with started := true } }
  let d := (eraNote d).setMode modeIDLE
  let d := if d.paired then d.put GL_TWSTAT_ROLE roleSTANDBY else d
  let d := (d.cells.map fun x => x.1).foldl (fun d n => if (d.cell n).tRet then engineBoundary n d else d) d
  readiness (autoArm (lanesStart d))

/-- A later entry to IDLE, by a stop (R399). -/
def laterIdle (d : Dev) : Dev :=
  let d := (clearPend d).setMode modeIDLE
  let d := foldN 8 (fun d g => if d.assigned g then regionOff g d else d) d
  let d := { d with su := { d.su with deblock := [] } }
  let d := d.put GL_SUSTAT_CHGTO 0
  adBoundary (autoArm d)

/-- A PROTECTIVE flag of device scope has set and its override is due: of the transitions of this step the device takes BLOCK alone
(R13). -/
def blockDue (d : Dev) : Bool := d.fc.protDev && (d.mode == modeCHARGE || d.mode == modeRUN)

/-- IDLE_ENTRY: after CHECK, or when a stop falls due. Log entry 32 (DEDUCED). -/
def idleEntryD (d : Dev) : Dev :=
  if d.mode = modeCHECK ∧ d.fb.checkDone then firstIdle d
  else if blockDue d then d
  else match d.su.stopAt with
    | some b => if (d.mode = modeCHARGE ∨ d.mode = modeRUN) ∧ b ≤ d.tm.jAbs then laterIdle d else d
    | none => d

/-- The control period of an entry to CHARGE (R59, R274, R382): where it changes, the interval up to the first boundary of the
new grid is the gap period. -/
def chargePeriod (d : Dev) : Dev :=
  let t := chargeTicks d
  let d := if d.flag FB_TCMIN_PENDV then
      ladderMark 5 ((d.put FB_TCMIN_MIN (d.get FB_TCMIN_PEND)).put FB_TCMIN_PENDV 0)
    else d
  let d := d.put GL_TCCFG_TCEFF (max (d.get GL_TCCFG_TC) (d.get FB_TCMIN_MIN))
  if t = d.tm.tTicks then d
  else
    let n := ceilDiv (d.tm.bj + t) t * t
    let j := n / t - 1
    let k := (j : Int) - d.tm.jAbs
    let d := renumber k 0 (eraNote { eraDrop d with tm := { (eraDrop d).tm with tTicks := t, gapEnd := some n, jAbs := j } })
    { d with su := { d.su with stopAt := d.su.stopAt.map (moveBy k) } }

/-- A pending entry to CHARGE is over; a stop that is pending stays so until its boundary (R399). -/
def clearCharge (d : Dev) : Dev := ({ d with su := { d.su with chargeAt := none } }).putB GL_MODE_PEND d.su.stopAt.isSome

/-- The actions of Table 16.2. Log entry 34 (DEDUCED). -/
def enterCharge (d : Dev) : Dev :=
  let d := chargePeriod (clearCharge d)
  let d := (d.setMode modeCHARGE).count GL_MODE_CHGCNT
  let d := { d with su := { d.su with chargeFrom := d.nowTick, deblock := [] } }
  let d := d.put GL_SUSTAT_CHGTO 0
  let gs := (List.range 8).filter fun g => d.assigned g
  let d := gs.foldl (fun d g => nsegUpdate g (lawCharge g (d.onRegion g fun r => { r with readyEver := false }))) d
  let d := adBoundary (lanesCharge d)
  let d := gs.foldl (fun d g => if regionProt g d then regionOff g d else regionCharge g d) d
  let d := twinCharge d
  foldN 130 (fun d l => if l < 128 ∧ d.flag (QU_CFG_ASSIGNED (l / 2)) then calPump l d else d) d

/-- CHARGE_ENTRY: an accepted or announced entry falls due (R388, R389). Log entries 5 (DESIGN CHOICE), 32 (DEDUCED). -/
def chargeEntryD (d : Dev) : Dev :=
  match d.su.chargeAt with
  | some b => if d.mode = modeIDLE ∧ b ≤ d.tm.jAbs then enterCharge d else d
  | none => d

/-- A boundary notes whether a PROTECTIVE status is set (R400). -/
def protBoundary (d : Dev) : Dev := { d with su := { d.su with protClear := noProt d } }

/-- RESTART_FROM_BLOCK, at the first boundary after the last PROTECTIVE status has been cleared (R400). -/
def restartD (d : Dev) : Dev := if d.mode = modeBLOCK ∧ noProt d ∧ d.su.protClear then enterCharge d else d

/-- CHARGE_TIMEOUT: 60 s in CHARGE with a region never READY (R398). -/
def chargeTimeoutD (d : Dev) : Dev :=
  if d.mode = modeCHARGE ∧ (List.range 8).any (fun g => d.assigned g && !(d.region g).readyEver) then d.put GL_SUSTAT_CHGTO 1 else d

/-- CHGTO reads 1 only while its conditions hold. -/
def chgtoBoundary (d : Dev) : Dev :=
  if d.flag GL_SUSTAT_CHGTO ∧
      ¬ (d.mode = modeCHARGE ∧ (List.range 8).any (fun g => d.assigned g && !(d.region g).readyEver)) then
    d.put GL_SUSTAT_CHGTO 0
  else d

/-! ## Deblock (R396, R397) -/

/-- The step 3 entries of a two-step block have been sent (R126, R396). -/
def step3Sent (g : Nat) (d : Dev) : Bool := (d.region g).ovr.isNone || d.get (RG_BLKSTAT_PHASE g) == 3

/-- A region in BLOCK that meets R396. Log entry 31 (DEDUCED). -/
def blockDeblockOk (g : Nat) (d : Dev) : Bool :=
  d.rgState g == rgBLOCK && !regionProt g d && !d.flag (RG_MODCTL_HALT g) && step3Sent g d &&
    (d.mode != modeRUN || d.flag (GL_SURDY_RDY g))

/-- The deblock of a READY region takes effect (R397). -/
def deblockReady (all : Bool) (d : Dev) (g : Nat) : Dev :=
  if d.rgState g = rgREADY ∧ d.flag (GL_SURDY_RDY g) ∧ (d.mode = modeRUN ∨ (d.mode = modeCHARGE ∧ all)) then
    regionRun g (d.setMode modeRUN)
  else d

/-- The deblock of a region in BLOCK takes effect (Table 16.3). -/
def deblockBlock (d : Dev) (g : Nat) : Dev :=
  if ¬ blockDeblockOk g d then d
  else if d.mode = modeCHARGE then regionCharge g d
  else if d.mode = modeRUN then regionRun g d
  else d

/-- DEBLOCK_EFFECT: what was accepted takes effect at its boundary, or lapses. Log entry 32 (DEDUCED). -/
def deblockEffectD (d : Dev) : Dev :=
  let due := d.su.deblock.filter fun e => decide (e.2 ≤ d.tm.jAbs)
  if due.isEmpty then d
  else
    let d := { d with su := { d.su with deblock := d.su.deblock.filter fun e => decide (d.tm.jAbs < e.2) } }
    if blockDue d then d
    else
    let all := allReady d
    let d := ((due.filter fun e => decide (e.1 < 8)).map fun e => e.1).foldl (deblockReady all) d
    ((due.filter fun e => decide (8 ≤ e.1)).map fun e => e.1 - 8).foldl deblockBlock d

/-- A pending stop whose boundary has passed in BLOCK is gone: no transition leads from BLOCK to IDLE (Table 0.3, R13).
Log entry 32 (DEDUCED). -/
def stopLapse (d : Dev) : Dev :=
  match d.su.stopAt with
  | some b => if b < d.tm.jAbs ∧ d.mode = modeBLOCK then clearPend d else d
  | none => d

end Sys2Proof.Machine
end

