-- ==== Sys2Proof/Machine/Access.lean ====
section
/-! DEFINITION. Reads and writes of the maintenance space (R25-R31, R429-R437): which word an address shows, what a read has as
side effect, and the one way a write reaches its register. -/

namespace Sys2Proof.Machine

/-! ## Reads -/

/-- The number of an origin. -/
def originIx : Origin → Nat
  | .sup => 0
  | .smps => 1
  | .smpm => 2
  | .mp => 3

/-- Whole seconds and nanoseconds of the present tick (R270). -/
def nowSec (d : Dev) : Nat := d.tm.label / 2 ^ 32 / 10 ^ 9
def nowFracNs (d : Dev) : Nat := d.tm.label / 2 ^ 32 % 10 ^ 9

/-- Regions in a state, as a mask. -/
def regionMask (st : Nat) (d : Dev) : Nat :=
  (List.range 8).foldl (fun m g => if d.rgState g = st then setBit m g else m) 0

/-- Registers of the chip-level blocks that show what stands elsewhere in the state, and GL_ID, which is wired (R448). -/
def liveChip (a : Nat) (d : Dev) : Option Nat :=
  if a = GL_ID then some 0x181925A7
  else if a = FC_SUM then some (fcSum d)
  else if a = FC_SUMGL then some (fcSumGl d)
  else if a = FC_SUMRG then some (fcSumRg d)
  else if a = FC_CHIPCS then some (fcChipCs d)
  else if a = FC_SUMQU 0 then some (fcSumQu 0 d)
  else if a = FC_SUMQU 1 then some (fcSumQu 1 d)
  else if a = FC_SUMCE 0 then some (fcSumCe 0 d)
  else if a = FC_SUMCE 1 then some (fcSumCe 1 d)
  else if a = GL_SUSTAT then some (d.get GL_SUSTAT_CHGTO + 2 ^ 8 * regionMask rgREADY d + 2 ^ 16 * regionMask rgRUN d)
  else if a = TM_NOW0 then some (d.tm.label % 2 ^ 32 / 2 ^ 16)
  else if a = TM_NOW1 then some (nowFracNs d)
  else if a = TM_NOW2 then some (nowSec d % 2 ^ 32)
  else if a = TM_NOW3 then some (nowSec d / 2 ^ 32 % 2 ^ 16)
  else if a = TM_PERIOD then some d.j32
  else if a = DR_SECHI then some ((d.word a).toNat / 2 ^ 16 * 2 ^ 16 + nowSec d / 2 ^ 32 % 2 ^ 16)
  else if a = AD_QLO then some (d.adq.headD 0).toNat
  else if a = AD_QHI then some ((d.adq.headD 0).toNat / 2 ^ 32)
  else (instAt (FC_SUMLN 0) 4 5 a).map fun h => fcSumLn h d

/-- Registers of instances that show what stands elsewhere in the state; SC fields read 1 while their action runs (R27). -/
def liveUnit (a : Nat) (d : Dev) : Option Nat :=
  match instAt (CE_STAT 0) 0x80 8192 a with
  | some n => some (fldPut (d.word a) (CE_STAT_ELIG n) (b2n (selectable n d))).toNat
  | none =>
  match instAt (CE_DIAGREQ 0) 0x80 8192 a with
  | some n => some (fldPut (d.word a) (CE_DIAGREQ_GO n) (b2n ((d.cell n).diag != 0 && (d.cell n).diag != 3))).toNat
  | none =>
  match instAt (CE_CTL 0) 0x80 8192 a with
  | some n => some (b2n (d.cell n).tRel + 2 * d.get (CE_CTL_BYPASS n))
  | none =>
  match instAt (LN_TMXD 0) 0x100 130 a with
  | some l => some (tmxdWord l d).toNat
  | none => (instAt (LN_EQ 0) 0x100 130 a).map fun l => (eqWord l d).toNat

/-- The word a register shows; reserved addresses read 0 (R25). -/
def regWord (a : Nat) (d : Dev) : Word :=
  match regAt a with
  | none => 0
  | some _ =>
    match (liveChip a d).orElse fun _ => liveUnit a d with
    | some w => BitVec.ofNat 32 w
    | none => d.word a

/-- The word of a telemetry point; points of an UNREGISTERED engine hold no value (R77). -/
def pointWord (id : Nat) (d : Dev) : Word :=
  if d.ceState (id / 128) = ceUNREG ∧ id < 2 ^ 20 then 0x80000000 else d.point id

/-- The word at an address, without side effects (R23, R325, R430). -/
def peekWord (a : Nat) (s : State) : Word :=
  if a % 4 ≠ 0 then 0
  else if 0x200000 ≤ a ∧ a < 0x600000 then pointWord ((a - 0x200000) / 4) s.dev
  else if 0x10000000 ≤ a ∧ a < 0x12000000 then
    (slotGet s.recMem ((a - 0x10000000) / 32)).extractLsb' (a % 32 * 8) 32
  else regWord a s.dev

/-- The words that a read of `a` snapshots: the high half of a value wider than 32 bits, a MAC address too (R31), and the groups of R79,
R254, R270 and R325. -/
def snapTargets (a : Nat) : List Nat :=
  if a = TM_NOW0 then [TM_NOW1, TM_NOW2, TM_NOW3]
  else if a = TM_GMID 0 then [TM_GMID 1]
  else if a = GL_UIDLO then [GL_UIDHI]
  else if a = AD_QLO then [AD_QHI]
  else if a = NT_MACLO 0 ∨ a = NT_MACLO 1 then [a - 4]
  else if 0x10000000 ≤ a ∧ a < 0x12000000 ∧ a % 32 = 0 then (List.range 7).map fun k => a + 4 * (k + 1)
  else match instAt (CE_REP 0 0) 0x80 8192 a with
  | some n => [CE_REP n 1, CE_REP n 2, CE_REP n 3]
  | none =>
  match instAt (CE_IDLO 0) 0x80 8192 a with
  | some n => [CE_IDHI n]
  | none =>
  match instAt (PSUMLO 0) 0x20 32 a with
  | some i => [PSUMHI i, PMINMAX i, AD_ACCINF i]
  | none =>
  match instAt (WSUMLO 0) 0x20 32 a with
  | some i => [WSUMHI i, WMINMAX i, AD_ACCINF i]
  | none => []

/-- The key of an origin's snapshot of a word (R435). -/
def snapKey (o : Origin) (a : Nat) : Nat := originIx o * 2 ^ 32 + a

/-- Keep a snapshot of a word for an origin. -/
def snapPut (o : Origin) (s : State) (a : Nat) : State :=
  { s with dev := { s.dev with snaps := smSet (fun _ => []) s.dev.snaps (snapKey o a) [peekWord a s] } }

/-- A read by an origin: its snapshot if it holds one of this word, else the word as it stands; the low half of a wide value
snapshots the rest, a read of AD_QLO removes its entry, and the equaliser adapts on (R31, R255, R435).
Log entry 20 (DESIGN CHOICE). -/
def readWord (o : Origin) (a : Nat) (s : State) : Word × State :=
  match smGet (fun _ => []) s.dev.snaps (snapKey o a) with
  | w :: _ => (w, s)
  | [] =>
    let w := peekWord a s
    let s := (snapTargets a).foldl (snapPut o) s
    if a = AD_QLO then (w, { s with dev := (adPop s.dev).2 })
    else match instAt (LN_EQ 0) 0x100 130 a with
    | some l => (w, { s with dev := eqAdapt l s.dev })
    | none => (w, s)

/-- Reads of `n` words in ascending address (R424, R440). -/
def readWords (o : Origin) : Nat → Nat → State → List Word × State
  | 0, _, s => ([], s)
  | n + 1, a, s =>
    let r := readWord o a s
    let t := readWords o n (a + 4) r.2
    (r.1 :: t.1, t.2)

/-- The first millisecond after reset release, in which nothing is read and CS_N is ignored (R437, R438); it is over when the image has been
loaded. Log entry 100 (DESIGN CHOICE). -/
def inFirstMs (d : Dev) : Bool := d.mode == modeLOAD && !d.su.imageOk && decide (d.su.early < Config.earlyReads d.cyc)

/-- A read or a port frame has its effect after that millisecond only. -/
def afterFirstMs (f : State → State) (s : State) : State :=
  if inFirstMs s.dev then { s with dev := { s.dev with su := { s.dev.su with early := s.dev.su.early + 1 } } } else f s

/-- A read whose value only the reader sees. -/
def readOnly (o : Origin) (a : Nat) (s : State) : State :=
  if s.dev.released then afterFirstMs (fun s => (readWord o a s).2) s else s

/-! ## Writes -/

/-- Write of LN_TMXSEL (Table 5.12); on a twin lane it has no effect (R156). -/
def wrTmxSel (o : Origin) (l : Nat) (w : Word) (d : Dev) : Bool × Dev :=
  shellWrite o .lane true (fun d => d.put (LN_TMXSEL_POS l) w.toNat) d

/-- A write of ones to the sticky flags of a register (R16, R27, Table 14.4); a trip flag whose filtered input is asserted refuses
it (R297). Log entry 26 (DEDUCED). -/
def wrFlags (o : Origin) (a ones : Nat) (d : Dev) : Bool × Dev :=
  let stop := (List.range 32).any fun b => bitOf ones b && match flagClass a b d with
    | some c => c == .stop
    | none => false
  shellWrite o (if a = SF_EVT then .safe else if stop then .stopflag else .flag)
    (!(a == FC_TRIPEVT && ones &&& d.get FC_TRIPSTAT_FILT != 0)) (clearFlags a ones) d

/-- A write of a register of the chip-level blocks that has its own rule. -/
def wrChip (o : Origin) (a : Nat) (w : Word) (d : Dev) : Option (Bool × Dev) :=
  if a = TM_INCR then some (wrTmIncr o w d)
  else if a = TM_ADJ then some (wrTmAdj o w d)
  else if a = TM_JUMPHI then some (wrTmJumpHi o w d)
  else if a = TM_JUMPLO then some (wrTmJumpLo o w d)
  else if a = PL_TCTL then some (wrPllCtl o .t w d)
  else if a = PL_SCTL then some (wrPllCtl o .s w d)
  else if a = PL_TDIV0 then some (wrPllDiv0 o .t w d)
  else if a = PL_SDIV0 then some (wrPllDiv0 o .s w d)
  else if a = PL_TDIV1 then some (wrPllDiv1 o .t w d)
  else if a = PL_SDIV1 then some (wrPllDiv1 o .s w d)
  else if a = PL_SPHS then some (wrSphs o w d)
  else if a = DR_CTL then some (wrDrCtl o w d)
  else if a = FC_INJ then some (wrInj o w d)
  else none

/-- A write of a register of an instance that has its own rule. -/
def wrUnit (o : Origin) (a : Nat) (w : Word) (d : Dev) : Option (Bool × Dev) :=
  match instAt (LN_CTL 0) 0x100 130 a with
  | some l => some (wrLnCtl o l w d)
  | none =>
  match instAt (LN_PRBSCTL 0) 0x100 130 a with
  | some l => some (wrPrbs o l w d)
  | none =>
  match instAt (LN_TMXSEL 0) 0x100 130 a with
  | some l => some (wrTmxSel o l w d)
  | none =>
  match instAt (AD_INJ 0) 0x40 4 a with
  | some g => some (wrAdInj o g w d)
  | none =>
  match instAt (CE_DIAGREQ 0) 0x80 8192 a with
  | some n => some (wrDiagReq o n w d)
  | none =>
  match instAt (CE_CTL 0) 0x80 8192 a with
  | some n => some (wrCeCtl o n w d)
  | none => (instAt (RG_MODCTL 0) 0x2000 8 a).map fun g => wrModCtl o g w d

/-- A write of a word by an origin (R434): refused where the register has no writable field, where a reserved bit is 1, or
where an SC field that reads 1 is written with 1, unless its chapter says otherwise (R256, R303); otherwise by the register's own
rule. A refused request for an injection counts (R303). Answers whether it was accepted.
Log entries 25 (DEDUCED), 102 (DESIGN CHOICE). -/
def writeReg (o : Origin) (a : Nat) (w : Word) (d : Dev) : Bool × Dev :=
  match regAt a with
  | none => (false, d.refuse o)
  | some r =>
    let writable := r.mask fun x => x == .rw || x == .w1c || x == .wo || x == .sc
    let sc := if a = FC_INJ ∨ (instAt (AD_INJ 0) 0x40 4 a).isSome then 0 else r.mask fun x => x == .sc
    if writable = 0 ∨ w &&& r.mask (fun x => x == .res) ≠ 0 ∨ w &&& sc &&& regWord a d ≠ 0 then
      let d := d.refuse o
      (false, if a = FC_INJ ∧ bitOf w.toNat 5 then d.bump FC_INJCNT_REFUSED else d)
    else
      match (wrChip o a w d).orElse fun _ => wrUnit o a w d with
      | some x => x
      | none => wrFlags o a (w &&& r.mask fun x => x == .w1c).toNat d

/-- Writes in ascending address until the first that is refused (R424, R440); answers how many were written. -/
def writeRegs (o : Origin) : Nat → List Word → Dev → Nat × Dev
  | _, [], d => (0, d)
  | a, w :: ws, d =>
    let r := writeReg o a w d
    if r.1 then
      let t := writeRegs o (a + 4) ws r.2
      (t.1 + 1, t.2)
    else (0, r.2)

end Sys2Proof.Machine
end

