-- ==== Sys2Proof/Machine/Net.lean ====
section
/-! DEFINITION. Ports and links (R403-R408), SMP framing, the request queue and duplicates (R409-R413), and the messages the
device originates: events, status, telemetry (R417-R421). -/

namespace Sys2Proof.Machine

/-- Change the network part. -/
def Dev.onNt (d : Dev) (f : NetSt → NetSt) : Dev := { d with nt := f d.nt }

/-! ## Links (R406) -/

/-- The port used for what the device originates: the lowest that is up (R413). -/
def showServe (d : Dev) : Dev := d.putB NT_STAT_SERVE (!netUp 0 d && netUp 1 d)

/-- A link comes up on an enabled port that has been started (R403, R406). -/
def linkUp (x : Nat) (d : Dev) : Dev :=
  if d.live ∧ d.nt.started ∧ d.flag (NT_PCFG_EN x) then showServe (d.put (if x = 0 then NT_STAT_UP0 else NT_STAT_UP1) 1) else d

/-- A link goes down; the last one of the enabled ports sets NONET. -/
def linkDown (x : Nat) (d : Dev) : Dev :=
  if ¬ netUp x d then d
  else
    let d := showServe (d.put (if x = 0 then NT_STAT_UP0 else NT_STAT_UP1) 0)
    let d := d.raise (if x = 0 then NT_EVT_LINK0 else NT_EVT_LINK1) .notice
    if netUp (1 - x) d then d else d.raise NT_EVT_NONET .service

/-! ## Addresses (R407) -/

/-- Entries of the address cache of one port. -/
def arpEntries : Nat := 16

/-- A resolved address enters the cache of its port; the oldest entry makes room. Log entries 68 (DEDUCED), 73 (DEDUCED). -/
def arpPut (x : Nat) (ip : BitVec 128) (mac : BitVec 48) (d : Dev) : Dev :=
  d.onNt fun n =>
    let rest := n.arp.filter fun e => !(e.1 == x && e.2.1 == ip)
    let mine := rest.filter fun e => e.1 == x
    let keep := mine.drop (mine.length + 1 - arpEntries)
    { n with arp := rest.filter (fun e => e.1 != x) ++ keep ++ [(x, ip, mac)] }

/-- An entry leaves the cache after 60 s. Log entry 73 (DEDUCED). -/
def arpDrop (x : Nat) (ip : Nat) (d : Dev) : Dev :=
  d.onNt fun n => { n with arp := n.arp.filter fun e => !(e.1 == x && e.2.1.toNat == ip) }

/-- An address is that of an enabled peer. -/
def peerAt (a : Nat) (d : Dev) : Option Nat :=
  (List.range 4).find? fun h => d.bit NT_PEERCFG_PEER (4 * h) && peerAddr h d == a

/-- An IPv4 address among the 128-bit addresses. -/
def v4Addr (ip : BitVec 32) : BitVec 128 := BitVec.ofNat 128 (v4Prefix + ip.toNat)

/-- The MAC address of a peer, if it is cached. -/
def arpFind (x : Nat) (a : BitVec 128) (d : Dev) : Option (BitVec 48) :=
  (d.nt.arp.find? fun e => e.1 == x && e.2.1 == a).map fun e => e.2.2

/-- The headers of a packet that port `x` sends (Table 17.2). -/
def packetHdr (x : Nat) (dst : Option (BitVec 48)) (d : Dev) : PacketHdr :=
  ⟨frameHdr x dst d, BitVec.ofNat 128 (ownAddr x d), BitVec.ofNat 6 (d.get (NT_PCFG_DSCP x)), 64, !d.flag (NT_PCFG_IPV6 x)⟩

/-- Bytes as 16-bit words, the last one filled with 0. -/
def halves : List Byte → List Nat
  | [] => []
  | [a] => [a.toNat * 256]
  | a :: b :: rest => (a.toNat * 256 + b.toNat) :: halves rest

/-- The UDP checksum over pseudo-header, header and payload: the one's complement of the one's complement sum, and never 0. Log
entry 68 (DEDUCED). -/
def udpSum (src dst : BitVec 128) (sport dport : Nat) (bs : List Byte) : BitVec 16 :=
  let n := 8 + bs.length
  let addr := fun (a : BitVec 128) => if isV4 a.toNat then bytesBE 4 a.toNat else bytesBE 16 a.toNat
  let s := (halves (addr src ++ addr dst ++ bytesBE 2 17 ++ bytesBE 2 n ++ bytesBE 2 sport ++ bytesBE 2 dport ++ bytesBE 2 n ++ bs)).foldl
    (fun s w => (s + w) % 2 ^ 16 + (s + w) / 2 ^ 16) 0
  if s = 0xFFFF then 0xFFFF else BitVec.ofNat 16 (0xFFFF - s)

/-- The headers of a datagram that port `x` sends from UDPPORT. -/
def udpHdr (x : Nat) (a : BitVec 128) (udp : Nat) (bs : List Byte) (d : Dev) : UdpHdr :=
  let sport := d.get NT_IPCFG_UDPPORT
  ⟨packetHdr x (arpFind x a d) d, sport, udpSum (BitVec.ofNat 128 (ownAddr x d)) a sport udp bs⟩

/-- A datagram leaves; an address that is not in the cache is asked for first (R407). Log entry 68 (DEDUCED). -/
def sendUdp (x : Nat) (a : BitVec 128) (udp : Nat) (bs : List Byte) (d : Dev) : Dev :=
  let d := if (arpFind x a d).isSome then d
    else if isV4 a.toNat then d.send (.arpRequest x (frameHdr x (some (BitVec.allOnes 48)) d) (BitVec.ofNat 32 a.toNat))
    else d.send (.neighbourSol x (packetHdr x (some (solicitedMac a.toNat)) d) a)
  d.send (.smp x (udpHdr x a udp bs d) a udp bs)

/-- A packet that R407 accepts on port `x`: the address family of the port, no options, extension headers or fragment, the protocol, and
a correct header checksum (IPv4). -/
def ipOk (x : Nat) (next4 next6 : BitVec 8) (p : IpRx) (d : Dev) : Bool :=
  let v6 := d.flag (NT_PCFG_IPV6 x)
  ethOk x (if v6 then etIP6 else etIP4) p.eth d && !p.options && !p.fragment && p.next == (if v6 then next6 else next4) && (v6 || p.sumOk)

/-- A datagram that reaches SMP (Table 17.2): for the own address and UDPPORT, its checksum correct or, on IPv4, zero. -/
def udpOk (x : Nat) (r : UdpRx) (d : Dev) : Bool :=
  ipOk x 17 17 r.ip d && r.dst.toNat == ownAddr x d && r.port.toNat == d.get NT_IPCFG_UDPPORT && r.sum.getD (!d.flag (NT_PCFG_IPV6 x))

/-- An ARP request for the own address is answered. -/
def arpAsked (x : Nat) (e : EthHdr) (target : BitVec 32) (mac : BitVec 48) (ip : BitVec 32) (d : Dev) : Dev :=
  if netUp x d ∧ ethOk x etARP e d ∧ ¬ d.flag (NT_PCFG_IPV6 x) ∧ target.toNat = d.get (NT_IP4_ADDR x) then
    d.send (.arpReply x (frameHdr x (some mac) d) ip)
  else d

/-- A Neighbour Solicitation for the own address is answered. -/
def neighbourAsked (x : Nat) (p : IpRx) (target : BitVec 128) (mac : BitVec 48) (ip : BitVec 128) (d : Dev) : Dev :=
  if netUp x d ∧ ipOk x 58 58 p d ∧ d.flag (NT_PCFG_IPV6 x) ∧ target.toNat = portIp6 x d then
    d.send (.neighbourAdv x (packetHdr x (some mac) d) ip)
  else d

/-- The answer to the device's own request for a peer fills the cache. Log entry 68 (DEDUCED). -/
def arpAnswered (x : Nat) (e : EthHdr) (mac : BitVec 48) (ip : BitVec 32) (d : Dev) : Dev :=
  let a := v4Addr ip
  if netUp x d ∧ ethOk x etARP e d ∧ ¬ d.flag (NT_PCFG_IPV6 x) ∧ (peerAt a.toNat d).isSome then arpPut x a mac d else d

/-- The same for a Neighbour Advertisement. Log entry 68 (DEDUCED). -/
def neighbourAnswered (x : Nat) (p : IpRx) (mac : BitVec 48) (a : BitVec 128) (d : Dev) : Dev :=
  if netUp x d ∧ ipOk x 58 58 p d ∧ d.flag (NT_PCFG_IPV6 x) ∧ (peerAt a.toNat d).isSome then arpPut x a mac d else d

/-- An echo request for the own address is answered, at most 100 times within one second and port (Table 17.2).
Log entry 68 (DEDUCED). -/
def echoAsked (x : Nat) (p : IpRx) (v6 : Bool) (src dst : BitVec 128) (data : List Byte) (d : Dev) : Dev :=
  if ¬ (netUp x d ∧ ipOk x 1 58 p d ∧ (d.flag (NT_PCFG_IPV6 x) == v6) ∧ dst.toNat = ownAddr x d) then d
  else
    let now := d.nowNs
    let recent := d.nt.echo.filter fun p => decide (now < p.2 + 10 ^ 9)
    if 100 ≤ (recent.filter fun p => p.1 == x).length then d.onNt fun n => { n with echo := recent }
    else (d.onNt fun n => { n with echo := recent ++ [(x, now)] }).send (.echoReply x (packetHdr x (arpFind x src d) d) src data)

/-! ## Framing (R409-R411) -/

def stOK : Nat := 0
def stBUSY : Nat := 1
def stREFUSED : Nat := 2
def stSTATE : Nat := 3
def stBADMSG : Nat := 4
def stAUTHFAIL : Nat := 5
def stNOSESSION : Nat := 6
def stTIMEOUT : Nat := 7
def stORDER : Nat := 8
def stNOTREADY : Nat := 9

def tySETPT : Nat := 0x01
def tyCMD : Nat := 0x02
def tyTREAD : Nat := 0x03
def tyTSUB : Nat := 0x04
def tyTUNSUB : Nat := 0x05
def tyTDELIV : Nat := 0x06
def tyEVENT : Nat := 0x07
def tySTATUS : Nat := 0x08
def tyMOPEN : Nat := 0x10
def tyMAUTH : Nat := 0x11
def tyMREAD : Nat := 0x12
def tyMWRITE : Nat := 0x13
def tyIOPEN : Nat := 0x14
def tyIDATA : Nat := 0x15
def tyMCLOSE : Nat := 0x16

/-- Header bytes 0 to 15 of a message (Table 17.3). -/
def smpHead (typ blen status flags rid dseq : Nat) : List Byte :=
  bytesBE 2 0x534D ++ bytesBE 1 1 ++ bytesBE 1 typ ++ bytesBE 2 blen ++ bytesBE 1 status ++ bytesBE 1 flags ++ bytesBE 4 rid ++
    bytesBE 4 dseq

/-- A whole message. -/
def smpMsg (typ status flags rid dseq : Nat) (body : List Byte) : List Byte :=
  let m := smpHead typ body.length status flags rid dseq ++ body
  m ++ bytesBE 4 (crc32c m)

/-! ## Answers and duplicates (R346, R412) -/

/-- A kept request is the one of `r`. -/
def keptIs (r : Req) (typ : Nat) (k : Kept) : Bool := k.addr == r.addr && k.rid == r.rid && k.typ == typ && k.mcrc == r.mcrc

/-- The request is kept from its arrival on, among the last 64. Log entry 69 (DEDUCED). -/
def keep (r : Req) (typ : Nat) (d : Dev) : Dev :=
  d.onNt fun n =>
    let l := n.kept.filter (fun k => !keptIs r typ k) ++ [⟨r.addr, r.rid, typ, r.mcrc, r.rx.stamp, [], []⟩]
    { n with kept := l.drop (l.length - 64) }

/-- The kept request of which `r` is a duplicate: it came at most 1 s before (R412). -/
def keptOf (r : Req) (typ : Nat) (d : Dev) : Option Kept :=
  d.nt.kept.find? fun k => keptIs r typ k && decide (r.rx.stamp ≤ k.at_ + 10 ^ 9)

/-- Change the kept request of `r`. -/
def onKept (r : Req) (typ : Nat) (f : Kept → Kept) (d : Dev) : Dev :=
  d.onNt fun n => { n with kept := n.kept.map fun k => if keptIs r typ k then f k else k }

/-- The requests that an answer goes to: its own, and the duplicates that wait for it (R412). -/
def answerTo (r : Req) (typ : Nat) (d : Dev) : List Req := match d.nt.kept.find? (keptIs r typ) with
  | some k => r :: k.dups
  | none => [r]

/-- An answer leaves on the port of its request, to the requester, and is kept; each duplicate gets it on its own port (R412). -/
def answer (r : Req) (typ status : Nat) (body : List Byte) (d : Dev) : Dev :=
  let m := smpMsg typ status 1 r.rid.toNat 0 body
  (answerTo r typ d).foldl (fun d r => sendUdp r.port.val r.addr r.udp.toNat m d)
    (onKept r typ (fun k => { k with answers := k.answers ++ [m] }) d)

/-- R_a of R346. -/
def retryAfter (d : Dev) : Nat := min 255 (1 + ceilDiv d.nt.smpQ.length 16)

/-- BUSY, counted. -/
def answerBusy (r : Req) (typ : Nat) (d : Dev) : Dev :=
  answer r typ stBUSY (bytesBE 1 (retryAfter d)) (d.bump NT_CNT0_BUSYCNT)

/-- The same message. -/
def busyMsg (r : Req) (typ : Nat) (d : Dev) : List Byte := smpMsg typ stBUSY 1 r.rid.toNat 0 (bytesBE 1 (retryAfter d))

/-- A datagram is discarded (R408, R410). -/
def dgBad (d : Dev) : Dev := (d.bump NT_CNT0_DGBADCNT).raise NT_EVT_DGBAD .notice

/-- The peer bit that a type needs (Table 17.5): 1 CTL, 2 MNT; other types need only an enabled peer. -/
def peerBit (typ : Nat) : Nat := if 1 ≤ typ ∧ typ ≤ 5 then 1 else if 0x10 ≤ typ ∧ typ ≤ 0x16 then 2 else 0

/-- The sender is an enabled peer that may send the type. -/
def permitted (a : Nat) (typ : Nat) (d : Dev) : Bool :=
  match peerAt a d with
  | some h => d.bit NT_PEERCFG_PEER (4 * h + peerBit typ)
  | none => false

/-- The queue length shown. -/
def showQueue (d : Dev) : Dev := d.put NT_STAT_QLEN d.nt.smpQ.length

/-- The common part of the request in a payload. Log entry 76 (DESIGN CHOICE). -/
def payloadReq (x : Fin 2) (sender : Sender) (udp : BitVec 16) (p : List Byte) : Req :=
  ⟨x, sender.addr, udp, BitVec.ofNat 32 (fieldBE p 8 4), BitVec.ofNat 32 (fieldBE p (p.length - 4) 4), sender.rx⟩

/-- The request of a command, with its message type (Table 17.5). -/
def reqOf : Instr → Option (Nat × Req)
  | .setpt r .. => some (tySETPT, r)
  | .cmdCharge r _ | .cmdStop r _ | .cmdDeblock r .. | .cmdBlock r .. => some (tyCMD, r)
  | .tread r _ => some (tyTREAD, r)
  | .tsub r .. => some (tyTSUB, r)
  | .tunsub r _ => some (tyTUNSUB, r)
  | .mopen r _ => some (tyMOPEN, r)
  | .mauth r _ => some (tyMAUTH, r)
  | .mread r .. => some (tyMREAD, r)
  | .mwrite r .. => some (tyMWRITE, r)
  | .iopen r .. => some (tyIOPEN, r)
  | .idata r .. => some (tyIDATA, r)
  | .mclose r _ => some (tyMCLOSE, r)
  | .smpInvalidDatagram x sender udp p => some (fieldBE p 3 1, payloadReq x sender udp p)
  | _ => none

/-- A request that waits has come before `r`, or with it on a port that goes first (R412). -/
def comesFirst (r : Req) (i : Instr) : Bool := match reqOf i with
  | some (_, x) => decide (x.rx.stamp < r.rx.stamp) || (x.rx.stamp == r.rx.stamp && decide (x.port.val ≤ r.port.val))
  | none => true

/-- A request takes its place in the queue, in the order of the arrival stamps (R412). -/
def enqueue (r : Req) (i : Instr) (d : Dev) : Dev :=
  showQueue (d.onNt fun n => { n with smpQ := n.smpQ.takeWhile (comesFirst r) ++ [i] ++ n.smpQ.dropWhile (comesFirst r) })

/-- The answers kept for a request go to a duplicate of it. -/
def answerAgain (r : Req) (k : Kept) (d : Dev) : Dev := k.answers.foldl (fun d m => sendUdp r.port.val r.addr r.udp.toNat m d) d

/-- The length of the payload that the fields of a command stand for; a body without variable parts is far below the limit of Table 17.2. -/
def payloadLen : Instr → Nat
  | .tread _ rs => 24 + 8 * rs.length
  | .tsub _ _ _ rs _ => 28 + 8 * rs.length
  | .mwrite _ _ _ ws => 100 + 4 * ws.length
  | .idata _ _ _ _ data => 36 + data.length
  | .smpInvalidDatagram _ _ _ p => p.length
  | _ => 100

/-- A datagram that the ports take up: from the subnet of a port that is up, within 1,400 bytes (R404, R405, R407).
Log entries 68 (DEDUCED), 80 (DEDUCED). -/
def taken (r : Req) (n : Nat) (d : Dev) : Bool :=
  d.released && netUp r.port.val d && udpOk r.port.val r.rx d && onSubnet r.port.val r.addr.toNat d && decide (n ≤ 1400)

/-- A request arrives: the sender is tested (R408); a duplicate gets the answer of its request, or waits for it (R412); any other is kept,
and carried out, or it waits in the queue of R346 while SUP1 does not run. Log entry 69 (DEDUCED). -/
def smpArrive (typ : Nat) (r : Req) (i : Instr) (f : State → State) (s : State) : State :=
  let d := s.dev
  if ¬ taken r (payloadLen i) d then s
  else if ¬ permitted r.addr.toNat typ d then { s with dev := dgBad d }
  else
    let room := decide (d.nt.smpQ.length < 64)
    match keptOf r typ d with
    | some k =>
      if k.answers.isEmpty then { s with dev := onKept r typ (fun k => { k with dups := k.dups ++ [r] }) d }
      else if supRuns 1 d then { s with dev := answerAgain r k d }
      else if room then { s with dev := enqueue r i d }
      else { s with dev := answerAgain r { k with answers := [busyMsg r typ d] } (d.bump NT_CNT0_BUSYCNT) }
    | none =>
      let d := keep r typ d
      if supRuns 1 d then f { s with dev := d }
      else if room then { s with dev := enqueue r i d }
      else { s with dev := answerBusy r typ d }

/-! ## Messages the device originates (R413) -/

/-- A message of the device to some destinations (address, UDP port), with the next DSEQ; a port serves the destinations on its
subnet. Log entry 68 (DEDUCED). -/
def originate (typ : Nat) (body : List Byte) (dests : List (BitVec 128 × Nat)) (d : Dev) : Dev :=
  let m := smpMsg typ 0 (if d.flag NT_SMPCFG_DUP then 2 else 0) 0 d.nt.dseq body
  let d := d.onNt fun n => { n with dseq := (n.dseq + 1) % 2 ^ 32 }
  (outPorts d).foldl (fun d x => dests.foldl (fun d p =>
    if onSubnet x p.1.toNat d then sendUdp x p.1 p.2 m d else d) d) d

/-- The 16 bytes of an event (R420); a gap entry carries its number of losses. -/
def eventBytes (e : EvEntry) : List Byte :=
  bytesBE 4 e.addr ++ (if e.addr = 0xFFFFFFFF then bytesBE 2 e.bit else bytesBE 1 e.bit ++ bytesBE 1 e.cls) ++ timeBytes e.stamp

/-- Once space has returned the gap entry joins the queue, then the event of EVOVF (R420). Log entry 65 (DEDUCED). -/
def eventGap (d : Dev) : Dev :=
  if d.fc.evLost = 0 ∨ evCap ≤ d.fc.evq.length + 1 then d
  else
    let gap : EvEntry := ⟨0xFFFFFFFF, min d.fc.evLost 0xFFFF, 0, d.fc.evLostAt⟩
    let ovf : List EvEntry := if d.fc.evOvf then [⟨NT_EVT, 3, 0, d.fc.evLostAt⟩] else []
    { d with fc := { d.fc with evq := d.fc.evq ++ [gap] ++ ovf, evLost := 0, evOvf := false } }

/-- EVENT_MESSAGE_SEND: up to 32 events in queue order, once there are 32 or 1.0 ms after the first of them entered (R420). Log
entry 65 (DEDUCED). -/
def eventSend (d : Dev) : Dev :=
  if d.fc.evq.isEmpty ∨ d.mode = modeSTOP ∨ d.mode = modeLOAD ∨ ¬ eventsLeave d then d
  else
    let es := d.fc.evq.take 32
    let body := bytesBE 1 es.length ++ bytesBE 3 0 ++ es.flatMap eventBytes
    eventGap (originate tyEVENT body (evtPeers d) { d with fc := { d.fc with evq := d.fc.evq.drop 32 } })

/-- The 40 bytes of a STATUS body (R421). -/
def statusBody (d : Dev) : List Byte :=
  bytesBE 1 d.mode ++
  bytesBE 1 (d.get GL_MODE_PEND + 2 * d.get GL_MODE_PKIND + 4 * d.get GL_SUSTAT_CHGTO + 8 * d.get FB_TCMIN_PENDV +
    16 * d.get TM_STAT_TODV) ++
  bytesBE 1 (d.get GL_TCCFG_TCEFF) ++ bytesBE 1 (d.get FB_TCMIN_MIN) ++ bytesBE 1 (d.get FB_TCMIN_PEND) ++
  bytesBE 1 (d.get TM_STAT_STATE) ++ bytesBE 1 (fcSum d) ++ bytesBE 1 d.role ++
  (List.range 8).flatMap (fun g => bytesBE 1 (d.rgState g + 8 * d.get (RG_STAT_ENERG g) + 16 * d.get (GL_SURDY_RDY g))) ++
  bytesBE 4 (d.get GL_IMGSEQ_SEQ) ++ bytesBE 4 d.j32 ++ timeBytes d.nowNs ++ bytesBE 1 (d.get FB_VDD_TARGET) ++
  bytesBE 1 (d.get FB_LADDER_STEP) ++ bytesBE 4 (d.get GL_FWVER_FWVER)

/-- STATUS_SEND: device status telemetry, a duty of SUP2 that leaves through SUP1 (Table 14.1, R421).
Log entry 70 (DEDUCED). -/
def statusSend (d : Dev) : Dev :=
  if d.live ∧ supRuns 1 d ∧ supRuns 2 d ∧ evtWay d then originate tySTATUS (statusBody d) (evtPeers d) d else d

/-! ## Telemetry (R417-R419) -/

/-- Ranges as numbers. -/
def rangesOf (rs : List PointRange) : List (Nat × Nat) := rs.map fun x => (x.first.toNat, x.count.toNat)

/-- Points of a list of ranges. -/
def pointsIn (rs : List (Nat × Nat)) : Nat := rs.foldl (fun a x => a + x.2) 0

/-- The ranges of a request are as R417 asks. -/
def rangesFit (rs : List (Nat × Nat)) : Bool :=
  decide (1 ≤ rs.length) && decide (rs.length ≤ 64) && decide (pointsIn rs ≤ 1024) &&
    rs.all fun x => decide (1 ≤ x.2) && decide (x.2 ≤ 1024) && decide (x.1 + x.2 ≤ 2 ^ 20)

/-- The values of all ranges. -/
def pointValues (rs : List (Nat × Nat)) (d : Dev) : List Word :=
  rs.flatMap fun x => (List.range x.2).map fun k => pointWord (x.1 + k) d

/-- Parts of up to 256 values. -/
def partsOf (vs : List Word) : List (List Word) :=
  (List.range (ceilDiv vs.length 256)).map fun k => (vs.drop (256 * k)).take 256

/-- Values as bytes. -/
def wordBytes (ws : List Word) : List Byte := ws.flatMap fun w => bytesBE 4 w.toNat

/-- The body of part `k` of `n` of a read taken at the boundary `b` (ticks) of period `j` (R417). -/
def readPart (k n j b : Nat) (vs : List Word) : List Byte :=
  bytesBE 1 k ++ bytesBE 1 n ++ bytesBE 2 vs.length ++ bytesBE 4 j ++ timeBytes (2 * b) ++ bytesBE 2 0 ++ wordBytes vs

/-- The body of part `k` of `n` of a delivery (R418). -/
def delivPart (subid k n j b : Nat) (vs : List Word) : List Byte :=
  bytesBE 1 subid ++ bytesBE 1 k ++ bytesBE 1 n ++ bytesBE 1 0 ++ bytesBE 2 vs.length ++ bytesBE 4 j ++ timeBytes (2 * b) ++
    wordBytes vs

/-- The answers of a telemetry read. -/
def treadAnswer (j b : Nat) (d : Dev) (x : Req × List (Nat × Nat)) : Dev :=
  let ps := partsOf (pointValues x.2 d)
  (ps.zip (List.range ps.length)).foldl (fun d p => answer x.1 tyTREAD stOK (readPart p.2 ps.length j b p.1) d) d

/-- A subscription at the boundary `b` (ticks) of period `j`: this is the boundary of every delivery that falls due by now, and the last
of them is read, where SUP2 runs; one not yet sent is skipped (R343, R418). Log entry 70 (DEDUCED). -/
def subRead (j b : Nat) (d : Dev) (x : Sub) : Sub :=
  if x.tacc + x.m * x.intv * 1000000 ≤ 2 * b then
    { x with
      due := if supRuns 2 d then some (j, b, pointValues x.ranges d) else none
      m := (2 * b - x.tacc) / (x.intv * 1000000) + 1 }
  else x

/-- What reads the points as they stood at a boundary, before its own updates (R417, R418): SUP2 does both, and answers leave through
SUP1, so that reads wait while one of them does not run (R343, R344). Log entry 70 (DEDUCED). -/
def smpBoundary (j b : Nat) (d : Dev) : Dev :=
  let reads := d.nt.treads
  let d := d.onNt fun n => { n with subs := n.subs.map (subRead j b d) }
  if supRuns 1 d ∧ supRuns 2 d then reads.foldl (treadAnswer j b) (d.onNt fun n => { n with treads := [] }) else d

/-- SUBSCRIPTION_DELIVERY: the delivery that has been read leaves, or is skipped (R418). Log entry 70 (DEDUCED). -/
def subDeliver (id : Nat) (inTime : Bool) (d : Dev) : Dev :=
  match d.nt.subs.find? fun x => x.id == id with
  | none => d
  | some x => match x.due with
    | none => d
    | some (j, b, vs) =>
      let d := d.onNt fun n => { n with subs := n.subs.map fun y => if y.id = id then { y with due := none } else y }
      if ¬ inTime ∨ ¬ supRuns 1 d ∨ ¬ supRuns 2 d then d
      else
        let ps := partsOf vs
        (ps.zip (List.range ps.length)).foldl (fun d p =>
          originate tyTDELIV (delivPart id p.2 ps.length j b p.1) [(x.addr, x.udp)] d) d

/-- Subscriptions shown. -/
def showSubs (d : Dev) : Dev := d.put NT_STAT_NSUB d.nt.subs.length

/-- The rate of all subscriptions stays within 2,000,000 points per second (R419), in exact arithmetic. -/
def rateOk (l : List (Nat × Nat)) : Bool :=
  let r := l.foldl (fun (a : Nat × Nat) x => (a.1 * x.2 + x.1 * 1000 * a.2, a.2 * x.2)) (0, 1)
  decide (r.1 ≤ 2000000 * r.2)

/-- TREAD: the read waits for the next boundary. Log entry 70 (DEDUCED). -/
def treadDo (r : Req) (rs : List (Nat × Nat)) (s : State) : State :=
  let d := s.dev
  if rangesFit rs then { s with dev := d.onNt fun n => { n with treads := n.treads ++ [(r, rs)] } }
  else { s with dev := answer r tyTREAD stBADMSG [] d }

/-- A subscription is that of the sender of `r`. -/
def ownsSub (r : Req) (x : Sub) : Bool := x.addr == r.addr && x.udp == r.udp.toNat

/-- TSUB (R418, R419). Log entry 70 (DEDUCED). -/
def tsubDo (r : Req) (id intv : Nat) (rs : List (Nat × Nat)) (s : State) : State :=
  let d := s.dev
  let say := fun (st : Nat) (d : Dev) => { s with dev := answer r tyTSUB st [] d }
  if 31 < id ∨ intv = 0 ∨ 60000 < intv ∨ ¬ rangesFit rs then say stBADMSG d
  else if d.nt.subs.any fun x => x.id == id && !ownsSub r x then say stSTATE d
  else
    let old := d.nt.subs.find? fun x => x.id == id
    let others := d.nt.subs.filter fun x => x.id != id
    if ¬ rateOk ((pointsIn rs, intv) :: others.map fun x => (pointsIn x.ranges, x.intv)) then say stREFUSED d
    else
      let due := old.bind fun x => x.due
      let new : Sub := ⟨id, r.port.val, r.addr, r.udp.toNat, intv, rs, d.nowNs, 1, due⟩
      say stOK (showSubs (d.onNt fun n => { n with subs := others ++ [new] }))

/-- TUNSUB (R419). Log entry 70 (DEDUCED). -/
def tunsubDo (r : Req) (id : Nat) (s : State) : State :=
  let d := s.dev
  let say := fun (st : Nat) (d : Dev) => { s with dev := answer r tyTUNSUB st [] d }
  if 31 < id then say stBADMSG d
  else if d.nt.subs.any fun x => x.id == id && ownsSub r x then
    say stOK (showSubs (d.onNt fun n => { n with subs := n.subs.filter fun x => x.id != id }))
  else say stSTATE d

/-! ## Setpoints (R210, R211, R351, R415) -/

/-- The period for which a setpoint accepted now becomes the target, and its case (R211). With commit points that differ the
earliest of the assigned regions decides. Log entry 46 (DEDUCED). -/
def setptCase (ja : Nat) (d : Dev) : Nat × Nat :=
  let k := d.tm.jAbs
  let ahead := toS 32 ((ja + 2 ^ 32 - d.j32) % 2 ^ 32)
  let gs := (List.range 8).filter fun g => d.assigned g
  let cp := gs.foldl (fun m g => min m (planTick (d.get (RG_MODCFG1_CP g)) d)) (planTick (d.get (RG_MODCFG1_CP (gs.headD 0))) d)
  if 1 < ahead then (k + ahead.toNat, 1)
  else if ahead = 1 ∧ d.nowTick < d.posBase + cp then (k + 1, 2)
  else (k + 2, 3)

/-- The body of a SETPT answer. -/
def setptBody (jused : Nat) (d : Dev) : List Byte := bytesBE 4 jused ++ timeBytes d.nowNs ++ bytesBE 2 0

/-- Stage a setpoint in one region. -/
def stageIn_ (t ramp : Nat) (value : Int) (per case_ : Nat) (d : Dev) (g : Nat) : Dev :=
  let r := d.region g
  let d := d.setRegionSt g { r with
    staged := r.staged ++ [⟨t, value, per, ramp, r.stagedOrd⟩], stagedOrd := r.stagedOrd + 1, cSetpt := r.cSetpt || case_ == 2 }
  let d := d.put (RG_SPQ_DEPTH g) (d.region g).staged.length
  if case_ = 3 then d.raise (RG_LAWSTAT_SPLATE g) .notice else d

/-- SETPT. -/
def setptDo (r : Req) (t ramp : Nat) (w : Word) (ja tk : Nat) (s : State) : State :=
  let d := s.dev.at_ tk
  let value := refVal t w.toNat
  if 3 < t then { s with dev := answer r tySETPT stBADMSG [] d }
  else if value < refVal t (d.get (SV_REFMIN_MIN t)) ∨ refVal t (d.get (SV_REFMAX_MAX t)) < value ∨
      d.get (SV_RAMPMAX_RAMP t) < ramp then
    { s with dev := answer r tySETPT stREFUSED (setptBody 0 d) (d.refuse .smps) }
  else
    let gs := (List.range 8).filter fun g => d.assigned g
    if gs.any fun g => decide (8 ≤ (d.region g).staged.length) then { s with dev := answerBusy r tySETPT d }
    else
      let c := setptCase ja d
      let d := gs.foldl (stageIn_ t ramp value c.1 c.2) d
      { s with dev := answer r tySETPT stOK (setptBody (c.1 % 2 ^ 32) d) d }

/-! ## Commands (R387, R396, R399, R416) -/

/-- The body of a CMD answer. Log entry 33 (DEDUCED). -/
def cmdBody (jeff acc reason : Nat) : List Byte := bytesBE 4 jeff ++ bytesBE 1 acc ++ bytesBE 1 reason ++ bytesBE 2 0

/-- The answer of a command. -/
def cmdAnswer (r : Req) (jeff acc reason : Nat) (d : Dev) : Dev :=
  answer r tyCMD (if reason = 0 then stOK else stSTATE) (cmdBody (jeff % 2 ^ 32) acc reason) d

/-- The reason that refuses a charge command (R387), 0 if none. Log entry 33 (DEDUCED). -/
def chargeReason (d : Dev) : Nat :=
  if d.mode ≠ modeIDLE then 1
  else if devProt d then 2
  else if d.get TM_STAT_STATE ≠ svLOCKED ∧ ¬ d.flag TM_CFG_FREERUN then 3
  else if d.flag GL_MODE_PEND then 4
  else if d.paired ∧ (d.flag GL_TWEVT_IMGDIF ∨ (d.flag GL_TWCFG_END ∧ ¬ (3 ≤ d.tw.mode ∧ d.tw.mode ≤ 5))) then 5
  else 0

/-- A charge command (R387, R388). -/
def chargeDo (r : Req) (tk : Nat) (s : State) : State :=
  let d := s.dev.at_ tk
  let x := chargeReason d
  if x ≠ 0 then { s with dev := cmdAnswer r 0 0 x d }
  else
    let b := d.tm.jAbs + 2
    let d := ({ d with su := { d.su with chargeAt := some b } }.put GL_MODE_PEND 1).put GL_MODE_PKIND 0
    { s with dev := cmdAnswer r b 0 0 d }

/-- The reason that refuses a stop command (R399), 0 if none. Log entry 33 (DEDUCED). -/
def stopReason (d : Dev) : Nat :=
  if ¬ (d.mode = modeCHARGE ∨ d.mode = modeRUN) then 1
  else if regionMask rgRUN d ≠ 0 then 8
  else if ¬ d.su.deblock.isEmpty ∨ d.flag GL_MODE_PEND then 4
  else 0

/-- A stop command (R399). -/
def stopDo (r : Req) (tk : Nat) (s : State) : State :=
  let d := s.dev.at_ tk
  let x := stopReason d
  if x ≠ 0 then { s with dev := cmdAnswer r 0 0 x d }
  else
    let b := d.tm.jAbs + 2
    let d := ({ d with su := { d.su with stopAt := some b } }.put GL_MODE_PEND 1).put GL_MODE_PKIND 1
    { s with dev := cmdAnswer r b 0 0 d }

/-- The reason that refuses a deblock of one region (R396, R397), 0 if none. Log entries 31 (DEDUCED), 33 (DEDUCED). -/
def deblockReason (all : Bool) (d : Dev) (g : Nat) : Nat :=
  let st := d.rgState g
  if st = rgREADY then (if d.flag (RG_MODCTL_HALT g) then 7 else if d.mode = modeRUN ∨ all then 0 else 6)
  else if st ≠ rgBLOCK then 6
  else if regionProt g d then 2
  else if d.flag (RG_MODCTL_HALT g) ∨ ¬ step3Sent g d then 7
  else if d.mode = modeRUN ∧ ¬ d.flag (GL_SURDY_RDY g) then 6
  else 0

/-- A deblock command, decided for each region; JEFF is the next period in every case (R396, R397, R416). Log entry 33 (DEDUCED). -/
def deblockDo (r : Req) (mask tk : Nat) (s : State) : State :=
  let d := s.dev.at_ tk
  if d.su.stopAt.isSome then { s with dev := cmdAnswer r (d.tm.jAbs + 1) 0 4 d }
  else if ¬ d.converting then { s with dev := cmdAnswer r (d.tm.jAbs + 1) 0 1 d }
  else
    let all := allReady d
    let gs := maskRegions mask
    let acc := gs.filter fun g => deblockReason all d g == 0
    let reason := ((gs.map (deblockReason all d)).find? fun x => x != 0).getD 0
    let k := d.tm.jAbs + 1
    let new := acc.map fun g => ((if d.rgState g = rgREADY then g else g + 8), k)
    let d := { d with su := { d.su with deblock := d.su.deblock ++ new } }
    { s with dev := cmdAnswer r k (acc.foldl setBit 0) reason d }

/-- A block command: a region-scope override stamped at acceptance (R395). -/
def blockDo (r : Req) (mask tk : Nat) (s : State) : State :=
  let d := s.dev.at_ tk
  let gs := (maskRegions mask).filter fun g => d.rgState g == rgCHARGE || d.rgState g == rgREADY || d.rgState g == rgRUN
  let jeff := if gs.isEmpty then d.tm.jAbs + 1 else ovrT0 (advsOf gs d) d.nowTick d
  { s with dev := cmdAnswer r jeff mask 0 (blockScope gs d.nowTick d) }

end Sys2Proof.Machine
end

