-- ==== Sys2Proof/Machine/Smp.lean ====
section
/-! DEFINITION. Remote maintenance over SMP: sessions and signatures (R422, R423), reads and writes (R424), the image transfer
(R378, R425, R426); the supervisors' watchdogs and waits (R343, R344); and invalid datagrams (R408, R410). -/

namespace Sys2Proof.Machine

/-! ## Sessions (R422, R423) -/

/-- The session shown. -/
def showSess (d : Dev) : Dev :=
  d.put NT_STAT_SESS (match d.nt.sess with
    | none => 0
    | some x => if x.auth then 2 else 1)

/-- A transfer that has not received its last byte closes with its session (R425); requests that wait get STATE (R344).
Log entry 71 (DEDUCED). -/
def xferClose (d : Dev) : Dev :=
  match d.nt.xfer with
  | none => d
  | some x =>
    if x.hdrOk ∧ x.imgLen ≤ x.data.length then d
    else
      let d := (d.onNt fun n => { n with xfer := none }).put GL_IMGWR_STATE 0
      x.waiting.foldl (fun d w => answer w.1 tyIDATA stSTATE (bytesBE 4 x.data.length) d) d

/-- Entry to STOP ends a transfer at once (R379). Log entry 71 (DEDUCED). -/
def xferStop (d : Dev) : Dev :=
  match d.nt.xfer with
  | none => d
  | some _ => (d.onNt fun n => { n with xfer := none }).put GL_IMGWR_STATE 0

/-- The session ends. -/
def sessEnd (d : Dev) : Dev := xferClose (showSess (d.onNt fun n => { n with sess := none, sessDue := false }))

/-- The session times out: SUP1, whose duty it is, ends it when it runs (Table 14.1, R343, R422). -/
def sessTimeout (d : Dev) : Dev :=
  if d.nt.sess.isNone then d
  else if supRuns 1 d then sessEnd d
  else d.onNt fun n => { n with sessDue := true }

/-- The session that a request belongs to, if SID and source match (R423). -/
def sessOf (r : Req) (sid : Nat) (d : Dev) : Option Session :=
  match d.nt.sess with
  | some x => if x.sid = sid ∧ x.addr = r.addr ∧ x.udp = r.udp.toNat then some x else none
  | none => none

/-- AUTHFAIL: counted; the eighth ends the session (R422, R423). -/
def authFail (r : Req) (typ : Nat) (d : Dev) : Dev :=
  let d := (d.bump NT_CNT1_AUTHFCNT).raise NT_EVT_AUTHF .notice
  let d := d.onNt fun n => { n with sess := n.sess.map fun x => { x with fails := x.fails + 1 } }
  let d := match d.nt.sess with
    | some x => if 8 ≤ x.fails then sessEnd d else d
    | none => d
  answer r typ stAUTHFAIL [] d

/-- MCNT lies above the last one accepted. -/
def cntOk (x : Session) (mcnt : Nat) : Bool := match x.lastCnt with
  | some c => decide (c < mcnt)
  | none => true

/-- The last counter accepted. -/
def cntTake (mcnt : Nat) (d : Dev) : Dev := d.onNt fun n => { n with sess := n.sess.map fun x => { x with lastCnt := some mcnt } }

/-- The signature of a signed body (R423): over challenge, header and the body up to the signature. -/
def sigOk (x : Session) (r : Req) (typ : Nat) (body : List Byte) (au : Auth) (d : Dev) : Bool :=
  let m := bytesBE 16 x.chal.toNat ++ smpHead typ (body.length + 64) 0 0 r.rid.toNat 0 ++ body
  ecdsaVerify (sha256 m) d.su.ownX d.su.ownY au.sigR au.sigS

/-- The prefix of a maintenance body. -/
def prefixBytes (sid mcnt : Nat) : List Byte := bytesBE 4 sid ++ bytesBE 4 mcnt

/-- An unsigned maintenance request in an authenticated session: session, then counter (R423). -/
def withSession (r : Req) (typ sid mcnt : Nat) (f : State → State) (s : State) : State :=
  let d := s.dev
  match sessOf r sid d with
  | some x =>
    if ¬ x.auth then { s with dev := answer r typ stNOSESSION [] d }
    else if ¬ cntOk x mcnt then { s with dev := authFail r typ d }
    else f { s with dev := cntTake mcnt d }
  | none => { s with dev := answer r typ stNOSESSION [] d }

/-- A signed maintenance request; `pending` says that a pending session serves as well (MAUTH). `body` is the body up to the
signature. -/
def withSigned (r : Req) (typ : Nat) (pending : Bool) (body : List Byte) (au : Auth) (f : State → State) (s : State) : State :=
  let d := s.dev
  match sessOf r au.sid.toNat d with
  | some x =>
    if ¬ x.auth ∧ ¬ pending then { s with dev := answer r typ stNOSESSION [] d }
    else if ¬ cntOk x au.mcnt.toNat ∨ ¬ sigOk x r typ body au d then { s with dev := authFail r typ d }
    else f { s with dev := cntTake au.mcnt.toNat d }
  | none => { s with dev := answer r typ stNOSESSION [] d }

/-- The prefix bytes of a signed body. -/
def authBytes (au : Auth) : List Byte := prefixBytes au.sid.toNat au.mcnt.toNat

/-- MOPEN. Log entry 16 (DESIGN CHOICE). -/
def mopenDo (r : Req) (chal : BitVec 128) (s : State) : State :=
  let d := s.dev
  let busy : Bool := (d.nt.sess.map fun x => x.auth) == some true
  if ¬ d.flag NT_MNTCFG_MEN ∨ busy = true ∨ d.mode = modeSTOP then { s with dev := answer r tyMOPEN stSTATE [] d }
  else
    let sid := Config.sessionId d.cyc d.nt.sessCnt % 2 ^ 32
    let d := d.onNt fun n => { n with
      sess := some ⟨sid, chal, r.addr, r.udp.toNat, false, none, 0⟩, sessCnt := n.sessCnt + 1 }
    { s with dev := answer r tyMOPEN stOK (bytesBE 4 sid ++ bytesBE 16 chal.toNat) (showSess d) }

/-- MAUTH. -/
def mauthDo (r : Req) (au : Auth) (s : State) : State :=
  withSigned r tyMAUTH true (authBytes au) au (fun s =>
    let d := showSess (s.dev.onNt fun n => { n with sess := n.sess.map fun x => { x with auth := true } })
    { s with dev := answer r tyMAUTH stOK [] d }) s

/-- MREAD. Log entry 71 (DEDUCED). -/
def mreadDo (r : Req) (sid mcnt addr nw : Nat) (s : State) : State :=
  if addr % 4 ≠ 0 ∨ nw = 0 ∨ 256 < nw ∨ 2 ^ 32 < addr + 4 * nw then { s with dev := answer r tyMREAD stBADMSG [] s.dev }
  else withSession r tyMREAD sid mcnt (fun s =>
    let x := readWords .smpm nw addr s
    { x.2 with dev := answer r tyMREAD stOK (wordBytes x.1) x.2.dev }) s

/-- MWRITE. Log entry 71 (DEDUCED). -/
def mwriteDo (r : Req) (au : Auth) (addr : Nat) (ws : List Word) (s : State) : State :=
  let nw := ws.length
  if addr % 4 ≠ 0 ∨ nw = 0 ∨ 64 < nw ∨ 2 ^ 32 < addr + 4 * nw then { s with dev := answer r tyMWRITE stBADMSG [] s.dev }
  else withSigned r tyMWRITE false (authBytes au ++ bytesBE 4 addr ++ bytesBE 2 nw ++ bytesBE 2 0 ++ wordBytes ws) au (fun s =>
    let x := writeRegs .smpm addr ws s.dev
    { s with dev := answer r tyMWRITE (if x.1 = nw then stOK else stREFUSED) (bytesBE 2 x.1) x.2 }) s

/-- MCLOSE. -/
def mcloseDo (r : Req) (au : Auth) (s : State) : State :=
  withSigned r tyMCLOSE false (authBytes au) au (fun s => { s with dev := answer r tyMCLOSE stOK [] (sessEnd s.dev) }) s

/-! ## Image transfer (R378, R425, R426) -/

/-- IOPEN: a transfer into the inactive bank; its erase starts, and its image area counts as erased from here on. Log entry 99 (DEDUCED). -/
def iopenDo (r : Req) (au : Auth) (sfdpOk : Bool) (density : Nat) (s : State) : State :=
  withSigned r tyIOPEN false (authBytes au) au (fun s =>
    let d := s.dev
    if ¬ d.flag NT_MNTCFG_IMGEN ∨ d.nt.xfer.isSome ∨ ¬ bankOk ⟨sfdpOk, density, []⟩ then
      { s with dev := answer r tyIOPEN stSTATE [] d }
    else
      let b := !d.flag GL_IMGSTAT_BANK
      let d := (d.onNt fun n => { n with xfer := some ⟨b, [], 0, false, density, sfdpOk, 0, [], false⟩ }).send (.imgErase b)
      let d := ((d.put GL_IMGWR_STATE 1).put GL_IMGWR_CAUSE 0).put GL_IMGWR_PROG 0
      { s with dev := answer r tyIOPEN stOK (bytesBE 1 (b2n b)) d, flash := imgSet s.flash b [] }) s

/-- Change the open transfer. -/
def onXfer (f : Xfer → Xfer) (d : Dev) : Dev := d.onNt fun n => { n with xfer := n.xfer.map f }

/-- The transfer of a bank ends as invalid with a cause: its first sector is erased, and requests that wait get STATE (R378 steps 2, 5). -/
def xferFail (x : Xfer) (cause : Nat) (s : State) : State :=
  let d := s.dev.send (.imgSectorErase x.bankB)
  let d := ((d.onNt fun n => { n with xfer := none }).put GL_IMGWR_STATE 5).put GL_IMGWR_CAUSE cause
  { s with
    dev := x.waiting.foldl (fun d w => answer w.1 tyIDATA stSTATE (bytesBE 4 x.data.length) d) d
    flash := imgSet s.flash x.bankB (imgSector (imgOf s.flash x.bankB)) }

/-- The header is complete: checks 2 to 6, and SEQ above that of the running image (R378 step 2). -/
def xferHeader (s : State) : State :=
  let d := s.dev
  match d.nt.xfer with
  | none => s
  | some x =>
    if x.hdrOk ∨ x.data.length < 128 then s
    else
      let h := x.data.take 128
      let c := headCause h x.density
      let c := if c ≠ 0 then c else if ¬ keyOk d.su.keys h then 4 else if imgSeq h ≤ d.get GL_IMGSEQ_SEQ then 5 else 0
      if c ≠ 0 then xferFail x c s
      else { s with dev := onXfer (fun x => { x with hdrOk := true, imgLen := imgLen h }) d }

/-- Data at NEXT: taken for programming, answered when programmed (R426). -/
def idataNext (r : Req) (data : List Byte) (s : State) : State :=
  xferHeader { s with dev := onXfer (fun x => { x with
    data := x.data ++ data, waiting := x.waiting ++ [(r, x.data.length + data.length)] }) s.dev }

/-- IDATA. Log entry 71 (DEDUCED). -/
def idataDo (r : Req) (sid mcnt offset : Nat) (data : List Byte) (s : State) : State :=
  let n := data.length
  if n = 0 ∨ 1024 < n then { s with dev := answer r tyIDATA stBADMSG [] s.dev }
  else withSession r tyIDATA sid mcnt (fun s =>
    let d := s.dev
    let say := fun (st : Nat) (body : List Byte) => { s with dev := answer r tyIDATA st body d }
    match d.nt.xfer with
    | none => say stSTATE (bytesBE 4 0)
    | some x =>
      let next := x.data.length
      if d.get GL_IMGWR_STATE = 1 then say stNOTREADY []
      else if offset + n ≤ next then say stOK (bytesBE 4 next)
      else if offset ≠ next then say stORDER (bytesBE 4 next)
      else
        let h := if x.hdrOk then x.imgLen else if 128 ≤ next + n then imgLen ((x.data ++ data).take 128) else 0
        let fits := if x.hdrOk then decide (next + n ≤ x.imgLen) else true
        if ¬ fits ∨ (n % 4 ≠ 0 ∧ next + n ≠ h) then say stBADMSG []
        else idataNext r data s) s

/-- The image data requests whose pages have been programmed are answered, while SUP1 runs (R343, R426). -/
def idataReady (d : Dev) : Dev :=
  match d.nt.xfer with
  | none => d
  | some x =>
    if ¬ supRuns 1 d then d
    else
      let ready := x.waiting.filter fun w => decide (w.2 ≤ x.prog)
      ready.foldl (fun d w => answer w.1 tyIDATA stOK (bytesBE 4 w.2) d)
        (onXfer (fun x => { x with waiting := x.waiting.filter fun w => decide (x.prog < w.2) }) d)

/-- The end of the page that is being programmed. -/
def pageEnd (x : Xfer) : Nat := min x.data.length ((x.prog / 256 + 1) * 256)

/-- SUP1 takes note of an erase or of a page that has completed: receiving begins; answers up to the page leave, and the last page
starts the verification (R343, R378, R426). -/
def xferGo (d : Dev) : Dev :=
  match d.nt.xfer with
  | none => d
  | some x =>
    if ¬ x.late ∨ ¬ supRuns 1 d then d
    else
      let d := onXfer (fun x => { x with late := false }) d
      if d.get GL_IMGWR_STATE = 1 then d.put GL_IMGWR_STATE 2
      else
        let p := pageEnd x
        let d := idataReady ((onXfer (fun x => { x with prog := p }) d).put GL_IMGWR_PROG (p / 256))
        if x.hdrOk ∧ x.imgLen ≤ p then d.put GL_IMGWR_STATE 3 else d

/-- IMAGE_ERASE_DONE: receiving begins. -/
def imageErased (d : Dev) : Dev :=
  if d.nt.xfer.isSome ∧ d.get GL_IMGWR_STATE = 1 then xferGo (onXfer (fun x => { x with late := true }) d) else d

/-- PAGE_PROGRAM_DONE of a page of the bank under transfer; without SUP1 no further page follows it (R343, R378, R379, R426). -/
def pageDone (page : PageRx) (erase : Bool) (s : State) : State :=
  let d := s.dev
  match d.nt.xfer with
  | none => s
  | some x =>
    if erase ∨ x.bankB ≠ page.bankB ∨ d.get GL_IMGWR_STATE ≠ 2 ∨ x.data.length ≤ x.prog ∨ x.late then s
    else
      let bs := slice x.data x.prog (pageEnd x - x.prog)
      { s with
        dev := xferGo (onXfer (fun x => { x with late := true }) (d.send (.imgProgram x.bankB x.prog bs)))
        flash := imgSet s.flash x.bankB (imgPut (imgOf s.flash x.bankB) x.prog (page.back.getD bs)) }

/-- IMAGE_VERIFY_DONE: SUP1 has read the bank back and made every check of Table 15.7 on it; nothing is applied, and an image that
fails loses its first sector (R378 steps 4, 5, Table 14.1). -/
def imageVerified (s : State) : State :=
  let d := s.dev
  match d.nt.xfer with
  | none => s
  | some x =>
    if d.get GL_IMGWR_STATE ≠ 3 ∨ ¬ supRuns 1 d then s
    else
      let b : Bank := ⟨x.sfdpOk, x.density, imgOf s.flash x.bankB⟩
      let c := bankCause b
      let c := if c ≠ 0 then c else (bodyCheck d.su.keys b d).1
      if c = 0 then { s with dev := (d.onNt fun n => { n with xfer := none }).put GL_IMGWR_STATE 4 } else xferFail x c s

/-! ## The requests, each on arrival -/

/-- The parsing of a payload by R409 (MAGIC, VER, length, ANS, MCRC). -/
def payloadOk (p : List Byte) : Bool :=
  decide (20 ≤ p.length) && fieldBE p 0 2 == 0x534D && fieldBE p 2 1 == 1 && 20 + fieldBE p 4 2 == p.length &&
    fieldBE p 7 1 % 2 == 0 && crc32c (p.take (p.length - 4)) == fieldBE p (p.length - 4) 4

/-- The ranges of a body from an offset on. -/
def bodyRanges (b : List Byte) (off : Nat) : List (Nat × Nat) :=
  (List.range ((b.length - off) / 8)).map fun k => (fieldBE b (off + 8 * k) 4, fieldBE b (off + 8 * k + 4) 2)

/-- A body of a request type has the layout and the ranges of its type. Log entry 71 (DEDUCED). -/
def bodyFits (typ : Nat) (b : List Byte) : Bool :=
  let n := b.length
  let f := fieldBE b
  if typ = tySETPT then n == 12 && decide (f 0 1 ≤ 3)
  else if typ = tyCMD then n == 4 && decide (1 ≤ f 0 1) && decide (f 0 1 ≤ 4) && (decide (3 ≤ f 0 1) || f 1 1 == 0)
  else if typ = tyTREAD then n == 4 + 8 * f 0 2 && rangesFit (bodyRanges b 4)
  else if typ = tyTSUB then
    n == 8 + 8 * f 4 2 && decide (f 0 1 ≤ 31) && decide (1 ≤ f 2 2) && decide (f 2 2 ≤ 60000) && rangesFit (bodyRanges b 8)
  else if typ = tyTUNSUB then n == 4 && decide (f 0 1 ≤ 31)
  else if typ = tyMOPEN then n == 0
  else if typ = tyMAUTH ∨ typ = tyIOPEN ∨ typ = tyMCLOSE then n == 72
  else if typ = tyMREAD then n == 16 && f 8 4 % 4 == 0 && decide (1 ≤ f 12 2) && decide (f 12 2 ≤ 256)
  else if typ = tyMWRITE then n == 80 + 4 * f 12 2 && f 8 4 % 4 == 0 && decide (1 ≤ f 12 2) && decide (f 12 2 ≤ 64)
  else if typ = tyIDATA then n == 16 + f 12 2 && decide (1 ≤ f 12 2) && decide (f 12 2 ≤ 1024)
  else false

/-- One SMP request as SUP1 carries it out; a datagram that no request row stands for has a body that is none of its type: BADMSG (R410).
`live` says that it is taken as it arrives, so that its instant counts. Log entry 78 (DESIGN CHOICE). -/
def smpDo (live : Bool) (i : Instr) (s : State) : State :=
  let at_ := fun (tk : Nat) => if live then tk else 0
  match i with
  | .setpt r t ramp v ja tk => setptDo r t.toNat ramp.toNat v ja.toNat (at_ tk) s
  | .cmdCharge r tk => chargeDo r (at_ tk) s
  | .cmdStop r tk => stopDo r (at_ tk) s
  | .cmdDeblock r m tk => deblockDo r m.toNat (at_ tk) s
  | .cmdBlock r m tk => blockDo r m.toNat (at_ tk) s
  | .tread r rs => treadDo r (rangesOf rs) s
  | .tsub r id_ intv rs tk => tsubDo r id_.toNat intv.toNat (rangesOf rs) { s with dev := s.dev.at_ (at_ tk) }
  | .tunsub r id_ => tunsubDo r id_.toNat s
  | .mopen r c => mopenDo r c s
  | .mauth r au => mauthDo r au s
  | .mread r sid mcnt a nw => mreadDo r sid.toNat mcnt.toNat a.toNat nw.toNat s
  | .mwrite r au a ws => mwriteDo r au a.toNat ws s
  | .iopen r au ok dens => iopenDo r au ok dens s
  | .idata r sid mcnt o data => idataDo r sid.toNat mcnt.toNat o.toNat data s
  | .mclose r au => mcloseDo r au s
  | .smpInvalidDatagram x sender udp p => { s with dev := answer (payloadReq x sender udp p) (fieldBE p 3 1) stBADMSG [] s.dev }
  | _ => s

/-- A request of a type arrives. -/
def smpIn (typ : Nat) (r : Req) (i : Instr) (s : State) : State := smpArrive typ r i (smpDo true i) s

/-- SMP_INVALID_DATAGRAM: discarded and counted, or answered BADMSG (R408, R410); one that is whole in every part is a request of its own
row and does nothing here. Log entry 76 (DESIGN CHOICE). -/
def datagramIn (x : Fin 2) (sender : Sender) (udp : BitVec 16) (p : List Byte) (s : State) : State :=
  let r := payloadReq x sender udp p
  let typ := fieldBE p 3 1
  if ¬ taken r p.length s.dev then s
  else if (peerAt sender.addr.toNat s.dev).isNone ∨ ¬ payloadOk p then { s with dev := dgBad s.dev }
  else if bodyFits typ (slice p 16 (p.length - 20)) then s
  else smpIn typ r (.smpInvalidDatagram x sender udp p) s

/-! ## Supervisors (R343, R344) -/

/-- A supervisor's watchdog: it no longer runs until its restart is complete. Log entry 78 (DESIGN CHOICE). -/
def watchdog (sv : Nat) (d : Dev) : Dev :=
  if d.mode = modeLOAD ∨ d.mode = modeSTOP ∨ ¬ supRuns sv d then d
  else ((d.putBit SV_STAT_RUN sv false).bump SV_CNT_WDCNT).raiseBit SV_EVT_WDOG sv .protDev

/-- SUP1 takes a request that has waited: a duplicate whose answer has been formed gets it (R412), any other is carried out. -/
def smpQueued (i : Instr) (s : State) : State :=
  match (reqOf i).bind fun x => (keptOf x.2 x.1 s.dev).map fun k => (x.2, k) with
  | some (r, k) => if k.answers.isEmpty then smpDo false i s else { s with dev := answerAgain r k s.dev }
  | none => smpDo false i s

/-- SUP1 takes the requests that wait, one after the other; those behind it still count in the queue (R346). -/
def takeQueue : List Instr → State → State
  | [], s => s
  | i :: rest, s => takeQueue rest (smpQueued i { s with dev := showQueue (s.dev.onNt fun n => { n with smpQ := rest }) })

/-- SUP1 runs again: the session that has timed out ends, and the transfer goes on. -/
def smpResume (d : Dev) : Dev :=
  let d := if d.nt.sessDue then sessEnd d else d
  idataReady (xferGo d)

/-- A restart is complete: the supervisor runs and takes up what has come meanwhile; SUP1 takes the requests that waited, in their order.
Log entries 69 (DEDUCED), 78 (DESIGN CHOICE). -/
def restartDone (sv : Nat) (s : State) : State :=
  let d := s.dev
  if d.mode = modeLOAD ∨ d.mode = modeSTOP ∨ supRuns sv d then s
  else
    let q := d.nt.smpQ
    let d := d.putBit SV_STAT_RUN sv true
    if sv = 3 then { s with dev := avsResume d }
    else if sv ≠ 1 then { s with dev := d }
    else takeQueue q { s with dev := smpResume d }

/-- A wait of a task expires (R344): the request that waits longest for SUP1 or SUP2 is answered TIMEOUT; the other duties go on.
Log entry 78 (DESIGN CHOICE). -/
def waitExpired (sv : Nat) (d : Dev) : Dev :=
  if ¬ supRuns sv d ∨ ¬ supRuns 1 d then d
  else if sv = 1 then
    match d.nt.xfer with
    | some x => match x.waiting with
      | w :: ws => answer w.1 tyIDATA stTIMEOUT [] (onXfer (fun x => { x with waiting := ws }) d)
      | [] => d
    | none => d
  else if sv = 2 then
    match d.nt.treads with
    | x :: xs => answer x.1 tyTREAD stTIMEOUT [] (d.onNt fun n => { n with treads := xs })
    | [] => d
  else d

end Sys2Proof.Machine
end

