-- ==== Sys2Proof/Machine/Boundary.lean ====
section
/-! DEFINITION. The boundary of a control period (R273): everything that takes effect at it (spec/95_what_each_step_holds.md,
PERIOD_BOUNDARY), in one order. -/

namespace Sys2Proof.Machine

/-- The next period begins. -/
def advance (d : Dev) : Dev :=
  let b := d.nextB
  let d := d.until_ b
  { d with tm := { d.tm with bj := b, jAbs := d.tm.jAbs + 1, gapEnd := none, gapWas := d.tm.gapEnd.isSome } }

/-! ## Jumps of station time (R282) -/

/-- An entry that waits falls due at the present boundary. -/
def fallsDue (b : Option Nat) (d : Dev) : Bool := match b with
  | some b => decide (b ≤ d.tm.jAbs)
  | none => false

/-- The present boundary belongs to IDLE (R35, R282): the device is in IDLE and enters CHARGE at no earlier boundary than the next, or a
stop takes it to IDLE here. -/
def idleHere (d : Dev) : Bool :=
  (d.mode == modeIDLE && !fallsDue d.su.chargeAt d) ||
    ((d.mode == modeCHARGE || d.mode == modeRUN) && fallsDue d.su.stopAt d && !blockDue d)

/-- The boundaries that accepted commands and the build of frames wait for keep their distance where the periods are renumbered by `k`
(R280, R388, R399). -/
def renumberWaits (k : Int) (d : Dev) : Dev :=
  let d := { d with su := { d.su with
    idleAt := moveBy k d.su.idleAt, chargeAt := d.su.chargeAt.map (moveBy k), stopAt := d.su.stopAt.map (moveBy k)
    deblock := d.su.deblock.map fun (e : Nat × Nat) => (e.1, moveBy k e.2) } }
  (d.quires.map Prod.fst).foldl (fun d q => d.onQuire q fun x => { x with lastJ := moveBy k x.lastJ }) d

/-- A pending jump is taken at a boundary that belongs to IDLE (R282). -/
def jumpBoundary (d : Dev) : Dev :=
  let x := jumpApply (idleHere d) d
  if x.tm.jAbs = d.tm.jAbs then x
  else
    let k := (x.tm.jAbs : Int) - d.tm.jAbs
    renumberWaits k (renumber k ((x.tm.bj : Int) - d.tm.bj) x)

/-! ## Planning and law of a region start anew with the period -/

/-- What a channel has computed belongs to the period that ends. -/
def chanFresh (x : Chan) : Chan := { x with law := none, ra := none, rc := none, present := false, lawIn := none }

/-- The planning record of the period that begins is empty; the gatherings that have been used remain for one miss (R88). -/
def periodFresh (r : RegionSt) : RegionSt :=
  { r with
    lawIn := none, chA := chanFresh r.chA, chB := chanFresh r.chB, chC := chanFresh r.chC
    keys := [], gathPrev := r.gath, gath := [], gathLate := if r.gdlPast then r.gathLate else [], gathHold := false, regath := []
    rdlPast := false, gdlPast := false, pdlPast := false, rgdlPast := false, vdlPast := false, cpPast := false
    cCell := false, cSetpt := false, squash := none, sqCut := [], sqUsed := none, i1r := none, csgnNew := false
    voted := none, vLaw := none, vSat := false, vCsat := false, voteDone := false, recNow := none, tgtNow := 0 }

/-! ## Cells and measurement of a region -/

/-- The engines that are HEALTHY once the triggers of the period that ends have acted. -/
def healthyNext (n : Nat) (d : Dev) : Bool :=
  match engineNext (d.ceState n) (d.cell n) with
  | some x => x.1 == ceHEALTHY
  | none => d.ceState n == ceHEALTHY

/-- The energy state of a region and its freshness at the boundary (R195, R214). Log entry 42 (DEDUCED). -/
def energyBoundary (g : Nat) (d : Dev) : Dev :=
  let cs := (d.cellsOf g).filter fun n => healthyNext n d
  (d.put (RG_XARM_XA g) (energyState cs d)).onRegion g fun r => { r with
    meas := { r.meas with xFresh := energyFresh cs d } }

/-- Engines, diagnostics, energy state, ENERGISED and boundary current of a region at a boundary (R65, R67, R76, R194-R196,
R70). -/
def cellsBoundary (g : Nat) (d : Dev) : Dev :=
  let cs := d.cellsOf g
  let d := energyBoundary g (cs.foldl (fun d n => missCheck n d) d)
  let d := cs.foldl (fun d n => diagTake n (engineBoundary n d)) d
  let ia := (d.region g).ib0
  let ib := (d.region g).ib1
  let d := ibShift g (energised g d)
  let ic := (d.region g).ib1
  cs.foldl (fun d n => cellPeriod n ia ib ic d) d

/-- Everything of one region that precedes readiness. -/
def regionStart (g : Nat) (d : Dev) : Dev :=
  if ¬ d.assigned g then d
  else
    let d := cellsBoundary g d
    let d := if (d.region g).lawIn.isNone then lawStopped g d else d
    let d := (checkBreak g d).onRegion g periodFresh
    rsvBoundary g (blockBoundary g (haltBoundary g (chanBoundary g (applySetpoints g d))))

/-! ## Lanes and quires -/

/-- One lane at a boundary: values of D that waited, the exchange of the period, and calibration (R151, R152). -/
def laneBoundary (d : Dev) (l : Nat) : Dev := calPump l (tmxPeriod l (tmxApply l d))

/-- The budgets of all assigned quires (R179). -/
def quiresBoundary (d : Dev) : Dev :=
  foldN 64 (fun d q => if d.flag (QU_CFG_ASSIGNED q) then budgetBoundary q d else d) d

/-! ## Recorder refresh (R329) -/

/-- The change-only sources that are enabled and have a value: cells as n, inputs as 8192 + i. Log entry 67 (DEDUCED). -/
def refreshSources (d : Dev) : List Nat :=
  let gs := (List.range 8).filter fun g => d.assigned g && d.bit DR_SRCCFG_CELLRG g
  let cs := (gs.flatMap fun g => d.cellsOf g).filter fun n => d.ceState n != ceUNREG && d.ceState n != ceRETIRED
  let rec_ := fun i => if d.bit DR_AINWIN_WIN i then (d.ain i).wC else (d.ain i).pC
  cs ++ ((List.range 32).filter fun i => d.bit DR_AINSEL_SEL i && (rec_ i).isSome).map fun i => 8192 + i

/-- The refresh entry of one source. Log entry 67 (DEDUCED). -/
def refreshOne (d : Dev) (s : Nat) : Dev :=
  if s < 8192 then
    let raw := (List.range 4).foldl (fun a k => a + 2 ^ (32 * k) * d.get (CE_REP_REP s k)) 0
    d.source kCELLREP s (2 * d.tm.bj) raw false true
  else
    let i := s - 8192
    let win := d.bit DR_AINWIN_WIN i
    match if win then (d.ain i).wC else (d.ain i).pC with
    | some c => adRecord i win c.idx c (2 * d.tm.bj) true d
    | none => d

/-- In every period 64 refresh entries, the sources in turn (R329). -/
def refreshBoundary (d : Dev) : Dev :=
  if ¬ d.flag DR_CFG_EN then d
  else
    let ss := refreshSources d
    let k := ss.length
    if k = 0 then d
    else
      let p := d.dr.refPtr % k
      let d := foldN 64 (fun d i => refreshOne d (ss.getD ((p + i) % k) 0)) d
      { d with dr := { d.dr with refPtr := (p + 64) % k } }

/-! ## The boundary -/

/-- The device enters CHARGE at the present boundary (R388, R400). -/
def entersHere (d : Dev) : Bool := (d.mode == modeIDLE && fallsDue d.su.chargeAt d) || (d.mode == modeBLOCK && noProt d)

/-- The period that begins at the boundary now reached, and the time of that boundary: after a jump taken there, and a gap period where an
entry to CHARGE opens one (R274, R280, R417). -/
def periodBegins (d : Dev) : Nat × Nat :=
  let d := jumpBoundary (advance d)
  ((if entersHere d then chargePeriod d else d).tm.jAbs, d.tm.bj)

/-- PERIOD_BOUNDARY. The grid must have started and the timebase must run (R273, Table 10.3). -/
def periodBoundaryD (d : Dev) : Dev :=
  if ¬ d.live ∨ ¬ d.tm.grid ∨ d.tm.pllT.seq ≠ 3 then d
  else
    let b := periodBegins d
    let d := smpBoundary b.1 b.2 d
    let d := protBoundary (windowCount (eraNote (jumpBoundary (advance d))))
    let d := adBoundary d
    let d := foldN 8 (fun d g => regionStart g d) d
    let d := readiness (twinBoundary d)
    let d := foldN 8 (fun d g => regionBoundary g d) d
    let d := stopLapse (chgtoBoundary d)
    let d := quiresBoundary (reassignSlices (swapBoundary (foldN 130 laneBoundary d)))
    let d := statSend (arbBoundary d)
    refreshBoundary (injSpine (injUse (tripOutBoundary d)))

end Sys2Proof.Machine
end

