-- ==== Sys2Proof/Machine/Maint.lean ====
section
/-! DEFINITION. The maintenance port (R438-R444) and the JTAG port with the owner key slots (R446-R449). -/

namespace Sys2Proof.Machine

/-! ## Maintenance-port frames -/

/-- A CRC of the port: the CRC-32C of R223, most significant byte first. -/
def mpCrc (bs : List Byte) : List Byte := bytesBE 4 (crc32c bs)

/-- A rejected request: marker 0x3C, STATUS, CRC (R440). -/
def mpReject (status : Nat) : List Byte := [0x3C] ++ bytesBE 1 status ++ mpCrc (bytesBE 1 status)

/-- The response to an accepted READ. -/
def mpReadAnswer (ws : List Word) : List Byte :=
  let body := wordBytes ws ++ [0x00]
  [0xA5] ++ body ++ mpCrc body

/-- The response to an accepted WRITE that has written `k` of `n` words. -/
def mpWriteAnswer (k n : Nat) : List Byte :=
  let body := (if k = n then [0x00] else [0x01]) ++ bytesBE 2 k
  [0xA5] ++ body ++ mpCrc body

/-- The words of data bytes, each most significant byte first. -/
def wordsBE : Nat → List Byte → List Word
  | 0, _ => []
  | n + 1, bs => BitVec.ofNat 32 (natBE (bs.take 4)) :: wordsBE n (bs.drop 4)

/-- A response leaves. -/
def mpSend (bs : List Byte) (s : State) : State := { s with dev := s.dev.send (.mp bs) }

/-- The frame is counted (Table 18.8). Log entry 74 (DEDUCED). -/
def mpCount (s : State) : State := { s with dev := s.dev.count GL_MPCNT_FRAMES }

/-- A rejected request, with its error counter if it has one (Table 18.6). -/
def mpRejected (status : Nat) (s : State) : State :=
  let d := if status = 2 then s.dev.bump GL_MPSTAT_HCRCCNT else if status = 3 then s.dev.bump GL_MPSTAT_DCRCCNT else s.dev
  mpSend (mpReject status) { s with dev := d }

/-- The header of a request: CMD, number of words, ADDR. -/
def mpCmd (f : List Byte) : Nat := natBE (f.take 1)
def mpNw (f : List Byte) : Nat := natBE ((f.drop 1).take 1) + 1
def mpAddr (f : List Byte) : Nat := natBE ((f.drop 2).take 4)

/-- HCRC is that of bytes 0 to 5. -/
def mpHeadOk (f : List Byte) : Bool := (f.drop 6).take 4 == mpCrc (f.take 6)

/-- The data bytes of a WRITE, and whether DCRC is theirs. -/
def mpData (f : List Byte) : List Byte := (f.drop 10).take (4 * mpNw f)
def mpDataOk (f : List Byte) : Bool := (f.drop (10 + 4 * mpNw f)).take 4 == mpCrc (mpData f)

/-- The request is complete: a WRITE goes on with its data, every other request ends with its header (R439, R443).
Log entry 74 (DEDUCED). -/
def mpWhole (f : List Byte) : Bool :=
  decide ((if mpCmd f = 0x02 ∧ mpHeadOk f then 14 + 4 * mpNw f else 10) ≤ f.length)

/-- The first check of R441 that fails, or 0. -/
def mpCheck (f : List Byte) (d : Dev) : Nat :=
  if ¬ mpHeadOk f then 2
  else if mpCmd f ≠ 0x0B ∧ mpCmd f ≠ 0x02 then 4
  else if mpAddr f % 4 ≠ 0 ∨ 2 ^ 32 < mpAddr f + 4 * mpNw f then 5
  else if mpCmd f = 0x02 ∧ ¬ mpDataOk f then 3
  else if mpCmd f = 0x02 ∧ ¬ d.writable then 6
  else 0

/-- IDREAD (R442): GL_ID at once. -/
def mpId (s : State) : State := mpSend (wordBytes [peekWord GL_ID s]) (mpCount s)

/-- A frame by its bytes (R439-R443). Log entry 74 (DEDUCED). -/
def mpFrame (f : List Byte) (s : State) : State :=
  if f.take 1 = [0x9F] then mpId s
  else if ¬ mpWhole f then s
  else
    let s := mpCount s
    let c := mpCheck f s.dev
    if c ≠ 0 then mpRejected c s
    else if mpCmd f = 0x0B then
      let r := readWords .mp (mpNw f) (mpAddr f) s
      mpSend (mpReadAnswer r.1) r.2
    else
      let r := writeRegs .mp (mpAddr f) (wordsBE (mpNw f) (mpData f)) s.dev
      mpSend (mpWriteAnswer r.1 (mpNw f)) { s with dev := r.2 }

/-! ## JTAG (R446-R448) -/

/-- Change the JTAG part. -/
def onJtag (f : JtagSt → JtagSt) (d : Dev) : Dev := { d with jtag := f d.jtag }

/-- A data register captures. Log entry 24 (PRESUMED). -/
def jtagOut (bits v : Nat) (d : Dev) : Dev := d.send (.jtag bits v)

/-- An instruction scan: the instruction register captures 0b0000_0x01 and takes an opcode; `refused` tells the next scan.
`drive` is what the balls do from then on. -/
def jtagIr (op : Nat) (refused : Bool) (drive : Nat) (d : Dev) : Dev :=
  onJtag (fun j => { j with ir := op, refused := refused, drive := drive }) (jtagOut 8 (1 + 4 * b2n d.jtag.refused) d)

/-- The bypass register captures 0. Log entry 24 (PRESUMED). -/
def jtagPass (op : Nat) (refused : Bool) (drive : Nat) (d : Dev) : Dev := jtagOut 1 0 (jtagIr op refused drive d)

/-- The scan is one that comes while JTAG_TRST_N is low: the TAP stays in Test-Logic-Reset (R446). Log entry 101 (DESIGN CHOICE). -/
def jtagScan (f : State → State) (s : State) : State :=
  if s.dev.jtag.held = 0 then f s else { s with dev := onJtag (fun j => { j with held := j.held - 1 }) s.dev }

/-- The kinds of ball in the boundary register (R447). -/
inductive BallKind where
  | input | output | bidir | observed
  deriving DecidableEq, Repr

/-- The balls of the boundary register in the order of Table 19.7. -/
def scanBalls : List (String × BallKind) :=
  let bus := fun (name : String) (n : Nat) (k : BallKind) => (List.range n).map fun i => (name ++ toString i, k)
  let flash := fun (x : String) => [(x ++ "_SCK", BallKind.output), (x ++ "_CS_N", .output)] ++ bus (x ++ "_IO") 4 .bidir
  flash "QSPIA" ++ flash "QSPIB" ++
  [("MNT_CS_N", .input), ("MNT_SCK", .input), ("MNT_SDI", .input), ("MNT_SDO", .output), ("MNT_ALERT_N", .output)] ++
  [("PMB_SCL", .bidir), ("PMB_SDA", .bidir), ("VDD_PG", .input), ("RESET_N", .input)] ++
  bus "TRIPIN" 4 .input ++ bus "TRIPOUT" 2 .output ++ bus "XTRIG" 2 .bidir ++
  bus "SFI_A" 8 .input ++ bus "SFI_B" 8 .input ++ [("SFRST_A", .input), ("SFRST_B", .input)] ++
  bus "SFO_H" 2 .observed ++ bus "SFO_L" 2 .observed

/-- A cell of the boundary register: its ball, and whether it is the control cell that follows the data cell of an output or
bidirectional ball (R447). -/
structure BoundaryCell where
  ball : String
  kind : BallKind
  control : Bool
  deriving DecidableEq, Repr

/-- A ball has a control cell. -/
def BallKind.driven : BallKind → Bool
  | .output | .bidir => true
  | .input | .observed => false

/-- The cells of the boundary register in their order; cell 0 is bit 0. Log entry 24 (PRESUMED). -/
def boundaryCells : List BoundaryCell :=
  scanBalls.flatMap fun (b : String × BallKind) => ⟨b.1, b.2, false⟩ :: (if b.2.driven then [⟨b.1, b.2, true⟩] else [])

/-- The control cells, as a mask. -/
def controlCells : BitVec 71 :=
  BitVec.ofNat 71 ((boundaryCells.zip (List.range 71)).foldl (fun m x => if x.1.control then m + 2 ^ x.2 else m) 0)

/-- What the boundary register captures: the levels of the balls, and in the control cells what they hold. Log entry 24 (PRESUMED). -/
def jtagCapture (balls : BitVec 71) (d : Dev) : BitVec 71 := (balls &&& ~~~controlCells) ||| (d.jtag.boundary &&& controlCells)

/-- What JTAG makes of a ball: it leaves it to the device, drives it, or holds it at high impedance. -/
inductive BallDrive where
  | device | level (b : Bool) | highZ
  deriving DecidableEq, Repr

/-- What JTAG makes of the ball of data cell `i`: EXTEST and CLAMP drive an output or bidirectional ball whose control cell holds 1,
HIGHZ drives none, and the balls of the permit switches are observed only (R447). Log entry 24 (PRESUMED). -/
def jtagDrives (i : Nat) (d : Dev) : BallDrive :=
  match boundaryCells[i]? with
  | some c =>
    if d.jtag.drive = 0 ∨ ¬ c.kind.driven ∨ c.control then .device
    else if d.jtag.drive = 1 ∧ d.jtag.boundary.getLsbD (i + 1) then .level (d.jtag.boundary.getLsbD i)
    else .highZ
  | none => .device

/-- EXTEST: taken in STOP only; the balls are captured, and what is shifted in drives them (R447). Log entry 24 (PRESUMED). -/
def jtagExtestD (x : BoundaryScan) (d : Dev) : Dev :=
  if d.mode = modeSTOP then
    onJtag (fun j => { j with boundary := x.shift }) (jtagOut 71 (jtagCapture x.balls d).toNat (jtagIr 0x00 false 1 d))
  else jtagPass 0xFF true 0 d

/-- SAMPLE/PRELOAD: the balls are captured, the boundary register is preloaded, no ball changes. -/
def jtagSampleD (balls preload : BitVec 71) (d : Dev) : Dev :=
  onJtag (fun j => { j with boundary := preload }) (jtagOut 71 (jtagCapture balls d).toNat (jtagIr 0x01 false 0 d))

/-- CLAMP and HIGHZ: taken in STOP only. Log entry 24 (PRESUMED). -/
def jtagHoldD (op drive : Nat) (d : Dev) : Dev :=
  if d.mode = modeSTOP then jtagPass op false drive d else jtagPass 0xFF true 0 d

/-- IDCODE. -/
def jtagIdD (d : Dev) : Dev := jtagOut 32 0x181925A7 (jtagIr 0x02 false 0 d)

/-- JTAG_TRST_N goes low: Test-Logic-Reset, which selects IDCODE, for as long as it stays low. Log entry 101 (DESIGN CHOICE). -/
def jtagReset (d : Dev) : Dev :=
  onJtag (fun j => { j with
    ir := 0x02, refused := false, drive := 0, trsts := j.trsts + 1, held := Config.trstScans d.cyc j.trsts }) d

/-- A scan whose effect lies in the device. -/
def jtagDev (f : Dev → Dev) (s : State) : State := jtagScan (fun s => { s with dev := f s.dev }) s

/-! ## Owner key slots (R449) -/

/-- KEYRD as Table 18.10 lays it out. -/
def keyWord (k : Fuse) : Nat :=
  k.hash0.toNat + 2 ^ 256 * k.hash1.toNat + 2 ^ 512 * b2n k.prog0 + 2 ^ 513 * b2n k.prog1 + 2 ^ 514 * b2n k.rev0 +
    2 ^ 515 * b2n (k.busy != 0) + 2 ^ 516 * (k.res % 4)

/-- Fuse operations are taken in IDLE and in STOP while none is in progress. -/
def keyFree (s : State) : Bool := s.fuse.busy == 0 && (s.dev.mode == modeIDLE || s.dev.mode == modeSTOP)

/-- KEYPROG: programming of a slot starts, or is refused. -/
def keyProg (hash : BitVec 256) (slot : Bool) (conf : Nat) (s : State) : State :=
  let s := { s with dev := jtagIr 0x11 false 0 s.dev }
  let used := if slot then s.fuse.prog1 else s.fuse.prog0
  if conf = 0x5A ∧ ¬ used ∧ keyFree s then
    { s with fuse := { s.fuse with busy := if slot then 2 else 1, want := hash } }
  else { s with fuse := { s.fuse with res := 2 } }

/-- KEYREV: revocation of slot 0 starts, or is refused. Log entry 75 (DEDUCED). -/
def keyRev (conf : Nat) (s : State) : State :=
  let s := { s with dev := jtagIr 0x12 false 0 s.dev }
  if conf = 0xC3 ∧ s.fuse.prog1 ∧ ¬ s.fuse.rev0 ∧ keyFree s then { s with fuse := { s.fuse with busy := 3 } }
  else { s with fuse := { s.fuse with res := 2 } }

/-- The operation in progress completes with what the fuses read back (R449). Log entry 75 (DEDUCED). -/
def keyDone (readback : BitVec 256) (s : State) : State :=
  let k := s.fuse
  let res := if readback = k.want then 1 else 3
  if k.busy = 1 then
    { s with fuse := { k with busy := 0, hash0 := readback, prog0 := true, res := res }, dev := s.dev.put GL_KEYSTAT_PROG0 1 }
  else if k.busy = 2 then
    { s with fuse := { k with busy := 0, hash1 := readback, prog1 := true, res := res }, dev := s.dev.put GL_KEYSTAT_PROG1 1 }
  else if k.busy = 3 then
    { s with fuse := { k with busy := 0, rev0 := true, res := 1 }, dev := s.dev.put GL_KEYSTAT_REV0 1 }
  else s

end Sys2Proof.Machine
end

