-- ==== Sys2Proof/Machine/Stop.lean ====
section
/-! DEFINITION. Entry to STOP (R302), and what ends every step: a STOP source that has set acts, and trip outputs whose
conditions fail are released (R301). -/

namespace Sys2Proof.Machine

/-- The network ports go down, each with the flags of a lost link, and everything of their sessions ends (R302, R378, R406, R419,
R422). -/
def netStop (d : Dev) : Dev :=
  let d := xferStop (linkDown 1 (linkDown 0 d))
  let d := sessEnd { d with nt := { d.nt with started := false, smpQ := [], treads := [], subs := [] } }
  showServe (showQueue (showSubs d))

/-- Both permits are de-energised: force-off (R302, R309). -/
def permitsOff (d : Dev) : Dev := foldN 2 (fun d x => (sfEndTest x (sfSwitch x false d)).putBit SF_STAT_OUT x false) d

/-- Entry to STOP (R302): TGIV leaves first where PLL-S is locked; every output becomes inert. Log entry 9 (DEDUCED). -/
def stopEntry (d : Dev) : Dev :=
  let d := if d.paired ∧ d.role = roleACTIVE ∧ d.flag PL_STAT_SLOCK then handOver d else d
  let d := (clearPend (recStop d)).setMode modeSTOP
  let d := { d with su := { d.su with deblock := [] } }
  let d := foldN 8 (fun d g => if d.assigned g then regionOff g d else d) (lanesDown d)
  let d := (permitsOff (netStop d)).put AD_STAT_RUN 0
  (d.put SV_STAT_RUN 0).put GL_SUSTAT_CHGTO 0

/-- What a step leaves behind is settled: a STOP source acts in the step in which it set (R302), STOP is left only by a power
cycle (R12), and trip outputs follow their conditions (R301). Log entry 9 (DEDUCED). -/
def settle (before after : Dev) : Dev :=
  let d := tripOutRelease (if after.fc.stopReq ∧ after.mode ≠ modeSTOP then stopEntry after else after)
  if before.mode = modeSTOP ∨ after.fc.stopReq ∨ after.mode = modeSTOP then
    { d.put GL_MODE_MODE modeSTOP with fc := { d.fc with stopReq := false, prots := [], protDev := false } }
  else d

/-- A command whose effect lies in the device: nothing happens before reset has been released (R455).
Log entries 7 (DEDUCED), 8 (DEDUCED). -/
def within (f : Dev → Dev) (s : State) : State :=
  if s.dev.released then { s with dev := settle s.dev (f s.dev) } else s

/-- A command to a part that STOP makes inert (R302). Log entry 8 (DEDUCED). -/
def running (f : Dev → Dev) (s : State) : State := if s.dev.mode = modeSTOP then s else within f s

/-- A command that also reaches fuses, flash, VBAT or the recorder memory; it never touches the queue.
Log entries 7 (DEDUCED), 8 (DEDUCED). -/
def whole (f : State → State) (s : State) : State :=
  if s.dev.released then
    let t := f s
    { t with dev := settle s.dev t.dev, pending := s.pending }
  else s

/-- The same for a part that STOP makes inert. Log entry 8 (DEDUCED). -/
def wholeRunning (f : State → State) (s : State) : State := if s.dev.mode = modeSTOP then s else whole f s

end Sys2Proof.Machine
end

