-- ==== Sys2Proof/WellFormed.lean ====
section
/-! DEFINITION. Which commands name something the device has. The types of the operands already bound every index; what is left
are unit numbers that depend on a class, and instants that cannot follow each other. -/

namespace Sys2Proof

/-- The numbers that a unit run may name: the units of its class (Table 1.1), and in class GATHER, from 64 on, the 80 sort slices, for the
dry pass of one that serves no quire (R43). -/
def classSize (cls : Nat) : Nat := [144, 24, 8, 8, 64, 4].getD cls 0

/-- A defect names a unit of its class (Table 15.9), and a memory exactly where it is one of the SRAM. -/
def Defect.wf (x : Defect) : Bool :=
  match x.cls with
  | .cellEngine => decide (x.unit < 8448) && x.mem.isNone
  | .sortSlice => decide (x.unit < 80) && x.mem.isNone
  | .chanElement => decide (x.unit < 432) && x.mem.isNone
  | .sramRow => x.mem.isSome
  | .sramCol => x.mem.isSome
  | .spineGroup => x.mem.isNone

/-- A departure lies within one block after t_rel: at most 25.6 ticks at S0 (R164). -/
def depOk (dep : Nat) : Bool := decide (dep ≤ 409)

/-- The opcodes of Table 18.9 that are not BYPASS. -/
def jtagAssigned (op : Nat) : Bool := [0x00, 0x01, 0x02, 0x03, 0x04, 0x10, 0x11, 0x12].contains op

/-- A command that the outside can give. Log entry 6 (DESIGN CHOICE). -/
def Instr.wf : Instr → Bool
  | .checkComplete _ defects _ => defects.all Defect.wf
  | .unitRunComplete cls unit ts td _ => decide (unit < classSize cls.val) && decide (ts < td)
  | .frameRelease _ depA depB => depOk depA && depOk depB
  | .jtagBypass opcode => !jtagAssigned opcode.toNat
  | .resetRelease .. | .powerCycle .. | .supplyOutOfWindow .. | .resetNLow .. | .vbatLoss .. | .vauxOutOfRange ..
  | .imageLoadComplete .. | .pllLock .. | .idleEntry .. | .twinActiveDecision .. | .chargeEntry ..
  | .restartFromBlock .. | .deblockEffect .. | .chargeTimeout .. | .periodBoundary .. | .spareTakeover ..
  | .suspectTimeout .. | .reportReceived .. | .blockConfirmExpiry .. | .estimatorWindowEnd .. | .ceRelease ..
  | .ceForceBypass .. | .diagGo .. | .diagTimeout .. | .ceRep0Read .. | .lowHalfRead .. | .reportDeadline ..
  | .gatheringDelivered .. | .gatherDeadline .. | .runaheadPlan .. | .planDeadline .. | .commitPoint ..
  | .regatherDeadline .. | .recompute .. | .recomputeDeadline .. | .recomputeVote .. | .latePlanArrival ..
  | .voteDeadline .. | .modHalt .. | .modHaltEnd .. | .lawRun .. | .lawDeadline .. | .channelSelfCheckFail ..
  | .channelSelfTestDone .. | .resyncCopyDone .. | .resyncCheckDone .. | .twinArbRx .. | .twinMullRx ..
  | .twinStatRx .. | .tgivRx .. | .twinRecordTimeout .. | .mullTimeout .. | .twinResyncDone ..
  | .secondActiveDetect .. | .losAssert .. | .losDeassert .. | .lolDetect .. | .eqTapHoldEnd .. | .blockLockHeld ..
  | .acquireTimeout .. | .fastrtTimeout .. | .fastrtRelock .. | .failedRetry .. | .laneRetrain .. | .laneReacq ..
  | .laneTxSleep .. | .laneTxWake .. | .laneRxSleep .. | .laneRxWake .. | .rateStepPass .. | .rateStepFail ..
  | .idleBlockRx .. | .originChange .. | .controlBlockDiscard .. | .prbsGenEnable .. | .prbsChkEnable ..
  | .prbsInjectOne .. | .prbsInjectRate .. | .prbsCheckerLock .. | .tmxResponse .. | .tmxResponseTimeout ..
  | .tmxE2eStamp .. | .frameCollectionPoint .. | .frameDeadlineMiss .. | .hopBlockRx .. | .reachUpdate ..
  | .budgetAchieved .. | .requestWordsRx .. | .eventRecordRx .. | .adcSlotStart .. | .conversionComplete ..
  | .calibrationStepEnd .. | .sliceSwap .. | .periodRecordClose .. | .windowRecordClose .. | .adQloRead ..
  | .accumSumloRead .. | .adInjGo .. | .referenceLost .. | .referenceQualified .. | .pllUpdate ..
  | .pllBandSearchDone .. | .pllLockFail .. | .pllLossOfLock .. | .pllPhaseSteps .. | .timebaseAlignStep ..
  | .tmIncrWrite .. | .tmAdjWrite .. | .jumpRequest .. | .tmNow0Read .. | .ptpAnnounceRx .. | .ptpSyncRx ..
  | .ptpFollowUpRx .. | .ptpPdelayReqRx .. | .ptpPdelayRespRx .. | .ptpPdelayReqSend .. | .ptpIgnoredMessage ..
  | .ptpReceiptTimeout .. | .holdoverExpiry .. | .todWriteback .. | .protectiveOverride .. | .tripInputAssert ..
  | .tripInputDeassert .. | .faultInject .. | .spineCrcError .. | .sramEccError .. | .sramScrub ..
  | .tjSensorUpdate .. | .tjTripTimeout .. | .evalWindowEnd .. | .avsAck .. | .avsTimeout .. | .marginHoldoffEnd ..
  | .journalWrite .. | .safetyCycle .. | .safetyInputFilter .. | .safetyResetFilter .. | .resetHoldTimeout ..
  | .discrepancyTimeout .. | .readbackMismatch .. | .permitTest .. | .recorderEntryIn .. | .recorderEntryWrite ..
  | .recordComplete .. | .recordPostmaxExpiry .. | .recorderGapEntry .. | .drArm .. | .drForce .. | .drDisarm ..
  | .drRel .. | .xtrigAssert .. | .xtrigPulseEnd .. | .recorderWord0Read .. | .supervisorWatchdog ..
  | .supervisorRestartDone .. | .taskWaitTimeout .. | .netLinkUp .. | .netLinkDown .. | .arpRequestRx ..
  | .neighbourSolicitationRx .. | .icmpEchoRequest .. | .smpInvalidDatagram .. | .setpt .. | .cmdCharge ..
  | .cmdStop .. | .cmdDeblock .. | .cmdBlock .. | .tread .. | .tsub .. | .tunsub .. | .subscriptionDelivery ..
  | .eventMessageSend .. | .statusSend .. | .mopen .. | .mauth .. | .mread .. | .mwrite .. | .iopen .. | .idata ..
  | .mclose .. | .sessionTimeout .. | .imageEraseDone .. | .imageVerifyDone .. | .mpRead .. | .mpWrite ..
  | .mpIdread .. | .mpFrameAbort .. | .jtagTrst .. | .jtagExtest .. | .jtagSamplePreload .. | .jtagIdcode ..
  | .jtagClamp .. | .jtagHighz .. | .jtagKeyrd .. | .jtagKeyprog .. | .jtagKeyrev .. | .keyFuseDone ..
  | .registerWrite .. | .blockLockAcquired .. | .xtrigDeassert .. | .tmxRequestRx .. | .trnBlockRx ..
  | .arpReplyRx .. | .neighbourAdvertisementRx .. | .arpCacheExpiry .. | .pageProgramDone .. | .testWidthEnd .. => true

end Sys2Proof
end

