-- ==== Sys2Proof/Machine/RowHelp.lean ====
section
/-! DEFINITION. How operands of commands become words and addresses. -/

namespace Sys2Proof.Machine

/-- The word that submits a diagnostic (Table 2.15): CODE, INRUN, GO, ARG. -/
def diagWord (code : BitVec 4) (inrun : Bool) (arg : BitVec 16) : Word :=
  BitVec.ofNat 32 (code.toNat + 16 * b2n inrun + 32 + 2 ^ 16 * arg.toNat)

/-- The word that requests an injection: TARGET, DOUBLE, GO, INST. -/
def injWord (target : BitVec 4) (double : Bool) (inst : BitVec 13) : Word :=
  BitVec.ofNat 32 (target.toNat + 16 * b2n double + 32 + 2 ^ 8 * inst.toNat)

/-- A report arrives over the lane of one end of its quire, which must be ACTIVE (R130, R176). -/
def reportOn (n : Nat) (laneB : Bool) (raw tk : Nat) (d : Dev) : Dev :=
  if d.lnState (2 * (n / 128) + b2n laneB) = lnACTIVE then reportRx n laneB raw tk d else d

/-- A PTP message that is ignored on a port where PTP runs (Table 10.4, R343). -/
def ptpIgnoredOn (x : Nat) (d : Dev) : Dev :=
  if d.bit TM_CFG_PORTEN x && netUp x d && d.bit SV_STAT_RUN 0 then ptpIgnore d else d

/-- KEYRD captures the state of the key slots (R449). -/
def keyRead (s : State) : State := jtagScan (fun s => { s with dev := jtagOut 520 (keyWord s.fuse) (jtagIr 0x10 false 0 s.dev) }) s

end Sys2Proof.Machine
end

