-- ==== Sys2Proof/Machine/RowsCells.lean ====
section
/-! DEFINITION. The commands of cell engines (chapter 2): one meaning each, over the shared operations. -/

namespace Sys2Proof.Machine

/-- TSUS has passed in SUSPECT (Table 2.2). -/
def execSuspectTimeout (n : Fin 8192) (s : State) : Host.Outcome State Fault Refusal :=
  .next (running (suspectTimedOut n.val) s)

/-- A cell report arrives on a lane (R67, R176). -/
def execReportReceived (n : Fin 8192) (laneB : Bool) (raw : BitVec 128) (tk : Nat)
    (s : State) : Host.Outcome State Fault Refusal :=
  .next (running (reportOn n.val laneB raw.toNat tk) s)

/-- The latest time of block confirmation (R127). -/
def execBlockConfirmExpiry (g : Fin 8) (s : State) : Host.Outcome State Fault Refusal :=
  .next (running (blockExpiry g.val) s)

/-- An EWIN window ends (R73). -/
def execEstimatorWindowEnd (n : Fin 8192) (s : State) : Host.Outcome State Fault Refusal :=
  .next (running (estWindow n.val) s)

/-- CE_CTL.RELEASE is written (Table 2.2, R79). -/
def execCeRelease (o : Origin) (n : Fin 8192) (s : State) : Host.Outcome State Fault Refusal :=
  .next (within (fun d => (wrCeCtl o n.val 1 d).2) s)

/-- CE_CTL.BYPASS is written (R79). -/
def execCeForceBypass (o : Origin) (n : Fin 8192) (s : State) : Host.Outcome State Fault Refusal :=
  .next (within (fun d => (wrCeCtl o n.val 2 d).2) s)

/-- A diagnostic is requested (R76, R120). -/
def execDiagGo (o : Origin) (n : Fin 8192) (code : BitVec 4) (inrun : Bool) (arg : BitVec 16)
    (s : State) : Host.Outcome State Fault Refusal :=
  .next (within (fun d => (wrDiagReq o n.val (diagWord code inrun arg) d).2) s)

/-- A diagnostic times out (R121). -/
def execDiagTimeout (n : Fin 8192) (s : State) : Host.Outcome State Fault Refusal :=
  .next (running (diagTimedOut n.val) s)

/-- A read of CE_REP0 snapshots the report (R79). -/
def execCeRep0Read (o : Origin) (n : Fin 8192) (s : State) : Host.Outcome State Fault Refusal :=
  .next (whole (readOnly o (CE_REP n.val 0)) s)

/-- A read of the low half of a wide value (R31). -/
def execLowHalfRead (o : Origin) (addr : BitVec 32) (s : State) : Host.Outcome State Fault Refusal :=
  .next (whole (readOnly o addr.toNat) s)

end Sys2Proof.Machine
end

