-- ==== Sys2Proof/Machine/RowsChannels.lean ====
section
/-! DEFINITION. The commands of channels and the twin (chapter 8): one meaning each, over the shared operations. -/

namespace Sys2Proof.Machine

/-- A self-check of a channel fails, causes 0x1 to 0x4 (R227). -/
def execChannelSelfCheckFail (g : Fin 8) (c : Fin 3) (cause : Fin 4) (s : State) : Host.Outcome State Fault Refusal :=
  .next (running (giveUp g.val c.val (cause.val + 1)) s)

/-- A self-test completes (R221). -/
def execChannelSelfTestDone (g : Fin 8) (c : Fin 3) (bad : List (Fin 18)) (s : State) : Host.Outcome State Fault Refusal :=
  .next (running (selfTestDone g.val c.val (bad.map Fin.val)) s)

/-- The copy of the mull set is complete (R231). -/
def execResyncCopyDone (g : Fin 8) (c : Fin 3) (s : State) : Host.Outcome State Fault Refusal :=
  .next (running (copyDone g.val c.val) s)

/-- RSN equal periods are complete (R231). -/
def execResyncCheckDone (g : Fin 8) (c : Fin 3) (s : State) : Host.Outcome State Fault Refusal :=
  .next (running (checkDone g.val c.val) s)

/-- The ARB record of the twin (R236). -/
def execTwinArbRx (r : TwinRx ArbRec) (s : State) : Host.Outcome State Fault Refusal :=
  .next (running (firstCopy 0 r.hdr (twinArb r.body)) s)

/-- The MULL record of the twin (R235, R237). -/
def execTwinMullRx (m : TwinRx MullRec) (s : State) : Host.Outcome State Fault Refusal :=
  .next (running (firstCopy 1 m.hdr (twinMull m.body)) s)

/-- The STAT record of the twin (R235). -/
def execTwinStatRx (r : TwinRx StatRec) (tk : Nat) (s : State) : Host.Outcome State Fault Refusal :=
  .next (running (fun d => firstCopy 2 r.hdr (twinStat r.body) (d.at_ tk)) s)

/-- TGIV arrives (R238). -/
def execTgivRx (s : State) : Host.Outcome State Fault Refusal :=
  .next (running tgivIn s)

/-- No record for TWLOSS periods (R239). -/
def execTwinRecordTimeout (s : State) : Host.Outcome State Fault Refusal :=
  .next (running twinTimeout s)

/-- No MULL record for 4 periods (R237). -/
def execMullTimeout (s : State) : Host.Outcome State Fault Refusal :=
  .next (running mullTimeoutD s)

/-- The RESYNC device has finished (R237). -/
def execTwinResyncDone (s : State) : Host.Outcome State Fault Refusal :=
  .next (running twinResynced s)

/-- A second ACTIVE device on the own lanes (R240). -/
def execSecondActiveDetect (s : State) : Host.Outcome State Fault Refusal :=
  .next (running dualFound s)

end Sys2Proof.Machine
end

