-- ==== Sys2Proof/Machine/RowsClocks.lean ====
section
/-! DEFINITION. The commands of PLLs, station time and PTP (chapter 10): one meaning each, over the shared operations. -/

namespace Sys2Proof.Machine

/-- The reference is lost (R262, R266). -/
def execReferenceLost (s : State) : Host.Outcome State Fault Refusal :=
  .next (running referenceLost s)

/-- The reference is qualified (R262, R265). -/
def execReferenceQualified (s : State) : Host.Outcome State Fault Refusal :=
  .next (running referenceQualified s)

/-- PL_xCTL.UPD is written (R264). -/
def execPllUpdate (o : Origin) (p : Pll) (s : State) : Host.Outcome State Fault Refusal :=
  .next (within (fun d => (wrPllCtl o p 1 d).2) s)

/-- The band search is complete (Table 10.2). -/
def execPllBandSearchDone (p : Pll) (band : BitVec 6) (s : State) : Host.Outcome State Fault Refusal :=
  .next (running (bandFound p band.toNat) s)

/-- No lock within 4,096 cycles (Table 10.2). -/
def execPllLockFail (p : Pll) (s : State) : Host.Outcome State Fault Refusal :=
  .next (running (lockFailed p) s)

/-- A PLL loses lock (R266). -/
def execPllLossOfLock (p : Pll) (s : State) : Host.Outcome State Fault Refusal :=
  .next (running (lockLost p) s)

/-- Phase steps of PLL-S are written (R269). -/
def execPllPhaseSteps (o : Origin) (steps : BitVec 8) (s : State) : Host.Outcome State Fault Refusal :=
  .next (within (fun d => (wrSphs o (steps.setWidth 32) d).2) s)

/-- The alignment rule acts (R271). -/
def execTimebaseAlignStep (s : State) : Host.Outcome State Fault Refusal :=
  .next (running timebaseAlign s)

/-- TM_INCR is written (R272). -/
def execTmIncrWrite (o : Origin) (corr : BitVec 32) (s : State) : Host.Outcome State Fault Refusal :=
  .next (within (fun d => (wrTmIncr o corr d).2) s)

/-- TM_ADJ is written (R272). -/
def execTmAdjWrite (o : Origin) (ofs : BitVec 32) (s : State) : Host.Outcome State Fault Refusal :=
  .next (within (fun d => (wrTmAdj o ofs d).2) s)

/-- TM_JUMPLO is written: a jump is requested (R282). -/
def execJumpRequest (o : Origin) (jlo : BitVec 32) (s : State) : Host.Outcome State Fault Refusal :=
  .next (within (fun d => (wrTmJumpLo o jlo d).2) s)

/-- A read of TM_NOW0 snapshots station time (R270). -/
def execTmNow0Read (o : Origin) (s : State) : Host.Outcome State Fault Refusal :=
  .next (whole (readOnly o TM_NOW0) s)

/-- An Announce message (R277). -/
def execPtpAnnounceRx (m : Announce) (s : State) : Host.Outcome State Fault Refusal :=
  .next (running (ptpAnnounce m) s)

/-- A Sync message (R277, R279). -/
def execPtpSyncRx (port : Fin 2) (eth : EthHdr) (domain : BitVec 8) (logInterval : Int) (twoStep : Bool)
    (seq : BitVec 16) (origin : PtpTime) (corr : PtpTime) (rx : PtpTime)
    (s : State) : Host.Outcome State Fault Refusal :=
  .next (running (ptpSync port.val eth domain.toNat logInterval twoStep seq origin corr rx) s)

/-- A Follow_Up message (R277). -/
def execPtpFollowUpRx (port : Fin 2) (eth : EthHdr) (domain : BitVec 8) (seq : BitVec 16) (origin : PtpTime)
    (corr : PtpTime) (s : State) : Host.Outcome State Fault Refusal :=
  .next (running (ptpFollowUp port.val eth domain.toNat seq origin corr) s)

/-- A Pdelay_Req is answered (Table 10.4). -/
def execPtpPdelayReqRx (port : Fin 2) (eth : EthHdr) (domain : BitVec 8) (seq : BitVec 16) (src : BitVec 80)
    (rx : PtpTime) (tx : PtpTime) (s : State) : Host.Outcome State Fault Refusal :=
  .next (running (ptpPdelayReq port.val eth domain.toNat seq src rx tx) s)

/-- A Pdelay_Resp or its follow-up (R279). -/
def execPtpPdelayRespRx (port : Fin 2) (eth : EthHdr) (domain : BitVec 8) (seq : BitVec 16) (followUp : Bool)
    (t : PtpTime) (corr : PtpTime) (rx : PtpTime) (s : State) : Host.Outcome State Fault Refusal :=
  .next (running (ptpPdelayResp port.val eth domain.toNat seq followUp t corr rx) s)

/-- A Pdelay_Req leaves (Table 10.4). -/
def execPtpPdelayReqSend (port : Fin 2) (tx : PtpTime) (s : State) : Host.Outcome State Fault Refusal :=
  .next (running (ptpPdelaySend port.val tx) s)

/-- A message that PTP ignores (Table 10.4). -/
def execPtpIgnoredMessage (port : Fin 2) (s : State) : Host.Outcome State Fault Refusal :=
  .next (running (ptpIgnoredOn port.val) s)

/-- No master or no Sync (Table 10.6). -/
def execPtpReceiptTimeout (masterLost : Bool) (s : State) : Host.Outcome State Fault Refusal :=
  .next (running (ptpTimeout masterLost) s)

/-- HOMAX seconds in HOLDOVER (R281). -/
def execHoldoverExpiry (s : State) : Host.Outcome State Fault Refusal :=
  .next (running holdoverExpired s)

/-- Station time goes back to the VBAT counter (R276). -/
def execTodWriteback (s : State) : Host.Outcome State Fault Refusal :=
  .next (whole todWritebackF s)

end Sys2Proof.Machine
end

