-- ==== Sys2Proof/Machine/RowsFabric.lean ====
section
/-! DEFINITION. The commands of execution fabric, ladder and journal (chapter 1): one meaning each, over the shared operations. -/

namespace Sys2Proof.Machine

/-- An evaluation window ends (R44). -/
def execEvalWindowEnd (s : State) : Host.Outcome State Fault Refusal :=
  .next (running evalWindow s)

/-- The regulator acknowledges (R459). -/
def execAvsAck (s : State) : Host.Outcome State Fault Refusal :=
  .next (running avsAcked s)

/-- No acknowledgement within 10 ms (R58, R459). -/
def execAvsTimeout (s : State) : Host.Outcome State Fault Refusal :=
  .next (running avsTimedOut s)

/-- 2.0 ms after power-good (R58). -/
def execMarginHoldoffEnd (s : State) : Host.Outcome State Fault Refusal :=
  .next (running holdoffEnd s)

/-- Entries that wait are written to both banks (R55). A write is one command, so none is in progress at an entry to STOP
(R56, R302). Log entry 9 (DEDUCED). -/
def execJournalWrite (a : BankWrite) (b : BankWrite) (s : State) : Host.Outcome State Fault Refusal :=
  .next (whole (journalWriteF a b) s)

end Sys2Proof.Machine
end

