-- ==== Sys2Proof/Machine/RowsFaults.lean ====
section
/-! DEFINITION. The commands of fault collection and protection (chapter 11): one meaning each, over the shared operations. -/

namespace Sys2Proof.Machine

/-- The step after a PROTECTIVE flag has set (R293). -/
def execProtectiveOverride (tk : Nat) (s : State) : Host.Outcome State Fault Refusal :=
  .next (running (overrideD tk) s)

/-- A trip input asserts (R296). -/
def execTripInputAssert (x : Fin 4) (tk : Nat) (s : State) : Host.Outcome State Fault Refusal :=
  .next (running (tripAssert x.val tk) s)

/-- A trip input deasserts (R296). -/
def execTripInputDeassert (x : Fin 4) (tk : Nat) (s : State) : Host.Outcome State Fault Refusal :=
  .next (running (tripDeassert x.val tk) s)

/-- An injection is requested (R303). -/
def execFaultInject (o : Origin) (target : BitVec 4) (double : Bool) (inst : BitVec 13)
    (s : State) : Host.Outcome State Fault Refusal :=
  .next (within (fun d => (wrInj o (injWord target double inst) d).2) s)

/-- An error on a spine link (R47). -/
def execSpineCrcError (link : Nat) (retryFails : Bool) (spareFails : Bool) (priority1 : Bool)
    (s : State) : Host.Outcome State Fault Refusal :=
  .next (running (spineError link retryFails spareFails priority1) s)

/-- A memory error is found (R53, Table 11.1). -/
def execSramEccError (mem : Memory) (double : Bool) (row : Nat) (scrub : Bool)
    (s : State) : Host.Outcome State Fault Refusal :=
  .next (wholeRunning (eccError mem double row scrub) s)

/-- A pass of the scrub ends (R53, R304). -/
def execSramScrub (s : State) : Host.Outcome State Fault Refusal :=
  .next (wholeRunning scrubPass s)

/-- The hottest sensor is read (R467), every millisecond from reset release on, in STOP too. Log entry 8 (DEDUCED). -/
def execTjSensorUpdate (tj : BitVec 13) (s : State) : Host.Outcome State Fault Refusal :=
  .next (within (tjUpdate tj.toNat) s)

/-- Above the trip temperature for 1 ms (R467). Log entry 8 (DEDUCED). -/
def execTjTripTimeout (s : State) : Host.Outcome State Fault Refusal :=
  .next (within tjTrip s)

end Sys2Proof.Machine
end

