-- ==== Sys2Proof/Machine/RowsFraming.lean ====
section
/-! DEFINITION. The commands of framing and event arbitration (chapter 6): one meaning each, over the shared operations. -/

namespace Sys2Proof.Machine

/-- The collection point of the next frame (R177). -/
def execFrameCollectionPoint (q : Fin 64) (s : State) : Host.Outcome State Fault Refusal :=
  .next (running (collect q.val) s)

/-- The FRAME deadline passes without a frame (R177). -/
def execFrameDeadlineMiss (q : Fin 64) (s : State) : Host.Outcome State Fault Refusal :=
  .next (running (frameMiss q.val) s)

/-- A HOP block ends its stream (R171). -/
def execHopBlockRx (l : Fin 128) (hopcnt : BitVec 8) (s : State) : Host.Outcome State Fault Refusal :=
  .next (running (injLane l.val (hopBlock l.val hopcnt.toNat)) s)

/-- Four frames in a row with the same HOPCNT (R171). -/
def execReachUpdate (q : Fin 64) (endB : Bool) (s : State) : Host.Outcome State Fault Refusal :=
  .next (running (reachUpdated q.val endB) s)

/-- 64 frames in a row met the budget (R179). -/
def execBudgetAchieved (q : Fin 64) (s : State) : Host.Outcome State Fault Refusal :=
  .next (running (budgetAchieved q.val) s)

/-- Request words arrive (R180). -/
def execRequestWordsRx (q : Fin 64) (window : BitVec 8) (words : BitVec 256)
    (s : State) : Host.Outcome State Fault Refusal :=
  .next (running (requestsRx q.val window.toNat words) s)

/-- An event slot comes back (R182). -/
def execEventRecordRx (q : Fin 64) (slot : SlotRx) (fseq : BitVec 8) (record : Option (BitVec 128)) (tk : Nat)
    (s : State) : Host.Outcome State Fault Refusal :=
  .next (running (eventRx q.val slot.laneB slot.slot.val fseq.toNat record tk) s)

/-- The frame of the next period is released (R164). Log entry 6 (DESIGN CHOICE). -/
def execFrameRelease (q : Fin 64) (depA : Nat) (depB : Nat) (s : State) : Host.Outcome State Fault Refusal :=
  if (Instr.frameRelease q depA depB).wf then .next (running (releaseFrame q.val depA depB) s) else .fault .illFormed

end Sys2Proof.Machine
end

