-- ==== Sys2Proof/Machine/RowsLanes.lean ====
section
/-! DEFINITION. The commands of quire and twin lanes (chapter 5): one meaning each, over the shared operations. -/

namespace Sys2Proof.Machine

/-- LOS asserts (R136). -/
def execLosAssert (l : Fin 130) (s : State) : Host.Outcome State Fault Refusal :=
  .next (running (losAsserted l.val) s)

/-- LOS deasserts (R136). -/
def execLosDeassert (l : Fin 130) (s : State) : Host.Outcome State Fault Refusal :=
  .next (running (losGone l.val) s)

/-- LOL (R136): whether block lock is lost with it, the invalid sync headers that it counts, and the tap that has changed within the
last 10 µs (R147). -/
def execLolDetect (l : Fin 130) (x : LolSeen) (s : State) : Host.Outcome State Fault Refusal :=
  .next (running (lolDetected l.val x.lost x.badHeaders (x.tap.map Fin.val)) s)

/-- The hold of a reverted tap ends (R147). -/
def execEqTapHoldEnd (l : Fin 130) (s : State) : Host.Outcome State Fault Refusal :=
  .next (running (eqHoldEnd l.val) s)

/-- Block lock has been held 0.5 ms (R137). -/
def execBlockLockHeld (l : Fin 130) (s : State) : Host.Outcome State Fault Refusal :=
  .next (running (blockLockHeld l.val) s)

/-- TACQ passes (R137). -/
def execAcquireTimeout (l : Fin 130) (s : State) : Host.Outcome State Fault Refusal :=
  .next (running (acquireTimeout l.val) s)

/-- TFAST passes in FASTRT (R137). -/
def execFastrtTimeout (l : Fin 130) (s : State) : Host.Outcome State Fault Refusal :=
  .next (running (fastrtTimeout l.val) s)

/-- Block lock for 64 blocks in FASTRT (R137). -/
def execFastrtRelock (l : Fin 130) (s : State) : Host.Outcome State Fault Refusal :=
  .next (running (fastrtRelock l.val) s)

/-- 1.0 s in FAILED (R137). -/
def execFailedRetry (l : Fin 130) (s : State) : Host.Outcome State Fault Refusal :=
  .next (running (failedRetry l.val) s)

/-- LN_CTL.RETRAIN (R139). -/
def execLaneRetrain (o : Origin) (l : Fin 130) (s : State) : Host.Outcome State Fault Refusal :=
  .next (within (laneRetrain o l.val) s)

/-- LN_CTL.REACQ (R139). -/
def execLaneReacq (o : Origin) (l : Fin 130) (s : State) : Host.Outcome State Fault Refusal :=
  .next (within (laneReacq o l.val) s)

/-- LN_CTL.TXSLP is set (R144). -/
def execLaneTxSleep (o : Origin) (l : Fin 130) (s : State) : Host.Outcome State Fault Refusal :=
  .next (within (laneTxSleep o l.val) s)

/-- LN_CTL.TXSLP is cleared (R144). -/
def execLaneTxWake (o : Origin) (l : Fin 130) (s : State) : Host.Outcome State Fault Refusal :=
  .next (within (laneTxWake o l.val) s)

/-- LN_CTL.RXSLP is set (R144). -/
def execLaneRxSleep (o : Origin) (l : Fin 130) (s : State) : Host.Outcome State Fault Refusal :=
  .next (within (laneRxSleep o l.val) s)

/-- LN_CTL.RXSLP is cleared (R144). -/
def execLaneRxWake (o : Origin) (l : Fin 130) (s : State) : Host.Outcome State Fault Refusal :=
  .next (within (laneRxWake o l.val) s)

/-- Verification at a step passes (R142). -/
def execRateStepPass (l : Fin 130) (s : State) : Host.Outcome State Fault Refusal :=
  .next (running (rateStepPass l.val) s)

/-- Verification at a step fails (R142). -/
def execRateStepFail (l : Fin 130) (s : State) : Host.Outcome State Fault Refusal :=
  .next (running (rateStepFail l.val) s)

/-- An IDLE block arrives (R135). -/
def execIdleBlockRx (l : Fin 130) (block : BitVec 64) (s : State) : Host.Outcome State Fault Refusal :=
  .next (running (injLane l.val (idleBlock l.val block)) s)

/-- Sixteen IDLE blocks of a new origin (R135). -/
def execOriginChange (l : Fin 130) (s : State) : Host.Outcome State Fault Refusal :=
  .next (running (originChanged l.val) s)

/-- A block arrives that is discarded, or whose sync header is invalid (R134, R157). -/
def execControlBlockDiscard (l : Fin 130) (block : RxBlock) (s : State) : Host.Outcome State Fault Refusal :=
  .next (running (injLane l.val (blockIn l.val block.hdr.toNat block.bits)) s)

/-- The pattern generator starts (R149). -/
def execPrbsGenEnable (o : Origin) (l : Fin 130) (pat : BitVec 3) (s : State) : Host.Outcome State Fault Refusal :=
  .next (within (prbsGen o l.val pat.toNat) s)

/-- The pattern checker starts (R149). -/
def execPrbsChkEnable (o : Origin) (l : Fin 130) (pat : BitVec 3) (s : State) : Host.Outcome State Fault Refusal :=
  .next (within (prbsChk o l.val pat.toNat) s)

/-- One bit error is injected (R149). -/
def execPrbsInjectOne (o : Origin) (l : Fin 130) (s : State) : Host.Outcome State Fault Refusal :=
  .next (within (prbsInj1 o l.val) s)

/-- Bit errors are injected at a rate (R149). -/
def execPrbsInjectRate (o : Origin) (l : Fin 130) (rate : BitVec 4) (s : State) : Host.Outcome State Fault Refusal :=
  .next (within (prbsRate o l.val rate.toNat) s)

/-- Words reach the pattern checker, which locks on 64 error-free ones (R149). -/
def execPrbsCheckerLock (x : PatternRx) (s : State) : Host.Outcome State Fault Refusal :=
  .next (running (prbsWords x.lane.val x.words) s)

/-- A TMX response arrives (R150). -/
def execTmxResponse (l : Fin 130) (tag : BitVec 4) (pos : Fin 128) (res : BitVec 16) (trx : Nat)
    (s : State) : Host.Outcome State Fault Refusal :=
  .next (running (injLane l.val (tmxResponse l.val tag.toNat pos.val res.toNat trx)) s)

/-- No TMX response within 20 µs (R150). -/
def execTmxResponseTimeout (l : Fin 130) (tag : BitVec 4) (s : State) : Host.Outcome State Fault Refusal :=
  .next (running (tmxTimeout l.val tag.toNat) s)

/-- The partner lane's TMX request is stamped (R154). -/
def execTmxE2eStamp (l : Fin 130) (delay : Nat) (s : State) : Host.Outcome State Fault Refusal :=
  .next (running (e2eStamp l.val delay) s)

/-- A receiver gains block lock (R136). -/
def execBlockLockAcquired (l : Fin 130) (s : State) : Host.Outcome State Fault Refusal :=
  .next (running (blockLock l.val) s)

/-- The twin's TMX request arrives (R150, R156). -/
def execTmxRequestRx (x : Fin 2) (tag : BitVec 4) (res : BitVec 16) (s : State) : Host.Outcome State Fault Refusal :=
  .next (running (injLane (128 + x.val) (tmxRequest x.val tag.toNat res.toNat)) s)

/-- The twin's TRN blocks arrive (R140). -/
def execTrnBlockRx (x : Fin 2) (step : BitVec 2) (s : State) : Host.Outcome State Fault Refusal :=
  .next (running (injLane (128 + x.val) (trnBlock x.val step.toNat)) s)

end Sys2Proof.Machine
end

