-- ==== Sys2Proof/Machine/RowsMaint.lean ====
section
/-! DEFINITION. The commands of register writes, maintenance port and JTAG (chapters 14, 18): one meaning each, over the shared operations. -/

namespace Sys2Proof.Machine

/-- A maintenance-port READ frame (R440). -/
def execMpRead (frame : List Byte) (s : State) : Host.Outcome State Fault Refusal :=
  .next (whole (afterFirstMs (mpFrame frame)) s)

/-- A maintenance-port WRITE frame (R440). -/
def execMpWrite (frame : List Byte) (s : State) : Host.Outcome State Fault Refusal :=
  .next (whole (afterFirstMs (mpFrame frame)) s)

/-- An IDREAD frame (R442). -/
def execMpIdread (s : State) : Host.Outcome State Fault Refusal :=
  .next (whole (afterFirstMs mpId) s)

/-- A frame that ends before its request is complete is discarded (R443). -/
def execMpFrameAbort (s : State) : Host.Outcome State Fault Refusal :=
  .next (within (fun d => d) s)

/-- Test-Logic-Reset (R446). -/
def execJtagTrst (s : State) : Host.Outcome State Fault Refusal :=
  .next (within jtagReset s)

/-- EXTEST (R447). -/
def execJtagExtest (scan : BoundaryScan) (s : State) : Host.Outcome State Fault Refusal :=
  .next (whole (jtagDev (jtagExtestD scan)) s)

/-- SAMPLE/PRELOAD (R447). -/
def execJtagSamplePreload (balls : BitVec 71) (preload : BitVec 71) (s : State) : Host.Outcome State Fault Refusal :=
  .next (whole (jtagDev (jtagSampleD balls preload)) s)

/-- IDCODE (R448). -/
def execJtagIdcode (s : State) : Host.Outcome State Fault Refusal :=
  .next (whole (jtagDev jtagIdD) s)

/-- CLAMP (R447). -/
def execJtagClamp (s : State) : Host.Outcome State Fault Refusal :=
  .next (whole (jtagDev (jtagHoldD 0x03 1)) s)

/-- HIGHZ (R447). -/
def execJtagHighz (s : State) : Host.Outcome State Fault Refusal :=
  .next (whole (jtagDev (jtagHoldD 0x04 2)) s)

/-- BYPASS, or an unassigned opcode (R446). Log entry 6 (DESIGN CHOICE). -/
def execJtagBypass (opcode : BitVec 8) (s : State) : Host.Outcome State Fault Refusal :=
  if (Instr.jtagBypass opcode).wf then .next (whole (jtagDev (jtagPass 0xFF false 0)) s) else .fault .illFormed

/-- KEYRD captures the key slots (R449). -/
def execJtagKeyrd (s : State) : Host.Outcome State Fault Refusal :=
  .next (whole keyRead s)

/-- KEYPROG (R449). -/
def execJtagKeyprog (hash : BitVec 256) (slot : Bool) (conf : BitVec 7) (s : State) : Host.Outcome State Fault Refusal :=
  .next (whole (jtagScan (keyProg hash slot conf.toNat)) s)

/-- KEYREV (R449). -/
def execJtagKeyrev (conf : BitVec 8) (s : State) : Host.Outcome State Fault Refusal :=
  .next (whole (jtagScan (keyRev conf.toNat)) s)

/-- A fuse operation completes (R449). -/
def execKeyFuseDone (readback : BitVec 256) (s : State) : Host.Outcome State Fault Refusal :=
  .next (whole (keyDone readback) s)

/-- A register write by an origin (R434). -/
def execRegisterWrite (o : Origin) (addr : BitVec 32) (word : Word) (s : State) : Host.Outcome State Fault Refusal :=
  .next (within (fun d => (writeReg o addr.toNat word d).2) s)

end Sys2Proof.Machine
end

