-- ==== Sys2Proof/Machine/RowsMeasure.lean ====
section
/-! DEFINITION. The commands of measurement (chapter 9): one meaning each, over the shared operations. -/

namespace Sys2Proof.Machine

/-- A conversion slot starts (R244). -/
def execAdcSlotStart (a : Fin 4) (s : State) : Host.Outcome State Fault Refusal :=
  .next (running (slotStart a.val) s)

/-- A conversion completes with its raw codes, 12-bit two's complement (R242, R246). -/
def execConversionComplete (a : Fin 4) (code : BitVec 12) (outCode : BitVec 12)
    (s : State) : Host.Outcome State Fault Refusal :=
  .next (running (convDone a.val code.toInt outCode.toInt) s)

/-- CALN pairs are complete (R249). -/
def execCalibrationStepEnd (a : Fin 4) (s : State) : Host.Outcome State Fault Refusal :=
  .next (running (calStepEnd a.val) s)

/-- The calibrated slice swaps in (R248). -/
def execSliceSwap (a : Fin 4) (s : State) : Host.Outcome State Fault Refusal :=
  .next (running (sliceSwap a.val) s)

/-- The period records of a group close (R251). -/
def execPeriodRecordClose (a : Fin 4) (inTime : Bool) (s : State) : Host.Outcome State Fault Refusal :=
  .next (running (periodRecords a.val inTime) s)

/-- A window record closes (R251). -/
def execWindowRecordClose (i : Fin 32) (s : State) : Host.Outcome State Fault Refusal :=
  .next (running (windowClose i.val) s)

/-- A read of AD_QLO removes the oldest entry (R255). -/
def execAdQloRead (o : Origin) (s : State) : Host.Outcome State Fault Refusal :=
  .next (whole (readOnly o AD_QLO) s)

/-- A read of SUMLO snapshots its record (R254). -/
def execAccumSumloRead (o : Origin) (i : Fin 32) (window : Bool) (s : State) : Host.Outcome State Fault Refusal :=
  .next (whole (readOnly o (if window then WSUMLO i.val else PSUMLO i.val)) s)

/-- An injected conversion is requested (R256). -/
def execAdInjGo (o : Origin) (a : Fin 4) (input : BitVec 3) (s : State) : Host.Outcome State Fault Refusal :=
  .next (within (fun d => (wrAdInj o a.val (BitVec.ofNat 32 (input.toNat + 8)) d).2) s)

end Sys2Proof.Machine
end

