-- ==== Sys2Proof/Machine/RowsNetwork.lean ====
section
/-! DEFINITION. The commands of supervisors, network and SMP (chapters 14, 17): one meaning each, over the shared operations. -/

namespace Sys2Proof.Machine

/-- A supervisor watchdog expires (R343). -/
def execSupervisorWatchdog (sv : Fin 4) (s : State) : Host.Outcome State Fault Refusal :=
  .next (running (watchdog sv.val) s)

/-- A supervisor has restarted (R343). -/
def execSupervisorRestartDone (sv : Fin 4) (s : State) : Host.Outcome State Fault Refusal :=
  .next (wholeRunning (restartDone sv.val) s)

/-- A wait of a task expires (R344). -/
def execTaskWaitTimeout (sv : Fin 4) (s : State) : Host.Outcome State Fault Refusal :=
  .next (running (waitExpired sv.val) s)

/-- A network link comes up (R406). -/
def execNetLinkUp (x : Fin 2) (s : State) : Host.Outcome State Fault Refusal :=
  .next (running (linkUp x.val) s)

/-- A network link goes down (R406). -/
def execNetLinkDown (x : Fin 2) (s : State) : Host.Outcome State Fault Refusal :=
  .next (running (linkDown x.val) s)

/-- An ARP request (R407). -/
def execArpRequestRx (x : Fin 2) (eth : EthHdr) (target : BitVec 32) (senderMac : BitVec 48) (senderIp : BitVec 32)
    (s : State) : Host.Outcome State Fault Refusal :=
  .next (running (arpAsked x.val eth target senderMac senderIp) s)

/-- A Neighbour Solicitation (R407). -/
def execNeighbourSolicitationRx (x : Fin 2) (ip : IpRx) (target : BitVec 128) (senderMac : BitVec 48)
    (senderIp : BitVec 128) (s : State) : Host.Outcome State Fault Refusal :=
  .next (running (neighbourAsked x.val ip target senderMac senderIp) s)

/-- An echo request (R407). -/
def execIcmpEchoRequest (x : Fin 2) (ip : IpRx) (v6 : Bool) (src : BitVec 128) (dst : BitVec 128)
    (data : List Byte) (s : State) : Host.Outcome State Fault Refusal :=
  .next (running (echoAsked x.val ip v6 src dst data) s)

/-- A datagram that is no request of a row (R408, R410). -/
def execSmpInvalidDatagram (x : Fin 2) (sender : Sender) (udp : BitVec 16) (payload : List Byte)
    (s : State) : Host.Outcome State Fault Refusal :=
  .next (wholeRunning (datagramIn x sender udp payload) s)

/-- SETPT (R415). -/
def execSetpt (r : Req) (target : BitVec 8) (ramp : BitVec 16) (value : BitVec 32) (ja : BitVec 32) (tk : Nat)
    (s : State) : Host.Outcome State Fault Refusal :=
  .next (wholeRunning (smpIn tySETPT r (.setpt r target ramp value ja tk)) s)

/-- CMD CHARGE (R416, R387). -/
def execCmdCharge (r : Req) (tk : Nat) (s : State) : Host.Outcome State Fault Refusal :=
  .next (wholeRunning (smpIn tyCMD r (.cmdCharge r tk)) s)

/-- CMD STOP (R416, R399). -/
def execCmdStop (r : Req) (tk : Nat) (s : State) : Host.Outcome State Fault Refusal :=
  .next (wholeRunning (smpIn tyCMD r (.cmdStop r tk)) s)

/-- CMD DEBLOCK (R416, R396). -/
def execCmdDeblock (r : Req) (mask : BitVec 8) (tk : Nat) (s : State) : Host.Outcome State Fault Refusal :=
  .next (wholeRunning (smpIn tyCMD r (.cmdDeblock r mask tk)) s)

/-- CMD BLOCK (R416, R395). -/
def execCmdBlock (r : Req) (mask : BitVec 8) (tk : Nat) (s : State) : Host.Outcome State Fault Refusal :=
  .next (wholeRunning (smpIn tyCMD r (.cmdBlock r mask tk)) s)

/-- TREAD (R417). -/
def execTread (r : Req) (ranges : List PointRange) (s : State) : Host.Outcome State Fault Refusal :=
  .next (wholeRunning (smpIn tyTREAD r (.tread r ranges)) s)

/-- TSUB (R418, R419). -/
def execTsub (r : Req) (subid : BitVec 8) (intv : BitVec 16) (ranges : List PointRange) (tk : Nat)
    (s : State) : Host.Outcome State Fault Refusal :=
  .next (wholeRunning (smpIn tyTSUB r (.tsub r subid intv ranges tk)) s)

/-- TUNSUB (R419). -/
def execTunsub (r : Req) (subid : BitVec 8) (s : State) : Host.Outcome State Fault Refusal :=
  .next (wholeRunning (smpIn tyTUNSUB r (.tunsub r subid)) s)

/-- A delivery that has been read leaves (R418). -/
def execSubscriptionDelivery (subid : Fin 32) (inTime : Bool) (s : State) : Host.Outcome State Fault Refusal :=
  .next (running (subDeliver subid.val inTime) s)

/-- An EVENT message leaves (R420). -/
def execEventMessageSend (s : State) : Host.Outcome State Fault Refusal :=
  .next (running eventSend s)

/-- A STATUS message leaves (R421). -/
def execStatusSend (s : State) : Host.Outcome State Fault Refusal :=
  .next (running statusSend s)

/-- MOPEN (R422). -/
def execMopen (r : Req) (challenge : BitVec 128) (s : State) : Host.Outcome State Fault Refusal :=
  .next (wholeRunning (smpIn tyMOPEN r (.mopen r challenge)) s)

/-- MAUTH (R423). -/
def execMauth (r : Req) (au : Auth) (s : State) : Host.Outcome State Fault Refusal :=
  .next (wholeRunning (smpIn tyMAUTH r (.mauth r au)) s)

/-- MREAD (R424). -/
def execMread (r : Req) (sid : BitVec 32) (mcnt : BitVec 32) (addr : BitVec 32) (nw : BitVec 16)
    (s : State) : Host.Outcome State Fault Refusal :=
  .next (wholeRunning (smpIn tyMREAD r (.mread r sid mcnt addr nw)) s)

/-- MWRITE (R424). -/
def execMwrite (r : Req) (au : Auth) (addr : BitVec 32) (words : List Word) (s : State) : Host.Outcome State Fault Refusal :=
  .next (wholeRunning (smpIn tyMWRITE r (.mwrite r au addr words)) s)

/-- IOPEN (R425). -/
def execIopen (r : Req) (au : Auth) (sfdpOk : Bool) (density : Nat) (s : State) : Host.Outcome State Fault Refusal :=
  .next (wholeRunning (smpIn tyIOPEN r (.iopen r au sfdpOk density)) s)

/-- IDATA (R426). -/
def execIdata (r : Req) (sid : BitVec 32) (mcnt : BitVec 32) (offset : BitVec 32) (data : List Byte)
    (s : State) : Host.Outcome State Fault Refusal :=
  .next (wholeRunning (smpIn tyIDATA r (.idata r sid mcnt offset data)) s)

/-- MCLOSE (R422). -/
def execMclose (r : Req) (au : Auth) (s : State) : Host.Outcome State Fault Refusal :=
  .next (wholeRunning (smpIn tyMCLOSE r (.mclose r au)) s)

/-- The session times out (R422). -/
def execSessionTimeout (s : State) : Host.Outcome State Fault Refusal :=
  .next (running sessTimeout s)

/-- The inactive bank is erased (R378). -/
def execImageEraseDone (s : State) : Host.Outcome State Fault Refusal :=
  .next (running imageErased s)

/-- The received image is verified (R378). -/
def execImageVerifyDone (s : State) : Host.Outcome State Fault Refusal :=
  .next (wholeRunning imageVerified s)

/-- An ARP reply (R407). -/
def execArpReplyRx (x : Fin 2) (eth : EthHdr) (senderMac : BitVec 48) (senderIp : BitVec 32)
    (s : State) : Host.Outcome State Fault Refusal :=
  .next (running (arpAnswered x.val eth senderMac senderIp) s)

/-- A Neighbour Advertisement (R407). -/
def execNeighbourAdvertisementRx (x : Fin 2) (rx : IpRx) (mac : BitVec 48) (ip : BitVec 128)
    (s : State) : Host.Outcome State Fault Refusal :=
  .next (running (neighbourAnswered x.val rx mac ip) s)

/-- A cached address expires (R407). -/
def execArpCacheExpiry (x : Fin 2) (ip : BitVec 32) (s : State) : Host.Outcome State Fault Refusal :=
  .next (running (arpDrop x.val (v4Addr ip).toNat) s)

/-- A flash page is programmed or erased (R379, R426). -/
def execPageProgramDone (page : PageRx) (erase : Bool) (s : State) : Host.Outcome State Fault Refusal :=
  .next (wholeRunning (pageDone page erase) s)

end Sys2Proof.Machine
end

