-- ==== Sys2Proof/Machine/RowsPlan.lean ====
section
/-! DEFINITION. The commands of planning and law of a region (chapters 3, 7): one meaning each, over the shared operations. -/

namespace Sys2Proof.Machine

/-- The report deadline (Table 3.3). -/
def execReportDeadline (g : Fin 8) (s : State) : Host.Outcome State Fault Refusal :=
  .next (running (reportDeadlineD g.val) s)

/-- A gathering is delivered (R87, R98). -/
def execGatheringDelivered (q : Fin 64) (tk : Nat) (s : State) : Host.Outcome State Fault Refusal :=
  .next (running (fun d => gatherIn q.val tk (d.at_ tk)) s)

/-- A unit completes a run (R42). Log entry 6 (DESIGN CHOICE). -/
def execUnitRunComplete (cls : Fin 6) (unit : Nat) (ts : Nat) (td : Nat) (tdl : Nat)
    (s : State) : Host.Outcome State Fault Refusal :=
  if (Instr.unitRunComplete cls unit ts td tdl).wf
  then .next (running (unitRun cls.val unit ts td tdl) s)
  else .fault .illFormed

/-- The gathering deadline (R88). -/
def execGatherDeadline (g : Fin 8) (s : State) : Host.Outcome State Fault Refusal :=
  .next (running (gatherDeadlineD g.val) s)

/-- A channel computes its run-ahead plan (Table 3.3). -/
def execRunaheadPlan (g : Fin 8) (c : Fin 3) (upset : BitVec 32) (s : State) : Host.Outcome State Fault Refusal :=
  .next (running (injChan g.val c.val (runAhead g.val c.val upset.toNat)) s)

/-- PDL (R103). -/
def execPlanDeadline (g : Fin 8) (s : State) : Host.Outcome State Fault Refusal :=
  .next (running (planDeadlineD g.val) s)

/-- CP (R97). -/
def execCommitPoint (g : Fin 8) (s : State) : Host.Outcome State Fault Refusal :=
  .next (running (commitPointD g.val) s)

/-- RGDL (R98). -/
def execRegatherDeadline (g : Fin 8) (s : State) : Host.Outcome State Fault Refusal :=
  .next (running (regatherDeadlineD g.val) s)

/-- A channel recomputes its plan (R97). -/
def execRecompute (g : Fin 8) (c : Fin 3) (upset : BitVec 32) (s : State) : Host.Outcome State Fault Refusal :=
  .next (running (injChan g.val c.val (recomputeD g.val c.val upset.toNat)) s)

/-- RCDL (R103). -/
def execRecomputeDeadline (g : Fin 8) (s : State) : Host.Outcome State Fault Refusal :=
  .next (running (recomputeDeadlineD g.val) s)

/-- The recompute vote (R224). -/
def execRecomputeVote (g : Fin 8) (s : State) : Host.Outcome State Fault Refusal :=
  .next (running (recomputeVoteD g.val) s)

/-- A plan comes after its vote (R225). -/
def execLatePlanArrival (g : Fin 8) (p : LatePlan) (s : State) : Host.Outcome State Fault Refusal :=
  .next (running (injChan g.val p.c.val (latePlan g.val p.c.val p.upset.toNat)) s)

/-- The VOTE deadline (R226). -/
def execVoteDeadline (v : VoteEnd) (s : State) : Host.Outcome State Fault Refusal :=
  .next (running (voteDeadlineD v.g.val v.recBad.toNat v.scanBad.toNat) s)

/-- RG_MODCTL.HALT is written with 1 (R105). -/
def execModHalt (o : Origin) (g : Fin 8) (s : State) : Host.Outcome State Fault Refusal :=
  .next (within (fun d => (wrModCtl o g.val 1 d).2) s)

/-- RG_MODCTL.HALT is written with 0 (R107). -/
def execModHaltEnd (o : Origin) (g : Fin 8) (tk : Nat) (s : State) : Host.Outcome State Fault Refusal :=
  .next (within (fun d => (wrModCtl o g.val 0 (d.at_ tk)).2) s)

/-- A channel runs the law (R197). -/
def execLawRun (g : Fin 8) (c : Fin 3) (s : State) : Host.Outcome State Fault Refusal :=
  .next (running (injChan g.val c.val (lawRun g.val c.val)) s)

/-- The LAW deadline (R198). -/
def execLawDeadline (g : Fin 8) (s : State) : Host.Outcome State Fault Refusal :=
  .next (running (lawDeadline g.val) s)

end Sys2Proof.Machine
end

