-- ==== Sys2Proof/Machine/RowsPower.lean ====
section
/-! DEFINITION. The commands of power, start-up and mode (chapters 1, 16, 19): one meaning each, over the shared operations. -/

namespace Sys2Proof.Machine

/-- Reset is released (R455). -/
def execResetRelease (s : State) : Host.Outcome State Fault Refusal :=
  .next (resetReleaseF s)

/-- The main supplies are cycled (R12, R453): the way out of STOP. -/
def execPowerCycle (s : State) : Host.Outcome State Fault Refusal :=
  .next (powerCycleF s)

/-- A rail lies outside its window (R453): FC_CHIP.SUPPLY, which is STOP; VAUX engages the clasps too (R320). -/
def execSupplyOutOfWindow (rail : Rail) (s : State) : Host.Outcome State Fault Refusal :=
  .next (within (fun d => match rail with
      | .vaux => supplyFault (vauxLost d)
      | _ => supplyFault d) s)

/-- RESET_N low after reset release (R456). -/
def execResetNLow (s : State) : Host.Outcome State Fault Refusal :=
  .next (within supplyFault s)

/-- VBAT is lost (R461). -/
def execVbatLoss (s : State) : Host.Outcome State Fault Refusal :=
  .next (vbatLossF s)

/-- VAUX outside its operating range: both clasps engage (R320). -/
def execVauxOutOfRange (s : State) : Host.Outcome State Fault Refusal :=
  .next (within vauxLost s)

/-- Image checks finish (R371). -/
def execImageLoadComplete (a : BankRx) (b : BankRx) (s : State) : Host.Outcome State Fault Refusal :=
  .next (wholeRunning (imageLoadF a b) s)

/-- A PLL locks (R265). -/
def execPllLock (p : PllRx) (s : State) : Host.Outcome State Fault Refusal :=
  .next (wholeRunning (pllLockF p) s)

/-- CHECK completes (R384). Log entries 6 (DESIGN CHOICE), 30 (DESIGN CHOICE). -/
def execCheckComplete (pass : Bool) (defects : List Defect) (cal : List SliceCal)
    (s : State) : Host.Outcome State Fault Refusal :=
  if (Instr.checkComplete pass defects cal).wf
  then .next (wholeRunning (checkCompleteF pass defects cal) s)
  else .fault .illFormed

/-- Entry to IDLE (R385, R399). -/
def execIdleEntry (s : State) : Host.Outcome State Fault Refusal :=
  .next (running idleEntryD s)

/-- The END = 0 device decides to be ACTIVE (R386). -/
def execTwinActiveDecision (s : State) : Host.Outcome State Fault Refusal :=
  .next (running twinIdleActive s)

/-- Entry to CHARGE at its boundary (R389). -/
def execChargeEntry (s : State) : Host.Outcome State Fault Refusal :=
  .next (running chargeEntryD s)

/-- BLOCK is left for CHARGE (R400). -/
def execRestartFromBlock (s : State) : Host.Outcome State Fault Refusal :=
  .next (running restartD s)

/-- An accepted deblock takes effect (R396, R397). -/
def execDeblockEffect (s : State) : Host.Outcome State Fault Refusal :=
  .next (running deblockEffectD s)

/-- 60 s in CHARGE without every region READY (R398). -/
def execChargeTimeout (s : State) : Host.Outcome State Fault Refusal :=
  .next (running chargeTimeoutD s)

/-- A boundary of the grid (R273). -/
def execPeriodBoundary (s : State) : Host.Outcome State Fault Refusal :=
  .next (running periodBoundaryD s)

/-- A spare takes over (R49). -/
def execSpareTakeover (s : State) : Host.Outcome State Fault Refusal :=
  .next (running takeover s)

end Sys2Proof.Machine
end

