-- ==== Sys2Proof/Machine/RowsRecorder.lean ====
section
/-! DEFINITION. The commands of disturbance recorder (chapter 13): one meaning each, over the shared operations. -/

namespace Sys2Proof.Machine

/-- An entry reaches the reorder stage (R327, R331). -/
def execRecorderEntryIn (s : State) : Host.Outcome State Fault Refusal :=
  .next (running entryIn s)

/-- The entry due leaves the stage (R327). -/
def execRecorderEntryWrite (s : State) : Host.Outcome State Fault Refusal :=
  .next (wholeRunning entryWrite s)

/-- The record has reached its size (R333). -/
def execRecordComplete (s : State) : Host.Outcome State Fault Refusal :=
  .next (running recordCompleteD s)

/-- POSTMAX has passed (R333). -/
def execRecordPostmaxExpiry (s : State) : Host.Outcome State Fault Refusal :=
  .next (running postmaxExpired s)

/-- Space has returned after a drop (R331). -/
def execRecorderGapEntry (s : State) : Host.Outcome State Fault Refusal :=
  .next (running gapEntry s)

/-- DR_CTL.ARM (R334). -/
def execDrArm (o : Origin) (s : State) : Host.Outcome State Fault Refusal :=
  .next (within (fun d => (wrDrCtl o 1 d).2) s)

/-- DR_CTL.FORCE (R334). -/
def execDrForce (o : Origin) (s : State) : Host.Outcome State Fault Refusal :=
  .next (within (fun d => (wrDrCtl o 2 d).2) s)

/-- DR_CTL.DISARM (R334). -/
def execDrDisarm (o : Origin) (s : State) : Host.Outcome State Fault Refusal :=
  .next (within (fun d => (wrDrCtl o 4 d).2) s)

/-- DR_CTL.REL (R334). -/
def execDrRel (o : Origin) (mask : BitVec 16) (s : State) : Host.Outcome State Fault Refusal :=
  .next (within (fun d => (wrDrCtl o (BitVec.ofNat 32 (mask.toNat * 2 ^ 16)) d).2) s)

/-- An XTRIG input asserts (R337). -/
def execXtrigAssert (x : Fin 2) (tk : Nat) (s : State) : Host.Outcome State Fault Refusal :=
  .next (running (xtrigIn x.val tk) s)

/-- The drive of an XTRIG line ends (R337). -/
def execXtrigPulseEnd (x : Fin 2) (s : State) : Host.Outcome State Fault Refusal :=
  .next (running (xtrigEnd x.val) s)

/-- A read of word 0 of a slot snapshots the slot (R325). -/
def execRecorderWord0Read (o : Origin) (slot : Fin 1048576) (s : State) : Host.Outcome State Fault Refusal :=
  .next (whole (readOnly o (0x10000000 + 32 * slot.val)) s)

/-- An XTRIG input returns inactive (R337). -/
def execXtrigDeassert (x : Fin 2) (tk : Nat) (s : State) : Host.Outcome State Fault Refusal :=
  .next (running (xtrigOut x.val tk) s)

end Sys2Proof.Machine
end

