-- ==== Sys2Proof/Machine/RowsSafety.lean ====
section
/-! DEFINITION. The commands of safety channel (chapter 12): one meaning each, over the shared operations. -/

namespace Sys2Proof.Machine

/-- The safety cycle (R308). -/
def execSafetyCycle (crcOk : Bool) (hrb lrb : NodeRx) (s : State) : Host.Outcome State Fault Refusal :=
  .next (within (safetyCycleD crcOk hrb lrb) s)

/-- A filtered channel of an input changes (R312). -/
def execSafetyInputFilter (i : Fin 8) (chB : Bool) (level : Bool) (s : State) : Host.Outcome State Fault Refusal :=
  .next (within (sfFilter i.val chB level) s)

/-- A filtered channel of the reset changes (R321). -/
def execSafetyResetFilter (chB : Bool) (level : Bool) (s : State) : Host.Outcome State Fault Refusal :=
  .next (within (rstFilter chB level) s)

/-- A reset is held beyond 5.0 s (R321). -/
def execResetHoldTimeout (s : State) : Host.Outcome State Fault Refusal :=
  .next (within rstHeld s)

/-- A discrepancy outlasts its time (R314). -/
def execDiscrepancyTimeout (i : Fin 8) (s : State) : Host.Outcome State Fault Refusal :=
  .next (within (discrepancy i.val) s)

/-- A switch disagrees with its command (R317). -/
def execReadbackMismatch (x : Fin 2) (sw : Switch) (s : State) : Host.Outcome State Fault Refusal :=
  .next (within (readback x.val sw) s)

/-- The next test of an output starts (R318). -/
def execPermitTest (x : Fin 2) (s : State) : Host.Outcome State Fault Refusal :=
  .next (within (permitTestD x.val) s)

/-- The test width ends (R318). -/
def execTestWidthEnd (x : Fin 2) (s : State) : Host.Outcome State Fault Refusal :=
  .next (within (testEnd x.val) s)

end Sys2Proof.Machine
end

