-- ==== Sys2Proof/Machine/Dispatch.lean ====
section
/-! DEFINITION. One arm for each command of the block. -/

namespace Sys2Proof.Machine

/-- The effect of a command on everything but the queue. Log entry 4 (DESIGN CHOICE). -/
def exec (i : Instr) (s : State) : Host.Outcome State Fault Refusal :=
  match i with
  | .resetRelease => Sys2Proof.Machine.execResetRelease s
  | .powerCycle => Sys2Proof.Machine.execPowerCycle s
  | .supplyOutOfWindow rail => Sys2Proof.Machine.execSupplyOutOfWindow rail s
  | .resetNLow => Sys2Proof.Machine.execResetNLow s
  | .vbatLoss => Sys2Proof.Machine.execVbatLoss s
  | .vauxOutOfRange => Sys2Proof.Machine.execVauxOutOfRange s
  | .imageLoadComplete a b => Sys2Proof.Machine.execImageLoadComplete a b s
  | .pllLock p => Sys2Proof.Machine.execPllLock p s
  | .checkComplete pass defects cal => Sys2Proof.Machine.execCheckComplete pass defects cal s
  | .idleEntry => Sys2Proof.Machine.execIdleEntry s
  | .twinActiveDecision => Sys2Proof.Machine.execTwinActiveDecision s
  | .chargeEntry => Sys2Proof.Machine.execChargeEntry s
  | .restartFromBlock => Sys2Proof.Machine.execRestartFromBlock s
  | .deblockEffect => Sys2Proof.Machine.execDeblockEffect s
  | .chargeTimeout => Sys2Proof.Machine.execChargeTimeout s
  | .periodBoundary => Sys2Proof.Machine.execPeriodBoundary s
  | .spareTakeover => Sys2Proof.Machine.execSpareTakeover s
  | .suspectTimeout n => Sys2Proof.Machine.execSuspectTimeout n s
  | .reportReceived n laneB raw tk => Sys2Proof.Machine.execReportReceived n laneB raw tk s
  | .blockConfirmExpiry g => Sys2Proof.Machine.execBlockConfirmExpiry g s
  | .estimatorWindowEnd n => Sys2Proof.Machine.execEstimatorWindowEnd n s
  | .ceRelease o n => Sys2Proof.Machine.execCeRelease o n s
  | .ceForceBypass o n => Sys2Proof.Machine.execCeForceBypass o n s
  | .diagGo o n code inrun arg => Sys2Proof.Machine.execDiagGo o n code inrun arg s
  | .diagTimeout n => Sys2Proof.Machine.execDiagTimeout n s
  | .ceRep0Read o n => Sys2Proof.Machine.execCeRep0Read o n s
  | .lowHalfRead o addr => Sys2Proof.Machine.execLowHalfRead o addr s
  | .reportDeadline g => Sys2Proof.Machine.execReportDeadline g s
  | .gatheringDelivered q tk => Sys2Proof.Machine.execGatheringDelivered q tk s
  | .unitRunComplete cls unit ts td tdl => Sys2Proof.Machine.execUnitRunComplete cls unit ts td tdl s
  | .gatherDeadline g => Sys2Proof.Machine.execGatherDeadline g s
  | .runaheadPlan g c upset => Sys2Proof.Machine.execRunaheadPlan g c upset s
  | .planDeadline g => Sys2Proof.Machine.execPlanDeadline g s
  | .commitPoint g => Sys2Proof.Machine.execCommitPoint g s
  | .regatherDeadline g => Sys2Proof.Machine.execRegatherDeadline g s
  | .recompute g c upset => Sys2Proof.Machine.execRecompute g c upset s
  | .recomputeDeadline g => Sys2Proof.Machine.execRecomputeDeadline g s
  | .recomputeVote g => Sys2Proof.Machine.execRecomputeVote g s
  | .latePlanArrival g p => Sys2Proof.Machine.execLatePlanArrival g p s
  | .voteDeadline v => Sys2Proof.Machine.execVoteDeadline v s
  | .modHalt o g => Sys2Proof.Machine.execModHalt o g s
  | .modHaltEnd o g tk => Sys2Proof.Machine.execModHaltEnd o g tk s
  | .lawRun g c => Sys2Proof.Machine.execLawRun g c s
  | .lawDeadline g => Sys2Proof.Machine.execLawDeadline g s
  | .channelSelfCheckFail g c cause => Sys2Proof.Machine.execChannelSelfCheckFail g c cause s
  | .channelSelfTestDone g c bad => Sys2Proof.Machine.execChannelSelfTestDone g c bad s
  | .resyncCopyDone g c => Sys2Proof.Machine.execResyncCopyDone g c s
  | .resyncCheckDone g c => Sys2Proof.Machine.execResyncCheckDone g c s
  | .twinArbRx r => Sys2Proof.Machine.execTwinArbRx r s
  | .twinMullRx m => Sys2Proof.Machine.execTwinMullRx m s
  | .twinStatRx r tk => Sys2Proof.Machine.execTwinStatRx r tk s
  | .tgivRx => Sys2Proof.Machine.execTgivRx s
  | .twinRecordTimeout => Sys2Proof.Machine.execTwinRecordTimeout s
  | .mullTimeout => Sys2Proof.Machine.execMullTimeout s
  | .twinResyncDone => Sys2Proof.Machine.execTwinResyncDone s
  | .secondActiveDetect => Sys2Proof.Machine.execSecondActiveDetect s
  | .losAssert l => Sys2Proof.Machine.execLosAssert l s
  | .losDeassert l => Sys2Proof.Machine.execLosDeassert l s
  | .lolDetect l x => Sys2Proof.Machine.execLolDetect l x s
  | .eqTapHoldEnd l => Sys2Proof.Machine.execEqTapHoldEnd l s
  | .blockLockHeld l => Sys2Proof.Machine.execBlockLockHeld l s
  | .acquireTimeout l => Sys2Proof.Machine.execAcquireTimeout l s
  | .fastrtTimeout l => Sys2Proof.Machine.execFastrtTimeout l s
  | .fastrtRelock l => Sys2Proof.Machine.execFastrtRelock l s
  | .failedRetry l => Sys2Proof.Machine.execFailedRetry l s
  | .laneRetrain o l => Sys2Proof.Machine.execLaneRetrain o l s
  | .laneReacq o l => Sys2Proof.Machine.execLaneReacq o l s
  | .laneTxSleep o l => Sys2Proof.Machine.execLaneTxSleep o l s
  | .laneTxWake o l => Sys2Proof.Machine.execLaneTxWake o l s
  | .laneRxSleep o l => Sys2Proof.Machine.execLaneRxSleep o l s
  | .laneRxWake o l => Sys2Proof.Machine.execLaneRxWake o l s
  | .rateStepPass l => Sys2Proof.Machine.execRateStepPass l s
  | .rateStepFail l => Sys2Proof.Machine.execRateStepFail l s
  | .idleBlockRx l block => Sys2Proof.Machine.execIdleBlockRx l block s
  | .originChange l => Sys2Proof.Machine.execOriginChange l s
  | .controlBlockDiscard l block => Sys2Proof.Machine.execControlBlockDiscard l block s
  | .prbsGenEnable o l pat => Sys2Proof.Machine.execPrbsGenEnable o l pat s
  | .prbsChkEnable o l pat => Sys2Proof.Machine.execPrbsChkEnable o l pat s
  | .prbsInjectOne o l => Sys2Proof.Machine.execPrbsInjectOne o l s
  | .prbsInjectRate o l rate => Sys2Proof.Machine.execPrbsInjectRate o l rate s
  | .prbsCheckerLock x => Sys2Proof.Machine.execPrbsCheckerLock x s
  | .tmxResponse l tag pos res trx => Sys2Proof.Machine.execTmxResponse l tag pos res trx s
  | .tmxResponseTimeout l tag => Sys2Proof.Machine.execTmxResponseTimeout l tag s
  | .tmxE2eStamp l delay => Sys2Proof.Machine.execTmxE2eStamp l delay s
  | .frameCollectionPoint q => Sys2Proof.Machine.execFrameCollectionPoint q s
  | .frameDeadlineMiss q => Sys2Proof.Machine.execFrameDeadlineMiss q s
  | .frameRelease q depA depB => Sys2Proof.Machine.execFrameRelease q depA depB s
  | .hopBlockRx l hopcnt => Sys2Proof.Machine.execHopBlockRx l hopcnt s
  | .reachUpdate q endB => Sys2Proof.Machine.execReachUpdate q endB s
  | .budgetAchieved q => Sys2Proof.Machine.execBudgetAchieved q s
  | .requestWordsRx q window words => Sys2Proof.Machine.execRequestWordsRx q window words s
  | .eventRecordRx q slot fseq record tk => Sys2Proof.Machine.execEventRecordRx q slot fseq record tk s
  | .adcSlotStart a => Sys2Proof.Machine.execAdcSlotStart a s
  | .conversionComplete a code outCode => Sys2Proof.Machine.execConversionComplete a code outCode s
  | .calibrationStepEnd a => Sys2Proof.Machine.execCalibrationStepEnd a s
  | .sliceSwap a => Sys2Proof.Machine.execSliceSwap a s
  | .periodRecordClose a inTime => Sys2Proof.Machine.execPeriodRecordClose a inTime s
  | .windowRecordClose ix => Sys2Proof.Machine.execWindowRecordClose ix s
  | .adQloRead o => Sys2Proof.Machine.execAdQloRead o s
  | .accumSumloRead o ix window => Sys2Proof.Machine.execAccumSumloRead o ix window s
  | .adInjGo o a input => Sys2Proof.Machine.execAdInjGo o a input s
  | .referenceLost => Sys2Proof.Machine.execReferenceLost s
  | .referenceQualified => Sys2Proof.Machine.execReferenceQualified s
  | .pllUpdate o p => Sys2Proof.Machine.execPllUpdate o p s
  | .pllBandSearchDone p band => Sys2Proof.Machine.execPllBandSearchDone p band s
  | .pllLockFail p => Sys2Proof.Machine.execPllLockFail p s
  | .pllLossOfLock p => Sys2Proof.Machine.execPllLossOfLock p s
  | .pllPhaseSteps o steps => Sys2Proof.Machine.execPllPhaseSteps o steps s
  | .timebaseAlignStep => Sys2Proof.Machine.execTimebaseAlignStep s
  | .tmIncrWrite o corr => Sys2Proof.Machine.execTmIncrWrite o corr s
  | .tmAdjWrite o ofs => Sys2Proof.Machine.execTmAdjWrite o ofs s
  | .jumpRequest o jlo => Sys2Proof.Machine.execJumpRequest o jlo s
  | .tmNow0Read o => Sys2Proof.Machine.execTmNow0Read o s
  | .ptpAnnounceRx m => Sys2Proof.Machine.execPtpAnnounceRx m s
  | .ptpSyncRx port eth domain logInterval twoStep seq origin corr rx => Sys2Proof.Machine.execPtpSyncRx port eth domain logInterval twoStep seq origin corr rx s
  | .ptpFollowUpRx port eth domain seq origin corr => Sys2Proof.Machine.execPtpFollowUpRx port eth domain seq origin corr s
  | .ptpPdelayReqRx port eth domain seq src rx tx => Sys2Proof.Machine.execPtpPdelayReqRx port eth domain seq src rx tx s
  | .ptpPdelayRespRx port eth domain seq followUp t corr rx => Sys2Proof.Machine.execPtpPdelayRespRx port eth domain seq followUp t corr rx s
  | .ptpPdelayReqSend port tx => Sys2Proof.Machine.execPtpPdelayReqSend port tx s
  | .ptpIgnoredMessage port => Sys2Proof.Machine.execPtpIgnoredMessage port s
  | .ptpReceiptTimeout masterLost => Sys2Proof.Machine.execPtpReceiptTimeout masterLost s
  | .holdoverExpiry => Sys2Proof.Machine.execHoldoverExpiry s
  | .todWriteback => Sys2Proof.Machine.execTodWriteback s
  | .protectiveOverride tk => Sys2Proof.Machine.execProtectiveOverride tk s
  | .tripInputAssert x tk => Sys2Proof.Machine.execTripInputAssert x tk s
  | .tripInputDeassert x tk => Sys2Proof.Machine.execTripInputDeassert x tk s
  | .faultInject o target double inst => Sys2Proof.Machine.execFaultInject o target double inst s
  | .spineCrcError link retryFails spareFails priority1 => Sys2Proof.Machine.execSpineCrcError link retryFails spareFails priority1 s
  | .sramEccError mem double row scrub => Sys2Proof.Machine.execSramEccError mem double row scrub s
  | .sramScrub => Sys2Proof.Machine.execSramScrub s
  | .tjSensorUpdate tj => Sys2Proof.Machine.execTjSensorUpdate tj s
  | .tjTripTimeout => Sys2Proof.Machine.execTjTripTimeout s
  | .evalWindowEnd => Sys2Proof.Machine.execEvalWindowEnd s
  | .avsAck => Sys2Proof.Machine.execAvsAck s
  | .avsTimeout => Sys2Proof.Machine.execAvsTimeout s
  | .marginHoldoffEnd => Sys2Proof.Machine.execMarginHoldoffEnd s
  | .journalWrite a b => Sys2Proof.Machine.execJournalWrite a b s
  | .safetyCycle crcOk hrb lrb => Sys2Proof.Machine.execSafetyCycle crcOk hrb lrb s
  | .safetyInputFilter ix chB level => Sys2Proof.Machine.execSafetyInputFilter ix chB level s
  | .safetyResetFilter chB level => Sys2Proof.Machine.execSafetyResetFilter chB level s
  | .resetHoldTimeout => Sys2Proof.Machine.execResetHoldTimeout s
  | .discrepancyTimeout ix => Sys2Proof.Machine.execDiscrepancyTimeout ix s
  | .readbackMismatch x sw => Sys2Proof.Machine.execReadbackMismatch x sw s
  | .permitTest x => Sys2Proof.Machine.execPermitTest x s
  | .recorderEntryIn => Sys2Proof.Machine.execRecorderEntryIn s
  | .recorderEntryWrite => Sys2Proof.Machine.execRecorderEntryWrite s
  | .recordComplete => Sys2Proof.Machine.execRecordComplete s
  | .recordPostmaxExpiry => Sys2Proof.Machine.execRecordPostmaxExpiry s
  | .recorderGapEntry => Sys2Proof.Machine.execRecorderGapEntry s
  | .drArm o => Sys2Proof.Machine.execDrArm o s
  | .drForce o => Sys2Proof.Machine.execDrForce o s
  | .drDisarm o => Sys2Proof.Machine.execDrDisarm o s
  | .drRel o mask => Sys2Proof.Machine.execDrRel o mask s
  | .xtrigAssert x tk => Sys2Proof.Machine.execXtrigAssert x tk s
  | .xtrigPulseEnd x => Sys2Proof.Machine.execXtrigPulseEnd x s
  | .recorderWord0Read o slot => Sys2Proof.Machine.execRecorderWord0Read o slot s
  | .supervisorWatchdog sv => Sys2Proof.Machine.execSupervisorWatchdog sv s
  | .supervisorRestartDone sv => Sys2Proof.Machine.execSupervisorRestartDone sv s
  | .taskWaitTimeout sv => Sys2Proof.Machine.execTaskWaitTimeout sv s
  | .netLinkUp x => Sys2Proof.Machine.execNetLinkUp x s
  | .netLinkDown x => Sys2Proof.Machine.execNetLinkDown x s
  | .arpRequestRx x eth target senderMac senderIp => Sys2Proof.Machine.execArpRequestRx x eth target senderMac senderIp s
  | .neighbourSolicitationRx x eth target senderMac senderIp => Sys2Proof.Machine.execNeighbourSolicitationRx x eth target senderMac senderIp s
  | .icmpEchoRequest x eth v6 src dst data => Sys2Proof.Machine.execIcmpEchoRequest x eth v6 src dst data s
  | .smpInvalidDatagram x addr udp payload => Sys2Proof.Machine.execSmpInvalidDatagram x addr udp payload s
  | .setpt r target ramp value ja tk => Sys2Proof.Machine.execSetpt r target ramp value ja tk s
  | .cmdCharge r tk => Sys2Proof.Machine.execCmdCharge r tk s
  | .cmdStop r tk => Sys2Proof.Machine.execCmdStop r tk s
  | .cmdDeblock r mask tk => Sys2Proof.Machine.execCmdDeblock r mask tk s
  | .cmdBlock r mask tk => Sys2Proof.Machine.execCmdBlock r mask tk s
  | .tread r ranges => Sys2Proof.Machine.execTread r ranges s
  | .tsub r subid intv ranges tk => Sys2Proof.Machine.execTsub r subid intv ranges tk s
  | .tunsub r subid => Sys2Proof.Machine.execTunsub r subid s
  | .subscriptionDelivery subid inTime => Sys2Proof.Machine.execSubscriptionDelivery subid inTime s
  | .eventMessageSend => Sys2Proof.Machine.execEventMessageSend s
  | .statusSend => Sys2Proof.Machine.execStatusSend s
  | .mopen r challenge => Sys2Proof.Machine.execMopen r challenge s
  | .mauth r au => Sys2Proof.Machine.execMauth r au s
  | .mread r sid mcnt addr nw => Sys2Proof.Machine.execMread r sid mcnt addr nw s
  | .mwrite r au addr words => Sys2Proof.Machine.execMwrite r au addr words s
  | .iopen r au sfdpOk density => Sys2Proof.Machine.execIopen r au sfdpOk density s
  | .idata r sid mcnt offset data => Sys2Proof.Machine.execIdata r sid mcnt offset data s
  | .mclose r au => Sys2Proof.Machine.execMclose r au s
  | .sessionTimeout => Sys2Proof.Machine.execSessionTimeout s
  | .imageEraseDone => Sys2Proof.Machine.execImageEraseDone s
  | .imageVerifyDone => Sys2Proof.Machine.execImageVerifyDone s
  | .mpRead frame => Sys2Proof.Machine.execMpRead frame s
  | .mpWrite frame => Sys2Proof.Machine.execMpWrite frame s
  | .mpIdread => Sys2Proof.Machine.execMpIdread s
  | .mpFrameAbort => Sys2Proof.Machine.execMpFrameAbort s
  | .jtagTrst => Sys2Proof.Machine.execJtagTrst s
  | .jtagExtest boundary => Sys2Proof.Machine.execJtagExtest boundary s
  | .jtagSamplePreload balls preload => Sys2Proof.Machine.execJtagSamplePreload balls preload s
  | .jtagIdcode => Sys2Proof.Machine.execJtagIdcode s
  | .jtagClamp => Sys2Proof.Machine.execJtagClamp s
  | .jtagHighz => Sys2Proof.Machine.execJtagHighz s
  | .jtagBypass opcode => Sys2Proof.Machine.execJtagBypass opcode s
  | .jtagKeyrd => Sys2Proof.Machine.execJtagKeyrd s
  | .jtagKeyprog hash slot conf => Sys2Proof.Machine.execJtagKeyprog hash slot conf s
  | .jtagKeyrev conf => Sys2Proof.Machine.execJtagKeyrev conf s
  | .keyFuseDone readback => Sys2Proof.Machine.execKeyFuseDone readback s
  | .registerWrite o addr word => Sys2Proof.Machine.execRegisterWrite o addr word s
  | .blockLockAcquired l => Sys2Proof.Machine.execBlockLockAcquired l s
  | .xtrigDeassert x tk => Sys2Proof.Machine.execXtrigDeassert x tk s
  | .tmxRequestRx x tag res => Sys2Proof.Machine.execTmxRequestRx x tag res s
  | .trnBlockRx x step => Sys2Proof.Machine.execTrnBlockRx x step s
  | .arpReplyRx x eth senderMac senderIp => Sys2Proof.Machine.execArpReplyRx x eth senderMac senderIp s
  | .neighbourAdvertisementRx x eth mac ip => Sys2Proof.Machine.execNeighbourAdvertisementRx x eth mac ip s
  | .arpCacheExpiry x ip => Sys2Proof.Machine.execArpCacheExpiry x ip s
  | .pageProgramDone page erase => Sys2Proof.Machine.execPageProgramDone page erase s
  | .testWidthEnd x => Sys2Proof.Machine.execTestWidthEnd x s

end Sys2Proof.Machine
end

