-- ==== Sys2Proof/Machine/Idle.lean ====
section
/-! DEFINITION. What the block does when no command waits. -/

namespace Sys2Proof.Machine

/-- With no command waiting, station time goes on by one tick of the 500 MHz clock while PLL-T is locked (R270, R272); nothing
else happens of itself. Log entry 3 (DESIGN CHOICE). -/
def idleTick (s : State) : State := { s with dev := tickTimebase s.dev }

end Sys2Proof.Machine
end

