-- ==== Sys2Proof/Machine/Step.lean ====
section
/-! DEFINITION. One step of the block: the command that has waited longest takes effect; with none waiting the block idles. -/

namespace Sys2Proof.Machine

/-- One step. Log entries 3 (DESIGN CHOICE), 77 (DESIGN CHOICE). -/
def step (s : State) : Host.Outcome State Fault Refusal :=
  match s.pending with
  | [] => .next (idleTick s)
  | c :: rest => exec c { s with pending := rest }

/-- The state with the command that a word of the opcode table spells put in front of its queue. The table gives no command any
bits, so no word spells one. Log entry 77 (DESIGN CHOICE). -/
def State.withFetchWord (s : State) (nbits w : Nat) : State :=
  match decodeTableWord nbits w with
  | some c => { s with pending := c :: s.pending }
  | none => s

end Sys2Proof.Machine
end

