-- ==== Sys2Proof/Safety.lean ====
section
/-! DEFINITION. What counts as a safe state and a safe run of the block, and the words the statements are written in. -/

namespace Sys2Proof.Machine

/-- The recorder memory is in its canonical form: slots rise strictly and no listed slot is zero (R325). -/
def State.recWf (s : State) : Prop := Memory.wf s.recMem = true

/-- The device has been released from reset and stands in STOP (R302). -/
abbrev State.stopped (s : State) : Prop := s.dev.released = true ∧ s.dev.mode = modeSTOP

/-- The device has been released from reset, does not stand in STOP, and no STOP source waits to act (R302, R455). -/
abbrev State.awake (s : State) : Prop := s.dev.released = true ∧ s.dev.mode ≠ modeSTOP ∧ s.dev.fc.stopReq = false

/-- A command answers a next state, which has a property. -/
def Answers (c : Instr) (s : State) (P : State → Prop) : Prop := ∃ t, exec c s = .next t ∧ P t

/-- The one operation that may be in progress on the fuses acts on fuses that it may still change (R449). -/
def Fuse.wf (f : Fuse) : Prop :=
  f.busy ≤ 3 ∧ (f.busy = 1 → f.prog0 = false) ∧ (f.busy = 2 → f.prog1 = false) ∧ (f.busy = 3 → f.prog1 = true ∧ f.rev0 = false)

/-- What holds of every state between two steps. -/
def State.Inv (s : State) : Prop := s.recWf ∧ s.fuse.wf ∧ s.dev.fc.stopReq = false

/-- Every register outside `W` keeps its word. -/
def Dev.keepsWords (W : Nat → Prop) (d e : Dev) : Prop := ∀ a, ¬ W a → e.word a = d.word a

/-- The registers of one lane, of one quire, of one cell engine, and of one region with its modulator and its channels (the
strides of Table 0.8). -/
def laneRegs (l a : Nat) : Prop := LN_CFG l ≤ a ∧ a < LN_CFG (l + 1)
def quireRegs (q a : Nat) : Prop := QU_CFG q ≤ a ∧ a < QU_CFG (q + 1)
def cellRegs (n a : Nat) : Prop := CE_STAT n ≤ a ∧ a < CE_STAT (n + 1)
def regionRegs (g a : Nat) : Prop := RG_STAT g ≤ a ∧ a < RG_STAT (g + 1)

/-- What any command may change beside its own effect: an event that finds the queue full (R420), and trip outputs that follow
their conditions (R301). -/
def sideRegs (a : Nat) : Prop := a = NT_EVT ∨ a = NT_CNT1 ∨ a = FC_TRIPSTAT

/-- What time that moves on to the instant of a command may change: slew (R272), alignment steps (R271) and phase steps (R269). -/
def timeRegs (a : Nat) : Prop := a = TM_STAT ∨ a = PL_TCTL ∨ a = PL_SCTL

/-- Nothing outside the device changes: recorder memory, fuses, flash, VBAT, queue. -/
def State.keepsRest (s t : State) : Prop :=
  t.recMem = s.recMem ∧ t.fuse = s.fuse ∧ t.flash = s.flash ∧ t.vbat = s.vbat ∧ t.pending = s.pending

/-- The type and the request of a command that is an SMP request of its own row (R409). -/
def requestOf : Instr → Option (Nat × Req)
  | .smpInvalidDatagram .. => none
  | i => reqOf i

/-- A request that SUP1 takes at once: it has come over an accepted datagram, its sender may send the type, SUP1 runs, and no request
like it is kept (R346, R404-R408, R412). -/
abbrev State.takes (s : State) (r : Req) (typ : Nat) (i : Instr) : Prop :=
  taken r (payloadLen i) s.dev = true ∧ permitted r.addr.toNat typ s.dev = true ∧ supRuns 1 s.dev = true ∧ keptOf r typ s.dev = none

/-- What left last is this answer to a request, with the headers of its port (R407, R409, R412). -/
abbrev State.answered (s : State) (r : Req) (typ status : Nat) (body : List Byte) : Prop :=
  let m := smpMsg typ status 1 r.rid.toNat 0 body
  s.dev.sent.head? = some (.smp r.port.val (udpHdr r.port.val r.addr r.udp.toNat m s.dev) r.addr r.udp.toNat m)

/-- The registers that a refused write changes (R28, R350). -/
def refuseRegs (a : Nat) : Prop := a = SV_CNT ∨ a = SV_EVT ∨ a = FC_CHIP

/-- A refused write of an origin has been collected (R350). -/
def Dev.collected (d : Dev) (o : Origin) : Prop :=
  if o = .sup then d.flag SV_EVT_SUPREF = true else d.flag FC_CHIP_WREF = true

/-- Addresses that the map gives nothing (R25). -/
abbrev reservedAddr (a : Nat) : Prop :=
  regAt a = none ∧ ¬ (0x200000 ≤ a ∧ a < 0x600000) ∧ ¬ (0x10000000 ≤ a ∧ a < 0x12000000)

/-- A run of steps that all answered a next state: `Runs s t` when `t` is reached from `s`. -/
inductive Runs : State → State → Prop where
  | refl (s : State) : Runs s s
  | step (s t u : State) : step s = .next t → Runs t u → Runs s u

end Sys2Proof.Machine
end

