-- ==== Sys2Proof/Certificates/Slice0/Obligations.lean ====
section
/-! DEFINITION. The statements to be proved about the block. Registers, flags and fields are read from a state with `get`, `flag`,
`bit` and `word`; `Answers c s P` says that command `c` answers a next state with `P`. -/

open Sys2Proof Machine

/-- The step: with a command in front of the queue, a step is that command's effect on the state with the rest of the queue; with none
waiting, station time goes on by one tick (the model's choice: log entry 3, DESIGN CHOICE). -/
def Obligations.StepRunsFront : Prop :=
  ∀ (s : State),
    (∀ c rest, s.pending = c :: rest → step s = exec c { s with pending := rest }) ∧
    (s.pending = [] → step s = .next { s with dev := tickTimebase s.dev })

/-- R30, R451, R455: the state at power-up. Every register holds its reset value, reset has not been released, the recorder memory and
the queue are empty, no telemetry point has a value, no fuse is programmed, and the invariant of every step holds. The values of
what is no register, and the fuses, flash and VBAT of a new device, are the model's choice (log entries 1 and 2, DESIGN CHOICE). -/
def Obligations.ResetState : Prop :=
  (∀ a, State.reset.dev.word a = resetWord a) ∧ State.reset.dev.released = false ∧ State.reset.dev.mode = modeLOAD ∧
    State.reset.recMem = [] ∧ State.reset.pending = [] ∧ (∀ k, State.reset.dev.point k = 0x80000000) ∧
    State.reset.fuse = fuse0 ∧ State.reset.Inv

/-- R12: STOP is left only by power-cycling the main supplies. From a released device in STOP every command but POWER_CYCLE, and every
step in which no command waits, leads to a released device in STOP; POWER_CYCLE leads out of it. -/
def Obligations.StopIsFinal : Prop :=
  ∀ (s t : State), s.stopped →
    (∀ c, c ≠ .powerCycle → exec c s = .next t → t.stopped) ∧
    (s.pending = [] → step s = .next t → t.stopped) ∧
    (exec .powerCycle s = .next t → ¬ t.stopped)

/-- The invariant of every step: the recorder memory stays in its canonical form, the operation in progress on the fuses stays one
that may run, and no STOP source is left waiting.
Where the spec is silent it rests on log entries 9 (DEDUCED), 10 (DESIGN CHOICE). -/
def Obligations.InvariantKept : Prop :=
  ∀ (s t : State), s.Inv → step s = .next t → t.Inv

/-- What a command can reach beyond the device. No command touches the queue. Apart from a power cycle, only the writing and the
loss of entries change the recorder memory, only the key operations the fuses, only VBAT_LOSS and TOD_WRITEBACK what VBAT keeps, and
before reset is released nothing but RESET_RELEASE and VBAT_LOSS changes anything. Only the image load, which finds what has been
programmed outside, the journal write, the image transfer and the requests that a restart of SUP1 takes up change the flash.
Where the spec is silent it rests on log entry 7 (DEDUCED). -/
def Obligations.CommandReach : Prop :=
  ∀ (c : Instr) (s t : State), exec c s = .next t →
    t.pending = s.pending ∧
    (c ≠ .powerCycle →
      (c ≠ .recorderEntryWrite → (∀ m d r x, c ≠ .sramEccError m d r x) → c ≠ .sramScrub → (∀ p d k, c ≠ .checkComplete p d k) →
        t.recMem = s.recMem) ∧
      ((∀ h x k, c ≠ .jtagKeyprog h x k) → (∀ k, c ≠ .jtagKeyrev k) → (∀ r, c ≠ .keyFuseDone r) → t.fuse = s.fuse) ∧
      (c ≠ .vbatLoss → c ≠ .todWriteback → t.vbat = s.vbat) ∧
      (s.dev.released = false → c ≠ .resetRelease → c ≠ .vbatLoss → t = s)) ∧
    ((∀ a b, c ≠ .imageLoadComplete a b) → (∀ a b, c ≠ .journalWrite a b) → (∀ r u k n, c ≠ .iopen r u k n) →
      (∀ r i m o x, c ≠ .idata r i m o x) → (∀ p e, c ≠ .pageProgramDone p e) → c ≠ .imageVerifyDone →
      c ≠ .supervisorRestartDone 1 → t.flash = s.flash)

/-- The frame of what serves the device. The commands listed of the clocks and PTP change no register but those of their blocks,
those of the safety channel none but the safety block, those of the fabric none but the fabric block, those of the recorder none but
the recorder block, apart from the registers that collect a refused write and those any command may change; and none of them touches
lanes, quires, cells, regions, measurement or the network.
Where the spec is silent it rests on log entry 4 (DESIGN CHOICE). -/
def Obligations.ServiceFrame : Prop :=
  ∀ (c : Instr) (s t : State), s.awake → exec c s = .next t →
    let parts (d : Dev) := (d.lanes, d.quires, d.cells, d.regions, d.ains, d.groups, d.adq, d.telem, d.snaps, d.nt, d.tw, d.su, d.jtag)
    let within (lo hi : Nat) := s.dev.keepsWords (fun a => (lo ≤ a ∧ a < hi) ∨ refuseRegs a ∨ sideRegs a) t.dev
    ((c = .timebaseAlignStep ∨ c = .holdoverExpiry ∨ (∃ l, c = .ptpReceiptTimeout l) ∨ (∃ p b, c = .pllBandSearchDone p b) ∨
        (∃ o n, c = .pllPhaseSteps o n) ∨ (∃ o w, c = .tmIncrWrite o w) ∨ (∃ o w, c = .tmAdjWrite o w) ∨
        (∃ o w, c = .jumpRequest o w) ∨ (∃ m, c = .ptpAnnounceRx m) ∨ (∃ x tx, c = .ptpPdelayReqSend x tx)) →
      within 0x4000 0x6000 ∧ parts t.dev = parts s.dev ∧ t.dev.sf = s.dev.sf ∧ t.dev.fb = s.dev.fb ∧ s.keepsRest t) ∧
    (((∃ k h l, c = .safetyCycle k h l) ∨ (∃ i b l, c = .safetyInputFilter i b l) ∨ (∃ b l, c = .safetyResetFilter b l) ∨
        c = .resetHoldTimeout ∨ (∃ i, c = .discrepancyTimeout i) ∨ (∃ x, c = .permitTest x) ∨ (∃ x, c = .testWidthEnd x)) →
      within 0x3000 0x4000 ∧ parts t.dev = parts s.dev ∧ t.dev.tm = s.dev.tm ∧ t.dev.fb = s.dev.fb ∧ s.keepsRest t) ∧
    ((c = .evalWindowEnd ∨ c = .avsAck ∨ c = .avsTimeout ∨ c = .marginHoldoffEnd) →
      within 0x1000 0x2000 ∧ parts t.dev = parts s.dev ∧ t.dev.tm = s.dev.tm ∧ t.dev.sf = s.dev.sf ∧ s.keepsRest t) ∧
    ((c = .recorderEntryIn ∨ c = .recorderGapEntry ∨ c = .recordComplete ∨ c = .recordPostmaxExpiry ∨ (∃ o, c = .drArm o) ∨
        (∃ o, c = .drForce o) ∨ (∃ o, c = .drDisarm o) ∨ (∃ o m, c = .drRel o m) ∨ (∃ x, c = .xtrigPulseEnd x)) →
      within 0x8000 0x9000 ∧ parts t.dev = parts s.dev ∧ t.dev.tm = s.dev.tm ∧ t.dev.sf = s.dev.sf ∧ t.dev.fb = s.dev.fb ∧
        s.keepsRest t)

/-- R12, R276, R315, R320, R450, R453 to R456, R461: power. Reset release comes up in LOAD with both clasps engaged and the die
identity shown, and happens once for each application of power; a power cycle leaves a device that has not been released, with
every register at its reset value, and keeps flash, key slots and what the device has sent; a supply outside its window and
RESET_N low are STOP; VBAT that is lost forgets time of day and locks; VAUX outside its range engages both clasps.
Where the spec is silent it rests on log entries 7 (DEDUCED), 10 (DESIGN CHOICE), 11 (DEDUCED). -/
def Obligations.PowerAndReset : Prop :=
  ∀ (s : State),
    (s.dev.released = false → Answers .resetRelease s fun t => t.dev.released = true ∧ t.dev.mode = modeLOAD ∧
      t.dev.bit SF_STAT_CLASP 0 = true ∧ t.dev.bit SF_STAT_CLASP 1 = true ∧
      t.dev.word GL_UIDLO = Config.dieId.extractLsb' 0 32 ∧ t.dev.word GL_UIDHI = Config.dieId.extractLsb' 32 32) ∧
    (s.dev.released = true → exec .resetRelease s = .next s) ∧
    (Answers .powerCycle s fun t => t.dev.released = false ∧ t.dev.regs = [] ∧ t.recMem = [] ∧ t.dev.sent = s.dev.sent ∧
      t.flash = s.flash ∧ t.fuse.busy = 0 ∧ t.fuse.prog0 = s.fuse.prog0 ∧ t.fuse.hash0 = s.fuse.hash0 ∧
      t.fuse.prog1 = s.fuse.prog1 ∧ t.fuse.hash1 = s.fuse.hash1 ∧ t.fuse.rev0 = s.fuse.rev0 ∧ t.dev.cyc = s.dev.cyc + 1) ∧
    (Answers .vbatLoss s fun t => t.vbat = ⟨false, 0, 0⟩ ∧ t.dev = s.dev) ∧
    (s.awake →
      (Answers .vauxOutOfRange s fun t => t.dev.bit SF_STAT_CLASP 0 = true ∧ t.dev.bit SF_STAT_CLASP 1 = true ∧
        t.dev.mode = s.dev.mode) ∧
      (s.dev.flag FC_CHIP_SUPPLY = false →
        (∀ r, Answers (.supplyOutOfWindow r) s fun t => t.dev.mode = modeSTOP ∧ t.dev.flag FC_CHIP_SUPPLY = true) ∧
        (Answers .resetNLow s fun t => t.dev.mode = modeSTOP ∧ t.dev.flag FC_CHIP_SUPPLY = true)))

/-- R354 to R371, R384 to R386: start-up. An image of which a bank passes every check is applied, and without one the device stops
with BOOT; CHECK that passes lets IDLE follow and CHECK that fails is STOP with BOOT; the END = 0 device of a pair without an ACTIVE
twin becomes ACTIVE. Where the spec is silent it rests on log entries 28 (DEDUCED), 29 (DEDUCED). -/
def Obligations.StartUp : Prop :=
  ∀ (s : State), s.awake →
    (∀ a b : BankRx, s.dev.mode = modeLOAD → s.dev.su.imageOk = false → s.dev.flag FC_CHIP_BOOT = false →
      let seenA := bankSeen a (flashFound a b s.flash).imgA
      let seenB := bankSeen b (flashFound a b s.flash).imgB
      Answers (.imageLoadComplete a b) s fun t => t.flash = flashFound a b s.flash ∧
        if (candidates seenA seenB).any (fun c => (bodyCheck s.dev.su.keys (if c then seenB else seenA) s.dev).2.isSome) = true then
          t.dev.su.imageOk = true ∧ t.dev.mode = modeLOAD
        else t.dev.su.imageOk = false ∧ t.dev.mode = modeSTOP ∧ t.dev.flag FC_CHIP_BOOT = true) ∧
    (∀ cal, s.dev.mode = modeCHECK → s.dev.fb.checkDone = false →
      (Answers (.checkComplete true [] cal) s fun t => t.dev.fb.checkDone = true) ∧
      (∀ defects, defects.all Defect.wf = true → s.dev.flag FC_CHIP_BOOT = false →
        Answers (.checkComplete false defects cal) s fun t => t.dev.mode = modeSTOP ∧ t.dev.flag FC_CHIP_BOOT = true)) ∧
    (s.dev.mode = modeCHECK → s.dev.fb.checkDone = true →
      Answers .idleEntry s fun t => t.dev.mode = modeIDLE ∧ t.dev.tm.grid = true) ∧
    (s.dev.mode = modeIDLE → s.dev.paired = true → s.dev.role = roleSTANDBY → s.dev.su.idleOnce = true →
      s.dev.flag GL_TWCFG_END = false → s.dev.flag GL_TWSTAT_PEERACT = false → s.dev.get GL_MODE_CHGCNT = 0 →
      s.dev.su.idleAt + s.dev.get GL_TWCFG_TWLOSS ≤ s.dev.tm.jAbs →
      Answers .twinActiveDecision s fun t => t.dev.role = roleACTIVE)

/-- R49, R273, R388, R389, R396 to R400: CHARGE and RUN. An accepted charge command takes effect at its boundary, a stop leads back to
IDLE, BLOCK is left for CHARGE once nothing protective is set, a deblock that is due takes its READY region to RUN, 60 s without
every region READY shows in CHGTO, a boundary of the grid begins the next period, and a spare takes over once.
Where the spec is silent it rests on log entries 31 (DEDUCED), 32 (DEDUCED). -/
def Obligations.ChargeAndRun : Prop :=
  ∀ (s : State), s.awake →
    (∀ b, s.dev.mode = modeIDLE → s.dev.su.chargeAt = some b → b ≤ s.dev.tm.jAbs →
      Answers .chargeEntry s fun t => t.dev.mode = modeCHARGE ∧ t.dev.su.chargeAt = none) ∧
    (∀ b, (s.dev.mode = modeCHARGE ∨ s.dev.mode = modeRUN) → s.dev.su.stopAt = some b → b ≤ s.dev.tm.jAbs →
      Answers .idleEntry s fun t => if s.dev.fc.protDev then t.dev.mode = s.dev.mode ∧ t.dev.su.stopAt = some b
        else t.dev.mode = modeIDLE ∧ t.dev.su.stopAt = none) ∧
    (s.dev.mode = modeBLOCK → noProt s.dev = true → s.dev.su.protClear = true → Answers .restartFromBlock s fun t => t.dev.mode = modeCHARGE) ∧
    (∀ (g : Fin 8) (b : Nat), s.dev.su.deblock = [(g.val, b)] → b ≤ s.dev.tm.jAbs → s.dev.rgState g.val = rgREADY →
      s.dev.flag (GL_SURDY_RDY g.val) = true → (s.dev.mode = modeRUN ∨ (s.dev.mode = modeCHARGE ∧ allReady s.dev = true)) →
      Answers .deblockEffect s fun t => t.dev.su.deblock = [] ∧
        if s.dev.fc.protDev then t.dev.mode = s.dev.mode ∧ t.dev.rgState g.val = rgREADY
        else t.dev.mode = modeRUN ∧ t.dev.rgState g.val = rgRUN) ∧
    (∀ g : Fin 8, s.dev.mode = modeCHARGE → s.dev.assigned g.val = true → (s.dev.region g.val).readyEver = false →
      Answers .chargeTimeout s fun t => t.dev.flag GL_SUSTAT_CHGTO = true) ∧
    (s.dev.live = true → s.dev.tm.grid = true → s.dev.tm.pllT.seq = 3 → s.dev.tm.jumpReq = none →
      Answers .periodBoundary s fun t => t.dev.tm.jAbs = s.dev.tm.jAbs + 1 ∧ t.dev.tm.bj = s.dev.nextB ∧
        t.dev.tm.gapEnd = none) ∧
    (∀ u sp, s.dev.fb.swap = some (2, u, sp, 0) → u < 80 → sp < 80 → u ≠ sp →
      Answers .spareTakeover s fun t => t.dev.fb.swap = none ∧ t.dev.flag (FB_SLICE_ASSIGNED u) = false ∧
        t.dev.flag (FB_SLICE_RETIRED u) = true ∧ t.dev.flag (FB_SLICE_ASSIGNED sp) = s.dev.flag (FB_SLICE_ASSIGNED u) ∧
        t.dev.get (FB_SLICE_QUIRE sp) = s.dev.get (FB_SLICE_QUIRE u) ∧ (2, u) ∈ t.dev.fb.retired ∧
        (2, u, sp) ∈ t.dev.fb.assigned) ∧
    (∀ c u sp k, s.dev.fb.swap = some (c, u, sp, k + 1) →
      Answers .spareTakeover s fun t => t.dev.fb.swap = s.dev.fb.swap ∧ t.dev.fb.retired = s.dev.fb.retired ∧
        ∀ a, a ≠ FC_TRIPSTAT → t.dev.word a = s.dev.word a)

/-- R262, R264 to R267, Table 10.2, Table 10.3: reference and lock. A lost reference clears both lock bits and sets REFLOS, in IDLE
with the servo in FREE; while the device converts it is STOP by CLKSTOP, as is a lost lock. A qualified reference starts both lock
sequences. In IDLE UPD makes the shadow set the active one in one step and starts a sequence. The band search, a failed lock and a
lost lock move the sequence as Table 10.2 says. That a reference lost in LOAD, before the dividers are applied (R383), changes no
mode is the model's choice (log entry 29, DEDUCED); where the spec is silent otherwise it rests on log entry 62 (DEDUCED). -/
def Obligations.ReferenceAndLock : Prop :=
  ∀ (s : State), s.awake →
    (s.dev.flag PL_STAT_REFOK = true →
      (s.dev.mode = modeIDLE ∨ (s.dev.converting = false ∧ s.dev.tm.pllLoaded = false) →
        Answers .referenceLost s fun t => t.dev.flag PL_STAT_REFOK = false ∧ t.dev.flag PL_EVT_REFLOS = true ∧
          t.dev.flag PL_STAT_TLOCK = false ∧ t.dev.flag PL_STAT_SLOCK = false ∧ t.dev.mode = s.dev.mode ∧
          (s.dev.mode = modeIDLE → t.dev.get TM_STAT_STATE = svFREE ∧ t.dev.flag TM_STAT_TODV = false)) ∧
      (s.dev.converting = true → s.dev.flag FC_CHIP_CLKSTOP = false →
        Answers .referenceLost s fun t => t.dev.mode = modeSTOP ∧ t.dev.flag FC_CHIP_CLKSTOP = true)) ∧
    (s.dev.flag PL_STAT_REFOK = false →
      Answers .referenceQualified s fun t => t.dev.flag PL_STAT_REFOK = true ∧ t.dev.tm.pllT.seq = 1 ∧ t.dev.tm.pllS.seq = 1) ∧
    (∀ (o : Origin) (p : Pll), s.dev.mode = modeIDLE → s.dev.permits o .pll = true → s.dev.flag (pllUpdFld p) = false →
      s.dev.flag PL_STAT_REFOK = true →
      Answers (.pllUpdate o p) s fun t => (pllOf p t.dev).nint = s.dev.get (pllNint p) ∧
        (pllOf p t.dev).refm = s.dev.get (pllRefm p) ∧ (pllOf p t.dev).nfrac = s.dev.get (pllNfrac p) ∧
        (pllOf p t.dev).seq = 1 ∧ t.dev.flag (pllLockFld p) = false ∧ t.dev.flag (pllPendFld p) = false) ∧
    (∀ (p : Pll) (band : BitVec 6), (pllOf p s.dev).seq = 1 →
      Answers (.pllBandSearchDone p band) s fun t => (pllOf p t.dev).seq = 2 ∧ t.dev.get (pllBandFld p) = band.toNat) ∧
    (∀ p : Pll, (pllOf p s.dev).seq = 2 → s.dev.flag PL_STAT_REFOK = true → s.dev.mode ≠ modeLOAD → s.dev.mode ≠ modeCHECK →
      Answers (.pllLockFail p) s fun t => (pllOf p t.dev).seq = 1) ∧
    (∀ (p : Pll) (v : Option (BitVec 8)), (pllOf p s.dev).seq = 2 → s.dev.mode ≠ modeLOAD →
      Answers (.pllLock ⟨p, v⟩) s fun t => (pllOf p t.dev).seq = 3 ∧ t.dev.flag (pllLockFld p) = true) ∧
    (∀ p : Pll, (pllOf p s.dev).seq = 3 →
      (s.dev.mode = modeIDLE → s.dev.flag PL_STAT_REFOK = true →
        Answers (.pllLossOfLock p) s fun t => (pllOf p t.dev).seq = 1 ∧ t.dev.flag (pllLockFld p) = false ∧
          t.dev.flag (pllLolFld p) = true) ∧
      (s.dev.converting = true → s.dev.flag FC_CHIP_CLKSTOP = false →
        Answers (.pllLossOfLock p) s fun t => t.dev.mode = modeSTOP ∧ t.dev.flag FC_CHIP_CLKSTOP = true))

/-- R269 to R272, R282: steps of station time. Phase steps of a locked PLL-S join its queue, which saturates at ±127; the alignment
rule takes 2^-8 ns from a label that leads the grid and gives it to one that lags, with 8 output cycles to the next step; a
correction within ±100 ppm is taken and any other refused; an offset joins the amount to slew, which saturates; a jump request waits
for the boundary. -/
def Obligations.TimebaseSteps : Prop :=
  ∀ (s : State), s.awake →
    (∀ (o : Origin) (n : BitVec 8), s.dev.mode ≠ modeLOAD → s.dev.permits o .pll = true → s.dev.flag PL_STAT_SLOCK = true →
      Answers (.pllPhaseSteps o n) s fun t => t.dev.tm.pllS.steps = satI (s.dev.tm.pllS.steps + n.toInt) (-127) 127) ∧
    (s.dev.flag PL_STAT_TLOCK = true →
      (s.dev.tm.pllT.stepGap = 0 →
        ((2 ^ 24 : Int) ≤ tickRho s.dev → Answers .timebaseAlignStep s fun t =>
          t.dev.tm.label + 2 ^ 24 = s.dev.tm.label ∧ t.dev.tm.pllT.stepGap = 8) ∧
        (tickRho s.dev ≤ -(2 ^ 24 : Int) → Answers .timebaseAlignStep s fun t =>
          t.dev.tm.label = s.dev.tm.label + 2 ^ 24 ∧ t.dev.tm.pllT.stepGap = 8)) ∧
      (s.dev.tm.pllT.stepGap ≠ 0 → Answers .timebaseAlignStep s fun t => t.dev.tm = s.dev.tm)) ∧
    (∀ (o : Origin) (w : BitVec 32), s.dev.mode ≠ modeLOAD → s.dev.permits o .time = true →
      (w.toInt.natAbs ≤ 0xD1B71 → Answers (.tmIncrWrite o w) s fun t => t.dev.getS TM_INCR_CORR = w.toInt) ∧
      (0xD1B71 < w.toInt.natAbs → o ≠ .sup → Answers (.tmIncrWrite o w) s fun t =>
        t.dev.word TM_INCR = s.dev.word TM_INCR ∧ t.dev.flag FC_CHIP_WREF = true) ∧
      (Answers (.tmAdjWrite o w) s fun t =>
        let lim : Int := (16000 * s.dev.get TM_JMPCFG_JMAX * 2 ^ 28 : Nat)
        t.dev.tm.slew = satI (s.dev.tm.slew + w.toInt * 2 ^ 28) (-lim) lim ∧
          (t.dev.flag TM_STAT_SLEWING = true ↔ t.dev.tm.slew ≠ 0)) ∧
      (Answers (.jumpRequest o w) s fun t => t.dev.flag TM_STAT_JUMPPEND = true ∧
        t.dev.tm.jumpReq = some (toS 48 (s.dev.tm.jumpHi * 2 ^ 32 + w.toNat))))

/-- R277 to R279, Table 10.4: PTP. An acceptable Announce on a port without a master becomes its master and starts the servo; a
Sync of the port that serves the master gives its offset at once or with its Follow_Up, and is counted; a Pdelay_Req is answered
with both stamps; a Pdelay_Resp and its follow-up give the path delay; a Pdelay_Req of the device leaves with the next number.
Where the spec is silent it rests on log entries 23 (PRESUMED), 80 (DEDUCED). -/
def Obligations.PtpMessages : Prop :=
  ∀ (s : State), s.awake →
    (∀ m : Announce, ptpOn m.port.val m.eth s.dev = true → m.domain.toNat = s.dev.get TM_CFG_DOMAIN → -4 ≤ m.logInterval →
      m.logInterval ≤ 1 → (ptpPort m.port.val s.dev).master = none →
      Answers (.ptpAnnounceRx m) s fun t => (ptpPort m.port.val t.dev).master = some m ∧
        (s.dev.get TM_STAT_STATE = svFREE → t.dev.get TM_STAT_STATE = svACQUIRE)) ∧
    (∀ (x : Fin 2) (e : EthHdr) (dom : BitVec 8) (seq : BitVec 16), ptpOn x.val e s.dev = true →
      dom.toNat = s.dev.get TM_CFG_DOMAIN →
      (ptpServes x.val s.dev = true → ∀ (li : Int) (origin corr rx : PtpTime), -4 ≤ li → li ≤ 1 →
        (Answers (.ptpSyncRx x e dom li true seq origin corr rx) s fun t =>
          (ptpPort x.val t.dev).syncSeq = some (seq, ptpRx x.val rx s.dev, corr)) ∧
        (Answers (.ptpSyncRx x e dom li false seq origin corr rx) s fun t =>
          t.dev.get TM_CNT_SYNCCNT = (s.dev.get TM_CNT_SYNCCNT + 1) % 2 ^ 16 ∧
          t.dev.getS TM_OFS_OFS =
            satS 32 (rdiv (ptpRx x.val rx s.dev - origin - corr - (ptpPort x.val s.dev).pdly) 65536)) ∧
        (∀ t2 c0, (ptpPort x.val s.dev).syncSeq = some (seq, t2, c0) →
          Answers (.ptpFollowUpRx x e dom seq origin corr) s fun t => (ptpPort x.val t.dev).syncSeq = none ∧
            t.dev.get TM_CNT_SYNCCNT = (s.dev.get TM_CNT_SYNCCNT + 1) % 2 ^ 16 ∧
            t.dev.getS TM_OFS_OFS = satS 32 (rdiv (t2 - origin - c0 - corr - (ptpPort x.val s.dev).pdly) 65536))) ∧
      (∀ (src : BitVec 80) (rx tx : PtpTime), Answers (.ptpPdelayReqRx x e dom seq src rx tx) s fun t =>
        t.dev.sent = .pdelayRespFollowUp x.val (frameHdr x.val (some ptpPeerMac) s.dev) seq.toNat src (ptpTx x.val tx s.dev) ::
          .pdelayResp x.val (frameHdr x.val (some ptpPeerMac) s.dev) seq.toNat src (ptpRx x.val rx s.dev) :: s.dev.sent) ∧
      (∀ (tt corr rx : PtpTime), seq.toNat = (ptpPort x.val s.dev).reqSeq % 2 ^ 16 →
        (Answers (.ptpPdelayRespRx x e dom seq false tt corr rx) s fun t => (ptpPort x.val t.dev).respSeen =
          some (ptpRx x.val rx s.dev - (ptpPort x.val s.dev).reqTx + tt - corr)) ∧
        (∀ acc, (ptpPort x.val s.dev).respSeen = some acc →
          Answers (.ptpPdelayRespRx x e dom seq true tt corr rx) s fun t =>
            (ptpPort x.val t.dev).pdly = rdiv (acc - tt - corr) 2 ∧ (ptpPort x.val t.dev).respSeen = none))) ∧
    (∀ (x : Fin 2) (tx : PtpTime), netUp x.val s.dev = true →
      (s.dev.bit TM_CFG_PORTEN x.val = true → s.dev.bit SV_STAT_RUN 0 = true →
        Answers (.ptpPdelayReqSend x tx) s fun t =>
          (ptpPort x.val t.dev).reqSeq = ((ptpPort x.val s.dev).reqSeq + 1) % 2 ^ 16 ∧
          (ptpPort x.val t.dev).reqTx = ptpTx x.val tx s.dev ∧
          t.dev.sent = .pdelayReq x.val (frameHdr x.val (some ptpPeerMac) s.dev)
            (((ptpPort x.val s.dev).reqSeq + 1) % 2 ^ 16) :: s.dev.sent) ∧
      (Answers (.ptpIgnoredMessage x) s fun t => t.dev.get TM_CNT_IGNCNT =
        if s.dev.bit TM_CFG_PORTEN x.val && s.dev.bit SV_STAT_RUN 0 then satInc TM_CNT_IGNCNT.width (s.dev.get TM_CNT_IGNCNT) 1
        else s.dev.get TM_CNT_IGNCNT))

/-- R276, R279 to R281, Table 10.6: the servo. The sixteenth offset in a row within LOCKTH locks it, four in a row beyond four times
LOCKTH unlock it; in IDLE an offset beyond JMAX requests a jump; without Sync a locked servo goes to HOLDOVER with HOLD set, and a
master that is lost gives way to that of the other port; holdover that expires sets HOEXP; station time goes back to the VBAT
counter while PLL-T is locked, and what VBAT keeps is valid from then on, which is the model's choice (log entry 11, DEDUCED).
Without SUP0 none of the last three happens. Where the spec is silent otherwise it rests on log entries 23 (PRESUMED), 90 (DESIGN
CHOICE). -/
def Obligations.ServoStates : Prop :=
  ∀ (s : State), s.awake →
    (∀ (x : Fin 2) (e : EthHdr) (dom : BitVec 8) (seq : BitVec 16) (li : Int) (origin corr rx : PtpTime),
      ptpOn x.val e s.dev = true → dom.toNat = s.dev.get TM_CFG_DOMAIN → -4 ≤ li → li ≤ 1 → ptpServes x.val s.dev = true →
      s.dev.mode = modeIDLE →
      let ns := rdiv (ptpRx x.val rx s.dev - origin - corr - (ptpPort x.val s.dev).pdly) 65536
      (s.dev.get TM_STAT_STATE = svACQUIRE → s.dev.tm.lockRun = 15 → ns.natAbs ≤ s.dev.get TM_SRVCFG_LOCKTH →
        Answers (.ptpSyncRx x e dom li false seq origin corr rx) s fun t => t.dev.get TM_STAT_STATE = svLOCKED) ∧
      (s.dev.get TM_STAT_STATE = svLOCKED → s.dev.tm.badRun = 3 → 4 * s.dev.get TM_SRVCFG_LOCKTH < ns.natAbs →
        Answers (.ptpSyncRx x e dom li false seq origin corr rx) s fun t => t.dev.get TM_STAT_STATE = svACQUIRE) ∧
      ((s.dev.get TM_STAT_STATE = svACQUIRE ∨ s.dev.get TM_STAT_STATE = svLOCKED) → s.dev.permits .sup .time = true →
        1000 * s.dev.get TM_JMPCFG_JMAX < ns.natAbs →
        Answers (.ptpSyncRx x e dom li false seq origin corr rx) s fun t => t.dev.flag TM_STAT_JUMPPEND = true)) ∧
    (s.dev.bit SV_STAT_RUN 0 = true →
      (∀ lost, s.dev.get TM_STAT_STATE = svLOCKED →
        Answers (.ptpReceiptTimeout lost) s fun t => t.dev.get TM_STAT_STATE = svHOLDOVER ∧ t.dev.flag TM_EVT_HOLD = true) ∧
      (s.dev.tm.gm.isSome = true →
        Answers (.ptpReceiptTimeout true) s fun t =>
          match (ptpPort (1 - s.dev.get TM_STAT_PORT) s.dev).master with
          | none => t.dev.tm.gm = none
          | some m => t.dev.tm.gm = some m.gmId ∧ t.dev.get TM_STAT_PORT = m.port.val) ∧
      (s.dev.get TM_STAT_STATE = svHOLDOVER → Answers .holdoverExpiry s fun t => t.dev.flag TM_EVT_HOEXP = true) ∧
      (s.dev.flag PL_STAT_TLOCK = true →
        Answers .todWriteback s fun t => t.vbat.valid = true ∧ t.vbat.tod = s.dev.tm.label)) ∧
    (s.dev.bit SV_STAT_RUN 0 = false →
      (∀ lost, Answers (.ptpReceiptTimeout lost) s fun t => t.dev.get TM_STAT_STATE = s.dev.get TM_STAT_STATE ∧
        t.dev.tm = s.dev.tm) ∧
      (Answers .holdoverExpiry s fun t => t.dev.get TM_EVT_HOEXP = s.dev.get TM_EVT_HOEXP) ∧
      (Answers .todWriteback s fun t => t.vbat = s.vbat))

/-- R136, R137: what a receiver sees moves its lane. LOS asserting, or LOL, takes an ACTIVE lane to FASTRT with lock gone and the
event flag set; LOL counts its invalid headers and elsewhere takes lock only where block lock is lost; LOS deasserting clears LOS;
FASTRT ends in ACTIVE once lock is back and in ACQUIRE when TFAST passes without it. Block lock held for 0.5 ms leaves ACQUIRE for
the negotiation and ends the count of failed acquisitions; an acquisition that TACQ ends is counted, and the NACQ-th takes the lane
to FAILED; FAILED ends in ACQUIRE; block lock gained reads in LOCK. -/
def Obligations.LaneSignals : Prop :=
  ∀ (l : Fin 130) (s : State), s.awake →
    (s.dev.lnState l.val = lnACTIVE → s.dev.flag (LN_STAT_LOS l.val) = false → s.dev.flag (LN_STAT_RXSLEPT l.val) = false →
      Answers (.losAssert l) s fun t => t.dev.lnState l.val = lnFASTRT ∧ t.dev.flag (LN_STAT_LOS l.val) = true ∧
        t.dev.flag (LN_STAT_LOCK l.val) = false ∧ t.dev.flag (LN_EVT_LOS l.val) = true) ∧
    (Answers (.losDeassert l) s fun t => t.dev.flag (LN_STAT_LOS l.val) = false ∧ t.dev.lnState l.val = s.dev.lnState l.val) ∧
    (∀ lost bad tap, s.dev.lnState l.val ≠ lnDOWN → s.dev.flag (LN_STAT_RXSLEPT l.val) = false →
      Answers (.lolDetect l ⟨lost, bad, tap⟩) s fun t => t.dev.flag (LN_EVT_LOL l.val) = true ∧
        t.dev.get (LN_BERC_SHERR l.val) = satInc (LN_BERC_SHERR l.val).width (s.dev.get (LN_BERC_SHERR l.val)) bad ∧
        if s.dev.lnState l.val = lnACTIVE then t.dev.lnState l.val = lnFASTRT ∧ t.dev.flag (LN_STAT_LOCK l.val) = false
        else t.dev.lnState l.val = s.dev.lnState l.val ∧
          t.dev.flag (LN_STAT_LOCK l.val) = (s.dev.flag (LN_STAT_LOCK l.val) && !lost)) ∧
    (s.dev.lnState l.val = lnFASTRT → s.dev.flag (LN_STAT_LOCK l.val) = true →
      Answers (.fastrtRelock l) s fun t => t.dev.lnState l.val = lnACTIVE) ∧
    (s.dev.lnState l.val = lnFASTRT → s.dev.flag (LN_STAT_LOCK l.val) = false →
      Answers (.fastrtTimeout l) s fun t => t.dev.lnState l.val = lnACQUIRE ∧ t.dev.get (LN_STAT_STEP l.val) = 0) ∧
    (s.dev.lnState l.val = lnACQUIRE → s.dev.flag (LN_STAT_LOCK l.val) = true → s.dev.flag (LN_STAT_LOS l.val) = false →
      Answers (.blockLockHeld l) s fun t => (t.dev.lane l.val).acq = 0 ∧
        (t.dev.lnState l.val = lnNEGOTIATE ∨ t.dev.lnState l.val = lnACTIVE)) ∧
    (s.dev.lnState l.val = lnACQUIRE → s.dev.flag (LN_STAT_LOS l.val) = false →
      Answers (.acquireTimeout l) s fun t =>
        if s.dev.get (LN_TIMCFG_NACQ l.val) ≤ (s.dev.lane l.val).acq + 1 then
          t.dev.lnState l.val = lnFAILED ∧ (t.dev.lane l.val).acq = 0 ∧ t.dev.flag (LN_EVT_FAILED l.val) = true
        else t.dev.lnState l.val = lnACQUIRE ∧ (t.dev.lane l.val).acq = (s.dev.lane l.val).acq + 1) ∧
    (s.dev.lnState l.val = lnFAILED →
      Answers (.failedRetry l) s fun t => t.dev.lnState l.val = lnACQUIRE) ∧
    (s.dev.lnState l.val ≠ lnDOWN → s.dev.flag (LN_STAT_RXSLEPT l.val) = false →
      Answers (.blockLockAcquired l) s fun t => t.dev.flag (LN_STAT_LOCK l.val) = true)

/-- R139, R144: the commands of LN_CTL on a lane that is ACTIVE, from an origin that may write the lane group: RETRAIN goes to
FASTRT and REACQ to ACQUIRE; in IDLE the transmit and the receive direction fall asleep and wake, and the receive direction
relocks through FASTRT. -/
def Obligations.LaneControl : Prop :=
  ∀ (o : Origin) (l : Fin 130) (s : State), s.awake → s.dev.mode ≠ modeLOAD → s.dev.permits o .lane = true →
    s.dev.lnState l.val = lnACTIVE →
    (s.dev.word (LN_CTL l.val) = 0 →
      (Answers (.laneRetrain o l) s fun t => t.dev.lnState l.val = lnFASTRT) ∧
      (Answers (.laneReacq o l) s fun t => t.dev.lnState l.val = lnACQUIRE) ∧
      (s.dev.mode = modeIDLE →
        (Answers (.laneTxSleep o l) s fun t => t.dev.flag (LN_CTL_TXSLP l.val) = true ∧
          t.dev.flag (LN_STAT_TXSLEPT l.val) = true ∧ t.dev.lnState l.val = lnACTIVE) ∧
        (Answers (.laneRxSleep o l) s fun t => t.dev.flag (LN_CTL_RXSLP l.val) = true ∧
          t.dev.flag (LN_STAT_RXSLEPT l.val) = true ∧ t.dev.flag (LN_STAT_LOCK l.val) = false ∧
          t.dev.flag (LN_EQ_FROZEN l.val) = true))) ∧
    (s.dev.word (LN_CTL l.val) = 1 →
      Answers (.laneTxWake o l) s fun t => t.dev.flag (LN_CTL_TXSLP l.val) = false ∧
        t.dev.flag (LN_STAT_TXSLEPT l.val) = false ∧ t.dev.lnState l.val = lnACTIVE) ∧
    (s.dev.word (LN_CTL l.val) = 2 →
      Answers (.laneRxWake o l) s fun t => t.dev.flag (LN_CTL_RXSLP l.val) = false ∧
        t.dev.flag (LN_STAT_RXSLEPT l.val) = false ∧ t.dev.lnState l.val = lnFASTRT)

/-- R140 to R143: rate negotiation. For a lane that negotiates alone a step that verifies leads to the next step, or to ACTIVE at the
highest; a step that fails leads back to the step before, with lock to be regained and STEPFAIL set. Two lanes that negotiate together
wait for each other: the first to pass waits, the second leads both on, or both to ACTIVE, and a failure of one takes both back.
Where the spec is silent it rests on log entry 54 (DEDUCED). -/
def Obligations.LaneRateSteps : Prop :=
  ∀ (l : Fin 130) (s : State) (v : Nat), s.awake → s.dev.lnState l.val = lnNEGOTIATE →
    (s.dev.lane l.val).target = some v → v = s.dev.get (LN_STAT_STEP l.val) → 1 ≤ v →
    (alone l.val s.dev = true →
      (s.dev.flag (LN_STAT_LOCK l.val) = true → s.dev.flag GL_TWCFG_PAIR = false →
        (128 ≤ l.val → (s.dev.lane l.val).rxStep = v) →
        Answers (.rateStepPass l) s fun t =>
          if v < stepCap l.val s.dev then
            t.dev.lnState l.val = lnNEGOTIATE ∧ t.dev.get (LN_STAT_STEP l.val) = v + 1 ∧
              t.dev.flag (LN_STAT_LOCK l.val) = false ∧ (t.dev.lane l.val).target = some (v + 1)
          else t.dev.lnState l.val = lnACTIVE ∧ t.dev.get (LN_STAT_STEP l.val) = v) ∧
      (Answers (.rateStepFail l) s fun t => t.dev.lnState l.val = lnNEGOTIATE ∧ t.dev.get (LN_STAT_STEP l.val) = v - 1 ∧
        t.dev.flag (LN_STAT_LOCK l.val) = false ∧ t.dev.flag (LN_EVT_STEPFAIL l.val) = true ∧
        (t.dev.lane l.val).target = none)) ∧
    (∀ m, m = partner l.val → alone l.val s.dev = false → s.dev.lnState m = lnNEGOTIATE → (s.dev.lane m).target = some v →
      s.dev.get (LN_STAT_STEP m) = v → (s.dev.lane m).fell = false →
      (s.dev.flag (LN_STAT_LOCK l.val) = true →
        Answers (.rateStepPass l) s fun t => ∀ x, x = l.val ∨ x = m →
          if (s.dev.lane m).passed = false then
            t.dev.lnState x = lnNEGOTIATE ∧ t.dev.get (LN_STAT_STEP x) = v ∧ (t.dev.lane l.val).passed = true
          else if v < stepCap l.val s.dev ∧ v < stepCap m s.dev then
            t.dev.lnState x = lnNEGOTIATE ∧ t.dev.get (LN_STAT_STEP x) = v + 1 ∧ t.dev.flag (LN_STAT_LOCK x) = false
          else t.dev.lnState x = lnACTIVE ∧ t.dev.get (LN_STAT_STEP x) = v) ∧
      (Answers (.rateStepFail l) s fun t => ∀ x, x = l.val ∨ x = m → t.dev.lnState x = lnNEGOTIATE ∧
        t.dev.get (LN_STAT_STEP x) = v - 1 ∧ t.dev.flag (LN_STAT_LOCK x) = false ∧ t.dev.flag (LN_EVT_STEPFAIL x) = true))

/-- R134, R135, R140, R147: what control blocks and adaptation do. A valid IDLE block counts toward its origin, sixteen make it the
origin of the lane; a control block of an unassigned type or with a wrong CHK is counted, and so is an invalid sync header, for a
locked pattern checker as 64 errors; TRN blocks of the twin turn the receive direction to the announced step; the hold of the tap
that was reverted first ends, the taps having adapted up to then. Which block types are assigned on a lane and what codes the taps
adapt to are the model's choice (log entries 84, DESIGN CHOICE, and 20, DESIGN CHOICE). -/
def Obligations.LaneBlocks : Prop :=
  ∀ (l : Fin 130) (s : State), s.awake → s.dev.fc.inj = none →
    (∀ o, o < 256 → s.dev.lnState l.val ≠ lnDOWN → s.dev.flag (LN_STAT_ORGV l.val) = false → (s.dev.lane l.val).orgCand = o →
      Answers (.idleBlockRx l (ctlBlock 0x1E (o * 2 ^ 8))) s fun t =>
        (t.dev.lane l.val).orgRun = (s.dev.lane l.val).orgRun + 1 ∧ (t.dev.lane l.val).orgCand = o) ∧
    (16 ≤ (s.dev.lane l.val).orgRun →
      Answers (.originChange l) s fun t => t.dev.get (LN_STAT_ORIGIN l.val) = (s.dev.lane l.val).orgCand % 256 ∧
        t.dev.flag (LN_STAT_ORGV l.val) = true ∧ (t.dev.lane l.val).orgRun = 0) ∧
    (∀ (hdr : BitVec 2) (b : BitVec 64), s.dev.lnState l.val ≠ lnDOWN → s.dev.flag (LN_STAT_RXSLEPT l.val) = false →
      let unk := hdr = 2 ∧ (blockAssigned (blockType b) = false ∨ blockChk b = false)
      let bad := hdr = 0 ∨ hdr = 3
      Answers (.controlBlockDiscard l ⟨hdr, b⟩) s fun t =>
        t.dev.get (LN_BERC_UNKCNT l.val) = (if unk then satInc 16 (s.dev.get (LN_BERC_UNKCNT l.val)) 1
          else s.dev.get (LN_BERC_UNKCNT l.val)) ∧
        t.dev.get (LN_BERC_SHERR l.val) = (if bad then satInc (LN_BERC_SHERR l.val).width (s.dev.get (LN_BERC_SHERR l.val)) 1
          else s.dev.get (LN_BERC_SHERR l.val)) ∧
        t.dev.get (LN_PRBSERR_ERRCNT l.val) = (if bad ∧ s.dev.flag (LN_PRBSCTL_SYNC l.val) = true ∧
              s.dev.flag (LN_PRBSCTL_CHK l.val) = true ∧ s.dev.get (LN_PRBSCTL_PAT l.val) ≠ 0 then
            satInc (LN_PRBSERR_ERRCNT l.val).width (s.dev.get (LN_PRBSERR_ERRCNT l.val)) 64
          else s.dev.get (LN_PRBSERR_ERRCNT l.val))) ∧
    (∀ (x : Fin 2) (step : BitVec 2), s.dev.lnState (128 + x.val) = lnNEGOTIATE →
      Answers (.trnBlockRx x step) s fun t => (t.dev.lane (128 + x.val)).rxStep = step.toNat ∧
        t.dev.flag (LN_STAT_LOCK (128 + x.val)) = false) ∧
    ((s.dev.lane l.val).eqHeld ≠ [] →
      Answers (.eqTapHoldEnd l) s fun t => (t.dev.lane l.val).eqHeld = (s.dev.lane l.val).eqHeld.drop 1 ∧
        (t.dev.lane l.val).eq = (List.range 6).map fun k => eqStepTap l.val k s.dev)

/-- R149: the pattern test of an ACTIVE lane in IDLE, from an origin that may write the lane group. The 64th word in a row that
follows from the one before locks the checker, which then counts every bit that differs. The sequences rest on log entry 85
(PRESUMED). -/
def Obligations.LanePatternTest : Prop :=
  ∀ (o : Origin) (l : Fin 130) (s : State), s.awake → s.dev.mode = modeIDLE → s.dev.permits o .lane = true →
    s.dev.lnState l.val = lnACTIVE →
    (s.dev.word (LN_PRBSCTL l.val) = 0 →
      (∀ pat : BitVec 3, pat.toNat ≤ 5 →
        (Answers (.prbsGenEnable o l pat) s fun t => t.dev.flag (LN_PRBSCTL_GEN l.val) = true ∧
          t.dev.get (LN_PRBSCTL_PAT l.val) = pat.toNat ∧ t.dev.flag (LN_PRBSCTL_CHK l.val) = false) ∧
        (Answers (.prbsChkEnable o l pat) s fun t => t.dev.flag (LN_PRBSCTL_CHK l.val) = true ∧
          t.dev.get (LN_PRBSCTL_PAT l.val) = pat.toNat ∧ t.dev.get (LN_PRBSERR_ERRCNT l.val) = 0 ∧
          t.dev.flag (LN_PRBSCTL_SYNC l.val) = false)) ∧
      (Answers (.prbsInjectOne o l) s fun t => t.dev.flag (LN_PRBSCTL_INJ1 l.val) = true) ∧
      (∀ rate : BitVec 4, 3 ≤ rate.toNat → rate.toNat ≤ 12 →
        Answers (.prbsInjectRate o l rate) s fun t => t.dev.get (LN_PRBSCTL_INJRATE l.val) = rate.toNat)) ∧
    (∀ (w : BitVec 64) (st : Nat), s.dev.flag (LN_PRBSCTL_CHK l.val) = true → s.dev.get (LN_PRBSCTL_PAT l.val) ≠ 0 →
      (s.dev.lane l.val).chk = some st →
      let gen := (prbsGenWord (s.dev.get (LN_PRBSCTL_PAT l.val)) st).1
      (s.dev.flag (LN_PRBSCTL_SYNC l.val) = false → st ≠ 0 → w.toNat = gen → (s.dev.lane l.val).chkRun = 63 →
        Answers (.prbsCheckerLock ⟨l, [w]⟩) s fun t => t.dev.flag (LN_PRBSCTL_SYNC l.val) = true) ∧
      (s.dev.flag (LN_PRBSCTL_SYNC l.val) = true →
        Answers (.prbsCheckerLock ⟨l, [w]⟩) s fun t => t.dev.flag (LN_PRBSCTL_SYNC l.val) = true ∧
          t.dev.get (LN_PRBSERR_ERRCNT l.val) = satInc (LN_PRBSERR_ERRCNT l.val).width (s.dev.get (LN_PRBSERR_ERRCNT l.val))
            ((List.range 64).filter fun i => bitOf gen i != bitOf w.toNat i).length))

/-- R150 to R154, R156: timing exchanges. A response within 20 µs to a request of the calibration adds its half round trip to it,
and one to a request of a period, within JUMP of D, moves D by a sixteenth of the difference at the next boundary; a response that
does not come ends its exchange; a stamped request of the partner lane makes the end-to-end delay valid; the twin's request is
answered with its tag.
Where the spec is silent it rests on log entry 60 (DEDUCED). -/
def Obligations.LaneTiming : Prop :=
  ∀ (l : Fin 130) (s : State), s.awake → s.dev.fc.inj = none →
    (∀ (tag : BitVec 4) (pos : Fin 128) (res : BitVec 16) (trx : Nat) (r : TmxReq),
      ((s.dev.lane l.val).tmx.find? fun x => x.tag == tag.toNat && x.pos == pos.val) = some r →
      (trx + 2 ^ 32 - r.ttx % 2 ^ 32) % 2 ^ 32 ≤ 160000 →
      let x := s.dev.posD l.val pos.val
      let d1 := rdiv (((trx + 2 ^ 32 - r.ttx % 2 ^ 32) % 2 ^ 32 : Nat) - (res.toNat : Int) + s.dev.getS (LN_TMXCFG_ASYMCOR l.val)) 2
      let now := x.newD.getD x.d
      (x.valid = false → r.cal = true → x.calN + 1 < 256 →
        Answers (.tmxResponse l tag pos res trx) s fun t =>
          (t.dev.posD l.val pos.val).calN = x.calN + 1 ∧ (t.dev.posD l.val pos.val).calSum = x.calSum + d1 ∧
            (t.dev.posD l.val pos.val).valid = false ∧ (((satU 16 d1 : Nat) : Int) ≠ d1 → t.dev.flag (LN_EVT_DSAT l.val) = true)) ∧
      (x.valid = true → r.cal = false → x.rep = none → absN (d1 - now) ≤ s.dev.get (LN_TMXCFG_JUMP l.val) →
        Answers (.tmxResponse l tag pos res trx) s fun t =>
          (t.dev.posD l.val pos.val).newD = some (if ((satU 16 d1 : Nat) : Int) = d1
              then satU 16 ((now : Int) + rdiv (d1 - now) 16) else satU 16 d1) ∧
            (t.dev.posD l.val pos.val).d = x.d ∧ (((satU 16 d1 : Nat) : Int) ≠ d1 → t.dev.flag (LN_EVT_DSAT l.val) = true))) ∧
    (∀ tag : BitVec 4, s.dev.converting = false →
      Answers (.tmxResponseTimeout l tag) s fun t =>
        (t.dev.lane l.val).tmx = (s.dev.lane l.val).tmx.filter fun y => y.tag != tag.toNat) ∧
    (∀ delay, l.val < 128 → s.dev.get (QU_STAT_CHAIN (l.val / 2)) = chINTACT →
      Answers (.tmxE2eStamp l delay) s fun t => t.dev.flag (LN_TMXE2E_VALID l.val) = true ∧
        (t.dev.lane l.val).e2eN = (s.dev.lane l.val).e2eN + 1 ∧
        (t.dev.lane l.val).e2eSum = (s.dev.lane l.val).e2eSum + delay) ∧
    (∀ (x : Fin 2) (tag : BitVec 4) (res : BitVec 16), s.dev.lnState (128 + x.val) = lnACTIVE →
      Answers (.tmxRequestRx x tag res) s fun t => t.dev.sent =
        if txOn (128 + x.val) s.dev then
          .laneBlock (128 + x.val) (ctlBlock 0xA5 (2 ^ 8 + tag.toNat * 2 ^ 12 + res.toNat * 2 ^ 24)) :: s.dev.sent
        else s.dev.sent)

/-- R130 to R157: the frame of what the receiver of lane `l` sees, while no injection waits. It changes no register but those of its
unit's two lanes and of its quire, NT_EVT and NT_CNT1 of an event that finds the queue full, and FC_TRIPSTAT; no memory, fuse, flash
or VBAT, and none of the parts of the device beyond lanes and quires that the statement lists. -/
def Obligations.LaneFrame : Prop :=
  ∀ (l : Fin 130) (s t : State) (c : Instr), s.awake → s.dev.fc.inj = none →
    (c = .losAssert l ∨ c = .losDeassert l ∨ (∃ x, c = .lolDetect l x) ∨ c = .eqTapHoldEnd l ∨ c = .blockLockHeld l ∨
      c = .acquireTimeout l ∨ c = .fastrtTimeout l ∨ c = .fastrtRelock l ∨ c = .failedRetry l ∨ c = .rateStepPass l ∨
      c = .rateStepFail l ∨ (∃ b, c = .idleBlockRx l b) ∨ c = .originChange l ∨ (∃ b, c = .controlBlockDiscard l b) ∨
      (∃ ws, c = .prbsCheckerLock ⟨l, ws⟩) ∨ c = .blockLockAcquired l) →
    exec c s = .next t →
    s.keepsRest t ∧
    s.dev.keepsWords (fun a => laneRegs l.val a ∨ laneRegs (partner l.val) a ∨ quireRegs (l.val / 2) a ∨ sideRegs a) t.dev ∧
    (t.dev.cells, t.dev.regions, t.dev.ains, t.dev.groups, t.dev.adq, t.dev.telem, t.dev.snaps, t.dev.tm, t.dev.sf, t.dev.fb,
        t.dev.nt, t.dev.tw, t.dev.su, t.dev.jtag) =
      (s.dev.cells, s.dev.regions, s.dev.ains, s.dev.groups, s.dev.adq, s.dev.telem, s.dev.snaps, s.dev.tm, s.dev.sf, s.dev.fb,
        s.dev.nt, s.dev.tw, s.dev.su, s.dev.jtag)

/-- R38, R158, R173, R177: a frame is built once for each period, with one entry for each position in order; where its deadline
passes without one, the standing frame stands in, in place of one not released too, and FRMISS sets; the release of what was built
for the next period sends the blocks of `frameOut` on lane A and then on lane B, its entries stand in the cells they name, its
grants are read by its FSEQ, and the slot-table swap built with it takes effect; a frame of another period is not sent, and none
while time stands. The clauses of the release are stated in the model's own operations; where the spec is silent they rest on log
entries 4 (DESIGN CHOICE), 58 (DEDUCED). -/
def Obligations.FrameBuildAndRelease : Prop :=
  ∀ (q : Fin 64) (s : State), s.awake → s.dev.live = true → s.dev.timeRuns = true →
    (s.dev.tm.grid = true → (s.dev.quireRegion q.val).isSome = true → gapNext s.dev = false →
      ((s.dev.quire q.val).lastJ ≠ s.dev.tm.jAbs + 1 →
        Answers (.frameCollectionPoint q) s fun t => (t.dev.quire q.val).lastJ = s.dev.tm.jAbs + 1 ∧
          ∃ b, (t.dev.quire q.val).built = some b ∧ b.j = s.dev.tm.jAbs + 1 ∧ b.standing = false ∧
            b.entries.map (fun e => e.1) = List.range (s.dev.get (QU_CFG_NPOS q.val))) ∧
      (((s.dev.quire q.val).built = none ∧ (s.dev.quire q.val).lastJ ≠ s.dev.tm.jAbs + 1) ∨
          (∃ b, (s.dev.quire q.val).built = some b ∧ b.j = s.dev.tm.jAbs + 1 ∧ b.standing = false) →
        Answers (.frameDeadlineMiss q) s fun t => (t.dev.quire q.val).lastJ = s.dev.tm.jAbs + 1 ∧
          t.dev.flag (QU_EVT_FRMISS q.val) = true ∧
          ∃ b, (t.dev.quire q.val).built = some b ∧ b.j = s.dev.tm.jAbs + 1 ∧ b.standing = true ∧
            b.entries.map (fun e => e.1) = List.range (s.dev.get (QU_CFG_NPOS q.val)))) ∧
    (∀ depA depB b, (Instr.frameRelease q depA depB).wf = true → (s.dev.quire q.val).built = some b →
      Answers (.frameRelease q depA depB) s fun t => (t.dev.quire q.val).built = none ∧
        if b.j = s.dev.tm.jAbs + 1 then
          let d := releaseTables q.val b s.dev
          let a := releaseAnswers q.val b d
          (t.dev.quire q.val).sentOne = true ∧
            t.dev.sent = (frameOut q.val b a 1 depB (frameOut q.val b a 0 depA (releaseEntries q.val b a.1 d))).sent ∧
            (∀ p e, b.entries.filter (fun x => x.1 == p) = [(p, e)] → (t.dev.cell (128 * q.val + p)).entry = e.1 ∧
              (t.dev.cell (128 * q.val + p)).endSt = e.2.1 ∧ (t.dev.cell (128 * q.val + p)).nxt = some e.2.2) ∧
            ((t.dev.quire q.val).evgs.head?.map fun f => (f.fs, f.grants)) = some (b.j % 256, a.1) ∧
            (b.swap = true → t.dev.word (QU_SLOTA q.val) = s.dev.word (QU_SLOTI q.val) ∧
              t.dev.word (QU_SLOTI q.val) = s.dev.word (QU_SLOTA q.val) ∧ t.dev.flag (QU_SLOTCTL_PEND q.val) = false)
        else t.dev.sent = s.dev.sent ∧ ∀ n, t.dev.cell n = s.dev.cell n)

/-- R171, R179: a HOP block of an ACTIVE lane is counted for the stream it ends, and one that comes after more than one frame has
been released since the last starts the count again; a count that has come in four frames in a row is taken as the reach of the
stream, and a new slot table waits; of a ONE_WAY chain only the partner lane of the through stream counts; 64 frames in a row within
their budget set BUDGET.
Where the spec is silent it rests on log entry 56 (DEDUCED). -/
def Obligations.ReachAndBudget : Prop :=
  ∀ (s : State), s.awake →
    (∀ (l : Fin 128) (hopcnt : BitVec 8), s.dev.fc.inj = none → s.dev.lnState l.val = lnACTIVE → hopcnt.toNat ≤ 0x80 →
      (s.dev.get (QU_STAT_CHAIN (l.val / 2)) = chONEWAY → originKind (l.val / 2) (l.val % 2) s.dev = 1) →
      Answers (.hopBlockRx l hopcnt) s fun t =>
        let x := if originKind (l.val / 2) (l.val % 2) s.dev = 1 then partner l.val else l.val
        (t.dev.lane x).hopVal = hopcnt.toNat ∧ (t.dev.lane x).hopGap = 0 ∧ (t.dev.lane x).hopRun =
          if (s.dev.lane x).hopRun ≠ 0 ∧ (s.dev.lane x).hopVal = hopcnt.toNat ∧ (s.dev.lane x).hopGap ≤ 1 then
            (s.dev.lane x).hopRun + 1
          else 1) ∧
    (∀ (l : Fin 128) (hopcnt : BitVec 8), s.dev.fc.inj = none → s.dev.get (QU_STAT_CHAIN (l.val / 2)) = chONEWAY →
      originKind (l.val / 2) (l.val % 2) s.dev ≠ 1 → Answers (.hopBlockRx l hopcnt) s fun t => t.dev.lanes = s.dev.lanes) ∧
    (∀ (q : Fin 64) (endB : Bool), 4 ≤ (s.dev.lane (2 * q.val + b2n endB)).hopRun →
      s.dev.get (QU_STAT_CHAIN q.val) ≠ chUNSETTLED →
      Answers (.reachUpdate q endB) s fun t =>
        (t.dev.lane (2 * q.val + b2n endB)).reach = (s.dev.lane (2 * q.val + b2n endB)).hopVal ∧
          ((s.dev.lane (2 * q.val + b2n endB)).reach ≠ (s.dev.lane (2 * q.val + b2n endB)).hopVal →
            t.dev.flag (QU_SLOTCTL_PEND q.val) = true)) ∧
    (∀ q : Fin 64, 64 ≤ (s.dev.quire q.val).budRun →
      Answers (.budgetAchieved q) s fun t => t.dev.flag (QU_STAT_BUDGET q.val) = true)

/-- R176, R180, R182, R185: the event window. Request words of the present window are joined to those already there; a record
whose CRC or code is wrong is discarded and counted with EVBAD; a record of a transfer that is not complete is kept
in the order sent; a second copy of a record taken already has no effect; a good record in a slot that
its frame gave to no position has no effect either. Where the spec is silent it rests on log entry 59 (DEDUCED). -/
def Obligations.EventWindow : Prop :=
  ∀ (q : Fin 64) (s : State), s.awake →
    (∀ words : BitVec 256, s.dev.live = true → (s.dev.quireRegion q.val).isSome = true →
      Answers (.requestWordsRx q (BitVec.ofNat 8 s.dev.tm.jAbs) words) s fun t =>
        smGet (fun _ => 0) (t.dev.quire q.val).reqs (s.dev.tm.jAbs % 256) =
          smGet (fun _ => 0) (s.dev.quire q.val).reqs (s.dev.tm.jAbs % 256) ||| words) ∧
    (∀ (slot : Fin 6) (fseq : BitVec 8) (laneB : Bool) (x : Option (BitVec 128)) (tk : Nat),
      (s.dev.quire q.val).evSeen.contains (fseq.toNat, slot.val) = true →
      Answers (.eventRecordRx q ⟨laneB, slot⟩ fseq x tk) s fun t => t.dev.quire q.val = s.dev.quire q.val) ∧
    (∀ (slot : Fin 6) (fseq : BitVec 8) (laneB : Bool) (r : BitVec 128) (tk : Nat),
      (s.dev.quireRegion q.val).isSome = true → s.dev.lnState (2 * q.val + b2n laneB) = lnACTIVE →
      (s.dev.quire q.val).evSeen.contains (fseq.toNat, slot.val) = false →
      let good := crc8 120 (r.toNat % 2 ^ 120) = r.toNat / 2 ^ 120
      let named := ((s.dev.quire q.val).evgs.find? fun f => f.fs == fseq.toNat).bind fun f => f.grants.getD slot.val none
      (¬ good ∨ ecodeAssigned (r.toNat % 256) = false →
        Answers (.eventRecordRx q ⟨laneB, slot⟩ fseq (some r) tk) s fun t => t.dev.flag (QU_EVT_EVBAD q.val) = true ∧
          t.dev.get (QU_EVCNT_EVBADCNT q.val) = satInc 16 (s.dev.get (QU_EVCNT_EVBADCNT q.val)) 1 ∧
          (good → (t.dev.quire q.val).evSeen.contains (fseq.toNat, slot.val) = true)) ∧
      (good → ecodeAssigned (r.toNat % 256) = true → named = none →
        Answers (.eventRecordRx q ⟨laneB, slot⟩ fseq (some r) tk) s fun t => t.dev.quire q.val = s.dev.quire q.val ∧
          t.dev.get (QU_EVCNT_EVBADCNT q.val) = s.dev.get (QU_EVCNT_EVBADCNT q.val)) ∧
      (∀ x : XferSlot, good → ecodeAssigned (r.toNat % 256) = true → named = some x.pos →
        smLook (s.dev.quire q.val).slots slot.val = some x → x.reg = false → x.got.length + 1 < x.n →
        Answers (.eventRecordRx q ⟨laneB, slot⟩ fseq (some r) tk) s fun t =>
          smLook (t.dev.quire q.val).slots slot.val =
            some { slotBack fseq.toNat x with got := gotInsert s.dev (fseq.toNat, r) x.got }))

/-- The frame of the commands of one quire that change its bookkeeping: no register but those of the quire and of events, no
memory, and no other part of the device but its lanes and quires. -/
def Obligations.QuireFrame : Prop :=
  ∀ (q : Fin 64) (s t : State) (c : Instr), s.awake → s.dev.fc.inj = none →
    (c = .budgetAchieved q ∨ (∃ w x, c = .requestWordsRx q w x) ∨ (∃ e, c = .reachUpdate q e) ∨
      (∃ (l : Fin 128) (h : BitVec 8), l.val / 2 = q.val ∧ c = .hopBlockRx l h)) →
    exec c s = .next t →
    s.keepsRest t ∧ s.dev.keepsWords (fun a => quireRegs q.val a ∨ sideRegs a) t.dev ∧
    (t.dev.cells, t.dev.regions, t.dev.ains, t.dev.groups, t.dev.adq, t.dev.telem, t.dev.snaps, t.dev.sent, t.dev.tm, t.dev.sf,
        t.dev.fb, t.dev.nt, t.dev.tw, t.dev.su, t.dev.jtag) =
      (s.dev.cells, s.dev.regions, s.dev.ains, s.dev.groups, s.dev.adq, s.dev.telem, s.dev.snaps, s.dev.sent, s.dev.tm, s.dev.sf,
        s.dev.fb, s.dev.nt, s.dev.tw, s.dev.su, s.dev.jtag)

/-- R67 to R71: a report with a correct CRC and the sequence number of the last period, over the ACTIVE lane of a registered cell
that has none for the period yet, is accepted: LASTSEQ takes its sequence number, MISSRUN ends, and the first one of an engine,
captured outside POS and NEG, sets the voltage estimate to the captured voltage. One with another sequence number is stale, and a
second one for the period changes nothing of the estimate. Where the spec is silent it rests on log entry 35 (DEDUCED). -/
def Obligations.ReportAccepted : Prop :=
  ∀ (n : Fin 8192) (laneB : Bool) (raw : BitVec 128) (tk g : Nat) (s : State), s.awake → s.dev.live = true →
    s.dev.lnState (2 * (n.val / 128) + b2n laneB) = lnACTIVE → s.dev.cellRegion n.val = some g →
    s.dev.ceState n.val ≠ ceUNREG → s.dev.ceState n.val ≠ ceRETIRED →
    crc8 120 (raw.toNat % 2 ^ 120) = raw.toNat / 2 ^ 120 →
    (s.dev.cell n.val).lastCopy ≠ some (!laneB, raw.toNat) →
    Answers (.reportReceived n laneB raw tk) s fun t =>
      if bitsOf raw.toNat 32 8 ≠ (s.dev.tm.jAbs + 255) % 256 then
        t.dev.flag (CE_HEALTH_STALE n.val) = true ∧ (t.dev.cell n.val).got = (s.dev.cell n.val).got ∧
          t.dev.get (CE_VHAT_VHAT n.val) = s.dev.get (CE_VHAT_VHAT n.val)
      else if (s.dev.cell n.val).got = true then
        (t.dev.cell n.val).got = true ∧ t.dev.get (CE_VHAT_VHAT n.val) = s.dev.get (CE_VHAT_VHAT n.val) ∧
          t.dev.get (CE_STAT_LASTSEQ n.val) = s.dev.get (CE_STAT_LASTSEQ n.val)
      else
        (t.dev.cell n.val).got = true ∧ (t.dev.cell n.val).first = false ∧
        t.dev.get (CE_STAT_LASTSEQ n.val) = bitsOf raw.toNat 32 8 ∧ t.dev.get (CE_FRESH_MISSRUN n.val) = 0 ∧
        ((s.dev.cell n.val).first = true → bitsOf raw.toNat 40 3 ≠ stPOS → bitsOf raw.toNat 40 3 ≠ stNEG →
          t.dev.get (CE_VHAT_VHAT n.val) = 256 * bitsOf raw.toNat 0 16)

/-- R74, R81, R82, R127: the commands of one cell engine. A SUSPECT engine whose time has passed is to go to BYPASSED; the end of an
estimator window of EWIN periods starts its sums anew, and before that nothing ends; CE_CTL releases a bypassed engine and forces
one into bypass; a diagnostic is submitted and shows PENDING, and one that times out shows TIMEOUT; cells that have not confirmed a
two-step block when the wait ends are counted, with NOCONF. The boundary at which the time of a SUSPECT engine has passed rests on
log entry 39 (DEDUCED), and that a window which has not had its EWIN periods does not end is the model's choice: log entry 5 (DESIGN
CHOICE). -/
def Obligations.CellCommands : Prop :=
  ∀ (o : Origin) (n : Fin 8192) (s : State), s.awake →
    (s.dev.ceState n.val = ceSUSPECT → 16 * s.dev.get (CE_CFG2_TSUS n.val) ≤ (s.dev.cell n.val).susp + 1 →
      (s.dev.cell n.val).tByp = 0 → Answers (.suspectTimeout n) s fun t => (t.dev.cell n.val).tByp = 3) ∧
    (s.dev.ceState n.val = ceHEALTHY → (s.dev.cell n.val).win + 1 < s.dev.get (CE_CFG4_EWIN n.val) →
      Answers (.estimatorWindowEnd n) s fun t => t.dev.cell n.val = s.dev.cell n.val) ∧
    (s.dev.ceState n.val = ceHEALTHY → s.dev.get (CE_CFG4_EWIN n.val) ≤ (s.dev.cell n.val).win + 1 →
      Answers (.estimatorWindowEnd n) s fun t => (t.dev.cell n.val).win = 0 ∧ (t.dev.cell n.val).nc = 0 ∧ (t.dev.cell n.val).nr = 0 ∧
        (t.dev.cell n.val).sqv = 0 ∧ (t.dev.cell n.val).sqq = 0 ∧ (t.dev.cell n.val).sex = 0 ∧ (t.dev.cell n.val).sxx = 0 ∧
        t.dev.flag (CE_EST_CVALID n.val) = (decide (16 ≤ (s.dev.cell n.val).nc) && decide (0 < (s.dev.cell n.val).sqv)) ∧
        t.dev.flag (CE_EST_RVALID n.val) = (decide (16 ≤ (s.dev.cell n.val).nr) && decide (0 < (s.dev.cell n.val).sex))) ∧
    ((s.dev.cell n.val).diag = 2 →
      Answers (.diagTimeout n) s fun t => t.dev.get (CE_DIAGRES_STATUS n.val) = 5 ∧ (t.dev.cell n.val).diag = 0) ∧
    (s.dev.mode ≠ modeLOAD → s.dev.permits o .cell = true →
      (s.dev.ceState n.val = ceBYPASSED → cellInRun n.val s.dev = false → (s.dev.cell n.val).tRel = false →
        Answers (.ceRelease o n) s fun t => (t.dev.cell n.val).tRel = true) ∧
      (s.dev.ceState n.val ≠ ceUNREG → s.dev.ceState n.val ≠ ceRETIRED → s.dev.flag (CE_CTL_BYPASS n.val) = false →
        Answers (.ceForceBypass o n) s fun t => (t.dev.cell n.val).tByp = 5 ∧ t.dev.flag (CE_CTL_BYPASS n.val) = true) ∧
      (∀ (code : BitVec 4) (inrun : Bool) (arg : BitVec 16), 1 ≤ code.toNat → code.toNat ≤ 4 →
        diagArgOk code.toNat arg.toNat = true → diagPermits n.val code.toNat inrun s.dev = true →
        ((s.dev.cell n.val).diag = 0 ∨ (s.dev.cell n.val).diag = 3) →
        Answers (.diagGo o n code inrun arg) s fun t => t.dev.get (CE_DIAGRES_STATUS n.val) = 1 ∧
          t.dev.get (CE_DIAGRES_CODE n.val) = code.toNat ∧ t.dev.flag (CE_DIAGREQ_INRUN n.val) = inrun ∧
          if (s.dev.cell n.val).diag = 0 then (t.dev.cell n.val).diag = 1 ∧ (t.dev.cell n.val).dCode = code.toNat ∧
            (t.dev.cell n.val).dArg = arg.toNat
          else (t.dev.cell n.val).diag = 4 ∧ (t.dev.cell n.val).nCode = code.toNat ∧ (t.dev.cell n.val).nArg = arg.toNat)) ∧
    (∀ (g : Fin 8) (o : Ovr), (s.dev.region g.val).ovr = some o →
      o.t0 * s.dev.T + 2 * tStep g.val s.dev + s.dev.get (RG_BLKCFG_CONFN g.val) * s.dev.T ≤ s.dev.nowTick →
      0 < ((s.dev.cellsOf g.val).filter fun n => (s.dev.cell n).owes != 0).length →
      Answers (.blockConfirmExpiry g) s fun t => t.dev.flag (RG_BLKSTAT_NOCONF g.val) = true ∧
        t.dev.get (RG_BLKSTAT_NCONF g.val) = ((s.dev.cellsOf g.val).filter fun n => (s.dev.cell n).owes != 0).length %
          2 ^ (RG_BLKSTAT_NCONF g.val).width)

/-- The frame of the commands of one cell engine: no register but its own and those of events, no other engine, no memory, and no
other part of the device but its telemetry. -/
def Obligations.CellFrame : Prop :=
  ∀ (n : Fin 8192) (s t : State) (c : Instr), s.awake →
    (c = .suspectTimeout n ∨ c = .estimatorWindowEnd n ∨ c = .diagTimeout n) → exec c s = .next t →
    s.keepsRest t ∧ s.dev.keepsWords (fun a => cellRegs n.val a ∨ sideRegs a) t.dev ∧
    (∀ m, m ≠ n.val → t.dev.cell m = s.dev.cell m) ∧
    (t.dev.lanes, t.dev.quires, t.dev.regions, t.dev.ains, t.dev.groups, t.dev.adq, t.dev.snaps, t.dev.sent, t.dev.tm, t.dev.sf,
        t.dev.fb, t.dev.nt, t.dev.tw, t.dev.su, t.dev.jtag) =
      (s.dev.lanes, s.dev.quires, s.dev.regions, s.dev.ains, s.dev.groups, s.dev.adq, s.dev.snaps, s.dev.sent, s.dev.tm, s.dev.sf,
        s.dev.fb, s.dev.nt, s.dev.tw, s.dev.su, s.dev.jtag)

/-- R31, R435: the read of the low half of a wide value, of the word 0 of a recorder slot, of the time or of the quotient queue
keeps, for its origin, what the other parts are at that instant: a later read of such a part by that origin gives that word. A
read of AD_QLO takes its entry out of the queue. -/
def Obligations.LowReadKeepsHigh : Prop :=
  ∀ (o : Origin) (a : Nat) (s : State) (c : Instr), s.awake →
    ((∃ n : Fin 8192, c = .ceRep0Read o n ∧ a = CE_REP n.val 0) ∨ (∃ b : BitVec 32, c = .lowHalfRead o b ∧ a = b.toNat) ∨
      (∃ (i : Fin 32) (w : Bool), c = .accumSumloRead o i w ∧ a = if w then WSUMLO i.val else PSUMLO i.val) ∨
      (c = .tmNow0Read o ∧ a = TM_NOW0) ∨ (c = .adQloRead o ∧ a = AD_QLO) ∨
      (∃ sl : Fin 1048576, c = .recorderWord0Read o sl ∧ a = 0x10000000 + 32 * sl.val)) →
    smGet (fun _ => []) s.dev.snaps (snapKey o a) = [] →
    Answers c s fun t => (∀ b ∈ snapTargets a, (readWord o b t).1 = peekWord b s) ∧
      (c = .adQloRead o → t.dev.adq = s.dev.adq.tail)

/-- R42, R87, R88: preparing the plan of period j + 1. The report deadline takes the keys of every quire, a gathering that comes in
time holds both sorted lists of its quire, and after the gathering deadline every quire has a gathering, a missing one with
GLATE. That a quire which has delivered none since planning began has an empty one is the model's choice: log entry 82
(DESIGN CHOICE). -/
def Obligations.PlanGathering : Prop :=
  ∀ (g : Fin 8) (s : State), s.awake → planning g.val s.dev = true →
    ((s.dev.region g.val).rdlPast = false →
      Answers (.reportDeadline g) s fun t => (t.dev.region g.val).rdlPast = true ∧
        (t.dev.region g.val).keys =
          (s.dev.quiresOf g.val).map fun q => (q, quireKeys q g.val (s.dev.region g.val).i1p s.dev)) ∧
    (∀ (q : Fin 64) (tk : Nat), s.dev.quireRegion q.val = some g.val → (s.dev.region g.val).rdlPast = true →
      (s.dev.region g.val).gdlPast = false →
      s.dev.tm.bj + tk < s.dev.posBase + planTick (s.dev.get (RG_MODCFG1_GDL g.val)) s.dev →
      Answers (.gatheringDelivered q tk) s fun t => smLook (t.dev.region g.val).gath q.val =
        some (gathOf ((smLook (s.dev.region g.val).keys q.val).getD []))) ∧
    ((s.dev.region g.val).gdlPast = false →
      Answers (.gatherDeadline g) s fun t => (t.dev.region g.val).gdlPast = true ∧
        (∀ q ∈ s.dev.quiresOf g.val, (smLook (t.dev.region g.val).gath q).isSome = true) ∧
        ((∃ q ∈ s.dev.quiresOf g.val, smLook (s.dev.region g.val).gath q = none) →
          t.dev.flag (RG_MODHOLD_GLATE g.val) = true))

/-- R83 to R93, R97, R98, R103, R225: run-ahead plans, recomputes and late plans. A channel that runs computes its run-ahead plan
once its gatherings and its law output are there, and its recompute after a squash, for cause SIGN from the regathered lists or once
RGDL has passed, each from its own copy of the mull set; a plan that comes after the vote is compared with the plan sent: one that
agrees is present, one that differs dissents and its channel gives up with cause 5; with a hold plan nothing is compared.
Where the spec is silent it rests on log entries 5 (DESIGN CHOICE), 83 (DEDUCED). -/
def Obligations.PlanComputed : Prop :=
  ∀ (g : Fin 8) (c : Fin 3) (u : BitVec 32) (o : LawOut) (s : State), s.awake → s.dev.fc.inj = none →
    planning g.val s.dev = true → chanRuns g.val c.val s.dev = true → ((s.dev.region g.val).chan c.val).law = some o →
    ((s.dev.region g.val).rdlPast = true → (s.dev.region g.val).gdlPast = true → (s.dev.region g.val).cpPast = false →
      (s.dev.region g.val).voteDone = false → (s.dev.region g.val).gathHold = false →
      ((s.dev.region g.val).chan c.val).ra = none →
      Answers (.runaheadPlan g c u) s fun t => ((t.dev.region g.val).chan c.val).present = true ∧
        ((t.dev.region g.val).chan c.val).ra =
          some (planFrom g.val o.uref (csgnOf g.val o.i1 (asChan g.val c.val s.dev)) (planLists (s.dev.region g.val)) u.toNat
            (asChan g.val c.val s.dev))) ∧
    (∀ m, (s.dev.region g.val).squash = some m → (s.dev.region g.val).voteDone = false →
      ((s.dev.region g.val).chan c.val).rc = none →
      (bitOf m 0 = true → regathered g.val s.dev = true ∨ (s.dev.region g.val).rgdlPast = true) →
      Answers (.recompute g c u) s fun t => ((t.dev.region g.val).chan c.val).present = true ∧
        ((t.dev.region g.val).chan c.val).rc =
          some (planFrom g.val o.uref
            (if bitOf m 0 then (s.dev.region g.val).csgnNew else csgnOf g.val o.i1 (asChan g.val c.val s.dev))
            (if bitOf m 0 && regathered g.val s.dev then (s.dev.region g.val).regath else planLists (s.dev.region g.val)) u.toNat
            (asChan g.val c.val s.dev))) ∧
    (∀ p, (s.dev.region g.val).voted = some p → (s.dev.region g.val).voteDone = true →
      (p.hold = true → Answers (.latePlanArrival g ⟨c, u⟩) s fun t => t.dev.region g.val = s.dev.region g.val) ∧
      (p.hold = false → ((s.dev.region g.val).chan c.val).present = false → (s.dev.region g.val).vdlPast = false →
        Answers (.latePlanArrival g ⟨c, u⟩) s fun t =>
          if (channelPlan g.val c.val u.toNat (s.dev.region g.val).sqUsed o s.dev).digest = planDigest g.val p s.dev then
            ((t.dev.region g.val).chan c.val).present = true ∧ t.dev.get (CH_VCNT_DISCNT g.val) = s.dev.get (CH_VCNT_DISCNT g.val)
          else
            t.dev.get (CH_VCNT_DISCNT g.val) = satInc (CH_VCNT_DISCNT g.val).width (s.dev.get (CH_VCNT_DISCNT g.val)) 1 ∧
            (s.dev.get (CH_STAT_STATE g.val c.val) ≠ chRESYNC → t.dev.get (CH_STAT_CAUSE g.val c.val) = 5)))

/-- R97, R98, R103, R224, R226: the instants of the plan in preparation. Each is passed once, and a second passing leaves the region
as it was; at PDL run-ahead plans that cannot agree give way to the hold plan that the ACTIVE channels agree on; at CP, with no
cause of a squash and agreement of the ACTIVE channels, their plan is voted; a squashed plan is decided by its recompute vote or at
its deadline, and the recompute that the ACTIVE channels agree on is voted; with no ACTIVE channel late, the VOTE deadline commits
the voted plan that the limit shell lets through, and shows VMISS where none is voted.
Where the spec is silent it rests on log entry 47 (DEDUCED). -/
def Obligations.PlanInstants : Prop :=
  ∀ (g : Fin 8) (s : State), s.awake →
    (planning g.val s.dev = true → (s.dev.region g.val).pdlPast = false →
      Answers (.planDeadline g) s fun t => (t.dev.region g.val).pdlPast = true ∧
        ((candsIn g.val chACTIVE (raOf g.val s.dev) s.dev).length < 2 →
          (t.dev.region g.val).voteDone = true ∧
          ∀ x src, (let hs := candsIn g.val chACTIVE (fun c => some (holdCand g.val c s.dev)) s.dev
              voteOf hs hs.length = .agree x src) →
            (t.dev.region g.val).voted = some (holdCand g.val src s.dev).p)) ∧
    (s.dev.assigned g.val = true → (s.dev.region g.val).cpPast = false →
      Answers (.commitPoint g) s fun t => (t.dev.region g.val).cpPast = true ∧
        (∀ x src k, planning g.val s.dev = true → (s.dev.region g.val).voteDone = false → (s.dev.region g.val).cSetpt = false →
          (s.dev.region g.val).cCell = false → plannedLost g.val s.dev = false → signCause g.val s.dev = none →
          voteOf (candsIn g.val chACTIVE (raOf g.val s.dev) s.dev) (chansIn g.val chACTIVE s.dev).length = .agree x src →
          ((s.dev.region g.val).chan src).ra = some k →
          (t.dev.region g.val).voted = some k.p ∧ (t.dev.region g.val).voteDone = true)) ∧
    (Answers (.regatherDeadline g) s fun t => (t.dev.region g.val).rgdlPast = true) ∧
    (planning g.val s.dev = true → (s.dev.region g.val).squash.isSome = true → (s.dev.region g.val).voteDone = false →
      let voted := fun (t : State) => (t.dev.region g.val).voteDone = true ∧ (t.dev.region g.val).squash = none ∧
        ∀ x src k, voteOf (candsIn g.val chACTIVE (rcOf g.val s.dev) s.dev) (chansIn g.val chACTIVE s.dev).length = .agree x src →
          ((s.dev.region g.val).chan src).rc = some k → (t.dev.region g.val).voted = some k.p
      ((∀ c ∈ chansIn g.val chACTIVE s.dev, ((s.dev.region g.val).chan c).rc.isSome = true) → Answers (.recomputeVote g) s voted) ∧
        Answers (.recomputeDeadline g) s voted) ∧
    (∀ a b : BitVec 3, s.dev.assigned g.val = true → s.dev.live = true → (s.dev.region g.val).vdlPast = false →
      Answers (.voteDeadline ⟨g, a, b⟩) s fun t => (t.dev.region g.val).vdlPast = true ∧
        (planning g.val s.dev = true → (∀ c ∈ chansIn g.val chACTIVE s.dev, ((s.dev.region g.val).chan c).present = true) →
          (∀ p, (s.dev.region g.val).voted = some p → planLimitOk g.val p s.dev = true →
            t.dev.get (RG_MODPLAN_L g.val) = p.l % 2 ^ (RG_MODPLAN_L g.val).width) ∧
          ((s.dev.region g.val).voted = none → t.dev.flag (CH_VEVT_VMISS g.val) = true))) ∧
    (∀ (c : Instr) (a b : BitVec 3),
      (c = .planDeadline g ∧ (s.dev.region g.val).pdlPast = true) ∨ (c = .commitPoint g ∧ (s.dev.region g.val).cpPast = true) ∨
        (c = .regatherDeadline g ∧ (s.dev.region g.val).rgdlPast = true) ∨
        ((c = .recomputeVote g ∨ c = .recomputeDeadline g) ∧ (s.dev.region g.val).voteDone = true) ∨
        (c = .voteDeadline ⟨g, a, b⟩ ∧ (s.dev.region g.val).vdlPast = true) →
      Answers c s fun t => t.dev.region g.val = s.dev.region g.val)

/-- R197, R198, R201: a channel that runs computes the law of its region from the inputs of the period, and at the LAW deadline a
channel without an output takes the fallback, with LMISS; each works from its own copy of the mull set.
Where the spec is silent it rests on log entry 40 (DEDUCED). -/
def Obligations.LawRuns : Prop :=
  ∀ (g : Fin 8) (c : Fin 3) (s : State), s.awake → s.dev.fc.inj = none → s.dev.assigned g.val = true →
    s.dev.rgState g.val ≠ rgOFF → chanRuns g.val c.val s.dev = true → ((s.dev.region g.val).chan c.val).law = none →
    (s.dev.region g.val).lawIn.isSome = true →
    (∀ o, lawReady g.val s.dev = true → lawCompute g.val (asChan g.val c.val s.dev) = some o →
      Answers (.lawRun g c) s fun t => ((t.dev.region g.val).chan c.val).law = some o) ∧
    (Answers (.lawDeadline g) s fun t =>
      ((t.dev.region g.val).chan c.val).law = some (lawFallback g.val (asChan g.val c.val s.dev)) ∧
      t.dev.flag (RG_LAWSTAT_LMISS g.val) = true)

/-- R105, R107: HALT is written by an origin that may. A region whose HALTMODE is 1 and that is not energised freezes, any
other blocks at once; a write of 0
takes a freeze back that has not begun, and lets planning resume in a period to come when it has.
Where the spec is silent it rests on log entry 48 (DEDUCED). -/
def Obligations.ModulationHalt : Prop :=
  ∀ (o : Origin) (g : Fin 8) (s : State), s.awake → s.dev.mode ≠ modeLOAD → s.dev.permits o .halt = true →
    ((s.dev.region g.val).halt = 0 → s.dev.flag (RG_MODCFG0_HALTMODE g.val) = true → s.dev.flag (RG_STAT_ENERG g.val) = false →
      Answers (.modHalt o g) s fun t => t.dev.flag (RG_MODCTL_HALT g.val) = true ∧ (t.dev.region g.val).halt = 1) ∧
    ((s.dev.region g.val).halt = 0 → (s.dev.flag (RG_MODCFG0_HALTMODE g.val) = false ∨ s.dev.flag (RG_STAT_ENERG g.val) = true) →
      Answers (.modHalt o g) s fun t => t.dev.flag (RG_MODSTAT_HALTED g.val) = true ∧
        t.dev.flag (RG_MODSTAT_HALTSAFE g.val) = true ∧
        (s.dev.assigned g.val = true →
          (s.dev.rgState g.val = rgCHARGE ∨ s.dev.rgState g.val = rgREADY ∨ s.dev.rgState g.val = rgRUN) →
          t.dev.rgState g.val = rgBLOCK)) ∧
    (∀ tk, (s.dev.region g.val).halt = 3 →
      Answers (.modHaltEnd o g tk) s fun t => t.dev.flag (RG_MODCTL_HALT g.val) = false ∧
        t.dev.flag (RG_MODSTAT_HALTED g.val) = false ∧ (t.dev.region g.val).halt = 0) ∧
    (∀ tk, (s.dev.region g.val).halt = 1 →
      Answers (.modHaltEnd o g tk) s fun t => t.dev.flag (RG_MODCTL_HALT g.val) = false ∧ (t.dev.region g.val).halt = 0) ∧
    (∀ tk, (s.dev.region g.val).halt = 2 → (s.dev.region g.val).resume = none →
      Answers (.modHaltEnd o g tk) s fun t => t.dev.flag (RG_MODCTL_HALT g.val) = false ∧
        ∃ k, (t.dev.region g.val).resume = some k ∧ s.dev.tm.jAbs < k)

/-- The frame of planning up to the vote: the deadlines, plans and law runs of a region change no register but its own and those
of events, no other region, no memory, and no other part of the device but its recorder; PDL and a recompute, where a channel may give
up to the twin, also GL_TWSTAT, what the device sends, and the twin record. -/
def Obligations.PlanFrame : Prop :=
  ∀ (g : Fin 8) (s t : State) (c : Instr), s.awake → s.dev.fc.inj = none → exec c s = .next t →
    let parts (d : Dev) := (d.lanes, d.quires, d.cells, d.ains, d.groups, d.adq, d.telem, d.snaps, d.tm, d.sf, d.fb, d.nt, d.su, d.jtag)
    ((c = .reportDeadline g ∨ c = .gatherDeadline g ∨ c = .regatherDeadline g ∨ (∃ k u, c = .runaheadPlan g k u) ∨
        (∃ k, c = .lawRun g k) ∨ c = .lawDeadline g) →
      s.keepsRest t ∧ s.dev.keepsWords (fun a => regionRegs g.val a ∨ sideRegs a) t.dev ∧
        (∀ k, k ≠ g.val → t.dev.region k = s.dev.region k) ∧ parts t.dev = parts s.dev ∧ t.dev.sent = s.dev.sent ∧
        t.dev.tw = s.dev.tw) ∧
    ((c = .planDeadline g ∨ (∃ k u, c = .recompute g k u)) →
      s.keepsRest t ∧ s.dev.keepsWords (fun a => regionRegs g.val a ∨ a = GL_TWSTAT ∨ sideRegs a) t.dev ∧
        (∀ k, k ≠ g.val → t.dev.region k = s.dev.region k) ∧ parts t.dev = parts s.dev)

/-- R220, R221, R231: the states of a channel. A self-check that fails makes a running channel give up with its cause and GIVEUP;
its self-test ends in RESYNC or in LOST; the copy of the mull set completes; RSN periods of equal digests end in ACTIVE while fewer
than two channels are, else in STANDBY, with RSDONE.
Where the spec is silent it rests on log entry 51 (DEDUCED). The clause of the self-test, which names the elements that failed by
the numbers of the units and swaps the model's spare in, is the model's choice: log entries 50 (DEDUCED), 30 (DESIGN CHOICE). -/
def Obligations.ChannelStates : Prop :=
  ∀ (g : Fin 8) (c : Fin 3) (s : State), s.awake →
    (∀ cause, s.dev.assigned g.val = true → (s.dev.get (CH_STAT_STATE g.val c.val) = chACTIVE ∨ s.dev.get (CH_STAT_STATE g.val c.val) = chSTANDBY ∨
        s.dev.get (CH_STAT_STATE g.val c.val) = chRESYNC) →
      Answers (.channelSelfCheckFail g c cause) s fun t => t.dev.get (CH_STAT_STATE g.val c.val) =
          (if s.dev.get (CH_VCFG_MAXGU g.val) ≤
              satInc (CH_CNT_GUCNT g.val c.val).width (s.dev.get (CH_CNT_GUCNT g.val c.val)) 1 then chLOST else chGIVENUP) ∧
        t.dev.get (CH_STAT_CAUSE g.val c.val) = cause.val + 1 ∧ t.dev.flag (CH_VEVT_GIVEUP g.val) = true) ∧
    (∀ cause, s.dev.assigned g.val = false →
      Answers (.channelSelfCheckFail g c cause) s fun t =>
        t.dev.get (CH_STAT_STATE g.val c.val) = s.dev.get (CH_STAT_STATE g.val c.val)) ∧
    (s.dev.get (CH_STAT_STATE g.val c.val) = chGIVENUP → ((s.dev.region g.val).chan c.val).testing = true →
      (Answers (.channelSelfTestDone g c []) s fun t => t.dev.get (CH_STAT_STATE g.val c.val) = chRESYNC ∧
        ((t.dev.region g.val).chan c.val).testing = false) ∧
      (∀ e : Fin 18, e.val < 16 →
        let u := 18 * (3 * g.val + c.val) + e.val
        Answers (.channelSelfTestDone g c [e]) s fun t => (3, u) ∈ t.dev.fb.retired ∧
          match spareFor 3 u s.dev with
          | some sp => t.dev.get (CH_STAT_STATE g.val c.val) = chRESYNC ∧ (3, u, sp) ∈ t.dev.fb.assigned
          | none => t.dev.get (CH_STAT_STATE g.val c.val) = chLOST)) ∧
    (s.dev.get (CH_STAT_STATE g.val c.val) = chRESYNC →
      s.dev.get (CH_VSTAT_NSEG g.val) ≤ s.dev.get (CH_STAT_RSPROG g.val c.val) →
      Answers (.resyncCopyDone g c) s fun t => ((t.dev.region g.val).chan c.val).copied = true) ∧
    (s.dev.get (CH_STAT_STATE g.val c.val) = chRESYNC → ((s.dev.region g.val).chan c.val).copied = true →
      s.dev.get (CH_VCFG_RSN g.val) ≤ s.dev.get (CH_STAT_RSOK g.val c.val) →
      Answers (.resyncCheckDone g c) s fun t => t.dev.flag (CH_VEVT_RSDONE g.val) = true ∧
        t.dev.get (CH_STAT_STATE g.val c.val) = if (chansIn g.val chACTIVE s.dev).length < 2 then chACTIVE else chSTANDBY)

/-- R232 to R240: the first copy of a record with a correct CRC, on a twin lane that is ACTIVE, is taken in, another is not; and
what its silence and its give-up do: PEERACT and TWUP fall, a STANDBY device that converts takes the role ACTIVE on TGIV, and one
that resynchronised takes the role STANDBY.
Where the spec is silent it rests on log entry 52 (DEDUCED). -/
def Obligations.TwinRecords : Prop :=
  ∀ (s : State), s.awake → s.dev.paired = true →
    (∀ h : TwinHdr,
      let first (kind : Nat) : Bool := h.crcOk && s.dev.lnState (128 + h.lane.val) == lnACTIVE &&
        smLook s.dev.tw.got kind != some h.period.toNat
      (∀ r, Answers (.twinArbRx ⟨h, r⟩) s fun t =>
        if first 0 then t.dev.tw.arb = some r ∧ t.dev.tw.silent = 0 else t.dev.tw = s.dev.tw) ∧
      (∀ m, Answers (.twinMullRx ⟨h, m⟩) s fun t =>
        if first 1 then t.dev.tw.mode = m.mode.toNat ∧ t.dev.tw.mullSilent = 0 else t.dev.tw = s.dev.tw) ∧
      (∀ r tk, s.dev.live = true → Answers (.twinStatRx ⟨h, r⟩ tk) s fun t =>
        if first 2 then t.dev.tw.role = r.role.toNat ∧ t.dev.tw.chargeAt = r.chargeAt ∧ t.dev.tw.stopAt = r.stopAt
        else t.dev.tw = s.dev.tw)) ∧
    (Answers .tgivRx s fun t => t.dev.tw.role = roleGIVENUP ∧ t.dev.flag GL_TWSTAT_PEERACT = false ∧
      (s.dev.role = roleSTANDBY → s.dev.converting = true → t.dev.role = roleACTIVE ∧ t.dev.flag GL_TWEVT_HANDOVER = true)) ∧
    (s.dev.get GL_TWCFG_TWLOSS ≤ s.dev.tw.silent →
      Answers .twinRecordTimeout s fun t => t.dev.flag GL_TWSTAT_TWUP = false ∧ t.dev.flag GL_TWSTAT_PEERACT = false) ∧
    (4 ≤ s.dev.tw.mullSilent → s.dev.role = roleSTANDBY → s.dev.converting = true →
      Answers .mullTimeout s fun t => t.dev.role = roleGIVENUP ∧ t.dev.flag GL_TWEVT_MULLDIF = true) ∧
    (s.dev.role = roleRESYNC → s.dev.tw.copied = true → s.dev.get GL_TWCFG_RSN ≤ s.dev.tw.rsOk →
      Answers .twinResyncDone s fun t => t.dev.role = roleSTANDBY) ∧
    (s.dev.role = roleACTIVE → Answers .secondActiveDetect s fun t => t.dev.flag GL_TWEVT_DUAL = true ∧
      t.dev.role = if s.dev.flag GL_TWCFG_END then roleGIVENUP else roleACTIVE)

/-- The frame of channels and twin. A self-check that fails, a self-test and the end of a resynchronisation of a channel of region `g`
change no register but those of the region, GL_TWSTAT (a hand-over), of a self-test FB_SPARE, and those any command may change, and no
other region; only a self-test changes the repairs of the fabric. An ARB record, TGIV, the silence of the twin, the end of the
device's resynchronisation and a second ACTIVE device change no register but those of the twin. None of them touches lanes, quires,
cells, measurement, time, safety, network or memory. -/
def Obligations.ChannelFrame : Prop :=
  ∀ (c : Instr) (s t : State), s.awake → exec c s = .next t →
    let parts (d : Dev) := (d.lanes, d.quires, d.cells, d.ains, d.groups, d.adq, d.telem, d.snaps, d.tm, d.sf, d.nt, d.su, d.jtag)
    (∀ g : Fin 8,
      (((∃ k x, c = .channelSelfCheckFail g k x) ∨ (∃ k, c = .resyncCopyDone g k) ∨ (∃ k, c = .resyncCheckDone g k)) →
        s.keepsRest t ∧ s.dev.keepsWords (fun a => regionRegs g.val a ∨ a = GL_TWSTAT ∨ sideRegs a) t.dev ∧
          (∀ k, k ≠ g.val → t.dev.region k = s.dev.region k) ∧ parts t.dev = parts s.dev ∧ t.dev.fb = s.dev.fb) ∧
      ((∃ k b, c = .channelSelfTestDone g k b) →
        s.keepsRest t ∧ s.dev.keepsWords (fun a => regionRegs g.val a ∨ a = FB_SPARE ∨ sideRegs a) t.dev ∧
          (∀ k, k ≠ g.val → t.dev.region k = s.dev.region k) ∧ parts t.dev = parts s.dev)) ∧
    (((∃ r, c = .twinArbRx r) ∨ c = .tgivRx ∨ c = .twinRecordTimeout ∨ c = .mullTimeout ∨ c = .twinResyncDone ∨
        c = .secondActiveDetect) →
      s.keepsRest t ∧ s.dev.keepsWords (fun a => a = GL_TWSTAT ∨ a = GL_TWEVT ∨ a = GL_TWCNT ∨ sideRegs a) t.dev ∧
        t.dev.regions = s.dev.regions ∧ parts t.dev = parts s.dev ∧ t.dev.fb = s.dev.fb)

/-- R243 to R247, R251: a slot starts one conversion of its group; a conversion that completes leaves the flight, is corrected by
its slice, takes its place by slot among the codes of its input that a pair may still need, the last of them included, and, while
its period is open, enters the period's accumulator; a raw code at a rail sets OVR.
Where the spec is silent it rests on log entry 61 (DEDUCED). -/
def Obligations.Conversions : Prop :=
  ∀ (a : Fin 4) (s : State), s.awake →
    (adRun a.val s.dev = true → s.dev.timeRuns = true → slotOff (adLp a.val s.dev) (s.dev.group a.val).slot < s.dev.perLen →
      Answers (.adcSlotStart a) s fun t => (t.dev.group a.val).slot = (s.dev.group a.val).slot + 1 ∧
        (t.dev.group a.val).serial = (s.dev.group a.val).serial + 1 ∧
        (t.dev.group a.val).flight.length = (s.dev.group a.val).flight.length + 1 ∧ (t.dev.group a.val).inj = none ∧
        slotTick a.val s.dev ≤ t.dev.nowTick) ∧
    (s.dev.perLen ≤ slotOff (adLp a.val s.dev) (s.dev.group a.val).slot →
      Answers (.adcSlotStart a) s fun t => t.dev.groups = s.dev.groups) ∧
    (∀ (code outCode : BitVec 12) (c : Conv), firstDone (s.dev.group a.val).flight = some c → c.inp < 8 →
      Answers (.conversionComplete a code outCode) s fun t =>
        (t.dev.group a.val).flight = (s.dev.group a.val).flight.erase c ∧
        (t.dev.ain (8 * a.val + c.inp)).lastC = codeKeep (openSlot (t.dev.group a.val) c.inp (s.dev.group a.val).serial)
          (codeInsert (c.slot, adCorrect a.val c.slice code.toInt s.dev) (s.dev.ain (8 * a.val + c.inp)).lastC) ∧
        (((s.dev.ain (8 * a.val + c.inp)).lastC.all fun x => decide (x.1 < c.slot)) = true →
          (t.dev.ain (8 * a.val + c.inp)).lastC.getLast? = some (c.slot, adCorrect a.val c.slice code.toInt s.dev)) ∧
        (c.per ≤ (s.dev.group a.val).closedPer → c.off + adLat c.lp < c.len →
          (t.dev.ain (8 * a.val + c.inp)).p0 =
            accAdd (s.dev.ain (8 * a.val + c.inp)).p0 (adCorrect a.val c.slice code.toInt s.dev)) ∧
        (code.toInt = -2048 ∨ code.toInt = 2047 → t.dev.bit AD_OVR_OVR (8 * a.val + c.inp) = true))

/-- R248, R249, R251, R253, R256: CALN pairs end a calibration step, and the slice then swaps in at its slot; the period records of
a group close once for each period and the open records follow them, with MMISS when they come late; a window record closes in
the same way; an injected conversion is accepted and counted while nothing else needs the out slice, and dropped and counted
where the group does not run. Where the spec is silent it rests on log entry 61 (DEDUCED). -/
def Obligations.MeasurementRecords : Prop :=
  ∀ (a : Fin 4) (s : State), s.awake →
    (adRun a.val s.dev = true → (s.dev.group a.val).swapWait = 0 → s.dev.get (AD_CALCFG_CALN a.val) ≤ (s.dev.group a.val).pairs →
      s.dev.flag (AD_GSTAT_NOROT a.val) = false →
      Answers (.calibrationStepEnd a) s fun t => (t.dev.group a.val).swapWait = 1 ∧
        t.dev.get (AD_CALCNT_STEPS a.val) = (s.dev.get (AD_CALCNT_STEPS a.val) + 1) % 2 ^ 16) ∧
    (adRun a.val s.dev = true → (s.dev.group a.val).swapWait = 1 →
      (s.dev.group a.val).serial % 8 = ((s.dev.group a.val).swapPos + 1) % 8 →
      outBusy (s.dev.group a.val) (slotTick a.val s.dev) = true →
      Answers (.sliceSwap a) s fun t => (t.dev.group a.val).swapWait = 2 ∧
        t.dev.get (AD_GSTAT_OUT a.val) = s.dev.get (AD_GSTAT_OUT a.val) ∧
        t.dev.get (AD_CALCNT_SLIPS a.val) =
          satInc (AD_CALCNT_SLIPS a.val).width (s.dev.get (AD_CALCNT_SLIPS a.val)) 1) ∧
    (adRun a.val s.dev = true → ((s.dev.group a.val).swapWait = 2 ∨ (s.dev.group a.val).swapWait = 1 ∧
        (s.dev.group a.val).serial % 8 = ((s.dev.group a.val).swapPos + 1) % 8) →
      outBusy (s.dev.group a.val) (slotTick a.val s.dev) = false → (s.dev.group a.val).inj = none →
      Answers (.sliceSwap a) s fun t => (t.dev.group a.val).swapWait = 0 ∧ (t.dev.group a.val).pairs = 0 ∧
        t.dev.get (AD_GSTAT_OUT a.val) =
          (s.dev.group a.val).order.getD ((s.dev.group a.val).serial % 8) 0 % 2 ^ 4) ∧
    (∀ inTime, adRun a.val s.dev = true → (s.dev.group a.val).closedPer ≤ s.dev.tm.jAbs →
      Answers (.periodRecordClose a inTime) s fun t =>
        (t.dev.group a.val).closedPer = (s.dev.group a.val).closedPer + 1 ∧
        (∀ k, k < 8 → (t.dev.ain (8 * a.val + k)).p0 = (s.dev.ain (8 * a.val + k)).p1 ∧
          (t.dev.ain (8 * a.val + k)).p1 = acc0) ∧
        (inTime = false → t.dev.flag AD_EVT_MMISS = true)) ∧
    (∀ i : Fin 32, adRun (i.val / 8) s.dev = true → (s.dev.ain i.val).wPer ≤ s.dev.tm.jAbs →
      Answers (.windowRecordClose i) s fun t => (t.dev.ain i.val).w0 = (s.dev.ain i.val).w1 ∧ (t.dev.ain i.val).w1 = acc0 ∧
        (t.dev.ain i.val).wm =
          if 2 ^ s.dev.get (AD_INCFG_WDIV i.val) ≤ (s.dev.ain i.val).wm then 1 else (s.dev.ain i.val).wm + 1) ∧
    (∀ (o : Origin) (input : BitVec 3), s.dev.mode ≠ modeLOAD → s.dev.permits o .meas = true →
      (adRun a.val s.dev = true → (s.dev.group a.val).inj = none → (s.dev.group a.val).swapWait = 0 →
        outConverts (s.dev.group a.val) (s.dev.get (AD_GSTAT_OUT a.val)) s.dev.nowTick = false →
        s.dev.bit (AD_GSTAT_SLOK a.val) (s.dev.get (AD_GSTAT_OUT a.val)) = true →
        (s.dev.group a.val).serial < (s.dev.group a.val).pairDue →
        Answers (.adInjGo o a input) s fun t => (t.dev.group a.val).inj = some input.toNat ∧
          t.dev.flag (AD_INJ_GO a.val) = true ∧
          t.dev.get (AD_INJCNT_ACCEPT a.val) = satInc 16 (s.dev.get (AD_INJCNT_ACCEPT a.val)) 1) ∧
      (adRun a.val s.dev = false →
        Answers (.adInjGo o a input) s fun t => (t.dev.group a.val).inj = (s.dev.group a.val).inj ∧
          t.dev.get (AD_INJCNT_DROP a.val) = satInc 16 (s.dev.get (AD_INJCNT_DROP a.val)) 1))

/-- The frame of the measurement groups: a slot, a calibration step and a swap of group `a` change no register but the group's own,
AD_STAT, AD_EVT and those of events, no other group, no memory, and no part of the device outside measurement; a slot lets station
time come up to its instant, with what passing time does to slew and phase steps (log entry 4, DESIGN CHOICE). -/
def Obligations.MeasureFrame : Prop :=
  ∀ (a : Fin 4) (s t : State) (c : Instr), s.awake →
    (c = .adcSlotStart a ∨ c = .calibrationStepEnd a ∨ c = .sliceSwap a) → exec c s = .next t →
    s.keepsRest t ∧
    s.dev.keepsWords (fun x => (AD_GCFG a.val ≤ x ∧ x < AD_GCFG (a.val + 1)) ∨
      (AD_SLCOEF a.val 0 ≤ x ∧ x < AD_SLCOEF (a.val + 1) 0) ∨ x = AD_STAT ∨ x = AD_EVT ∨ sideRegs x ∨
      (c = .adcSlotStart a ∧ timeRegs x)) t.dev ∧
    (∀ k, k ≠ a.val → t.dev.group k = s.dev.group k) ∧
    { t.dev.tm with label := s.dev.tm.label, slew := s.dev.tm.slew, pllT := s.dev.tm.pllT, pllS := s.dev.tm.pllS } = s.dev.tm ∧
    (c ≠ .adcSlotStart a → t.dev.tm = s.dev.tm) ∧
    (t.dev.lanes, t.dev.quires, t.dev.cells, t.dev.regions, t.dev.ains, t.dev.adq, t.dev.telem, t.dev.snaps, t.dev.sent,
        t.dev.sf, t.dev.fb, t.dev.nt, t.dev.tw, t.dev.su, t.dev.jtag) =
      (s.dev.lanes, s.dev.quires, s.dev.cells, s.dev.regions, s.dev.ains, s.dev.adq, s.dev.telem, s.dev.snaps, s.dev.sent,
        s.dev.sf, s.dev.fb, s.dev.nt, s.dev.tw, s.dev.su, s.dev.jtag)

/-- R289, R293, R296, R298: protective reaction and trip inputs. The step after a PROTECTIVE flag of device scope takes the device
from CHARGE or RUN to BLOCK, with every assigned region of CHARGE, READY or RUN in BLOCK; an enabled trip input that asserts sets
its flag, and shows raw and filtered; one that deasserts shows so.
Where the spec is silent it rests on log entry 5 (DESIGN CHOICE). -/
def Obligations.ProtectiveReaction : Prop :=
  ∀ (s : State) (tk : Nat), s.awake →
    (s.dev.fc.protDev = true → (s.dev.mode = modeCHARGE ∨ s.dev.mode = modeRUN) →
      Answers (.protectiveOverride tk) s fun t => t.dev.mode = modeBLOCK ∧
        ∀ g, g < 8 → s.dev.assigned g = true →
          (s.dev.rgState g = rgCHARGE ∨ s.dev.rgState g = rgREADY ∨ s.dev.rgState g = rgRUN) → t.dev.rgState g = rgBLOCK) ∧
    (∀ x : Fin 4, s.dev.live = true → s.dev.flag (FC_TRIPCFG_EN x.val) = true →
      (bitOf s.dev.fc.tripOwn x.val = false →
        Answers (.tripInputAssert x tk) s fun t => t.dev.bit FC_TRIPEVT_TRIP x.val = true ∧
          t.dev.bit FC_TRIPSTAT_RAW x.val = true ∧ t.dev.bit FC_TRIPSTAT_FILT x.val = true ∧
          bitOf t.dev.fc.tripOwn x.val = true ∧
          t.dev.get FC_TRIPEVT_TRIPCNT = satInc 16 (s.dev.get FC_TRIPEVT_TRIPCNT) 1) ∧
      (bitOf s.dev.fc.tripOwn x.val = true → bitOf s.dev.fc.tripRel x.val = false →
        Answers (.tripInputDeassert x tk) s fun t => t.dev.bit FC_TRIPSTAT_RAW x.val = false ∧
          t.dev.bit FC_TRIPSTAT_FILT x.val = false ∧ bitOf t.dev.fc.tripOwn x.val = false))

/-- R47, R53, R303, R304, R445, R453, R467, Table 11.1: fault sources. An injection that the rules accept waits for its checker and is
counted; a spine error that the retry mends is counted, one that it does not mend takes the free spare wire group for one of the
link's groups, and without a spare the link is lost; a corrected memory error sets SBE and is counted, a double error of the recorder
DBEREC, and one of a supervisor is STOP; an error in the word that an injection inverted ends the injection with its own count of
bits; a pass of the scrub reads that word too; a temperature shows at once, above 125 °C with TJHI, and the trip temperature is STOP,
both with MNT_ALERT_N low. Where the spec is silent it rests on log entries 17 (DESIGN CHOICE), 63 (DESIGN CHOICE). -/
def Obligations.FaultSources : Prop :=
  ∀ (s : State), s.awake →
    (∀ (o : Origin) (tg : BitVec 4) (dbl : Bool) (i : BitVec 13), s.dev.mode ≠ modeLOAD → s.dev.permits o .inj = true →
      injOk tg.toNat dbl i.toNat s.dev = true →
      Answers (.faultInject o tg dbl i) s fun t => t.dev.fc.inj = some (tg.toNat, dbl, i.toNat) ∧
        t.dev.flag FC_INJ_GO = true ∧
        t.dev.get FC_INJCNT_DONE = satInc FC_INJCNT_DONE.width (s.dev.get FC_INJCNT_DONE) 1) ∧
    (∀ link fails sp p1, Answers (.spineCrcError link fails sp p1) s fun t => t.dev.flag FB_SPINE_RETRY = true ∧
      t.dev.get FB_SPINE_RETRYCNT = satInc FB_SPINE_RETRYCNT.width (s.dev.get FB_SPINE_RETRYCNT) 1 ∧
      (fails = false → t.dev.mode = s.dev.mode) ∧
      (fails = true → t.dev.flag FB_SPINE_LINKFAIL = true ∧
        (spareOk 6 s.dev (17 * link + 16) = true → sp = false →
          ∃ u, 17 * link ≤ u ∧ u < 17 * link + 16 ∧ (6, u) ∈ t.dev.fb.retired ∧ (6, u, 17 * link + 16) ∈ t.dev.fb.assigned ∧
            t.dev.mode = s.dev.mode) ∧
        (spareOk 6 s.dev (17 * link + 16) = false ∨ sp = true →
          if p1 then t.dev.flag FC_CHIP_LINKLOST1 = true ∧ (s.dev.flag FC_CHIP_LINKLOST1 = false → t.dev.mode = modeSTOP)
          else t.dev.flag FC_CHIP_LINKLOST = true))) ∧
    (∀ m row scrub, s.dev.fc.injAt ≠ some m → Answers (.sramEccError m false row scrub) s fun t =>
      t.dev.flag FC_CHIP_SBE = true ∧ t.dev.fb.corrected = s.dev.fb.corrected + 1) ∧
    (∀ p row scrub, s.dev.fc.injAt ≠ some (.recorder p) → p.val ∉ s.dev.dr.removed →
      Answers (.sramEccError (.recorder p) true row scrub) s fun t => t.dev.flag FC_CHIP_DBEREC = true ∧
        p.val ∈ t.dev.dr.removed ∧ ∀ k, k < 128 → slotGet t.recMem (128 * p.val + k) = 0) ∧
    (∀ row scrub, s.dev.fc.injAt ≠ some .supervisor → s.dev.flag FC_CHIP_DBESV = false →
      Answers (.sramEccError .supervisor true row scrub) s fun t => t.dev.mode = modeSTOP ∧
        t.dev.flag FC_CHIP_DBESV = true) ∧
    (∀ m tg dbl i e row scrub, s.dev.fc.injAt = some m → s.dev.fc.inj = some (tg, dbl, i) →
      Answers (.sramEccError m e row scrub) s fun t => t.dev.fc.inj = none ∧ t.dev.flag FC_INJ_GO = false ∧
        (dbl = false → t.dev.flag FC_CHIP_SBE = true) ∧
        (m = .supervisor → dbl = true → s.dev.flag FC_CHIP_DBESV = false → t.dev.mode = modeSTOP)) ∧
    (Answers .sramScrub s fun t => t.dev.fb.scrubPass = s.dev.fb.scrubPass + 1 ∧ t.dev.fc.injAt = none) ∧
    (∀ tj : BitVec 13, Answers (.tjSensorUpdate tj) s fun t => t.dev.getS GL_TJ_TJ = tj.toInt ∧
      (2000 < tj.toInt → t.dev.flag FC_CHIP_TJHI = true ∧ mntAlert t.dev = true)) ∧
    (2240 < s.dev.getS GL_TJ_TJ → s.dev.flag FC_CHIP_TJTRIP = false →
      Answers .tjTripTimeout s fun t => t.dev.mode = modeSTOP ∧ t.dev.flag FC_CHIP_TJTRIP = true ∧ mntAlert t.dev = true)

/-- R297: a write that would clear the trip flag of an input that is asserted after its filter is refused, with the consequences of a
refused write: the register keeps every field and the refusal is collected. Once the input has deasserted the bit clears. -/
def Obligations.TripFlagClear : Prop :=
  ∀ (o : Origin) (x : Fin 4) (s : State), s.awake → s.dev.mode ≠ modeLOAD → s.dev.permits o .flag = true →
    s.dev.bit FC_TRIPEVT_TRIP x.val = true →
    (∀ w : Word, w.getLsbD x.val = true → s.dev.bit FC_TRIPSTAT_FILT x.val = true →
      Answers (.registerWrite o (BitVec.ofNat 32 FC_TRIPEVT) w) s fun t =>
        t.dev.word FC_TRIPEVT = s.dev.word FC_TRIPEVT ∧
        (if o = .sup then t.dev.flag SV_EVT_SUPREF = true ∧
            t.dev.get SV_CNT_SUPREFCNT = satInc SV_CNT_SUPREFCNT.width (s.dev.get SV_CNT_SUPREFCNT) 1
          else t.dev.flag FC_CHIP_WREF = true)) ∧
    (∀ w : BitVec 4, w.getLsbD x.val = true →
      (∀ y : Fin 4, w.getLsbD y.val = true → s.dev.bit FC_TRIPSTAT_FILT y.val = false) →
      Answers (.registerWrite o (BitVec.ofNat 32 FC_TRIPEVT) (w.setWidth 32)) s fun t =>
        t.dev.bit FC_TRIPEVT_TRIP x.val = false)

/-- R42, R43, R44, R55, R57, R58, R376, R459: the fabric. A unit run shows its margin, and one that reaches its deadline counts as
a miss; a sort of 128 cells in an unassigned slice shows in its SPEED alone; an evaluation window that has lasted its periods ends
and starts a new one; the regulator's acknowledgement ends the wait for it and its absence raises AVS while SUP3 runs, and without
SUP3 the outcome waits for it; the hold-off of margins ends once the regulator has answered; entries of the journal that wait are
written to both banks, which then hold what the write has made of them.
Where the spec is silent it rests on log entries 5 (DESIGN CHOICE), 81 (DEDUCED), 99 (DEDUCED). -/
def Obligations.FabricEvents : Prop :=
  ∀ (s : State), s.awake →
    (∀ (x : Fin 6) (u ts td tdl : Nat), (Instr.unitRunComplete x u ts td tdl).wf = true → u < classUnits x.val → s.dev.mode ≠ modeLOAD →
      Answers (.unitRunComplete x u ts td tdl) s fun t =>
        t.dev.get (FB_CLSMARG_LAST x.val) = (if tdl ≤ td then 0 else min ((tdl - td) * 4096 / (td - ts)) 0xFFFF) ∧
        (tdl ≤ td → t.dev.get (FB_CLSSTAT_MISSCNT x.val) =
          satInc (FB_CLSSTAT_MISSCNT x.val).width (s.dev.get (FB_CLSSTAT_MISSCNT x.val)) 1)) ∧
    (∀ (i ts td tdl : Nat), i < 80 → ts < td → s.dev.mode ≠ modeLOAD → sliceFree s.dev i = true →
      Answers (.unitRunComplete 0 (64 + i) ts td tdl) s fun t => t.dev.get (FB_SLICE_SPEED i) = min (td - ts) 0xFFFF ∧
        t.dev.fb = s.dev.fb ∧ t.dev.get (FB_CLSMARG_LAST 0) = s.dev.get (FB_CLSMARG_LAST 0)) ∧
    (s.dev.mode ≠ modeLOAD → s.dev.fb.holdoff = false → s.dev.get FB_EVAL_WINDOW ≤ s.dev.fb.winPer →
      Answers .evalWindowEnd s fun t => t.dev.fb.cls = [] ∧ t.dev.fb.winPer = 0 ∧
        ∀ x, x < 6 → (clsWin x s.dev).minM < s.dev.get (FB_CLSTHR_WARN x) → t.dev.flag (FB_CLSSTAT_WARN x) = true) ∧
    (s.dev.mode ≠ modeLOAD → (s.dev.fb.holdoff = true ∨ s.dev.fb.winPer < s.dev.get FB_EVAL_WINDOW) →
      Answers .evalWindowEnd s fun t => t.dev.fb = s.dev.fb) ∧
    (s.dev.fb.avsPend = true → s.dev.fb.avsLate = none →
      (s.dev.bit SV_STAT_RUN 3 = true →
        (Answers .avsAck s fun t => t.dev.fb.avsPend = false ∧ t.dev.fc.avsBad = false) ∧
        (Answers .avsTimeout s fun t => t.dev.fb.avsPend = false ∧ t.dev.flag FC_CHIP_AVS = true)) ∧
      (s.dev.bit SV_STAT_RUN 3 = false →
        (Answers .avsAck s fun t => t.dev.fb = { s.dev.fb with avsLate := some true }) ∧
        (Answers .avsTimeout s fun t => t.dev.fb = { s.dev.fb with avsLate := some false } ∧
          t.dev.flag FC_CHIP_AVS = s.dev.flag FC_CHIP_AVS))) ∧
    ((s.dev.fb.avsPend = false ∨ s.dev.fb.avsLate.isSome = true) →
      Answers .avsTimeout s fun t => t.dev.fb = s.dev.fb ∧ t.dev.flag FC_CHIP_AVS = s.dev.flag FC_CHIP_AVS) ∧
    (s.dev.fb.avsPend = false → s.dev.fb.holdoff = true → Answers .marginHoldoffEnd s fun t => t.dev.fb.holdoff = false) ∧
    (∀ (wa wb : BankWrite), s.dev.fb.jq ≠ [] → s.dev.bit SV_STAT_RUN 3 = true →
      let all := s.dev.fb.jq.foldl jAdd s.dev.fb.inForce
      let ra := jWriteBank s.dev.fb.eraseA wa s.flash.a s.dev.fb.jq all
      let rb := jWriteBank s.dev.fb.eraseB wb s.flash.b s.dev.fb.jq all
      Answers (.journalWrite wa wb) s fun t => t.dev.fb.jq = [] ∧ t.dev.fb.inForce = all ∧
        t.flash = { s.flash with a := ra.1, b := rb.1 } ∧ t.dev.fb.eraseA = false ∧ t.dev.fb.eraseB = false ∧
        ((ra.2 && rb.2) = false → t.dev.flag FB_JOURNAL_WRFAIL = true) ∧
        ((ra.2 && rb.2) = true → t.dev.flag FB_JOURNAL_WRFAIL = s.dev.flag FB_JOURNAL_WRFAIL))

/-- R308, R311 to R314, R317, R318, R320, R321: the safety channel. In every mode a cycle samples the readbacks, and before the
folio has loaded engages both clasps; a demand engages the clasps that the input names; a filtered channel takes its level; a reset
held too long is ignored; a discrepancy that outlasts its time locks its input; a readback that differs from its command engages
the clasp unless an off-test runs, or is STOP; a permit test moves one switch and its end returns it.
Where the spec is silent it rests on log entry 66 (DESIGN CHOICE). -/
def Obligations.SafetyChannel : Prop :=
  ∀ (s : State), s.dev.released = true → s.dev.fc.stopReq = false →
    (∀ crc (h l : NodeRx), Answers (.safetyCycle crc h l) s fun t => t.dev.sf.cycle = s.dev.sf.cycle + 1 ∧
      t.dev.get SF_RB_HRB = h.reads.toNat ∧ t.dev.get SF_RB_LRB = l.reads.toNat ∧
      (s.dev.sf.folio = false → t.dev.bit SF_STAT_CLASP 0 = true ∧ t.dev.bit SF_STAT_CLASP 1 = true)) ∧
    (∀ (i : Fin 8) (h l : NodeRx) (x : Fin 2), s.awake → s.dev.sf.folio = true → s.dev.flag (SF_INCFG_EN i.val) = true →
      s.dev.bit (SF_INCFG_OMASK i.val) x.val = true → sfHealthy i.val s.dev = false → bitOf s.dev.sf.dem i.val = false →
      Answers (.safetyCycle true h l) s fun t => t.dev.bit SF_STAT_CLASP x.val = true ∧ t.dev.bit SF_EVT_DEMAND i.val = true) ∧
    (∀ (i : Fin 8) (chB level : Bool), Answers (.safetyInputFilter i chB level) s fun t =>
      bitOf (if chB then t.dev.sf.lvlB else t.dev.sf.lvlA) i.val = level ∧
        (if chB then t.dev.sf.lvlA = s.dev.sf.lvlA else t.dev.sf.lvlB = s.dev.sf.lvlB)) ∧
    (∀ chB level, Answers (.safetyResetFilter chB level) s fun t =>
      (if chB then t.dev.sf.rstB else t.dev.sf.rstA) = level) ∧
    ((s.dev.sf.rstA || s.dev.sf.rstB) = true → Answers .resetHoldTimeout s fun t => t.dev.sf.rstPhase = 5) ∧
    (s.awake →
      (∀ i : Fin 8, s.dev.flag (SF_INCFG_EN i.val) = true → sfHealthA i.val s.dev ≠ sfHealthB i.val s.dev →
        Answers (.discrepancyTimeout i) s fun t => t.dev.bit SF_STAT_DLOCK i.val = true ∧
          t.dev.bit SF_EVT_DISC i.val = true) ∧
      (∀ x : Fin 2,
        (s.dev.bit SF_RB_HCMD x.val = true → offTest x.val s.dev = true → Answers (.readbackMismatch x .high) s fun t =>
          t.dev.get SF_EVT_RBOFF = s.dev.get SF_EVT_RBOFF ∧ t.dev.get SF_STAT_CLASP = s.dev.get SF_STAT_CLASP) ∧
        (s.dev.bit SF_RB_HCMD x.val = true → offTest x.val s.dev = false → Answers (.readbackMismatch x .high) s fun t =>
          t.dev.bit SF_EVT_RBOFF x.val = true ∧ t.dev.bit SF_STAT_CLASP x.val = true ∧ t.dev.bit SF_RB_HCMD x.val = false ∧
            t.dev.bit SF_RB_LCMD x.val = false) ∧
        (s.dev.bit SF_RB_LCMD x.val = false → s.dev.bit SF_EVT_RBON x.val = false →
          Answers (.readbackMismatch x .low) s fun t => t.dev.mode = modeSTOP ∧ t.dev.bit SF_EVT_RBON x.val = true) ∧
        (forceOff x.val s.dev = false → smGet (fun _ => 0) s.dev.sf.test x.val = 0 →
          (clasped x.val s.dev = true → Answers (.permitTest x) s fun t =>
            smGet (fun _ => 0) t.dev.sf.test x.val = 1 ∧ t.dev.bit SF_RB_HCMD x.val = true) ∧
          (clasped x.val s.dev = false → 8000 ≤ s.dev.sf.cycle - smGet (fun _ => 0) s.dev.sf.relAt x.val →
            Answers (.permitTest x) s fun t =>
              smGet (fun _ => 0) t.dev.sf.test x.val = 1 ∧ t.dev.bit SF_RB_HCMD x.val = false)) ∧
        (smGet (fun _ => 0) s.dev.sf.test x.val = 1 → clasped x.val s.dev = true → bitOf s.dev.sf.relPend x.val = false →
          Answers (.testWidthEnd x) s fun t =>
            smGet (fun _ => 0) t.dev.sf.test x.val = 3 ∧ t.dev.bit SF_RB_HCMD x.val = false ∧
              t.dev.bit SF_RB_LCMD x.val = false)))

/-- R327, R331 to R334, R336, R337: the recorder. A source's entry reaches the reorder stage or is dropped and counted; the first
entry in key order leaves the stage once the horizon has passed and, where it is a MODE entry and a record is armed, is stored in the
next slot; a drop
leaves one GAP entry when space returns; ARM starts the lowest free record, FORCE triggers it, DISARM ends it, REL frees complete
records; a record that is full or whose time has passed is complete; a line event passes to the stage, and a driven line is
released. Where the spec is silent it rests on log entry 67 (DEDUCED). -/
def Obligations.RecorderEvents : Prop :=
  ∀ (s : State), s.awake →
    (∀ e rest, s.dev.dr.inq = e :: rest →
      (stageRoom e s.dev = true →
        Answers .recorderEntryIn s fun t => t.dev.dr.stage.length = s.dev.dr.stage.length + 1 ∧
          t.dev.dr.newest = max s.dev.dr.newest e.key) ∧
      (stageRoom e s.dev = false →
        Answers .recorderEntryIn s fun t => t.dev.dr.stage = s.dev.dr.stage ∧ t.dev.dr.dropN = s.dev.dr.dropN + 1 ∧
          t.dev.get DR_CNT_DROPCNT = satInc DR_CNT_DROPCNT.width (s.dev.get DR_CNT_DROPCNT) 1 ∧
          t.dev.flag DR_EVT_DROP = true)) ∧
    (∀ e, stageMin s.dev.dr.stage = some e → s.dev.live = true → e.key + horizon s.dev ≤ s.dev.dr.newest →
      Answers .recorderEntryWrite s fun t => t.dev.dr.stage = s.dev.dr.stage.erase e ∧
        (s.dev.get DR_STAT_STATE = drARMED → e.kind = kMODE → 0 < recCap (s.dev.get DR_STAT_CUR) s.dev →
          slotGet t.recMem (s.dev.get DR_STAT_CUR * recSize s.dev + s.dev.dr.wr) = slotBits e s.dev.dr.num)) ∧
    (0 < s.dev.dr.dropN → s.dev.dr.stage.length < 16384 →
      Answers .recorderGapEntry s fun t => t.dev.dr.dropN = 0 ∧ t.dev.dr.stage.length = s.dev.dr.stage.length + 1) ∧
    (∀ o : Origin, s.dev.mode ≠ modeLOAD → s.dev.permits o .recd = true → s.dev.get DR_CFG_NRECL ≤ 4 →
      (∀ r, s.dev.get DR_STAT_STATE = drIDLE → s.dev.flag DR_CFG_EN = true →
        (List.range (nRec s.dev)).find? (recFree s.dev) = some r →
        Answers (.drArm o) s fun t => t.dev.get DR_STAT_STATE = drARMED ∧ t.dev.get DR_STAT_CUR = r ∧
          t.dev.get (DR_RCOUNT_COUNT r) = 0) ∧
      (s.dev.get DR_STAT_STATE = drARMED →
        (s.dev.dr.armAt ≤ s.dev.nowNs → Answers (.drForce o) s fun t => t.dev.get DR_STAT_STATE = drPOST ∧
          t.dev.flag (DR_RSTAT_FORCE (s.dev.get DR_STAT_CUR)) = true) ∧
        (Answers (.drDisarm o) s fun t => t.dev.get DR_STAT_STATE = drIDLE ∧
          t.dev.bit DR_STAT_FULL (s.dev.get DR_STAT_CUR) = false)) ∧
      (∀ (mask : BitVec 16) (r : Nat), s.dev.get DR_STAT_STATE = drIDLE → r < nRec s.dev → mask ≠ 0 →
        bitOf mask.toNat r = true → Answers (.drRel o mask) s fun t => t.dev.bit DR_STAT_FULL r = false)) ∧
    (recFull s.dev = true → s.dev.get DR_CFG_NRECL ≤ 4 → Answers .recordComplete s fun t =>
      (t.dev.get DR_STAT_STATE = drARMED ∨ t.dev.get DR_STAT_STATE = drHELD) ∧
        (s.dev.flag DR_CFG_RING = false → t.dev.flag (DR_RSTAT_FULL (s.dev.get DR_STAT_CUR)) = true)) ∧
    (s.dev.get DR_STAT_STATE = drPOST → s.dev.get DR_CFG_POSTMAX ≠ 0 →
      Answers .recordPostmaxExpiry s fun t => t.dev.get DR_STAT_STATE ≠ drPOST) ∧
    (∀ (x : Fin 2) (tk : Nat), s.dev.live = true → xinEn x.val s.dev = true →
      (bitOf s.dev.dr.drive x.val = false → smGet (fun _ => 0) s.dev.dr.lockUntil x.val ≤ 2 * (s.dev.tm.bj + tk) →
        Answers (.xtrigAssert x tk) s fun t => bitOf t.dev.dr.xAsserted x.val = true) ∧
      (bitOf s.dev.dr.xAsserted x.val = true → s.dev.flag DR_CFG_EN = true →
        Answers (.xtrigDeassert x tk) s fun t => bitOf t.dev.dr.xAsserted x.val = false ∧
          t.dev.dr.inq.length = s.dev.dr.inq.length + 1)) ∧
    (∀ x : Fin 2, bitOf s.dev.dr.drive x.val = true →
      Answers (.xtrigPulseEnd x) s fun t => bitOf t.dev.dr.drive x.val = false ∧
        smGet (fun _ => 0) t.dev.dr.lockUntil x.val = s.dev.nowNs + 1000)

/-- R342 to R344, R403 to R407, Table 17.2: supervisors and ports. A watchdog stops its supervisor, is counted and sets WDOG; a
restart that is complete lets it run; a wait of SUP2 that expires answers the read that waits longest with TIMEOUT. An enabled port
that has been started comes up and goes down, the last one with NONET; an ARP request, a Neighbour Solicitation and an echo request
for the own address are answered; the answer of a peer enters the address cache and leaves it when it expires; a frame or packet
that the port does not accept has no effect.
Where the spec is silent it rests on log entries 68 (DEDUCED), 78 (DESIGN CHOICE). -/
def Obligations.SupervisorsAndPorts : Prop :=
  (∀ (s : State), s.awake → s.dev.mode ≠ modeLOAD →
    (∀ v : Fin 4, s.dev.bit SV_STAT_RUN v.val = true →
      Answers (.supervisorWatchdog v) s fun t => t.dev.bit SV_STAT_RUN v.val = false ∧ t.dev.bit SV_EVT_WDOG v.val = true ∧
        t.dev.get SV_CNT_WDCNT = satInc SV_CNT_WDCNT.width (s.dev.get SV_CNT_WDCNT) 1) ∧
    (∀ v : Fin 4, s.dev.bit SV_STAT_RUN v.val = false → s.dev.nt.smpQ = [] →
      Answers (.supervisorRestartDone v) s fun t => t.dev.bit SV_STAT_RUN v.val = true) ∧
    (∀ r rs rest, s.dev.bit SV_STAT_RUN 1 = true → s.dev.bit SV_STAT_RUN 2 = true → s.dev.nt.treads = (r, rs) :: rest →
      answerTo r tyTREAD s.dev = [r] →
      Answers (.taskWaitTimeout 2) s fun t => t.dev.nt.treads = rest ∧ t.answered r tyTREAD stTIMEOUT [])) ∧
  (∀ (x : Fin 2) (s : State), s.awake →
    (s.dev.live = true → s.dev.nt.started = true → s.dev.flag (NT_PCFG_EN x.val) = true →
      Answers (.netLinkUp x) s fun t => netUp x.val t.dev = true ∧ netUp (1 - x.val) t.dev = netUp (1 - x.val) s.dev) ∧
    (netUp x.val s.dev = true →
      (Answers (.netLinkDown x) s fun t => netUp x.val t.dev = false ∧
        t.dev.flag (if x.val = 0 then NT_EVT_LINK0 else NT_EVT_LINK1) = true ∧
        (netUp (1 - x.val) s.dev = false → t.dev.flag NT_EVT_NONET = true)) ∧
      (∀ e : EthHdr, ethOk x.val etARP e s.dev = true → s.dev.flag (NT_PCFG_IPV6 x.val) = false →
        (∀ target mac ip, target.toNat = s.dev.get (NT_IP4_ADDR x.val) →
          Answers (.arpRequestRx x e target mac ip) s fun t =>
            t.dev.sent = .arpReply x.val (frameHdr x.val (some mac) s.dev) ip :: s.dev.sent) ∧
        (∀ mac ip, (peerAt (v4Addr ip).toNat s.dev).isSome = true →
          Answers (.arpReplyRx x e mac ip) s fun t => (x.val, v4Addr ip, mac) ∈ t.dev.nt.arp)) ∧
      (∀ p : IpRx, ipOk x.val 58 58 p s.dev = true → s.dev.flag (NT_PCFG_IPV6 x.val) = true →
        (∀ target mac ip, target.toNat = portIp6 x.val s.dev →
          Answers (.neighbourSolicitationRx x p target mac ip) s fun t =>
            t.dev.sent = .neighbourAdv x.val (packetHdr x.val (some mac) s.dev) ip :: s.dev.sent) ∧
        (∀ mac ip, (peerAt ip.toNat s.dev).isSome = true →
          Answers (.neighbourAdvertisementRx x p mac ip) s fun t => (x.val, ip, mac) ∈ t.dev.nt.arp)) ∧
      (∀ (p : IpRx) v6 src dst data, ipOk x.val 1 58 p s.dev = true → s.dev.flag (NT_PCFG_IPV6 x.val) = v6 →
        dst.toNat = ownAddr x.val s.dev → s.dev.nt.echo = [] →
        Answers (.icmpEchoRequest x p v6 src dst data) s fun t =>
          t.dev.sent = .echoReply x.val (packetHdr x.val (arpFind x.val src s.dev) s.dev) src data :: s.dev.sent)) ∧
    (∀ c : Instr, ((∃ e a m i, ethOk x.val etARP e s.dev = false ∧ c = .arpRequestRx x e a m i) ∨
        (∃ e m i, ethOk x.val etARP e s.dev = false ∧ c = .arpReplyRx x e m i) ∨
        (∃ p a m i, ipOk x.val 58 58 p s.dev = false ∧ c = .neighbourSolicitationRx x p a m i) ∨
        (∃ p m i, ipOk x.val 58 58 p s.dev = false ∧ c = .neighbourAdvertisementRx x p m i) ∨
        (∃ p v a b y, ipOk x.val 1 58 p s.dev = false ∧ c = .icmpEchoRequest x p v a b y)) →
      Answers c s fun t => t.dev.sent = s.dev.sent ∧ t.dev.nt = s.dev.nt) ∧
    (∀ ip, Answers (.arpCacheExpiry x ip) s fun t => ∀ mac, (x.val, v4Addr ip, mac) ∉ t.dev.nt.arp))

/-- R346, R404 to R408, R410, R412: how a request is taken, whatever it asks for. A datagram that the ports do not take up has no
effect. One of a sender that may not send its type is discarded and counted, with no answer; while SUP1 does not run the request
waits in the queue, in the order of the arrival stamps, and finds it full with BUSY; a duplicate of a request that has been answered
gets the kept answers, one of a request that has not waits for its answers, and neither is carried out; an invalid datagram is
discarded and counted, and a valid one whose body is none of its type is answered BADMSG.
Where the spec is silent it rests on log entries 68 (DEDUCED), 69 (DEDUCED), 76 (DESIGN CHOICE). -/
def Obligations.SmpAdmission : Prop :=
  ∀ (s : State), s.awake →
    (∀ (typ : Nat) (r : Req) (i : Instr), requestOf i = some (typ, r) →
      (taken r (payloadLen i) s.dev = false → Answers i s fun t => t.dev.sent = s.dev.sent ∧ t.dev.nt = s.dev.nt ∧
        s.dev.keepsWords sideRegs t.dev) ∧
      (taken r (payloadLen i) s.dev = true →
        (permitted r.addr.toNat typ s.dev = false → Answers i s fun t => t.dev.sent = s.dev.sent ∧
          t.dev.flag NT_EVT_DGBAD = true ∧
          t.dev.get NT_CNT0_DGBADCNT = satInc NT_CNT0_DGBADCNT.width (s.dev.get NT_CNT0_DGBADCNT) 1 ∧
          t.dev.nt = s.dev.nt ∧ t.dev.su = s.dev.su ∧ t.dev.regions = s.dev.regions) ∧
        (permitted r.addr.toNat typ s.dev = true → keptOf r typ s.dev = none → supRuns 1 s.dev = false →
          (s.dev.nt.smpQ.length < 64 → Answers i s fun t => t.dev.sent = s.dev.sent ∧ t.dev.nt.smpQ =
            s.dev.nt.smpQ.takeWhile (comesFirst r) ++ [i] ++ s.dev.nt.smpQ.dropWhile (comesFirst r)) ∧
          (64 ≤ s.dev.nt.smpQ.length → Answers i s fun t =>
            t.answered r typ stBUSY (bytesBE 1 (retryAfter s.dev)) ∧ t.dev.nt.smpQ = s.dev.nt.smpQ ∧
              t.dev.get NT_CNT0_BUSYCNT = satInc NT_CNT0_BUSYCNT.width (s.dev.get NT_CNT0_BUSYCNT) 1)) ∧
        (∀ k, permitted r.addr.toNat typ s.dev = true → keptOf r typ s.dev = some k →
          (∀ m, supRuns 1 s.dev = true → k.answers = [m] → Answers i s fun t => t.dev.sent.head? =
              some (.smp r.port.val (udpHdr r.port.val r.addr r.udp.toNat m s.dev) r.addr r.udp.toNat m) ∧
            t.dev.nt = s.dev.nt ∧ s.dev.keepsWords sideRegs t.dev ∧ t.dev.su = s.dev.su ∧ t.dev.regions = s.dev.regions) ∧
          (k.answers = [] → Answers i s fun t => t.dev.sent = s.dev.sent ∧ s.dev.keepsWords sideRegs t.dev ∧
            t.dev.nt = (onKept r typ (fun x => { x with dups := x.dups ++ [r] }) s.dev).nt ∧
            t.dev.su = s.dev.su ∧ t.dev.regions = s.dev.regions)))) ∧
    (∀ (x : Fin 2) (sender : Sender) (udp : BitVec 16) (p : List Byte),
      let r := payloadReq x sender udp p
      let typ := fieldBE p 3 1
      let fits := bodyFits typ (slice p 16 (p.length - 20))
      taken r p.length s.dev = true →
      ((peerAt sender.addr.toNat s.dev).isNone = true ∨ payloadOk p = false →
        Answers (.smpInvalidDatagram x sender udp p) s fun t => t.dev.sent = s.dev.sent ∧ t.dev.flag NT_EVT_DGBAD = true ∧
          t.dev.get NT_CNT0_DGBADCNT = satInc NT_CNT0_DGBADCNT.width (s.dev.get NT_CNT0_DGBADCNT) 1 ∧ t.dev.nt = s.dev.nt) ∧
      (payloadOk p = true → fits = false → permitted sender.addr.toNat typ s.dev = true → supRuns 1 s.dev = true →
        keptOf r typ s.dev = none →
        Answers (.smpInvalidDatagram x sender udp p) s fun t => t.answered r typ stBADMSG []))

/-- R211, R351, R387 to R399, R415, R416: operation. A setpoint within its limits is staged in every assigned region and answered
OK, one outside is refused; a charge, a stop and a deblock that no rule refuses are answered with the period in which they act and
wait for it; a block command takes its regions to BLOCK and is answered with the period of its block; a charge command that a rule
refuses is answered with its reason and changes nothing. The readiness that a deblock checks rests on log entry 31 (DEDUCED), the
rest, where the spec is silent, on log entries 32 (DEDUCED), 33 (DEDUCED), 46 (DEDUCED). -/
def Obligations.SmpOperation : Prop :=
  ∀ (r : Req) (tk : Nat) (s : State), s.awake →
    (∀ (target : BitVec 8) (ramp : BitVec 16) (value ja : BitVec 32), target.toNat ≤ 3 →
        s.takes r tySETPT (.setpt r target ramp value ja tk) →
        let e := s.dev.at_ tk
        let inRange : Prop := refVal target.toNat (e.get (SV_REFMIN_MIN target.toNat)) ≤ refVal target.toNat value.toNat ∧
          refVal target.toNat value.toNat ≤ refVal target.toNat (e.get (SV_REFMAX_MAX target.toNat)) ∧ ramp.toNat ≤ e.get (SV_RAMPMAX_RAMP target.toNat)
        (inRange → (∀ g, g < 8 → s.dev.assigned g = true → (s.dev.region g).staged.length < 8) →
          Answers (.setpt r target ramp value ja tk) s fun t =>
            t.answered r tySETPT stOK (setptBody ((setptCase ja.toNat e).1 % 2 ^ 32) e) ∧
            ∀ g, g < 8 → s.dev.assigned g = true → (t.dev.region g).staged = (s.dev.region g).staged ++
              [⟨target.toNat, refVal target.toNat value.toNat, (setptCase ja.toNat e).1, ramp.toNat, (s.dev.region g).stagedOrd⟩]) ∧
        (¬ inRange → Answers (.setpt r target ramp value ja tk) s fun t =>
          t.answered r tySETPT stREFUSED (setptBody 0 e) ∧ t.dev.regions = s.dev.regions ∧ t.dev.flag FC_CHIP_WREF = true)) ∧
    (s.takes r tyCMD (.cmdCharge r tk) →
      let e := s.dev.at_ tk
      (chargeReason (s.dev.at_ tk) = 0 → Answers (.cmdCharge r tk) s fun t =>
        t.dev.su.chargeAt = some (s.dev.tm.jAbs + 2) ∧ t.dev.flag GL_MODE_PEND = true ∧
        t.answered r tyCMD stOK (cmdBody ((s.dev.tm.jAbs + 2) % 2 ^ 32) 0 0)) ∧
      (chargeReason (s.dev.at_ tk) ≠ 0 → Answers (.cmdCharge r tk) s fun t =>
        t.dev.su = s.dev.su ∧ t.answered r tyCMD stSTATE (cmdBody 0 0 (chargeReason (s.dev.at_ tk)))) ∧
      (stopReason (s.dev.at_ tk) = 0 → Answers (.cmdStop r tk) s fun t =>
        t.dev.su.stopAt = some (s.dev.tm.jAbs + 2) ∧ t.answered r tyCMD stOK (cmdBody ((s.dev.tm.jAbs + 2) % 2 ^ 32) 0 0)) ∧
      (∀ g : Fin 8, s.dev.converting = true → s.dev.su.stopAt = none → deblockReason (allReady e) e g.val = 0 →
        Answers (.cmdDeblock r (BitVec.ofNat 8 (2 ^ g.val)) tk) s fun t =>
          t.dev.su.deblock = s.dev.su.deblock ++
            [(if s.dev.rgState g.val = rgREADY then g.val else g.val + 8, s.dev.tm.jAbs + 1)] ∧
          t.answered r tyCMD stOK (cmdBody ((s.dev.tm.jAbs + 1) % 2 ^ 32) (2 ^ g.val) 0)) ∧
      (∀ g : Fin 8, s.dev.converting = true → s.dev.su.stopAt = none → deblockReason (allReady e) e g.val ≠ 0 →
        Answers (.cmdDeblock r (BitVec.ofNat 8 (2 ^ g.val)) tk) s fun t => t.dev.su = s.dev.su ∧ t.answered r tyCMD stSTATE
          (cmdBody ((s.dev.tm.jAbs + 1) % 2 ^ 32) 0 (deblockReason (allReady e) e g.val))) ∧
      (∀ g : Fin 8, s.dev.assigned g.val = true → s.dev.rgState g.val = rgRUN →
        Answers (.cmdBlock r (BitVec.ofNat 8 (2 ^ g.val)) tk) s fun t => t.dev.rgState g.val = rgBLOCK ∧
          t.answered r tyCMD stOK (cmdBody (ovrT0 (advsOf [g.val] e) e.nowTick e % 2 ^ 32) (2 ^ g.val) 0) ∧
          ∀ h, h < 8 → h ≠ g.val → t.dev.rgState h = s.dev.rgState h))

/-- R417 to R421: telemetry, events and status. A read waits for the next boundary; a subscription that the rate allows is kept with
its owner and answered, and its owner ends it; a delivery that is due leaves or is skipped; up to 32 events leave in queue order;
status leaves with the next sequence number. The DATA message of a delivery of one part and the EVENT message are stated for a
device with one port to send on and one destination on its subnet.
Where the spec is silent it rests on log entry 70 (DEDUCED). -/
def Obligations.SmpTelemetry : Prop :=
  ∀ (r : Req) (s : State), s.awake →
    (∀ rs, s.takes r tyTREAD (.tread r rs) → rangesFit (rangesOf rs) = true →
      Answers (.tread r rs) s fun t => t.dev.nt.treads = s.dev.nt.treads ++ [(r, rangesOf rs)]) ∧
    (∀ (i : BitVec 8) (intv : BitVec 16) rs (tk : Nat), s.takes r tyTSUB (.tsub r i intv rs tk) → i.toNat ≤ 31 → intv ≠ 0 → intv.toNat ≤ 60000 →
      rangesFit (rangesOf rs) = true → s.dev.nt.subs = [] → rateOk [(pointsIn (rangesOf rs), intv.toNat)] = true →
      Answers (.tsub r i intv rs tk) s fun t => t.dev.nt.subs = [⟨i.toNat, r.port.val, r.addr, r.udp.toNat, intv.toNat,
          rangesOf rs, (s.dev.at_ tk).nowNs, 1, none⟩] ∧ t.answered r tyTSUB stOK []) ∧
    (∀ (i : BitVec 8) x, s.takes r tyTUNSUB (.tunsub r i) → i.toNat ≤ 31 → s.dev.nt.subs = [x] → x.id = i.toNat → ownsSub r x = true →
      Answers (.tunsub r i) s fun t => t.dev.nt.subs = [] ∧ t.answered r tyTUNSUB stOK []) ∧
    let message (typ : Nat) (body : List Byte) := smpMsg typ 0 (if s.dev.flag NT_SMPCFG_DUP then 2 else 0) 0 s.dev.nt.dseq body
    (∀ (i : Fin 32) (inTime : Bool) x j b vs, s.dev.nt.subs = [x] → x.id = i.val → x.due = some (j, b, vs) →
      Answers (.subscriptionDelivery i inTime) s fun t => t.dev.nt.subs = [{ x with due := none }] ∧
        (inTime = false ∨ supRuns 1 s.dev = false ∨ supRuns 2 s.dev = false → t.dev.sent = s.dev.sent) ∧
        (∀ k, inTime = true → supRuns 1 s.dev = true → supRuns 2 s.dev = true → outPorts s.dev = [k] →
          onSubnet k x.addr.toNat s.dev = true → 1 ≤ vs.length → vs.length ≤ 256 →
          let m := message tyTDELIV (delivPart i.val 0 1 j b vs)
          t.dev.sent.head? = some (.smp k (udpHdr k x.addr x.udp m s.dev) x.addr x.udp m) ∧
            t.dev.nt.dseq = (s.dev.nt.dseq + 1) % 2 ^ 32)) ∧
    (s.dev.fc.evq ≠ [] → s.dev.mode ≠ modeLOAD → eventsLeave s.dev = true → s.dev.fc.evLost = 0 →
      Answers .eventMessageSend s fun t => t.dev.fc.evq = s.dev.fc.evq.drop 32 ∧
        t.dev.nt.dseq = (s.dev.nt.dseq + 1) % 2 ^ 32 ∧
        (∀ k a udp, outPorts s.dev = [k] → evtPeers s.dev = [(a, udp)] → onSubnet k a.toNat s.dev = true →
          let es := s.dev.fc.evq.take 32
          let m := message tyEVENT (bytesBE 1 es.length ++ bytesBE 3 0 ++ es.flatMap eventBytes)
          t.dev.sent.head? = some (.smp k (udpHdr k a udp m s.dev) a udp m))) ∧
    (s.dev.live = true → s.dev.bit SV_STAT_RUN 1 = true → s.dev.bit SV_STAT_RUN 2 = true → evtWay s.dev = true →
      Answers .statusSend s fun t => t.dev.nt.dseq = (s.dev.nt.dseq + 1) % 2 ^ 32 ∧
        s.dev.sent.length < t.dev.sent.length)

/-- R422 to R424: remote maintenance. MOPEN opens a session that MAUTH makes authenticated; a request without a session is turned
away, and a signed one whose signature is not the owner's with AUTHFAIL; MREAD with a new counter answers the words read, MWRITE the
number of words written; MCLOSE and the timeout end the session, the timeout once SUP1 runs.
Where the spec is silent it rests on log entries 16 (DESIGN CHOICE), 22 (PRESUMED). -/
def Obligations.SmpMaintenance : Prop :=
  ∀ (r : Req) (s : State), s.awake →
    (∀ chal, s.takes r tyMOPEN (.mopen r chal) → s.dev.flag NT_MNTCFG_MEN = true → s.dev.nt.sess = none →
      Answers (.mopen r chal) s fun t => ∃ sid,
        t.dev.nt.sess = some ⟨sid, chal, r.addr, r.udp.toNat, false, none, 0⟩ ∧ t.dev.get NT_STAT_SESS = 1 ∧
        t.answered r tyMOPEN stOK (bytesBE 4 sid ++ bytesBE 16 chal.toNat)) ∧
    (∀ (x : Session) (au : Auth), s.dev.nt.sess = some x → x.sid = au.sid.toNat → x.addr = r.addr → x.udp = r.udp.toNat →
      cntOk x au.mcnt.toNat = true →
      (s.takes r tyMAUTH (.mauth r au) → Answers (.mauth r au) s fun t =>
        if sigOk x r tyMAUTH (authBytes au) au s.dev = true then
          t.dev.nt.sess = some { x with auth := true, lastCnt := some au.mcnt.toNat } ∧ t.dev.get NT_STAT_SESS = 2 ∧
            t.answered r tyMAUTH stOK []
        else t.answered r tyMAUTH stAUTHFAIL []) ∧
      (x.auth = true →
        (∀ addr nw, s.takes r tyMREAD (.mread r au.sid au.mcnt addr nw) → addr.toNat % 4 = 0 → nw ≠ 0 → nw.toNat ≤ 256 →
          addr.toNat + 4 * nw.toNat ≤ 2 ^ 32 → Answers (.mread r au.sid au.mcnt addr nw) s fun t =>
            t.answered r tyMREAD stOK (wordBytes (readWords .smpm nw.toNat addr.toNat
              { s with dev := cntTake au.mcnt.toNat (keep r tyMREAD s.dev) }).1)) ∧
        (∀ addr words, s.takes r tyMWRITE (.mwrite r au addr words) → addr.toNat % 4 = 0 → words ≠ [] → words.length ≤ 64 →
          addr.toNat + 4 * words.length ≤ 2 ^ 32 → Answers (.mwrite r au addr words) s fun t =>
            let done := (writeRegs .smpm addr.toNat words (cntTake au.mcnt.toNat (keep r tyMWRITE s.dev))).1
            if sigOk x r tyMWRITE (authBytes au ++ bytesBE 4 addr.toNat ++ bytesBE 2 words.length ++ bytesBE 2 0 ++
                wordBytes words) au s.dev = true then
              t.answered r tyMWRITE (if done = words.length then stOK else stREFUSED) (bytesBE 2 done)
            else t.answered r tyMWRITE stAUTHFAIL []) ∧
        (s.takes r tyMCLOSE (.mclose r au) → Answers (.mclose r au) s fun t =>
          if sigOk x r tyMCLOSE (authBytes au) au s.dev = true then
            t.dev.nt.sess = none ∧ t.dev.get NT_STAT_SESS = 0 ∧ t.answered r tyMCLOSE stOK []
          else t.answered r tyMCLOSE stAUTHFAIL []))) ∧
    (∀ sid mcnt addr nw, s.takes r tyMREAD (.mread r sid mcnt addr nw) → s.dev.nt.sess = none → addr.toNat % 4 = 0 → nw ≠ 0 → nw.toNat ≤ 256 →
      addr.toNat + 4 * nw.toNat ≤ 2 ^ 32 →
      Answers (.mread r sid mcnt addr nw) s fun t => t.answered r tyMREAD stNOSESSION []) ∧
    (s.dev.nt.sess.isSome = true →
      (supRuns 1 s.dev = true → Answers .sessionTimeout s fun t => t.dev.nt.sess = none ∧ t.dev.get NT_STAT_SESS = 0) ∧
      (supRuns 1 s.dev = false → Answers .sessionTimeout s fun t => t.dev.nt.sess = s.dev.nt.sess ∧ t.dev.nt.sessDue = true))

/-- R378, R425, R426: image transfer. IOPEN of an authenticated session opens a transfer into the bank that the device did not start
from, whose image area is erased; the bank erased, data at the next offset is taken; each page programmed is in the bank as it reads
back, moves the progress and the last one starts the verification; the verification ends in a verdict on what the bank reads, and an
image that fails loses its first sector; while SUP1 does not run the transfer stands. Where the spec is silent it rests on log entries
71 (DEDUCED), 99 (DEDUCED). -/
def Obligations.ImageTransfer : Prop :=
  ∀ (r : Req) (s : State), s.awake →
    (∀ (x : Session) (au : Auth), s.dev.nt.sess = some x → x.sid = au.sid.toNat → x.addr = r.addr → x.udp = r.udp.toNat →
      x.auth = true → cntOk x au.mcnt.toNat = true →
      (∀ density, s.takes r tyIOPEN (.iopen r au true density) → s.dev.flag NT_MNTCFG_IMGEN = true → s.dev.nt.xfer = none →
        bankOk ⟨true, density, []⟩ = true → Answers (.iopen r au true density) s fun t =>
          if sigOk x r tyIOPEN (authBytes au) au s.dev = true then
            t.dev.get GL_IMGWR_STATE = 1 ∧ (t.dev.nt.xfer.map fun y => y.bankB) = some (!s.dev.flag GL_IMGSTAT_BANK) ∧
              t.flash = imgSet s.flash (!s.dev.flag GL_IMGSTAT_BANK) []
          else t.answered r tyIOPEN stAUTHFAIL [] ∧ t.dev.nt.xfer = none) ∧
      (∀ (y : Xfer) (data : List Byte),
        s.takes r tyIDATA (.idata r au.sid au.mcnt (BitVec.ofNat 32 y.data.length) data) → s.dev.nt.xfer = some y → s.dev.get GL_IMGWR_STATE = 2 →
        y.hdrOk = true → data ≠ [] → data.length ≤ 1024 → data.length % 4 = 0 → y.data.length + data.length ≤ y.imgLen →
        y.data.length < 2 ^ 32 →
        Answers (.idata r au.sid au.mcnt (BitVec.ofNat 32 y.data.length) data) s fun t =>
          (t.dev.nt.xfer.map fun z => z.data) = some (y.data ++ data))) ∧
    (∀ y, s.dev.nt.xfer = some y →
      (s.dev.get GL_IMGWR_STATE = 1 → Answers .imageEraseDone s fun t =>
        t.dev.get GL_IMGWR_STATE = (if supRuns 1 s.dev = true then 2 else 1)) ∧
      (∀ back, s.dev.get GL_IMGWR_STATE = 2 → y.prog < y.data.length → y.hdrOk = true → y.late = false →
        let p := min y.data.length ((y.prog / 256 + 1) * 256)
        Answers (.pageProgramDone ⟨y.bankB, back⟩ false) s fun t =>
          t.flash = imgSet s.flash y.bankB
            (imgPut (imgOf s.flash y.bankB) y.prog (back.getD (slice y.data y.prog (p - y.prog)))) ∧
          (supRuns 1 s.dev = true → (t.dev.nt.xfer.map fun z => z.prog) = some p ∧
            t.dev.get GL_IMGWR_STATE = if y.imgLen ≤ p then 3 else 2) ∧
          (supRuns 1 s.dev = false → (t.dev.nt.xfer.map fun z => z.prog) = some y.prog ∧ t.dev.get GL_IMGWR_STATE = 2)) ∧
      (s.dev.get GL_IMGWR_STATE = 3 → supRuns 1 s.dev = true →
        let b : Bank := ⟨y.sfdpOk, y.density, imgOf s.flash y.bankB⟩
        Answers .imageVerifyDone s fun t => t.dev.nt.xfer = none ∧
          if bankCause b = 0 ∧ (bodyCheck s.dev.su.keys b s.dev).1 = 0 then t.dev.get GL_IMGWR_STATE = 4 ∧ t.flash = s.flash
          else t.dev.get GL_IMGWR_STATE = 5 ∧ t.flash = imgSet s.flash y.bankB (imgSector (imgOf s.flash y.bankB))))

/-- The frame of the network. Links, the Internet layers, telemetry reads and their end, the messages the device originates, and the
opening, authentication and end of a session change no register but those of the network block, GL_IMGWR of a transfer that ends
with its session, and those any command may change; no memory, fuse, flash or VBAT; and no part of the device beyond the network,
what has been sent, and the collection of faults and the recorder that an event reaches. -/
def Obligations.NetworkFrame : Prop :=
  ∀ (c : Instr) (s t : State), s.awake →
    ((∃ x, c = .netLinkUp x) ∨ (∃ x, c = .netLinkDown x) ∨ (∃ x e a m i, c = .arpRequestRx x e a m i) ∨
      (∃ x e m i, c = .arpReplyRx x e m i) ∨ (∃ x i, c = .arpCacheExpiry x i) ∨
      (∃ x e a m i, c = .neighbourSolicitationRx x e a m i) ∨ (∃ x e m i, c = .neighbourAdvertisementRx x e m i) ∨
      (∃ x e v a b d, c = .icmpEchoRequest x e v a b d) ∨ (∃ r p, c = .tread r p) ∨ (∃ r i, c = .tunsub r i) ∨
      (∃ i b, c = .subscriptionDelivery i b) ∨ c = .eventMessageSend ∨ c = .statusSend ∨ (∃ r k, c = .mopen r k) ∨
      (∃ r a, c = .mauth r a) ∨ (∃ r a, c = .mclose r a) ∨ c = .sessionTimeout) →
    exec c s = .next t →
    s.keepsRest t ∧ s.dev.keepsWords (fun a => (0x6000 ≤ a ∧ a < 0x6100) ∨ a = GL_IMGWR ∨ sideRegs a) t.dev ∧
    (t.dev.lanes, t.dev.quires, t.dev.cells, t.dev.regions, t.dev.ains, t.dev.groups, t.dev.adq, t.dev.telem, t.dev.snaps, t.dev.tm,
        t.dev.sf, t.dev.fb, t.dev.tw, t.dev.su, t.dev.jtag) =
      (s.dev.lanes, s.dev.quires, s.dev.cells, s.dev.regions, s.dev.ains, s.dev.groups, s.dev.adq, s.dev.telem, s.dev.snaps, s.dev.tm,
        s.dev.sf, s.dev.fb, s.dev.tw, s.dev.su, s.dev.jtag)

/-- R439 to R443: the maintenance port. A whole READ frame that passes the checks of R441 is answered with the words as they read, in
every mode; a WRITE with the number of words written; a request that fails a check with its status, and it
changes no register but those of the port; a frame that is cut off is not answered; in the first millisecond after reset release no
frame is. Where the spec is silent it rests on log entries 74 (DEDUCED), 100 (DESIGN CHOICE). -/
def Obligations.MaintenancePort : Prop :=
  ∀ (f : List Byte) (s : State), s.dev.released = true → s.dev.fc.stopReq = false → f.take 1 ≠ [0x9F] →
    (inFirstMs s.dev = true → ∀ c, (c = .mpRead f ∨ c = .mpWrite f ∨ c = .mpIdread) → Answers c s fun t =>
      t.dev.sent = s.dev.sent ∧ s.dev.keepsWords sideRegs t.dev ∧ s.keepsRest t) ∧
    (mpWhole f = true → inFirstMs s.dev = false →
      (mpCheck f (mpCount s).dev = 0 → mpCmd f = 0x0B → Answers (.mpRead f) s fun t => t.dev.sent.head? =
        some (.mp (mpReadAnswer (readWords .mp (mpNw f) (mpAddr f) (mpCount s)).1))) ∧
      (mpCheck f (mpCount s).dev = 0 → mpCmd f = 0x02 → Answers (.mpWrite f) s fun t => t.dev.sent.head? =
        some (.mp (mpWriteAnswer (writeRegs .mp (mpAddr f) (wordsBE (mpNw f) (mpData f)) (mpCount s).dev).1 (mpNw f)))) ∧
      (mpCheck f (mpCount s).dev ≠ 0 → (exec (.mpWrite f) s = exec (.mpRead f) s) ∧ Answers (.mpRead f) s fun t =>
        t.dev.sent = .mp (mpReject (mpCheck f (mpCount s).dev)) :: s.dev.sent ∧
        s.dev.keepsWords (fun a => a = GL_MPCNT ∨ a = GL_MPSTAT ∨ sideRegs a) t.dev)) ∧
    (mpWhole f = false → Answers (.mpRead f) s fun t => t.dev.sent = s.dev.sent) ∧
    (Answers .mpFrameAbort s fun t => t.dev.sent = s.dev.sent ∧
      s.dev.keepsWords sideRegs t.dev ∧ s.keepsRest t)

/-- R442, R448: what identifies the device. IDREAD, whatever follows its command byte, is answered with the four bytes of GL_ID, most
significant byte first, and nothing else; IDCODE and GL_ID read 0x1819_25A7, which is version 0x1, part 0x8192, manufacturer 0x2D3
and bit 0 set. The port answers once the first millisecond after reset release is over, and IDCODE is scanned while JTAG_TRST_N is
high; how many commands come before that rests on log entries 100, 101 (DESIGN CHOICE). -/
def Obligations.IdentityReads : Prop :=
  (∀ (f : List Byte) (s : State), s.dev.released = true → s.dev.fc.stopReq = false →
    (inFirstMs s.dev = false → Answers (.mpRead (0x9F :: f)) s fun t => t.dev.sent.head? = some (.mp [0x18, 0x19, 0x25, 0xA7])) ∧
    (inFirstMs s.dev = false → Answers .mpIdread s fun t => t.dev.sent.head? = some (.mp [0x18, 0x19, 0x25, 0xA7]) ∧
      t.dev.get GL_MPCNT_FRAMES = (s.dev.get GL_MPCNT_FRAMES + 1) % 2 ^ GL_MPCNT_FRAMES.width) ∧
    (s.dev.jtag.held = 0 → Answers .jtagIdcode s fun t => t.dev.sent.head? = some (.jtag 32 0x181925A7) ∧ t.dev.jtag.ir = 0x02) ∧
    peekWord GL_ID s = 0x181925A7) ∧
  (0x181925A7#32).extractLsb' 28 4 = 0x1#4 ∧ (0x181925A7#32).extractLsb' 12 16 = 0x8192#16 ∧
  (0x181925A7#32).extractLsb' 1 11 = 0x2D3#11 ∧ (0x181925A7#32).extractLsb' 0 1 = 1#1

/-- R446, R447, Table 18.9: the JTAG port. TRST selects IDCODE, and while it is low a scan changes nothing; EXTEST, CLAMP and HIGHZ
act in STOP and are refused, as BYPASS, in every other mode; EXTEST and SAMPLE/PRELOAD capture the balls, and the control cells as
they stand, and load the boundary register, whose cells follow the ball groups of Table 19.7, each output and bidirectional ball
with a control cell after its own; an opcode that is not assigned is BYPASS, and no opcode of another instruction is given to it.
None of them changes a register but FC_TRIPSTAT or anything beyond the device.
Where the spec is silent it rests on log entries 24 (PRESUMED), 101 (DESIGN CHOICE). -/
def Obligations.JtagPort : Prop :=
  ∀ (s : State), s.dev.released = true → s.dev.fc.stopReq = false →
    (Answers .jtagTrst s fun t => t.dev.jtag.ir = 0x02 ∧ t.dev.jtag.refused = false ∧ t.dev.jtag.drive = 0) ∧
    (s.dev.jtag.held ≠ 0 → ∀ c : Instr, ((∃ x, c = .jtagExtest x) ∨ (∃ x b, c = .jtagSamplePreload x b) ∨ c = .jtagIdcode ∨
        c = .jtagClamp ∨ c = .jtagHighz ∨ (∃ op, c = .jtagBypass op ∧ jtagAssigned op.toNat = false)) → Answers c s fun t =>
      t.dev.jtag = { s.dev.jtag with held := s.dev.jtag.held - 1 } ∧ t.dev.sent = s.dev.sent) ∧
    boundaryCells.length = 71 ∧
    (∀ i b, boundaryCells[i]? = some b → b.control = false → b.kind.driven = true →
      boundaryCells[i + 1]? = some { b with control := true } ∧ controlCells.getLsbD (i + 1) = true ∧ controlCells.getLsbD i = false) ∧
    (s.dev.jtag.held = 0 → ∀ balls b : BitVec 71,
      (s.dev.mode = modeSTOP → Answers (.jtagExtest ⟨balls, b⟩) s fun t => t.dev.jtag.ir = 0x00 ∧ t.dev.jtag.boundary = b ∧
        t.dev.jtag.drive = 1 ∧ t.dev.jtag.refused = false ∧
        t.dev.sent.head? = some (.jtag 71 (jtagCapture balls s.dev).toNat) ∧
        ∀ i x, boundaryCells[i]? = some x → x.control = false → x.kind.driven = true →
          jtagDrives i t.dev = if b.getLsbD (i + 1) then .level (b.getLsbD i) else .highZ) ∧
      (s.dev.mode ≠ modeSTOP → Answers (.jtagExtest ⟨balls, b⟩) s fun t => t.dev.jtag.ir = 0xFF ∧
        t.dev.jtag.boundary = s.dev.jtag.boundary ∧ t.dev.jtag.drive = 0 ∧ t.dev.jtag.refused = true) ∧
      (Answers (.jtagSamplePreload balls b) s fun t => t.dev.jtag.ir = 0x01 ∧ t.dev.jtag.boundary = b ∧
        t.dev.jtag.drive = 0 ∧ t.dev.sent.head? = some (.jtag 71 (jtagCapture balls s.dev).toNat))) ∧
    (s.dev.jtag.held = 0 → s.dev.mode = modeSTOP → (Answers .jtagClamp s fun t => t.dev.jtag.ir = 0x03 ∧ t.dev.jtag.drive = 1) ∧
      (Answers .jtagHighz s fun t => t.dev.jtag.ir = 0x04 ∧ t.dev.jtag.drive = 2)) ∧
    (s.dev.jtag.held = 0 → s.dev.mode ≠ modeSTOP → (Answers .jtagClamp s fun t => t.dev.jtag.ir = 0xFF ∧ t.dev.jtag.refused = true) ∧
      (Answers .jtagHighz s fun t => t.dev.jtag.ir = 0xFF ∧ t.dev.jtag.refused = true)) ∧
    (∀ op, (s.dev.jtag.held = 0 → jtagAssigned op.toNat = false → Answers (.jtagBypass op) s fun t => t.dev.jtag.ir = 0xFF ∧
        t.dev.sent.head? = some (.jtag 1 0)) ∧
      (jtagAssigned op.toNat = true → exec (.jtagBypass op) s = .fault .illFormed)) ∧
    (∀ (c : Instr) (t : State), (c = .jtagTrst ∨ (∃ b, c = .jtagExtest b) ∨ (∃ x b, c = .jtagSamplePreload x b) ∨ c = .jtagIdcode ∨
        c = .jtagClamp ∨ c = .jtagHighz ∨ (∃ op, c = .jtagBypass op)) → exec c s = .next t →
      s.dev.keepsWords (fun a => a = FC_TRIPSTAT) t.dev ∧ s.keepsRest t)

/-- R449: the owner key slots. KEYRD captures them as they stand; KEYPROG starts on a slot that has not been programmed and KEYREV
on a slot 0 that may be revoked, both with their code, in IDLE or STOP and one at a time, and are refused with RES = 2 otherwise;
the operation that completes leaves what the fuses read back. While JTAG_TRST_N is low no scan reaches them.
Where the spec is silent it rests on log entries 75 (DEDUCED), 101 (DESIGN CHOICE). -/
def Obligations.KeySlots : Prop :=
  ∀ (s : State), s.dev.released = true → s.dev.fc.stopReq = false →
    (s.dev.jtag.held ≠ 0 → ∀ c, (c = .jtagKeyrd ∨ (∃ h x y, c = .jtagKeyprog h x y) ∨ ∃ x, c = .jtagKeyrev x) →
      Answers c s fun t => t.fuse = s.fuse ∧ t.dev.sent = s.dev.sent) ∧
    (s.dev.jtag.held = 0 → Answers .jtagKeyrd s fun t => t.dev.sent.head? = some (.jtag 520 (keyWord s.fuse)) ∧ t.fuse = s.fuse) ∧
    (s.dev.jtag.held = 0 → ∀ (h : BitVec 256) (slot : Bool) (conf : BitVec 7),
      let ok : Prop := conf = 0x5A ∧ (if slot then s.fuse.prog1 else s.fuse.prog0) = false ∧ s.fuse.busy = 0 ∧
        (s.dev.mode = modeIDLE ∨ s.dev.mode = modeSTOP)
      (ok → Answers (.jtagKeyprog h slot conf) s fun t => t.fuse = { s.fuse with busy := if slot then 2 else 1, want := h }) ∧
      (¬ ok → Answers (.jtagKeyprog h slot conf) s fun t => t.fuse = { s.fuse with res := 2 })) ∧
    (s.dev.jtag.held = 0 → ∀ conf : BitVec 8,
      let ok : Prop := conf = 0xC3 ∧ s.fuse.prog1 = true ∧ s.fuse.rev0 = false ∧ s.fuse.busy = 0 ∧
        (s.dev.mode = modeIDLE ∨ s.dev.mode = modeSTOP)
      (ok → Answers (.jtagKeyrev conf) s fun t => t.fuse = { s.fuse with busy := 3 }) ∧
      (¬ ok → Answers (.jtagKeyrev conf) s fun t => t.fuse = { s.fuse with res := 2 })) ∧
    (∀ rb : BitVec 256,
      (s.fuse.busy = 1 → Answers (.keyFuseDone rb) s fun t => t.fuse.hash0 = rb ∧ t.fuse.prog0 = true ∧ t.fuse.busy = 0 ∧
        t.fuse.res = (if rb = s.fuse.want then 1 else 3) ∧ t.dev.flag GL_KEYSTAT_PROG0 = true) ∧
      (s.fuse.busy = 2 → Answers (.keyFuseDone rb) s fun t => t.fuse.hash1 = rb ∧ t.fuse.prog1 = true ∧ t.fuse.busy = 0 ∧
        t.fuse.res = (if rb = s.fuse.want then 1 else 3) ∧ t.dev.flag GL_KEYSTAT_PROG1 = true) ∧
      (s.fuse.busy = 3 → Answers (.keyFuseDone rb) s fun t => t.fuse.rev0 = true ∧ t.fuse.busy = 0 ∧
        t.dev.flag GL_KEYSTAT_REV0 = true))

/-- R449: fuses are programmed once. Whatever the command, from any state whose operation in progress is one that may run, a
programmed slot keeps its hash and stays programmed, and a revoked slot stays revoked.
Where the spec is silent it rests on log entry 10 (DESIGN CHOICE). -/
def Obligations.FusesProgramOnce : Prop :=
  ∀ (c : Instr) (s t : State), s.fuse.wf → exec c s = .next t →
    (s.fuse.prog0 = true → t.fuse.prog0 = true ∧ t.fuse.hash0 = s.fuse.hash0) ∧
    (s.fuse.prog1 = true → t.fuse.prog1 = true ∧ t.fuse.hash1 = s.fuse.hash1) ∧
    (s.fuse.rev0 = true → t.fuse.rev0 = true) ∧ t.fuse.wf

/-- R25: addresses that the register map and the tables do not name. Such an address holds 0x0000_0000, a read by an origin that
keeps no snapshot of it gives 0, and a write to it is refused from every origin: nothing but the registers that collect the refusal
changes, and the refusal is collected.
Where the spec is silent it rests on log entry 8 (DEDUCED). -/
def Obligations.ReservedAddresses : Prop :=
  ∀ (o : Origin) (a : BitVec 32) (w : Word) (s : State), reservedAddr a.toNat →
    peekWord a.toNat s = 0 ∧
    (smGet (fun _ => []) s.dev.snaps (snapKey o a.toNat) = [] → (readWord o a.toNat s).1 = 0) ∧
    (s.awake → Answers (.registerWrite o a w) s fun t => t.dev.collected o ∧
      s.dev.keepsWords (fun x => refuseRegs x ∨ sideRegs x) t.dev ∧ s.keepsRest t)

/-- R28, R350, R434, R437: register writes. A write of a register that has a row of its own (all of them but the end of a debug
halt, whose row also moves time on) does what that row does, unless it has a reserved bit or writes 1 to an SC field that reads 1; a
notice of the servo clears by its 1 from an origin that may clear flags; a write in LOAD or in STOP (which FC_INJCNT counts where it
is an injection request), a write of a register without a writable field and one from an origin that may not write its group change
nothing but the registers that collect the refusal.
Where the spec is silent it rests on log entries 8 (DEDUCED), 25 (DEDUCED). -/
def Obligations.RegisterWrites : Prop :=
  ∀ (o : Origin) (s : State),
    (∀ (a : Nat) (w : Word) (c : Instr),
      (∀ r, regAt a = some r → w &&& r.mask (fun x => x == .res) = 0 ∧
        (w &&& r.mask (fun x => x == .sc) &&& regWord a s.dev = 0 ∨ a = FC_INJ ∨ ∃ k : Fin 4, a = AD_INJ k.val)) →
      (a = TM_INCR ∧ c = .tmIncrWrite o w) ∨ (a = TM_ADJ ∧ c = .tmAdjWrite o w) ∨ (a = TM_JUMPLO ∧ c = .jumpRequest o w) ∨
        (a = PL_TCTL ∧ w = 1 ∧ c = .pllUpdate o .t) ∨ (a = PL_SCTL ∧ w = 1 ∧ c = .pllUpdate o .s) ∨
        (∃ k : BitVec 8, a = PL_SPHS ∧ w = k.setWidth 32 ∧ c = .pllPhaseSteps o k) ∨
        (a = DR_CTL ∧ ((w = 1 ∧ c = .drArm o) ∨ (w = 2 ∧ c = .drForce o) ∨ (w = 4 ∧ c = .drDisarm o) ∨
          ∃ m : BitVec 16, w = BitVec.ofNat 32 (m.toNat * 2 ^ 16) ∧ c = .drRel o m)) ∨
        (∃ x y i, a = FC_INJ ∧ w = injWord x y i ∧ c = .faultInject o x y i) ∨
        (∃ n : Fin 8192, (a = CE_CTL n.val ∧ ((w = 1 ∧ c = .ceRelease o n) ∨ (w = 2 ∧ c = .ceForceBypass o n))) ∨
          ∃ x y i, a = CE_DIAGREQ n.val ∧ w = diagWord x y i ∧ c = .diagGo o n x y i) ∨
        (∃ g : Fin 8, a = RG_MODCTL g.val ∧ w = 1 ∧ c = .modHalt o g) ∨
        (∃ (k : Fin 4) (i : BitVec 3), a = AD_INJ k.val ∧ w = BitVec.ofNat 32 (i.toNat + 8) ∧ c = .adInjGo o k i) ∨
        (∃ l : Fin 130, (a = LN_CTL l.val ∧
            let on (b : Nat) := BitVec.ofNat 32 (setBit (lnCtl l.val s.dev) b)
            let off (b : Nat) := BitVec.ofNat 32 (clrBit (lnCtl l.val s.dev) b)
            (w = on 2 ∧ c = .laneRetrain o l) ∨ (w = on 3 ∧ c = .laneReacq o l) ∨ (w = on 0 ∧ c = .laneTxSleep o l) ∨
              (w = off 0 ∧ c = .laneTxWake o l) ∨ (w = on 1 ∧ c = .laneRxSleep o l) ∨ (w = off 1 ∧ c = .laneRxWake o l)) ∨
          (a = LN_PRBSCTL l.val ∧
            let p := prbsCtl l.val s.dev
            (∃ k : BitVec 3, (w = BitVec.ofNat 32 (setBit (p / 8 * 8 + k.toNat) 3) ∧ c = .prbsGenEnable o l k) ∨
              (w = BitVec.ofNat 32 (setBit (p / 8 * 8 + k.toNat) 4) ∧ c = .prbsChkEnable o l k)) ∨
            (w = BitVec.ofNat 32 (setBit p 5) ∧ c = .prbsInjectOne o l) ∨
            (∃ m : BitVec 4, w = BitVec.ofNat 32 (p % 64 + m.toNat * 64) ∧ c = .prbsInjectRate o l m))) →
      exec (.registerWrite o (BitVec.ofNat 32 a) w) s = exec c s) ∧
    (s.dev.released = true → (s.dev.mode = modeLOAD ∨ s.dev.mode = modeSTOP) → s.dev.fc.stopReq = false → ∀ (a : BitVec 32) (w : Word),
      Answers (.registerWrite o a w) s fun t => t.dev.collected o ∧ s.dev.keepsWords
        (fun x => refuseRegs x ∨ sideRegs x ∨ (a.toNat = FC_INJ ∧ x = FC_INJCNT)) t.dev ∧ s.keepsRest t) ∧
    (s.awake →
      (s.dev.mode ≠ modeLOAD → s.dev.permits o .flag = true →
        Answers (.registerWrite o (BitVec.ofNat 32 TM_EVT) 4) s fun t => t.dev.flag TM_EVT_HOLD = false) ∧
      (∀ (a : BitVec 32) (w : Word), (∃ r, regAt a.toNat = some r ∧
          r.mask (fun x => x == .rw || x == .w1c || x == .wo || x == .sc) = 0) →
        Answers (.registerWrite o a w) s fun t => t.dev.collected o ∧
          s.dev.keepsWords (fun x => refuseRegs x ∨ sideRegs x) t.dev ∧ s.keepsRest t) ∧
      (∀ w : Word, s.dev.permits o .time = false → Answers (.registerWrite o (BitVec.ofNat 32 TM_ADJ) w) s fun t =>
        t.dev.collected o ∧ s.dev.keepsWords (fun x => refuseRegs x ∨ sideRegs x) t.dev ∧ s.keepsRest t))
end

