-- ==== Sys2Proof/Laws/Maps.lean ====
section
/-! SUPPORT. Sparse maps: reading after setting a key, and that setting a key keeps the canonical form. -/

namespace Sys2Proof.Machine

variable {α : Type}

/-- What an erased map lists. -/
theorem smLook_smErase (m : List (Nat × α)) (k x : Nat) :
    smLook (smErase m k) x = if k = x then none else smLook m x := by
  induction m with
  | nil => simp [smErase, smLook]
  | cons p m ih =>
    obtain ⟨a, v⟩ := p
    simp only [smErase, smLook]
    by_cases h : a = k
    · subst h; by_cases hx : a = x <;> simp_all
    · by_cases hx : a = x
      · subst hx; simp_all [smLook, Ne.symm h]
      · simp_all [smLook]

/-- What an extended map lists. -/
theorem smLook_smInsert (m : List (Nat × α)) (k : Nat) (v : α) (x : Nat) :
    smLook (smInsert m k v) x = if k = x then some v else smLook m x := by
  induction m with
  | nil => simp [smInsert, smLook]
  | cons p m ih =>
    obtain ⟨a, w⟩ := p
    simp only [smInsert]
    split
    · simp [smLook]
    · split
      · rename_i h; subst h; simp only [smLook]; split <;> simp_all
      · simp only [smLook, ih]; split <;> simp_all

variable [DecidableEq α]

/-- Reading a key after a key has been set. -/
theorem smGet_smSet (dflt : Nat → α) (m : List (Nat × α)) (k : Nat) (v : α) (x : Nat) :
    smGet dflt (smSet dflt m k v) x = if k = x then v else smGet dflt m x := by
  unfold smSet smGet
  by_cases hx : k = x
  · subst hx; by_cases h : v = dflt k <;> simp [smLook_smErase, smLook_smInsert, h]
  · by_cases h : v = dflt k <;> simp [smLook_smErase, smLook_smInsert, h, hx]

/-- Order above a bound is order without one. -/
theorem smOrdered_weaken (dflt : Nat → α) (m : List (Nat × α)) (lo : Nat) (h : smOrdered dflt (some lo) m = true) :
    smOrdered dflt none m = true := by
  cases m with
  | nil => rfl
  | cons p m => obtain ⟨a, v⟩ := p; simp_all [smOrdered]

/-- Order above a bound is order above a lower bound. -/
theorem smOrdered_lower (dflt : Nat → α) (m : List (Nat × α)) (lo lo' : Nat) (hl : lo' ≤ lo)
    (h : smOrdered dflt (some lo) m = true) : smOrdered dflt (some lo') m = true := by
  cases m with
  | nil => rfl
  | cons p m => obtain ⟨a, v⟩ := p; simp_all [smOrdered]; omega

/-- Erasing a key keeps the order. -/
theorem smErase_ordered (dflt : Nat → α) (k : Nat) (m : List (Nat × α)) (lo : Nat)
    (h : smOrdered dflt (some lo) m = true) : smOrdered dflt (some lo) (smErase m k) = true := by
  induction m generalizing lo with
  | nil => rfl
  | cons p m ih =>
    obtain ⟨a, v⟩ := p
    simp only [smOrdered, Bool.and_eq_true, decide_eq_true_eq] at h
    simp only [smErase]
    split
    · exact ih lo (smOrdered_lower dflt m a lo (by omega) h.2)
    · simp only [smOrdered, Bool.and_eq_true, decide_eq_true_eq]; exact ⟨h.1, ih a h.2⟩

/-- Inserting a key keeps the order. -/
theorem smInsert_ordered (dflt : Nat → α) (k : Nat) (v : α) (hv : v ≠ dflt k) (m : List (Nat × α)) (lo : Nat)
    (hk : lo < k) (h : smOrdered dflt (some lo) m = true) : smOrdered dflt (some lo) (smInsert m k v) = true := by
  induction m generalizing lo with
  | nil => simp [smInsert, smOrdered, hk, hv]
  | cons p m ih =>
    obtain ⟨a, w⟩ := p
    have h0 := h
    simp only [smOrdered, Bool.and_eq_true, decide_eq_true_eq] at h
    simp only [smInsert]
    split
    · rename_i hlt; simp only [smOrdered, Bool.and_eq_true, decide_eq_true_eq]
      exact ⟨⟨hk, hv⟩, ⟨hlt, h.1.2⟩, h.2⟩
    · split
      · rename_i he; subst he; simp only [smOrdered, Bool.and_eq_true, decide_eq_true_eq]; exact ⟨⟨hk, hv⟩, h.2⟩
      · simp only [smOrdered, Bool.and_eq_true, decide_eq_true_eq]; exact ⟨h.1, ih a (by omega) h.2⟩

/-- Setting a key keeps the canonical form. -/
theorem smSet_wf (dflt : Nat → α) (m : List (Nat × α)) (k : Nat) (v : α) (h : smWf dflt m = true) :
    smWf dflt (smSet dflt m k v) = true := by
  unfold smWf at *
  unfold smSet
  cases m with
  | nil => split <;> simp_all [smErase, smInsert, smOrdered]
  | cons p m =>
    obtain ⟨a, w⟩ := p
    simp only [smOrdered, Bool.true_and, Bool.and_eq_true, decide_eq_true_eq] at h
    split
    · simp only [smErase]
      split
      · exact smOrdered_weaken dflt _ a (smErase_ordered dflt k m a h.2)
      · simp only [smOrdered, Bool.true_and, Bool.and_eq_true, decide_eq_true_eq]; exact ⟨h.1, smErase_ordered dflt k m a h.2⟩
    · rename_i hv
      simp only [smInsert]
      split
      · simp only [smOrdered, Bool.true_and, Bool.and_eq_true, decide_eq_true_eq]; exact ⟨hv, ⟨by assumption, h.1⟩, h.2⟩
      · split
        · rename_i he; subst he; simp only [smOrdered, Bool.true_and, Bool.and_eq_true, decide_eq_true_eq]; exact ⟨hv, h.2⟩
        · simp only [smOrdered, Bool.true_and, Bool.and_eq_true, decide_eq_true_eq]
          exact ⟨h.1, smInsert_ordered dflt k v hv m a (by omega) h.2⟩

end Sys2Proof.Machine
end

