-- ==== Sys2Proof/Laws/Ops.lean ====
section
/-! SUPPORT. Registers and their fields: what a write of one leaves in every other, and what the operations of Machine/Ops.lean
leave alone. -/

namespace Sys2Proof.Machine

/-! ## Words -/

/-- The word of a register after a register has been set. -/
theorem word_setWord (d : Dev) (a b : Nat) (w : Word) : (d.setWord a w).word b = if a = b then w else d.word b := by
  simp [Dev.word, Dev.setWord, smGet_smSet]

/-- The same register. -/
@[simp] theorem word_setWord_same (d : Dev) (a : Nat) (w : Word) : (d.setWord a w).word a = w := by simp [word_setWord]

/-- Another register. -/
theorem word_setWord_ne (d : Dev) (a b : Nat) (w : Word) (h : a ≠ b) : (d.setWord a w).word b = d.word b := by
  simp [word_setWord, h]

/-! ## Fields -/

/-- The bits of a field's value. -/
theorem testBit_fldGet (w : Word) (f : Fld) (i : Nat) :
    (fldGet w f).testBit i = (decide (i < f.width) && w.getLsbD (f.lsb + i)) := by
  simp [fldGet, Nat.testBit_mod_two_pow, BitVec.getLsbD, Nat.testBit_shiftRight]

/-- The bits of a field's mask. -/
theorem getLsbD_fldMask (f : Fld) (i : Nat) :
    (fldMask f).getLsbD i = (decide (i < 32) && (decide (f.lsb ≤ i) && decide (i - f.lsb < f.width))) := by
  simp [fldMask, BitVec.getLsbD_ofNat, Nat.testBit_mul_two_pow, Nat.testBit_two_pow_sub_one]

/-- The bits of a word after a field has been replaced. -/
theorem getLsbD_fldPut (w : Word) (f : Fld) (v i : Nat) (hi : i < 32) :
    (fldPut w f v).getLsbD i =
      if f.lsb ≤ i ∧ i < f.lsb + f.width then v.testBit (i - f.lsb) else w.getLsbD i := by
  simp only [fldPut, BitVec.getLsbD_or, BitVec.getLsbD_and, BitVec.getLsbD_not, getLsbD_fldMask, BitVec.getLsbD_ofNat,
    Nat.testBit_mul_two_pow, Nat.testBit_mod_two_pow, hi, decide_true, Bool.true_and]
  by_cases h1 : f.lsb ≤ i <;> by_cases h2 : i - f.lsb < f.width
  · have : i < f.lsb + f.width := by omega
    simp [h1, h2, this]
  · have : ¬ i < f.lsb + f.width := by omega
    simp [h1, h2, this]
  · simp [h1]
  · simp [h1]

/-- A field read after it was written. -/
theorem fldGet_fldPut_same (w : Word) (f : Fld) (v : Nat) (h : f.lsb + f.width ≤ 32) :
    fldGet (fldPut w f v) f = v % 2 ^ f.width := by
  apply Nat.eq_of_testBit_eq
  intro i
  rw [testBit_fldGet, Nat.testBit_mod_two_pow]
  by_cases hi : i < f.width
  · rw [getLsbD_fldPut _ _ _ _ (by omega)]
    have : f.lsb ≤ f.lsb + i ∧ f.lsb + i < f.lsb + f.width := by omega
    simp [hi]
  · simp [hi]

/-- A field read after another one of the same register was written. -/
theorem fldGet_fldPut_disj (w : Word) (f g : Fld) (v : Nat) (hg : g.lsb + g.width ≤ 32)
    (h : g.lsb + g.width ≤ f.lsb ∨ f.lsb + f.width ≤ g.lsb) : fldGet (fldPut w f v) g = fldGet w g := by
  apply Nat.eq_of_testBit_eq
  intro i
  rw [testBit_fldGet, testBit_fldGet]
  by_cases hi : i < g.width
  · rw [getLsbD_fldPut _ _ _ _ (by omega)]
    have : ¬ (f.lsb ≤ g.lsb + i ∧ g.lsb + i < f.lsb + f.width) := by omega
    simp [this]
  · simp [hi]

/-- The word of another register after a field has been stored. -/
theorem word_put_ne (d : Dev) (f : Fld) (v a : Nat) (h : f.addr ≠ a) : (d.put f v).word a = d.word a := by
  simp [Dev.put, word_setWord, h]

/-- A field read after it was stored. -/
theorem get_put_same (d : Dev) (f : Fld) (v : Nat) (h : f.lsb + f.width ≤ 32) : (d.put f v).get f = v % 2 ^ f.width := by
  simp [Dev.get, Dev.put, fldGet_fldPut_same, h]

/-- A field of another register. -/
theorem get_put_ne (d : Dev) (f g : Fld) (v : Nat) (h : f.addr ≠ g.addr) : (d.put f v).get g = d.get g := by
  simp [Dev.get, word_put_ne, h]

/-- Another field of the same register. -/
theorem get_put_disj (d : Dev) (f g : Fld) (v : Nat) (hg : g.lsb + g.width ≤ 32)
    (h : g.lsb + g.width ≤ f.lsb ∨ f.lsb + f.width ≤ g.lsb) : (d.put f v).get g = d.get g := by
  by_cases ha : f.addr = g.addr
  · simp [Dev.get, Dev.put, ha, fldGet_fldPut_disj _ _ _ _ hg h]
  · exact get_put_ne d f g v ha

/-- Fields of registers whose words agree. -/
theorem get_congr (d e : Dev) (f : Fld) (h : d.word f.addr = e.word f.addr) : d.get f = e.get f := by simp [Dev.get, h]

/-! ## What the operations leave alone -/

/-- Handing an entry to the recorder changes no register. -/
@[simp] theorem source_word (d : Dev) (k : BitVec 4) (n key p : Nat) (l r : Bool) (a : Nat) :
    (d.source k n key p l r).word a = d.word a := by
  unfold Dev.source; split <;> rfl

/-- The reaction of a class changes no register. -/
@[simp] theorem react_word (d : Dev) (c : Cls) (a : Nat) : (d.react c).word a = d.word a := by
  cases c <;> simp only [Dev.react] <;> (try split) <;> rfl

/-- The recorder entry of a flag changes no register. -/
@[simp] theorem flagEntry_word (d : Dev) (n p a : Nat) : (d.flagEntry n p).word a = d.word a := by
  unfold Dev.flagEntry; split <;> simp

/-- A lost event changes no register but its counter. -/
theorem loseEvent_word (d : Dev) (stamp a : Nat) (new : Bool) (h : a ≠ NT_CNT1_EVLOST.addr) :
    (d.loseEvent stamp new).word a = d.word a := word_put_ne d _ _ _ h.symm

/-- An event changes no register but the two of its own loss. -/
theorem pushEvent_word (d : Dev) (addr bit cls stamp a : Nat) (h1 : a ≠ NT_EVT_EVOVF.addr) (h2 : a ≠ NT_CNT1_EVLOST.addr) :
    (d.pushEvent addr bit cls stamp).word a = d.word a := by
  unfold Dev.pushEvent
  split
  · rfl
  split
  · rfl
  · split
    · rw [Dev.setEvovf, flagEntry_word, word_put_ne _ _ _ _ h1.symm, loseEvent_word _ _ _ _ h2]
    · exact loseEvent_word _ _ _ _ h2

/-- A flag that sets changes no register but its own and the two of lost events. -/
theorem raiseBit_word (d : Dev) (f : Fld) (i : Nat) (c : Cls) (a : Nat) (h0 : a ≠ f.addr) (h1 : a ≠ NT_EVT_EVOVF.addr)
    (h2 : a ≠ NT_CNT1_EVLOST.addr) : (d.raiseBit f i c).word a = d.word a := by
  unfold Dev.raiseBit
  split
  · rfl
  · simp [pushEvent_word _ _ _ _ _ _ h1 h2, Dev.putBit, word_put_ne _ _ _ _ h0.symm]

/-- A one-bit flag that sets changes no register but its own and the two of lost events. -/
theorem raise_word (d : Dev) (f : Fld) (c : Cls) (a : Nat) (h0 : a ≠ f.addr) (h1 : a ≠ NT_EVT_EVOVF.addr)
    (h2 : a ≠ NT_CNT1_EVLOST.addr) : (d.raise f c).word a = d.word a := raiseBit_word d f 0 c a h0 h1 h2

end Sys2Proof.Machine
end

