-- ==== Sys2Proof/Laws/State.lean ====
section
/-! SUPPORT. Each named update of the device changes one field: every other field reads as before. -/

namespace Sys2Proof.Machine

/-! `Dev.setWord` -/

@[simp] theorem setWord_released (d : Dev) (a : Nat) (w : Word) : (d.setWord a w).released = d.released := rfl
@[simp] theorem setWord_cyc (d : Dev) (a : Nat) (w : Word) : (d.setWord a w).cyc = d.cyc := rfl
@[simp] theorem setWord_telem (d : Dev) (a : Nat) (w : Word) : (d.setWord a w).telem = d.telem := rfl
@[simp] theorem setWord_snaps (d : Dev) (a : Nat) (w : Word) : (d.setWord a w).snaps = d.snaps := rfl
@[simp] theorem setWord_sent (d : Dev) (a : Nat) (w : Word) : (d.setWord a w).sent = d.sent := rfl
@[simp] theorem setWord_tm (d : Dev) (a : Nat) (w : Word) : (d.setWord a w).tm = d.tm := rfl
@[simp] theorem setWord_fc (d : Dev) (a : Nat) (w : Word) : (d.setWord a w).fc = d.fc := rfl
@[simp] theorem setWord_dr (d : Dev) (a : Nat) (w : Word) : (d.setWord a w).dr = d.dr := rfl
@[simp] theorem setWord_sf (d : Dev) (a : Nat) (w : Word) : (d.setWord a w).sf = d.sf := rfl
@[simp] theorem setWord_nt (d : Dev) (a : Nat) (w : Word) : (d.setWord a w).nt = d.nt := rfl
@[simp] theorem setWord_fb (d : Dev) (a : Nat) (w : Word) : (d.setWord a w).fb = d.fb := rfl
@[simp] theorem setWord_jtag (d : Dev) (a : Nat) (w : Word) : (d.setWord a w).jtag = d.jtag := rfl
@[simp] theorem setWord_lanes (d : Dev) (a : Nat) (w : Word) : (d.setWord a w).lanes = d.lanes := rfl
@[simp] theorem setWord_quires (d : Dev) (a : Nat) (w : Word) : (d.setWord a w).quires = d.quires := rfl
@[simp] theorem setWord_cells (d : Dev) (a : Nat) (w : Word) : (d.setWord a w).cells = d.cells := rfl
@[simp] theorem setWord_regions (d : Dev) (a : Nat) (w : Word) : (d.setWord a w).regions = d.regions := rfl
@[simp] theorem setWord_ains (d : Dev) (a : Nat) (w : Word) : (d.setWord a w).ains = d.ains := rfl
@[simp] theorem setWord_groups (d : Dev) (a : Nat) (w : Word) : (d.setWord a w).groups = d.groups := rfl
@[simp] theorem setWord_adq (d : Dev) (a : Nat) (w : Word) : (d.setWord a w).adq = d.adq := rfl
@[simp] theorem setWord_tw (d : Dev) (a : Nat) (w : Word) : (d.setWord a w).tw = d.tw := rfl
@[simp] theorem setWord_su (d : Dev) (a : Nat) (w : Word) : (d.setWord a w).su = d.su := rfl

/-! `Dev.put` -/

@[simp] theorem put_released (d : Dev) (f : Fld) (v : Nat) : (d.put f v).released = d.released := rfl
@[simp] theorem put_cyc (d : Dev) (f : Fld) (v : Nat) : (d.put f v).cyc = d.cyc := rfl
@[simp] theorem put_telem (d : Dev) (f : Fld) (v : Nat) : (d.put f v).telem = d.telem := rfl
@[simp] theorem put_snaps (d : Dev) (f : Fld) (v : Nat) : (d.put f v).snaps = d.snaps := rfl
@[simp] theorem put_sent (d : Dev) (f : Fld) (v : Nat) : (d.put f v).sent = d.sent := rfl
@[simp] theorem put_tm (d : Dev) (f : Fld) (v : Nat) : (d.put f v).tm = d.tm := rfl
@[simp] theorem put_fc (d : Dev) (f : Fld) (v : Nat) : (d.put f v).fc = d.fc := rfl
@[simp] theorem put_dr (d : Dev) (f : Fld) (v : Nat) : (d.put f v).dr = d.dr := rfl
@[simp] theorem put_sf (d : Dev) (f : Fld) (v : Nat) : (d.put f v).sf = d.sf := rfl
@[simp] theorem put_nt (d : Dev) (f : Fld) (v : Nat) : (d.put f v).nt = d.nt := rfl
@[simp] theorem put_fb (d : Dev) (f : Fld) (v : Nat) : (d.put f v).fb = d.fb := rfl
@[simp] theorem put_jtag (d : Dev) (f : Fld) (v : Nat) : (d.put f v).jtag = d.jtag := rfl
@[simp] theorem put_lanes (d : Dev) (f : Fld) (v : Nat) : (d.put f v).lanes = d.lanes := rfl
@[simp] theorem put_quires (d : Dev) (f : Fld) (v : Nat) : (d.put f v).quires = d.quires := rfl
@[simp] theorem put_cells (d : Dev) (f : Fld) (v : Nat) : (d.put f v).cells = d.cells := rfl
@[simp] theorem put_regions (d : Dev) (f : Fld) (v : Nat) : (d.put f v).regions = d.regions := rfl
@[simp] theorem put_ains (d : Dev) (f : Fld) (v : Nat) : (d.put f v).ains = d.ains := rfl
@[simp] theorem put_groups (d : Dev) (f : Fld) (v : Nat) : (d.put f v).groups = d.groups := rfl
@[simp] theorem put_adq (d : Dev) (f : Fld) (v : Nat) : (d.put f v).adq = d.adq := rfl
@[simp] theorem put_tw (d : Dev) (f : Fld) (v : Nat) : (d.put f v).tw = d.tw := rfl
@[simp] theorem put_su (d : Dev) (f : Fld) (v : Nat) : (d.put f v).su = d.su := rfl

/-! `Dev.putS` -/

@[simp] theorem putS_released (d : Dev) (f : Fld) (x : Int) : (d.putS f x).released = d.released := rfl
@[simp] theorem putS_cyc (d : Dev) (f : Fld) (x : Int) : (d.putS f x).cyc = d.cyc := rfl
@[simp] theorem putS_telem (d : Dev) (f : Fld) (x : Int) : (d.putS f x).telem = d.telem := rfl
@[simp] theorem putS_snaps (d : Dev) (f : Fld) (x : Int) : (d.putS f x).snaps = d.snaps := rfl
@[simp] theorem putS_sent (d : Dev) (f : Fld) (x : Int) : (d.putS f x).sent = d.sent := rfl
@[simp] theorem putS_tm (d : Dev) (f : Fld) (x : Int) : (d.putS f x).tm = d.tm := rfl
@[simp] theorem putS_fc (d : Dev) (f : Fld) (x : Int) : (d.putS f x).fc = d.fc := rfl
@[simp] theorem putS_dr (d : Dev) (f : Fld) (x : Int) : (d.putS f x).dr = d.dr := rfl
@[simp] theorem putS_sf (d : Dev) (f : Fld) (x : Int) : (d.putS f x).sf = d.sf := rfl
@[simp] theorem putS_nt (d : Dev) (f : Fld) (x : Int) : (d.putS f x).nt = d.nt := rfl
@[simp] theorem putS_fb (d : Dev) (f : Fld) (x : Int) : (d.putS f x).fb = d.fb := rfl
@[simp] theorem putS_jtag (d : Dev) (f : Fld) (x : Int) : (d.putS f x).jtag = d.jtag := rfl
@[simp] theorem putS_lanes (d : Dev) (f : Fld) (x : Int) : (d.putS f x).lanes = d.lanes := rfl
@[simp] theorem putS_quires (d : Dev) (f : Fld) (x : Int) : (d.putS f x).quires = d.quires := rfl
@[simp] theorem putS_cells (d : Dev) (f : Fld) (x : Int) : (d.putS f x).cells = d.cells := rfl
@[simp] theorem putS_regions (d : Dev) (f : Fld) (x : Int) : (d.putS f x).regions = d.regions := rfl
@[simp] theorem putS_ains (d : Dev) (f : Fld) (x : Int) : (d.putS f x).ains = d.ains := rfl
@[simp] theorem putS_groups (d : Dev) (f : Fld) (x : Int) : (d.putS f x).groups = d.groups := rfl
@[simp] theorem putS_adq (d : Dev) (f : Fld) (x : Int) : (d.putS f x).adq = d.adq := rfl
@[simp] theorem putS_tw (d : Dev) (f : Fld) (x : Int) : (d.putS f x).tw = d.tw := rfl
@[simp] theorem putS_su (d : Dev) (f : Fld) (x : Int) : (d.putS f x).su = d.su := rfl

/-! `Dev.putB` -/

@[simp] theorem putB_released (d : Dev) (f : Fld) (b : Bool) : (d.putB f b).released = d.released := rfl
@[simp] theorem putB_cyc (d : Dev) (f : Fld) (b : Bool) : (d.putB f b).cyc = d.cyc := rfl
@[simp] theorem putB_telem (d : Dev) (f : Fld) (b : Bool) : (d.putB f b).telem = d.telem := rfl
@[simp] theorem putB_snaps (d : Dev) (f : Fld) (b : Bool) : (d.putB f b).snaps = d.snaps := rfl
@[simp] theorem putB_sent (d : Dev) (f : Fld) (b : Bool) : (d.putB f b).sent = d.sent := rfl
@[simp] theorem putB_tm (d : Dev) (f : Fld) (b : Bool) : (d.putB f b).tm = d.tm := rfl
@[simp] theorem putB_fc (d : Dev) (f : Fld) (b : Bool) : (d.putB f b).fc = d.fc := rfl
@[simp] theorem putB_dr (d : Dev) (f : Fld) (b : Bool) : (d.putB f b).dr = d.dr := rfl
@[simp] theorem putB_sf (d : Dev) (f : Fld) (b : Bool) : (d.putB f b).sf = d.sf := rfl
@[simp] theorem putB_nt (d : Dev) (f : Fld) (b : Bool) : (d.putB f b).nt = d.nt := rfl
@[simp] theorem putB_fb (d : Dev) (f : Fld) (b : Bool) : (d.putB f b).fb = d.fb := rfl
@[simp] theorem putB_jtag (d : Dev) (f : Fld) (b : Bool) : (d.putB f b).jtag = d.jtag := rfl
@[simp] theorem putB_lanes (d : Dev) (f : Fld) (b : Bool) : (d.putB f b).lanes = d.lanes := rfl
@[simp] theorem putB_quires (d : Dev) (f : Fld) (b : Bool) : (d.putB f b).quires = d.quires := rfl
@[simp] theorem putB_cells (d : Dev) (f : Fld) (b : Bool) : (d.putB f b).cells = d.cells := rfl
@[simp] theorem putB_regions (d : Dev) (f : Fld) (b : Bool) : (d.putB f b).regions = d.regions := rfl
@[simp] theorem putB_ains (d : Dev) (f : Fld) (b : Bool) : (d.putB f b).ains = d.ains := rfl
@[simp] theorem putB_groups (d : Dev) (f : Fld) (b : Bool) : (d.putB f b).groups = d.groups := rfl
@[simp] theorem putB_adq (d : Dev) (f : Fld) (b : Bool) : (d.putB f b).adq = d.adq := rfl
@[simp] theorem putB_tw (d : Dev) (f : Fld) (b : Bool) : (d.putB f b).tw = d.tw := rfl
@[simp] theorem putB_su (d : Dev) (f : Fld) (b : Bool) : (d.putB f b).su = d.su := rfl

/-! `Dev.putBit` -/

@[simp] theorem putBit_released (d : Dev) (f : Fld) (i : Nat) (b : Bool) : (d.putBit f i b).released = d.released := rfl
@[simp] theorem putBit_cyc (d : Dev) (f : Fld) (i : Nat) (b : Bool) : (d.putBit f i b).cyc = d.cyc := rfl
@[simp] theorem putBit_telem (d : Dev) (f : Fld) (i : Nat) (b : Bool) : (d.putBit f i b).telem = d.telem := rfl
@[simp] theorem putBit_snaps (d : Dev) (f : Fld) (i : Nat) (b : Bool) : (d.putBit f i b).snaps = d.snaps := rfl
@[simp] theorem putBit_sent (d : Dev) (f : Fld) (i : Nat) (b : Bool) : (d.putBit f i b).sent = d.sent := rfl
@[simp] theorem putBit_tm (d : Dev) (f : Fld) (i : Nat) (b : Bool) : (d.putBit f i b).tm = d.tm := rfl
@[simp] theorem putBit_fc (d : Dev) (f : Fld) (i : Nat) (b : Bool) : (d.putBit f i b).fc = d.fc := rfl
@[simp] theorem putBit_dr (d : Dev) (f : Fld) (i : Nat) (b : Bool) : (d.putBit f i b).dr = d.dr := rfl
@[simp] theorem putBit_sf (d : Dev) (f : Fld) (i : Nat) (b : Bool) : (d.putBit f i b).sf = d.sf := rfl
@[simp] theorem putBit_nt (d : Dev) (f : Fld) (i : Nat) (b : Bool) : (d.putBit f i b).nt = d.nt := rfl
@[simp] theorem putBit_fb (d : Dev) (f : Fld) (i : Nat) (b : Bool) : (d.putBit f i b).fb = d.fb := rfl
@[simp] theorem putBit_jtag (d : Dev) (f : Fld) (i : Nat) (b : Bool) : (d.putBit f i b).jtag = d.jtag := rfl
@[simp] theorem putBit_lanes (d : Dev) (f : Fld) (i : Nat) (b : Bool) : (d.putBit f i b).lanes = d.lanes := rfl
@[simp] theorem putBit_quires (d : Dev) (f : Fld) (i : Nat) (b : Bool) : (d.putBit f i b).quires = d.quires := rfl
@[simp] theorem putBit_cells (d : Dev) (f : Fld) (i : Nat) (b : Bool) : (d.putBit f i b).cells = d.cells := rfl
@[simp] theorem putBit_regions (d : Dev) (f : Fld) (i : Nat) (b : Bool) : (d.putBit f i b).regions = d.regions := rfl
@[simp] theorem putBit_ains (d : Dev) (f : Fld) (i : Nat) (b : Bool) : (d.putBit f i b).ains = d.ains := rfl
@[simp] theorem putBit_groups (d : Dev) (f : Fld) (i : Nat) (b : Bool) : (d.putBit f i b).groups = d.groups := rfl
@[simp] theorem putBit_adq (d : Dev) (f : Fld) (i : Nat) (b : Bool) : (d.putBit f i b).adq = d.adq := rfl
@[simp] theorem putBit_tw (d : Dev) (f : Fld) (i : Nat) (b : Bool) : (d.putBit f i b).tw = d.tw := rfl
@[simp] theorem putBit_su (d : Dev) (f : Fld) (i : Nat) (b : Bool) : (d.putBit f i b).su = d.su := rfl

/-! `Dev.bump` -/

@[simp] theorem bump_released (d : Dev) (f : Fld) (k : Nat) : (d.bump f k).released = d.released := rfl
@[simp] theorem bump_cyc (d : Dev) (f : Fld) (k : Nat) : (d.bump f k).cyc = d.cyc := rfl
@[simp] theorem bump_telem (d : Dev) (f : Fld) (k : Nat) : (d.bump f k).telem = d.telem := rfl
@[simp] theorem bump_snaps (d : Dev) (f : Fld) (k : Nat) : (d.bump f k).snaps = d.snaps := rfl
@[simp] theorem bump_sent (d : Dev) (f : Fld) (k : Nat) : (d.bump f k).sent = d.sent := rfl
@[simp] theorem bump_tm (d : Dev) (f : Fld) (k : Nat) : (d.bump f k).tm = d.tm := rfl
@[simp] theorem bump_fc (d : Dev) (f : Fld) (k : Nat) : (d.bump f k).fc = d.fc := rfl
@[simp] theorem bump_dr (d : Dev) (f : Fld) (k : Nat) : (d.bump f k).dr = d.dr := rfl
@[simp] theorem bump_sf (d : Dev) (f : Fld) (k : Nat) : (d.bump f k).sf = d.sf := rfl
@[simp] theorem bump_nt (d : Dev) (f : Fld) (k : Nat) : (d.bump f k).nt = d.nt := rfl
@[simp] theorem bump_fb (d : Dev) (f : Fld) (k : Nat) : (d.bump f k).fb = d.fb := rfl
@[simp] theorem bump_jtag (d : Dev) (f : Fld) (k : Nat) : (d.bump f k).jtag = d.jtag := rfl
@[simp] theorem bump_lanes (d : Dev) (f : Fld) (k : Nat) : (d.bump f k).lanes = d.lanes := rfl
@[simp] theorem bump_quires (d : Dev) (f : Fld) (k : Nat) : (d.bump f k).quires = d.quires := rfl
@[simp] theorem bump_cells (d : Dev) (f : Fld) (k : Nat) : (d.bump f k).cells = d.cells := rfl
@[simp] theorem bump_regions (d : Dev) (f : Fld) (k : Nat) : (d.bump f k).regions = d.regions := rfl
@[simp] theorem bump_ains (d : Dev) (f : Fld) (k : Nat) : (d.bump f k).ains = d.ains := rfl
@[simp] theorem bump_groups (d : Dev) (f : Fld) (k : Nat) : (d.bump f k).groups = d.groups := rfl
@[simp] theorem bump_adq (d : Dev) (f : Fld) (k : Nat) : (d.bump f k).adq = d.adq := rfl
@[simp] theorem bump_tw (d : Dev) (f : Fld) (k : Nat) : (d.bump f k).tw = d.tw := rfl
@[simp] theorem bump_su (d : Dev) (f : Fld) (k : Nat) : (d.bump f k).su = d.su := rfl

/-! `Dev.count` -/

@[simp] theorem count_released (d : Dev) (f : Fld) (k : Nat) : (d.count f k).released = d.released := rfl
@[simp] theorem count_cyc (d : Dev) (f : Fld) (k : Nat) : (d.count f k).cyc = d.cyc := rfl
@[simp] theorem count_telem (d : Dev) (f : Fld) (k : Nat) : (d.count f k).telem = d.telem := rfl
@[simp] theorem count_snaps (d : Dev) (f : Fld) (k : Nat) : (d.count f k).snaps = d.snaps := rfl
@[simp] theorem count_sent (d : Dev) (f : Fld) (k : Nat) : (d.count f k).sent = d.sent := rfl
@[simp] theorem count_tm (d : Dev) (f : Fld) (k : Nat) : (d.count f k).tm = d.tm := rfl
@[simp] theorem count_fc (d : Dev) (f : Fld) (k : Nat) : (d.count f k).fc = d.fc := rfl
@[simp] theorem count_dr (d : Dev) (f : Fld) (k : Nat) : (d.count f k).dr = d.dr := rfl
@[simp] theorem count_sf (d : Dev) (f : Fld) (k : Nat) : (d.count f k).sf = d.sf := rfl
@[simp] theorem count_nt (d : Dev) (f : Fld) (k : Nat) : (d.count f k).nt = d.nt := rfl
@[simp] theorem count_fb (d : Dev) (f : Fld) (k : Nat) : (d.count f k).fb = d.fb := rfl
@[simp] theorem count_jtag (d : Dev) (f : Fld) (k : Nat) : (d.count f k).jtag = d.jtag := rfl
@[simp] theorem count_lanes (d : Dev) (f : Fld) (k : Nat) : (d.count f k).lanes = d.lanes := rfl
@[simp] theorem count_quires (d : Dev) (f : Fld) (k : Nat) : (d.count f k).quires = d.quires := rfl
@[simp] theorem count_cells (d : Dev) (f : Fld) (k : Nat) : (d.count f k).cells = d.cells := rfl
@[simp] theorem count_regions (d : Dev) (f : Fld) (k : Nat) : (d.count f k).regions = d.regions := rfl
@[simp] theorem count_ains (d : Dev) (f : Fld) (k : Nat) : (d.count f k).ains = d.ains := rfl
@[simp] theorem count_groups (d : Dev) (f : Fld) (k : Nat) : (d.count f k).groups = d.groups := rfl
@[simp] theorem count_adq (d : Dev) (f : Fld) (k : Nat) : (d.count f k).adq = d.adq := rfl
@[simp] theorem count_tw (d : Dev) (f : Fld) (k : Nat) : (d.count f k).tw = d.tw := rfl
@[simp] theorem count_su (d : Dev) (f : Fld) (k : Nat) : (d.count f k).su = d.su := rfl

/-! `Dev.setPoint` -/

@[simp] theorem setPoint_released (d : Dev) (i : Nat) (w : Word) : (d.setPoint i w).released = d.released := rfl
@[simp] theorem setPoint_cyc (d : Dev) (i : Nat) (w : Word) : (d.setPoint i w).cyc = d.cyc := rfl
@[simp] theorem setPoint_regs (d : Dev) (i : Nat) (w : Word) : (d.setPoint i w).regs = d.regs := rfl
@[simp] theorem setPoint_snaps (d : Dev) (i : Nat) (w : Word) : (d.setPoint i w).snaps = d.snaps := rfl
@[simp] theorem setPoint_sent (d : Dev) (i : Nat) (w : Word) : (d.setPoint i w).sent = d.sent := rfl
@[simp] theorem setPoint_tm (d : Dev) (i : Nat) (w : Word) : (d.setPoint i w).tm = d.tm := rfl
@[simp] theorem setPoint_fc (d : Dev) (i : Nat) (w : Word) : (d.setPoint i w).fc = d.fc := rfl
@[simp] theorem setPoint_dr (d : Dev) (i : Nat) (w : Word) : (d.setPoint i w).dr = d.dr := rfl
@[simp] theorem setPoint_sf (d : Dev) (i : Nat) (w : Word) : (d.setPoint i w).sf = d.sf := rfl
@[simp] theorem setPoint_nt (d : Dev) (i : Nat) (w : Word) : (d.setPoint i w).nt = d.nt := rfl
@[simp] theorem setPoint_fb (d : Dev) (i : Nat) (w : Word) : (d.setPoint i w).fb = d.fb := rfl
@[simp] theorem setPoint_jtag (d : Dev) (i : Nat) (w : Word) : (d.setPoint i w).jtag = d.jtag := rfl
@[simp] theorem setPoint_lanes (d : Dev) (i : Nat) (w : Word) : (d.setPoint i w).lanes = d.lanes := rfl
@[simp] theorem setPoint_quires (d : Dev) (i : Nat) (w : Word) : (d.setPoint i w).quires = d.quires := rfl
@[simp] theorem setPoint_cells (d : Dev) (i : Nat) (w : Word) : (d.setPoint i w).cells = d.cells := rfl
@[simp] theorem setPoint_regions (d : Dev) (i : Nat) (w : Word) : (d.setPoint i w).regions = d.regions := rfl
@[simp] theorem setPoint_ains (d : Dev) (i : Nat) (w : Word) : (d.setPoint i w).ains = d.ains := rfl
@[simp] theorem setPoint_groups (d : Dev) (i : Nat) (w : Word) : (d.setPoint i w).groups = d.groups := rfl
@[simp] theorem setPoint_adq (d : Dev) (i : Nat) (w : Word) : (d.setPoint i w).adq = d.adq := rfl
@[simp] theorem setPoint_tw (d : Dev) (i : Nat) (w : Word) : (d.setPoint i w).tw = d.tw := rfl
@[simp] theorem setPoint_su (d : Dev) (i : Nat) (w : Word) : (d.setPoint i w).su = d.su := rfl

/-! `Dev.send` -/

@[simp] theorem send_released (d : Dev) (x : Sent) : (d.send x).released = d.released := rfl
@[simp] theorem send_cyc (d : Dev) (x : Sent) : (d.send x).cyc = d.cyc := rfl
@[simp] theorem send_regs (d : Dev) (x : Sent) : (d.send x).regs = d.regs := rfl
@[simp] theorem send_telem (d : Dev) (x : Sent) : (d.send x).telem = d.telem := rfl
@[simp] theorem send_snaps (d : Dev) (x : Sent) : (d.send x).snaps = d.snaps := rfl
@[simp] theorem send_tm (d : Dev) (x : Sent) : (d.send x).tm = d.tm := rfl
@[simp] theorem send_fc (d : Dev) (x : Sent) : (d.send x).fc = d.fc := rfl
@[simp] theorem send_dr (d : Dev) (x : Sent) : (d.send x).dr = d.dr := rfl
@[simp] theorem send_sf (d : Dev) (x : Sent) : (d.send x).sf = d.sf := rfl
@[simp] theorem send_nt (d : Dev) (x : Sent) : (d.send x).nt = d.nt := rfl
@[simp] theorem send_fb (d : Dev) (x : Sent) : (d.send x).fb = d.fb := rfl
@[simp] theorem send_jtag (d : Dev) (x : Sent) : (d.send x).jtag = d.jtag := rfl
@[simp] theorem send_lanes (d : Dev) (x : Sent) : (d.send x).lanes = d.lanes := rfl
@[simp] theorem send_quires (d : Dev) (x : Sent) : (d.send x).quires = d.quires := rfl
@[simp] theorem send_cells (d : Dev) (x : Sent) : (d.send x).cells = d.cells := rfl
@[simp] theorem send_regions (d : Dev) (x : Sent) : (d.send x).regions = d.regions := rfl
@[simp] theorem send_ains (d : Dev) (x : Sent) : (d.send x).ains = d.ains := rfl
@[simp] theorem send_groups (d : Dev) (x : Sent) : (d.send x).groups = d.groups := rfl
@[simp] theorem send_adq (d : Dev) (x : Sent) : (d.send x).adq = d.adq := rfl
@[simp] theorem send_tw (d : Dev) (x : Sent) : (d.send x).tw = d.tw := rfl
@[simp] theorem send_su (d : Dev) (x : Sent) : (d.send x).su = d.su := rfl

/-! `Dev.until_` and `Dev.at_`: only `tm` and the words TM_STAT and PL_SCTL change (Laws/Quiet.lean) -/

@[simp] theorem until_released (d : Dev) (t : Nat) : (d.until_ t).released = d.released := rfl
@[simp] theorem until_cyc (d : Dev) (t : Nat) : (d.until_ t).cyc = d.cyc := rfl
@[simp] theorem until_telem (d : Dev) (t : Nat) : (d.until_ t).telem = d.telem := rfl
@[simp] theorem until_snaps (d : Dev) (t : Nat) : (d.until_ t).snaps = d.snaps := rfl
@[simp] theorem until_sent (d : Dev) (t : Nat) : (d.until_ t).sent = d.sent := rfl
@[simp] theorem until_fc (d : Dev) (t : Nat) : (d.until_ t).fc = d.fc := rfl
@[simp] theorem until_dr (d : Dev) (t : Nat) : (d.until_ t).dr = d.dr := rfl
@[simp] theorem until_sf (d : Dev) (t : Nat) : (d.until_ t).sf = d.sf := rfl
@[simp] theorem until_nt (d : Dev) (t : Nat) : (d.until_ t).nt = d.nt := rfl
@[simp] theorem until_fb (d : Dev) (t : Nat) : (d.until_ t).fb = d.fb := rfl
@[simp] theorem until_jtag (d : Dev) (t : Nat) : (d.until_ t).jtag = d.jtag := rfl
@[simp] theorem until_lanes (d : Dev) (t : Nat) : (d.until_ t).lanes = d.lanes := rfl
@[simp] theorem until_quires (d : Dev) (t : Nat) : (d.until_ t).quires = d.quires := rfl
@[simp] theorem until_cells (d : Dev) (t : Nat) : (d.until_ t).cells = d.cells := rfl
@[simp] theorem until_regions (d : Dev) (t : Nat) : (d.until_ t).regions = d.regions := rfl
@[simp] theorem until_ains (d : Dev) (t : Nat) : (d.until_ t).ains = d.ains := rfl
@[simp] theorem until_groups (d : Dev) (t : Nat) : (d.until_ t).groups = d.groups := rfl
@[simp] theorem until_adq (d : Dev) (t : Nat) : (d.until_ t).adq = d.adq := rfl
@[simp] theorem until_tw (d : Dev) (t : Nat) : (d.until_ t).tw = d.tw := rfl
@[simp] theorem until_su (d : Dev) (t : Nat) : (d.until_ t).su = d.su := rfl

@[simp] theorem at_released (d : Dev) (t : Nat) : (d.at_ t).released = d.released := rfl
@[simp] theorem at_cyc (d : Dev) (t : Nat) : (d.at_ t).cyc = d.cyc := rfl
@[simp] theorem at_telem (d : Dev) (t : Nat) : (d.at_ t).telem = d.telem := rfl
@[simp] theorem at_snaps (d : Dev) (t : Nat) : (d.at_ t).snaps = d.snaps := rfl
@[simp] theorem at_sent (d : Dev) (t : Nat) : (d.at_ t).sent = d.sent := rfl
@[simp] theorem at_fc (d : Dev) (t : Nat) : (d.at_ t).fc = d.fc := rfl
@[simp] theorem at_dr (d : Dev) (t : Nat) : (d.at_ t).dr = d.dr := rfl
@[simp] theorem at_sf (d : Dev) (t : Nat) : (d.at_ t).sf = d.sf := rfl
@[simp] theorem at_nt (d : Dev) (t : Nat) : (d.at_ t).nt = d.nt := rfl
@[simp] theorem at_fb (d : Dev) (t : Nat) : (d.at_ t).fb = d.fb := rfl
@[simp] theorem at_jtag (d : Dev) (t : Nat) : (d.at_ t).jtag = d.jtag := rfl
@[simp] theorem at_lanes (d : Dev) (t : Nat) : (d.at_ t).lanes = d.lanes := rfl
@[simp] theorem at_quires (d : Dev) (t : Nat) : (d.at_ t).quires = d.quires := rfl
@[simp] theorem at_cells (d : Dev) (t : Nat) : (d.at_ t).cells = d.cells := rfl
@[simp] theorem at_regions (d : Dev) (t : Nat) : (d.at_ t).regions = d.regions := rfl
@[simp] theorem at_ains (d : Dev) (t : Nat) : (d.at_ t).ains = d.ains := rfl
@[simp] theorem at_groups (d : Dev) (t : Nat) : (d.at_ t).groups = d.groups := rfl
@[simp] theorem at_adq (d : Dev) (t : Nat) : (d.at_ t).adq = d.adq := rfl
@[simp] theorem at_tw (d : Dev) (t : Nat) : (d.at_ t).tw = d.tw := rfl
@[simp] theorem at_su (d : Dev) (t : Nat) : (d.at_ t).su = d.su := rfl

/-! `Dev.setLane` -/

@[simp] theorem setLane_released (d : Dev) (i : Nat) (x : LaneSt) : (d.setLane i x).released = d.released := rfl
@[simp] theorem setLane_cyc (d : Dev) (i : Nat) (x : LaneSt) : (d.setLane i x).cyc = d.cyc := rfl
@[simp] theorem setLane_regs (d : Dev) (i : Nat) (x : LaneSt) : (d.setLane i x).regs = d.regs := rfl
@[simp] theorem setLane_telem (d : Dev) (i : Nat) (x : LaneSt) : (d.setLane i x).telem = d.telem := rfl
@[simp] theorem setLane_snaps (d : Dev) (i : Nat) (x : LaneSt) : (d.setLane i x).snaps = d.snaps := rfl
@[simp] theorem setLane_sent (d : Dev) (i : Nat) (x : LaneSt) : (d.setLane i x).sent = d.sent := rfl
@[simp] theorem setLane_tm (d : Dev) (i : Nat) (x : LaneSt) : (d.setLane i x).tm = d.tm := rfl
@[simp] theorem setLane_fc (d : Dev) (i : Nat) (x : LaneSt) : (d.setLane i x).fc = d.fc := rfl
@[simp] theorem setLane_dr (d : Dev) (i : Nat) (x : LaneSt) : (d.setLane i x).dr = d.dr := rfl
@[simp] theorem setLane_sf (d : Dev) (i : Nat) (x : LaneSt) : (d.setLane i x).sf = d.sf := rfl
@[simp] theorem setLane_nt (d : Dev) (i : Nat) (x : LaneSt) : (d.setLane i x).nt = d.nt := rfl
@[simp] theorem setLane_fb (d : Dev) (i : Nat) (x : LaneSt) : (d.setLane i x).fb = d.fb := rfl
@[simp] theorem setLane_jtag (d : Dev) (i : Nat) (x : LaneSt) : (d.setLane i x).jtag = d.jtag := rfl
@[simp] theorem setLane_quires (d : Dev) (i : Nat) (x : LaneSt) : (d.setLane i x).quires = d.quires := rfl
@[simp] theorem setLane_cells (d : Dev) (i : Nat) (x : LaneSt) : (d.setLane i x).cells = d.cells := rfl
@[simp] theorem setLane_regions (d : Dev) (i : Nat) (x : LaneSt) : (d.setLane i x).regions = d.regions := rfl
@[simp] theorem setLane_ains (d : Dev) (i : Nat) (x : LaneSt) : (d.setLane i x).ains = d.ains := rfl
@[simp] theorem setLane_groups (d : Dev) (i : Nat) (x : LaneSt) : (d.setLane i x).groups = d.groups := rfl
@[simp] theorem setLane_adq (d : Dev) (i : Nat) (x : LaneSt) : (d.setLane i x).adq = d.adq := rfl
@[simp] theorem setLane_tw (d : Dev) (i : Nat) (x : LaneSt) : (d.setLane i x).tw = d.tw := rfl
@[simp] theorem setLane_su (d : Dev) (i : Nat) (x : LaneSt) : (d.setLane i x).su = d.su := rfl

/-! `Dev.onLane` -/

@[simp] theorem onLane_released (d : Dev) (i : Nat) (h : LaneSt → LaneSt) : (d.onLane i h).released = d.released := rfl
@[simp] theorem onLane_cyc (d : Dev) (i : Nat) (h : LaneSt → LaneSt) : (d.onLane i h).cyc = d.cyc := rfl
@[simp] theorem onLane_regs (d : Dev) (i : Nat) (h : LaneSt → LaneSt) : (d.onLane i h).regs = d.regs := rfl
@[simp] theorem onLane_telem (d : Dev) (i : Nat) (h : LaneSt → LaneSt) : (d.onLane i h).telem = d.telem := rfl
@[simp] theorem onLane_snaps (d : Dev) (i : Nat) (h : LaneSt → LaneSt) : (d.onLane i h).snaps = d.snaps := rfl
@[simp] theorem onLane_sent (d : Dev) (i : Nat) (h : LaneSt → LaneSt) : (d.onLane i h).sent = d.sent := rfl
@[simp] theorem onLane_tm (d : Dev) (i : Nat) (h : LaneSt → LaneSt) : (d.onLane i h).tm = d.tm := rfl
@[simp] theorem onLane_fc (d : Dev) (i : Nat) (h : LaneSt → LaneSt) : (d.onLane i h).fc = d.fc := rfl
@[simp] theorem onLane_dr (d : Dev) (i : Nat) (h : LaneSt → LaneSt) : (d.onLane i h).dr = d.dr := rfl
@[simp] theorem onLane_sf (d : Dev) (i : Nat) (h : LaneSt → LaneSt) : (d.onLane i h).sf = d.sf := rfl
@[simp] theorem onLane_nt (d : Dev) (i : Nat) (h : LaneSt → LaneSt) : (d.onLane i h).nt = d.nt := rfl
@[simp] theorem onLane_fb (d : Dev) (i : Nat) (h : LaneSt → LaneSt) : (d.onLane i h).fb = d.fb := rfl
@[simp] theorem onLane_jtag (d : Dev) (i : Nat) (h : LaneSt → LaneSt) : (d.onLane i h).jtag = d.jtag := rfl
@[simp] theorem onLane_quires (d : Dev) (i : Nat) (h : LaneSt → LaneSt) : (d.onLane i h).quires = d.quires := rfl
@[simp] theorem onLane_cells (d : Dev) (i : Nat) (h : LaneSt → LaneSt) : (d.onLane i h).cells = d.cells := rfl
@[simp] theorem onLane_regions (d : Dev) (i : Nat) (h : LaneSt → LaneSt) : (d.onLane i h).regions = d.regions := rfl
@[simp] theorem onLane_ains (d : Dev) (i : Nat) (h : LaneSt → LaneSt) : (d.onLane i h).ains = d.ains := rfl
@[simp] theorem onLane_groups (d : Dev) (i : Nat) (h : LaneSt → LaneSt) : (d.onLane i h).groups = d.groups := rfl
@[simp] theorem onLane_adq (d : Dev) (i : Nat) (h : LaneSt → LaneSt) : (d.onLane i h).adq = d.adq := rfl
@[simp] theorem onLane_tw (d : Dev) (i : Nat) (h : LaneSt → LaneSt) : (d.onLane i h).tw = d.tw := rfl
@[simp] theorem onLane_su (d : Dev) (i : Nat) (h : LaneSt → LaneSt) : (d.onLane i h).su = d.su := rfl

/-! `Dev.setQuire` -/

@[simp] theorem setQuire_released (d : Dev) (i : Nat) (x : QuireSt) : (d.setQuire i x).released = d.released := rfl
@[simp] theorem setQuire_cyc (d : Dev) (i : Nat) (x : QuireSt) : (d.setQuire i x).cyc = d.cyc := rfl
@[simp] theorem setQuire_regs (d : Dev) (i : Nat) (x : QuireSt) : (d.setQuire i x).regs = d.regs := rfl
@[simp] theorem setQuire_telem (d : Dev) (i : Nat) (x : QuireSt) : (d.setQuire i x).telem = d.telem := rfl
@[simp] theorem setQuire_snaps (d : Dev) (i : Nat) (x : QuireSt) : (d.setQuire i x).snaps = d.snaps := rfl
@[simp] theorem setQuire_sent (d : Dev) (i : Nat) (x : QuireSt) : (d.setQuire i x).sent = d.sent := rfl
@[simp] theorem setQuire_tm (d : Dev) (i : Nat) (x : QuireSt) : (d.setQuire i x).tm = d.tm := rfl
@[simp] theorem setQuire_fc (d : Dev) (i : Nat) (x : QuireSt) : (d.setQuire i x).fc = d.fc := rfl
@[simp] theorem setQuire_dr (d : Dev) (i : Nat) (x : QuireSt) : (d.setQuire i x).dr = d.dr := rfl
@[simp] theorem setQuire_sf (d : Dev) (i : Nat) (x : QuireSt) : (d.setQuire i x).sf = d.sf := rfl
@[simp] theorem setQuire_nt (d : Dev) (i : Nat) (x : QuireSt) : (d.setQuire i x).nt = d.nt := rfl
@[simp] theorem setQuire_fb (d : Dev) (i : Nat) (x : QuireSt) : (d.setQuire i x).fb = d.fb := rfl
@[simp] theorem setQuire_jtag (d : Dev) (i : Nat) (x : QuireSt) : (d.setQuire i x).jtag = d.jtag := rfl
@[simp] theorem setQuire_lanes (d : Dev) (i : Nat) (x : QuireSt) : (d.setQuire i x).lanes = d.lanes := rfl
@[simp] theorem setQuire_cells (d : Dev) (i : Nat) (x : QuireSt) : (d.setQuire i x).cells = d.cells := rfl
@[simp] theorem setQuire_regions (d : Dev) (i : Nat) (x : QuireSt) : (d.setQuire i x).regions = d.regions := rfl
@[simp] theorem setQuire_ains (d : Dev) (i : Nat) (x : QuireSt) : (d.setQuire i x).ains = d.ains := rfl
@[simp] theorem setQuire_groups (d : Dev) (i : Nat) (x : QuireSt) : (d.setQuire i x).groups = d.groups := rfl
@[simp] theorem setQuire_adq (d : Dev) (i : Nat) (x : QuireSt) : (d.setQuire i x).adq = d.adq := rfl
@[simp] theorem setQuire_tw (d : Dev) (i : Nat) (x : QuireSt) : (d.setQuire i x).tw = d.tw := rfl
@[simp] theorem setQuire_su (d : Dev) (i : Nat) (x : QuireSt) : (d.setQuire i x).su = d.su := rfl

/-! `Dev.onQuire` -/

@[simp] theorem onQuire_released (d : Dev) (i : Nat) (h : QuireSt → QuireSt) : (d.onQuire i h).released = d.released := rfl
@[simp] theorem onQuire_cyc (d : Dev) (i : Nat) (h : QuireSt → QuireSt) : (d.onQuire i h).cyc = d.cyc := rfl
@[simp] theorem onQuire_regs (d : Dev) (i : Nat) (h : QuireSt → QuireSt) : (d.onQuire i h).regs = d.regs := rfl
@[simp] theorem onQuire_telem (d : Dev) (i : Nat) (h : QuireSt → QuireSt) : (d.onQuire i h).telem = d.telem := rfl
@[simp] theorem onQuire_snaps (d : Dev) (i : Nat) (h : QuireSt → QuireSt) : (d.onQuire i h).snaps = d.snaps := rfl
@[simp] theorem onQuire_sent (d : Dev) (i : Nat) (h : QuireSt → QuireSt) : (d.onQuire i h).sent = d.sent := rfl
@[simp] theorem onQuire_tm (d : Dev) (i : Nat) (h : QuireSt → QuireSt) : (d.onQuire i h).tm = d.tm := rfl
@[simp] theorem onQuire_fc (d : Dev) (i : Nat) (h : QuireSt → QuireSt) : (d.onQuire i h).fc = d.fc := rfl
@[simp] theorem onQuire_dr (d : Dev) (i : Nat) (h : QuireSt → QuireSt) : (d.onQuire i h).dr = d.dr := rfl
@[simp] theorem onQuire_sf (d : Dev) (i : Nat) (h : QuireSt → QuireSt) : (d.onQuire i h).sf = d.sf := rfl
@[simp] theorem onQuire_nt (d : Dev) (i : Nat) (h : QuireSt → QuireSt) : (d.onQuire i h).nt = d.nt := rfl
@[simp] theorem onQuire_fb (d : Dev) (i : Nat) (h : QuireSt → QuireSt) : (d.onQuire i h).fb = d.fb := rfl
@[simp] theorem onQuire_jtag (d : Dev) (i : Nat) (h : QuireSt → QuireSt) : (d.onQuire i h).jtag = d.jtag := rfl
@[simp] theorem onQuire_lanes (d : Dev) (i : Nat) (h : QuireSt → QuireSt) : (d.onQuire i h).lanes = d.lanes := rfl
@[simp] theorem onQuire_cells (d : Dev) (i : Nat) (h : QuireSt → QuireSt) : (d.onQuire i h).cells = d.cells := rfl
@[simp] theorem onQuire_regions (d : Dev) (i : Nat) (h : QuireSt → QuireSt) : (d.onQuire i h).regions = d.regions := rfl
@[simp] theorem onQuire_ains (d : Dev) (i : Nat) (h : QuireSt → QuireSt) : (d.onQuire i h).ains = d.ains := rfl
@[simp] theorem onQuire_groups (d : Dev) (i : Nat) (h : QuireSt → QuireSt) : (d.onQuire i h).groups = d.groups := rfl
@[simp] theorem onQuire_adq (d : Dev) (i : Nat) (h : QuireSt → QuireSt) : (d.onQuire i h).adq = d.adq := rfl
@[simp] theorem onQuire_tw (d : Dev) (i : Nat) (h : QuireSt → QuireSt) : (d.onQuire i h).tw = d.tw := rfl
@[simp] theorem onQuire_su (d : Dev) (i : Nat) (h : QuireSt → QuireSt) : (d.onQuire i h).su = d.su := rfl

/-! `Dev.setCell` -/

@[simp] theorem setCell_released (d : Dev) (i : Nat) (x : CellSt) : (d.setCell i x).released = d.released := rfl
@[simp] theorem setCell_cyc (d : Dev) (i : Nat) (x : CellSt) : (d.setCell i x).cyc = d.cyc := rfl
@[simp] theorem setCell_regs (d : Dev) (i : Nat) (x : CellSt) : (d.setCell i x).regs = d.regs := rfl
@[simp] theorem setCell_telem (d : Dev) (i : Nat) (x : CellSt) : (d.setCell i x).telem = d.telem := rfl
@[simp] theorem setCell_snaps (d : Dev) (i : Nat) (x : CellSt) : (d.setCell i x).snaps = d.snaps := rfl
@[simp] theorem setCell_sent (d : Dev) (i : Nat) (x : CellSt) : (d.setCell i x).sent = d.sent := rfl
@[simp] theorem setCell_tm (d : Dev) (i : Nat) (x : CellSt) : (d.setCell i x).tm = d.tm := rfl
@[simp] theorem setCell_fc (d : Dev) (i : Nat) (x : CellSt) : (d.setCell i x).fc = d.fc := rfl
@[simp] theorem setCell_dr (d : Dev) (i : Nat) (x : CellSt) : (d.setCell i x).dr = d.dr := rfl
@[simp] theorem setCell_sf (d : Dev) (i : Nat) (x : CellSt) : (d.setCell i x).sf = d.sf := rfl
@[simp] theorem setCell_nt (d : Dev) (i : Nat) (x : CellSt) : (d.setCell i x).nt = d.nt := rfl
@[simp] theorem setCell_fb (d : Dev) (i : Nat) (x : CellSt) : (d.setCell i x).fb = d.fb := rfl
@[simp] theorem setCell_jtag (d : Dev) (i : Nat) (x : CellSt) : (d.setCell i x).jtag = d.jtag := rfl
@[simp] theorem setCell_lanes (d : Dev) (i : Nat) (x : CellSt) : (d.setCell i x).lanes = d.lanes := rfl
@[simp] theorem setCell_quires (d : Dev) (i : Nat) (x : CellSt) : (d.setCell i x).quires = d.quires := rfl
@[simp] theorem setCell_regions (d : Dev) (i : Nat) (x : CellSt) : (d.setCell i x).regions = d.regions := rfl
@[simp] theorem setCell_ains (d : Dev) (i : Nat) (x : CellSt) : (d.setCell i x).ains = d.ains := rfl
@[simp] theorem setCell_groups (d : Dev) (i : Nat) (x : CellSt) : (d.setCell i x).groups = d.groups := rfl
@[simp] theorem setCell_adq (d : Dev) (i : Nat) (x : CellSt) : (d.setCell i x).adq = d.adq := rfl
@[simp] theorem setCell_tw (d : Dev) (i : Nat) (x : CellSt) : (d.setCell i x).tw = d.tw := rfl
@[simp] theorem setCell_su (d : Dev) (i : Nat) (x : CellSt) : (d.setCell i x).su = d.su := rfl

/-! `Dev.onCell` -/

@[simp] theorem onCell_released (d : Dev) (i : Nat) (h : CellSt → CellSt) : (d.onCell i h).released = d.released := rfl
@[simp] theorem onCell_cyc (d : Dev) (i : Nat) (h : CellSt → CellSt) : (d.onCell i h).cyc = d.cyc := rfl
@[simp] theorem onCell_regs (d : Dev) (i : Nat) (h : CellSt → CellSt) : (d.onCell i h).regs = d.regs := rfl
@[simp] theorem onCell_telem (d : Dev) (i : Nat) (h : CellSt → CellSt) : (d.onCell i h).telem = d.telem := rfl
@[simp] theorem onCell_snaps (d : Dev) (i : Nat) (h : CellSt → CellSt) : (d.onCell i h).snaps = d.snaps := rfl
@[simp] theorem onCell_sent (d : Dev) (i : Nat) (h : CellSt → CellSt) : (d.onCell i h).sent = d.sent := rfl
@[simp] theorem onCell_tm (d : Dev) (i : Nat) (h : CellSt → CellSt) : (d.onCell i h).tm = d.tm := rfl
@[simp] theorem onCell_fc (d : Dev) (i : Nat) (h : CellSt → CellSt) : (d.onCell i h).fc = d.fc := rfl
@[simp] theorem onCell_dr (d : Dev) (i : Nat) (h : CellSt → CellSt) : (d.onCell i h).dr = d.dr := rfl
@[simp] theorem onCell_sf (d : Dev) (i : Nat) (h : CellSt → CellSt) : (d.onCell i h).sf = d.sf := rfl
@[simp] theorem onCell_nt (d : Dev) (i : Nat) (h : CellSt → CellSt) : (d.onCell i h).nt = d.nt := rfl
@[simp] theorem onCell_fb (d : Dev) (i : Nat) (h : CellSt → CellSt) : (d.onCell i h).fb = d.fb := rfl
@[simp] theorem onCell_jtag (d : Dev) (i : Nat) (h : CellSt → CellSt) : (d.onCell i h).jtag = d.jtag := rfl
@[simp] theorem onCell_lanes (d : Dev) (i : Nat) (h : CellSt → CellSt) : (d.onCell i h).lanes = d.lanes := rfl
@[simp] theorem onCell_quires (d : Dev) (i : Nat) (h : CellSt → CellSt) : (d.onCell i h).quires = d.quires := rfl
@[simp] theorem onCell_regions (d : Dev) (i : Nat) (h : CellSt → CellSt) : (d.onCell i h).regions = d.regions := rfl
@[simp] theorem onCell_ains (d : Dev) (i : Nat) (h : CellSt → CellSt) : (d.onCell i h).ains = d.ains := rfl
@[simp] theorem onCell_groups (d : Dev) (i : Nat) (h : CellSt → CellSt) : (d.onCell i h).groups = d.groups := rfl
@[simp] theorem onCell_adq (d : Dev) (i : Nat) (h : CellSt → CellSt) : (d.onCell i h).adq = d.adq := rfl
@[simp] theorem onCell_tw (d : Dev) (i : Nat) (h : CellSt → CellSt) : (d.onCell i h).tw = d.tw := rfl
@[simp] theorem onCell_su (d : Dev) (i : Nat) (h : CellSt → CellSt) : (d.onCell i h).su = d.su := rfl

/-! `Dev.setRegionSt` -/

@[simp] theorem setRegionSt_released (d : Dev) (i : Nat) (x : RegionSt) : (d.setRegionSt i x).released = d.released := rfl
@[simp] theorem setRegionSt_cyc (d : Dev) (i : Nat) (x : RegionSt) : (d.setRegionSt i x).cyc = d.cyc := rfl
@[simp] theorem setRegionSt_regs (d : Dev) (i : Nat) (x : RegionSt) : (d.setRegionSt i x).regs = d.regs := rfl
@[simp] theorem setRegionSt_telem (d : Dev) (i : Nat) (x : RegionSt) : (d.setRegionSt i x).telem = d.telem := rfl
@[simp] theorem setRegionSt_snaps (d : Dev) (i : Nat) (x : RegionSt) : (d.setRegionSt i x).snaps = d.snaps := rfl
@[simp] theorem setRegionSt_sent (d : Dev) (i : Nat) (x : RegionSt) : (d.setRegionSt i x).sent = d.sent := rfl
@[simp] theorem setRegionSt_tm (d : Dev) (i : Nat) (x : RegionSt) : (d.setRegionSt i x).tm = d.tm := rfl
@[simp] theorem setRegionSt_fc (d : Dev) (i : Nat) (x : RegionSt) : (d.setRegionSt i x).fc = d.fc := rfl
@[simp] theorem setRegionSt_dr (d : Dev) (i : Nat) (x : RegionSt) : (d.setRegionSt i x).dr = d.dr := rfl
@[simp] theorem setRegionSt_sf (d : Dev) (i : Nat) (x : RegionSt) : (d.setRegionSt i x).sf = d.sf := rfl
@[simp] theorem setRegionSt_nt (d : Dev) (i : Nat) (x : RegionSt) : (d.setRegionSt i x).nt = d.nt := rfl
@[simp] theorem setRegionSt_fb (d : Dev) (i : Nat) (x : RegionSt) : (d.setRegionSt i x).fb = d.fb := rfl
@[simp] theorem setRegionSt_jtag (d : Dev) (i : Nat) (x : RegionSt) : (d.setRegionSt i x).jtag = d.jtag := rfl
@[simp] theorem setRegionSt_lanes (d : Dev) (i : Nat) (x : RegionSt) : (d.setRegionSt i x).lanes = d.lanes := rfl
@[simp] theorem setRegionSt_quires (d : Dev) (i : Nat) (x : RegionSt) : (d.setRegionSt i x).quires = d.quires := rfl
@[simp] theorem setRegionSt_cells (d : Dev) (i : Nat) (x : RegionSt) : (d.setRegionSt i x).cells = d.cells := rfl
@[simp] theorem setRegionSt_ains (d : Dev) (i : Nat) (x : RegionSt) : (d.setRegionSt i x).ains = d.ains := rfl
@[simp] theorem setRegionSt_groups (d : Dev) (i : Nat) (x : RegionSt) : (d.setRegionSt i x).groups = d.groups := rfl
@[simp] theorem setRegionSt_adq (d : Dev) (i : Nat) (x : RegionSt) : (d.setRegionSt i x).adq = d.adq := rfl
@[simp] theorem setRegionSt_tw (d : Dev) (i : Nat) (x : RegionSt) : (d.setRegionSt i x).tw = d.tw := rfl
@[simp] theorem setRegionSt_su (d : Dev) (i : Nat) (x : RegionSt) : (d.setRegionSt i x).su = d.su := rfl

/-! `Dev.onRegion` -/

@[simp] theorem onRegion_released (d : Dev) (i : Nat) (h : RegionSt → RegionSt) : (d.onRegion i h).released = d.released := rfl
@[simp] theorem onRegion_cyc (d : Dev) (i : Nat) (h : RegionSt → RegionSt) : (d.onRegion i h).cyc = d.cyc := rfl
@[simp] theorem onRegion_regs (d : Dev) (i : Nat) (h : RegionSt → RegionSt) : (d.onRegion i h).regs = d.regs := rfl
@[simp] theorem onRegion_telem (d : Dev) (i : Nat) (h : RegionSt → RegionSt) : (d.onRegion i h).telem = d.telem := rfl
@[simp] theorem onRegion_snaps (d : Dev) (i : Nat) (h : RegionSt → RegionSt) : (d.onRegion i h).snaps = d.snaps := rfl
@[simp] theorem onRegion_sent (d : Dev) (i : Nat) (h : RegionSt → RegionSt) : (d.onRegion i h).sent = d.sent := rfl
@[simp] theorem onRegion_tm (d : Dev) (i : Nat) (h : RegionSt → RegionSt) : (d.onRegion i h).tm = d.tm := rfl
@[simp] theorem onRegion_fc (d : Dev) (i : Nat) (h : RegionSt → RegionSt) : (d.onRegion i h).fc = d.fc := rfl
@[simp] theorem onRegion_dr (d : Dev) (i : Nat) (h : RegionSt → RegionSt) : (d.onRegion i h).dr = d.dr := rfl
@[simp] theorem onRegion_sf (d : Dev) (i : Nat) (h : RegionSt → RegionSt) : (d.onRegion i h).sf = d.sf := rfl
@[simp] theorem onRegion_nt (d : Dev) (i : Nat) (h : RegionSt → RegionSt) : (d.onRegion i h).nt = d.nt := rfl
@[simp] theorem onRegion_fb (d : Dev) (i : Nat) (h : RegionSt → RegionSt) : (d.onRegion i h).fb = d.fb := rfl
@[simp] theorem onRegion_jtag (d : Dev) (i : Nat) (h : RegionSt → RegionSt) : (d.onRegion i h).jtag = d.jtag := rfl
@[simp] theorem onRegion_lanes (d : Dev) (i : Nat) (h : RegionSt → RegionSt) : (d.onRegion i h).lanes = d.lanes := rfl
@[simp] theorem onRegion_quires (d : Dev) (i : Nat) (h : RegionSt → RegionSt) : (d.onRegion i h).quires = d.quires := rfl
@[simp] theorem onRegion_cells (d : Dev) (i : Nat) (h : RegionSt → RegionSt) : (d.onRegion i h).cells = d.cells := rfl
@[simp] theorem onRegion_ains (d : Dev) (i : Nat) (h : RegionSt → RegionSt) : (d.onRegion i h).ains = d.ains := rfl
@[simp] theorem onRegion_groups (d : Dev) (i : Nat) (h : RegionSt → RegionSt) : (d.onRegion i h).groups = d.groups := rfl
@[simp] theorem onRegion_adq (d : Dev) (i : Nat) (h : RegionSt → RegionSt) : (d.onRegion i h).adq = d.adq := rfl
@[simp] theorem onRegion_tw (d : Dev) (i : Nat) (h : RegionSt → RegionSt) : (d.onRegion i h).tw = d.tw := rfl
@[simp] theorem onRegion_su (d : Dev) (i : Nat) (h : RegionSt → RegionSt) : (d.onRegion i h).su = d.su := rfl

/-! `Dev.setAin` -/

@[simp] theorem setAin_released (d : Dev) (i : Nat) (x : AinSt) : (d.setAin i x).released = d.released := rfl
@[simp] theorem setAin_cyc (d : Dev) (i : Nat) (x : AinSt) : (d.setAin i x).cyc = d.cyc := rfl
@[simp] theorem setAin_regs (d : Dev) (i : Nat) (x : AinSt) : (d.setAin i x).regs = d.regs := rfl
@[simp] theorem setAin_telem (d : Dev) (i : Nat) (x : AinSt) : (d.setAin i x).telem = d.telem := rfl
@[simp] theorem setAin_snaps (d : Dev) (i : Nat) (x : AinSt) : (d.setAin i x).snaps = d.snaps := rfl
@[simp] theorem setAin_sent (d : Dev) (i : Nat) (x : AinSt) : (d.setAin i x).sent = d.sent := rfl
@[simp] theorem setAin_tm (d : Dev) (i : Nat) (x : AinSt) : (d.setAin i x).tm = d.tm := rfl
@[simp] theorem setAin_fc (d : Dev) (i : Nat) (x : AinSt) : (d.setAin i x).fc = d.fc := rfl
@[simp] theorem setAin_dr (d : Dev) (i : Nat) (x : AinSt) : (d.setAin i x).dr = d.dr := rfl
@[simp] theorem setAin_sf (d : Dev) (i : Nat) (x : AinSt) : (d.setAin i x).sf = d.sf := rfl
@[simp] theorem setAin_nt (d : Dev) (i : Nat) (x : AinSt) : (d.setAin i x).nt = d.nt := rfl
@[simp] theorem setAin_fb (d : Dev) (i : Nat) (x : AinSt) : (d.setAin i x).fb = d.fb := rfl
@[simp] theorem setAin_jtag (d : Dev) (i : Nat) (x : AinSt) : (d.setAin i x).jtag = d.jtag := rfl
@[simp] theorem setAin_lanes (d : Dev) (i : Nat) (x : AinSt) : (d.setAin i x).lanes = d.lanes := rfl
@[simp] theorem setAin_quires (d : Dev) (i : Nat) (x : AinSt) : (d.setAin i x).quires = d.quires := rfl
@[simp] theorem setAin_cells (d : Dev) (i : Nat) (x : AinSt) : (d.setAin i x).cells = d.cells := rfl
@[simp] theorem setAin_regions (d : Dev) (i : Nat) (x : AinSt) : (d.setAin i x).regions = d.regions := rfl
@[simp] theorem setAin_groups (d : Dev) (i : Nat) (x : AinSt) : (d.setAin i x).groups = d.groups := rfl
@[simp] theorem setAin_adq (d : Dev) (i : Nat) (x : AinSt) : (d.setAin i x).adq = d.adq := rfl
@[simp] theorem setAin_tw (d : Dev) (i : Nat) (x : AinSt) : (d.setAin i x).tw = d.tw := rfl
@[simp] theorem setAin_su (d : Dev) (i : Nat) (x : AinSt) : (d.setAin i x).su = d.su := rfl

/-! `Dev.onAin` -/

@[simp] theorem onAin_released (d : Dev) (i : Nat) (h : AinSt → AinSt) : (d.onAin i h).released = d.released := rfl
@[simp] theorem onAin_cyc (d : Dev) (i : Nat) (h : AinSt → AinSt) : (d.onAin i h).cyc = d.cyc := rfl
@[simp] theorem onAin_regs (d : Dev) (i : Nat) (h : AinSt → AinSt) : (d.onAin i h).regs = d.regs := rfl
@[simp] theorem onAin_telem (d : Dev) (i : Nat) (h : AinSt → AinSt) : (d.onAin i h).telem = d.telem := rfl
@[simp] theorem onAin_snaps (d : Dev) (i : Nat) (h : AinSt → AinSt) : (d.onAin i h).snaps = d.snaps := rfl
@[simp] theorem onAin_sent (d : Dev) (i : Nat) (h : AinSt → AinSt) : (d.onAin i h).sent = d.sent := rfl
@[simp] theorem onAin_tm (d : Dev) (i : Nat) (h : AinSt → AinSt) : (d.onAin i h).tm = d.tm := rfl
@[simp] theorem onAin_fc (d : Dev) (i : Nat) (h : AinSt → AinSt) : (d.onAin i h).fc = d.fc := rfl
@[simp] theorem onAin_dr (d : Dev) (i : Nat) (h : AinSt → AinSt) : (d.onAin i h).dr = d.dr := rfl
@[simp] theorem onAin_sf (d : Dev) (i : Nat) (h : AinSt → AinSt) : (d.onAin i h).sf = d.sf := rfl
@[simp] theorem onAin_nt (d : Dev) (i : Nat) (h : AinSt → AinSt) : (d.onAin i h).nt = d.nt := rfl
@[simp] theorem onAin_fb (d : Dev) (i : Nat) (h : AinSt → AinSt) : (d.onAin i h).fb = d.fb := rfl
@[simp] theorem onAin_jtag (d : Dev) (i : Nat) (h : AinSt → AinSt) : (d.onAin i h).jtag = d.jtag := rfl
@[simp] theorem onAin_lanes (d : Dev) (i : Nat) (h : AinSt → AinSt) : (d.onAin i h).lanes = d.lanes := rfl
@[simp] theorem onAin_quires (d : Dev) (i : Nat) (h : AinSt → AinSt) : (d.onAin i h).quires = d.quires := rfl
@[simp] theorem onAin_cells (d : Dev) (i : Nat) (h : AinSt → AinSt) : (d.onAin i h).cells = d.cells := rfl
@[simp] theorem onAin_regions (d : Dev) (i : Nat) (h : AinSt → AinSt) : (d.onAin i h).regions = d.regions := rfl
@[simp] theorem onAin_groups (d : Dev) (i : Nat) (h : AinSt → AinSt) : (d.onAin i h).groups = d.groups := rfl
@[simp] theorem onAin_adq (d : Dev) (i : Nat) (h : AinSt → AinSt) : (d.onAin i h).adq = d.adq := rfl
@[simp] theorem onAin_tw (d : Dev) (i : Nat) (h : AinSt → AinSt) : (d.onAin i h).tw = d.tw := rfl
@[simp] theorem onAin_su (d : Dev) (i : Nat) (h : AinSt → AinSt) : (d.onAin i h).su = d.su := rfl

/-! `Dev.setGroup` -/

@[simp] theorem setGroup_released (d : Dev) (i : Nat) (x : AdGrp) : (d.setGroup i x).released = d.released := rfl
@[simp] theorem setGroup_cyc (d : Dev) (i : Nat) (x : AdGrp) : (d.setGroup i x).cyc = d.cyc := rfl
@[simp] theorem setGroup_regs (d : Dev) (i : Nat) (x : AdGrp) : (d.setGroup i x).regs = d.regs := rfl
@[simp] theorem setGroup_telem (d : Dev) (i : Nat) (x : AdGrp) : (d.setGroup i x).telem = d.telem := rfl
@[simp] theorem setGroup_snaps (d : Dev) (i : Nat) (x : AdGrp) : (d.setGroup i x).snaps = d.snaps := rfl
@[simp] theorem setGroup_sent (d : Dev) (i : Nat) (x : AdGrp) : (d.setGroup i x).sent = d.sent := rfl
@[simp] theorem setGroup_tm (d : Dev) (i : Nat) (x : AdGrp) : (d.setGroup i x).tm = d.tm := rfl
@[simp] theorem setGroup_fc (d : Dev) (i : Nat) (x : AdGrp) : (d.setGroup i x).fc = d.fc := rfl
@[simp] theorem setGroup_dr (d : Dev) (i : Nat) (x : AdGrp) : (d.setGroup i x).dr = d.dr := rfl
@[simp] theorem setGroup_sf (d : Dev) (i : Nat) (x : AdGrp) : (d.setGroup i x).sf = d.sf := rfl
@[simp] theorem setGroup_nt (d : Dev) (i : Nat) (x : AdGrp) : (d.setGroup i x).nt = d.nt := rfl
@[simp] theorem setGroup_fb (d : Dev) (i : Nat) (x : AdGrp) : (d.setGroup i x).fb = d.fb := rfl
@[simp] theorem setGroup_jtag (d : Dev) (i : Nat) (x : AdGrp) : (d.setGroup i x).jtag = d.jtag := rfl
@[simp] theorem setGroup_lanes (d : Dev) (i : Nat) (x : AdGrp) : (d.setGroup i x).lanes = d.lanes := rfl
@[simp] theorem setGroup_quires (d : Dev) (i : Nat) (x : AdGrp) : (d.setGroup i x).quires = d.quires := rfl
@[simp] theorem setGroup_cells (d : Dev) (i : Nat) (x : AdGrp) : (d.setGroup i x).cells = d.cells := rfl
@[simp] theorem setGroup_regions (d : Dev) (i : Nat) (x : AdGrp) : (d.setGroup i x).regions = d.regions := rfl
@[simp] theorem setGroup_ains (d : Dev) (i : Nat) (x : AdGrp) : (d.setGroup i x).ains = d.ains := rfl
@[simp] theorem setGroup_adq (d : Dev) (i : Nat) (x : AdGrp) : (d.setGroup i x).adq = d.adq := rfl
@[simp] theorem setGroup_tw (d : Dev) (i : Nat) (x : AdGrp) : (d.setGroup i x).tw = d.tw := rfl
@[simp] theorem setGroup_su (d : Dev) (i : Nat) (x : AdGrp) : (d.setGroup i x).su = d.su := rfl

/-! `Dev.onGroup` -/

@[simp] theorem onGroup_released (d : Dev) (i : Nat) (h : AdGrp → AdGrp) : (d.onGroup i h).released = d.released := rfl
@[simp] theorem onGroup_cyc (d : Dev) (i : Nat) (h : AdGrp → AdGrp) : (d.onGroup i h).cyc = d.cyc := rfl
@[simp] theorem onGroup_regs (d : Dev) (i : Nat) (h : AdGrp → AdGrp) : (d.onGroup i h).regs = d.regs := rfl
@[simp] theorem onGroup_telem (d : Dev) (i : Nat) (h : AdGrp → AdGrp) : (d.onGroup i h).telem = d.telem := rfl
@[simp] theorem onGroup_snaps (d : Dev) (i : Nat) (h : AdGrp → AdGrp) : (d.onGroup i h).snaps = d.snaps := rfl
@[simp] theorem onGroup_sent (d : Dev) (i : Nat) (h : AdGrp → AdGrp) : (d.onGroup i h).sent = d.sent := rfl
@[simp] theorem onGroup_tm (d : Dev) (i : Nat) (h : AdGrp → AdGrp) : (d.onGroup i h).tm = d.tm := rfl
@[simp] theorem onGroup_fc (d : Dev) (i : Nat) (h : AdGrp → AdGrp) : (d.onGroup i h).fc = d.fc := rfl
@[simp] theorem onGroup_dr (d : Dev) (i : Nat) (h : AdGrp → AdGrp) : (d.onGroup i h).dr = d.dr := rfl
@[simp] theorem onGroup_sf (d : Dev) (i : Nat) (h : AdGrp → AdGrp) : (d.onGroup i h).sf = d.sf := rfl
@[simp] theorem onGroup_nt (d : Dev) (i : Nat) (h : AdGrp → AdGrp) : (d.onGroup i h).nt = d.nt := rfl
@[simp] theorem onGroup_fb (d : Dev) (i : Nat) (h : AdGrp → AdGrp) : (d.onGroup i h).fb = d.fb := rfl
@[simp] theorem onGroup_jtag (d : Dev) (i : Nat) (h : AdGrp → AdGrp) : (d.onGroup i h).jtag = d.jtag := rfl
@[simp] theorem onGroup_lanes (d : Dev) (i : Nat) (h : AdGrp → AdGrp) : (d.onGroup i h).lanes = d.lanes := rfl
@[simp] theorem onGroup_quires (d : Dev) (i : Nat) (h : AdGrp → AdGrp) : (d.onGroup i h).quires = d.quires := rfl
@[simp] theorem onGroup_cells (d : Dev) (i : Nat) (h : AdGrp → AdGrp) : (d.onGroup i h).cells = d.cells := rfl
@[simp] theorem onGroup_regions (d : Dev) (i : Nat) (h : AdGrp → AdGrp) : (d.onGroup i h).regions = d.regions := rfl
@[simp] theorem onGroup_ains (d : Dev) (i : Nat) (h : AdGrp → AdGrp) : (d.onGroup i h).ains = d.ains := rfl
@[simp] theorem onGroup_adq (d : Dev) (i : Nat) (h : AdGrp → AdGrp) : (d.onGroup i h).adq = d.adq := rfl
@[simp] theorem onGroup_tw (d : Dev) (i : Nat) (h : AdGrp → AdGrp) : (d.onGroup i h).tw = d.tw := rfl
@[simp] theorem onGroup_su (d : Dev) (i : Nat) (h : AdGrp → AdGrp) : (d.onGroup i h).su = d.su := rfl

end Sys2Proof.Machine
end

