-- ==== Sys2Proof/Laws/Units.lean ====
section
/-! SUPPORT. Units of the device: reading one after one has been replaced, and registers, which no unit touches. -/

namespace Sys2Proof.Machine

/-- A lane after a lane has been replaced. -/
theorem lane_setLane (d : Dev) (i j : Nat) (x : LaneSt) : (d.setLane i x).lane j = if i = j then x else d.lane j := by
  simp [Dev.lane, Dev.setLane, smGet_smSet]

@[simp] theorem lane_onLane_same (d : Dev) (i : Nat) (f : LaneSt → LaneSt) : (d.onLane i f).lane i = f (d.lane i) := by
  simp [Dev.onLane, lane_setLane]

theorem lane_onLane_ne (d : Dev) (i j : Nat) (f : LaneSt → LaneSt) (h : i ≠ j) : (d.onLane i f).lane j = d.lane j := by
  simp [Dev.onLane, lane_setLane, h]

@[simp] theorem word_setLane (d : Dev) (i : Nat) (x : LaneSt) (a : Nat) : (d.setLane i x).word a = d.word a := rfl
@[simp] theorem word_onLane (d : Dev) (i : Nat) (f : LaneSt → LaneSt) (a : Nat) : (d.onLane i f).word a = d.word a := rfl
@[simp] theorem get_onLane (d : Dev) (i : Nat) (f : LaneSt → LaneSt) (x : Fld) : (d.onLane i f).get x = d.get x := rfl

/-- A quire after a quire has been replaced. -/
theorem quire_setQuire (d : Dev) (i j : Nat) (x : QuireSt) : (d.setQuire i x).quire j = if i = j then x else d.quire j := by
  simp [Dev.quire, Dev.setQuire, smGet_smSet]

@[simp] theorem quire_onQuire_same (d : Dev) (i : Nat) (f : QuireSt → QuireSt) : (d.onQuire i f).quire i = f (d.quire i) := by
  simp [Dev.onQuire, quire_setQuire]

theorem quire_onQuire_ne (d : Dev) (i j : Nat) (f : QuireSt → QuireSt) (h : i ≠ j) : (d.onQuire i f).quire j = d.quire j := by
  simp [Dev.onQuire, quire_setQuire, h]

@[simp] theorem word_setQuire (d : Dev) (i : Nat) (x : QuireSt) (a : Nat) : (d.setQuire i x).word a = d.word a := rfl
@[simp] theorem word_onQuire (d : Dev) (i : Nat) (f : QuireSt → QuireSt) (a : Nat) : (d.onQuire i f).word a = d.word a := rfl
@[simp] theorem get_onQuire (d : Dev) (i : Nat) (f : QuireSt → QuireSt) (x : Fld) : (d.onQuire i f).get x = d.get x := rfl

/-- A cell after a cell has been replaced. -/
theorem cell_setCell (d : Dev) (i j : Nat) (x : CellSt) : (d.setCell i x).cell j = if i = j then x else d.cell j := by
  simp [Dev.cell, Dev.setCell, smGet_smSet]

@[simp] theorem cell_onCell_same (d : Dev) (i : Nat) (f : CellSt → CellSt) : (d.onCell i f).cell i = f (d.cell i) := by
  simp [Dev.onCell, cell_setCell]

theorem cell_onCell_ne (d : Dev) (i j : Nat) (f : CellSt → CellSt) (h : i ≠ j) : (d.onCell i f).cell j = d.cell j := by
  simp [Dev.onCell, cell_setCell, h]

@[simp] theorem word_setCell (d : Dev) (i : Nat) (x : CellSt) (a : Nat) : (d.setCell i x).word a = d.word a := rfl
@[simp] theorem word_onCell (d : Dev) (i : Nat) (f : CellSt → CellSt) (a : Nat) : (d.onCell i f).word a = d.word a := rfl
@[simp] theorem get_onCell (d : Dev) (i : Nat) (f : CellSt → CellSt) (x : Fld) : (d.onCell i f).get x = d.get x := rfl

/-- A region after a region has been replaced. -/
theorem region_setRegionSt (d : Dev) (i j : Nat) (x : RegionSt) : (d.setRegionSt i x).region j = if i = j then x else d.region j := by
  simp [Dev.region, Dev.setRegionSt, smGet_smSet]

@[simp] theorem region_onRegion_same (d : Dev) (i : Nat) (f : RegionSt → RegionSt) : (d.onRegion i f).region i = f (d.region i) := by
  simp [Dev.onRegion, region_setRegionSt]

theorem region_onRegion_ne (d : Dev) (i j : Nat) (f : RegionSt → RegionSt) (h : i ≠ j) : (d.onRegion i f).region j = d.region j := by
  simp [Dev.onRegion, region_setRegionSt, h]

@[simp] theorem word_setRegionSt (d : Dev) (i : Nat) (x : RegionSt) (a : Nat) : (d.setRegionSt i x).word a = d.word a := rfl
@[simp] theorem word_onRegion (d : Dev) (i : Nat) (f : RegionSt → RegionSt) (a : Nat) : (d.onRegion i f).word a = d.word a := rfl
@[simp] theorem get_onRegion (d : Dev) (i : Nat) (f : RegionSt → RegionSt) (x : Fld) : (d.onRegion i f).get x = d.get x := rfl

/-- A ain after a ain has been replaced. -/
theorem ain_setAin (d : Dev) (i j : Nat) (x : AinSt) : (d.setAin i x).ain j = if i = j then x else d.ain j := by
  simp [Dev.ain, Dev.setAin, smGet_smSet]

@[simp] theorem ain_onAin_same (d : Dev) (i : Nat) (f : AinSt → AinSt) : (d.onAin i f).ain i = f (d.ain i) := by
  simp [Dev.onAin, ain_setAin]

theorem ain_onAin_ne (d : Dev) (i j : Nat) (f : AinSt → AinSt) (h : i ≠ j) : (d.onAin i f).ain j = d.ain j := by
  simp [Dev.onAin, ain_setAin, h]

@[simp] theorem word_setAin (d : Dev) (i : Nat) (x : AinSt) (a : Nat) : (d.setAin i x).word a = d.word a := rfl
@[simp] theorem word_onAin (d : Dev) (i : Nat) (f : AinSt → AinSt) (a : Nat) : (d.onAin i f).word a = d.word a := rfl
@[simp] theorem get_onAin (d : Dev) (i : Nat) (f : AinSt → AinSt) (x : Fld) : (d.onAin i f).get x = d.get x := rfl

/-- A group after a group has been replaced. -/
theorem group_setGroup (d : Dev) (i j : Nat) (x : AdGrp) : (d.setGroup i x).group j = if i = j then x else d.group j := by
  simp [Dev.group, Dev.setGroup, smGet_smSet]

@[simp] theorem group_onGroup_same (d : Dev) (i : Nat) (f : AdGrp → AdGrp) : (d.onGroup i f).group i = f (d.group i) := by
  simp [Dev.onGroup, group_setGroup]

theorem group_onGroup_ne (d : Dev) (i j : Nat) (f : AdGrp → AdGrp) (h : i ≠ j) : (d.onGroup i f).group j = d.group j := by
  simp [Dev.onGroup, group_setGroup, h]

@[simp] theorem word_setGroup (d : Dev) (i : Nat) (x : AdGrp) (a : Nat) : (d.setGroup i x).word a = d.word a := rfl
@[simp] theorem word_onGroup (d : Dev) (i : Nat) (f : AdGrp → AdGrp) (a : Nat) : (d.onGroup i f).word a = d.word a := rfl
@[simp] theorem get_onGroup (d : Dev) (i : Nat) (f : AdGrp → AdGrp) (x : Fld) : (d.onGroup i f).get x = d.get x := rfl

/-! A unit after an update elsewhere. -/

@[simp] theorem lane_setWord (d : Dev) (a : Nat) (w : Word) (i : Nat) : (d.setWord a w).lane i = d.lane i := rfl
@[simp] theorem lane_put (d : Dev) (f : Fld) (v : Nat) (i : Nat) : (d.put f v).lane i = d.lane i := rfl
@[simp] theorem lane_putB (d : Dev) (f : Fld) (b : Bool) (i : Nat) : (d.putB f b).lane i = d.lane i := rfl
@[simp] theorem lane_putBit (d : Dev) (f : Fld) (k : Nat) (b : Bool) (i : Nat) : (d.putBit f k b).lane i = d.lane i := rfl
@[simp] theorem lane_putS (d : Dev) (f : Fld) (x : Int) (i : Nat) : (d.putS f x).lane i = d.lane i := rfl
@[simp] theorem lane_bump (d : Dev) (f : Fld) (k : Nat) (i : Nat) : (d.bump f k).lane i = d.lane i := rfl
@[simp] theorem lane_send (d : Dev) (x : Sent) (i : Nat) : (d.send x).lane i = d.lane i := rfl
@[simp] theorem lane_onQuire (d : Dev) (k : Nat) (f : QuireSt → QuireSt) (i : Nat) : (d.onQuire k f).lane i = d.lane i := rfl
@[simp] theorem lane_onCell (d : Dev) (k : Nat) (f : CellSt → CellSt) (i : Nat) : (d.onCell k f).lane i = d.lane i := rfl
@[simp] theorem lane_onRegion (d : Dev) (k : Nat) (f : RegionSt → RegionSt) (i : Nat) : (d.onRegion k f).lane i = d.lane i := rfl
@[simp] theorem lane_onAin (d : Dev) (k : Nat) (f : AinSt → AinSt) (i : Nat) : (d.onAin k f).lane i = d.lane i := rfl
@[simp] theorem lane_onGroup (d : Dev) (k : Nat) (f : AdGrp → AdGrp) (i : Nat) : (d.onGroup k f).lane i = d.lane i := rfl
@[simp] theorem quire_setWord (d : Dev) (a : Nat) (w : Word) (i : Nat) : (d.setWord a w).quire i = d.quire i := rfl
@[simp] theorem quire_put (d : Dev) (f : Fld) (v : Nat) (i : Nat) : (d.put f v).quire i = d.quire i := rfl
@[simp] theorem quire_putB (d : Dev) (f : Fld) (b : Bool) (i : Nat) : (d.putB f b).quire i = d.quire i := rfl
@[simp] theorem quire_putBit (d : Dev) (f : Fld) (k : Nat) (b : Bool) (i : Nat) : (d.putBit f k b).quire i = d.quire i := rfl
@[simp] theorem quire_putS (d : Dev) (f : Fld) (x : Int) (i : Nat) : (d.putS f x).quire i = d.quire i := rfl
@[simp] theorem quire_bump (d : Dev) (f : Fld) (k : Nat) (i : Nat) : (d.bump f k).quire i = d.quire i := rfl
@[simp] theorem quire_send (d : Dev) (x : Sent) (i : Nat) : (d.send x).quire i = d.quire i := rfl
@[simp] theorem quire_onLane (d : Dev) (k : Nat) (f : LaneSt → LaneSt) (i : Nat) : (d.onLane k f).quire i = d.quire i := rfl
@[simp] theorem quire_onCell (d : Dev) (k : Nat) (f : CellSt → CellSt) (i : Nat) : (d.onCell k f).quire i = d.quire i := rfl
@[simp] theorem quire_onRegion (d : Dev) (k : Nat) (f : RegionSt → RegionSt) (i : Nat) : (d.onRegion k f).quire i = d.quire i := rfl
@[simp] theorem quire_onAin (d : Dev) (k : Nat) (f : AinSt → AinSt) (i : Nat) : (d.onAin k f).quire i = d.quire i := rfl
@[simp] theorem quire_onGroup (d : Dev) (k : Nat) (f : AdGrp → AdGrp) (i : Nat) : (d.onGroup k f).quire i = d.quire i := rfl
@[simp] theorem cell_setWord (d : Dev) (a : Nat) (w : Word) (i : Nat) : (d.setWord a w).cell i = d.cell i := rfl
@[simp] theorem cell_put (d : Dev) (f : Fld) (v : Nat) (i : Nat) : (d.put f v).cell i = d.cell i := rfl
@[simp] theorem cell_putB (d : Dev) (f : Fld) (b : Bool) (i : Nat) : (d.putB f b).cell i = d.cell i := rfl
@[simp] theorem cell_putBit (d : Dev) (f : Fld) (k : Nat) (b : Bool) (i : Nat) : (d.putBit f k b).cell i = d.cell i := rfl
@[simp] theorem cell_putS (d : Dev) (f : Fld) (x : Int) (i : Nat) : (d.putS f x).cell i = d.cell i := rfl
@[simp] theorem cell_bump (d : Dev) (f : Fld) (k : Nat) (i : Nat) : (d.bump f k).cell i = d.cell i := rfl
@[simp] theorem cell_send (d : Dev) (x : Sent) (i : Nat) : (d.send x).cell i = d.cell i := rfl
@[simp] theorem cell_onLane (d : Dev) (k : Nat) (f : LaneSt → LaneSt) (i : Nat) : (d.onLane k f).cell i = d.cell i := rfl
@[simp] theorem cell_onQuire (d : Dev) (k : Nat) (f : QuireSt → QuireSt) (i : Nat) : (d.onQuire k f).cell i = d.cell i := rfl
@[simp] theorem cell_onRegion (d : Dev) (k : Nat) (f : RegionSt → RegionSt) (i : Nat) : (d.onRegion k f).cell i = d.cell i := rfl
@[simp] theorem cell_onAin (d : Dev) (k : Nat) (f : AinSt → AinSt) (i : Nat) : (d.onAin k f).cell i = d.cell i := rfl
@[simp] theorem cell_onGroup (d : Dev) (k : Nat) (f : AdGrp → AdGrp) (i : Nat) : (d.onGroup k f).cell i = d.cell i := rfl
@[simp] theorem region_setWord (d : Dev) (a : Nat) (w : Word) (i : Nat) : (d.setWord a w).region i = d.region i := rfl
@[simp] theorem region_put (d : Dev) (f : Fld) (v : Nat) (i : Nat) : (d.put f v).region i = d.region i := rfl
@[simp] theorem region_putB (d : Dev) (f : Fld) (b : Bool) (i : Nat) : (d.putB f b).region i = d.region i := rfl
@[simp] theorem region_putBit (d : Dev) (f : Fld) (k : Nat) (b : Bool) (i : Nat) : (d.putBit f k b).region i = d.region i := rfl
@[simp] theorem region_putS (d : Dev) (f : Fld) (x : Int) (i : Nat) : (d.putS f x).region i = d.region i := rfl
@[simp] theorem region_bump (d : Dev) (f : Fld) (k : Nat) (i : Nat) : (d.bump f k).region i = d.region i := rfl
@[simp] theorem region_send (d : Dev) (x : Sent) (i : Nat) : (d.send x).region i = d.region i := rfl
@[simp] theorem region_onLane (d : Dev) (k : Nat) (f : LaneSt → LaneSt) (i : Nat) : (d.onLane k f).region i = d.region i := rfl
@[simp] theorem region_onQuire (d : Dev) (k : Nat) (f : QuireSt → QuireSt) (i : Nat) : (d.onQuire k f).region i = d.region i := rfl
@[simp] theorem region_onCell (d : Dev) (k : Nat) (f : CellSt → CellSt) (i : Nat) : (d.onCell k f).region i = d.region i := rfl
@[simp] theorem region_onAin (d : Dev) (k : Nat) (f : AinSt → AinSt) (i : Nat) : (d.onAin k f).region i = d.region i := rfl
@[simp] theorem region_onGroup (d : Dev) (k : Nat) (f : AdGrp → AdGrp) (i : Nat) : (d.onGroup k f).region i = d.region i := rfl
@[simp] theorem ain_setWord (d : Dev) (a : Nat) (w : Word) (i : Nat) : (d.setWord a w).ain i = d.ain i := rfl
@[simp] theorem ain_put (d : Dev) (f : Fld) (v : Nat) (i : Nat) : (d.put f v).ain i = d.ain i := rfl
@[simp] theorem ain_putB (d : Dev) (f : Fld) (b : Bool) (i : Nat) : (d.putB f b).ain i = d.ain i := rfl
@[simp] theorem ain_putBit (d : Dev) (f : Fld) (k : Nat) (b : Bool) (i : Nat) : (d.putBit f k b).ain i = d.ain i := rfl
@[simp] theorem ain_putS (d : Dev) (f : Fld) (x : Int) (i : Nat) : (d.putS f x).ain i = d.ain i := rfl
@[simp] theorem ain_bump (d : Dev) (f : Fld) (k : Nat) (i : Nat) : (d.bump f k).ain i = d.ain i := rfl
@[simp] theorem ain_send (d : Dev) (x : Sent) (i : Nat) : (d.send x).ain i = d.ain i := rfl
@[simp] theorem ain_onLane (d : Dev) (k : Nat) (f : LaneSt → LaneSt) (i : Nat) : (d.onLane k f).ain i = d.ain i := rfl
@[simp] theorem ain_onQuire (d : Dev) (k : Nat) (f : QuireSt → QuireSt) (i : Nat) : (d.onQuire k f).ain i = d.ain i := rfl
@[simp] theorem ain_onCell (d : Dev) (k : Nat) (f : CellSt → CellSt) (i : Nat) : (d.onCell k f).ain i = d.ain i := rfl
@[simp] theorem ain_onRegion (d : Dev) (k : Nat) (f : RegionSt → RegionSt) (i : Nat) : (d.onRegion k f).ain i = d.ain i := rfl
@[simp] theorem ain_onGroup (d : Dev) (k : Nat) (f : AdGrp → AdGrp) (i : Nat) : (d.onGroup k f).ain i = d.ain i := rfl
@[simp] theorem group_setWord (d : Dev) (a : Nat) (w : Word) (i : Nat) : (d.setWord a w).group i = d.group i := rfl
@[simp] theorem group_put (d : Dev) (f : Fld) (v : Nat) (i : Nat) : (d.put f v).group i = d.group i := rfl
@[simp] theorem group_putB (d : Dev) (f : Fld) (b : Bool) (i : Nat) : (d.putB f b).group i = d.group i := rfl
@[simp] theorem group_putBit (d : Dev) (f : Fld) (k : Nat) (b : Bool) (i : Nat) : (d.putBit f k b).group i = d.group i := rfl
@[simp] theorem group_putS (d : Dev) (f : Fld) (x : Int) (i : Nat) : (d.putS f x).group i = d.group i := rfl
@[simp] theorem group_bump (d : Dev) (f : Fld) (k : Nat) (i : Nat) : (d.bump f k).group i = d.group i := rfl
@[simp] theorem group_send (d : Dev) (x : Sent) (i : Nat) : (d.send x).group i = d.group i := rfl
@[simp] theorem group_onLane (d : Dev) (k : Nat) (f : LaneSt → LaneSt) (i : Nat) : (d.onLane k f).group i = d.group i := rfl
@[simp] theorem group_onQuire (d : Dev) (k : Nat) (f : QuireSt → QuireSt) (i : Nat) : (d.onQuire k f).group i = d.group i := rfl
@[simp] theorem group_onCell (d : Dev) (k : Nat) (f : CellSt → CellSt) (i : Nat) : (d.onCell k f).group i = d.group i := rfl
@[simp] theorem group_onRegion (d : Dev) (k : Nat) (f : RegionSt → RegionSt) (i : Nat) : (d.onRegion k f).group i = d.group i := rfl
@[simp] theorem group_onAin (d : Dev) (k : Nat) (f : AinSt → AinSt) (i : Nat) : (d.onAin k f).group i = d.group i := rfl

end Sys2Proof.Machine
end

