-- ==== Sys2Proof/Laws/Stop.lean ====
section
/-! SUPPORT. What ends every step: `settle` after a step that raised no STOP source changes the trip outputs at most, and a
device in STOP stays in STOP. -/

namespace Sys2Proof.Machine

/-- One step of a loop over 0 to 1 keeps what each pass keeps. -/
theorem foldN_two {α : Type} (f : α → Nat → α) (x : α) : foldN 2 f x = f (f x 0) 1 := rfl

/-- The release of trip outputs changes FC_TRIPSTAT only: nothing but the registers. -/
theorem tripOutRelease_eq (d : Dev) : tripOutRelease d = { d with regs := (tripOutRelease d).regs } := by
  simp only [tripOutRelease, foldN_two]
  split <;> split <;> rfl

/-- The release of trip outputs changes no register but FC_TRIPSTAT. -/
theorem tripOutRelease_word (d : Dev) (a : Nat) (h : a ≠ FC_TRIPSTAT_TOUT.addr) : (tripOutRelease d).word a = d.word a := by
  have key : ∀ (d : Dev) (x : Nat), (if d.bit FC_TRIPSTAT_TOUT x ∧ ¬ tripOutOk x d
      then d.putBit FC_TRIPSTAT_TOUT x false else d).word a = d.word a := by
    intro d x
    split
    · exact word_put_ne d _ _ _ h.symm
    · rfl
  simp only [tripOutRelease, foldN_two, key]

/-- Releasing trip outputs leaves the mode. -/
@[simp] theorem tripOutRelease_mode (d : Dev) : (tripOutRelease d).mode = d.mode := by
  simp only [Dev.mode]
  exact get_congr _ _ _ (tripOutRelease_word d _ (by decide))

/-- A step outside STOP that raises no STOP source: the trip outputs are all that settles. -/
theorem settle_calm (b a : Dev) (hb : b.mode ≠ modeSTOP) (ha : a.mode ≠ modeSTOP) (hq : a.fc.stopReq = false) :
    settle b a = tripOutRelease a := by
  simp [settle, hb, ha, hq]

/-- The mode after a step is settled is STOP if it was, or if a STOP source has set. -/
theorem settle_stop (b a : Dev) (h : b.mode = modeSTOP ∨ a.fc.stopReq = true ∨ a.mode = modeSTOP) :
    (settle b a).mode = modeSTOP := by
  have : b.mode = modeSTOP ∨ a.fc.stopReq = true ∨ a.mode = modeSTOP := h
  simp only [settle]
  rw [if_pos (by simpa using this)]
  exact get_put_same _ GL_MODE_MODE _ (by decide)

/-- After a step is settled no STOP source waits. -/
theorem settle_stopReq (b a : Dev) : (settle b a).fc.stopReq = false := by
  simp only [settle]
  split
  · rfl
  · rename_i h
    simp only [not_or] at h
    obtain ⟨-, h, h'⟩ := h
    rw [tripOutRelease_eq]
    simp [h]

end Sys2Proof.Machine
end

