-- ==== Sys2Proof/Laws/Quiet.lean ====
section
/-! SUPPORT. Operations that neither change the mode nor set a STOP source: `Quiet`, and how a command of a device that is awake
is read when its effect is quiet. -/

namespace Sys2Proof.Machine

/-- The mode, and whether a STOP source waits, are as before. -/
def Quiet (d e : Dev) : Prop := e.mode = d.mode ∧ e.fc.stopReq = d.fc.stopReq ∧ e.released = d.released

theorem quiet_refl (d : Dev) : Quiet d d := ⟨rfl, rfl, rfl⟩

theorem quiet_trans {d e f : Dev} (h : Quiet d e) (k : Quiet e f) : Quiet d f :=
  ⟨k.1.trans h.1, k.2.1.trans h.2.1, k.2.2.trans h.2.2⟩

/-- A step that keeps the register words, the waiting STOP source and the release. -/
theorem quiet_of_word {d e f : Dev} (h : Quiet d e) (hw : f.word GL_MODE = e.word GL_MODE)
    (hq : f.fc.stopReq = e.fc.stopReq) (hr : f.released = e.released) : Quiet d f :=
  quiet_trans h ⟨get_congr _ _ _ hw, hq, hr⟩

theorem quiet_ite {d a b : Dev} {p : Prop} [Decidable p] (ha : Quiet d a) (hb : Quiet d b) :
    Quiet d (if p then a else b) := by
  split <;> assumption

theorem quiet_put {d e : Dev} (f : Fld) (v : Nat) (h : Quiet d e) (hf : f.addr ≠ GL_MODE) :
    Quiet d (e.put f v) := quiet_of_word h (word_put_ne _ _ _ _ hf) rfl rfl

theorem quiet_putB {d e : Dev} (f : Fld) (b : Bool) (h : Quiet d e) (hf : f.addr ≠ GL_MODE) :
    Quiet d (e.putB f b) := quiet_of_word h (word_put_ne _ _ _ _ hf) rfl rfl

theorem quiet_putBit {d e : Dev} (f : Fld) (i : Nat) (b : Bool) (h : Quiet d e) (hf : f.addr ≠ GL_MODE) :
    Quiet d (e.putBit f i b) := quiet_of_word h (word_put_ne _ _ _ _ hf) rfl rfl

theorem quiet_putS {d e : Dev} (f : Fld) (x : Int) (h : Quiet d e) (hf : f.addr ≠ GL_MODE) :
    Quiet d (e.putS f x) := quiet_of_word h (word_put_ne _ _ _ _ hf) rfl rfl

theorem quiet_bump {d e : Dev} (f : Fld) (k : Nat) (h : Quiet d e) (hf : f.addr ≠ GL_MODE) :
    Quiet d (e.bump f k) := quiet_of_word h (word_put_ne _ _ _ _ hf) rfl rfl

theorem quiet_count {d e : Dev} (f : Fld) (k : Nat) (h : Quiet d e) (hf : f.addr ≠ GL_MODE) :
    Quiet d (e.count f k) := quiet_of_word h (word_put_ne _ _ _ _ hf) rfl rfl

theorem quiet_setWord {d e : Dev} (a : Nat) (w : Word) (h : Quiet d e) (hf : a ≠ GL_MODE) :
    Quiet d (e.setWord a w) := quiet_of_word h (word_setWord_ne _ _ _ _ hf) rfl rfl

theorem quiet_send {d e : Dev} (x : Sent) (h : Quiet d e) :
    Quiet d (e.send x) := quiet_of_word h rfl rfl rfl

theorem quiet_setPoint {d e : Dev} (k : Nat) (w : Word) (h : Quiet d e) :
    Quiet d (e.setPoint k w) := quiet_of_word h rfl rfl rfl

theorem quiet_onLane {d e : Dev} (i : Nat) (g : LaneSt → LaneSt) (h : Quiet d e) :
    Quiet d (e.onLane i g) := quiet_of_word h rfl rfl rfl

theorem quiet_setLane {d e : Dev} (i : Nat) (x : LaneSt) (h : Quiet d e) :
    Quiet d (e.setLane i x) := quiet_of_word h rfl rfl rfl

theorem quiet_onQuire {d e : Dev} (i : Nat) (g : QuireSt → QuireSt) (h : Quiet d e) :
    Quiet d (e.onQuire i g) := quiet_of_word h rfl rfl rfl

theorem quiet_setQuire {d e : Dev} (i : Nat) (x : QuireSt) (h : Quiet d e) :
    Quiet d (e.setQuire i x) := quiet_of_word h rfl rfl rfl

theorem quiet_onCell {d e : Dev} (i : Nat) (g : CellSt → CellSt) (h : Quiet d e) :
    Quiet d (e.onCell i g) := quiet_of_word h rfl rfl rfl

theorem quiet_setCell {d e : Dev} (i : Nat) (x : CellSt) (h : Quiet d e) :
    Quiet d (e.setCell i x) := quiet_of_word h rfl rfl rfl

theorem quiet_onRegion {d e : Dev} (i : Nat) (g : RegionSt → RegionSt) (h : Quiet d e) :
    Quiet d (e.onRegion i g) := quiet_of_word h rfl rfl rfl

theorem quiet_setRegionSt {d e : Dev} (i : Nat) (x : RegionSt) (h : Quiet d e) :
    Quiet d (e.setRegionSt i x) := quiet_of_word h rfl rfl rfl

theorem quiet_onAin {d e : Dev} (i : Nat) (g : AinSt → AinSt) (h : Quiet d e) :
    Quiet d (e.onAin i g) := quiet_of_word h rfl rfl rfl

theorem quiet_setAin {d e : Dev} (i : Nat) (x : AinSt) (h : Quiet d e) :
    Quiet d (e.setAin i x) := quiet_of_word h rfl rfl rfl

theorem quiet_onGroup {d e : Dev} (i : Nat) (g : AdGrp → AdGrp) (h : Quiet d e) :
    Quiet d (e.onGroup i g) := quiet_of_word h rfl rfl rfl

theorem quiet_setGroup {d e : Dev} (i : Nat) (x : AdGrp) (h : Quiet d e) :
    Quiet d (e.setGroup i x) := quiet_of_word h rfl rfl rfl

/-- Slew changes TM_STAT and no other word. -/
theorem slewTaken_word (x : Int) (d : Dev) (a : Nat) (h : a ≠ TM_STAT) : (slewTaken x d).word a = d.word a := by
  unfold slewTaken; split
  · rfl
  · exact word_put_ne _ _ _ _ (fun k => h k.symm)

/-- Phase steps change PL_SCTL and no other word. -/
theorem stepsPass_word (n : Nat) (d : Dev) (a : Nat) (h : a ≠ PL_SCTL) : (stepsPass n d).word a = d.word a := by
  unfold stepsPass; dsimp only; split
  · rfl
  · exact word_put_ne _ _ _ _ (fun k => h k.symm)

/-- A word is a matter of the register words alone. -/
theorem word_of_regs (d e : Dev) (x : TimeSt) (a : Nat) : ({ d with tm := x, regs := e.regs } : Dev).word a = e.word a := rfl

theorem word_of_tm (d : Dev) (x : TimeSt) (a : Nat) : ({ d with tm := x } : Dev).word a = d.word a := rfl

/-- Alignment steps change PL_TCTL and no other word. -/
theorem alignShow_word (k : Int) (d : Dev) (a : Nat) (h : a ≠ PL_TCTL) : (alignShow k d).word a = d.word a := by
  unfold alignShow; split
  · rfl
  · exact word_put_ne _ _ _ _ (fun k => h k.symm)

/-- A run of ticks at one rate changes TM_STAT and PL_TCTL and no other word. -/
theorem ticksRun_word (n : Nat) (x : Int) (d : Dev) (a : Nat) (h : a ≠ TM_STAT) (k : a ≠ PL_TCTL) :
    (ticksRun n x d).word a = d.word a := by
  unfold ticksRun; dsimp only
  rw [alignShow_word _ _ _ k, word_of_tm (slewTaken x d), slewTaken_word _ _ a h]

/-- Time that moves on changes no other word. -/
theorem ticksPass_word (t : Nat) (d : Dev) (a : Nat) (h : ¬ timeRegs a) : (ticksPass t d).word a = d.word a := by
  simp only [timeRegs, not_or] at h
  unfold ticksPass; split
  · rfl
  · dsimp only
    rw [ticksRun_word _ _ _ a h.1 h.2.1, ticksRun_word _ _ _ a h.1 h.2.1, ticksRun_word _ _ _ a h.1 h.2.1, stepsPass_word _ _ a h.2.2]

theorem until_word (d : Dev) (t a : Nat) (h : ¬ timeRegs a) : (d.until_ t).word a = d.word a :=
  (word_of_regs d (ticksPass t d) (ticksPass t d).tm a).trans (ticksPass_word t d a h)

theorem quiet_until_ {d e : Dev} (t : Nat) (h : Quiet d e) : Quiet d (e.until_ t) :=
  quiet_of_word h (until_word _ _ _ (by simp [timeRegs, GL_MODE, TM_STAT, PL_TCTL, PL_SCTL])) rfl rfl

theorem quiet_at_ {d e : Dev} (t : Nat) (h : Quiet d e) : Quiet d (e.at_ t) := quiet_until_ _ h

theorem quiet_tel {d e : Dev} (n k v : Nat) (h : Quiet d e) : Quiet d (e.tel n k v) := by
  unfold Dev.tel; split
  · exact h
  · exact quiet_setPoint _ _ h

theorem quiet_telS {d e : Dev} (n k : Nat) (x : Int) (h : Quiet d e) : Quiet d (e.telS n k x) := quiet_tel _ _ _ h

theorem quiet_telCount {d e : Dev} (n k b : Nat) (h : Quiet d e) : Quiet d (e.telCount n k b) := quiet_tel _ _ _ h

theorem quiet_source {d e : Dev} (k : BitVec 4) (n key p : Nat) (l r : Bool) (h : Quiet d e) :
    Quiet d (e.source k n key p l r) := by
  unfold Dev.source; split
  · exact quiet_of_word h rfl rfl rfl
  · exact h

theorem quiet_flagEntry {d e : Dev} (n p : Nat) (h : Quiet d e) : Quiet d (e.flagEntry n p) := by
  unfold Dev.flagEntry; split
  · exact quiet_source _ _ _ _ _ _ h
  · exact h

theorem quiet_loseEvent {d e : Dev} (stamp : Nat) (new : Bool) (h : Quiet d e) : Quiet d (e.loseEvent stamp new) :=
  quiet_of_word (quiet_bump NT_CNT1_EVLOST 1 h (by decide)) rfl rfl rfl

theorem quiet_pushEvent {d e : Dev} (addr bit cls stamp : Nat) (h : Quiet d e) : Quiet d (e.pushEvent addr bit cls stamp) := by
  unfold Dev.pushEvent; split
  · exact h
  split
  · exact quiet_of_word h rfl rfl rfl
  · split
    · exact quiet_flagEntry _ _ (quiet_put _ _ (quiet_loseEvent _ _ h) (by decide))
    · exact quiet_loseEvent _ _ h

/-- The reaction of a class other than STOP. -/
theorem quiet_react {d e : Dev} (c : Cls) (h : Quiet d e) (hc : c ≠ .stop) : Quiet d (e.react c) := by
  cases c <;> simp only [Dev.react] <;> first | exact h | (split <;> [exact quiet_of_word h rfl rfl rfl; exact h]) | simp at hc

/-- A flag of a class other than STOP sets. -/
theorem quiet_raiseBit {d e : Dev} (f : Fld) (i : Nat) (c : Cls) (h : Quiet d e) (hf : f.addr ≠ GL_MODE) (hc : c ≠ .stop) :
    Quiet d (e.raiseBit f i c) := by
  unfold Dev.raiseBit; split
  · exact h
  · exact quiet_react _ (quiet_flagEntry _ _ (quiet_pushEvent _ _ _ _ (quiet_putBit _ _ _ h hf))) hc

theorem quiet_raise {d e : Dev} (f : Fld) (c : Cls) (h : Quiet d e) (hf : f.addr ≠ GL_MODE) (hc : c ≠ .stop) :
    Quiet d (e.raise f c) := quiet_raiseBit f 0 c h hf hc

/-- A refused write. -/
theorem quiet_refuse {d e : Dev} (o : Origin) (h : Quiet d e) : Quiet d (e.refuse o) := by
  cases o <;> simp only [Dev.refuse]
  · exact quiet_raise _ _ (quiet_bump _ _ h (by decide)) (by decide) (by decide)
  all_goals exact quiet_raise _ _ h (by decide) (by decide)

theorem quiet_foldl {α : Type} {d : Dev} (l : List α) (f : Dev → α → Dev) (hf : ∀ e i, Quiet d e → Quiet d (f e i)) :
    ∀ e, Quiet d e → Quiet d (l.foldl f e) := by
  induction l with
  | nil => intro e h; exact h
  | cons x l ih => intro e h; exact ih _ (hf _ _ h)

theorem quiet_foldN {d : Dev} (n : Nat) (f : Dev → Nat → Dev) (hf : ∀ e i, Quiet d e → Quiet d (f e i)) :
    ∀ e, Quiet d e → Quiet d (foldN n f e) := quiet_foldl _ f hf

/-! ## What a command answers -/

/-- A device that is awake, after a quiet effect is settled. -/
theorem settle_quiet {b a : Dev} (hb : b.mode ≠ modeSTOP) (hq : b.fc.stopReq = false) (q : Quiet b a) :
    settle b a = tripOutRelease a := settle_calm b a hb (by rw [q.1]; exact hb) (by rw [q.2.1]; exact hq)

/-- `within` with a quiet effect. -/
theorem within_quiet {f : Dev → Dev} {s : State} (h : s.awake) (q : Quiet s.dev (f s.dev)) :
    within f s = { s with dev := tripOutRelease (f s.dev) } := by
  simp [within, h.1, settle_quiet h.2.1 h.2.2 q]

/-- `running` with a quiet effect. -/
theorem running_quiet {f : Dev → Dev} {s : State} (h : s.awake) (q : Quiet s.dev (f s.dev)) :
    running f s = { s with dev := tripOutRelease (f s.dev) } := by
  simp [running, h.2.1, within_quiet h q]

/-- `whole` with a quiet effect. -/
theorem whole_quiet {f : State → State} {s : State} (h : s.awake) (q : Quiet s.dev (f s).dev) :
    whole f s = { f s with dev := tripOutRelease (f s).dev, pending := s.pending } := by
  simp [whole, h.1, settle_quiet h.2.1 h.2.2 q]

/-- `wholeRunning` with a quiet effect. -/
theorem wholeRunning_quiet {f : State → State} {s : State} (h : s.awake) (q : Quiet s.dev (f s).dev) :
    wholeRunning f s = { f s with dev := tripOutRelease (f s).dev, pending := s.pending } := by
  simp [wholeRunning, h.2.1, whole_quiet h q]

/-- A command that leaves the device out of STOP: the trip outputs are all that settles. -/
theorem settle_not_stop (b a : Dev) (h : (settle b a).mode ≠ modeSTOP) : settle b a = tripOutRelease a := by
  by_cases hs : b.mode = modeSTOP ∨ a.fc.stopReq = true ∨ a.mode = modeSTOP
  · exact absurd (settle_stop b a hs) h
  · simp only [not_or] at hs
    exact settle_calm b a hs.1 hs.2.2 (by simpa using hs.2.1)

/-! ## The parts that settling never touches -/

@[simp] theorem tripOutRelease_released (d : Dev) : (tripOutRelease d).released = d.released := by rw [tripOutRelease_eq]
@[simp] theorem tripOutRelease_cyc (d : Dev) : (tripOutRelease d).cyc = d.cyc := by rw [tripOutRelease_eq]
@[simp] theorem tripOutRelease_telem (d : Dev) : (tripOutRelease d).telem = d.telem := by rw [tripOutRelease_eq]
@[simp] theorem tripOutRelease_snaps (d : Dev) : (tripOutRelease d).snaps = d.snaps := by rw [tripOutRelease_eq]
@[simp] theorem tripOutRelease_sent (d : Dev) : (tripOutRelease d).sent = d.sent := by rw [tripOutRelease_eq]
@[simp] theorem tripOutRelease_tm (d : Dev) : (tripOutRelease d).tm = d.tm := by rw [tripOutRelease_eq]
@[simp] theorem tripOutRelease_fc (d : Dev) : (tripOutRelease d).fc = d.fc := by rw [tripOutRelease_eq]
@[simp] theorem tripOutRelease_dr (d : Dev) : (tripOutRelease d).dr = d.dr := by rw [tripOutRelease_eq]
@[simp] theorem tripOutRelease_sf (d : Dev) : (tripOutRelease d).sf = d.sf := by rw [tripOutRelease_eq]
@[simp] theorem tripOutRelease_nt (d : Dev) : (tripOutRelease d).nt = d.nt := by rw [tripOutRelease_eq]
@[simp] theorem tripOutRelease_fb (d : Dev) : (tripOutRelease d).fb = d.fb := by rw [tripOutRelease_eq]
@[simp] theorem tripOutRelease_jtag (d : Dev) : (tripOutRelease d).jtag = d.jtag := by rw [tripOutRelease_eq]
@[simp] theorem tripOutRelease_lanes (d : Dev) : (tripOutRelease d).lanes = d.lanes := by rw [tripOutRelease_eq]
@[simp] theorem tripOutRelease_quires (d : Dev) : (tripOutRelease d).quires = d.quires := by rw [tripOutRelease_eq]
@[simp] theorem tripOutRelease_cells (d : Dev) : (tripOutRelease d).cells = d.cells := by rw [tripOutRelease_eq]
@[simp] theorem tripOutRelease_regions (d : Dev) : (tripOutRelease d).regions = d.regions := by rw [tripOutRelease_eq]
@[simp] theorem tripOutRelease_ains (d : Dev) : (tripOutRelease d).ains = d.ains := by rw [tripOutRelease_eq]
@[simp] theorem tripOutRelease_groups (d : Dev) : (tripOutRelease d).groups = d.groups := by rw [tripOutRelease_eq]
@[simp] theorem tripOutRelease_adq (d : Dev) : (tripOutRelease d).adq = d.adq := by rw [tripOutRelease_eq]
@[simp] theorem tripOutRelease_tw (d : Dev) : (tripOutRelease d).tw = d.tw := by rw [tripOutRelease_eq]
@[simp] theorem tripOutRelease_su (d : Dev) : (tripOutRelease d).su = d.su := by rw [tripOutRelease_eq]
@[simp] theorem tripOutRelease_lane (d : Dev) (i : Nat) : (tripOutRelease d).lane i = d.lane i := by rw [tripOutRelease_eq]; rfl
@[simp] theorem tripOutRelease_quire (d : Dev) (i : Nat) : (tripOutRelease d).quire i = d.quire i := by rw [tripOutRelease_eq]; rfl
@[simp] theorem tripOutRelease_cell (d : Dev) (i : Nat) : (tripOutRelease d).cell i = d.cell i := by rw [tripOutRelease_eq]; rfl
@[simp] theorem tripOutRelease_region (d : Dev) (i : Nat) : (tripOutRelease d).region i = d.region i := by rw [tripOutRelease_eq]; rfl
@[simp] theorem tripOutRelease_ain (d : Dev) (i : Nat) : (tripOutRelease d).ain i = d.ain i := by rw [tripOutRelease_eq]; rfl
@[simp] theorem tripOutRelease_group (d : Dev) (i : Nat) : (tripOutRelease d).group i = d.group i := by rw [tripOutRelease_eq]; rfl

theorem tripOutRelease_get (d : Dev) (f : Fld) (h : f.addr ≠ FC_TRIPSTAT) : (tripOutRelease d).get f = d.get f :=
  get_congr _ _ _ (tripOutRelease_word d _ h)

theorem tripOutRelease_flag (d : Dev) (f : Fld) (h : f.addr ≠ FC_TRIPSTAT) : (tripOutRelease d).flag f = d.flag f := by
  simp only [Dev.flag, tripOutRelease_get d f h]

@[simp] theorem tripOutRelease_point (d : Dev) (k : Nat) : (tripOutRelease d).point k = d.point k := by rw [tripOutRelease_eq]; rfl

end Sys2Proof.Machine
end

