-- ==== Sys2Proof/Laws/Raise.lean ====
section
/-! SUPPORT. Setting a sticky flag: everything it can do. It changes the registers, the events and the recorder's entries, and
nothing else; the flag reads 1 afterwards, and no other field changes but the two of lost events. -/

namespace Sys2Proof.Machine

/-- A source entry changes the recorder only. -/
theorem source_eq (d : Dev) (k : BitVec 4) (n key p : Nat) (l r : Bool) :
    d.source k n key p l r = { d with dr := (d.source k n key p l r).dr } := by
  unfold Dev.source; split <;> rfl

/-- A flag that sets changes registers, events and the recorder only. -/
theorem raiseBit_eq (d : Dev) (f : Fld) (i : Nat) (c : Cls) :
    d.raiseBit f i c = { d with regs := (d.raiseBit f i c).regs, fc := (d.raiseBit f i c).fc, dr := (d.raiseBit f i c).dr } := by
  have hsrc : ∀ (d : Dev) (a b : Nat), d.flagEntry a b = { d with dr := (d.flagEntry a b).dr } := by
    intro d a b; unfold Dev.flagEntry; split
    · exact source_eq _ _ _ _ _ _ _
    · rfl
  have hpush : ∀ (d : Dev) (a b k t : Nat), d.pushEvent a b k t =
      { d with regs := (d.pushEvent a b k t).regs, fc := (d.pushEvent a b k t).fc, dr := (d.pushEvent a b k t).dr } := by
    intro d a b k t; unfold Dev.pushEvent; split
    · rfl
    split
    · rfl
    · split
      · unfold Dev.setEvovf; rw [hsrc]; rfl
      · rfl
  have hreact : ∀ d : Dev, d.react c = { d with fc := (d.react c).fc } := by
    intro d; cases c <;> simp only [Dev.react] <;> (try split) <;> rfl
  unfold Dev.raiseBit
  split
  · rfl
  · dsimp only; rw [hreact, hsrc, hpush]; rfl

@[simp] theorem raiseBit_released (d : Dev) (g : Fld) (i : Nat) (c : Cls) : (d.raiseBit g i c).released = d.released := by rw [raiseBit_eq]
@[simp] theorem raise_released (d : Dev) (g : Fld) (c : Cls) : (d.raise g c).released = d.released := raiseBit_released d g 0 c
@[simp] theorem raiseBit_cyc (d : Dev) (g : Fld) (i : Nat) (c : Cls) : (d.raiseBit g i c).cyc = d.cyc := by rw [raiseBit_eq]
@[simp] theorem raise_cyc (d : Dev) (g : Fld) (c : Cls) : (d.raise g c).cyc = d.cyc := raiseBit_cyc d g 0 c
@[simp] theorem raiseBit_telem (d : Dev) (g : Fld) (i : Nat) (c : Cls) : (d.raiseBit g i c).telem = d.telem := by rw [raiseBit_eq]
@[simp] theorem raise_telem (d : Dev) (g : Fld) (c : Cls) : (d.raise g c).telem = d.telem := raiseBit_telem d g 0 c
@[simp] theorem raiseBit_snaps (d : Dev) (g : Fld) (i : Nat) (c : Cls) : (d.raiseBit g i c).snaps = d.snaps := by rw [raiseBit_eq]
@[simp] theorem raise_snaps (d : Dev) (g : Fld) (c : Cls) : (d.raise g c).snaps = d.snaps := raiseBit_snaps d g 0 c
@[simp] theorem raiseBit_sent (d : Dev) (g : Fld) (i : Nat) (c : Cls) : (d.raiseBit g i c).sent = d.sent := by rw [raiseBit_eq]
@[simp] theorem raise_sent (d : Dev) (g : Fld) (c : Cls) : (d.raise g c).sent = d.sent := raiseBit_sent d g 0 c
@[simp] theorem raiseBit_tm (d : Dev) (g : Fld) (i : Nat) (c : Cls) : (d.raiseBit g i c).tm = d.tm := by rw [raiseBit_eq]
@[simp] theorem raise_tm (d : Dev) (g : Fld) (c : Cls) : (d.raise g c).tm = d.tm := raiseBit_tm d g 0 c
@[simp] theorem raiseBit_sf (d : Dev) (g : Fld) (i : Nat) (c : Cls) : (d.raiseBit g i c).sf = d.sf := by rw [raiseBit_eq]
@[simp] theorem raise_sf (d : Dev) (g : Fld) (c : Cls) : (d.raise g c).sf = d.sf := raiseBit_sf d g 0 c
@[simp] theorem raiseBit_nt (d : Dev) (g : Fld) (i : Nat) (c : Cls) : (d.raiseBit g i c).nt = d.nt := by rw [raiseBit_eq]
@[simp] theorem raise_nt (d : Dev) (g : Fld) (c : Cls) : (d.raise g c).nt = d.nt := raiseBit_nt d g 0 c
@[simp] theorem raiseBit_fb (d : Dev) (g : Fld) (i : Nat) (c : Cls) : (d.raiseBit g i c).fb = d.fb := by rw [raiseBit_eq]
@[simp] theorem raise_fb (d : Dev) (g : Fld) (c : Cls) : (d.raise g c).fb = d.fb := raiseBit_fb d g 0 c
@[simp] theorem raiseBit_jtag (d : Dev) (g : Fld) (i : Nat) (c : Cls) : (d.raiseBit g i c).jtag = d.jtag := by rw [raiseBit_eq]
@[simp] theorem raise_jtag (d : Dev) (g : Fld) (c : Cls) : (d.raise g c).jtag = d.jtag := raiseBit_jtag d g 0 c
@[simp] theorem raiseBit_lanes (d : Dev) (g : Fld) (i : Nat) (c : Cls) : (d.raiseBit g i c).lanes = d.lanes := by rw [raiseBit_eq]
@[simp] theorem raise_lanes (d : Dev) (g : Fld) (c : Cls) : (d.raise g c).lanes = d.lanes := raiseBit_lanes d g 0 c
@[simp] theorem raiseBit_quires (d : Dev) (g : Fld) (i : Nat) (c : Cls) : (d.raiseBit g i c).quires = d.quires := by rw [raiseBit_eq]
@[simp] theorem raise_quires (d : Dev) (g : Fld) (c : Cls) : (d.raise g c).quires = d.quires := raiseBit_quires d g 0 c
@[simp] theorem raiseBit_cells (d : Dev) (g : Fld) (i : Nat) (c : Cls) : (d.raiseBit g i c).cells = d.cells := by rw [raiseBit_eq]
@[simp] theorem raise_cells (d : Dev) (g : Fld) (c : Cls) : (d.raise g c).cells = d.cells := raiseBit_cells d g 0 c
@[simp] theorem raiseBit_regions (d : Dev) (g : Fld) (i : Nat) (c : Cls) : (d.raiseBit g i c).regions = d.regions := by rw [raiseBit_eq]
@[simp] theorem raise_regions (d : Dev) (g : Fld) (c : Cls) : (d.raise g c).regions = d.regions := raiseBit_regions d g 0 c
@[simp] theorem raiseBit_ains (d : Dev) (g : Fld) (i : Nat) (c : Cls) : (d.raiseBit g i c).ains = d.ains := by rw [raiseBit_eq]
@[simp] theorem raise_ains (d : Dev) (g : Fld) (c : Cls) : (d.raise g c).ains = d.ains := raiseBit_ains d g 0 c
@[simp] theorem raiseBit_groups (d : Dev) (g : Fld) (i : Nat) (c : Cls) : (d.raiseBit g i c).groups = d.groups := by rw [raiseBit_eq]
@[simp] theorem raise_groups (d : Dev) (g : Fld) (c : Cls) : (d.raise g c).groups = d.groups := raiseBit_groups d g 0 c
@[simp] theorem raiseBit_adq (d : Dev) (g : Fld) (i : Nat) (c : Cls) : (d.raiseBit g i c).adq = d.adq := by rw [raiseBit_eq]
@[simp] theorem raise_adq (d : Dev) (g : Fld) (c : Cls) : (d.raise g c).adq = d.adq := raiseBit_adq d g 0 c
@[simp] theorem raiseBit_tw (d : Dev) (g : Fld) (i : Nat) (c : Cls) : (d.raiseBit g i c).tw = d.tw := by rw [raiseBit_eq]
@[simp] theorem raise_tw (d : Dev) (g : Fld) (c : Cls) : (d.raise g c).tw = d.tw := raiseBit_tw d g 0 c
@[simp] theorem raiseBit_su (d : Dev) (g : Fld) (i : Nat) (c : Cls) : (d.raiseBit g i c).su = d.su := by rw [raiseBit_eq]
@[simp] theorem raise_su (d : Dev) (g : Fld) (c : Cls) : (d.raise g c).su = d.su := raiseBit_su d g 0 c
@[simp] theorem source_released (d : Dev) (k : BitVec 4) (n key p : Nat) (l r : Bool) : (d.source k n key p l r).released = d.released := by rw [source_eq]
@[simp] theorem source_cyc (d : Dev) (k : BitVec 4) (n key p : Nat) (l r : Bool) : (d.source k n key p l r).cyc = d.cyc := by rw [source_eq]
@[simp] theorem source_regs (d : Dev) (k : BitVec 4) (n key p : Nat) (l r : Bool) : (d.source k n key p l r).regs = d.regs := by rw [source_eq]
@[simp] theorem source_telem (d : Dev) (k : BitVec 4) (n key p : Nat) (l r : Bool) : (d.source k n key p l r).telem = d.telem := by rw [source_eq]
@[simp] theorem source_snaps (d : Dev) (k : BitVec 4) (n key p : Nat) (l r : Bool) : (d.source k n key p l r).snaps = d.snaps := by rw [source_eq]
@[simp] theorem source_sent (d : Dev) (k : BitVec 4) (n key p : Nat) (l r : Bool) : (d.source k n key p l r).sent = d.sent := by rw [source_eq]
@[simp] theorem source_tm (d : Dev) (k : BitVec 4) (n key p : Nat) (l r : Bool) : (d.source k n key p l r).tm = d.tm := by rw [source_eq]
@[simp] theorem source_fc (d : Dev) (k : BitVec 4) (n key p : Nat) (l r : Bool) : (d.source k n key p l r).fc = d.fc := by rw [source_eq]
@[simp] theorem source_sf (d : Dev) (k : BitVec 4) (n key p : Nat) (l r : Bool) : (d.source k n key p l r).sf = d.sf := by rw [source_eq]
@[simp] theorem source_nt (d : Dev) (k : BitVec 4) (n key p : Nat) (l r : Bool) : (d.source k n key p l r).nt = d.nt := by rw [source_eq]
@[simp] theorem source_fb (d : Dev) (k : BitVec 4) (n key p : Nat) (l r : Bool) : (d.source k n key p l r).fb = d.fb := by rw [source_eq]
@[simp] theorem source_jtag (d : Dev) (k : BitVec 4) (n key p : Nat) (l r : Bool) : (d.source k n key p l r).jtag = d.jtag := by rw [source_eq]
@[simp] theorem source_lanes (d : Dev) (k : BitVec 4) (n key p : Nat) (l r : Bool) : (d.source k n key p l r).lanes = d.lanes := by rw [source_eq]
@[simp] theorem source_quires (d : Dev) (k : BitVec 4) (n key p : Nat) (l r : Bool) : (d.source k n key p l r).quires = d.quires := by rw [source_eq]
@[simp] theorem source_cells (d : Dev) (k : BitVec 4) (n key p : Nat) (l r : Bool) : (d.source k n key p l r).cells = d.cells := by rw [source_eq]
@[simp] theorem source_regions (d : Dev) (k : BitVec 4) (n key p : Nat) (l r : Bool) : (d.source k n key p l r).regions = d.regions := by rw [source_eq]
@[simp] theorem source_ains (d : Dev) (k : BitVec 4) (n key p : Nat) (l r : Bool) : (d.source k n key p l r).ains = d.ains := by rw [source_eq]
@[simp] theorem source_groups (d : Dev) (k : BitVec 4) (n key p : Nat) (l r : Bool) : (d.source k n key p l r).groups = d.groups := by rw [source_eq]
@[simp] theorem source_adq (d : Dev) (k : BitVec 4) (n key p : Nat) (l r : Bool) : (d.source k n key p l r).adq = d.adq := by rw [source_eq]
@[simp] theorem source_tw (d : Dev) (k : BitVec 4) (n key p : Nat) (l r : Bool) : (d.source k n key p l r).tw = d.tw := by rw [source_eq]
@[simp] theorem source_su (d : Dev) (k : BitVec 4) (n key p : Nat) (l r : Bool) : (d.source k n key p l r).su = d.su := by rw [source_eq]
@[simp] theorem raise_lane (d : Dev) (g : Fld) (c : Cls) (k : Nat) : (d.raise g c).lane k = d.lane k := by rw [Dev.raise, raiseBit_eq]; rfl
@[simp] theorem raiseBit_lane (d : Dev) (g : Fld) (i : Nat) (c : Cls) (k : Nat) : (d.raiseBit g i c).lane k = d.lane k := by rw [raiseBit_eq]; rfl
@[simp] theorem raise_quire (d : Dev) (g : Fld) (c : Cls) (k : Nat) : (d.raise g c).quire k = d.quire k := by rw [Dev.raise, raiseBit_eq]; rfl
@[simp] theorem raiseBit_quire (d : Dev) (g : Fld) (i : Nat) (c : Cls) (k : Nat) : (d.raiseBit g i c).quire k = d.quire k := by rw [raiseBit_eq]; rfl
@[simp] theorem raise_cell (d : Dev) (g : Fld) (c : Cls) (k : Nat) : (d.raise g c).cell k = d.cell k := by rw [Dev.raise, raiseBit_eq]; rfl
@[simp] theorem raiseBit_cell (d : Dev) (g : Fld) (i : Nat) (c : Cls) (k : Nat) : (d.raiseBit g i c).cell k = d.cell k := by rw [raiseBit_eq]; rfl
@[simp] theorem raise_region (d : Dev) (g : Fld) (c : Cls) (k : Nat) : (d.raise g c).region k = d.region k := by rw [Dev.raise, raiseBit_eq]; rfl
@[simp] theorem raiseBit_region (d : Dev) (g : Fld) (i : Nat) (c : Cls) (k : Nat) : (d.raiseBit g i c).region k = d.region k := by rw [raiseBit_eq]; rfl
@[simp] theorem raise_ain (d : Dev) (g : Fld) (c : Cls) (k : Nat) : (d.raise g c).ain k = d.ain k := by rw [Dev.raise, raiseBit_eq]; rfl
@[simp] theorem raiseBit_ain (d : Dev) (g : Fld) (i : Nat) (c : Cls) (k : Nat) : (d.raiseBit g i c).ain k = d.ain k := by rw [raiseBit_eq]; rfl
@[simp] theorem raise_group (d : Dev) (g : Fld) (c : Cls) (k : Nat) : (d.raise g c).group k = d.group k := by rw [Dev.raise, raiseBit_eq]; rfl
@[simp] theorem raiseBit_group (d : Dev) (g : Fld) (i : Nat) (c : Cls) (k : Nat) : (d.raiseBit g i c).group k = d.group k := by rw [raiseBit_eq]; rfl

/-- A field of another register after a flag has set. -/
theorem get_raiseBit_ne (d : Dev) (f g : Fld) (i : Nat) (c : Cls) (h : f.addr ≠ g.addr) (h1 : g.addr ≠ NT_EVT)
    (h2 : g.addr ≠ NT_CNT1) : (d.raiseBit f i c).get g = d.get g :=
  get_congr _ _ _ (raiseBit_word d f i c _ h.symm h1 h2)

theorem get_raise_ne (d : Dev) (f g : Fld) (c : Cls) (h : f.addr ≠ g.addr) (h1 : g.addr ≠ NT_EVT) (h2 : g.addr ≠ NT_CNT1) :
    (d.raise f c).get g = d.get g := get_raiseBit_ne d f g 0 c h h1 h2

/-- The word of the flag's own register after it has set. -/
theorem raiseBit_own (d : Dev) (f : Fld) (i : Nat) (c : Cls) (h1 : f.addr ≠ NT_EVT) (h2 : f.addr ≠ NT_CNT1) :
    (d.raiseBit f i c).word f.addr = if d.bit f i then d.word f.addr else (d.putBit f i true).word f.addr := by
  unfold Dev.raiseBit
  split
  · rfl
  · simp only [react_word, flagEntry_word]; exact pushEvent_word _ _ _ _ _ _ h1 h2

/-- Another field of the flag's register after it has set. -/
theorem get_raiseBit_disj (d : Dev) (f g : Fld) (i : Nat) (c : Cls) (ha : g.addr = f.addr) (h1 : f.addr ≠ NT_EVT)
    (h2 : f.addr ≠ NT_CNT1) (hg : g.lsb + g.width ≤ 32) (h : g.lsb + g.width ≤ f.lsb ∨ f.lsb + f.width ≤ g.lsb) :
    (d.raiseBit f i c).get g = d.get g := by
  rw [Dev.get, ha, raiseBit_own d f i c h1 h2]
  split
  · rw [Dev.get, ha]
  · rw [← ha]; exact get_put_disj d f g _ hg h

theorem get_raise_disj (d : Dev) (f g : Fld) (c : Cls) (ha : g.addr = f.addr) (h1 : f.addr ≠ NT_EVT) (h2 : f.addr ≠ NT_CNT1)
    (hg : g.lsb + g.width ≤ 32) (h : g.lsb + g.width ≤ f.lsb ∨ f.lsb + f.width ≤ g.lsb) : (d.raise f c).get g = d.get g :=
  get_raiseBit_disj d f g 0 c ha h1 h2 hg h

/-- A one-bit flag reads 1 after it has set. -/
theorem get_raise_same (d : Dev) (f : Fld) (c : Cls) (hw : f.width = 1) (hl : f.lsb < 32) (h1 : f.addr ≠ NT_EVT)
    (h2 : f.addr ≠ NT_CNT1) : (d.raise f c).get f = 1 := by
  have hlt : d.get f < 2 := by
    have : d.get f < 2 ^ f.width := Nat.mod_lt _ (Nat.two_pow_pos _)
    rw [hw] at this; exact this
  rw [Dev.get, Dev.raise, raiseBit_own d f 0 c h1 h2]
  split
  · rename_i hb
    change d.get f = 1
    have hb' : bitOf (d.get f) 0 = true := hb
    rcases Nat.lt_or_ge (d.get f) 1 with h | h
    · have : d.get f = 0 := by omega
      rw [this] at hb'; simp [bitOf] at hb'
    · omega
  · rename_i hb
    have hb' : ¬ bitOf (d.get f) 0 = true := hb
    have h0 : d.get f = 0 := by
      rcases Nat.lt_or_ge (d.get f) 1 with h | h
      · omega
      · exfalso; apply hb'; have : d.get f = 1 := by omega
        rw [this]; decide
    change (d.put f (setBit (d.get f) 0)).get f = 1
    rw [get_put_same _ _ _ (by omega), h0, hw]
    decide

end Sys2Proof.Machine
end

