-- ==== Sys2Proof/Tests/Slice0.lean ====
section
/-! SUPPORT. Tests of the model: the ill-formed commands, the worked examples of the specification, and for each statement a state and
operands that meet its hypotheses, clause by clause. -/

namespace Sys2Proof.Tests

open Sys2Proof Machine

/-! ## Commands that nothing outside can give -/

/-- Table 1.1: class 5 has four units. -/
theorem test_wf_unit : Instr.wf (.unitRunComplete 5 4 0 0 0) = false := by decide

/-- R42: a run does not end before it starts. -/
theorem test_wf_run_order : Instr.wf (.unitRunComplete 5 3 8 7 9) = false := by decide

/-- Table 15.9: there are 80 sorting slices. -/
theorem test_wf_defect_unit : Instr.wf (.checkComplete false [⟨.sortSlice, 80, false, none⟩] []) = false := by decide

/-- Table 1.3: a defect of the SRAM lies in one of its memories. -/
theorem test_wf_defect_mem : Instr.wf (.checkComplete false [⟨.sramRow, 3, false, none⟩] []) = false := by decide

/-- R164: a departure lies within one block of the release. -/
theorem test_wf_departure : Instr.wf (.frameRelease 3 410 0) = false ∧ Instr.wf (.frameRelease 3 0 410) = false := by decide

/-- Table 18.9: 0x11 is KEYPROG, and no BYPASS. -/
theorem test_wf_bypass : Instr.wf (.jtagBypass 0x11) = false ∧ Instr.wf (.jtagBypass 0x13) = true := by decide

/-- The table gives no row any bits. -/
theorem test_no_bits (n w : Nat) : decodeTableWord n w = none := rfl

/-- Table 19.7: the boundary register has 71 cells. -/
theorem test_boundary_cells : boundaryCells.length = 71 := by decide

/-! ## Worked examples of the specification -/

/-- Chapter 4: the entry of trim cell 1,413. -/
theorem test_entry_word : entryWord 0 0x4DF 2 1 true 0 0 0x5C = 0xF25C004A04DF0000 := by decide +kernel

/-- Chapter 2: the charges of the two periods and the prediction. -/
theorem test_charge : segCharge 4000 8000 2200 2360 10000 stPOS false 0 = 9184000 ∧
    segCharge 3000 10000 2360 2480 10000 stPOS false 0 = 17066000 ∧ chargeDv 26250000 3000 = 35840 := by decide +kernel

/-- Chapter 3: the demand of 1,596 cells at 701,000 V. -/
theorem test_demand : demandOf 179456000 false 1596 25567920 = (false, 700, 511, false) := by decide +kernel

/-- Chapter 9: the mean of five conversions. -/
theorem test_mean : rdiv (60078 * 12000) (5 * 65536) = 2200 := by decide +kernel

/-- Chapter 7: the peak of the history. -/
theorem test_peak : isqrt (2 * 5242880000000000000 / 1000) = 102400000 := by decide +kernel

/-- Chapter 5: a sample 8 sixteenths from D moves it by one, a sample of 6 does not. -/
theorem test_delay_filter : rdiv 6 16 = 0 ∧ rdiv 8 16 = 1 := by decide +kernel

/-- Chapter 17: the header and the body of a PSET request. -/
theorem test_smp_request :
    (smpMsg tySETPT 0 0 0x1F4 0 (bytesBE 4 0 ++ bytesBE 4 307200000 ++ bytesBE 4 0x9ACE684E)).take 28 =
      [0x53, 0x4D, 1, 1, 0, 0x0C, 0, 0, 0, 0, 1, 0xF4, 0, 0, 0, 0, 0, 0, 0, 0, 0x12, 0x4F, 0x80, 0, 0x9A, 0xCE, 0x68, 0x4E] := by
  decide +kernel

/-! ## States for the witnesses -/

/-- Register words with the fields that are listed, zero elsewhere. -/
def wRegs (l : List (Fld × Nat)) : List (Nat × Word) :=
  l.foldl (fun m x => smInsert m x.1.addr ((smLook m x.1.addr).getD 0 + BitVec.ofNat 32 (x.2 * 2 ^ x.1.lsb))) []

/-- A released device in mode `m` with PLL-T locked and the fields that are listed, in registers that are zero elsewhere. -/
def wDev (m : Nat) (l : List (Fld × Nat)) : Dev :=
  { Dev.reset 0 with released := true, regs := wRegs ((GL_MODE_MODE, m) :: l), tm := { tm0 with pllT := { pllT0 with seq := 3 } } }

/-- The state of a device, all else as at power-up. -/
def wSt (d : Dev) : State := { State.reset with dev := d }

/-- Chapter 7: region 0 in period j of the example of the law. -/
def exLaw : Dev :=
  let d := wDev modeRUN [(RG_LAWCFG_REPEN 0, 1), (RG_NOMCFG_NCYC 0, 1000), (RG_KPRED_KPRED 0, 13422), (RG_LIM0_ILIM 0, 6000),
    (RG_LIM0_IWMAX 0, 400), (RG_LIM1_UMAX 0, 0x493E), (RG_LIM2_UPIMAX 0, 0x140), (RG_LIM2_UREPMAX 0, 0x140),
    (RG_LIM3_PPHMAX 0, 30000), (RG_LIM3_VDCMIN 0, 100), (RG_LIM4_VPKMIN 0, 10), (RG_REPCFG_LEAD 0, 5), (RG_REPCFG_QF 0, 0xFA),
    (RG_ZTH_ZTH 0 1, 0x7FFFFFFF), (RG_ZTH_ZTH 0 0, 5), (RG_ZHYS_ZHYS 0, 0), (RG_LAWSTAT_REPOFF 0, 0), (RG_TGT_TGT 0 0, 384000000),
    (RG_TGT_TGT 0 1, 0), (RG_TGT_TGT 0 2, 0), (RG_TGT3_TGT 0, 16000), (RG_STAT_STATE 0, rgRUN), (RG_STAT_REPON 0, 1),
    (RG_KP_M 0 1 1, 20972), (RG_KP_SH 0 1 1, 20), (RG_KI_M 0 1 1, 20972), (RG_KI_SH 0 1 1, 24), (RG_KP_M 0 1 2, 20972),
    (RG_KP_SH 0 1 2, 20), (RG_KI_M 0 1 2, 20972), (RG_KI_SH 0 1 2, 24), (RG_KP_M 0 1 3, 25600), (RG_KP_SH 0 1 3, 2),
    (RG_KI_M 0 1 3, 25600), (RG_KI_SH 0 1 3, 6), (RG_KR_M 0 1, 25600), (RG_KR_SH 0 1, 4), (RG_KP_M 0 1 0, 0), (RG_KI_M 0 1 0, 0)]
  ({ d with tm := { d.tm with jAbs := 419 } }).setRegionSt 0 { region0 0 with
    ctl := { ctl0 with
      x1 := 12, x2 := -40, x3 := 76800, zone := 1, mem := [(415, 60000), (420, 64000)], rP := 384000000, rVC := 16000
      pph := 128000000 }
    lawIn := some ⟨-250, -310, 256000000, 0, 1002001, 999000, 0, 0, -51200000, 0, 5242880000000000000, 102400000,
      some (-256000), false⟩ }

/-- Chapter 7: U_REF, i1 and ir. -/
theorem test_law_out : (lawCompute 0 exLaw).map (fun o => (o.uref, o.i1, o.ir)) = some (179456000, -189, -268) := by decide +kernel

/-- Chapter 7: the integrators, and the memory entry written five positions earlier. -/
theorem test_law_state : (lawCompute 0 exLaw).map (fun o => [o.ctl.x1, o.ctl.x2, o.ctl.x3, smGet (fun _ => 0) o.ctl.mem 415]) =
    some [11, -36, 84000, 87394] := by decide +kernel

/-- Chapter 7: loop IARM through a change of zone, by the gains of zones 1 and 2. -/
def exZone : Dev :=
  wDev modeRUN [(RG_KP_M 0 1 3, 25600), (RG_KP_SH 0 1 3, 2), (RG_KP_M 0 2 3, 25600), (RG_KP_SH 0 2 3, 3), (RG_KI_M 0 2 3, 25600),
    (RG_KI_SH 0 2 3, 7)]

theorem test_zone_change : piLoop 0 3 2 1 900 5242880 76800 false exZone = (5242880, 2956800, true) ∧
    piLoop 0 3 2 2 760 5242880 2956800 true exZone = (5242880, 2956800, true) ∧
    piLoop 0 3 2 2 700 5242880 2956800 true exZone = (5196800, 3096800, false) := by decide +kernel

/-- Chapter 11: a stamp at tick 4,520 with ADV of 3,000 gives t0 at the next boundary, one after C the boundary after it. -/
theorem test_override_boundary :
    let d := { wDev modeRUN [] with tm := { tm0 with grid := true, jAbs := 7, bj := 0 } }
    ovrT0 3000 4520 d = 8 ∧ ovrT0 3000 6910 d = 9 := by decide

/-! ## Witnesses, one theorem or two for each statement, a state for each clause -/

/-- An untagged IPv4 frame of 100 bytes. -/
def nEth : EthHdr := ⟨0, [], etIP4, 100⟩

/-- A UDP datagram to the own address. -/
def nUdp : UdpRx := ⟨⟨nEth, false, false, 17, true⟩, 0xFFFF0A000009, 0, some true, 7⟩

/-- A request of that peer. -/
def nReq : Req := ⟨1, 0xFFFF0A000005, 900, 77, 88, nUdp⟩

theorem witness_StepRunsFront :
    (let s := { wSt (wDev modeRUN []) with pending := [.avsAck, .jtagTrst] };
      s.awake ∧ s.pending = .avsAck :: [.jtagTrst]) ∧
    (let s := wSt (wDev modeRUN []);
      s.awake ∧ s.pending = []) := by decide

theorem witness_StopIsFinal :
    (let s := wSt (wDev modeSTOP []);
      s.stopped) ∧
    (let s := wSt (wDev modeSTOP []);
      s.stopped) := by decide

theorem witness_InvariantKept :
    (let s := { wSt (wDev modeRUN []) with pending := [.avsAck] };
      s.awake ∧ Memory.wf s.recMem = true ∧ s.fuse.busy = 0 ∧ s.dev.fc.stopReq = false) := by decide

theorem witness_CommandReach :
    (let s := State.reset;
      s.dev.released = false) := by decide

theorem witness_ServiceFrame :
    (let s := wSt (wDev modeRUN []);
      s.awake) := by decide

/-- A flash bank that does not answer. -/
def noBank : BankRx := ⟨false, 0, none, none⟩

theorem witness_PowerAndReset_a :
    (let s := State.reset;
      s.dev.released = false) ∧
    (let s := wSt (wDev modeRUN []);
      s.dev.released = true) ∧
    (let s := { wSt (wDev modeSTOP []) with fuse := { fuse0 with busy := 1, prog1 := true, hash1 := 5 }, recMem := [(3, 5)] };
      s.dev.fc.stopReq = false) ∧
    (let s := { wSt (wDev modeRUN []) with vbat := ⟨true, 7, 3⟩ };
      s.dev.fc.stopReq = false) ∧
    (let s := wSt (wDev modeRUN []);
      s.awake) ∧
    (let s := wSt (wDev modeRUN [(FC_CHIP_SUPPLY, 0)]);
      s.awake ∧ s.dev.flag FC_CHIP_SUPPLY = false) := by decide

theorem witness_PowerAndReset_b :
    (let s := wSt (wDev modeLOAD [(FC_CHIP_SUPPLY, 0)]);
      s.awake ∧ s.dev.flag FC_CHIP_SUPPLY = false) ∧
    (let s := wSt (wDev modeRUN [(FC_CHIP_SUPPLY, 0)]);
      s.awake ∧ s.dev.flag FC_CHIP_SUPPLY = false) := by decide

theorem witness_StartUp :
    (let s := wSt (wDev modeLOAD [(FC_CHIP_BOOT, 0)]);
      s.awake ∧ s.dev.mode = modeLOAD ∧ s.dev.su.imageOk = false ∧ s.dev.flag FC_CHIP_BOOT = false) ∧
    (let s := wSt (wDev modeCHECK [(FC_CHIP_BOOT, 0)]);
      s.awake ∧ s.dev.mode = modeCHECK ∧ s.dev.fb.checkDone = false) ∧
    (let s := wSt (wDev modeCHECK [(FC_CHIP_BOOT, 0)]);
      s.awake ∧ ([⟨.sortSlice, 3, false, none⟩] : List Defect).all Defect.wf = true ∧ s.dev.flag FC_CHIP_BOOT = false) ∧
    (let s := wSt { wDev modeCHECK [] with fb := { fb0 with checkDone := true } };
      s.awake ∧ s.dev.mode = modeCHECK ∧ s.dev.fb.checkDone = true) ∧
    (let s := wSt { wDev modeIDLE [(GL_TWCFG_PAIR, 1), (GL_TWSTAT_ROLE, roleSTANDBY),
        (GL_TWCFG_TWLOSS, 4)] with su := { su0 with idleOnce := true, idleAt := 3 }, tm := { tm0 with jAbs := 10 } };
      s.awake ∧ s.dev.mode = modeIDLE ∧ s.dev.paired = true ∧ s.dev.role = roleSTANDBY ∧ s.dev.su.idleOnce = true ∧
      s.dev.flag GL_TWCFG_END = false ∧ s.dev.flag GL_TWSTAT_PEERACT = false ∧ s.dev.get GL_MODE_CHGCNT = 0 ∧
      s.dev.su.idleAt + s.dev.get GL_TWCFG_TWLOSS ≤ s.dev.tm.jAbs) := by decide

theorem witness_ChargeAndRun_a :
    (let s := wSt { wDev modeIDLE [(QU_CFG_ASSIGNED 3, 1), (QU_CFG_REGION 3, 2),
        (QU_CFG_NPOS 3, 2)] with su := { su0 with chargeAt := some 9 }, tm := { tm0 with jAbs := 10 } };
      s.awake ∧ s.dev.mode = modeIDLE ∧ s.dev.su.chargeAt = some 9 ∧ 9 ≤ s.dev.tm.jAbs) ∧
    (let s := wSt { wDev modeRUN [(QU_CFG_ASSIGNED 3, 1), (QU_CFG_REGION 3, 2),
        (QU_CFG_NPOS 3, 2)] with su := { su0 with stopAt := some 9 }, tm := { tm0 with jAbs := 10 } };
      s.awake ∧ (s.dev.mode = modeCHARGE ∨ s.dev.mode = modeRUN) ∧ s.dev.su.stopAt = some 9 ∧ 9 ≤ s.dev.tm.jAbs) ∧
    (let s := wSt { wDev modeBLOCK [(QU_CFG_ASSIGNED 3, 1), (QU_CFG_REGION 3, 2),
        (QU_CFG_NPOS 3, 2)] with fb := { fb0 with checkDone := true }, su := { su0 with protClear := true } };
      s.awake ∧ s.dev.mode = modeBLOCK ∧ noProt s.dev = true ∧ s.dev.su.protClear = true) ∧
    (let s := wSt { wDev modeCHARGE [(QU_CFG_ASSIGNED 3, 1), (QU_CFG_REGION 3, 2), (QU_CFG_NPOS 3, 2),
        (RG_STAT_STATE 2, rgREADY),
        (GL_SURDY_RDY 2, 1)] with su := { su0 with deblock := [(2, 9)] }, tm := { tm0 with jAbs := 10 } };
      s.awake ∧ s.dev.su.deblock = [(2, 9)] ∧ 9 ≤ s.dev.tm.jAbs ∧ s.dev.rgState 2 = rgREADY ∧
      s.dev.flag (GL_SURDY_RDY 2) = true ∧ (s.dev.mode = modeRUN ∨ (s.dev.mode = modeCHARGE ∧ allReady s.dev = true))) ∧
    (let s := wSt { wDev modeCHARGE [(QU_CFG_ASSIGNED 3, 1), (QU_CFG_REGION 3, 2)] with fb := { fb0 with checkDone := true } };
      s.awake ∧ s.dev.mode = modeCHARGE ∧ s.dev.assigned 2 = true ∧ (s.dev.region 2).readyEver = false) ∧
    (let s := wSt { wDev modeIDLE [(QU_CFG_ASSIGNED 3, 1),
        (QU_CFG_REGION 3, 2)] with tm := { tm0 with grid := true, jAbs := 10, bj := 100000, pllT := { pllT0 with seq := 3 } } };
      s.awake ∧ s.dev.live = true ∧ s.dev.tm.grid = true ∧ s.dev.tm.pllT.seq = 3 ∧ s.dev.tm.jumpReq = none) := by decide

theorem witness_ChargeAndRun_b :
    (let s := wSt { wDev modeIDLE [(FB_SLICE_ASSIGNED 3, 1),
        (FB_SLICE_QUIRE 3, 17)] with fb := { fb0 with swap := some (2, 3, 64, 0) } };
      s.awake ∧ s.dev.fb.swap = some (2, 3, 64, 0)) ∧
    (let s := wSt { wDev modeIDLE [(FB_SLICE_ASSIGNED 3, 1),
        (FB_SLICE_QUIRE 3, 17)] with fb := { fb0 with swap := some (2, 3, 64, 1) } };
      s.awake ∧ s.dev.fb.swap = some (2, 3, 64, 1)) ∧
    (let s := wSt { wDev modeRUN [(QU_CFG_ASSIGNED 3, 1), (QU_CFG_REGION 3, 2),
        (QU_CFG_NPOS 3, 2)] with su := { su0 with stopAt := some 9 }, tm := { tm0 with jAbs := 10 }, fc := { fc0 with protDev := true } };
      s.awake ∧ s.dev.mode = modeRUN ∧ s.dev.su.stopAt = some 9 ∧ 9 ≤ s.dev.tm.jAbs ∧ s.dev.fc.protDev = true) ∧
    (let s := wSt { wDev modeCHARGE [(QU_CFG_ASSIGNED 3, 1), (QU_CFG_REGION 3, 2), (QU_CFG_NPOS 3, 2),
        (RG_STAT_STATE 2, rgREADY),
        (GL_SURDY_RDY 2, 1)] with su := { su0 with deblock := [(2, 9)] }, tm := { tm0 with jAbs := 10 }, fc := { fc0 with protDev := true } };
      s.awake ∧ s.dev.su.deblock = [(2, 9)] ∧ s.dev.rgState 2 = rgREADY ∧ s.dev.fc.protDev = true) := by decide

/-- A device with a changed timebase. -/
def pDev (m : Nat) (l : List (Fld × Nat)) (f : TimeSt → TimeSt) : Dev := let d := wDev m l; { d with tm := f d.tm }

/-- An untagged PTP frame of 100 bytes. -/
def eth0 : EthHdr := ⟨ptpMac, [], etPTP, 100⟩

/-- An Announce at port 1. -/
def ann : Announce := ⟨1, eth0, 5, 0, 1, 6, 32, 100, 1, 77, 1, 99, 37, true⟩

/-- Registers of a PTP port 1 that is up. -/
def ptpL : List (Fld × Nat) := [(TM_CFG_PORTEN, 3), (TM_CFG_DOMAIN, 5), (NT_STAT_UP0, 1), (NT_STAT_UP1, 1),
    (NT_PCFG_EN 1, 1), (SV_STAT_RUN, 15), (TM_STAT_PORT, 1)]

theorem witness_ReferenceAndLock_a :
    (let s := wSt (pDev modeIDLE [(PL_STAT_REFOK, 1), (PL_STAT_TLOCK, 1)] id);
      s.awake ∧ s.dev.flag PL_STAT_REFOK = true ∧ s.dev.mode = modeIDLE) ∧
    (let s := wSt (pDev modeCHECK [(PL_STAT_REFOK, 1), (PL_STAT_TLOCK, 1)] id);
      s.awake ∧ s.dev.flag PL_STAT_REFOK = true ∧ s.dev.converting = false ∧ s.dev.tm.pllLoaded = false) ∧
    (let s := wSt (pDev modeRUN [(PL_STAT_REFOK, 1), (FC_CHIP_CLKSTOP, 0)] id);
      s.awake ∧ s.dev.flag PL_STAT_REFOK = true ∧ s.dev.converting = true ∧ s.dev.flag FC_CHIP_CLKSTOP = false) ∧
    (let s := wSt (pDev modeIDLE [(PL_STAT_REFOK, 0)] id);
      s.awake ∧ s.dev.flag PL_STAT_REFOK = false) ∧
    (let s := wSt (pDev modeIDLE [(PL_STAT_REFOK, 1), (pllNint .t, 161), (pllRefm .t, 1)] id);
      s.awake ∧ s.dev.mode = modeIDLE ∧ s.dev.permits .mp .pll = true ∧ s.dev.flag (pllUpdFld .t) = false ∧
          s.dev.flag PL_STAT_REFOK = true) ∧
    (let s := wSt (pDev modeIDLE [] fun x => { x with pllS := { x.pllS with seq := 1 } });
      s.awake ∧ (pllOf .s s.dev).seq = 1) := by decide

theorem witness_ReferenceAndLock_b :
    (let s := wSt (pDev modeIDLE [(PL_STAT_REFOK, 1)] fun x => { x with pllS := { x.pllS with seq := 2 } });
      s.awake ∧ (pllOf .s s.dev).seq = 2 ∧ s.dev.flag PL_STAT_REFOK = true ∧ s.dev.mode ≠ modeLOAD ∧ s.dev.mode ≠ modeCHECK) ∧
    (let s := wSt (pDev modeIDLE [(PL_STAT_REFOK, 1)] fun x => { x with pllS := { x.pllS with seq := 2 } });
      s.awake ∧ (pllOf .s s.dev).seq = 2 ∧ s.dev.mode ≠ modeLOAD) ∧
    (let s := wSt (pDev modeIDLE [(PL_STAT_REFOK, 1), (PL_STAT_TLOCK, 1)] fun x => { x with pllT := { x.pllT with seq := 3 } });
      s.awake ∧ (pllOf .t s.dev).seq = 3 ∧ s.dev.mode = modeIDLE ∧ s.dev.flag PL_STAT_REFOK = true) ∧
    (let s := wSt (pDev modeBLOCK [(PL_STAT_REFOK, 1),
        (PL_STAT_TLOCK, 1)] fun x => { x with pllT := { x.pllT with seq := 3 } });
      s.awake ∧ s.dev.converting = true ∧ s.dev.flag FC_CHIP_CLKSTOP = false) := by decide

theorem witness_TimebaseSteps_a :
    (let s := wSt (pDev modeIDLE [(PL_STAT_SLOCK, 1)] fun x => { x with pllS := { x.pllS with steps := 100 } });
      s.awake ∧ s.dev.mode ≠ modeLOAD ∧ s.dev.permits .mp .pll = true ∧ s.dev.flag PL_STAT_SLOCK = true) ∧
    (let s := wSt (pDev modeIDLE [(PL_STAT_SLOCK, 1)] fun x => { x with pllS := { x.pllS with steps := 100 } });
      s.awake ∧ s.dev.permits .mp .pll = true) ∧
    (let s := wSt (pDev modeIDLE [(PL_STAT_TLOCK, 1)] fun x => { x with label := 5 * 2 ^ 33 + 2 ^ 24 });
      s.awake ∧ s.dev.flag PL_STAT_TLOCK = true ∧ (2 ^ 24 : Int) ≤ tickRho s.dev) ∧
    (let s := wSt (pDev modeIDLE [(PL_STAT_TLOCK, 1)] fun x => { x with label := 5 * 2 ^ 33 - 2 ^ 24 });
      s.awake ∧ s.dev.flag PL_STAT_TLOCK = true ∧ tickRho s.dev ≤ -(2 ^ 24 : Int)) ∧
    (let s := wSt (pDev modeIDLE [(PL_STAT_TLOCK, 1)] fun x => { x with label := 5 * 2 ^ 33 - 2 ^ 24, pllT := { pllT0 with stepGap := 1 } });
      s.awake ∧ s.dev.flag PL_STAT_TLOCK = true ∧ s.dev.tm.pllT.stepGap ≠ 0 ∧ tickRho s.dev ≤ -(2 ^ 24 : Int)) ∧
    (let s := wSt (pDev modeIDLE [(TM_INCR_CORR, 5)] id);
      s.awake ∧ s.dev.permits .mp .time = true ∧ ((-0xD1B71#32).toInt.natAbs ≤ 0xD1B71)) := by decide

theorem witness_TimebaseSteps_b :
    (let s := wSt (pDev modeIDLE [(TM_INCR_CORR, 5)] id);
      s.awake ∧ s.dev.permits .mp .time = true ∧ 0xD1B71 < (-0xD1B72#32).toInt.natAbs) ∧
    (let s := wSt (pDev modeIDLE [(TM_JMPCFG_JMAX, 1)] fun x => { x with slew := -(2 ^ 40) });
      s.awake ∧ s.dev.permits .mp .time = true) ∧
    (let s := wSt (pDev modeIDLE [(TM_JMPCFG_JMAX, 1)] fun x => { x with jumpHi := 0x8000 });
      s.awake ∧ s.dev.permits .mp .time = true) := by decide

theorem witness_PtpMessages_a :
    (let s := wSt (pDev modeIDLE ptpL id);
      s.awake ∧ ptpOn ann.port.val ann.eth s.dev = true ∧ ann.domain.toNat = s.dev.get TM_CFG_DOMAIN ∧ -4 ≤ ann.logInterval ∧
      ann.logInterval ≤ 1 ∧ (ptpPort ann.port.val s.dev).master = none ∧ s.dev.get TM_STAT_STATE = svFREE) ∧
    (let s := wSt (pDev modeIDLE ptpL fun x => { x with gm := some 77 });
      s.awake ∧ ptpOn 1 eth0 s.dev = true ∧ ptpServes 1 s.dev = true) ∧
    (let s := wSt (pDev modeIDLE ptpL fun x => { x with gm := some 77 });
      s.awake ∧ ptpOn 1 eth0 s.dev = true ∧ ptpServes 1 s.dev = true) ∧
    (let s := wSt (pDev modeIDLE ptpL fun x => { x with gm := some 77, port1 := { x.port1 with syncSeq := some (9, 5000000, 300) } });
      s.awake ∧ ptpOn 1 eth0 s.dev = true ∧ ptpServes 1 s.dev = true ∧ (ptpPort 1 s.dev).syncSeq = some (9, 5000000, 300)) ∧
    (let s := wSt (pDev modeIDLE ptpL id);
      s.awake ∧ ptpOn 1 eth0 s.dev = true) ∧
    (let s := wSt (pDev modeIDLE ptpL fun x => { x with port1 := { x.port1 with reqSeq := 8, reqTx := 100 } });
      s.awake ∧ ptpOn 1 eth0 s.dev = true ∧ 8 = (ptpPort 1 s.dev).reqSeq % 2 ^ 16) := by decide

theorem witness_PtpMessages_b :
    (let s := wSt (pDev modeIDLE ptpL fun x => { x with port1 := { x.port1 with reqSeq := 8, reqTx := 100, respSeen := some 50000 } });
      s.awake ∧ (ptpPort 1 s.dev).respSeen = some 50000) ∧
    (let s := wSt (pDev modeIDLE ptpL fun x => { x with port1 := { x.port1 with reqSeq := 65535 } });
      s.awake ∧ netUp 1 s.dev = true ∧ s.dev.bit TM_CFG_PORTEN 1 = true ∧ s.dev.bit SV_STAT_RUN 0 = true) ∧
    (let s := wSt (pDev modeIDLE ptpL id);
      s.awake ∧ netUp 1 s.dev = true) ∧
    (let s := wSt (pDev modeIDLE (ptpL ++ [(TM_CNT_IGNCNT, 6)]) fun x => x);
      s.awake ∧ netUp 0 s.dev = true ∧ s.dev.bit TM_CFG_PORTEN 0 = true) ∧
    (let s := wSt (pDev modeIDLE [(TM_CFG_PORTEN, 2), (NT_STAT_UP0, 1), (SV_STAT_RUN, 15), (TM_CNT_IGNCNT, 6)] id);
      s.awake ∧ netUp 0 s.dev = true ∧ s.dev.bit TM_CFG_PORTEN 0 = false) := by decide

theorem witness_ServoStates_a :
    (let s := wSt (pDev modeIDLE (ptpL ++ [(TM_STAT_STATE, svACQUIRE),
        (TM_SRVCFG_LOCKTH, 1000)]) fun x => { x with gm := some 77, lockRun := 15 });
      s.awake ∧ ptpOn 1 eth0 s.dev = true ∧ ptpServes 1 s.dev = true ∧ s.dev.mode = modeIDLE ∧
          s.dev.get TM_STAT_STATE = svACQUIRE ∧ s.dev.tm.lockRun = 15 ∧
      (rdiv (ptpRx 1 99999999 s.dev - 99000000 - 7000 - (ptpPort 1 s.dev).pdly) 65536).natAbs ≤ s.dev.get TM_SRVCFG_LOCKTH) ∧
    (let s := wSt (pDev modeIDLE (ptpL ++ [(TM_STAT_STATE, svLOCKED),
        (TM_SRVCFG_LOCKTH, 10)]) fun x => { x with gm := some 77, badRun := 3 });
      s.awake ∧ s.dev.get TM_STAT_STATE = svLOCKED ∧ s.dev.tm.badRun = 3 ∧ 4 * s.dev.get TM_SRVCFG_LOCKTH <
      (rdiv (ptpRx 1 99999999 s.dev - 1000000 - 7000 - (ptpPort 1 s.dev).pdly) 65536).natAbs) ∧
    (let s := wSt (pDev modeIDLE (ptpL ++ [(TM_STAT_STATE, svLOCKED), (TM_JMPCFG_JMAX, 1),
        (SV_WPERM_TIME, 1)]) fun x => { x with gm := some 77 });
      s.awake ∧ ptpOn 1 eth0 s.dev = true ∧ ptpServes 1 s.dev = true ∧ s.dev.permits .sup .time = true ∧
          1000 * s.dev.get TM_JMPCFG_JMAX <
      (rdiv (ptpRx 1 999999999999 s.dev - 1000000 - 7000 - (ptpPort 1 s.dev).pdly) 65536).natAbs) ∧
    (let s := wSt (pDev modeIDLE (ptpL ++ [(TM_STAT_STATE, svLOCKED)]) fun x => { x with gm := some 77, port1 := { x.port1 with master := some ann } });
      s.awake ∧ s.dev.get TM_STAT_STATE = svLOCKED ∧ s.dev.bit SV_STAT_RUN 0 = true ∧ s.dev.tm.gm.isSome = true ∧
          s.dev.tm.port0.master = none) ∧
    (let s := wSt (pDev modeIDLE (ptpL ++ [(TM_STAT_STATE, svACQUIRE)]) fun x => { x with gm := some 77, port1 := { x.port1 with master := some ann }, port0 := { x.port0 with master := some { ann with port := 0, gmId := 78 } } });
      s.awake ∧ s.dev.bit SV_STAT_RUN 0 = true ∧ s.dev.tm.gm.isSome = true ∧ s.dev.tm.port0.master.isSome = true) ∧
    (let s := wSt (pDev modeIDLE (ptpL ++ [(TM_STAT_STATE, svHOLDOVER)]) id);
      s.awake ∧ s.dev.get TM_STAT_STATE = svHOLDOVER ∧ s.dev.bit SV_STAT_RUN 0 = true) := by decide

theorem witness_ServoStates_b :
    (let s := wSt (pDev modeIDLE [(PL_STAT_TLOCK, 1), (SV_STAT_RUN, 1)] fun x => { x with label := 777 });
      s.awake ∧ s.dev.flag PL_STAT_TLOCK = true ∧ s.dev.bit SV_STAT_RUN 0 = true) ∧
    (let s := wSt (pDev modeIDLE [(TM_STAT_STATE, svLOCKED), (SV_STAT_RUN, 14)] fun x => { x with gm := some 77 });
      s.awake ∧ s.dev.bit SV_STAT_RUN 0 = false) ∧
    (let s := wSt (pDev modeIDLE [(TM_STAT_STATE, svHOLDOVER), (SV_STAT_RUN, 14)] id);
      s.awake ∧ s.dev.bit SV_STAT_RUN 0 = false) ∧
    (let s := wSt (pDev modeIDLE [(PL_STAT_TLOCK, 1), (SV_STAT_RUN, 14)] fun x => { x with label := 777 });
      s.awake ∧ s.dev.bit SV_STAT_RUN 0 = false) := by decide


theorem witness_LaneSignals_a :
    (let s := wSt (wDev modeRUN [(LN_STAT_STATE 2, lnACTIVE), (LN_STAT_LOCK 2, 1)]);
      s.awake ∧ s.dev.lnState 2 = lnACTIVE ∧ s.dev.flag (LN_STAT_LOS 2) = false ∧ s.dev.flag (LN_STAT_RXSLEPT 2) = false) ∧
    (let s := wSt (wDev modeRUN [(LN_STAT_STATE 2, lnFASTRT), (LN_STAT_LOS 2, 1)]);
      s.awake) ∧
    (let s := wSt (wDev modeRUN [(LN_STAT_STATE 129, lnACTIVE), (LN_STAT_LOCK 129, 1)]);
      s.awake ∧ s.dev.lnState 129 = lnACTIVE ∧ s.dev.flag (LN_STAT_RXSLEPT 129) = false) ∧
    (let s := wSt (wDev modeIDLE [(LN_STAT_STATE 2, lnNEGOTIATE), (LN_STAT_LOCK 2, 1)]);
      s.awake ∧ s.dev.lnState 2 ≠ lnDOWN ∧ s.dev.flag (LN_STAT_RXSLEPT 2) = false ∧ s.dev.lnState 2 ≠ lnACTIVE) ∧
    (let s := wSt (wDev modeRUN [(LN_STAT_STATE 2, lnFASTRT), (LN_STAT_LOCK 2, 1)]);
      s.awake ∧ s.dev.lnState 2 = lnFASTRT ∧ s.dev.flag (LN_STAT_LOCK 2) = true) ∧
    (let s := wSt (wDev modeRUN [(LN_STAT_STATE 2, lnFASTRT)]);
      s.awake ∧ s.dev.lnState 2 = lnFASTRT ∧ s.dev.flag (LN_STAT_LOCK 2) = false) := by decide

theorem witness_LaneSignals_b :
    (let s := wSt (wDev modeIDLE [(LN_STAT_STATE 2, lnACQUIRE), (LN_STAT_LOCK 2, 1)]);
      s.awake ∧ s.dev.lnState 2 = lnACQUIRE ∧ s.dev.flag (LN_STAT_LOCK 2) = true ∧ s.dev.flag (LN_STAT_LOS 2) = false) ∧
    (let s := wSt (wDev modeIDLE [(LN_STAT_STATE 2, lnACQUIRE), (LN_TIMCFG_NACQ 2, 2)]);
      s.awake ∧ s.dev.lnState 2 = lnACQUIRE ∧ s.dev.flag (LN_STAT_LOS 2) = false ∧
          ¬ s.dev.get (LN_TIMCFG_NACQ 2) ≤ (s.dev.lane 2).acq + 1) ∧
    (let s := wSt (wDev modeIDLE [(LN_STAT_STATE 2, lnACQUIRE), (LN_TIMCFG_NACQ 2, 1)]);
      s.awake ∧ s.dev.lnState 2 = lnACQUIRE ∧ s.dev.flag (LN_STAT_LOS 2) = false ∧
          s.dev.get (LN_TIMCFG_NACQ 2) ≤ (s.dev.lane 2).acq + 1) ∧
    (let s := wSt (wDev modeIDLE [(LN_STAT_STATE 2, lnFAILED)]);
      s.awake ∧ s.dev.lnState 2 = lnFAILED) ∧
    (let s := wSt (wDev modeIDLE [(LN_STAT_STATE 2, lnACQUIRE)]);
      s.awake ∧ s.dev.lnState 2 ≠ lnDOWN ∧ s.dev.flag (LN_STAT_RXSLEPT 2) = false) := by decide

theorem witness_LaneControl :
    (let s := wSt (wDev modeIDLE [(LN_STAT_STATE 2, lnACTIVE), (LN_CTL_TXSLP 2, 0)]);
      s.awake ∧ s.dev.mode ≠ modeLOAD ∧ s.dev.permits .mp .lane = true ∧ s.dev.lnState 2 = lnACTIVE ∧
          s.dev.word (LN_CTL 2) = 0 ∧ s.dev.mode = modeIDLE) ∧
    (let s := wSt (wDev modeIDLE [(LN_STAT_STATE 2, lnACTIVE), (LN_CTL_TXSLP 2, 0)]);
      s.awake) ∧
    (let s := wSt (wDev modeIDLE [(LN_STAT_STATE 2, lnACTIVE), (LN_CTL_TXSLP 2, 0)]);
      s.awake) ∧
    (let s := wSt (wDev modeIDLE [(LN_STAT_STATE 2, lnACTIVE), (LN_CTL_TXSLP 2, 0)]);
      s.awake) ∧
    (let s := wSt (wDev modeIDLE [(LN_STAT_STATE 2, lnACTIVE), (LN_STAT_TXSLEPT 2, 1), (LN_CTL_TXSLP 2, 1)]);
      s.awake ∧ s.dev.permits .mp .lane = true ∧ s.dev.lnState 2 = lnACTIVE ∧ s.dev.word (LN_CTL 2) = 1) ∧
    (let s := wSt (wDev modeIDLE [(LN_STAT_STATE 2, lnACTIVE), (LN_STAT_RXSLEPT 2, 1), (LN_CTL_RXSLP 2, 1)]);
      s.awake ∧ s.dev.permits .mp .lane = true ∧ s.dev.lnState 2 = lnACTIVE ∧ s.dev.word (LN_CTL 2) = 2) := by decide

/-- Lane 1 waits in NEGOTIATE for the partner, which has relocked. -/
def pairNeg (l : List (Fld × Nat)) (p : Bool) : Dev := ((wDev modeIDLE ([(LN_STAT_STATE 2, lnNEGOTIATE),
    (LN_STAT_STEP 2, 1), (LN_STAT_LOCK 2, 1), (LN_STAT_STATE 3, lnNEGOTIATE), (LN_STAT_STEP 3, 1), (LN_STAT_LOCK 3, 1),
    (LN_CFG_EN 3, 1)] ++ l)).setLane 2 { lane0 2 with target := some 1 }).setLane 3 { lane0 3 with target := some 1, passed := p }

theorem witness_LaneRateSteps_a :
    (let s := wSt ((wDev modeIDLE [(LN_STAT_STATE 2, lnNEGOTIATE), (LN_STAT_STEP 2, 1), (LN_STAT_LOCK 2, 1),
        (LN_CFG_MAXSTEP 2, 3),
      (QU_STAT_CHAIN 1, chONLYA), (LN_CFG_MAXSTEP 3, 3),
          (LN_STAT_STATE 3, lnDOWN)]).setLane 2 { lane0 2 with target := some 1 });
      s.awake ∧ s.dev.lnState 2 = lnNEGOTIATE ∧ alone 2 s.dev = true ∧ (s.dev.lane 2).target = some 1 ∧
          1 = s.dev.get (LN_STAT_STEP 2) ∧
      s.dev.flag (LN_STAT_LOCK 2) = true ∧ s.dev.flag GL_TWCFG_PAIR = false ∧ 1 < stepCap 2 s.dev) ∧
    (let s := wSt ((wDev modeIDLE [(LN_STAT_STATE 2, lnNEGOTIATE), (LN_STAT_STEP 2, 1), (LN_STAT_LOCK 2, 1),
        (LN_CFG_MAXSTEP 2, 1),
      (QU_STAT_CHAIN 1, chONLYA), (LN_CFG_MAXSTEP 3, 1),
          (LN_STAT_STATE 3, lnDOWN)]).setLane 2 { lane0 2 with target := some 1 });
      s.awake ∧ s.dev.lnState 2 = lnNEGOTIATE ∧ alone 2 s.dev = true ∧ (s.dev.lane 2).target = some 1 ∧ ¬ 1 < stepCap 2 s.dev) ∧
    (let s := wSt ((wDev modeIDLE [(LN_STAT_STATE 2, lnNEGOTIATE), (LN_STAT_STEP 2, 1), (LN_STAT_LOCK 2, 1),
        (LN_CFG_MAXSTEP 2, 3),
      (QU_STAT_CHAIN 1, chONLYA), (LN_STAT_STATE 3, lnDOWN)]).setLane 2 { lane0 2 with target := some 1 });
      s.awake ∧ s.dev.lnState 2 = lnNEGOTIATE ∧ alone 2 s.dev = true) ∧
    (let s := wSt (pairNeg [(LN_CFG_MAXSTEP 2, 3), (LN_CFG_MAXSTEP 3, 3)] false);
      s.awake ∧ s.dev.lnState 2 = lnNEGOTIATE ∧ alone 2 s.dev = false ∧ (s.dev.lane 2).target = some 1 ∧
          (s.dev.lane 3).target = some 1 ∧
      s.dev.lnState 3 = lnNEGOTIATE ∧ s.dev.get (LN_STAT_STEP 3) = 1 ∧ (s.dev.lane 3).fell = false ∧
          (s.dev.lane 3).passed = false) ∧
    (let s := wSt (pairNeg [(LN_CFG_MAXSTEP 2, 3), (LN_CFG_MAXSTEP 3, 2)] true);
      s.awake ∧ alone 2 s.dev = false ∧ (s.dev.lane 3).passed = true ∧ 1 < stepCap 2 s.dev ∧ 1 < stepCap 3 s.dev) ∧
    (let s := wSt (pairNeg [(LN_CFG_MAXSTEP 2, 3), (LN_CFG_MAXSTEP 3, 1)] true);
      s.awake ∧ alone 2 s.dev = false ∧ (s.dev.lane 3).passed = true ∧ ¬ 1 < stepCap 3 s.dev) := by decide

theorem witness_LaneRateSteps_b :
    (let s := wSt (pairNeg [(LN_CFG_MAXSTEP 2, 3), (LN_CFG_MAXSTEP 3, 3)] true);
      s.awake ∧ alone 2 s.dev = false ∧ s.dev.lnState 3 = lnNEGOTIATE) := by decide

theorem witness_LaneBlocks :
    (let s := wSt ((wDev modeIDLE [(LN_STAT_STATE 2, lnACTIVE)]).setLane 2 { lane0 2 with orgCand := 255, orgRun := 3 });
      s.awake ∧ s.dev.fc.inj = none ∧ 255 < 256 ∧ s.dev.lnState 2 ≠ lnDOWN ∧ s.dev.flag (LN_STAT_ORGV 2) = false ∧
          (s.dev.lane 2).orgCand = 255) ∧
    (let s := wSt ((wDev modeIDLE [(LN_STAT_STATE 2, lnACTIVE)]).setLane 2 { lane0 2 with orgCand := 255, orgRun := 16 });
      s.awake ∧ 16 ≤ (s.dev.lane 2).orgRun) ∧
    (let s := wSt (wDev modeIDLE [(LN_STAT_STATE 2, lnACTIVE)]);
      s.awake ∧ s.dev.lnState 2 ≠ lnDOWN ∧ s.dev.flag (LN_STAT_RXSLEPT 2) = false ∧ blockAssigned (blockType 0x77) = false) ∧
    (let s := wSt (wDev modeIDLE [(LN_STAT_STATE 2, lnACTIVE), (LN_PRBSCTL_SYNC 2, 1), (LN_PRBSCTL_CHK 2, 1),
        (LN_PRBSCTL_PAT 2, 3)]);
      s.awake ∧ s.dev.lnState 2 ≠ lnDOWN ∧ s.dev.flag (LN_PRBSCTL_SYNC 2) = true) ∧
    (let s := wSt (wDev modeIDLE [(LN_STAT_STATE 129, lnNEGOTIATE), (LN_STAT_LOCK 129, 1)]);
      s.awake ∧ s.dev.lnState (128 + 1) = lnNEGOTIATE) ∧
    (let s := wSt ((wDev modeIDLE [(LN_STAT_STATE 2, lnACTIVE)]).setLane 2 { lane0 2 with eqHeld := [(3, 2)], eqGen := 4 });
      s.awake ∧ (s.dev.lane 2).eqHeld ≠ []) := by decide

theorem witness_LanePatternTest :
    (let s := wSt (wDev modeIDLE [(LN_STAT_STATE 2, lnACTIVE), (LN_PRBSCTL_PAT 2, 0)]);
      s.awake ∧ s.dev.mode = modeIDLE ∧ s.dev.permits .smpm .lane = true ∧ s.dev.lnState 2 = lnACTIVE ∧
          s.dev.word (LN_PRBSCTL 2) = 0) ∧
    (let s := wSt (wDev modeIDLE [(LN_STAT_STATE 2, lnACTIVE), (LN_PRBSCTL_PAT 2, 0)]);
      s.awake) ∧
    (let s := wSt (wDev modeIDLE [(LN_STAT_STATE 2, lnACTIVE), (LN_PRBSCTL_PAT 2, 0)]);
      s.awake) ∧
    (let s := wSt (wDev modeIDLE [(LN_STAT_STATE 2, lnACTIVE), (LN_PRBSCTL_PAT 2, 0)]);
      s.awake) ∧
    (let s := wSt ((wDev modeIDLE [(LN_STAT_STATE 2, lnACTIVE), (LN_PRBSCTL_CHK 2, 1),
        (LN_PRBSCTL_PAT 2, 1)]).setLane 2 { lane0 2 with chk := some 5, chkRun := 63 });
      s.awake ∧ s.dev.lnState 2 = lnACTIVE ∧ s.dev.flag (LN_PRBSCTL_CHK 2) = true ∧ (s.dev.lane 2).chk = some 5 ∧
          (s.dev.lane 2).chkRun = 63) ∧
    (let s := wSt ((wDev modeIDLE [(LN_STAT_STATE 2, lnACTIVE), (LN_PRBSCTL_CHK 2, 1), (LN_PRBSCTL_PAT 2, 5),
        (LN_PRBSCTL_SYNC 2, 1)]).setLane 2 { lane0 2 with chk := some 5 });
      s.awake ∧ s.dev.flag (LN_PRBSCTL_CHK 2) = true ∧ (s.dev.lane 2).chk = some 5 ∧
          s.dev.flag (LN_PRBSCTL_SYNC 2) = true) := by decide

theorem witness_LaneTiming_a :
    (let s := wSt ((wDev modeRUN [(LN_STAT_STATE 2, lnACTIVE),
        (LN_TMXCFG_ASYMCOR 2, 0)]).setLane 2 { lane0 2 with tmx := [⟨3, 5, 2 ^ 32 - 1, true⟩] });
      s.awake ∧ s.dev.fc.inj = none ∧
          ((s.dev.lane 2).tmx.find? fun x => x.tag == 3 && x.pos == 5) = some ⟨3, 5, 2 ^ 32 - 1, true⟩ ∧
      (159999 + 2 ^ 32 - (2 ^ 32 - 1) % 2 ^ 32) % 2 ^ 32 ≤ 160000 ∧ (s.dev.posD 2 5).valid = false ∧
          (s.dev.posD 2 5).calN + 1 < 256) ∧
    (let s := wSt ((wDev modeRUN [(LN_STAT_STATE 2, lnACTIVE), (LN_TMXCFG_ASYMCOR 2, 0),
        (LN_TMXCFG_JUMP 2, 16)]).setLane 2 { lane0 2 with
      tmx := [⟨3, 5, 10, false⟩], ds := [(5, { posD0 5 with valid := true, d := 1000 })] });
      s.awake ∧ ((s.dev.lane 2).tmx.find? fun x => x.tag == 3 && x.pos == 5) = some ⟨3, 5, 10, false⟩ ∧
          (s.dev.posD 2 5).valid = true ∧
      (s.dev.posD 2 5).rep = none ∧
          absN (rdiv ((2298 + 2 ^ 32 - 10) % 2 ^ 32 - 256) 2 - (s.dev.posD 2 5).d) ≤ s.dev.get (LN_TMXCFG_JUMP 2)) ∧
    (let s := wSt ((wDev modeRUN [(LN_STAT_STATE 2, lnACTIVE), (LN_TMXCFG_ASYMCOR 2, 0),
        (LN_TMXCFG_JUMP 2, 200)]).setLane 2 { lane0 2 with
      tmx := [⟨3, 5, 0, false⟩], ds := [(5, { posD0 5 with valid := true, d := 100 })] });
      s.awake ∧ (s.dev.posD 2 5).valid = true ∧ (s.dev.posD 2 5).rep = none ∧
          absN (rdiv (100 - 256) 2 - (s.dev.posD 2 5).d) ≤ s.dev.get (LN_TMXCFG_JUMP 2)) ∧
    (let s := wSt ((wDev modeIDLE [(LN_STAT_STATE 2, lnACTIVE)]).setLane 2 { lane0 2 with tmx := [⟨3, 5, 10, false⟩, ⟨4, 6, 11, false⟩] });
      s.awake ∧ s.dev.converting = false) ∧
    (let s := wSt (wDev modeIDLE [(LN_STAT_STATE 2, lnACTIVE), (QU_STAT_CHAIN 1, chINTACT)]);
      s.awake ∧ s.dev.get (QU_STAT_CHAIN (2 / 2)) = chINTACT) ∧
    (let s := wSt (wDev modeIDLE [(LN_STAT_STATE 129, lnACTIVE), (LN_STAT_TXSLEPT 129, 1), (PL_STAT_SLOCK, 1)]);
      s.awake ∧ s.dev.lnState (128 + 1) = lnACTIVE ∧ txOn 129 s.dev = false) := by decide

theorem witness_LaneTiming_b :
    (let s := wSt (wDev modeIDLE [(LN_STAT_STATE 129, lnACTIVE), (PL_STAT_SLOCK, 1)]);
      s.awake ∧ s.dev.lnState (128 + 1) = lnACTIVE ∧ txOn 129 s.dev = true) := by decide

theorem witness_LaneFrame :
    (let s := wSt (wDev modeIDLE [(LN_STAT_STATE 2, lnFAILED)]);
      s.awake ∧ s.dev.fc.inj = none ∧ (match exec (.failedRetry 2) s with | .next _ => true | _ => false) = true) := by decide

/-- A quire of region 2 in IDLE, period 300. -/
def qDev (l : List (Fld × Nat)) (x : QuireSt) : Dev :=
  let d := wDev modeIDLE ([(QU_CFG_ASSIGNED 3, 1), (QU_CFG_REGION 3, 2), (QU_CFG_NPOS 3, 2)] ++ l)
  ({ d with tm := { d.tm with grid := true, jAbs := 300, bj := 3000000 } }).setQuire 3 x

theorem witness_FrameBuildAndRelease :
    (let s := wSt (qDev [(RG_STAT_STATE 2, rgOFF), (CE_STAT_STATE 384, ceHEALTHY), (QU_FRMCFG_ADV 3, 1000)] (quire0 3));
      s.awake ∧ s.dev.live = true ∧ s.dev.tm.grid = true ∧ (s.dev.quireRegion 3).isSome = true ∧
          (s.dev.quire 3).lastJ ≠ s.dev.tm.jAbs + 1 ∧
      gapNext s.dev = false) ∧
    (let s := wSt (qDev [(RG_STAT_STATE 2, rgRUN), (CE_STAT_STATE 384, ceHEALTHY), (QU_FRMCFG_ADV 3, 1000)] (quire0 3));
      s.awake ∧ (s.dev.quire 3).built = none) ∧
    (let s := wSt (qDev [(LN_STAT_STATE 6, lnACTIVE), (LN_STAT_STATE 7, lnDOWN), (PL_STAT_SLOCK, 1),
        (QU_SLOTCTL_PEND 3, 1), (QU_FRMCFG_ADV 3, 1000), (QU_SLOTI_REACHA 3, 2)]
      { quire0 3 with again := true, built := some ⟨301, (0, 0), [(0, 7, 1, segConst 1),
          (1, 0, 1, segConst 1)], none, 0x202, true, false, false⟩ });
      s.awake ∧ s.dev.live = true ∧ (Instr.frameRelease 3 160 160).wf = true ∧ (s.dev.quire 3).built.isSome = true) ∧
    (let s := wSt (qDev [(LN_STAT_STATE 6, lnACTIVE), (PL_STAT_SLOCK, 1), (QU_FRMCFG_ADV 3, 1000)]
      { quire0 3 with built := some ⟨300, (0, 0), [(0, 0, 1, segConst 1),
          (1, 0, 1, segConst 1)], none, 0x202, true, false, false⟩ });
      s.awake ∧ (Instr.frameRelease 3 160 160).wf = true ∧ (s.dev.quire 3).built.isSome = true) ∧
    (let s := wSt (qDev [(RG_STAT_STATE 2, rgRUN), (CE_STAT_STATE 384, ceHEALTHY), (QU_FRMCFG_ADV 3, 1000)]
      { quire0 3 with lastJ := 301, built := some ⟨301, (0, 0), [], none, 0x202, true, false, false⟩ });
      s.awake ∧ ((s.dev.quire 3).built.any fun b => decide (b.j = s.dev.tm.jAbs + 1 ∧ b.standing = false)) = true) := by decide

theorem witness_ReachAndBudget :
    (let s := wSt ((wDev modeRUN [(LN_STAT_STATE 6, lnACTIVE),
        (LN_STAT_ORGV 6, 0)]).setLane 6 { lane0 6 with hopVal := 5, hopRun := 2 });
      s.awake ∧ s.dev.fc.inj = none ∧ s.dev.lnState 6 = lnACTIVE ∧ (5 : BitVec 8).toNat ≤ 0x80) ∧
    (let s := wSt ((wDev modeRUN [(LN_STAT_STATE 6, lnACTIVE),
        (LN_STAT_ORGV 6, 0)]).setLane 6 { lane0 6 with hopVal := 5, hopRun := 2, hopGap := 2 });
      s.awake ∧ s.dev.fc.inj = none ∧ s.dev.lnState 6 = lnACTIVE) ∧
    (let s := wSt ((wDev modeRUN [(QU_CFG_ASSIGNED 3, 1), (QU_CFG_NPOS 3, 9), (QU_STAT_CHAIN 3, chINTACT),
        (QU_SLOTCTL_PEND 3, 0)]).setLane 7 { lane0 7 with hopVal := 5, hopRun := 4 });
      s.awake ∧ 4 ≤ (s.dev.lane 7).hopRun ∧ s.dev.get (QU_STAT_CHAIN 3) ≠ chUNSETTLED) ∧
    (let s := wSt ((wDev modeRUN [(QU_STAT_CHAIN 3, chINTACT)]).setQuire 3 { quire0 3 with budRun := 64 });
      s.awake ∧ 64 ≤ (s.dev.quire 3).budRun) ∧
    (let s := wSt ((wDev modeRUN [(LN_STAT_STATE 6, lnACTIVE), (LN_STAT_ORGV 6, 1), (LN_STAT_ORIGIN 6, 6),
        (QU_STAT_CHAIN 3, chONEWAY)]).setLane 6 { lane0 6 with hopVal := 5, hopRun := 2 });
      s.awake ∧ s.dev.get (QU_STAT_CHAIN 3) = chONEWAY ∧ originKind 3 0 s.dev ≠ 1) := by decide

theorem witness_EventWindow :
    (let s := wSt (qDev [] { quire0 3 with reqs := [(44, 2)] });
      s.awake ∧ s.dev.live = true ∧ (s.dev.quireRegion 3).isSome = true ∧ BitVec.ofNat 8 s.dev.tm.jAbs = 44#8) ∧
    (let s := wSt (qDev [(LN_STAT_STATE 7, lnACTIVE)] { quire0 3 with evgs := [⟨44, 0x202, [some 1, none], [none, none]⟩], evSeen := [(44, 0)], slots := [(0, ⟨1, false, false, 3, [], [44], []⟩)] });
      s.awake ∧ (s.dev.quire 3).evSeen.contains (44, 0) = true) ∧
    (let s := wSt (qDev [(QU_EVCNT_EVBADCNT 3, 7),
        (LN_STAT_STATE 7, lnACTIVE)] { quire0 3 with evgs := [⟨44, 0x202, [some 1, none], [none, none]⟩] });
      s.awake ∧ (s.dev.quireRegion 3).isSome = true ∧ s.dev.lnState (2 * 3 + b2n true) = lnACTIVE ∧
          (s.dev.quire 3).evSeen.contains (44, 0) = false ∧
      (crc8 120 ((77 : BitVec 128).toNat % 2 ^ 120) ≠ (77 : BitVec 128).toNat / 2 ^ 120)) ∧
    (let s := wSt (qDev [(QU_EVCNT_EVBADCNT 3, 7),
        (LN_STAT_STATE 7, lnACTIVE)] { quire0 3 with evgs := [⟨44, 0x202, [some 1, none], [none, none]⟩] });
      s.awake ∧ (s.dev.quireRegion 3).isSome = true ∧ (s.dev.quire 3).evSeen.contains (44, 1) = false ∧
          ecodeAssigned 0xFF = false) ∧
    (let s := wSt (qDev [(QU_EVCNT_EVBADCNT 3, 7),
        (LN_STAT_STATE 7, lnACTIVE)] { quire0 3 with evgs := [⟨44, 0x202, [some 1, none], [none, none]⟩] });
      s.awake ∧ (s.dev.quireRegion 3).isSome = true ∧
          (((s.dev.quire 3).evgs.find? fun f => f.fs == 44).bind fun f => f.grants.getD 1 none) = none) ∧
    (let s := wSt (qDev [(QU_EVCNT_EVBADCNT 3, 7),
        (LN_STAT_STATE 7, lnACTIVE)] { quire0 3 with evgs := [⟨44, 0x202, [some 1, none], [none, none]⟩], slots := [(0, ⟨1, false, false, 3, [], [43, 44], []⟩)] });
      s.awake ∧ (((s.dev.quire 3).evgs.find? fun f => f.fs == 44).bind fun f => f.grants.getD 0 none) = some 1 ∧
          crc8 120 2 * 2 ^ 120 + 2 < 2 ^ 128 ∧
          ecodeAssigned ((BitVec.ofNat 128 (crc8 120 2 * 2 ^ 120 + 2)).toNat % 256) = true ∧
      smLook (s.dev.quire 3).slots 0 = some ⟨1, false, false, 3, [], [43, 44], []⟩) := by decide +kernel

theorem witness_QuireFrame :
    (let s := wSt (qDev [] { quire0 3 with budRun := 64 });
      s.awake ∧ s.dev.fc.inj = none) := by decide

/-- A cell engine of region 2 in RUN, period 300. -/
def cDev (l : List (Fld × Nat)) (x : CellSt) : Dev :=
  let d := wDev modeRUN ([(QU_CFG_ASSIGNED 3, 1), (QU_CFG_REGION 3, 2), (QU_CFG_NPOS 3, 2), (RG_STAT_STATE 2, rgCHARGE)] ++ l)
  ({ d with tm := { d.tm with grid := true, jAbs := 300, bj := 3000000, label := 3000000 * 2 ^ 33 } }).setCell 385 x

/-- A report of the period before, with its CRC. -/
def cRaw : BitVec 128 :=
  let b := 1000 + 43 * 2 ^ 32
  BitVec.ofNat 128 (b + crc8 120 b * 2 ^ 120)

theorem witness_ReportAccepted :
    (let s := wSt (cDev [(LN_STAT_STATE 6, lnACTIVE), (CE_STAT_STATE 385, ceHEALTHY)] (cell0 385));
      s.awake ∧ s.dev.live = true ∧ s.dev.lnState (2 * (385 / 128) + b2n false) = lnACTIVE ∧ s.dev.cellRegion 385 = some 2 ∧
      s.dev.ceState 385 ≠ ceUNREG ∧ s.dev.ceState 385 ≠ ceRETIRED ∧ crc8 120 (cRaw.toNat % 2 ^ 120) = cRaw.toNat / 2 ^ 120 ∧
      bitsOf cRaw.toNat 32 8 = (s.dev.tm.jAbs + 255) % 256 ∧ (s.dev.cell 385).got = false) ∧
    (let s := wSt (cDev [(LN_STAT_STATE 6, lnACTIVE), (CE_STAT_STATE 385, ceHEALTHY),
        (CE_VHAT_VHAT 385, 777)] { cell0 385 with got := true });
      s.awake ∧ s.dev.cellRegion 385 = some 2 ∧ bitsOf cRaw.toNat 32 8 = (s.dev.tm.jAbs + 255) % 256 ∧
          (s.dev.cell 385).got = true ∧
      (s.dev.cell 385).lastCopy ≠ some (!false, cRaw.toNat)) ∧
    (let s := wSt ({ cDev [(LN_STAT_STATE 6, lnACTIVE), (CE_STAT_STATE 385, ceHEALTHY),
        (CE_VHAT_VHAT 385, 777)] (cell0 385) with tm := { tm0 with jAbs := 301 } });
      s.awake ∧ s.dev.cellRegion 385 = some 2 ∧ bitsOf cRaw.toNat 32 8 ≠ (s.dev.tm.jAbs + 255) % 256) := by decide +kernel

theorem witness_CellCommands_a :
    (let s := wSt (cDev [(CE_STAT_STATE 385, ceSUSPECT), (CE_CFG2_TSUS 385, 1)] { cell0 385 with susp := 15 });
      s.awake ∧ s.dev.ceState 385 = ceSUSPECT ∧ 16 * s.dev.get (CE_CFG2_TSUS 385) ≤ (s.dev.cell 385).susp + 1 ∧
          (s.dev.cell 385).tByp = 0) ∧
    (let s := wSt (cDev [(CE_STAT_STATE 385, ceHEALTHY)] { cell0 385 with win := 4095, nc := 20, sqv := 5, sqq := 7 });
      s.awake ∧ s.dev.ceState 385 = ceHEALTHY ∧ s.dev.get (CE_CFG4_EWIN 385) ≤ (s.dev.cell 385).win + 1) ∧
    (let s := wSt (cDev [(CE_STAT_STATE 385, ceHEALTHY)] { cell0 385 with win := 4095, nr := 20, sex := 5, sxx := 7 });
      s.awake ∧ s.dev.ceState 385 = ceHEALTHY ∧ s.dev.get (CE_CFG4_EWIN 385) ≤ (s.dev.cell 385).win + 1) ∧
    (let s := wSt (cDev [(CE_STAT_STATE 385, ceHEALTHY)] { cell0 385 with win := 4094, nc := 20, sqv := 5 });
      s.awake ∧ s.dev.ceState 385 = ceHEALTHY ∧ (s.dev.cell 385).win + 1 < s.dev.get (CE_CFG4_EWIN 385)) ∧
    (let s := wSt (cDev [(CE_STAT_STATE 385, ceHEALTHY)] { cell0 385 with diag := 2 });
      s.awake ∧ (s.dev.cell 385).diag = 2) ∧
    (let s := wSt (cDev [(CE_STAT_STATE 385, ceBYPASSED)] (cell0 385));
      s.awake ∧ s.dev.mode ≠ modeLOAD ∧ s.dev.permits .mp .cell = true ∧ s.dev.ceState 385 = ceBYPASSED ∧
          cellInRun 385 s.dev = false ∧ (s.dev.cell 385).tRel = false) := by decide

theorem witness_CellCommands_b :
    (let s := wSt (cDev [(CE_STAT_STATE 385, ceHEALTHY)] (cell0 385));
      s.awake ∧ s.dev.mode ≠ modeLOAD ∧ s.dev.permits .mp .cell = true ∧ s.dev.ceState 385 ≠ ceUNREG ∧
          s.dev.ceState 385 ≠ ceRETIRED ∧ s.dev.flag (CE_CTL_BYPASS 385) = false) ∧
    (let s := wSt (cDev [(CE_STAT_STATE 385, ceHEALTHY)] (cell0 385));
      s.awake ∧ s.dev.permits .mp .cell = true ∧ diagArgOk 4 31 = true ∧ diagPermits 385 4 false s.dev = true ∧
          (s.dev.cell 385).diag = 0) ∧
    (let s := wSt (cDev [(CE_STAT_STATE 385, ceHEALTHY)] { cell0 385 with diag := 3, dCode := 2, dArg := 7 });
      s.awake ∧ s.dev.permits .mp .cell = true ∧ diagArgOk 4 31 = true ∧ diagPermits 385 4 true s.dev = true ∧
          (s.dev.cell 385).diag = 3) ∧
    (let s := wSt (({ cDev [(RG_BLKCFG_TSTEP 2, 4), (RG_BLKCFG_CONFN 2, 2)] { cell0 385 with owes := 1 } with
      tm := { tm0 with label := 4000000 * 2 ^ 33, jAbs := 400, bj := 4000000, grid := true } }).setRegionSt 2 { region0 2 with ovr := some ⟨300, 0, true⟩ });
      s.awake ∧ (s.dev.region 2).ovr = some ⟨300, 0, true⟩ ∧
      300 * s.dev.T + 2 * tStep 2 s.dev + s.dev.get (RG_BLKCFG_CONFN 2) * s.dev.T ≤ s.dev.nowTick ∧
      0 < ((s.dev.cellsOf 2).filter fun n => (s.dev.cell n).owes != 0).length) := by decide

theorem witness_CellFrame :
    (let s := wSt (cDev [(CE_STAT_STATE 385, ceHEALTHY)] { cell0 385 with diag := 2 });
      s.awake ∧ (s.dev.cell 385).diag = 2) := by decide

theorem witness_LowReadKeepsHigh :
    (let s := wSt ({ wDev modeRUN [] with adq := [5 + 7 * 2 ^ 32, 9] });
      s.awake ∧ smGet (fun _ => []) s.dev.snaps (snapKey .smpm AD_QLO) = []) ∧
    (let s := wSt ({ wDev modeRUN [] with dr := { dr0 with xAsserted := 0 } });
      s.awake ∧ smGet (fun _ => []) s.dev.snaps (snapKey .mp TM_NOW0) = []) ∧
    (let s := { wSt (wDev modeRUN []) with recMem := [(3, 77 * 2 ^ 100 + 5 * 2 ^ 200)] };
      s.awake ∧ smGet (fun _ => []) s.dev.snaps (snapKey .mp (0x10000000 + 32 * 3)) = []) ∧
    (let s := wSt (wDev modeRUN [(CE_REP_REP 385 1, 4), (CE_REP_REP 385 2, 5)]);
      s.awake ∧ smGet (fun _ => []) s.dev.snaps (snapKey .mp (CE_REP 385 0)) = []) ∧
    (let s := wSt (wDev modeRUN [(CE_IDHI_ID 385, 4)]);
      s.awake ∧ smGet (fun _ => []) s.dev.snaps (snapKey .mp (CE_IDLO 385)) = []) ∧
    (let s := wSt ((wDev modeRUN []).setAin 5 { ain0 5 with p0 := ⟨-5, 2, -4, -1⟩ });
      s.awake ∧ smGet (fun _ => []) s.dev.snaps (snapKey .mp (PSUMLO 5)) = []) := by decide

/-- A plan that selects nothing, with its digest. -/
def gCand (x : Nat) : Cand := ⟨⟨301, 0, 0, false, false, false, false, none, false, false, 1, 0, [], 0⟩, false, false, x⟩

/-- An output of the law. -/
def gLaw : LawOut := ⟨0, 100, 0, ctl0, false, false, false, false⟩

/-- Inputs of the law. -/
def gIn : LawIn := ⟨0, 0, 16384, 0, 0, 0, 0, 0, 0, 0, 1000, 1000, none, false⟩

/-- Region 2 in RUN with one quire and two ACTIVE channels. -/
def gDev (l : List (Fld × Nat)) (r : RegionSt) : Dev :=
  let d := wDev modeRUN ([(QU_CFG_ASSIGNED 3, 1), (QU_CFG_REGION 3, 2), (QU_CFG_NPOS 3, 2), (RG_STAT_STATE 2, rgRUN),
    (CE_STAT_STATE 384, ceHEALTHY), (CE_STAT_STATE 385, ceUNREG), (CH_STAT_STATE 2 0, chACTIVE), (CH_STAT_STATE 2 1, chACTIVE),
    (CH_STAT_STATE 2 2, chLOST), (RG_MODCFG1_GDL 2, 20)] ++ l)
  ({ d with tm := { d.tm with grid := true, jAbs := 300, bj := 3000000 } }).setRegionSt 2 r

theorem witness_PlanGathering :
    (let s := wSt (gDev [] (region0 2));
      s.awake ∧ planning 2 s.dev = true ∧ (s.dev.region 2).rdlPast = false) ∧
    (let s := wSt (gDev [] { region0 2 with rdlPast := true, keys := [(3, [⟨384, 1000, 5, 6⟩])] });
      s.awake ∧ s.dev.quireRegion 3 = some 2 ∧ (s.dev.region 2).rdlPast = true ∧
      (s.dev.region 2).gdlPast = false ∧ 2000 < planTick (s.dev.get (RG_MODCFG1_GDL 2)) s.dev) ∧
    (let s := wSt (gDev [] { region0 2 with rdlPast := true });
      s.awake ∧ (s.dev.region 2).gdlPast = false ∧ (∃ q ∈ s.dev.quiresOf 2, smLook (s.dev.region 2).gath q = none)) := by decide

/-- Region 2 in RUN, whose channel A has its law but no plan at the vote. -/
def lateDev : Dev := gDev [] { region0 2 with voteDone := true, chA := { chan0 with law := some gLaw } }

/-- That device once the plan that A would make is voted. -/
def lateSt : State := wSt (lateDev.onRegion 2 fun r => { r with voted := some (channelPlan 2 0 0 none gLaw lateDev).p })

/-- A digest with three bits changed is another digest. -/
theorem upset_differs (n : Nat) : n ^^^ 7 ≠ n := by
  intro h
  have e : n ^^^ (n ^^^ 7) = n ^^^ n := by rw [h]
  rw [← Nat.xor_assoc, Nat.xor_self, Nat.zero_xor] at e
  exact absurd e (by decide)

/-- What an upset does to a plan of that channel: the digest alone differs. -/
theorem late_digest (u : Nat) : (channelPlan 2 0 u (lateSt.dev.region 2).sqUsed gLaw lateSt.dev).digest =
    planDigest 2 (channelPlan 2 0 0 none gLaw lateDev).p lateSt.dev ^^^ u := rfl

theorem witness_PlanComputed_late :
    lateSt.awake ∧ (∃ p ∈ (lateSt.dev.region 2).voted, p.hold = false ∧
      (channelPlan 2 0 0 (lateSt.dev.region 2).sqUsed gLaw lateSt.dev).digest = planDigest 2 p lateSt.dev ∧
      (channelPlan 2 0 7 (lateSt.dev.region 2).sqUsed gLaw lateSt.dev).digest ≠ planDigest 2 p lateSt.dev) ∧
    (lateSt.dev.region 2).voteDone = true ∧ ((lateSt.dev.region 2).chan 0).present = false ∧
    lateSt.dev.get (CH_STAT_STATE 2 0) ≠ chRESYNC ∧ (lateSt.dev.region 2).vdlPast = false ∧ planning 2 lateSt.dev = true :=
  ⟨by decide, ⟨(channelPlan 2 0 0 none gLaw lateDev).p, rfl, rfl, (late_digest 0).trans (Nat.xor_zero _),
    fun h => upset_differs _ ((late_digest 7).symm.trans h)⟩, by decide⟩

theorem witness_PlanComputed :
    (let s := wSt (gDev [] { region0 2 with rdlPast := true, gdlPast := true, gath := [(3, ⟨[⟨384, 1000, 5, 6⟩], [⟨384, 1000, 5, 6⟩]⟩)], chA := { chan0 with law := some { gLaw with uref := 5000 } } });
      s.awake ∧ s.dev.fc.inj = none ∧ planning 2 s.dev = true ∧ chanRuns 2 0 s.dev = true ∧
          ((s.dev.region 2).chan 0).law = some { gLaw with uref := 5000 } ∧
      (s.dev.region 2).rdlPast = true ∧ (s.dev.region 2).gdlPast = true ∧ (s.dev.region 2).cpPast = false ∧
          (s.dev.region 2).voteDone = false ∧
      (s.dev.region 2).gathHold = false ∧ ((s.dev.region 2).chan 0).ra = none) ∧
    (let s := wSt (gDev [] { region0 2 with gath := [(3, ⟨[⟨384, 1000, 5, 6⟩], [⟨384, 1000, 5, 6⟩]⟩)], squash := some 8, chA := { chan0 with law := some gLaw } });
      s.awake ∧ (s.dev.region 2).squash = some 8 ∧ bitOf 8 0 = false ∧
      (s.dev.region 2).voteDone = false ∧ ((s.dev.region 2).chan 0).rc = none) ∧
    (let s := wSt (gDev [] { region0 2 with squash := some 1, csgnNew := true, rgdlPast := true, gath := [(3, ⟨[⟨384, 1000, 5, 6⟩], [⟨384, 1000, 5, 6⟩]⟩)], chA := { chan0 with law := some gLaw } });
      s.awake ∧ (s.dev.region 2).squash = some 1 ∧ bitOf 1 0 = true ∧ (s.dev.region 2).rgdlPast = true ∧
          regathered 2 s.dev = false ∧
      (s.dev.region 2).voteDone = false ∧ ((s.dev.region 2).chan 0).rc = none) ∧
    (let s := wSt (gDev [] { region0 2 with voted := some { (gCand 0).p with hold := true }, voteDone := true, chA := { chan0 with law := some gLaw } });
      s.awake ∧ (∃ p ∈ (s.dev.region 2).voted, p.hold = true) ∧ (s.dev.region 2).voteDone = true ∧
          chanRuns 2 0 s.dev = true ∧ planning 2 s.dev = true) := by decide

theorem agree_two (n : Nat) : voteOf [(0, n), (1, n)] 2 = .agree n 0 := by simp [voteOf]

theorem witness_PlanInstants_hold :
    (let s := wSt (gDev [] (region0 2));
      s.awake ∧ planning 2 s.dev = true ∧ (s.dev.region 2).pdlPast = false ∧
      (candsIn 2 chACTIVE (raOf 2 s.dev) s.dev).length < 2 ∧
      (let hs := candsIn 2 chACTIVE (fun c => some (holdCand 2 c s.dev)) s.dev
       voteOf hs hs.length = .agree (holdCand 2 0 s.dev).digest 0)) :=
  ⟨by decide, by decide, by decide, by decide, agree_two _⟩

theorem witness_PlanInstants_a :
    (let s := wSt (gDev [] { region0 2 with chA := { chan0 with ra := some (gCand 5) }, chB := { chan0 with ra := some (gCand 5) } });
      s.awake ∧ s.dev.assigned 2 = true ∧ (s.dev.region 2).cpPast = false ∧ planning 2 s.dev = true ∧
          (s.dev.region 2).voteDone = false ∧ (s.dev.region 2).cSetpt = false ∧
      (s.dev.region 2).cCell = false ∧ plannedLost 2 s.dev = false ∧ signCause 2 s.dev = none ∧
      (match voteOf (candsIn 2 chACTIVE (raOf 2 s.dev) s.dev) (chansIn 2 chACTIVE s.dev).length with
      | .agree 5 0 => true
      | _ => false) = true ∧ ((s.dev.region 2).chan 0).ra = some (gCand 5)) ∧
    (let s := wSt (gDev [] (region0 2));
      s.awake) ∧
    (let s := wSt (gDev [] { region0 2 with squash := some 8, chA := { chan0 with rc := some (gCand 5) }, chB := { chan0 with rc := some (gCand 5) } });
      s.awake ∧ planning 2 s.dev = true ∧ (s.dev.region 2).squash.isSome = true ∧ (s.dev.region 2).voteDone = false ∧
      (∀ c ∈ chansIn 2 chACTIVE s.dev, ((s.dev.region 2).chan c).rc.isSome = true) ∧
      (match voteOf (candsIn 2 chACTIVE (rcOf 2 s.dev) s.dev) (chansIn 2 chACTIVE s.dev).length with
      | .agree 5 0 => true
      | _ => false) = true ∧ ((s.dev.region 2).chan 0).rc = some (gCand 5)) ∧
    (let s := wSt (gDev [] { region0 2 with squash := some 8, chA := { chan0 with rc := some (gCand 5) } });
      s.awake ∧ planning 2 s.dev = true ∧ (s.dev.region 2).squash.isSome = true ∧ (s.dev.region 2).voteDone = false) ∧
    (let s := wSt (gDev [(SV_PLIM_LMAX 2, 6400)] { region0 2 with voted := some { (gCand 5).p with l := 301 }, voteDone := true, gath := [(3, ⟨[], []⟩)], chA := { chan0 with present := true }, chB := { chan0 with present := true } });
      s.awake ∧ s.dev.assigned 2 = true ∧ s.dev.live = true ∧ (s.dev.region 2).vdlPast = false ∧ planning 2 s.dev = true ∧
      (∀ c ∈ chansIn 2 chACTIVE s.dev, ((s.dev.region 2).chan c).present = true) ∧
          (s.dev.region 2).voted = some { (gCand 5).p with l := 301 } ∧
          planLimitOk 2 { (gCand 5).p with l := 301 } s.dev = true) ∧
    (let s := wSt (gDev [] { region0 2 with voteDone := true, gath := [(3, ⟨[], []⟩)], chA := { chan0 with present := true }, chB := { chan0 with present := true } });
      s.awake ∧ s.dev.assigned 2 = true ∧ s.dev.live = true ∧ (s.dev.region 2).vdlPast = false ∧ planning 2 s.dev = true ∧
      (∀ c ∈ chansIn 2 chACTIVE s.dev, ((s.dev.region 2).chan c).present = true) ∧ (s.dev.region 2).voted = none) := by decide

theorem witness_PlanInstants_b :
    (let s := wSt (gDev [] { region0 2 with pdlPast := true });
      s.awake ∧ planning 2 s.dev = true ∧ (s.dev.region 2).pdlPast = true ∧ (s.dev.region 2).voteDone = false) := by decide

theorem witness_LawRuns :
    (let s := wSt (gDev [(RG_STAT_LAWRDY 2, 1)] { region0 2 with lawIn := some gIn });
      s.awake ∧ s.dev.fc.inj = none ∧ s.dev.assigned 2 = true ∧
      s.dev.rgState 2 ≠ rgOFF ∧ chanRuns 2 0 s.dev = true ∧ ((s.dev.region 2).chan 0).law = none ∧
      (s.dev.region 2).lawIn.isSome = true ∧ lawReady 2 s.dev = true ∧ (lawCompute 2 (asChan 2 0 s.dev)).isSome = true) ∧
    (let s := wSt (gDev [(RG_STAT_LAWRDY 2, 1)] { region0 2 with lawIn := some gIn });
      s.awake ∧ ((s.dev.region 2).chan 0).law = none ∧ s.dev.get (CH_STAT_STATE 2 0) = chACTIVE) := by decide

theorem witness_ModulationHalt :
    (let s := wSt (gDev [(RG_MODCFG0_HALTMODE 2, 1), (RG_STAT_ENERG 2, 0)] (region0 2));
      s.awake ∧ s.dev.mode ≠ modeLOAD ∧ s.dev.permits .mp .halt = true ∧ (s.dev.region 2).halt = 0 ∧
          s.dev.flag (RG_MODCFG0_HALTMODE 2) = true ∧ s.dev.flag (RG_STAT_ENERG 2) = false) ∧
    (let s := wSt (gDev [(RG_MODCFG0_HALTMODE 2, 0)] (region0 2));
      s.awake ∧ s.dev.permits .mp .halt = true ∧ (s.dev.region 2).halt = 0 ∧ s.dev.flag (RG_MODCFG0_HALTMODE 2) = false ∧
          s.dev.assigned 2 = true ∧ s.dev.rgState 2 = rgRUN) ∧
    (let s := wSt (gDev [(RG_MODCTL_HALT 2, 1), (RG_MODSTAT_HALTED 2, 1)] { region0 2 with halt := 3 });
      s.awake ∧ s.dev.permits .mp .halt = true ∧ (s.dev.region 2).halt = 3) ∧
    (let s := wSt (gDev [(RG_MODCTL_HALT 2, 1)] { region0 2 with halt := 1 });
      s.awake ∧ s.dev.permits .mp .halt = true ∧ (s.dev.region 2).halt = 1) ∧
    (let s := wSt (gDev [(RG_MODCTL_HALT 2, 1)] { region0 2 with halt := 2 });
      s.awake ∧ s.dev.permits .mp .halt = true ∧ (s.dev.region 2).halt = 2 ∧ (s.dev.region 2).resume = none) := by decide

theorem witness_PlanFrame :
    (let s := wSt (gDev [] (region0 2));
      s.awake ∧ s.dev.fc.inj = none) := by decide

/-- Region 2 in RUN. -/
def kDev (l : List (Fld × Nat)) (r : RegionSt) : Dev :=
  (wDev modeRUN ([(QU_CFG_ASSIGNED 3, 1), (QU_CFG_REGION 3, 2), (RG_STAT_STATE 2, rgRUN)] ++ l)).setRegionSt 2 r

/-- A device of a pair. -/
def twDev (m : Nat) (l : List (Fld × Nat)) (w : TwinSt) : Dev := { wDev m ([(GL_TWCFG_PAIR, 1)] ++ l) with tw := w }

/-- A STAT record. -/
def tStat : StatRec := ⟨2, [], [], [], 0, [], [], [], some 305, some 306⟩

/-- A TSOR block of this period. -/
def tHdr : TwinHdr := ⟨1, 44, true⟩

theorem witness_ChannelStates_a :
    (let s := wSt (kDev [(CH_STAT_STATE 2 1, chSTANDBY)] (region0 2));
      s.awake ∧ s.dev.assigned 2 = true ∧ s.dev.get (CH_STAT_STATE 2 1) = chSTANDBY) ∧
    (let s := wSt (kDev [(CH_STAT_STATE 3 1, chSTANDBY)] (region0 2));
      s.awake ∧ s.dev.assigned 3 = false) ∧
    (let s := wSt (kDev [(CH_STAT_STATE 2 1, chACTIVE), (CH_VCFG_MAXGU 2, 5), (CH_CNT_GUCNT 2 1, 4)] (region0 2));
      s.awake ∧ s.dev.assigned 2 = true ∧ s.dev.get (CH_STAT_STATE 2 1) = chACTIVE) ∧
    (let s := wSt (kDev [(CH_STAT_STATE 2 1, chGIVENUP)] { region0 2 with chB := { chan0 with testing := true } });
      s.awake ∧ s.dev.get (CH_STAT_STATE 2 1) = chGIVENUP ∧ ((s.dev.region 2).chan 1).testing = true) ∧
    (let s := wSt (kDev [(CH_STAT_STATE 2 1, chGIVENUP)] { region0 2 with chB := { chan0 with testing := true } });
      s.awake ∧ s.dev.get (CH_STAT_STATE 2 1) = chGIVENUP ∧ ((s.dev.region 2).chan 1).testing = true) ∧
    (let s := wSt (let d := kDev [(CH_STAT_STATE 2 1, chGIVENUP)] { region0 2 with chB := { chan0 with testing := true } }
      { d with fb := { d.fb with spareBad := [(3, 18 * 7 + 16), (3, 18 * 7 + 17)] } });
      s.awake ∧ s.dev.get (CH_STAT_STATE 2 1) = chGIVENUP ∧ ((s.dev.region 2).chan 1).testing = true ∧
          spareFor 3 (18 * 7 + 5) s.dev = none) := by decide

theorem witness_ChannelStates_b :
    (let s := wSt (kDev [(CH_STAT_STATE 2 1, chRESYNC), (CH_VSTAT_NSEG 2, 40), (CH_STAT_RSPROG 2 1, 40)] (region0 2));
      s.awake ∧ s.dev.get (CH_STAT_STATE 2 1) = chRESYNC ∧ s.dev.get (CH_VSTAT_NSEG 2) ≤ s.dev.get (CH_STAT_RSPROG 2 1)) ∧
    (let s := wSt (kDev [(CH_STAT_STATE 2 1, chRESYNC), (CH_STAT_STATE 2 0, chACTIVE), (CH_STAT_STATE 2 2, chGIVENUP),
        (CH_VCFG_RSN 2, 4), (CH_STAT_RSOK 2 1, 4)] { region0 2 with chB := { chan0 with copied := true } });
      s.awake ∧ s.dev.get (CH_STAT_STATE 2 1) = chRESYNC ∧ ((s.dev.region 2).chan 1).copied = true ∧
          s.dev.get (CH_VCFG_RSN 2) ≤ s.dev.get (CH_STAT_RSOK 2 1)) := by decide

theorem witness_TwinRecords_a :
    (let s := wSt (twDev modeRUN [(GL_TWSTAT_ROLE, roleSTANDBY), (LN_STAT_STATE 129, lnACTIVE)] tw0);
      s.awake ∧ s.dev.paired = true ∧ tHdr.crcOk = true ∧ s.dev.lnState (128 + tHdr.lane.val) = lnACTIVE ∧
          smLook s.dev.tw.got 0 ≠ some tHdr.period.toNat) ∧
    (let s := wSt (twDev modeRUN [(GL_TWSTAT_ROLE, roleSTANDBY), (LN_STAT_STATE 129, lnACTIVE)] tw0);
      s.awake ∧ s.dev.paired = true ∧ s.dev.lnState 129 = lnACTIVE) ∧
    (let s := wSt (twDev modeRUN [(GL_TWSTAT_ROLE, roleSTANDBY), (LN_STAT_STATE 129, lnACTIVE)] { tw0 with got := [(1, 44)] });
      s.awake ∧ s.dev.paired = true ∧ smLook s.dev.tw.got 1 = some tHdr.period.toNat) ∧
    (let s := wSt (twDev modeRUN [(GL_TWSTAT_ROLE, roleACTIVE), (LN_STAT_STATE 129, lnACTIVE)] tw0);
      s.awake ∧ s.dev.paired = true ∧ s.dev.live = true ∧ s.dev.lnState 129 = lnACTIVE) ∧
    (let s := wSt (twDev modeRUN [(GL_TWSTAT_ROLE, roleSTANDBY), (GL_TWSTAT_PEERACT, 1)] tw0);
      s.awake ∧ s.dev.paired = true ∧ s.dev.role = roleSTANDBY ∧ s.dev.converting = true) ∧
    (let s := wSt (twDev modeRUN [(GL_TWSTAT_ROLE, roleACTIVE), (GL_TWCFG_TWLOSS, 4),
        (GL_TWSTAT_TWUP, 1)] { tw0 with silent := 4 });
      s.awake ∧ s.dev.paired = true ∧ s.dev.get GL_TWCFG_TWLOSS ≤ s.dev.tw.silent) := by decide

theorem witness_TwinRecords_b :
    (let s := wSt (twDev modeRUN [(GL_TWSTAT_ROLE, roleSTANDBY)] { tw0 with mullSilent := 4 });
      s.awake ∧ s.dev.paired = true ∧ 4 ≤ s.dev.tw.mullSilent ∧ s.dev.role = roleSTANDBY ∧ s.dev.converting = true) ∧
    (let s := wSt (twDev modeRUN [(GL_TWSTAT_ROLE, roleRESYNC), (GL_TWCFG_RSN, 4)] { tw0 with copied := true, rsOk := 4 });
      s.awake ∧ s.dev.paired = true ∧ s.dev.role = roleRESYNC ∧ s.dev.tw.copied = true ∧
          s.dev.get GL_TWCFG_RSN ≤ s.dev.tw.rsOk) ∧
    (let s := wSt (twDev modeRUN [(GL_TWSTAT_ROLE, roleACTIVE), (GL_TWCFG_END, 1)] tw0);
      s.awake ∧ s.dev.paired = true ∧ s.dev.role = roleACTIVE) := by decide

theorem witness_ChannelFrame :
    (let s := wSt (wDev modeRUN [(CH_STAT_STATE 2 1, chACTIVE)]);
      s.awake) ∧
    (let s := wSt (twDev modeRUN [(GL_TWSTAT_ROLE, roleSTANDBY), (GL_TWSTAT_PEERACT, 1)] tw0);
      s.awake) := by decide

/-- Conversion group 1 running. -/
def mDev (l : List (Fld × Nat)) (x : AdGrp) : Dev :=
  let d := wDev modeRUN ([(AD_STAT_RUN, 2)] ++ l)
  ({ d with tm := { d.tm with grid := true, jAbs := 300, bj := 3000000 } }).setGroup 1 x

theorem witness_Conversions :
    (let s := wSt (mDev [] { group0 1 with slot := 3, serial := 19 });
      s.awake ∧ adRun 1 s.dev = true ∧ s.dev.timeRuns = true ∧ slotOff (adLp 1 s.dev) (s.dev.group 1).slot < s.dev.perLen) ∧
    (let s := wSt (mDev [] { group0 1 with slot := 90000, serial := 19 });
      s.awake ∧ s.dev.perLen ≤ slotOff (adLp 1 s.dev) (s.dev.group 1).slot) ∧
    (let s := wSt (mDev [(AD_SLCOEF_GAIN 1 3, 2048)] { group0 1 with flight := [⟨17, 500, 300, 11000, 3000500, 2, 3, false, 0, 8, 300⟩], closedPer := 300 });
      s.awake ∧ firstDone (s.dev.group 1).flight = some (⟨17, 500, 300, 11000, 3000500, 2, 3, false, 0, 8, 300⟩)) ∧
    (let s := wSt (mDev [(AD_SLCOEF_GAIN 1 3, 2048)] { group0 1 with flight := [⟨17, 500, 300, 11000, 3000500, 2, 3, false, 2, 8, 300⟩], closedPer := 300 });
      s.awake ∧ firstDone (s.dev.group 1).flight = some (⟨17, 500, 300, 11000, 3000500, 2, 3, false, 2, 8, 300⟩)) := by decide

theorem witness_MeasurementRecords_a :
    (let s := wSt (mDev [(AD_CALCFG_CALN 1, 16)] { group0 1 with pairs := 16 });
      s.awake ∧ adRun 1 s.dev = true ∧ (s.dev.group 1).swapWait = 0 ∧ s.dev.get (AD_CALCFG_CALN 1) ≤ (s.dev.group 1).pairs ∧
          s.dev.flag (AD_GSTAT_NOROT 1) = false) ∧
    (let s := wSt (mDev [(AD_GSTAT_OUT 1, 8),
        (AD_GSTAT_SLOK 1, 0x1FF)] { group0 1 with swapWait := 1, serial := 20, swapPos := 3, pairs := 16 });
      s.awake ∧ (s.dev.group 1).swapWait = 1 ∧ adRun 1 s.dev = true ∧
      (s.dev.group 1).serial % 8 = ((s.dev.group 1).swapPos + 1) % 8 ∧
      outBusy (s.dev.group 1) (slotTick 1 s.dev) = false ∧ (s.dev.group 1).inj = none) ∧
    (let s := wSt (mDev [(AD_GSTAT_OUT 1, 8),
        (AD_GSTAT_SLOK 1, 0x1FF)] { group0 1 with swapWait := 1, serial := 20, swapPos := 3, pairs := 16, flight := [⟨17, 500, 300, 11000, 3000000, 2, 3, false, 2, 8, 300⟩] });
      s.awake ∧ (s.dev.group 1).swapWait = 1 ∧ adRun 1 s.dev = true ∧
      (s.dev.group 1).serial % 8 = ((s.dev.group 1).swapPos + 1) % 8 ∧ outBusy (s.dev.group 1) (slotTick 1 s.dev) = true) ∧
    (let s := wSt (({ mDev [] { group0 1 with closedPer := 299 } with sent := [] }).setAin 9 { ain0 9 with p0 := ⟨50, 4, 3, 20⟩, p1 := ⟨5, 1, 5, 5⟩ });
      s.awake ∧ adRun 1 s.dev = true ∧ (s.dev.group 1).closedPer ≤ s.dev.tm.jAbs) ∧
    (let s := wSt (({ mDev [(AD_INCFG_WDIV 9, 2)] { group0 1 with closedPer := 299 } with sent := [] }).setAin 9 { ain0 9 with w0 := ⟨50, 4, 3, 20⟩, w1 := ⟨5, 1, 5, 5⟩, wm := 2, wPer := 300 });
      s.awake ∧ adRun (9 / 8) s.dev = true ∧ (s.dev.ain 9).wPer ≤ s.dev.tm.jAbs) ∧
    (let s := wSt (mDev [(AD_GSTAT_OUT 1, 8), (AD_GSTAT_SLOK 1, 0x1FF)] { group0 1 with serial := 20, pairDue := 30 });
      s.awake ∧ s.dev.mode ≠ modeLOAD ∧ s.dev.permits .mp .meas = true ∧ adRun 1 s.dev = true ∧ (s.dev.group 1).inj = none ∧
          (s.dev.group 1).swapWait = 0 ∧
      outConverts (s.dev.group 1) (s.dev.get (AD_GSTAT_OUT 1)) s.dev.nowTick = false ∧
      s.dev.bit (AD_GSTAT_SLOK 1) (s.dev.get (AD_GSTAT_OUT 1)) = true ∧
      (s.dev.group 1).serial < (s.dev.group 1).pairDue) := by decide

theorem witness_MeasurementRecords_b :
    (let s := wSt (mDev [] { group0 1 with serial := 20, pairDue := 30 });
      s.awake ∧ adRun 2 s.dev = false) := by decide

theorem witness_MeasureFrame :
    (let s := wSt (mDev [] (group0 1));
      s.awake) := by decide

/-- A device with changed fault collection. -/
def fDev (m : Nat) (l : List (Fld × Nat)) (f : FaultSt → FaultSt) : Dev := let d := wDev m l; { d with fc := f d.fc }

theorem witness_ProtectiveReaction :
    (let s := wSt (fDev modeRUN [(QU_CFG_ASSIGNED 3, 1), (QU_CFG_REGION 3, 2), (QU_CFG_NPOS 3, 2),
        (RG_STAT_STATE 2, rgRUN)] fun x => { x with protDev := true });
      s.awake ∧ s.dev.fc.protDev = true ∧ (s.dev.mode = modeCHARGE ∨ s.dev.mode = modeRUN) ∧ s.dev.assigned 2 = true) ∧
    (let s := wSt (fDev modeCHARGE [(QU_CFG_ASSIGNED 3, 1), (QU_CFG_REGION 3, 2), (QU_CFG_NPOS 3, 2),
        (RG_STAT_STATE 2, rgCHARGE)] fun x => { x with protDev := true });
      s.awake ∧ s.dev.fc.protDev = true) ∧
    (let s := wSt (fDev modeRUN [(FC_TRIPCFG_EN 3, 1)] id);
      s.awake ∧ s.dev.live = true ∧ s.dev.flag (FC_TRIPCFG_EN 3) = true ∧ bitOf s.dev.fc.tripOwn 3 = false) ∧
    (let s := wSt (fDev modeRUN [(FC_TRIPCFG_EN 3, 1), (FC_TRIPSTAT_RAW, 8),
        (FC_TRIPSTAT_FILT, 8)] fun x => { x with tripOwn := 8 });
      s.awake ∧ bitOf s.dev.fc.tripOwn 3 = true ∧ bitOf s.dev.fc.tripRel 3 = false) := by decide

theorem witness_FaultSources_a :
    (let s := wSt (fDev modeIDLE [] id);
      s.awake ∧ s.dev.mode ≠ modeLOAD ∧ s.dev.permits .mp .inj = true ∧ injOk 6 false 131 s.dev = true) ∧
    (let s := wSt (fDev modeRUN [] id);
      s.awake) ∧
    (let s := wSt (fDev modeRUN [] id);
      s.awake ∧ spareOk 6 s.dev (17 * 3 + 16) = true) ∧
    (let s := wSt (fDev modeRUN [(FC_CHIP_LINKLOST1, 0)] id);
      s.awake ∧ s.dev.flag FC_CHIP_LINKLOST1 = false) ∧
    (let s := wSt (let d := fDev modeRUN [] id
      { d with fb := { d.fb with assigned := [(6, 52, 67)] } });
      s.awake ∧ spareOk 6 s.dev (17 * 3 + 16) = false) ∧
    (let s := wSt (fDev modeRUN [(FC_INJ_GO, 1),
        (FC_CHIP_DBESV, 0)] fun x => { x with inj := some (7, true, 0), injAt := some .supervisor });
      s.awake ∧ s.dev.fc.injAt = some .supervisor ∧ s.dev.fc.inj = some (7, true, 0) ∧
          s.dev.flag FC_CHIP_DBESV = false) := by decide

theorem witness_FaultSources_b :
    (let s := wSt (fDev modeRUN [(FC_INJ_GO, 1)] fun x => { x with inj := some (6, false, 5), injAt := some (.buffer 5) });
      s.awake ∧ s.dev.fc.injAt = some (.buffer 5) ∧ s.dev.fc.inj = some (6, false, 5)) ∧
    (let s := wSt (fDev modeRUN [] id);
      s.awake ∧ s.dev.fc.injAt ≠ some (.buffer 5)) ∧
    (let s := { wSt (fDev modeRUN [(DR_SECHI_PAGES, 5), (DR_RCOUNT_COUNT 0, 400)] id) with recMem := [(3, 7), (700, 8)] };
      s.awake ∧ s.dev.fc.injAt ≠ some (.recorder 5) ∧ 5 ∉ s.dev.dr.removed) ∧
    (let s := wSt (fDev modeRUN [(FC_CHIP_DBESV, 0)] id);
      s.awake ∧ s.dev.fc.injAt ≠ some .supervisor ∧ s.dev.flag FC_CHIP_DBESV = false) ∧
    (let s := wSt (fDev modeRUN [] id);
      s.awake) ∧
    (let s := wSt (fDev modeRUN [(GL_TJ_TJ, 30)] id);
      s.awake ∧ 2000 < (2001#13).toInt) := by decide

theorem witness_FaultSources_c :
    (let s := wSt (fDev modeRUN [(GL_TJ_TJ, 30)] id);
      s.awake) ∧
    (let s := wSt (fDev modeRUN [(GL_TJ_TJ, 2241), (FC_CHIP_TJTRIP, 0)] id);
      s.awake ∧ 2240 < s.dev.getS GL_TJ_TJ ∧ s.dev.flag FC_CHIP_TJTRIP = false) := by decide

theorem witness_TripFlagClear :
    (let s := wSt (fDev modeRUN [(FC_TRIPEVT_TRIP, 12), (FC_TRIPSTAT_FILT, 8)] id);
      s.awake ∧ s.dev.mode ≠ modeLOAD ∧ s.dev.permits .mp .flag = true ∧ s.dev.bit FC_TRIPEVT_TRIP 3 = true ∧
          s.dev.bit FC_TRIPSTAT_FILT 3 = true) ∧
    (let s := wSt (fDev modeRUN [(FC_TRIPEVT_TRIP, 12), (FC_TRIPSTAT_FILT, 8), (SV_WPERM_FLAG, 1)] id);
      s.awake ∧ s.dev.permits .sup .flag = true ∧ s.dev.bit FC_TRIPEVT_TRIP 3 = true ∧ s.dev.bit FC_TRIPSTAT_FILT 3 = true) ∧
    (let s := wSt (fDev modeRUN [(FC_TRIPEVT_TRIP, 12), (FC_TRIPSTAT_FILT, 4)] id);
      s.awake ∧ s.dev.permits .mp .flag = true ∧ s.dev.bit FC_TRIPEVT_TRIP 3 = true ∧
          s.dev.bit FC_TRIPSTAT_FILT 3 = false) := by decide

/-- A device with a changed fabric. -/
def bDev (m : Nat) (l : List (Fld × Nat)) (f : FabricSt → FabricSt) : Dev := let d := wDev m l; { d with fb := f d.fb }

theorem witness_FabricEvents_a :
    (let s := wSt (bDev modeRUN [] id);
      s.awake ∧ (Instr.unitRunComplete 2 5 100 300 400).wf = true ∧ s.dev.mode ≠ modeLOAD) ∧
    (let s := wSt (bDev modeRUN [] id);
      s.awake ∧ (Instr.unitRunComplete 5 3 100 400 400).wf = true ∧ s.dev.mode ≠ modeLOAD) ∧
    (let s := wSt (bDev modeRUN [(FB_CLSMARG_LAST 0, 9)] id);
      s.awake ∧ s.dev.mode ≠ modeLOAD ∧ sliceFree s.dev 79 = true ∧ (Instr.unitRunComplete 0 143 100 70000 400).wf = true) ∧
    (let s := wSt (bDev modeRUN [(FB_CLSTHR_WARN 2, 400),
        (FB_EVAL_WINDOW, 3)] fun x => { x with cls := [(2, ⟨30, 5, true, false⟩)], winPer := 3 });
      s.awake ∧ s.dev.mode ≠ modeLOAD ∧ s.dev.fb.holdoff = false ∧ s.dev.get FB_EVAL_WINDOW ≤ s.dev.fb.winPer) ∧
    (let s := wSt (bDev modeRUN [(FB_CLSTHR_WARN 2, 400),
        (FB_EVAL_WINDOW, 3)] fun x => { x with cls := [(2, ⟨30, 5, true, false⟩)], winPer := 2 });
      s.awake ∧ s.dev.mode ≠ modeLOAD ∧ (s.dev.fb.holdoff = true ∨ s.dev.fb.winPer < s.dev.get FB_EVAL_WINDOW)) ∧
    (let s := wSt (bDev modeRUN [(SV_STAT_RUN, 8)] fun x => { x with avsPend := true });
      s.awake ∧ s.dev.fb.avsPend = true ∧ s.dev.fb.avsLate = none ∧ s.dev.bit SV_STAT_RUN 3 = true) := by decide

theorem witness_FabricEvents_b :
    (let s := wSt (bDev modeRUN [(SV_STAT_RUN, 8)] fun x => { x with avsPend := true });
      s.awake ∧ s.dev.fb.avsPend = true ∧ s.dev.fb.avsLate = none ∧ s.dev.bit SV_STAT_RUN 3 = true) ∧
    (let s := wSt (bDev modeRUN [(SV_STAT_RUN, 7)] fun x => { x with avsPend := true });
      s.awake ∧ s.dev.fb.avsPend = true ∧ s.dev.fb.avsLate = none ∧ s.dev.bit SV_STAT_RUN 3 = false) ∧
    (let s := wSt (bDev modeRUN [(SV_STAT_RUN, 7)] fun x => { x with avsPend := true });
      s.awake ∧ s.dev.fb.avsPend = true ∧ s.dev.fb.avsLate = none ∧ s.dev.bit SV_STAT_RUN 3 = false) ∧
    (let s := wSt (bDev modeRUN [(SV_STAT_RUN, 7)] fun x => { x with avsPend := true, avsLate := some true });
      s.awake ∧ (s.dev.fb.avsPend = false ∨ s.dev.fb.avsLate.isSome = true)) ∧
    (let s := wSt (bDev modeRUN [] fun x => { x with holdoff := true });
      s.awake ∧ s.dev.fb.avsPend = false ∧ s.dev.fb.holdoff = true) ∧
    (let s := wSt (bDev modeRUN [(SV_STAT_RUN, 15)] fun x => { x with jq := [⟨1, 2, 3, 4, 5⟩] });
      s.awake ∧ s.dev.fb.jq ≠ [] ∧ s.dev.bit SV_STAT_RUN 3 = true ∧
          ((jWriteBank s.dev.fb.eraseA ⟨none, []⟩ s.flash.a s.dev.fb.jq (s.dev.fb.jq.foldl jAdd s.dev.fb.inForce)).2 &&
          (jWriteBank s.dev.fb.eraseB ⟨none, []⟩ s.flash.b s.dev.fb.jq (s.dev.fb.jq.foldl jAdd s.dev.fb.inForce)).2) = true) := by decide +kernel

theorem witness_FabricEvents_c :
    (let s := wSt (bDev modeRUN [(SV_STAT_RUN, 15)] fun x => { x with jq := [⟨1, 2, 3, 4, 5⟩] });
      s.awake ∧ s.dev.fb.jq ≠ [] ∧ s.dev.bit SV_STAT_RUN 3 = true ∧
          ((jWriteBank s.dev.fb.eraseA ⟨none, []⟩ s.flash.a s.dev.fb.jq (s.dev.fb.jq.foldl jAdd s.dev.fb.inForce)).2 &&
          (jWriteBank s.dev.fb.eraseB ⟨none, [(0, 0)]⟩ s.flash.b s.dev.fb.jq (s.dev.fb.jq.foldl jAdd s.dev.fb.inForce)).2) = false) := by decide +kernel

/-- A device with a changed safety channel. -/
def sDev (m : Nat) (l : List (Fld × Nat)) (f : SafetySt → SafetySt) : Dev := let d := wDev m l; { d with sf := f d.sf }

theorem witness_SafetyChannel_a :
    (let s := wSt (sDev modeSTOP [] id);
      s.dev.released = true ∧ s.dev.fc.stopReq = false ∧ s.dev.sf.folio = false) ∧
    (let s := wSt (sDev modeRUN [(SF_INCFG_EN 5, 1), (SF_INCFG_OMASK 5, 2)] fun x => { x with folio := true });
      s.awake ∧ s.dev.sf.folio = true ∧ s.dev.flag (SF_INCFG_EN 5) = true ∧
      s.dev.bit (SF_INCFG_OMASK 5) 1 = true ∧ sfHealthy 5 s.dev = false ∧ bitOf s.dev.sf.dem 5 = false) ∧
    (let s := wSt (sDev modeSTOP [] fun x => { x with lvlA := 5, lvlB := 7 });
      s.dev.released = true ∧ s.dev.fc.stopReq = false) ∧
    (let s := wSt (sDev modeSTOP [] fun x => { x with lvlA := 5, lvlB := 7 });
      s.dev.released = true ∧ s.dev.fc.stopReq = false) ∧
    (let s := wSt (sDev modeIDLE [] id);
      s.awake) ∧
    (let s := wSt (sDev modeIDLE [] fun x => { x with rstA := true, rstPhase := 1 });
      s.awake ∧ (s.dev.sf.rstA || s.dev.sf.rstB) = true) := by decide

theorem witness_SafetyChannel_b :
    (let s := wSt (sDev modeIDLE [(SF_INCFG_EN 5, 1)] fun x => { x with lvlA := 32 });
      s.awake ∧ s.dev.flag (SF_INCFG_EN 5) = true ∧ sfHealthA 5 s.dev ≠ sfHealthB 5 s.dev) ∧
    (let s := wSt (sDev modeIDLE [(SF_RB_HCMD, 2), (SF_STAT_CLASP, 1)] fun x => { x with test := [(1, 2)] });
      s.awake ∧ s.dev.bit SF_RB_HCMD 1 = true ∧ offTest 1 s.dev = true) ∧
    (let s := wSt (sDev modeIDLE [(SF_RB_HCMD, 2), (SF_RB_LCMD, 2)] id);
      s.awake ∧ s.dev.bit SF_RB_HCMD 1 = true ∧ offTest 1 s.dev = false) ∧
    (let s := wSt (sDev modeIDLE [(SF_EVT_RBON, 0)] id);
      s.awake ∧ s.dev.bit SF_RB_LCMD 1 = false ∧ s.dev.bit SF_EVT_RBON 1 = false) ∧
    (let s := wSt (sDev modeIDLE [(SF_OCFG_EN1, 1), (SF_STAT_CLASP, 2)] id);
      s.awake ∧ forceOff 1 s.dev = false ∧ smGet (fun _ => 0) s.dev.sf.test 1 = 0 ∧ clasped 1 s.dev = true) ∧
    (let s := wSt (sDev modeIDLE [(SF_OCFG_EN1, 1), (SF_STAT_CLASP, 1),
        (SF_RB_HCMD, 2)] fun x => { x with cycle := 9000, relAt := [(1, 1000)] });
      s.awake ∧ forceOff 1 s.dev = false ∧ smGet (fun _ => 0) s.dev.sf.test 1 = 0 ∧ clasped 1 s.dev = false ∧
          8000 ≤ s.dev.sf.cycle - smGet (fun _ => 0) s.dev.sf.relAt 1) := by decide

theorem witness_SafetyChannel_c :
    (let s := wSt (sDev modeIDLE [(SF_OCFG_EN1, 1), (SF_STAT_CLASP, 2), (SF_RB_HCMD, 2)] fun x => { x with test := [(1, 1)] });
      s.awake ∧ smGet (fun _ => 0) s.dev.sf.test 1 = 1 ∧ clasped 1 s.dev = true ∧ bitOf s.dev.sf.relPend 1 = false) := by decide

/-- A device with a changed recorder. -/
def rDev (m : Nat) (l : List (Fld × Nat)) (f : RecSt → RecSt) : Dev := let d := wDev m l; { d with dr := f d.dr }

/-- A MODE entry. -/
def rEnt : RecEntry := ⟨kMODE, false, false, 0, 5000, 77⟩

theorem witness_RecorderEvents_a :
    (let s := wSt (rDev modeRUN [] fun x => { x with inq := [rEnt] });
      s.awake ∧ s.dev.dr.inq = [rEnt] ∧ stageRoom rEnt s.dev = true) ∧
    (let s := wSt (rDev modeRUN [] fun x => { x with inq := [rEnt], stage := List.replicate 16384 rEnt });
      s.awake ∧ stageRoom rEnt s.dev = false) ∧
    (let s := wSt (rDev modeRUN [(DR_CFG_EN, 1), (DR_CFG_NRECL, 2), (DR_CFG_HOR, 2), (DR_STAT_STATE, drARMED),
        (DR_STAT_CUR, 3)] fun x => { x with stage := [rEnt], newest := 100000, wr := 9, num := 4 });
      s.awake ∧ stageMin s.dev.dr.stage = some rEnt ∧ s.dev.live = true ∧ rEnt.key + horizon s.dev ≤ s.dev.dr.newest ∧
          s.dev.get DR_STAT_STATE = drARMED ∧ rEnt.kind = kMODE ∧ 0 < recCap (s.dev.get DR_STAT_CUR) s.dev) ∧
    (let s := wSt (rDev modeRUN [(DR_CFG_EN, 1)] fun x => { x with dropN := 4, dropKey := 88 });
      s.awake ∧ 0 < s.dev.dr.dropN ∧ s.dev.dr.stage.length < 16384) ∧
    (let s := wSt (rDev modeRUN [(DR_CFG_EN, 1), (DR_CFG_NRECL, 2), (DR_STAT_STATE, drIDLE), (DR_STAT_FULL, 5),
        (DR_RCOUNT_COUNT 1, 7)] id);
      s.awake ∧ s.dev.mode ≠ modeLOAD ∧ s.dev.permits .mp .recd = true ∧ s.dev.get DR_CFG_NRECL ≤ 4 ∧
          s.dev.get DR_STAT_STATE = drIDLE ∧ s.dev.flag DR_CFG_EN = true ∧
          (List.range (nRec s.dev)).find? (recFree s.dev) = some 1) ∧
    (let s := wSt (rDev modeRUN [(DR_CFG_EN, 1), (DR_CFG_NRECL, 2), (DR_STAT_STATE, drARMED), (DR_STAT_CUR, 3)] id);
      s.awake ∧ s.dev.permits .mp .recd = true ∧ s.dev.get DR_CFG_NRECL ≤ 4 ∧ s.dev.get DR_STAT_STATE = drARMED ∧
          s.dev.dr.armAt ≤ s.dev.nowNs) := by decide +kernel

theorem witness_RecorderEvents_b :
    (let s := wSt (rDev modeRUN [(DR_CFG_EN, 1), (DR_CFG_NRECL, 4), (DR_STAT_STATE, drARMED), (DR_STAT_CUR, 15),
        (DR_STAT_FULL, 0x8000)] id);
      s.awake ∧ s.dev.permits .mp .recd = true ∧ s.dev.get DR_CFG_NRECL ≤ 4 ∧ s.dev.get DR_STAT_STATE = drARMED) ∧
    (let s := wSt (rDev modeRUN [(DR_CFG_EN, 1), (DR_CFG_NRECL, 2), (DR_STAT_STATE, drIDLE), (DR_STAT_FULL, 10)] id);
      s.awake ∧ s.dev.permits .mp .recd = true ∧ s.dev.get DR_CFG_NRECL ≤ 4 ∧ s.dev.get DR_STAT_STATE = drIDLE ∧
          3 < nRec s.dev ∧ bitOf (8#16).toNat 3 = true) ∧
    (let s := wSt (rDev modeRUN [(DR_CFG_EN, 1), (DR_CFG_NRECL, 2), (DR_STAT_STATE, drPOST), (DR_STAT_CUR, 2),
        (DR_RCOUNT_COUNT 2, 2 ^ 18)] fun x => { x with trigWr := true });
      s.awake ∧ recFull s.dev = true ∧ s.dev.get DR_CFG_NRECL ≤ 4 ∧ s.dev.flag DR_CFG_RING = false) ∧
    (let s := wSt (rDev modeRUN [(DR_CFG_EN, 1), (DR_CFG_NRECL, 0), (DR_CFG_RING, 1), (DR_STAT_STATE, drPOST),
        (DR_STAT_CUR, 0), (DR_RCOUNT_COUNT 0, 2 ^ 20)] fun x => { x with trigWr := true });
      s.awake ∧ recFull s.dev = true ∧ s.dev.get DR_CFG_NRECL ≤ 4) ∧
    (let s := wSt (rDev modeRUN [(DR_CFG_POSTMAX, 5), (DR_STAT_STATE, drPOST),
        (DR_STAT_CUR, 2)] fun x => { x with trigWr := true });
      s.awake ∧ s.dev.get DR_STAT_STATE = drPOST ∧ s.dev.get DR_CFG_POSTMAX ≠ 0) ∧
    (let s := wSt (rDev modeRUN [(DR_CFG_EN, 1), (DR_XCFG_XIN1EN, 1)] id);
      s.awake ∧ s.dev.live = true ∧ xinEn 1 s.dev = true ∧ bitOf s.dev.dr.drive 1 = false ∧
          smGet (fun _ => 0) s.dev.dr.lockUntil 1 ≤ 2 * (s.dev.tm.bj + 50)) := by decide

theorem witness_RecorderEvents_c :
    (let s := wSt (rDev modeRUN [(DR_CFG_EN, 1), (DR_XCFG_XIN1EN, 1)] fun x => { x with xAsserted := 2 });
      s.awake ∧ xinEn 1 s.dev = true ∧ bitOf s.dev.dr.xAsserted 1 = true ∧ s.dev.flag DR_CFG_EN = true) ∧
    (let s := wSt (rDev modeRUN [(DR_CFG_EN, 1)] fun x => { x with drive := 3 });
      s.awake ∧ bitOf s.dev.dr.drive 1 = true) := by decide

/-- Registers of a network of one peer. -/
def nL : List (Fld × Nat) := [(NT_STAT_UP0, 1), (NT_STAT_UP1, 1), (NT_PEERCFG_PEER, 15), (SV_STAT_RUN, 15),
    (NT_PEER_ADDR 0 0, 0), (NT_PEER_ADDR 0 1, 0),
    (NT_PEER_ADDR 0 2, 0xFFFF), (NT_PEER_ADDR 0 3, 0x0A000005), (NT_PCFG_EN 1, 1), (NT_PCFG_EN 0, 1),
        (NT_IPCFG_DPORT, 700), (NT_IP4_ADDR 1, 0x0A000009), (NT_IP4_ADDR 0, 0x0A000008)]

/-- A device with that network. -/
def nDev (m : Nat) (l : List (Fld × Nat)) (f : NetSt → NetSt) : Dev := let d := wDev m (nL ++ l); { d with nt := f d.nt }

/-- A session of that peer. -/
def nSes (a : Bool) : Session := ⟨5, 6, nReq.addr, 900, a, some 3, 0⟩

/-- The next counter of that session, with no signature. -/
def nAu : Auth := ⟨5, 4, 0, 0⟩

/-- A transfer of which 8 of 12 bytes have come. -/
def nXf : Xfer := ⟨true, List.replicate 8 7, 12, true, 2 ^ 23, true, 0, [], false⟩

/-- An untagged ICMPv6 packet of 100 bytes. -/
def nIp6 : IpRx := ⟨⟨0, [], etIP6, 100⟩, false, false, 58, false⟩

/-- A command message of an unassigned command. -/
def nBad : List Byte := smpMsg tyCMD 0 0 9 0 [7, 0, 0, 0]

theorem witness_SupervisorsAndPorts_a :
    (let s := wSt (nDev modeRUN [] id);
      s.awake ∧ s.dev.mode ≠ modeLOAD ∧ s.dev.bit SV_STAT_RUN 2 = true) ∧
    (let s := wSt (wDev modeRUN [(SV_STAT_RUN, 13)]);
      s.awake ∧ s.dev.bit SV_STAT_RUN 1 = false ∧ s.dev.nt.smpQ = []) ∧
    (let s := wSt (nDev modeRUN [] fun x => { x with treads := [(nReq, [(0, 1)])] });
      s.awake ∧ s.dev.mode ≠ modeLOAD ∧ s.dev.bit SV_STAT_RUN 1 = true ∧ s.dev.bit SV_STAT_RUN 2 = true ∧
          s.dev.nt.treads = [(nReq, [(0, 1)])] ∧ answerTo nReq tyTREAD s.dev = [nReq]) ∧
    (let s := wSt { wDev modeRUN [(NT_PCFG_EN 1, 1)] with nt := { nt0 with started := true } };
      s.awake ∧ s.dev.live = true ∧ s.dev.nt.started = true ∧ s.dev.flag (NT_PCFG_EN 1) = true) ∧
    (let s := wSt (wDev modeRUN [(NT_STAT_UP1, 1), (NT_STAT_UP0, 0)]);
      s.awake ∧ netUp 1 s.dev = true ∧ netUp (1 - 1) s.dev = false) ∧
    (let s := wSt (nDev modeRUN [] id);
      s.awake ∧ netUp 1 s.dev = true ∧ ethOk 1 etARP { nEth with typ := etARP } s.dev = true ∧
          s.dev.flag (NT_PCFG_IPV6 1) = false ∧ (0x0A000009#32).toNat = s.dev.get (NT_IP4_ADDR 1)) := by decide

theorem witness_SupervisorsAndPorts_b :
    (let s := wSt (nDev modeRUN [(NT_PCFG_IPV6 1, 1), (NT_IP6_ADDR 1 0, 1), (NT_IP6_ADDR 1 1, 2), (NT_IP6_ADDR 1 2, 3),
        (NT_IP6_ADDR 1 3, 4)] id);
      s.awake ∧ netUp 1 s.dev = true ∧ ipOk 1 58 58 nIp6 s.dev = true ∧ s.dev.flag (NT_PCFG_IPV6 1) = true ∧
          (0x1000000020000000300000004#128).toNat = portIp6 1 s.dev) ∧
    (let s := wSt (nDev modeRUN [] id);
      s.awake ∧ netUp 1 s.dev = true ∧ ipOk 1 1 58 ⟨nEth, false, false, 1, true⟩ s.dev = true ∧
          s.dev.flag (NT_PCFG_IPV6 1) = false ∧ (0xFFFF0A000009#128).toNat = ownAddr 1 s.dev ∧ s.dev.nt.echo = []) ∧
    (let s := wSt (nDev modeRUN [] id);
      s.awake ∧ ipOk 1 1 58 ⟨nEth, true, false, 1, true⟩ s.dev = false) ∧
    (let s := wSt (nDev modeRUN [] id);
      s.awake ∧ netUp 1 s.dev = true ∧ ethOk 1 etARP { nEth with typ := etARP } s.dev = true ∧
          s.dev.flag (NT_PCFG_IPV6 1) = false ∧ (peerAt (v4Addr 0x0A000005).toNat s.dev).isSome = true) ∧
    (let s := wSt (nDev modeRUN [(NT_PCFG_IPV6 1, 1)] id);
      s.awake ∧ netUp 1 s.dev = true ∧ ipOk 1 58 58 nIp6 s.dev = true ∧ s.dev.flag (NT_PCFG_IPV6 1) = true ∧
          (peerAt (nReq.addr).toNat s.dev).isSome = true) ∧
    (let s := wSt (nDev modeRUN [] fun x => { x with arp := [(1, nReq.addr, 5), (0, nReq.addr, 5)] });
      s.awake ∧ v4Addr 0x0A000005 = nReq.addr) := by decide

theorem witness_SmpAdmission_a :
    (let s := wSt (nDev modeRUN [] id);
      s.awake ∧
          requestOf (.cmdStop { nReq with addr := 0xFFFF0A000007 } 5) = some (tyCMD, { nReq with addr := 0xFFFF0A000007 }) ∧
          taken { nReq with addr := 0xFFFF0A000007 } 100 s.dev = true ∧ permitted 0xFFFF0A000007 tyCMD s.dev = false) ∧
    (let s := wSt (wDev modeRUN (nL.map fun x => if x.1 = SV_STAT_RUN then (SV_STAT_RUN, 13) else x));
      s.awake ∧ requestOf (.cmdStop nReq 5) = some (tyCMD, nReq) ∧ taken nReq 100 s.dev = true ∧
          permitted nReq.addr.toNat tyCMD s.dev = true ∧ keptOf nReq tyCMD s.dev = none ∧ supRuns 1 s.dev = false ∧
          s.dev.nt.smpQ.length < 64) ∧
    (let s := wSt { wDev modeRUN (nL.map fun x => if x.1 = SV_STAT_RUN then (SV_STAT_RUN, 13) else x) with nt := { nt0 with smpQ := [.cmdStop nReq 5, .cmdStop { nReq with rid := 3, rx := { nUdp with stamp := 9 } } 5] } };
      s.awake ∧ supRuns 1 s.dev = false ∧ s.dev.nt.smpQ.length < 64) ∧
    (let s := wSt { wDev modeRUN (nL.map fun x => if x.1 = SV_STAT_RUN then (SV_STAT_RUN, 13) else x) with nt := { nt0 with smpQ := List.replicate 64 (.cmdStop nReq 5) } };
      s.awake ∧ taken nReq 100 s.dev = true ∧ keptOf nReq tyCMD s.dev = none ∧ supRuns 1 s.dev = false ∧
          64 ≤ s.dev.nt.smpQ.length) ∧
    (let s := wSt (nDev modeRUN [] fun x => { x with kept := [⟨nReq.addr, 77, tyCMD, 88, 0, [[1, 2, 3]], []⟩] });
      s.awake ∧ taken nReq 100 s.dev = true ∧ permitted nReq.addr.toNat tyCMD s.dev = true ∧ supRuns 1 s.dev = true ∧
          (keptOf nReq tyCMD s.dev).map Kept.answers = some [[1, 2, 3]]) ∧
    (let s := wSt (nDev modeRUN [] fun x => { x with kept := [⟨nReq.addr, 77, tyCMD, 88, 0, [], []⟩] });
      s.awake ∧ taken nReq 100 s.dev = true ∧ permitted nReq.addr.toNat tyCMD s.dev = true ∧
          (keptOf nReq tyCMD s.dev).map Kept.answers = some []) := by decide

theorem witness_SmpAdmission_b :
    (let s := wSt (nDev modeRUN [] id);
      s.awake ∧ taken { nReq with rx := { nUdp with port := 1 } } 100 s.dev = false) ∧
    (let s := wSt (nDev modeRUN [] id);
      s.awake ∧ taken (payloadReq 1 ⟨nReq.addr, nUdp⟩ 900 [1, 2]) 2 s.dev = true ∧ payloadOk [1, 2] = false) ∧
    (let s := wSt (nDev modeRUN [] id);
      s.awake ∧ taken (payloadReq 1 ⟨nReq.addr, nUdp⟩ 900 nBad) nBad.length s.dev = true ∧ payloadOk nBad = true ∧
      bodyFits (fieldBE nBad 3 1) (slice nBad 16 (nBad.length - 20)) = false ∧
          permitted nReq.addr.toNat (fieldBE nBad 3 1) s.dev = true ∧
      supRuns 1 s.dev = true ∧
          keptOf (payloadReq 1 ⟨nReq.addr, nUdp⟩ 900 nBad) (fieldBE nBad 3 1) s.dev = none) := by decide +kernel

theorem witness_SmpOperation_a :
    (let s := wSt (nDev modeRUN [(QU_CFG_ASSIGNED 3, 1), (QU_CFG_REGION 3, 2), (SV_REFMAX_MAX 1, 5000),
        (SV_RAMPMAX_RAMP 1, 9), (RG_MODCFG1_CP 2, 40)] id);
      s.awake ∧ s.takes nReq tySETPT (.setpt nReq 1 7 4000 0 50) ∧ (1#8).toNat ≤ 3 ∧
          refVal 1 ((s.dev.at_ 50).get (SV_REFMIN_MIN 1)) ≤ refVal 1 (4000#32).toNat ∧
      refVal 1 (4000#32).toNat ≤ refVal 1 ((s.dev.at_ 50).get (SV_REFMAX_MAX 1)) ∧
          (7#16).toNat ≤ (s.dev.at_ 50).get (SV_RAMPMAX_RAMP 1) ∧
      s.dev.assigned 2 = true ∧ (s.dev.region 2).staged.length < 8) ∧
    (let s := wSt (nDev modeRUN [(QU_CFG_ASSIGNED 3, 1), (QU_CFG_REGION 3, 2), (SV_REFMAX_MAX 1, 5000),
        (SV_RAMPMAX_RAMP 1, 9)] id);
      s.awake ∧ s.takes nReq tySETPT (.setpt nReq 1 7 6000 0 50) ∧
          ¬ (refVal 1 (6000#32).toNat ≤ refVal 1 ((s.dev.at_ 50).get (SV_REFMAX_MAX 1)))) ∧
    (let s := wSt (nDev modeIDLE [(TM_CFG_FREERUN, 1)] id);
      s.awake ∧ s.takes nReq tyCMD (.cmdCharge nReq 50) ∧ chargeReason (s.dev.at_ 50) = 0) ∧
    (let s := wSt (nDev modeRUN [(TM_CFG_FREERUN, 1)] id);
      s.awake ∧ s.takes nReq tyCMD (.cmdCharge nReq 50) ∧ chargeReason (s.dev.at_ 50) ≠ 0) ∧
    (let s := wSt (nDev modeCHARGE [] id);
      s.awake ∧ s.takes nReq tyCMD (.cmdStop nReq 50) ∧ stopReason (s.dev.at_ 50) = 0) ∧
    (let s := wSt (nDev modeCHARGE [(QU_CFG_ASSIGNED 3, 1), (QU_CFG_REGION 3, 2), (RG_STAT_STATE 2, rgREADY)] id);
      s.awake ∧ s.takes nReq tyCMD (.cmdDeblock nReq 4 50) ∧ s.dev.converting = true ∧ s.dev.su.stopAt = none ∧
          deblockReason (allReady (s.dev.at_ 50)) (s.dev.at_ 50) 2 = 0 ∧ s.dev.rgState 2 = rgREADY) := by decide

theorem witness_SmpOperation_b :
    (let s := wSt (nDev modeCHARGE [(QU_CFG_ASSIGNED 3, 1), (QU_CFG_REGION 3, 2), (RG_STAT_STATE 2, rgCHARGE)] id);
      s.awake ∧ s.takes nReq tyCMD (.cmdDeblock nReq 4 50) ∧ s.dev.converting = true ∧ s.dev.su.stopAt = none ∧
          deblockReason (allReady (s.dev.at_ 50)) (s.dev.at_ 50) 2 = 6) ∧
    (let s := wSt (nDev modeRUN [(QU_CFG_ASSIGNED 3, 1), (QU_CFG_REGION 3, 2), (RG_STAT_STATE 2, rgRUN)] id);
      s.awake ∧ s.takes nReq tyCMD (.cmdBlock nReq 4 50) ∧ s.dev.assigned 2 = true ∧ s.dev.rgState 2 = rgRUN) := by decide

theorem witness_SmpTelemetry_a :
    (let s := wSt (nDev modeRUN [] id);
      s.awake ∧ s.takes nReq tyTREAD (.tread nReq [⟨5, 9⟩]) ∧ rangesFit (rangesOf [⟨5, 9⟩]) = true) ∧
    (let s := wSt (nDev modeRUN [] id);
      s.awake ∧ s.takes nReq tyTSUB (.tsub nReq 31 20 [⟨5, 9⟩] 50) ∧ rangesFit (rangesOf [⟨5, 9⟩]) = true ∧
          s.dev.nt.subs = [] ∧ rateOk [(pointsIn (rangesOf [⟨5, 9⟩]), 20)] = true) ∧
    (let s := wSt (nDev modeRUN [] fun x => { x with subs := [⟨31, 1, nReq.addr, 900, 20, [(5, 9)], 0, 1, none⟩] });
      s.awake ∧ s.takes nReq tyTUNSUB (.tunsub nReq 31) ∧
          ownsSub nReq ⟨31, 1, nReq.addr, 900, 20, [(5, 9)], 0, 1, none⟩ = true) ∧
    (let s := wSt (nDev modeRUN [] fun x => { x with subs := [⟨31, 1, nReq.addr, 900, 20, [(5, 9)], 0, 1, some (4, 5, [0, 1])⟩] });
      s.awake ∧ s.dev.nt.subs = [⟨31, 1, nReq.addr, 900, 20, [(5, 9)], 0, 1, some (4, 5, [0, 1])⟩]) ∧
    (let s := wSt (nDev modeRUN [(NT_STAT_UP0, 0)] fun x => { x with subs := [⟨31, 1, nReq.addr, 900, 20, [(5, 9)], 0, 1, some (4, 5, [0, 1])⟩] });
      s.awake ∧ supRuns 1 s.dev = true ∧ supRuns 2 s.dev = true ∧ outPorts s.dev = [0] ∧
          onSubnet 0 nReq.addr.toNat s.dev = true) ∧
    (let s := wSt { nDev modeRUN [] id with fc := { fc0 with evq := List.replicate 40 ⟨1, 2, 3, 4⟩ } };
      s.awake ∧ s.dev.fc.evq ≠ [] ∧ s.dev.mode ≠ modeLOAD ∧ eventsLeave s.dev = true ∧ s.dev.fc.evLost = 0 ∧
          outPorts s.dev = [0] ∧ evtPeers s.dev = [(nReq.addr, 700)] ∧ onSubnet 0 nReq.addr.toNat s.dev = true) := by decide

theorem witness_SmpTelemetry_b :
    (let s := wSt (nDev modeRUN [] fun x => { x with dseq := 2 ^ 32 - 1 });
      s.awake ∧ s.dev.live = true ∧ s.dev.bit SV_STAT_RUN 1 = true ∧ s.dev.bit SV_STAT_RUN 2 = true ∧
          evtWay s.dev = true) := by decide

theorem witness_SmpMaintenance_a :
    (let s := wSt (nDev modeRUN [(NT_MNTCFG_MEN, 1)] id);
      s.awake ∧ s.takes nReq tyMOPEN (.mopen nReq 99) ∧ s.dev.flag NT_MNTCFG_MEN = true ∧ s.dev.nt.sess = none) ∧
    (let s := wSt (nDev modeRUN [] fun x => { x with sess := some (nSes false) });
      s.awake ∧ s.dev.nt.sess = some (nSes false) ∧ (nSes false).sid = nAu.sid.toNat ∧
          cntOk (nSes false) nAu.mcnt.toNat = true ∧ s.takes nReq tyMAUTH (.mauth nReq nAu)) ∧
    (let s := wSt (nDev modeRUN [] fun x => { x with sess := some (nSes true) });
      s.awake ∧ s.takes nReq tyMREAD (.mread nReq 5 4 (BitVec.ofNat 32 SV_STAT) 2) ∧ (nSes true).auth = true ∧
          cntOk (nSes true) 4 = true) ∧
    (let s := wSt (nDev modeRUN [] fun x => { x with sess := some (nSes true) });
      s.awake ∧ s.takes nReq tyMWRITE (.mwrite nReq nAu (BitVec.ofNat 32 TM_ADJ) [5])) ∧
    (let s := wSt (nDev modeRUN [] fun x => { x with sess := some (nSes true) });
      s.awake ∧ s.takes nReq tyMCLOSE (.mclose nReq nAu)) ∧
    (let s := wSt (nDev modeRUN [] id);
      s.awake ∧ s.takes nReq tyMREAD (.mread nReq 5 4 (BitVec.ofNat 32 SV_STAT) 2) ∧ s.dev.nt.sess = none) := by decide

theorem witness_SmpMaintenance_b :
    (let s := wSt (nDev modeRUN [] fun x => { x with sess := some (nSes true) });
      s.awake ∧ s.dev.nt.sess.isSome = true ∧ supRuns 1 s.dev = true) ∧
    (let s := wSt { wDev modeRUN (nL.map fun x => if x.1 = SV_STAT_RUN then (SV_STAT_RUN, 13) else x) with nt := { nt0 with sess := some (nSes true) } };
      s.awake ∧ s.dev.nt.sess.isSome = true ∧ supRuns 1 s.dev = false) := by decide

theorem witness_ImageTransfer_a :
    (let s := wSt (nDev modeIDLE [(NT_MNTCFG_IMGEN, 1)] fun x => { x with sess := some (nSes true) });
      s.awake ∧ s.takes nReq tyIOPEN (.iopen nReq nAu true (2 ^ 23)) ∧ s.dev.flag NT_MNTCFG_IMGEN = true ∧
          s.dev.nt.xfer = none ∧ bankOk ⟨true, 2 ^ 23, []⟩ = true ∧ cntOk (nSes true) nAu.mcnt.toNat = true) ∧
    (let s := wSt (nDev modeIDLE [(GL_IMGWR_STATE, 2)] fun x => { x with sess := some (nSes true), xfer := some nXf });
      s.awake ∧ s.takes nReq tyIDATA (.idata nReq 5 4 8 [1, 2, 3, 4]) ∧ s.dev.nt.xfer = some nXf ∧
          s.dev.get GL_IMGWR_STATE = 2 ∧
      nXf.hdrOk = true ∧ nXf.data.length + ([1, 2, 3, 4] : List Byte).length ≤ nXf.imgLen) ∧
    (let s := wSt (nDev modeIDLE [(GL_IMGWR_STATE, 1)] fun x => { x with xfer := some nXf });
      s.awake ∧ s.dev.nt.xfer = some nXf ∧ s.dev.get GL_IMGWR_STATE = 1) ∧
    (let s := wSt (nDev modeIDLE [(GL_IMGWR_STATE, 2)] fun x => { x with xfer := some nXf });
      s.awake ∧ s.dev.get GL_IMGWR_STATE = 2 ∧ nXf.prog < nXf.data.length ∧ nXf.hdrOk = true ∧ nXf.late = false ∧
          supRuns 1 s.dev = true) ∧
    (let s := wSt { wDev modeIDLE ((GL_IMGWR_STATE, 2) :: nL.map fun x => if x.1 = SV_STAT_RUN then (SV_STAT_RUN, 13) else x) with nt := { nt0 with xfer := some nXf } };
      s.awake ∧ s.dev.get GL_IMGWR_STATE = 2 ∧ supRuns 1 s.dev = false) ∧
    (let s := wSt (nDev modeIDLE [(GL_IMGWR_STATE, 2)] fun x => { x with xfer := some { nXf with imgLen := 8 } });
      s.awake ∧ s.dev.get GL_IMGWR_STATE = 2) := by decide

theorem witness_ImageTransfer_b :
    (let s := wSt (nDev modeIDLE [(GL_IMGWR_STATE, 3)] fun x => { x with xfer := some nXf });
      s.awake ∧ s.dev.get GL_IMGWR_STATE = 3 ∧ s.dev.bit SV_STAT_RUN 1 = true) := by decide

theorem witness_NetworkFrame :
    (let s := wSt (nDev modeRUN [] id);
      s.awake) := by decide

/-- The header of a maintenance-port request. -/
def mpHead (cmd nw addr : Nat) : List Byte := let h := bytesBE 1 cmd ++ bytesBE 1 nw ++ bytesBE 4 addr; h ++ mpCrc h

/-- A WRITE request. -/
def mpWr (addr : Nat) (ws : List Word) : List Byte := mpHead 2 (ws.length - 1) addr ++ wordBytes ws ++ mpCrc (wordBytes ws)

theorem witness_MaintenancePort :
    (let s := wSt (wDev modeSTOP [(SV_STAT_RUN, 3)]);
      s.dev.released = true ∧ s.dev.fc.stopReq = false ∧ (mpHead 0x0B 1 SV_STAT).take 1 ≠ [0x9F] ∧
          mpWhole (mpHead 0x0B 1 SV_STAT) = true ∧ inFirstMs s.dev = false ∧
          mpCheck (mpHead 0x0B 1 SV_STAT) (mpCount s).dev = 0 ∧ mpCmd (mpHead 0x0B 1 SV_STAT) = 0x0B) ∧
    (let s := wSt (wDev modeRUN [(TM_JMPCFG_JMAX, 10)]);
      s.awake ∧ inFirstMs s.dev = false ∧ mpWhole (mpWr TM_ADJ [5, 6]) = true ∧
          mpCheck (mpWr TM_ADJ [5, 6]) (mpCount s).dev = 0 ∧ mpCmd (mpWr TM_ADJ [5, 6]) = 2) ∧
    (let s := wSt (wDev modeSTOP []);
      inFirstMs s.dev = false ∧ mpWhole (mpWr TM_ADJ [5, 6]) = true ∧ mpCheck (mpWr TM_ADJ [5, 6]) (mpCount s).dev = 6) ∧
    (let s := wSt (wDev modeSTOP []);
      s.dev.released = true ∧ s.dev.fc.stopReq = false ∧ mpWhole [0x0B, 0] = false) ∧
    (let s := wSt (wDev modeRUN []);
      s.awake) := by decide +kernel

theorem witness_IdentityReads :
    (let s := wSt (wDev modeSTOP [(GL_MPCNT_FRAMES, 4)]);
      s.dev.released = true ∧ s.dev.fc.stopReq = false ∧ inFirstMs s.dev = false) ∧
    (let s := wSt (wDev modeSTOP [(GL_MPCNT_FRAMES, 4)]);
      inFirstMs s.dev = false) ∧
    (let s := wSt (wDev modeSTOP []);
      s.dev.jtag.held = 0) := by decide

theorem witness_JtagPort_a :
    (let s := wSt { wDev modeSTOP [] with jtag := ⟨5, true, 7, 2, 0, 0⟩ };
      s.dev.released = true ∧ s.dev.fc.stopReq = false) ∧
    (let s := wSt (wDev modeSTOP []);
      s.dev.jtag.held = 0 ∧ s.dev.mode = modeSTOP) ∧
    (let s := wSt (wDev modeRUN []);
      s.awake ∧ s.dev.mode ≠ modeSTOP) ∧
    (let s := wSt (wDev modeRUN []);
      s.awake) ∧
    (let s := wSt (wDev modeSTOP []);
      s.dev.fc.stopReq = false) ∧
    (let s := wSt (wDev modeSTOP []);
      s.dev.fc.stopReq = false) := by decide

theorem witness_JtagPort_b :
    (let s := wSt (wDev modeRUN []);
      s.awake) ∧
    (let s := wSt (wDev modeRUN []);
      s.awake ∧ jtagAssigned (0x77#8).toNat = false) ∧
    (let s := wSt { wDev modeSTOP [] with jtag := ⟨2, false, 7, 0, 1, 3⟩ };
      s.dev.jtag.held ≠ 0) := by decide

theorem witness_KeySlots_a :
    (let s := wSt { wDev modeSTOP [] with jtag := ⟨2, false, 7, 0, 1, 3⟩ };
      s.dev.jtag.held ≠ 0) ∧
    (let s := { wSt (wDev modeRUN []) with fuse := { fuse0 with prog0 := true, hash0 := 5 } };
      s.awake) ∧
    (let s := { wSt (wDev modeIDLE []) with fuse := { fuse0 with prog0 := true, hash0 := 5 } };
      s.awake ∧ (0x5A#7) = 0x5A ∧ s.fuse.prog1 = false ∧ s.fuse.busy = 0 ∧ s.dev.mode = modeIDLE) ∧
    (let s := { wSt (wDev modeIDLE []) with fuse := { fuse0 with prog0 := true, hash0 := 5 } };
      s.awake ∧ ¬ (s.fuse.prog0 = false)) ∧
    (let s := { wSt (wDev modeSTOP []) with fuse := { fuse0 with prog0 := true, hash0 := 5, prog1 := true } };
      (0xC3#8) = 0xC3 ∧ s.fuse.prog1 = true ∧ s.fuse.rev0 = false ∧ s.fuse.busy = 0 ∧ s.dev.mode = modeSTOP) ∧
    (let s := { wSt (wDev modeRUN []) with fuse := { fuse0 with prog0 := true, hash0 := 5, prog1 := true } };
      s.awake) := by decide

theorem witness_KeySlots_b :
    (let s := { wSt (wDev modeIDLE []) with fuse := { fuse0 with busy := 1, want := 9 } };
      s.awake ∧ s.fuse.busy = 1) ∧
    (let s := { wSt (wDev modeIDLE []) with fuse := { fuse0 with busy := 2, want := 9 } };
      s.awake ∧ s.fuse.busy = 2) ∧
    (let s := { wSt (wDev modeIDLE []) with fuse := { fuse0 with busy := 3, prog1 := true } };
      s.awake ∧ s.fuse.busy = 3) := by decide

theorem witness_FusesProgramOnce :
    (let s := { wSt (wDev modeIDLE []) with fuse := { fuse0 with busy := 3, prog1 := true, hash1 := 4 } };
      s.awake ∧ (s.fuse.busy ≤ 3 ∧ (s.fuse.busy = 1 → s.fuse.prog0 = false) ∧ (s.fuse.busy = 2 → s.fuse.prog1 = false) ∧
          (s.fuse.busy = 3 → s.fuse.prog1 = true ∧ s.fuse.rev0 = false))) := by decide

theorem witness_ReservedAddresses :
    (let s := wSt (wDev modeRUN []);
      s.awake ∧ reservedAddr (0x700000#32).toNat ∧ smGet (fun _ => []) s.dev.snaps (snapKey .mp 0x700000) = []) ∧
    (let s := wSt (wDev modeRUN []);
      s.awake ∧ reservedAddr (0x700000#32).toNat) := by decide

theorem witness_RegisterWrites_a :
    (let s := wSt (wDev modeRUN [(TM_JMPCFG_JMAX, 10)]);
      s.awake ∧ (∀ r ∈ regAt TM_ADJ, (5 : Word) &&& r.mask (fun x => x == .res) = 0 ∧
          (5 : Word) &&& r.mask (fun x => x == .sc) &&& regWord TM_ADJ s.dev = 0)) ∧
    (let s := wSt (wDev modeIDLE [(LN_STAT_STATE 2, lnACTIVE), (LN_PRBSCTL_PAT 2, 3)]);
      s.awake ∧ (∀ r ∈ regAt (LN_PRBSCTL 2), BitVec.ofNat 32 (setBit (prbsCtl 2 s.dev) 5) &&& r.mask (fun x => x == .res) = 0 ∧
      BitVec.ofNat 32 (setBit (prbsCtl 2 s.dev) 5) &&& r.mask (fun x => x == .sc) &&& regWord (LN_PRBSCTL 2) s.dev = 0)) ∧
    (let s := wSt (wDev modeRUN [(CE_STAT_STATE 384, ceHEALTHY)]);
      s.awake ∧ (∀ r ∈ regAt (CE_DIAGREQ 384), diagWord 1 true 0 &&& r.mask (fun x => x == .res) = 0)) ∧
    (let s := wSt (wDev modeSTOP [(TM_JMPCFG_JMAX, 10)]);
      s.dev.released = true ∧ s.dev.mode = modeSTOP ∧ s.dev.fc.stopReq = false) ∧
    (let s := wSt (wDev modeLOAD []);
      s.awake ∧ s.dev.released = true ∧ s.dev.mode = modeLOAD ∧ s.dev.fc.stopReq = false) ∧
    (let s := wSt (wDev modeRUN [(TM_EVT_HOLD, 1)]);
      s.awake ∧ s.dev.mode ≠ modeLOAD ∧ s.dev.permits .mp .flag = true) := by decide

theorem witness_RegisterWrites_b :
    (let s := wSt (wDev modeRUN []);
      s.awake ∧ (∃ r ∈ regAt SV_STAT, r.mask (fun x => x == .rw || x == .w1c || x == .wo || x == .sc) = 0)) ∧
    (let s := wSt (wDev modeRUN [(TM_JMPCFG_JMAX, 10)]);
      s.awake ∧ s.dev.permits .sup .time = false) := by decide

end Sys2Proof.Tests
end

section
/-! PROOFS. What the safety channel, reads, the serial ports and refused writes leave alone: `Quiet` for the operations of chapters 12
and 18 that a device in STOP still takes. -/

namespace Sys2Proof.Machine

/-! ## Parts that no register shows -/

theorem quiet_setSf {d e : Dev} (x : SafetySt) (h : Quiet d e) : Quiet d { e with sf := x } := quiet_of_word h rfl rfl rfl

theorem quiet_setSu {d e : Dev} (x : StartSt) (h : Quiet d e) : Quiet d { e with su := x } := quiet_of_word h rfl rfl rfl

theorem quiet_setSnaps {d e : Dev} (x : List (Nat × List Word)) (h : Quiet d e) : Quiet d { e with snaps := x } :=
  quiet_of_word h rfl rfl rfl

theorem quiet_onJtag {d e : Dev} (f : JtagSt → JtagSt) (h : Quiet d e) : Quiet d (onJtag f e) := quiet_of_word h rfl rfl rfl

/-! ## The safety channel (chapter 12) -/

theorem quiet_sfSwitch {d e : Dev} (x : Nat) (on : Bool) (h : Quiet d e) : Quiet d (sfSwitch x on e) :=
  quiet_putBit _ _ _ (quiet_putBit _ _ _ h (by decide)) (by decide)

theorem quiet_sfEndTest {d e : Dev} (x : Nat) (h : Quiet d e) : Quiet d (sfEndTest x e) := quiet_setSf _ h

theorem quiet_engage {d e : Dev} (x : Nat) (h : Quiet d e) : Quiet d (engage x e) :=
  quiet_setSf _ (quiet_sfEndTest x (quiet_sfSwitch x false (quiet_putBit _ _ _ h (by decide))))

theorem quiet_vauxLost {d e : Dev} (h : Quiet d e) : Quiet d (vauxLost e) := quiet_engage 1 (quiet_engage 0 h)

theorem quiet_demand {d e : Dev} (i : Nat) (h : Quiet d e) : Quiet d (demand i e) := by
  refine quiet_bump _ _ (quiet_raiseBit _ _ _ (quiet_foldN 2 _ (fun a x ha => ?_) e h) (by decide) (by decide)) (by decide)
  exact quiet_ite (quiet_engage x ha) ha

theorem quiet_sfInput {d e : Dev} (i : Nat) (h : Quiet d e) : Quiet d (sfInput e i) := by
  have hlt : Quiet d (e.putBit SF_STAT_HLT i (sfHealthy i e)) := quiet_putBit _ _ _ h (by decide)
  have hlock : ∀ p [Decidable p] a, Quiet d a → Quiet d (if p then a.putBit SF_STAT_DLOCK i false else a) :=
    fun p _ a ha => quiet_ite (quiet_putBit _ _ _ ha (by decide)) ha
  exact quiet_ite hlt (quiet_ite (quiet_setSf _ (hlock _ _ hlt))
    (quiet_ite (hlock _ _ hlt) (quiet_demand i (quiet_setSf _ (hlock _ _ hlt)))))

theorem quiet_release {d e : Dev} (x : Nat) (h : Quiet d e) : Quiet d (release x e) :=
  quiet_ite (quiet_setSf _ h)
    (quiet_sfSwitch x _ (quiet_setSf _ (quiet_sfEndTest x (quiet_putBit _ _ _ h (by decide)))))

theorem quiet_validReset {d e : Dev} (h : Quiet d e) : Quiet d (validReset e) :=
  quiet_foldN 2 _ (fun _ x ha => quiet_ite (quiet_release x ha) ha) _ (quiet_bump _ _ h (by decide))

theorem quiet_rstGo {d e : Dev} (p : Nat) (h : Quiet d e) : Quiet d (rstGo p e) := quiet_setSf _ h

theorem quiet_rstHeld {d e : Dev} (h : Quiet d e) : Quiet d (rstHeld e) := quiet_ite (quiet_rstGo 5 h) h

/-- The phases of the reset (R321) move in the safety channel's own state; RSTACT and the counter of valid resets show them. -/
theorem quiet_sfReset {d e : Dev} (hlt : Nat) (h : Quiet d e) : Quiet d (sfReset hlt e) := by
  unfold sfReset
  extract_lets a b shown _ live c start _ narrowed
  have hl : Quiet d live :=
    have hs : Quiet d shown := quiet_putB _ _ h (by decide)
    quiet_ite hs (quiet_setSf _ hs)
  have hstart : Quiet d (start live) := quiet_setSf _ hl
  have hgo : ∀ p, Quiet d (rstGo p live) := fun p => quiet_rstGo p hl
  have hok : Quiet d narrowed := quiet_setSf _ hl
  have hvalid : Quiet d (validReset (rstGo 0 live)) := quiet_validReset (hgo 0)
  split
  · exact quiet_ite hstart (quiet_ite (hgo 1) hl)
  · exact quiet_ite (quiet_ite hstart (hgo 4)) (quiet_ite hl (hgo 0))
  · exact quiet_ite hok (quiet_ite (quiet_rstGo 5 hok) (quiet_ite (quiet_ite (quiet_rstGo 4 hok) (quiet_rstGo 0 hok))
      (quiet_ite (quiet_rstGo 3 hok) (quiet_validReset (quiet_rstGo 0 hok)))))
  · exact quiet_ite (hgo 4) (quiet_ite hok (quiet_ite hvalid (hgo 0)))
  · exact quiet_ite hl (hgo 0)
  · exact quiet_ite (hgo 5) (quiet_ite (hgo 0) hl)

theorem quiet_sfFilter {d e : Dev} (i : Nat) (chB level : Bool) (h : Quiet d e) : Quiet d (sfFilter i chB level e) :=
  quiet_ite (quiet_setSf _ h) (quiet_setSf _ h)

theorem quiet_rstFilter {d e : Dev} (chB level : Bool) (h : Quiet d e) : Quiet d (rstFilter chB level e) :=
  quiet_ite (quiet_setSf _ h) (quiet_setSf _ h)

theorem quiet_sfOutput {d e : Dev} (x : Nat) (h : Quiet d e) : Quiet d (sfOutput e x) :=
  quiet_putBit _ _ _ (quiet_ite (quiet_sfEndTest x (quiet_sfSwitch x false h)) (quiet_ite h (quiet_sfSwitch x _ h))) (by decide)

theorem quiet_sfCrcFail {d e : Dev} (h : Quiet d e) : Quiet d (sfCrcFail e) :=
  quiet_foldN 8 _ (fun _ _ ha => quiet_ite (quiet_raiseBit _ _ _ ha (by decide) (by decide)) ha) _ (quiet_vauxLost h)

theorem quiet_safetyCycleD {d e : Dev} (crcOk : Bool) (hrb lrb : NodeRx) (h : Quiet d e) :
    Quiet d (safetyCycleD crcOk hrb lrb e) := by
  unfold safetyCycleD
  extract_lets _ cycled sampled checked
  have hs : Quiet d sampled := quiet_put _ _ (quiet_put _ _ (quiet_setSf _ h) (by decide)) (by decide)
  have hc : Quiet d checked := quiet_ite hs (quiet_sfCrcFail hs)
  have hout : ∀ a, Quiet d a → Quiet d (foldN 2 sfOutput a) := quiet_foldN 2 _ fun _ x => quiet_sfOutput x
  exact quiet_ite (hout _ (quiet_vauxLost hs))
    (hout _ (quiet_sfReset _ (quiet_foldN 8 _ (fun _ i => quiet_sfInput i) _ hc)))

theorem quiet_discrepancy {d e : Dev} (i : Nat) (h : Quiet d e) : Quiet d (discrepancy i e) :=
  quiet_ite (quiet_raiseBit _ _ _ (quiet_putBit _ _ _ h (by decide)) (by decide) (by decide)) h

theorem quiet_permitTestD {d e : Dev} (x : Nat) (h : Quiet d e) : Quiet d (permitTestD x e) :=
  quiet_ite h (quiet_ite h (quiet_ite (quiet_putBit _ _ _ (quiet_setSf _ h) (by decide))
    (quiet_putBit _ _ _ (quiet_setSf _ h) (by decide))))

theorem quiet_testEnd {d e : Dev} (x : Nat) (h : Quiet d e) : Quiet d (testEnd x e) :=
  have hs := quiet_sfSwitch x _ (quiet_setSf _ h)
  quiet_ite (quiet_ite (quiet_release x (quiet_setSf _ hs)) hs) h

/-! ## Temperature and the journal -/

theorem quiet_tjUpdate {d e : Dev} (tj : Nat) (h : Quiet d e) : Quiet d (tjUpdate tj e) := by
  unfold tjUpdate
  extract_lets v shown top hot _ noted
  have hs : Quiet d shown := quiet_put _ _ h (by decide)
  have ht : Quiet d top := quiet_ite (quiet_put _ _ hs (by decide)) hs
  have hn : Quiet d noted := quiet_of_word ht rfl rfl rfl
  exact quiet_ite (quiet_raise _ _ hn (by decide) (by decide)) hn

theorem quiet_journalShow {d e : Dev} (fl : Flash) (h : Quiet d e) : Quiet d (journalShow fl e) :=
  quiet_putB _ _ (quiet_put _ _ h (by decide)) (by decide)

theorem quiet_journalWriteF (a b : BankWrite) (s : State) : Quiet s.dev (journalWriteF a b s).dev := by
  unfold journalWriteF
  extract_lets d new all ra rb _ fl _ emptied flagged
  split
  · exact quiet_refl _
  · have he : Quiet s.dev emptied := quiet_of_word (quiet_refl _) rfl rfl rfl
    exact quiet_journalShow _ (quiet_ite he (quiet_raise _ _ he (by decide) (by decide)))

theorem quiet_todWritebackF (s : State) : Quiet s.dev (todWritebackF s).dev := by
  unfold todWritebackF
  split <;> exact quiet_refl _

/-! ## Reads (R31, R255, R435) -/

theorem quiet_adPop {d e : Dev} (h : Quiet d e) : Quiet d (adPop e).2 := by
  unfold adPop
  split
  · exact h
  · exact quiet_put _ _ (quiet_of_word h rfl rfl rfl) (by decide)

theorem quiet_foldl_snapPut {d : Dev} (o : Origin) (l : List Nat) :
    ∀ s : State, Quiet d s.dev → Quiet d (l.foldl (snapPut o) s).dev := by
  induction l with
  | nil => exact fun _ h => h
  | cons a l ih => exact fun s h => ih _ (quiet_setSnaps _ h)

theorem quiet_readWord {d : Dev} (o : Origin) (a : Nat) (s : State) (h : Quiet d s.dev) : Quiet d (readWord o a s).2.dev := by
  have hs : Quiet d ((snapTargets a).foldl (snapPut o) s).dev := quiet_foldl_snapPut o _ s h
  unfold readWord
  split
  · exact h
  · extract_lets w snapped
    split
    · exact quiet_adPop hs
    · split
      · exact quiet_onLane _ _ hs
      · exact hs

theorem quiet_readWords {d : Dev} (o : Origin) (n : Nat) :
    ∀ (a : Nat) (s : State), Quiet d s.dev → Quiet d (readWords o n a s).2.dev := by
  induction n with
  | zero => exact fun _ _ h => h
  | succ n ih => exact fun a s h => ih _ _ (quiet_readWord o a s h)

/-- Within the first millisecond only the count of early accesses moves (R437). -/
theorem quiet_afterFirstMs {f : State → State} {s : State} (h : Quiet s.dev (f s).dev) : Quiet s.dev (afterFirstMs f s).dev := by
  unfold afterFirstMs
  split
  · exact quiet_setSu _ (quiet_refl _)
  · exact h

theorem quiet_readOnly (o : Origin) (a : Nat) (s : State) : Quiet s.dev (readOnly o a s).dev := by
  unfold readOnly
  split
  · exact quiet_afterFirstMs (quiet_readWord o a s (quiet_refl _))
  · exact quiet_refl _

/-! ## JTAG (R446-R449) -/

theorem quiet_jtagIr {d e : Dev} (op : Nat) (refused : Bool) (drive : Nat) (h : Quiet d e) :
    Quiet d (jtagIr op refused drive e) := quiet_onJtag _ (quiet_send _ h)

theorem quiet_jtagPass {d e : Dev} (op : Nat) (refused : Bool) (drive : Nat) (h : Quiet d e) :
    Quiet d (jtagPass op refused drive e) := quiet_send _ (quiet_jtagIr _ _ _ h)

theorem quiet_jtagExtestD {d e : Dev} (x : BoundaryScan) (h : Quiet d e) : Quiet d (jtagExtestD x e) :=
  quiet_ite (quiet_onJtag _ (quiet_send _ (quiet_jtagIr _ _ _ h))) (quiet_jtagPass _ _ _ h)

theorem quiet_jtagSampleD {d e : Dev} (balls preload : BitVec 71) (h : Quiet d e) : Quiet d (jtagSampleD balls preload e) :=
  quiet_onJtag _ (quiet_send _ (quiet_jtagIr _ _ _ h))

theorem quiet_jtagHoldD {d e : Dev} (op drive : Nat) (h : Quiet d e) : Quiet d (jtagHoldD op drive e) :=
  quiet_ite (quiet_jtagPass _ _ _ h) (quiet_jtagPass _ _ _ h)

theorem quiet_jtagIdD {d e : Dev} (h : Quiet d e) : Quiet d (jtagIdD e) := quiet_send _ (quiet_jtagIr _ _ _ h)

theorem quiet_jtagReset {d e : Dev} (h : Quiet d e) : Quiet d (jtagReset e) := quiet_onJtag _ h

/-- A scan is quiet if what it does outside Test-Logic-Reset is. -/
theorem quiet_jtagScan {f : State → State} {s : State} (h : Quiet s.dev (f s).dev) : Quiet s.dev (jtagScan f s).dev := by
  unfold jtagScan
  split
  · exact h
  · exact quiet_onJtag _ (quiet_refl _)

theorem quiet_jtagDev {f : Dev → Dev} {s : State} (h : Quiet s.dev (f s.dev)) : Quiet s.dev (jtagDev f s).dev :=
  quiet_jtagScan h

theorem quiet_keyRead (s : State) : Quiet s.dev (keyRead s).dev :=
  quiet_jtagScan (quiet_send _ (quiet_jtagIr _ _ _ (quiet_refl _)))

theorem quiet_keyProg (hash : BitVec 256) (slot : Bool) (conf : Nat) (s : State) :
    Quiet s.dev (keyProg hash slot conf s).dev := by
  have h : Quiet s.dev (jtagIr 0x11 false 0 s.dev) := quiet_jtagIr _ _ _ (quiet_refl _)
  unfold keyProg
  extract_lets scanned used
  split <;> exact h

theorem quiet_keyRev (conf : Nat) (s : State) : Quiet s.dev (keyRev conf s).dev := by
  have h : Quiet s.dev (jtagIr 0x12 false 0 s.dev) := quiet_jtagIr _ _ _ (quiet_refl _)
  unfold keyRev
  extract_lets scanned
  split <;> exact h

theorem quiet_keyDone (readback : BitVec 256) (s : State) : Quiet s.dev (keyDone readback s).dev := by
  unfold keyDone
  extract_lets k res
  split
  · exact quiet_put _ _ (quiet_refl _) (by decide)
  · split
    · exact quiet_put _ _ (quiet_refl _) (by decide)
    · split
      · exact quiet_put _ _ (quiet_refl _) (by decide)
      · exact quiet_refl _

/-! ## The idle tick (R269, R270, R272) -/

theorem quiet_stepsPass {d e : Dev} (n : Nat) (h : Quiet d e) : Quiet d (stepsPass n e) := by
  unfold stepsPass
  extract_lets p k u _ _ moved
  have hm : Quiet d moved := quiet_of_word h rfl rfl rfl
  exact quiet_ite hm (quiet_putS _ _ hm (by decide))

theorem quiet_slewTaken {d e : Dev} (x : Int) (h : Quiet d e) : Quiet d (slewTaken x e) :=
  quiet_ite h (quiet_putB _ _ (quiet_of_word h rfl rfl rfl) (by decide))

theorem quiet_tickTimebase {d e : Dev} (h : Quiet d e) : Quiet d (tickTimebase e) := by
  unfold tickTimebase
  extract_lets stepped slew slewed
  have hs : Quiet d stepped := quiet_stepsPass 1 h
  have ht : Quiet d slewed := quiet_slewTaken _ hs
  exact quiet_ite hs (quiet_of_word ht rfl rfl rfl)

end Sys2Proof.Machine
end

section
/-! PROOFS. Writes of a device in STOP: the limit shell refuses every one of them (R437), and a refusal is quiet. -/

namespace Sys2Proof.Machine

/-- A write was not accepted, and it was quiet. -/
def RefusedWrite (d : Dev) (r : Bool × Dev) : Prop := r.1 = false ∧ Quiet d r.2

/-- In STOP the shell refuses every write, whatever its group, rule and effect. -/
theorem shellWrite_stop (o : Origin) (g : Group) (ok : Bool) (eff : Dev → Dev) {d : Dev} (h : d.mode = modeSTOP) :
    shellWrite o g ok eff d = (false, d.refuse o) := by
  simp [shellWrite, Dev.writable, h]

theorem refusedWrite_refuse (o : Origin) (d : Dev) : RefusedWrite d (false, d.refuse o) := ⟨rfl, quiet_refuse o (quiet_refl d)⟩

theorem refusedWrite_shellWrite (o : Origin) (g : Group) (ok : Bool) (eff : Dev → Dev) {d : Dev} (h : d.mode = modeSTOP) :
    RefusedWrite d (shellWrite o g ok eff d) := by
  rw [shellWrite_stop o g ok eff h]
  exact refusedWrite_refuse o d

/-- A refused request for an injection counts besides (R303). -/
theorem refusedWrite_wrInj (o : Origin) (w : Word) {d : Dev} (h : d.mode = modeSTOP) : RefusedWrite d (wrInj o w d) := by
  unfold wrInj
  extract_lets v go t dbl i r
  obtain ⟨hr, hq⟩ : RefusedWrite d r := refusedWrite_shellWrite _ _ _ _ h
  split
  · exact ⟨rfl, quiet_bump _ _ hq (by decide)⟩
  · exact ⟨hr, hq⟩

/-- One branch of a register map whose writes are all refused. -/
theorem refusedWrite_branch {d : Dev} {c : Prop} [Decidable c] {r : Bool × Dev} {m : Option (Bool × Dev)}
    (hr : RefusedWrite d r) (hm : ∀ x ∈ m, RefusedWrite d x) : ∀ x ∈ (if c then some r else m), RefusedWrite d x := by
  split
  · rintro x ⟨rfl⟩; exact hr
  · exact hm

/-- The same, for the units of one kind. -/
theorem refusedWrite_unit {d : Dev} {i : Option Nat} {r : Nat → Bool × Dev} {m : Option (Bool × Dev)}
    (hr : ∀ n, RefusedWrite d (r n)) (hm : ∀ x ∈ m, RefusedWrite d x) :
    ∀ x ∈ (match i with | some n => some (r n) | none => m), RefusedWrite d x := by
  split
  · rintro x ⟨rfl⟩; exact hr _
  · exact hm

theorem refusedWrite_wrChip (o : Origin) (a : Nat) (w : Word) {d : Dev} (h : d.mode = modeSTOP) :
    ∀ x ∈ wrChip o a w d, RefusedWrite d x := by
  have shell := fun g ok eff => refusedWrite_shellWrite o g ok eff h
  refine refusedWrite_branch (shell ..) <| refusedWrite_branch (shell ..) <| refusedWrite_branch (shell ..) <|
    refusedWrite_branch (shell ..) <| refusedWrite_branch (shell ..) <| refusedWrite_branch (shell ..) <|
    refusedWrite_branch (shell ..) <| refusedWrite_branch (shell ..) <| refusedWrite_branch (shell ..) <|
    refusedWrite_branch (shell ..) <| refusedWrite_branch (shell ..) <| refusedWrite_branch (shell ..) <|
    refusedWrite_branch (refusedWrite_wrInj o w h) ?_
  rintro x ⟨⟩

theorem refusedWrite_wrUnit (o : Origin) (a : Nat) (w : Word) {d : Dev} (h : d.mode = modeSTOP) :
    ∀ x ∈ wrUnit o a w d, RefusedWrite d x := by
  have shell := fun g ok eff => refusedWrite_shellWrite o g ok eff h
  refine refusedWrite_unit (fun _ => shell ..) <| refusedWrite_unit (fun _ => shell ..) <|
    refusedWrite_unit (fun _ => shell ..) <| refusedWrite_unit (fun _ => shell ..) <|
    refusedWrite_unit (fun _ => shell ..) <| refusedWrite_unit (fun _ => shell ..) fun x hx => ?_
  obtain ⟨g, -, rfl⟩ := Option.map_eq_some_iff.mp hx
  exact shell ..

/-- Every register write is refused in STOP (R437). -/
theorem refusedWrite_writeReg (o : Origin) (a : Nat) (w : Word) {d : Dev} (h : d.mode = modeSTOP) :
    RefusedWrite d (writeReg o a w d) := by
  have hr : Quiet d (d.refuse o) := quiet_refuse o (quiet_refl d)
  unfold writeReg
  split
  · exact refusedWrite_refuse o d
  · extract_lets writable sc
    split
    · exact ⟨rfl, quiet_ite (quiet_bump _ _ hr (by decide)) hr⟩
    · split
      · next x hx =>
        rcases (Option.orElse_eq_some _ _ x).mp hx with hc | ⟨-, hu⟩
        · exact refusedWrite_wrChip o a w h x hc
        · exact refusedWrite_wrUnit o a w h x hu
      · exact refusedWrite_shellWrite _ _ _ _ h

/-- A block write of a device in STOP ends at its first word. -/
theorem quiet_writeRegs_stop (o : Origin) (a : Nat) (ws : List Word) {d : Dev} (h : d.mode = modeSTOP) :
    Quiet d (writeRegs o a ws d).2 := by
  cases ws with
  | nil => exact quiet_refl d
  | cons w ws =>
    obtain ⟨hr, hq⟩ := refusedWrite_writeReg o a w h
    simpa [writeRegs, hr] using hq

/-! ## The maintenance port (R438-R443) -/

theorem quiet_mpId (s : State) : Quiet s.dev (mpId s).dev := quiet_send _ (quiet_count _ _ (quiet_refl _) (by decide))

theorem quiet_mpRejected {d : Dev} (status : Nat) (s : State) (h : Quiet d s.dev) : Quiet d (mpRejected status s).dev :=
  quiet_send _ (quiet_ite (quiet_bump _ _ h (by decide)) (quiet_ite (quiet_bump _ _ h (by decide)) h))

/-- A frame at the maintenance port of a device in STOP. -/
theorem quiet_mpFrame_stop (f : List Byte) {s : State} (h : s.dev.mode = modeSTOP) : Quiet s.dev (mpFrame f s).dev := by
  unfold mpFrame
  extract_lets counted c r q
  have hc : Quiet s.dev counted.dev := quiet_count _ _ (quiet_refl _) (by decide)
  split
  · exact quiet_mpId s
  split
  · exact quiet_refl _
  split
  · exact quiet_mpRejected _ _ hc
  split
  · exact quiet_send _ (quiet_readWords _ _ _ _ hc)
  · exact quiet_send _ (quiet_trans hc (quiet_writeRegs_stop _ _ _ (hc.1.trans h)))

end Sys2Proof.Machine
end

section
/-! PROOFS. STOP is left only by a power cycle (R12). A command keeps STOP if its effect leaves the device released and in STOP, for then
`settle` enters no STOP anew; the effect of most commands is quiet, and three raise a STOP source. -/

namespace Sys2Proof.Machine

/-- The device has been released and stands in STOP: `State.stopped`, said of the device. -/
abbrev Dev.inStop (d : Dev) : Prop := d.released = true ∧ d.mode = modeSTOP

theorem inStop_of_quiet {d e : Dev} (q : Quiet d e) (h : d.inStop) : e.inStop :=
  ⟨q.2.2.trans h.1, q.1.trans h.2⟩

/-- A flag of any class, STOP too, sets without a change of mode. -/
theorem inStop_raiseBit {d : Dev} (f : Fld) (i : Nat) (c : Cls) (h : d.inStop) (hf : f.addr ≠ GL_MODE) :
    (d.raiseBit f i c).inStop :=
  ⟨(raiseBit_released d f i c).trans h.1, (get_raiseBit_ne d f GL_MODE_MODE i c hf (by decide) (by decide)).trans h.2⟩

theorem inStop_supplyFault {d : Dev} (h : d.inStop) : (supplyFault d).inStop := inStop_raiseBit _ _ _ h (by decide)

theorem inStop_tjTrip {d : Dev} (h : d.inStop) : (tjTrip d).inStop := by
  unfold tjTrip
  split
  · exact inStop_raiseBit _ _ _ h (by decide)
  · exact h

theorem inStop_readback {d : Dev} (x : Nat) (sw : Switch) (h : d.inStop) : (readback x sw d).inStop := by
  unfold readback
  extract_lets cmd
  split
  · split
    · exact h
    · exact inStop_raiseBit _ _ _ (inStop_of_quiet (quiet_engage x (quiet_refl d)) h) (by decide)
  · exact inStop_raiseBit _ _ _ h (by decide)

/-! ## What a command answers in STOP -/

/-- Settling keeps a device in STOP: STOP is not entered a second time. -/
theorem inStop_settle {before after : Dev} (hb : before.mode = modeSTOP) (ha : after.inStop) : (settle before after).inStop := by
  refine ⟨?_, settle_stop before after (.inl hb)⟩
  simp [settle, hb, ha.2, ha.1]

variable {f : State → State} {s t : State}

/-- A command whose effect lies in the device. -/
theorem stopped_of_within {f : Dev → Dev} (h : s.stopped)
    (hx : Host.Outcome.next (within f s) = (.next t : Host.Outcome State Fault Refusal))
    (hf : (f s.dev).inStop) : t.stopped := by
  cases hx
  rw [within, if_pos h.1]
  exact inStop_settle h.2 hf

/-- A command that reaches beyond the device. -/
theorem stopped_of_whole (h : s.stopped) (hx : Host.Outcome.next (whole f s) = (.next t : Host.Outcome State Fault Refusal))
    (hf : Quiet s.dev (f s).dev) : t.stopped := by
  cases hx
  rw [whole, if_pos h.1]
  exact inStop_settle h.2 (inStop_of_quiet hf h)

/-- A command to a part that STOP makes inert (R302). -/
theorem stopped_of_running {f : Dev → Dev} (h : s.stopped)
    (hx : Host.Outcome.next (running f s) = (.next t : Host.Outcome State Fault Refusal)) : t.stopped := by
  cases hx
  rwa [running, if_pos h.2]

/-- The same for one that would reach beyond the device. -/
theorem stopped_of_wholeRunning (h : s.stopped)
    (hx : Host.Outcome.next (wholeRunning f s) = (.next t : Host.Outcome State Fault Refusal)) : t.stopped := by
  cases hx
  rwa [wholeRunning, if_pos h.2]

/-- A command with operands that the outside can give answers as one without the check. -/
theorem next_of_guarded {c : Prop} [Decidable c] {u : State}
    (hx : (if c then .next u else .fault .illFormed : Host.Outcome State Fault Refusal) = .next t) :
    (Host.Outcome.next u : Host.Outcome State Fault Refusal) = .next t := by
  split at hx
  · exact hx
  · cases hx

/-- A supply outside its window raises a STOP source; VAUX engages both clasps first. -/
theorem stopped_of_supplyOutOfWindow (rail : Rail) (h : s.stopped) (hx : execSupplyOutOfWindow rail s = .next t) : t.stopped := by
  refine stopped_of_within h hx ?_
  split
  · exact inStop_supplyFault (inStop_of_quiet (quiet_vauxLost (quiet_refl _)) h)
  · exact inStop_supplyFault h

/-- Nothing is released a second time. -/
theorem resetReleaseF_released (h : s.dev.released = true) : resetReleaseF s = s := if_pos h

/-- Every command but a power cycle keeps STOP (R12): most are inert there, register writes are refused, and what still acts
neither changes the mode nor takes back the release. -/
theorem exec_keeps_stopped (c : Instr) (h : s.stopped) (hc : c ≠ .powerCycle) (hx : exec c s = .next t) : t.stopped := by
  have quiet : Quiet s.dev s.dev := quiet_refl _
  have keep : ∀ {d}, Quiet s.dev d → d.inStop := fun q => inStop_of_quiet q h
  have shell := fun o g ok eff => refusedWrite_shellWrite o g ok eff h.2
  cases c
  -- power
  case powerCycle => exact absurd rfl hc
  case resetRelease =>
    have : s = t := by simpa [exec, execResetRelease, resetReleaseF_released h.1] using hx
    exact this ▸ h
  case vbatLoss => cases hx; exact h
  case supplyOutOfWindow rail => exact stopped_of_supplyOutOfWindow rail h hx
  case resetNLow => exact stopped_of_within h hx (inStop_supplyFault h)
  case vauxOutOfRange => exact stopped_of_within h hx (keep (quiet_vauxLost quiet))
  case tjSensorUpdate => exact stopped_of_within h hx (keep (quiet_tjUpdate _ quiet))
  case tjTripTimeout => exact stopped_of_within h hx (inStop_tjTrip h)
  -- the safety channel
  case safetyCycle => exact stopped_of_within h hx (keep (quiet_safetyCycleD _ _ _ quiet))
  case safetyInputFilter => exact stopped_of_within h hx (keep (quiet_sfFilter _ _ _ quiet))
  case safetyResetFilter => exact stopped_of_within h hx (keep (quiet_rstFilter _ _ quiet))
  case resetHoldTimeout => exact stopped_of_within h hx (keep (quiet_rstHeld quiet))
  case discrepancyTimeout => exact stopped_of_within h hx (keep (quiet_discrepancy _ quiet))
  case readbackMismatch => exact stopped_of_within h hx (inStop_readback _ _ h)
  case permitTest => exact stopped_of_within h hx (keep (quiet_permitTestD _ quiet))
  case testWidthEnd => exact stopped_of_within h hx (keep (quiet_testEnd _ quiet))
  -- register writes
  case registerWrite => exact stopped_of_within h hx (keep (refusedWrite_writeReg _ _ _ h.2).2)
  case faultInject => exact stopped_of_within h hx (keep (refusedWrite_wrInj _ _ h.2).2)
  case modHaltEnd o g tk =>
    have q : Quiet s.dev (s.dev.at_ tk) := quiet_at_ tk quiet
    exact stopped_of_within h hx (keep (quiet_trans q (refusedWrite_shellWrite _ _ _ _ (q.1.trans h.2)).2))
  case ceRelease | ceForceBypass | diagGo | pllUpdate | pllPhaseSteps | tmIncrWrite | tmAdjWrite | jumpRequest | laneRetrain |
      laneReacq | laneTxSleep | laneTxWake | laneRxSleep | laneRxWake | prbsGenEnable | prbsChkEnable | prbsInjectOne |
      prbsInjectRate | adInjGo | modHalt | drArm | drForce | drDisarm | drRel =>
    exact stopped_of_within h hx (keep (shell _ _ _ _).2)
  -- reads and write-backs
  case ceRep0Read | lowHalfRead | tmNow0Read | adQloRead | accumSumloRead | recorderWord0Read =>
    exact stopped_of_whole h hx (quiet_readOnly _ _ _)
  case todWriteback => exact stopped_of_whole h hx (quiet_todWritebackF _)
  case journalWrite => exact stopped_of_whole h hx (quiet_journalWriteF _ _ _)
  -- the maintenance port
  case mpRead | mpWrite => exact stopped_of_whole h hx (quiet_afterFirstMs (quiet_mpFrame_stop _ h.2))
  case mpIdread => exact stopped_of_whole h hx (quiet_afterFirstMs (quiet_mpId _))
  case mpFrameAbort => exact stopped_of_within h hx h
  -- JTAG and the key slots
  case jtagTrst => exact stopped_of_within h hx (keep (quiet_jtagReset quiet))
  case jtagExtest => exact stopped_of_whole h hx (quiet_jtagDev (quiet_jtagExtestD _ quiet))
  case jtagSamplePreload => exact stopped_of_whole h hx (quiet_jtagDev (quiet_jtagSampleD _ _ quiet))
  case jtagIdcode => exact stopped_of_whole h hx (quiet_jtagDev (quiet_jtagIdD quiet))
  case jtagClamp | jtagHighz => exact stopped_of_whole h hx (quiet_jtagDev (quiet_jtagHoldD _ _ quiet))
  case jtagBypass => exact stopped_of_whole h (next_of_guarded hx) (quiet_jtagDev (quiet_jtagPass _ _ _ quiet))
  case jtagKeyrd => exact stopped_of_whole h hx (quiet_keyRead _)
  case jtagKeyprog => exact stopped_of_whole h hx (quiet_jtagScan (quiet_keyProg _ _ _ _))
  case jtagKeyrev => exact stopped_of_whole h hx (quiet_jtagScan (quiet_keyRev _ _))
  case keyFuseDone => exact stopped_of_whole h hx (quiet_keyDone _ _)
  -- inert parts that reach beyond the device, then all other inert parts
  case imageLoadComplete | pllLock | sramEccError | sramScrub | recorderEntryWrite | supervisorRestartDone |
      smpInvalidDatagram | setpt | cmdCharge | cmdStop | cmdDeblock | cmdBlock | tread | tsub | tunsub | mopen | mauth | mread |
      mwrite | iopen | idata | mclose | imageVerifyDone | pageProgramDone => exact stopped_of_wholeRunning h hx
  case checkComplete => exact stopped_of_wholeRunning h (next_of_guarded hx)
  case unitRunComplete | frameRelease => exact stopped_of_running h (next_of_guarded hx)
  all_goals exact stopped_of_running h hx

/-- With no command waiting only the timebase goes on (R270). -/
theorem step_idle_keeps_stopped (h : s.stopped) (hp : s.pending = []) (hx : step s = .next t) : t.stopped := by
  simp only [step, hp, idleTick, Host.Outcome.next.injEq] at hx
  subst hx
  exact inStop_of_quiet (quiet_tickTimebase (quiet_refl _)) h

/-- A power cycle takes the release back, and with it the device out of STOP (R12, R453). -/
theorem exec_powerCycle_not_stopped (hx : exec .powerCycle s = .next t) : ¬ t.stopped := by
  cases hx
  rintro ⟨hreleased, -⟩
  cases hreleased

/-- Settles O3, by cases over the commands: each keeps a released device in STOP, but for the power cycle. -/
theorem stopIsFinal : Obligations.StopIsFinal := by
  unfold Obligations.StopIsFinal
  exact fun s t h => ⟨fun c hc hx => exec_keeps_stopped c h hc hx, step_idle_keeps_stopped h, exec_powerCycle_not_stopped⟩

end Sys2Proof.Machine
end

section
/-! PROOFS. Clearing a trip flag (R297): a refused write changes only the registers of the refusal, and a write that clears flags clears
each of them whose cause is gone. -/

namespace Sys2Proof.Machine

/-! ## Single bits -/

theorem bitOf_eq_testBit (n i : Nat) : bitOf n i = n.testBit i := by
  rw [Nat.testBit_eq_decide_div_mod_eq, bitOf]
  rfl

/-- The bits of a number after one has been cleared. -/
theorem testBit_clrBit (n i j : Nat) : (clrBit n i).testBit j = (n.testBit j && decide (j ≠ i)) := by
  unfold clrBit
  split
  case isTrue h =>
    have hodd : n / 2 ^ i = 2 * (n / 2 ^ i / 2) + 1 := by
      have : n / 2 ^ i % 2 = 1 := by simpa [bitOf] using h
      omega
    generalize n / 2 ^ i / 2 = k at hodd
    have hr : n % 2 ^ i < 2 ^ i := Nat.mod_lt _ (Nat.two_pow_pos i)
    have hn : n = 2 ^ i * (2 * k + 1) + n % 2 ^ i := by rw [← hodd, Nat.div_add_mod]
    have hclr : n - 2 ^ i = 2 ^ i * (2 * k) + n % 2 ^ i := by
      rw [Nat.mul_add, Nat.mul_one] at hn; omega
    rw [hclr, hn, Nat.testBit_two_pow_mul_add _ hr, Nat.testBit_two_pow_mul_add _ (Nat.mod_lt _ (Nat.two_pow_pos i))]
    rcases Nat.lt_trichotomy j i with hji | rfl | hji
    · simp [hji, hji.ne]
    · simp
    · obtain ⟨m, hm⟩ : ∃ m, j - i = m + 1 := ⟨j - i - 1, by omega⟩
      have hhalf : (2 * k + 1) / 2 = k := by omega
      simp [hm, hhalf, hji.ne', Nat.testBit_succ]
  case isFalse h =>
    by_cases hji : j = i
    · subst hji; simpa [bitOf_eq_testBit] using h
    · simp [hji]

/-- A bit of a register's field is a bit of the register. -/
theorem bit_eq_getLsbD (d : Dev) (f : Fld) (i : Nat) (h : i < f.width) : d.bit f i = (d.word f.addr).getLsbD (f.lsb + i) := by
  simp [Dev.bit, Dev.get, bitOf_eq_testBit, testBit_fldGet, h]

/-- A counter after it has counted. -/
theorem get_bump_same (d : Dev) (f : Fld) (k : Nat) (h : f.lsb + f.width ≤ 32) :
    (d.bump f k).get f = satInc f.width (d.get f) k := by
  have : satInc f.width (d.get f) k < 2 ^ f.width := by
    have := Nat.two_pow_pos f.width
    unfold satInc; omega
  rw [Dev.bump, get_put_same _ _ _ h, Nat.mod_eq_of_lt this]

/-- One pass of a fold establishes `Q`, if `P` holds throughout and every pass keeps `Q`. -/
theorem foldl_establishes {α β : Type} {f : α → β → α} {P Q : α → Prop} (hP : ∀ a x, P a → P (f a x))
    (hQ : ∀ a x, Q a → Q (f a x)) {x : β} (hx : ∀ a, P a → Q (f a x)) {l : List β} (hl : x ∈ l) :
    ∀ a, P a → Q (l.foldl f a) := by
  induction l with
  | nil => cases hl
  | cons y l ih =>
    intro a ha
    rcases List.mem_cons.mp hl with rfl | hl
    · exact List.foldlRecOn l f (hx a ha) fun b hb y _ => hQ b y hb
    · exact ih hl _ (hP a y ha)

/-! ## A refused write (R28, R350) -/

/-- A refusal changes no register but its own and the two of lost events. -/
theorem refuse_word (o : Origin) (d : Dev) (a : Nat) (h : ¬ refuseRegs a) (hevt : a ≠ NT_EVT) (hcnt : a ≠ NT_CNT1) :
    (d.refuse o).word a = d.word a := by
  simp only [refuseRegs, not_or] at h
  obtain ⟨hsvcnt, hsvevt, hchip⟩ := h
  cases o
  case sup => exact (raise_word _ _ _ _ hsvevt hevt hcnt).trans (word_put_ne _ _ _ _ (Ne.symm hsvcnt))
  all_goals exact raise_word _ _ _ _ hchip hevt hcnt

/-- A refused write of the supervisors sets SUPREF and counts. -/
theorem refuse_sup (d : Dev) : (d.refuse .sup).flag SV_EVT_SUPREF = true ∧
    (d.refuse .sup).get SV_CNT_SUPREFCNT = satInc SV_CNT_SUPREFCNT.width (d.get SV_CNT_SUPREFCNT) 1 := by
  constructor
  · simp [Dev.refuse, Dev.flag, get_raise_same _ SV_EVT_SUPREF .service (by decide) (by decide) (by decide) (by decide)]
  · exact (get_raise_ne _ _ _ _ (by decide) (by decide) (by decide)).trans (get_bump_same _ _ _ (by decide))

/-- A refused write of any other origin sets WREF. -/
theorem refuse_wref (o : Origin) (d : Dev) (h : o ≠ .sup) : (d.refuse o).flag FC_CHIP_WREF = true := by
  have wref : d.wref.flag FC_CHIP_WREF = true := by
    simp [Dev.wref, Dev.flag, get_raise_same _ FC_CHIP_WREF .notice (by decide) (by decide) (by decide) (by decide)]
  cases o
  case sup => exact absurd rfl h
  all_goals exact wref

/-! ## Clearing flags -/

/-- A write of `ones` at `a` clears bit `b`: it names the bit, the bit is set, and its cause is gone. -/
abbrev ClearsBit (a ones : Nat) (d : Dev) (b : Nat) : Prop :=
  bitOf ones b ∧ d.reads1 a b ∧ ¬ ((flagClass a b d).isSome ∧ persistsOf a b d)

/-- One pass of `clearFlags`: bit `b` of the register at `a`. -/
def clearFlag (a ones : Nat) (d : Dev) (b : Nat) : Dev :=
  if ClearsBit a ones d b then
    let d := d.setWord a (BitVec.ofNat 32 (clrBit (d.word a).toNat b))
    if a = FC_RSVEVT then { d with fc := { d.fc with rsvRun := smErase d.fc.rsvRun b } } else d
  else d

theorem clearFlags_eq_foldl (a ones : Nat) (d : Dev) : clearFlags a ones d = (List.range 32).foldl (clearFlag a ones) d := rfl

/-- The words after one pass: at most bit `b` of the one register has gone. -/
theorem clearFlag_word (a ones : Nat) (d : Dev) (b c : Nat) :
    (clearFlag a ones d b).word c =
      if a = c ∧ ClearsBit a ones d b then BitVec.ofNat 32 (clrBit (d.word a).toNat b) else d.word c := by
  unfold clearFlag
  split
  · next hb =>
    have hset : (d.setWord a (BitVec.ofNat 32 (clrBit (d.word a).toNat b))).word c =
        if a = c ∧ ClearsBit a ones d b then BitVec.ofNat 32 (clrBit (d.word a).toNat b) else d.word c :=
      (word_setWord ..).trans (if_congr (and_iff_left hb).symm rfl rfl)
    dsimp only
    split <;> exact hset
  · next hb => rw [if_neg fun h => hb h.2]

theorem quiet_clearFlag {d e : Dev} (a ones b : Nat) (h : Quiet d e) (ha : a ≠ GL_MODE) : Quiet d (clearFlag a ones e b) := by
  have hset : Quiet d (e.setWord a (BitVec.ofNat 32 (clrBit (e.word a).toNat b))) := quiet_setWord _ _ h ha
  exact quiet_ite (quiet_ite (quiet_of_word hset rfl rfl rfl) hset) h

theorem quiet_clearFlags {d e : Dev} (a ones : Nat) (h : Quiet d e) (ha : a ≠ GL_MODE) : Quiet d (clearFlags a ones e) := by
  rw [clearFlags_eq_foldl]
  exact quiet_foldl _ _ (fun _ b hb => quiet_clearFlag a ones b hb ha) e h

/-- A bit that reads 0 stays 0 in every pass. -/
theorem clearFlag_keeps_zero (a ones : Nat) (d : Dev) (b i : Nat) (h : (d.word a).getLsbD i = false) :
    ((clearFlag a ones d b).word a).getLsbD i = false := by
  rw [clearFlag_word]
  split
  · have : (d.word a).toNat.testBit i = false := h
    simp [BitVec.getLsbD_ofNat, testBit_clrBit, this]
  · exact h

/-- The pass of a bit whose cause is gone leaves it 0. -/
theorem clearFlag_clears (a ones : Nat) (d : Dev) (i : Nat) (hi : bitOf ones i = true) (hp : persistsOf a i d = false) :
    ((clearFlag a ones d i).word a).getLsbD i = false := by
  rw [clearFlag_word]
  split
  · simp [BitVec.getLsbD_ofNat, testBit_clrBit]
  · next h =>
    have : ¬ d.reads1 a i = true := fun hr => h ⟨rfl, hi, hr, by simp [hp]⟩
    simpa [Dev.reads1, bitOf_eq_testBit, BitVec.testBit_toNat] using this

/-! ## FC_TRIPEVT -/

theorem persistsOf_tripEvt (b : Nat) (d : Dev) : persistsOf FC_TRIPEVT b d = d.bit FC_TRIPSTAT_FILT b := rfl

/-- The flags of FC_TRIPEVT are those of the four inputs. -/
theorem flagClass_tripEvt (b : Nat) (d : Dev) : flagClass FC_TRIPEVT b d = if b < 4 then some (tripCls b d) else none := by
  have chip : chipClass FC_TRIPEVT b d = if b < 4 then some (tripCls b d) else none := rfl
  have unit : unitClass FC_TRIPEVT b d = none := rfl
  rw [flagClass, chip, unit]
  by_cases hb : b < 4 <;> simp [hb]

/-- No trip flag is of class STOP. -/
theorem tripCls_ne_stop (x : Nat) (d : Dev) : tripCls x d ≠ .stop := by
  unfold tripCls
  split <;> simp

/-- The flag of an input that is not asserted clears (R297). -/
theorem clearFlags_tripEvt (ones i : Nat) (d : Dev) (hi : bitOf ones i = true) (h32 : i < 32)
    (hp : d.bit FC_TRIPSTAT_FILT i = false) : ((clearFlags FC_TRIPEVT ones d).word FC_TRIPEVT).getLsbD i = false := by
  rw [clearFlags_eq_foldl]
  refine foldl_establishes (P := fun e => e.bit FC_TRIPSTAT_FILT i = false)
    (Q := fun e => (e.word FC_TRIPEVT).getLsbD i = false) (fun e b he => ?_)
    (fun e b => clearFlag_keeps_zero FC_TRIPEVT ones e b i)
    (fun e he => clearFlag_clears _ _ _ _ hi ((persistsOf_tripEvt i e).trans he))
    (List.mem_range.mpr h32) d hp
  have hw : (clearFlag FC_TRIPEVT ones e b).word FC_TRIPSTAT = e.word FC_TRIPSTAT := by
    rw [clearFlag_word, if_neg fun h => absurd h.1 (by decide)]
  rw [Dev.bit, get_congr _ e _ hw]
  exact he

/-- A write of ones to trip flags belongs to the group FLAG; an asserted input refuses it. -/
theorem wrFlags_tripEvt (o : Origin) (ones : Nat) (d : Dev) :
    wrFlags o FC_TRIPEVT ones d =
      shellWrite o .flag (ones &&& d.get FC_TRIPSTAT_FILT == 0) (clearFlags FC_TRIPEVT ones) d := by
  unfold wrFlags
  extract_lets stop
  have hstop : stop = false := by
    refine List.any_eq_false.mpr fun b _ => ?_
    rw [flagClass_tripEvt]
    by_cases hb : b < 4 <;> simp [hb, tripCls_ne_stop]
  rw [hstop]
  have hok : (!(FC_TRIPEVT == FC_TRIPEVT && ones &&& d.get FC_TRIPSTAT_FILT != 0)) = (ones &&& d.get FC_TRIPSTAT_FILT == 0) := by
    simp [bne]
  rw [hok]
  rfl

theorem regAt_tripEvt : regAt FC_TRIPEVT =
    some ⟨FC_TRIPEVT, [], 0, [⟨0, 4, .w1c, 0, 0, 0xF⟩, ⟨4, 12, .res, 0, 0, 0xFFF⟩, ⟨16, 16, .ro, 0, 0, 0xFFFF⟩]⟩ := rfl

/-- FC_TRIPEVT has no rule of its own: its writes are writes of flags. -/
theorem wrChip_tripEvt (o : Origin) (w : Word) (d : Dev) : wrChip o FC_TRIPEVT w d = none := rfl
theorem wrUnit_tripEvt (o : Origin) (w : Word) (d : Dev) : wrUnit o FC_TRIPEVT w d = none := rfl

/-- A write of FC_TRIPEVT (Table 11.6): a reserved bit refuses it, and bits 3 to 0 are the flags. -/
theorem writeReg_tripEvt (o : Origin) (w : Word) (d : Dev) :
    writeReg o FC_TRIPEVT w d =
      if w &&& 0xFFF0#32 ≠ 0 then (false, d.refuse o) else wrFlags o FC_TRIPEVT (w &&& 0xF#32).toNat d := by
  unfold writeReg
  rw [regAt_tripEvt, wrChip_tripEvt, wrUnit_tripEvt]
  change (if 0xF#32 = 0#32 ∨ w &&& 0xFFF0#32 ≠ 0#32 ∨ w &&& 0#32 &&& regWord FC_TRIPEVT d ≠ 0#32 then (false, d.refuse o)
    else wrFlags o FC_TRIPEVT (w &&& 0xF#32).toNat d) = _
  simp

/-- A write of FC_TRIPEVT is refused while the input of a flag that it would clear is asserted (R297). -/
theorem writeReg_tripEvt_asserted (o : Origin) (x : Fin 4) (w : Word) (d : Dev) (hw : w.getLsbD x.val = true)
    (hfilt : d.bit FC_TRIPSTAT_FILT x.val = true) : writeReg o FC_TRIPEVT w d = (false, d.refuse o) := by
  have hones : (w &&& 0xF#32).toNat.testBit x.val = true := by
    have hmask : ∀ i : Fin 4, (0xF#32).getLsbD i.val = true := by decide
    rw [BitVec.testBit_toNat, BitVec.getLsbD_and, hw, hmask x, Bool.and_self]
  have hmeet : ((w &&& 0xF#32).toNat &&& d.get FC_TRIPSTAT_FILT == 0) = false := by
    refine beq_false_of_ne fun h0 => ?_
    have hx := congrArg (Nat.testBit · x.val) h0
    rw [Dev.bit, bitOf_eq_testBit] at hfilt
    simp only [Nat.testBit_and, hones, hfilt, Nat.zero_testBit] at hx
    cases hx
  rw [writeReg_tripEvt, wrFlags_tripEvt, hmeet]
  simp [shellWrite]

/-- A write of FC_TRIPEVT is accepted if its origin may clear flags and no input of a flag that it clears is asserted. -/
theorem writeReg_tripEvt_clear (o : Origin) (w : BitVec 4) (d : Dev) (hmode : d.writable = true) (hper : d.permits o .flag = true)
    (hfilt : ∀ y : Fin 4, w.getLsbD y.val = true → d.bit FC_TRIPSTAT_FILT y.val = false) :
    writeReg o FC_TRIPEVT (w.setWidth 32) d = (true, clearFlags FC_TRIPEVT w.toNat d) := by
  have hres : ∀ v : BitVec 4, ¬ v.setWidth 32 &&& 0xFFF0#32 ≠ 0 := by decide
  have hones : ∀ v : BitVec 4, (v.setWidth 32 &&& 0xF#32).toNat = v.toNat := by decide
  have hmeet : w.toNat &&& d.get FC_TRIPSTAT_FILT = 0 := by
    refine Nat.eq_of_testBit_eq fun i => ?_
    rw [Nat.testBit_and, Nat.zero_testBit, BitVec.testBit_toNat]
    cases hi : w.getLsbD i
    · rfl
    · have := hfilt ⟨i, BitVec.lt_of_getLsbD hi⟩ hi
      rwa [Dev.bit, bitOf_eq_testBit] at this
  rw [writeReg_tripEvt, if_neg (hres w), wrFlags_tripEvt, hones, shellWrite]
  simp [hmode, hper, hmeet]

/-! ## The command -/

/-- What REGISTER_WRITE answers in a device that is awake, where the write is quiet. -/
theorem answers_registerWrite {o : Origin} {a : Nat} {w : Word} {s : State} {d : Dev} {ok : Bool} {P : State → Prop} (h : s.awake)
    (ha : a < 2 ^ 32) (hw : writeReg o a w s.dev = (ok, d)) (q : Quiet s.dev d) (hP : P { s with dev := tripOutRelease d }) :
    Answers (.registerWrite o (BitVec.ofNat 32 a) w) s P := by
  have hd : (writeReg o (BitVec.ofNat 32 a).toNat w s.dev).2 = d := by
    rw [BitVec.toNat_ofNat, Nat.mod_eq_of_lt ha, hw]
  refine ⟨_, rfl, ?_⟩
  rw [within_quiet (f := fun d => (writeReg o (BitVec.ofNat 32 a).toNat w d).2) h (by rwa [hd]), hd]
  exact hP

/-- Settles O43: a write that meets an asserted input is refused as any other, and one that meets none clears its flags. -/
theorem tripFlagClear : Obligations.TripFlagClear := by
  unfold Obligations.TripFlagClear
  intro o x s hawake hload hper _
  constructor
  · intro w hw hfilt
    refine answers_registerWrite hawake (by decide) (writeReg_tripEvt_asserted o x w s.dev hw hfilt)
      (quiet_refuse o (quiet_refl _)) ⟨?_, ?_⟩
    · rw [tripOutRelease_word _ _ (by decide), refuse_word o s.dev FC_TRIPEVT (by unfold refuseRegs; decide) (by decide) (by decide)]
    · simp only [tripOutRelease_flag _ SV_EVT_SUPREF (by decide), tripOutRelease_get _ SV_CNT_SUPREFCNT (by decide),
        tripOutRelease_flag _ FC_CHIP_WREF (by decide)]
      split
      · next ho => subst ho; exact refuse_sup s.dev
      · next ho => exact refuse_wref o s.dev ho
  · intro w hw hfilt
    have hmode : s.dev.writable = true := by simp [Dev.writable, hload, hawake.2.1]
    refine answers_registerWrite hawake (by decide) (writeReg_tripEvt_clear o w s.dev hmode hper hfilt)
      (quiet_clearFlags _ _ (quiet_refl _) (by decide)) ?_
    rw [bit_eq_getLsbD _ _ _ x.isLt, tripOutRelease_word _ _ (by decide)]
    have hones : bitOf w.toNat x.val = true := by rw [bitOf_eq_testBit, BitVec.testBit_toNat, hw]
    have hlsb : FC_TRIPEVT_TRIP.lsb + x.val = x.val := Nat.zero_add _
    rw [hlsb]
    exact clearFlags_tripEvt _ _ _ hones (by omega) (hfilt x hw)

end Sys2Proof.Machine
end

section
/-! PROOFS. What identifies the device (R442, R448): the port sends the wired word of GL_ID, a scan captures the same word, and settling
the step takes back neither, in STOP or out of it. -/

namespace Sys2Proof.Machine

/-! ## A step that raises no STOP source, settled in any mode -/

/-- STOP is not entered by such a step: settling leaves all but the trip outputs, and, where the device is in STOP, the mode it shows and
the state of the fault collection. -/
theorem settle_of_no_stopReq (b a : Dev) (hq : a.fc.stopReq = false) :
    ∃ d fc, (d = tripOutRelease a ∨ d = (tripOutRelease a).put GL_MODE_MODE modeSTOP) ∧ settle b a = { d with fc := fc } := by
  simp only [settle, hq, Bool.false_eq_true, false_and, if_false]
  split
  · exact ⟨_, _, .inr rfl, rfl⟩
  · exact ⟨_, _, .inl rfl, rfl⟩

theorem settle_sent {b a : Dev} (hq : a.fc.stopReq = false) : (settle b a).sent = a.sent := by
  obtain ⟨d, fc, rfl | rfl, hs⟩ := settle_of_no_stopReq b a hq <;> simp [hs]

theorem settle_jtag {b a : Dev} (hq : a.fc.stopReq = false) : (settle b a).jtag = a.jtag := by
  obtain ⟨d, fc, rfl | rfl, hs⟩ := settle_of_no_stopReq b a hq <;> simp [hs]

theorem settle_get {b a : Dev} (f : Fld) (hq : a.fc.stopReq = false) (hmode : GL_MODE ≠ f.addr) (htrip : f.addr ≠ FC_TRIPSTAT) :
    (settle b a).get f = a.get f := by
  obtain ⟨d, fc, hd, hs⟩ := settle_of_no_stopReq b a hq
  have hget : d.get f = a.get f := by
    rcases hd with rfl | rfl
    · exact tripOutRelease_get a f htrip
    · exact (get_put_ne _ _ _ _ hmode).trans (tripOutRelease_get a f htrip)
  exact (get_congr _ d f (by rw [hs]; rfl)).trans hget

/-- What a released device answers to a command that reaches beyond the device. -/
theorem answers_whole {c : Instr} {f : State → State} {s : State} {P : State → Prop} (hc : exec c s = .next (whole f s))
    (h : s.dev.released = true) (hP : P { f s with dev := settle s.dev (f s).dev, pending := s.pending }) : Answers c s P :=
  ⟨_, hc, by rwa [whole, if_pos h]⟩

/-! ## GL_ID at the maintenance port (R442) -/

theorem regAt_glId : regAt GL_ID = some ⟨GL_ID, [], 0, [⟨0, 32, .ro, 0x181925a7, 0x0, 0xffffffff⟩]⟩ := rfl

/-- GL_ID is wired: it reads the same in every state. -/
theorem peekWord_glId (s : State) : peekWord GL_ID s = 0x181925A7 := by
  have wired : liveChip GL_ID s.dev = some 0x181925A7 := rfl
  have reg : peekWord GL_ID s = regWord GL_ID s.dev := rfl
  rw [reg, regWord, regAt_glId, wired]
  rfl

theorem wordBytes_glId : wordBytes [0x181925A7] = [0x18, 0x19, 0x25, 0xA7] := by decide

theorem mpId_sent (s : State) : (mpId s).dev.sent = .mp [0x18, 0x19, 0x25, 0xA7] :: s.dev.sent := by
  rw [mpId, peekWord_glId, wordBytes_glId]
  rfl

/-- The frame is counted, modulo the counter's width (Table 18.8). -/
theorem mpId_frames (s : State) :
    (mpId s).dev.get GL_MPCNT_FRAMES = (s.dev.get GL_MPCNT_FRAMES + 1) % 2 ^ GL_MPCNT_FRAMES.width :=
  get_put_same s.dev GL_MPCNT_FRAMES _ (by decide)

/-- The command byte alone makes a frame IDREAD; what follows it is not looked at. -/
theorem mpFrame_idread (f : List Byte) (s : State) : mpFrame (0x9F :: f) s = mpId s := if_pos rfl

theorem afterFirstMs_past {f : State → State} {s : State} (h : inFirstMs s.dev = false) : afterFirstMs f s = f s := by
  simp [afterFirstMs, h]

/-- A command whose effect is that of IDREAD, once the first millisecond is over, sends the bytes of GL_ID and counts one frame. -/
theorem answers_mpId {c : Instr} {f : State → State} {s : State} (hc : exec c s = .next (whole (afterFirstMs f) s)) (hf : f s = mpId s)
    (hr : s.dev.released = true) (hq : s.dev.fc.stopReq = false) (hms : inFirstMs s.dev = false) :
    Answers c s fun t => t.dev.sent.head? = some (.mp [0x18, 0x19, 0x25, 0xA7]) ∧
      t.dev.get GL_MPCNT_FRAMES = (s.dev.get GL_MPCNT_FRAMES + 1) % 2 ^ GL_MPCNT_FRAMES.width := by
  have hid : afterFirstMs f s = mpId s := (afterFirstMs_past hms).trans hf
  have hstop : (mpId s).dev.fc.stopReq = false := (quiet_mpId s).2.1.trans hq
  refine answers_whole hc hr ?_
  rw [hid]
  constructor
  · rw [settle_sent hstop, mpId_sent]
    rfl
  · rw [settle_get _ hstop (by decide) (by decide), mpId_frames]

/-! ## IDCODE (R448) -/

theorem jtagDev_out_of_reset {f : Dev → Dev} {s : State} (h : s.dev.jtag.held = 0) :
    jtagDev f s = { s with dev := f s.dev } := if_pos h

theorem jtagIdD_sent (d : Dev) : (jtagIdD d).sent.head? = some (.jtag 32 0x181925A7) := rfl

theorem jtagIdD_ir (d : Dev) : (jtagIdD d).jtag.ir = 0x02 := rfl

theorem answers_jtagIdcode {s : State} (hr : s.dev.released = true) (hq : s.dev.fc.stopReq = false) (hheld : s.dev.jtag.held = 0) :
    Answers .jtagIdcode s fun t => t.dev.sent.head? = some (.jtag 32 0x181925A7) ∧ t.dev.jtag.ir = 0x02 := by
  have hstop : (jtagIdD s.dev).fc.stopReq = false := (quiet_jtagIdD (quiet_refl _)).2.1.trans hq
  refine answers_whole rfl hr ?_
  rw [jtagDev_out_of_reset hheld]
  constructor
  · rw [settle_sent hstop, jtagIdD_sent]
  · rw [settle_jtag hstop, jtagIdD_ir]

/-- Settles O55: IDREAD and IDCODE both give the word that GL_ID is wired to, and its fields are those of R448. -/
theorem identityReads : Obligations.IdentityReads := by
  unfold Obligations.IdentityReads
  refine ⟨fun f s hr hq => ⟨fun hms => ?_, answers_mpId rfl rfl hr hq, answers_jtagIdcode hr hq, peekWord_glId s⟩, by decide⟩
  obtain ⟨t, ht, hsent, -⟩ := answers_mpId (c := .mpRead (0x9F :: f)) rfl (mpFrame_idread f s) hr hq hms
  exact ⟨t, ht, hsent⟩

end Sys2Proof.Machine
end

section
/-! PROOFS. What lies beyond the device (recorder memory, fuses, flash, VBAT, the queue): which of it each command may change. -/

namespace Sys2Proof.Machine

/-! ## Stores -/

/-- What lies beyond the device and is not the queue. -/
inductive Store where
  | recMem | fuse | flash | vbat

/-- A store is as before. -/
def State.sameStore (s t : State) : Store → Prop
  | .recMem => t.recMem = s.recMem
  | .fuse => t.fuse = s.fuse
  | .flash => t.flash = s.flash
  | .vbat => t.vbat = s.vbat

/-- The queue is as before, and so is every store outside `X`. -/
def Keeps (X : Store → Prop) (s t : State) : Prop := t.pending = s.pending ∧ ∀ x, ¬ X x → s.sameStore t x

variable {X Y : Store → Prop} {s t u : State}

theorem keeps_refl (s : State) : Keeps X s s := ⟨rfl, fun x _ => by cases x <;> rfl⟩

theorem keeps_mono (hXY : ∀ x, X x → Y x) (h : Keeps X s t) : Keeps Y s t :=
  ⟨h.1, fun x hx => h.2 x fun k => hx (hXY x k)⟩

theorem keeps_trans (h : Keeps X s t) (k : Keeps X t u) : Keeps X s u := by
  refine ⟨k.1.trans h.1, fun x hx => ?_⟩
  have hst := h.2 x hx
  have htu := k.2 x hx
  cases x <;> exact Eq.trans htu hst

/-- Nothing that the device does within itself reaches a store. -/
theorem keeps_dev (d : Dev) (h : Keeps X s t) : Keeps X s { t with dev := d } :=
  ⟨h.1, fun x hx => by have := h.2 x hx; cases x <;> exact this⟩

theorem keeps_of_dev (d : Dev) : Keeps X s { s with dev := d } := keeps_dev d (keeps_refl s)

theorem keeps_flash (f : Flash) (hX : X .flash) (h : Keeps X s t) : Keeps X s { t with flash := f } :=
  ⟨h.1, fun x hx => by have := h.2 x hx; cases x <;> first | exact this | exact absurd hX hx⟩

theorem keeps_fuse (f : Fuse) (hX : X .fuse) (h : Keeps X s t) : Keeps X s { t with fuse := f } :=
  ⟨h.1, fun x hx => by have := h.2 x hx; cases x <;> first | exact this | exact absurd hX hx⟩

theorem keeps_vbat (v : Vbat) (hX : X .vbat) (h : Keeps X s t) : Keeps X s { t with vbat := v } :=
  ⟨h.1, fun x hx => by have := h.2 x hx; cases x <;> first | exact this | exact absurd hX hx⟩

theorem keeps_recMem (m : List (Nat × BitVec 256)) (hX : X .recMem) (h : Keeps X s t) : Keeps X s { t with recMem := m } :=
  ⟨h.1, fun x hx => by have := h.2 x hx; cases x <;> first | exact this | exact absurd hX hx⟩

theorem keeps_ite {p : Prop} [Decidable p] (ht : Keeps X s t) (hu : Keeps X s u) : Keeps X s (if p then t else u) := by
  split <;> assumption

/-- Nothing beyond the device changes. -/
theorem keepsRest_of_keeps (h : Keeps (fun _ => False) s t) : s.keepsRest t :=
  ⟨h.2 .recMem id, h.2 .fuse id, h.2 .flash id, h.2 .vbat id, h.1⟩

/-- A foldl over states keeps what each pass keeps. -/
theorem keeps_foldl {α : Type} (l : List α) (f : State → α → State) (hf : ∀ t x, Keeps X t (f t x)) :
    ∀ s, Keeps X s (l.foldl f s) := by
  induction l with
  | nil => exact fun s => keeps_refl s
  | cons x l ih => exact fun s => keeps_trans (hf s x) (ih _)

/-! ## Reads and the serial ports (chapter 18) -/

theorem keeps_readWord (o : Origin) (a : Nat) (s : State) : Keeps X s (readWord o a s).2 := by
  have hsnap : Keeps X s ((snapTargets a).foldl (snapPut o) s) := keeps_foldl _ _ (fun t x => keeps_of_dev _) s
  unfold readWord
  split
  · exact keeps_refl s
  · extract_lets w snapped
    split
    · exact keeps_dev _ hsnap
    · split
      · exact keeps_dev _ hsnap
      · exact hsnap

theorem keeps_readWords (o : Origin) (n : Nat) : ∀ (a : Nat) (s : State), Keeps X s (readWords o n a s).2 := by
  induction n with
  | zero => exact fun _ s => keeps_refl s
  | succ n ih => exact fun a s => keeps_trans (keeps_readWord o a s) (ih _ _)

theorem keeps_afterFirstMs {f : State → State} (h : Keeps X s (f s)) : Keeps X s (afterFirstMs f s) := by
  unfold afterFirstMs
  exact keeps_ite (keeps_of_dev _) h

theorem keeps_readOnly (o : Origin) (a : Nat) (s : State) : Keeps X s (readOnly o a s) := by
  unfold readOnly
  exact keeps_ite (keeps_afterFirstMs (keeps_readWord o a s)) (keeps_refl s)

theorem keeps_mpFrame (f : List Byte) (s : State) : Keeps X s (mpFrame f s) := by
  unfold mpFrame
  extract_lets counted c r q
  have hc : Keeps X s counted := keeps_of_dev _
  refine keeps_ite (keeps_of_dev _) (keeps_ite (keeps_refl s) (keeps_ite (keeps_dev _ hc) (keeps_ite ?_ (keeps_dev _ hc))))
  exact keeps_dev _ (keeps_trans hc (keeps_readWords _ _ _ _))

theorem keeps_jtagScan {f : State → State} (h : Keeps X s (f s)) : Keeps X s (jtagScan f s) := by
  unfold jtagScan
  exact keeps_ite h (keeps_of_dev _)

theorem keeps_jtagDev (f : Dev → Dev) (s : State) : Keeps X s (jtagDev f s) := keeps_jtagScan (keeps_of_dev _)

theorem keeps_keyRead (s : State) : Keeps X s (keyRead s) := keeps_jtagScan (keeps_of_dev _)

theorem keeps_keyProg (hX : X .fuse) (hash : BitVec 256) (slot : Bool) (conf : Nat) (s : State) :
    Keeps X s (keyProg hash slot conf s) := by
  unfold keyProg
  exact keeps_ite (keeps_fuse _ hX (keeps_of_dev _)) (keeps_fuse _ hX (keeps_of_dev _))

theorem keeps_keyRev (hX : X .fuse) (conf : Nat) (s : State) : Keeps X s (keyRev conf s) := by
  unfold keyRev
  exact keeps_ite (keeps_fuse _ hX (keeps_of_dev _)) (keeps_fuse _ hX (keeps_of_dev _))

theorem keeps_keyDone (hX : X .fuse) (rb : BitVec 256) (s : State) : Keeps X s (keyDone rb s) := by
  have h : ∀ d f, Keeps X s { s with dev := d, fuse := f } := fun d f => keeps_fuse f hX (keeps_of_dev d)
  unfold keyDone
  exact keeps_ite (h _ _) (keeps_ite (h _ _) (keeps_ite (h _ _) (keeps_refl s)))

/-! ## Power and start-up (chapters 16, 19) -/

theorem keeps_resetReleaseF (s : State) : Keeps X s (resetReleaseF s) := by
  unfold resetReleaseF
  exact keeps_ite (keeps_refl s) (keeps_of_dev _)

theorem keeps_powerCycleF (hm : X .recMem) (hf : X .fuse) (hv : X .vbat) (s : State) : Keeps X s (powerCycleF s) :=
  keeps_vbat _ hv (keeps_fuse _ hf (keeps_recMem _ hm (keeps_of_dev _)))

theorem keeps_todWritebackF (hX : X .vbat) (s : State) : Keeps X s (todWritebackF s) := by
  unfold todWritebackF
  exact keeps_ite (keeps_vbat _ hX (keeps_refl s)) (keeps_refl s)

theorem keeps_imageLoadF (hX : X .flash) (a b : BankRx) (s : State) : Keeps X s (imageLoadF a b s) :=
  keeps_flash _ hX (keeps_of_dev _)

theorem keeps_enterCheck (vout : Option (BitVec 8)) (s : State) : Keeps X s (enterCheck vout s) := by
  unfold enterCheck
  dsimp only
  split <;> exact keeps_of_dev _

theorem keeps_pllLockF (x : PllRx) (s : State) : Keeps X s (pllLockF x s) := by
  unfold pllLockF
  extract_lets d0 p d d' t
  have ht : Keeps X s t := keeps_of_dev _
  exact keeps_ite (keeps_refl s) (keeps_ite (keeps_trans ht (keeps_enterCheck _ _)) ht)

theorem keeps_journalWriteF (hX : X .flash) (a b : BankWrite) (s : State) : Keeps X s (journalWriteF a b s) := by
  unfold journalWriteF
  exact keeps_ite (keeps_refl s) (keeps_flash _ hX (keeps_of_dev _))

/-! ## The recorder memory (chapter 13, R53) -/

/-- Only the recorder memory may have changed, and its canonical form is kept. -/
def KeepsRec (s t : State) : Prop := Keeps (· = .recMem) s t ∧ (s.recWf → t.recWf)

theorem keeps_of_rec (hX : X .recMem) (h : KeepsRec s t) : Keeps X s t := keeps_mono (fun x (hx : x = .recMem) => hx ▸ hX) h.1

theorem keepsRec_refl (s : State) : KeepsRec s s := ⟨keeps_refl s, id⟩

theorem keepsRec_trans (h : KeepsRec s t) (k : KeepsRec t u) : KeepsRec s u := ⟨keeps_trans h.1 k.1, fun w => k.2 (h.2 w)⟩

theorem keepsRec_dev (d : Dev) (h : KeepsRec s t) : KeepsRec s { t with dev := d } := ⟨keeps_dev d h.1, h.2⟩

theorem keepsRec_of_dev (d : Dev) : KeepsRec s { s with dev := d } := keepsRec_dev d (keepsRec_refl s)

theorem keepsRec_foldl {α : Type} (l : List α) (f : State → α → State) (hf : ∀ t x, KeepsRec t (f t x)) :
    ∀ s, KeepsRec s (l.foldl f s) := by
  induction l with
  | nil => exact fun s => keepsRec_refl s
  | cons x l ih => exact fun s => keepsRec_trans (hf s x) (ih _)

/-- Storing slots keeps the canonical form of the memory (R325). -/
theorem wf_slotSet (m : List (Nat × BitVec 256)) (k : Nat) (v : BitVec 256) (h : Memory.wf m = true) :
    Memory.wf (slotSet m k v) = true := smSet_wf _ _ _ _ h

/-- Storing a value in each of `n` slots. -/
theorem wf_foldN_slotSet (n : Nat) (k : Nat → Nat) (v : BitVec 256) (m : List (Nat × BitVec 256)) (h : Memory.wf m = true) :
    Memory.wf (foldN n (fun m i => slotSet m (k i) v) m) = true :=
  List.foldlRecOn (motive := fun m => Memory.wf m = true) (List.range n) _ h fun _ hb _ _ => wf_slotSet _ _ _ hb

theorem keepsRec_slotSet (d : Dev) (k : Nat) (v : BitVec 256) (s : State) :
    KeepsRec s { s with dev := d, recMem := slotSet s.recMem k v } :=
  ⟨keeps_recMem _ rfl (keeps_of_dev d), wf_slotSet _ _ _⟩

theorem keepsRec_pageRemoved (p : Nat) (s : State) : KeepsRec s (pageRemoved p s) := by
  unfold pageRemoved
  dsimp only
  split
  · exact keepsRec_refl s
  · refine ⟨keeps_recMem _ rfl (keeps_of_dev _), fun h => ?_⟩
    simp only [State.recWf] at h ⊢
    exact wf_foldN_slotSet 128 (128 * p + ·) 0 _ h

theorem keepsRec_entryWrite (s : State) : KeepsRec s (entryWrite s) := by
  unfold entryWrite
  split
  · exact keepsRec_of_dev _
  · exact keepsRec_slotSet _ _ _ s

theorem keepsRec_memError (m : Memory) (double : Bool) (row : Nat) (scrub : Bool) (s : State) :
    KeepsRec s (memError m double row scrub s) := by
  unfold memError
  split
  · dsimp only
    split
    · exact keepsRec_trans (keepsRec_of_dev _) (keepsRec_pageRemoved _ _)
    · exact keepsRec_of_dev _
  · exact keepsRec_of_dev _

theorem keepsRec_eccError (m : Memory) (double : Bool) (row : Nat) (scrub : Bool) (s : State) :
    KeepsRec s (eccError m double row scrub s) := by
  unfold eccError
  split
  · exact keepsRec_trans (keepsRec_of_dev _) (keepsRec_memError _ _ _ _ _)
  · exact keepsRec_memError _ _ _ _ _

theorem keepsRec_scrubPass (s : State) : KeepsRec s (scrubPass s) := by
  unfold scrubPass
  extract_lets d
  split
  · exact keepsRec_trans (keepsRec_of_dev _) (keepsRec_memError _ _ _ _ _)
  · exact keepsRec_of_dev _

theorem keepsRec_sramLost (m : Option Memory) (s : State) : KeepsRec s (sramLost m s) := by
  unfold sramLost
  split
  · exact keepsRec_dev _ (keepsRec_pageRemoved _ _)
  · exact keepsRec_of_dev _
  · exact keepsRec_of_dev _

theorem keepsRec_unrepaired (c u : Nat) (m : Option Memory) (s : State) : KeepsRec s (unrepaired c u m s) := by
  unfold unrepaired
  split
  · exact keepsRec_sramLost _ _
  · split
    · exact keepsRec_of_dev _
    · exact keepsRec_refl s

theorem keepsRec_repairDefect (s : State) (x : Defect) : KeepsRec s (repairDefect s x) := by
  unfold repairDefect
  dsimp only
  split
  · exact keepsRec_of_dev _
  · exact keepsRec_trans (keepsRec_of_dev _) (keepsRec_unrepaired _ _ _ _)

theorem keepsRec_repairRow (s : State) (u : Nat) : KeepsRec s (repairRow s u) := by
  unfold repairRow
  dsimp only
  split
  · exact keepsRec_of_dev _
  · exact keepsRec_trans (keepsRec_of_dev _) (keepsRec_unrepaired _ _ _ _)

theorem keepsRec_checkCompleteF (pass : Bool) (defects : List Defect) (cal : List SliceCal) (s : State) :
    KeepsRec s (checkCompleteF pass defects cal s) := by
  unfold checkCompleteF
  split
  · exact keepsRec_refl s
  · split
    · exact keepsRec_of_dev _
    · dsimp only
      refine keepsRec_dev _ (keepsRec_trans ?_ (keepsRec_foldl _ _ keepsRec_repairRow _))
      exact keepsRec_dev _ (keepsRec_foldl _ _ keepsRec_repairDefect s)

/-! ## Requests (chapter 17) -/

theorem keeps_withSession (r : Req) (typ sid mcnt : Nat) {f : State → State} (hf : ∀ t, Keeps X t (f t)) (s : State) :
    Keeps X s (withSession r typ sid mcnt f s) := by
  unfold withSession
  dsimp only
  split
  · exact keeps_ite (keeps_of_dev _) (keeps_ite (keeps_of_dev _) (keeps_trans (keeps_of_dev _) (hf _)))
  · exact keeps_of_dev _

theorem keeps_withSigned (r : Req) (typ : Nat) (pending : Bool) (body : List Byte) (au : Auth) {f : State → State}
    (hf : ∀ t, Keeps X t (f t)) (s : State) : Keeps X s (withSigned r typ pending body au f s) := by
  unfold withSigned
  dsimp only
  split
  · exact keeps_ite (keeps_of_dev _) (keeps_ite (keeps_of_dev _) (keeps_trans (keeps_of_dev _) (hf _)))
  · exact keeps_of_dev _

theorem keeps_setptDo (r : Req) (t ramp : Nat) (w : Word) (ja tk : Nat) (s : State) :
    Keeps X s (setptDo r t ramp w ja tk s) := by
  unfold setptDo
  exact keeps_ite (keeps_of_dev _) (keeps_ite (keeps_of_dev _) (keeps_ite (keeps_of_dev _) (keeps_of_dev _)))

theorem keeps_chargeDo (r : Req) (tk : Nat) (s : State) : Keeps X s (chargeDo r tk s) := by
  unfold chargeDo
  exact keeps_ite (keeps_of_dev _) (keeps_of_dev _)

theorem keeps_stopDo (r : Req) (tk : Nat) (s : State) : Keeps X s (stopDo r tk s) := by
  unfold stopDo
  exact keeps_ite (keeps_of_dev _) (keeps_of_dev _)

theorem keeps_deblockDo (r : Req) (mask tk : Nat) (s : State) : Keeps X s (deblockDo r mask tk s) := by
  unfold deblockDo
  exact keeps_ite (keeps_of_dev _) (keeps_ite (keeps_of_dev _) (keeps_of_dev _))

theorem keeps_treadDo (r : Req) (rs : List (Nat × Nat)) (s : State) : Keeps X s (treadDo r rs s) := by
  unfold treadDo
  exact keeps_ite (keeps_of_dev _) (keeps_of_dev _)

theorem keeps_tsubDo (r : Req) (id intv : Nat) (rs : List (Nat × Nat)) (s : State) : Keeps X s (tsubDo r id intv rs s) := by
  unfold tsubDo
  exact keeps_ite (keeps_of_dev _) (keeps_ite (keeps_of_dev _) (keeps_ite (keeps_of_dev _) (keeps_of_dev _)))

theorem keeps_tunsubDo (r : Req) (id : Nat) (s : State) : Keeps X s (tunsubDo r id s) := by
  unfold tunsubDo
  exact keeps_ite (keeps_of_dev _) (keeps_ite (keeps_of_dev _) (keeps_of_dev _))

theorem keeps_mopenDo (r : Req) (chal : BitVec 128) (s : State) : Keeps X s (mopenDo r chal s) := by
  unfold mopenDo
  exact keeps_ite (keeps_of_dev _) (keeps_of_dev _)

theorem keeps_mauthDo (r : Req) (au : Auth) (s : State) : Keeps X s (mauthDo r au s) :=
  keeps_withSigned _ _ _ _ _ (fun _ => keeps_of_dev _) s

theorem keeps_mreadDo (r : Req) (sid mcnt addr nw : Nat) (s : State) : Keeps X s (mreadDo r sid mcnt addr nw s) := by
  unfold mreadDo
  exact keeps_ite (keeps_of_dev _) (keeps_withSession _ _ _ _ (fun _ => keeps_dev _ (keeps_readWords _ _ _ _)) s)

theorem keeps_mwriteDo (r : Req) (au : Auth) (addr : Nat) (ws : List Word) (s : State) : Keeps X s (mwriteDo r au addr ws s) := by
  unfold mwriteDo
  exact keeps_ite (keeps_of_dev _) (keeps_withSigned _ _ _ _ _ (fun _ => keeps_of_dev _) s)

theorem keeps_mcloseDo (r : Req) (au : Auth) (s : State) : Keeps X s (mcloseDo r au s) :=
  keeps_withSigned _ _ _ _ _ (fun _ => keeps_of_dev _) s

theorem keeps_iopenDo (hX : X .flash) (r : Req) (au : Auth) (sfdpOk : Bool) (density : Nat) (s : State) :
    Keeps X s (iopenDo r au sfdpOk density s) :=
  keeps_withSigned _ _ _ _ _ (fun _ => keeps_ite (keeps_of_dev _) (keeps_flash _ hX (keeps_of_dev _))) s

theorem keeps_xferFail (hX : X .flash) (x : Xfer) (cause : Nat) (s : State) : Keeps X s (xferFail x cause s) :=
  keeps_flash _ hX (keeps_of_dev _)

theorem keeps_xferHeader (hX : X .flash) (s : State) : Keeps X s (xferHeader s) := by
  unfold xferHeader
  dsimp only
  split
  · exact keeps_refl s
  · exact keeps_ite (keeps_refl s) (keeps_ite (keeps_xferFail hX _ _ s) (keeps_of_dev _))

theorem keeps_idataDo (hX : X .flash) (r : Req) (sid mcnt offset : Nat) (data : List Byte) (s : State) :
    Keeps X s (idataDo r sid mcnt offset data s) := by
  unfold idataDo
  refine keeps_ite (keeps_of_dev _) (keeps_withSession _ _ _ _ (fun t => ?_) s)
  dsimp only
  split
  · exact keeps_of_dev _
  · exact keeps_ite (keeps_of_dev _) (keeps_ite (keeps_of_dev _) (keeps_ite (keeps_of_dev _) (keeps_ite (keeps_of_dev _)
      (keeps_trans (keeps_of_dev _) (keeps_xferHeader hX _)))))

theorem keeps_pageDone (hX : X .flash) (page : PageRx) (erase : Bool) (s : State) : Keeps X s (pageDone page erase s) := by
  unfold pageDone
  dsimp only
  split
  · exact keeps_refl s
  · exact keeps_ite (keeps_refl s) (keeps_flash _ hX (keeps_of_dev _))

theorem keeps_imageVerified (hX : X .flash) (s : State) : Keeps X s (imageVerified s) := by
  unfold imageVerified
  dsimp only
  split
  · exact keeps_refl s
  · exact keeps_ite (keeps_refl s) (keeps_ite (keeps_of_dev _) (keeps_xferFail hX _ _ s))

/-- Requests that open a transfer or bring its data reach the flash. -/
def transfers : Instr → Prop
  | .iopen .. => True
  | .idata .. => True
  | _ => False

/-- A request as SUP1 carries it out. -/
theorem keeps_smpDo (live : Bool) (i : Instr) (hX : transfers i → X .flash) (s : State) : Keeps X s (smpDo live i s) := by
  cases i
  case setpt => exact keeps_setptDo _ _ _ _ _ _ s
  case cmdCharge => exact keeps_chargeDo _ _ s
  case cmdStop => exact keeps_stopDo _ _ s
  case cmdDeblock => exact keeps_deblockDo _ _ _ s
  case cmdBlock => exact keeps_of_dev _
  case tread => exact keeps_treadDo _ _ s
  case tsub => exact keeps_trans (keeps_of_dev _) (keeps_tsubDo _ _ _ _ _)
  case tunsub => exact keeps_tunsubDo _ _ s
  case mopen => exact keeps_mopenDo _ _ s
  case mauth => exact keeps_mauthDo _ _ s
  case mread => exact keeps_mreadDo _ _ _ _ _ s
  case mwrite => exact keeps_mwriteDo _ _ _ _ s
  case iopen => exact keeps_iopenDo (hX trivial) _ _ _ _ s
  case idata => exact keeps_idataDo (hX trivial) _ _ _ _ _ s
  case mclose => exact keeps_mcloseDo _ _ s
  case smpInvalidDatagram => exact keeps_of_dev _
  all_goals exact keeps_refl s

theorem keeps_smpArrive (typ : Nat) (r : Req) (i : Instr) {f : State → State} (hf : ∀ t, Keeps X t (f t)) (s : State) :
    Keeps X s (smpArrive typ r i f s) := by
  unfold smpArrive
  dsimp only
  refine keeps_ite (keeps_refl s) (keeps_ite (keeps_of_dev _) ?_)
  split
  · exact keeps_ite (keeps_of_dev _) (keeps_ite (keeps_of_dev _) (keeps_ite (keeps_of_dev _) (keeps_of_dev _)))
  · exact keeps_ite (keeps_trans (keeps_of_dev _) (hf _)) (keeps_ite (keeps_of_dev _) (keeps_of_dev _))

theorem keeps_smpIn (typ : Nat) (r : Req) (i : Instr) (hX : transfers i → X .flash) (s : State) :
    Keeps X s (smpIn typ r i s) := keeps_smpArrive typ r i (keeps_smpDo true i hX) s

theorem keeps_datagramIn (x : Fin 2) (sender : Sender) (udp : BitVec 16) (p : List Byte) (s : State) :
    Keeps X s (datagramIn x sender udp p s) := by
  unfold datagramIn
  exact keeps_ite (keeps_refl s) (keeps_ite (keeps_of_dev _) (keeps_ite (keeps_refl s) (keeps_smpIn _ _ _ False.elim s)))

theorem keeps_smpQueued (hX : X .flash) (i : Instr) (s : State) : Keeps X s (smpQueued i s) := by
  unfold smpQueued
  split
  · exact keeps_ite (keeps_smpDo false i (fun _ => hX) s) (keeps_of_dev _)
  · exact keeps_smpDo false i (fun _ => hX) s

theorem keeps_takeQueue (hX : X .flash) : ∀ (q : List Instr) (s : State), Keeps X s (takeQueue q s)
  | [], s => keeps_refl s
  | i :: rest, _ => keeps_trans (keeps_trans (keeps_of_dev _) (keeps_smpQueued hX i _)) (keeps_takeQueue hX rest _)

/-- Only SUP1 takes up requests when it runs again. -/
theorem keeps_restartDone (sv : Nat) (hX : sv = 1 → X .flash) (s : State) : Keeps X s (restartDone sv s) := by
  unfold restartDone
  dsimp only
  refine keeps_ite (keeps_refl s) (keeps_ite (keeps_of_dev _) ?_)
  split
  · exact keeps_of_dev _
  · next h => exact keeps_trans (keeps_of_dev _) (keeps_takeQueue (hX (not_not.mp h)) _ _)

end Sys2Proof.Machine
end

section
/-! PROOFS. The stores by command: what each may change, that fuses are programmed once, and that a step keeps the invariant. -/

namespace Sys2Proof.Machine

variable {s t : State} {X : Store → Prop}

/-! ## The four ways in which a command takes effect -/

theorem keeps_of_within {f : Dev → Dev} (hx : Host.Outcome.next (within f s) = (.next t : Host.Outcome State Fault Refusal)) :
    Keeps X s t := by
  cases hx
  unfold within
  exact keeps_ite (keeps_of_dev _) (keeps_refl s)

theorem keeps_of_running {f : Dev → Dev} (hx : Host.Outcome.next (running f s) = (.next t : Host.Outcome State Fault Refusal)) :
    Keeps X s t := by
  cases hx
  unfold running
  exact keeps_ite (keeps_refl s) (keeps_of_within rfl)

theorem keeps_of_whole {f : State → State} (hx : Host.Outcome.next (whole f s) = (.next t : Host.Outcome State Fault Refusal))
    (hf : Keeps X s (f s)) : Keeps X s t := by
  cases hx
  unfold whole
  refine keeps_ite ⟨rfl, fun x h => ?_⟩ (keeps_refl s)
  have := hf.2 x h
  cases x <;> exact this

theorem keeps_of_wholeRunning {f : State → State}
    (hx : Host.Outcome.next (wholeRunning f s) = (.next t : Host.Outcome State Fault Refusal)) (hf : Keeps X s (f s)) :
    Keeps X s t := by
  cases hx
  unfold wholeRunning
  exact keeps_ite (keeps_refl s) (keeps_of_whole rfl hf)

/-! ## What each command reaches -/

/-- The stores that a command may change. -/
inductive Reaches : Instr → Store → Prop where
  | powerCycle (x : Store) (h : x ≠ .flash) : Reaches .powerCycle x
  | recorderEntryWrite : Reaches .recorderEntryWrite .recMem
  | sramEccError (m d r x) : Reaches (.sramEccError m d r x) .recMem
  | sramScrub : Reaches .sramScrub .recMem
  | checkComplete (p d k) : Reaches (.checkComplete p d k) .recMem
  | jtagKeyprog (h x k) : Reaches (.jtagKeyprog h x k) .fuse
  | jtagKeyrev (k) : Reaches (.jtagKeyrev k) .fuse
  | keyFuseDone (r) : Reaches (.keyFuseDone r) .fuse
  | vbatLoss : Reaches .vbatLoss .vbat
  | todWriteback : Reaches .todWriteback .vbat
  | imageLoadComplete (a b) : Reaches (.imageLoadComplete a b) .flash
  | journalWrite (a b) : Reaches (.journalWrite a b) .flash
  | iopen (r u k n) : Reaches (.iopen r u k n) .flash
  | idata (r i m o x) : Reaches (.idata r i m o x) .flash
  | pageProgramDone (p e) : Reaches (.pageProgramDone p e) .flash
  | imageVerifyDone : Reaches .imageVerifyDone .flash
  | supervisorRestartDone : Reaches (.supervisorRestartDone 1) .flash

/-- No command changes the queue, or a store that it does not reach. -/
theorem exec_keeps (c : Instr) (hx : exec c s = .next t) : Keeps (Reaches c) s t := by
  cases c
  -- power
  case resetRelease => cases hx; exact keeps_resetReleaseF s
  case powerCycle => cases hx; exact keeps_powerCycleF (.powerCycle _ nofun) (.powerCycle _ nofun) (.powerCycle _ nofun) s
  case vbatLoss => cases hx; exact keeps_vbat _ .vbatLoss (keeps_refl s)
  case imageLoadComplete => exact keeps_of_wholeRunning hx (keeps_imageLoadF (.imageLoadComplete _ _) _ _ s)
  case pllLock => exact keeps_of_wholeRunning hx (keeps_pllLockF _ s)
  case checkComplete =>
    exact keeps_of_wholeRunning (next_of_guarded hx) (keeps_of_rec (.checkComplete _ _ _) (keepsRec_checkCompleteF _ _ _ s))
  case todWriteback => exact keeps_of_whole hx (keeps_todWritebackF .todWriteback s)
  case journalWrite => exact keeps_of_whole hx (keeps_journalWriteF (.journalWrite _ _) _ _ s)
  -- the recorder memory
  case recorderEntryWrite => exact keeps_of_wholeRunning hx (keeps_of_rec .recorderEntryWrite (keepsRec_entryWrite s))
  case sramEccError => exact keeps_of_wholeRunning hx (keeps_of_rec (.sramEccError _ _ _ _) (keepsRec_eccError _ _ _ _ s))
  case sramScrub => exact keeps_of_wholeRunning hx (keeps_of_rec .sramScrub (keepsRec_scrubPass s))
  -- reads
  case ceRep0Read | lowHalfRead | tmNow0Read | adQloRead | accumSumloRead | recorderWord0Read =>
    exact keeps_of_whole hx (keeps_readOnly _ _ s)
  -- the maintenance port, JTAG and the key slots
  case mpRead | mpWrite => exact keeps_of_whole hx (keeps_afterFirstMs (keeps_mpFrame _ s))
  case mpIdread => exact keeps_of_whole hx (keeps_afterFirstMs (keeps_of_dev _))
  case jtagExtest | jtagSamplePreload | jtagIdcode | jtagClamp | jtagHighz => exact keeps_of_whole hx (keeps_jtagDev _ s)
  case jtagBypass => exact keeps_of_whole (next_of_guarded hx) (keeps_jtagDev _ s)
  case jtagKeyrd => exact keeps_of_whole hx (keeps_keyRead s)
  case jtagKeyprog => exact keeps_of_whole hx (keeps_jtagScan (keeps_keyProg (.jtagKeyprog _ _ _) _ _ _ s))
  case jtagKeyrev => exact keeps_of_whole hx (keeps_jtagScan (keeps_keyRev (.jtagKeyrev _) _ s))
  case keyFuseDone => exact keeps_of_whole hx (keeps_keyDone (.keyFuseDone _) _ s)
  -- requests
  case setpt | cmdCharge | cmdStop | cmdDeblock | cmdBlock | tread | tsub | tunsub | mopen | mauth | mread | mwrite | mclose =>
    exact keeps_of_wholeRunning hx (keeps_smpIn _ _ _ False.elim s)
  case iopen => exact keeps_of_wholeRunning hx (keeps_smpIn _ _ _ (fun _ => .iopen _ _ _ _) s)
  case idata => exact keeps_of_wholeRunning hx (keeps_smpIn _ _ _ (fun _ => .idata _ _ _ _ _) s)
  case smpInvalidDatagram => exact keeps_of_wholeRunning hx (keeps_datagramIn _ _ _ _ s)
  case imageVerifyDone => exact keeps_of_wholeRunning hx (keeps_imageVerified .imageVerifyDone s)
  case pageProgramDone => exact keeps_of_wholeRunning hx (keeps_pageDone (.pageProgramDone _ _) _ _ s)
  case supervisorRestartDone sv =>
    exact keeps_of_wholeRunning hx (keeps_restartDone sv.val (fun h => Fin.ext (b := 1) h ▸ .supervisorRestartDone) s)
  -- commands within the device, in STOP too, and then all that STOP makes inert
  case supplyOutOfWindow | resetNLow | vauxOutOfRange | tjSensorUpdate | tjTripTimeout | safetyCycle | safetyInputFilter |
      safetyResetFilter | resetHoldTimeout | discrepancyTimeout | readbackMismatch | permitTest | testWidthEnd | registerWrite |
      faultInject | modHalt | modHaltEnd | ceRelease | ceForceBypass | diagGo | pllUpdate | pllPhaseSteps | tmIncrWrite |
      tmAdjWrite | jumpRequest | laneRetrain | laneReacq | laneTxSleep | laneTxWake | laneRxSleep | laneRxWake | prbsGenEnable |
      prbsChkEnable | prbsInjectOne | prbsInjectRate | adInjGo | drArm | drForce | drDisarm | drRel | mpFrameAbort | jtagTrst =>
    exact keeps_of_within hx
  case unitRunComplete | frameRelease => exact keeps_of_running (next_of_guarded hx)
  all_goals exact keeps_of_running hx

/-- A state that one of the four ways of a command leads to. -/
inductive Effect (s : State) : State → Prop where
  | within (f : Dev → Dev) : Effect s (within f s)
  | running (f : Dev → Dev) : Effect s (running f s)
  | whole (f : State → State) : Effect s (whole f s)
  | wholeRunning (f : State → State) : Effect s (wholeRunning f s)

/-- Every command but the three of the supplies takes effect in one of these ways. -/
theorem exec_effect (c : Instr) (h1 : c ≠ .resetRelease) (h2 : c ≠ .vbatLoss) (h3 : c ≠ .powerCycle) (hx : exec c s = .next t) :
    Effect s t := by
  cases c
  case resetRelease => exact absurd rfl h1
  case vbatLoss => exact absurd rfl h2
  case powerCycle => exact absurd rfl h3
  case checkComplete => cases next_of_guarded hx; exact .wholeRunning _
  case unitRunComplete | frameRelease => cases next_of_guarded hx; exact .running _
  case jtagBypass => cases next_of_guarded hx; exact .whole _
  case imageLoadComplete | pllLock | sramEccError | sramScrub | recorderEntryWrite | supervisorRestartDone |
      smpInvalidDatagram | setpt | cmdCharge | cmdStop | cmdDeblock | cmdBlock | tread | tsub | tunsub | mopen | mauth | mread |
      mwrite | iopen | idata | mclose | imageVerifyDone | pageProgramDone => cases hx; exact .wholeRunning _
  case ceRep0Read | lowHalfRead | tmNow0Read | adQloRead | accumSumloRead | recorderWord0Read | mpRead | mpWrite | mpIdread |
      jtagExtest | jtagSamplePreload | jtagIdcode | jtagClamp | jtagHighz | jtagKeyrd | jtagKeyprog | jtagKeyrev | keyFuseDone |
      todWriteback | journalWrite => cases hx; exact .whole _
  case supplyOutOfWindow | resetNLow | vauxOutOfRange | tjSensorUpdate | tjTripTimeout | safetyCycle | safetyInputFilter |
      safetyResetFilter | resetHoldTimeout | discrepancyTimeout | readbackMismatch | permitTest | testWidthEnd | registerWrite |
      faultInject | modHalt | modHaltEnd | ceRelease | ceForceBypass | diagGo | pllUpdate | pllPhaseSteps | tmIncrWrite |
      tmAdjWrite | jumpRequest | laneRetrain | laneReacq | laneTxSleep | laneTxWake | laneRxSleep | laneRxWake | prbsGenEnable |
      prbsChkEnable | prbsInjectOne | prbsInjectRate | adInjGo | drArm | drForce | drDisarm | drRel | mpFrameAbort | jtagTrst =>
    cases hx; exact .within _
  all_goals cases hx; exact .running _

/-- None of the four ways changes anything before reset is released (R455). -/
theorem effect_unreleased (hr : s.dev.released = false) (h : Effect s t) : t = s := by
  have hwithin : ∀ f, within f s = s := fun f => if_neg (by simp [hr])
  have hwhole : ∀ f, whole f s = s := fun f => if_neg (by simp [hr])
  cases h with
  | within f => exact hwithin f
  | running f => rw [running, hwithin, ite_self]
  | whole f => exact hwhole f
  | wholeRunning f => rw [wholeRunning, hwhole, ite_self]

/-- Each of the four ways leaves no STOP source waiting (R302). -/
theorem effect_stopReq (h : s.dev.fc.stopReq = false) (he : Effect s t) : t.dev.fc.stopReq = false := by
  have hwithin : ∀ f, (within f s).dev.fc.stopReq = false := fun f => by
    unfold within
    split
    · exact settle_stopReq _ _
    · exact h
  have hwhole : ∀ f, (whole f s).dev.fc.stopReq = false := fun f => by
    unfold whole
    split
    · exact settle_stopReq _ _
    · exact h
  cases he with
  | within f => exact hwithin f
  | running f => unfold running; split; exacts [h, hwithin f]
  | whole f => exact hwhole f
  | wholeRunning f => unfold wholeRunning; split; exacts [h, hwhole f]

/-- Settles O5: the stores that a command does not reach stay, by cases over the commands. -/
theorem commandReach : Obligations.CommandReach := by
  unfold Obligations.CommandReach
  intro c s t hx
  obtain ⟨hpend, hkeep⟩ := exec_keeps c hx
  refine ⟨hpend, fun hp => ⟨fun h1 h2 h3 h4 => ?_, fun h1 h2 h3 => ?_, fun h1 h2 => ?_, fun hr h1 h2 => ?_⟩,
    fun h1 h2 h3 h4 h5 h6 h7 => ?_⟩
  · refine hkeep .recMem fun h => ?_
    cases h
    exacts [hp rfl, h1 rfl, h2 _ _ _ _ rfl, h3 rfl, h4 _ _ _ rfl]
  · refine hkeep .fuse fun h => ?_
    cases h
    exacts [hp rfl, h1 _ _ _ rfl, h2 _ rfl, h3 _ rfl]
  · refine hkeep .vbat fun h => ?_
    cases h
    exacts [hp rfl, h1 rfl, h2 rfl]
  · exact effect_unreleased hr (exec_effect c h1 h2 hp hx)
  · refine hkeep .flash fun h => ?_
    cases h with
    | powerCycle _ h => exact h rfl
    | imageLoadComplete => exact h1 _ _ rfl
    | journalWrite => exact h2 _ _ rfl
    | iopen => exact h3 _ _ _ _ rfl
    | idata => exact h4 _ _ _ _ _ rfl
    | pageProgramDone => exact h5 _ _ rfl
    | imageVerifyDone => exact h6 rfl
    | supervisorRestartDone => exact h7 rfl

/-! ## Fuses (R449) -/

/-- Fuses that an operation has moved on: what is programmed stays, what is revoked stays, and the operation in progress may run. -/
def Fuse.onward (f g : Fuse) : Prop :=
  (f.prog0 = true → g.prog0 = true ∧ g.hash0 = f.hash0) ∧ (f.prog1 = true → g.prog1 = true ∧ g.hash1 = f.hash1) ∧
    (f.rev0 = true → g.rev0 = true) ∧ g.wf

theorem onward_refl {f : Fuse} (h : f.wf) : f.onward f := ⟨fun p => ⟨p, rfl⟩, fun p => ⟨p, rfl⟩, id, h⟩

/-- A start of programming takes a slot that has not been programmed. -/
theorem onward_keyProg (hash : BitVec 256) (slot : Bool) (conf : Nat) (h : s.fuse.wf) :
    s.fuse.onward (keyProg hash slot conf s).fuse := by
  obtain ⟨hp0, hp1, hr0, hwf⟩ := onward_refl h
  unfold keyProg
  extract_lets scanned used
  split
  · next hgo =>
    obtain ⟨-, hfree, -⟩ := hgo
    refine ⟨hp0, hp1, hr0, ?_⟩
    cases slot <;> simpa [Fuse.wf, used] using hfree
  · exact ⟨hp0, hp1, hr0, hwf⟩

/-- A start of revocation takes slot 0 while slot 1 is programmed. -/
theorem onward_keyRev (conf : Nat) (h : s.fuse.wf) : s.fuse.onward (keyRev conf s).fuse := by
  obtain ⟨hp0, hp1, hr0, hwf⟩ := onward_refl h
  unfold keyRev
  extract_lets scanned
  split
  · next hgo =>
    obtain ⟨-, hset, hrev, -⟩ := hgo
    refine ⟨hp0, hp1, hr0, ?_⟩
    simpa [Fuse.wf, scanned] using And.intro hset hrev
  · exact ⟨hp0, hp1, hr0, hwf⟩

/-- A completion writes the slot of its operation, which well-formed fuses have not programmed. -/
theorem onward_keyDone (rb : BitVec 256) (h : s.fuse.wf) : s.fuse.onward (keyDone rb s).fuse := by
  have hwf := h
  obtain ⟨-, hb1, hb2, -⟩ := h
  unfold keyDone
  extract_lets k res
  split
  · next hb => simp [Fuse.onward, Fuse.wf, k, hb1 hb]
  split
  · next hb => simp [Fuse.onward, Fuse.wf, k, hb2 hb]
  split
  · simp [Fuse.onward, Fuse.wf, k]
  · exact onward_refl hwf

theorem onward_jtagScan {f : State → State} (hf : s.fuse.onward (f s).fuse) (h : s.fuse.wf) :
    s.fuse.onward (jtagScan f s).fuse := by
  unfold jtagScan
  split
  · exact hf
  · exact onward_refl h

theorem onward_of_whole {f : State → State} (h : s.fuse.wf)
    (hx : Host.Outcome.next (whole f s) = (.next t : Host.Outcome State Fault Refusal)) (hf : s.fuse.onward (f s).fuse) :
    s.fuse.onward t.fuse := by
  cases hx
  unfold whole
  split
  · exact hf
  · exact onward_refl h

/-- A power cycle drops the operation in progress and keeps what the fuses hold. -/
theorem onward_powerCycleF : s.fuse.onward (powerCycleF s).fuse := by simp [Fuse.onward, Fuse.wf, powerCycleF]

theorem exec_fuse_onward (c : Instr) (h : s.fuse.wf) (hx : exec c s = .next t) : s.fuse.onward t.fuse := by
  by_cases hc : Reaches c .fuse
  · cases hc with
    | powerCycle => cases hx; exact onward_powerCycleF
    | jtagKeyprog => exact onward_of_whole h hx (onward_jtagScan (onward_keyProg _ _ _ h) h)
    | jtagKeyrev => exact onward_of_whole h hx (onward_jtagScan (onward_keyRev _ h) h)
    | keyFuseDone => exact onward_of_whole h hx (onward_keyDone _ h)
  · have hsame : t.fuse = s.fuse := (exec_keeps c hx).2 .fuse hc
    rw [hsame]
    exact onward_refl h

/-- Settles O58: only the key operations move the fuses, and they act on slots that have not been programmed. -/
theorem fusesProgramOnce : Obligations.FusesProgramOnce := by
  unfold Obligations.FusesProgramOnce
  exact fun c _ _ h hx => exec_fuse_onward c h hx

/-! ## The invariant of every step -/

theorem recWf_of_wholeRunning {f : State → State} (h : s.recWf)
    (hx : Host.Outcome.next (wholeRunning f s) = (.next t : Host.Outcome State Fault Refusal)) (hf : s.recWf → (f s).recWf) :
    t.recWf := by
  cases hx
  unfold wholeRunning whole
  split
  · exact h
  · split
    · exact hf h
    · exact h

/-- The recorder memory stays canonical (R325). -/
theorem exec_recWf (c : Instr) (h : s.recWf) (hx : exec c s = .next t) : t.recWf := by
  by_cases hc : Reaches c .recMem
  · cases hc with
    | powerCycle => cases hx; rfl
    | recorderEntryWrite => exact recWf_of_wholeRunning h hx (keepsRec_entryWrite s).2
    | sramEccError => exact recWf_of_wholeRunning h hx (keepsRec_eccError _ _ _ _ s).2
    | sramScrub => exact recWf_of_wholeRunning h hx (keepsRec_scrubPass s).2
    | checkComplete => exact recWf_of_wholeRunning h (next_of_guarded hx) (keepsRec_checkCompleteF _ _ _ s).2
  · have hsame : t.recMem = s.recMem := (exec_keeps c hx).2 .recMem hc
    rwa [State.recWf, hsame]

theorem quiet_setTm {d e : Dev} (x : TimeSt) (h : Quiet d e) : Quiet d { e with tm := x } := quiet_of_word h rfl rfl rfl

/-- A loop whose passes are quiet within its bound. -/
theorem quiet_foldN_lt {d : Dev} (n : Nat) (f : Dev → Nat → Dev) (hf : ∀ e i, i < n → Quiet d e → Quiet d (f e i)) (e : Dev)
    (h : Quiet d e) : Quiet d (foldN n f e) :=
  List.foldlRecOn (motive := Quiet d) (List.range n) f h fun e he i hi => hf e i (List.mem_range.mp hi) he

theorem quiet_showHash {d e : Dev} (h : Nat) (q : Quiet d e) : Quiet d (showHash h e) :=
  quiet_foldN_lt 8 _ (fun _ w hw ha => quiet_put _ _ ha (by simp [GL_KEYHASH_HASH, GL_KEYHASH, GL_MODE]; omega)) e q

/-- The release of reset raises no STOP source: after the clasps and the mode, what it does is quiet. -/
theorem resetReleaseF_stopReq (s : State) : (resetReleaseF s).dev.fc.stopReq = s.dev.fc.stopReq := by
  unfold resetReleaseF
  extract_lets d engaged _ k _ repaired shown hashed low high _ dated timed
  split
  · rfl
  · have hrepaired : Quiet engaged repaired :=
      quiet_foldl _ fusedRepair (fun _ _ h => quiet_of_word h rfl rfl rfl) _ (quiet_setSu _ (quiet_refl engaged))
    have hshown : Quiet engaged shown :=
      quiet_putB _ _ (quiet_putB _ _ (quiet_putB _ _ hrepaired (by decide)) (by decide)) (by decide)
    have hhigh : Quiet engaged high := quiet_setWord _ _ (quiet_setWord _ _ (quiet_showHash _ hshown) (by decide)) (by decide)
    have hdated : Quiet engaged dated := quiet_setTm _ hhigh
    have htimed : Quiet engaged timed :=
      quiet_ite (quiet_raise _ _ (quiet_put _ _ hdated (by decide)) (by decide) (by decide)) hhigh
    have hengaged : engaged.fc = s.dev.fc := rfl
    rw [← hengaged]
    exact htimed.2.1

/-- A command leaves no STOP source waiting (R302). -/
theorem exec_stopReq (c : Instr) (h : s.dev.fc.stopReq = false) (hx : exec c s = .next t) : t.dev.fc.stopReq = false := by
  by_cases h1 : c = .resetRelease
  · subst h1; cases hx; exact (resetReleaseF_stopReq s).trans h
  by_cases h2 : c = .vbatLoss
  · subst h2; cases hx; exact h
  by_cases h3 : c = .powerCycle
  · subst h3; cases hx; rfl
  · exact effect_stopReq h (exec_effect c h1 h2 h3 hx)

/-- A command keeps the invariant. -/
theorem exec_inv (c : Instr) (h : s.Inv) (hx : exec c s = .next t) : t.Inv := by
  obtain ⟨hrec, hfuse, hstop⟩ := h
  obtain ⟨-, -, -, hwf⟩ := exec_fuse_onward c hfuse hx
  exact ⟨exec_recWf c hrec hx, hwf, exec_stopReq c hstop hx⟩

/-- Settles O4: a command in front of the queue keeps the invariant, and so does the idle tick, which only moves time on. -/
theorem invariantKept : Obligations.InvariantKept := by
  unfold Obligations.InvariantKept
  intro s t h hx
  unfold step at hx
  split at hx
  · cases hx
    exact ⟨h.1, h.2.1, (quiet_tickTimebase (quiet_refl s.dev)).2.1.trans h.2.2⟩
  · next c rest _ => exact exec_inv c (s := { s with pending := rest }) h hx

end Sys2Proof.Machine
end

section
/-! PROOFS. Footprints: what an operation may change of the device. `Frame W S d e` says that from `d` to `e` no register outside `W` and
no part outside `S` has changed; each operation has one lemma that names its footprint. -/

namespace Sys2Proof.Machine

/-! ## Footprints -/

/-- The parts of the device that are no registers; a unit is a part besides the table that lists it. -/
inductive Part where
  | released | cyc | telem | snaps | sent | tm | fc | stopReq | inj | dr | sf | nt | fb | jtag | adq | tw | su
  | lanes | quires | cells | regions | ains | groups
  | lane (k : Nat) | quire (k : Nat) | cell (k : Nat) | region (k : Nat) | ain (k : Nat) | group (k : Nat)

/-- A part is as before. -/
def Dev.samePart (d e : Dev) : Part → Prop
  | .released => e.released = d.released
  | .cyc => e.cyc = d.cyc
  | .telem => e.telem = d.telem
  | .snaps => e.snaps = d.snaps
  | .sent => e.sent = d.sent
  | .tm => e.tm = d.tm
  | .fc => e.fc = d.fc
  | .stopReq => e.fc.stopReq = d.fc.stopReq
  | .inj => (e.fc.inj, e.fc.injAt) = (d.fc.inj, d.fc.injAt)
  | .dr => e.dr = d.dr
  | .sf => e.sf = d.sf
  | .nt => e.nt = d.nt
  | .fb => e.fb = d.fb
  | .jtag => e.jtag = d.jtag
  | .adq => e.adq = d.adq
  | .tw => e.tw = d.tw
  | .su => e.su = d.su
  | .lanes => e.lanes = d.lanes
  | .quires => e.quires = d.quires
  | .cells => e.cells = d.cells
  | .regions => e.regions = d.regions
  | .ains => e.ains = d.ains
  | .groups => e.groups = d.groups
  | .lane k => e.lane k = d.lane k
  | .quire k => e.quire k = d.quire k
  | .cell k => e.cell k = d.cell k
  | .region k => e.region k = d.region k
  | .ain k => e.ain k = d.ain k
  | .group k => e.group k = d.group k

/-- No register outside `W` and no part outside `S` has changed. -/
structure Frame (W : Nat → Prop) (S : Part → Prop) (d e : Dev) : Prop where
  words : ∀ a, ¬ W a → e.word a = d.word a
  parts : ∀ p, ¬ S p → d.samePart e p

variable {W V : Nat → Prop} {S R : Part → Prop} {d e f : Dev}

theorem frame_refl (d : Dev) : Frame W S d d := ⟨fun _ _ => rfl, fun p _ => by cases p <;> rfl⟩

theorem frame_trans (h : Frame W S d e) (k : Frame W S e f) : Frame W S d f := by
  refine ⟨fun a ha => (k.words a ha).trans (h.words a ha), fun p hp => ?_⟩
  have hde := h.parts p hp
  have hef := k.parts p hp
  cases p <;> exact Eq.trans hef hde

theorem frame_mono (hW : ∀ a, W a → V a) (hS : ∀ p, S p → R p) (h : Frame W S d e) : Frame V R d e :=
  ⟨fun a ha => h.words a fun k => ha (hW a k), fun p hp => h.parts p fun k => hp (hS p k)⟩

theorem frame_ite {p : Prop} [Decidable p] (he : Frame W S d e) (hf : Frame W S d f) : Frame W S d (if p then e else f) := by
  split <;> assumption

theorem frame_foldl {α : Type} (l : List α) (g : Dev → α → Dev) (hg : ∀ e x, x ∈ l → Frame W S d e → Frame W S d (g e x))
    (h : Frame W S d e) : Frame W S d (l.foldl g e) :=
  List.foldlRecOn (motive := Frame W S d) l g h fun e he x hx => hg e x hx he

theorem frame_foldN (n : Nat) (g : Dev → Nat → Dev) (hg : ∀ e i, i < n → Frame W S d e → Frame W S d (g e i))
    (h : Frame W S d e) : Frame W S d (foldN n g e) :=
  frame_foldl _ g (fun e i hi => hg e i (List.mem_range.mp hi)) h

/-! ## What a footprint says of the fields of a device -/

theorem Frame.get (h : Frame W S d e) (x : Fld) (hx : ¬ W x.addr) : e.get x = d.get x := get_congr _ _ _ (h.words _ hx)
theorem Frame.flag (h : Frame W S d e) (x : Fld) (hx : ¬ W x.addr) : e.flag x = d.flag x := by simp only [Dev.flag, h.get x hx]
theorem Frame.bit (h : Frame W S d e) (x : Fld) (i : Nat) (hx : ¬ W x.addr) : e.bit x i = d.bit x i := by
  simp only [Dev.bit, h.get x hx]
theorem Frame.getS (h : Frame W S d e) (x : Fld) (hx : ¬ W x.addr) : e.getS x = d.getS x := by simp only [Dev.getS, h.get x hx]

/-- A footprint without the mode, the release and the waiting STOP source is quiet. -/
theorem Frame.quiet (h : Frame W S d e) (hW : ¬ W GL_MODE) (hq : ¬ S .stopReq) (hr : ¬ S .released) : Quiet d e :=
  ⟨h.get GL_MODE_MODE hW, h.parts .stopReq hq, h.parts .released hr⟩

/-! ## Registers -/

theorem frame_setWord (a : Nat) (w : Word) (ha : W a) (h : Frame W S d e) : Frame W S d (e.setWord a w) := by
  refine ⟨fun b hb => (word_setWord_ne _ _ _ _ fun k : a = b => hb (k ▸ ha)).trans (h.words b hb), fun p hp => ?_⟩
  have := h.parts p hp
  cases p <;> exact this

theorem frame_put (x : Fld) (v : Nat) (hx : W x.addr) (h : Frame W S d e) : Frame W S d (e.put x v) := frame_setWord _ _ hx h
theorem frame_putB (x : Fld) (b : Bool) (hx : W x.addr) (h : Frame W S d e) : Frame W S d (e.putB x b) := frame_setWord _ _ hx h
theorem frame_putBit (x : Fld) (i : Nat) (b : Bool) (hx : W x.addr) (h : Frame W S d e) : Frame W S d (e.putBit x i b) :=
  frame_setWord _ _ hx h
theorem frame_putS (x : Fld) (v : Int) (hx : W x.addr) (h : Frame W S d e) : Frame W S d (e.putS x v) := frame_setWord _ _ hx h
theorem frame_bump (x : Fld) (k : Nat) (hx : W x.addr) (h : Frame W S d e) : Frame W S d (e.bump x k) := frame_setWord _ _ hx h
theorem frame_count (x : Fld) (k : Nat) (hx : W x.addr) (h : Frame W S d e) : Frame W S d (e.count x k) := frame_setWord _ _ hx h

/-! ## Parts

Each of these replaces one part; `rest` names the others. -/

theorem frame_setTm (x : TimeSt) (hS : S .tm) (h : Frame W S d e) : Frame W S d { e with tm := x } :=
  ⟨h.words, fun p hp => by have := h.parts p hp; cases p <;> first | exact this | exact absurd hS hp⟩
theorem frame_setDr (x : RecSt) (hS : S .dr) (h : Frame W S d e) : Frame W S d { e with dr := x } :=
  ⟨h.words, fun p hp => by have := h.parts p hp; cases p <;> first | exact this | exact absurd hS hp⟩
theorem frame_setSf (x : SafetySt) (hS : S .sf) (h : Frame W S d e) : Frame W S d { e with sf := x } :=
  ⟨h.words, fun p hp => by have := h.parts p hp; cases p <;> first | exact this | exact absurd hS hp⟩
theorem frame_setNt (x : NetSt) (hS : S .nt) (h : Frame W S d e) : Frame W S d { e with nt := x } :=
  ⟨h.words, fun p hp => by have := h.parts p hp; cases p <;> first | exact this | exact absurd hS hp⟩
theorem frame_setFb (x : FabricSt) (hS : S .fb) (h : Frame W S d e) : Frame W S d { e with fb := x } :=
  ⟨h.words, fun p hp => by have := h.parts p hp; cases p <;> first | exact this | exact absurd hS hp⟩
theorem frame_setJtag (x : JtagSt) (hS : S .jtag) (h : Frame W S d e) : Frame W S d { e with jtag := x } :=
  ⟨h.words, fun p hp => by have := h.parts p hp; cases p <;> first | exact this | exact absurd hS hp⟩
theorem frame_setTw (x : TwinSt) (hS : S .tw) (h : Frame W S d e) : Frame W S d { e with tw := x } :=
  ⟨h.words, fun p hp => by have := h.parts p hp; cases p <;> first | exact this | exact absurd hS hp⟩
theorem frame_setSu (x : StartSt) (hS : S .su) (h : Frame W S d e) : Frame W S d { e with su := x } :=
  ⟨h.words, fun p hp => by have := h.parts p hp; cases p <;> first | exact this | exact absurd hS hp⟩
theorem frame_setAdq (x : List (BitVec 64)) (hS : S .adq) (h : Frame W S d e) : Frame W S d { e with adq := x } :=
  ⟨h.words, fun p hp => by have := h.parts p hp; cases p <;> first | exact this | exact absurd hS hp⟩
theorem frame_setSnaps (x : List (Nat × List Word)) (hS : S .snaps) (h : Frame W S d e) : Frame W S d { e with snaps := x } :=
  ⟨h.words, fun p hp => by have := h.parts p hp; cases p <;> first | exact this | exact absurd hS hp⟩
theorem frame_send (x : Sent) (hS : S .sent) (h : Frame W S d e) : Frame W S d (e.send x) :=
  ⟨h.words, fun p hp => by have := h.parts p hp; cases p <;> first | exact this | exact absurd hS hp⟩
theorem frame_setPoint (k : Nat) (w : Word) (hS : S .telem) (h : Frame W S d e) : Frame W S d (e.setPoint k w) :=
  ⟨h.words, fun p hp => by have := h.parts p hp; cases p <;> first | exact this | exact absurd hS hp⟩

/-- The fault collection changes, but for the waiting STOP source and the waiting injection. -/
theorem frame_setFc (x : FaultSt) (hS : S .fc)
    (hq : x.stopReq = e.fc.stopReq ∧ x.inj = e.fc.inj ∧ x.injAt = e.fc.injAt) (h : Frame W S d e) : Frame W S d { e with fc := x } := by
  obtain ⟨hstop, hinj, hat⟩ := hq
  refine ⟨h.words, fun p hp => ?_⟩
  have hp' := h.parts p hp
  cases p
  case fc => exact absurd hS hp
  case stopReq => exact hstop.trans hp'
  case inj => exact (Prod.ext hinj hat).trans hp'
  all_goals exact hp'

/-- The injection that waits changes. -/
theorem frame_setInj (x : FaultSt) (hS : S .fc) (hi : S .inj) (hq : x.stopReq = e.fc.stopReq) (h : Frame W S d e) :
    Frame W S d { e with fc := x } := by
  refine ⟨h.words, fun p hp => ?_⟩
  have hp' := h.parts p hp
  cases p
  case fc => exact absurd hS hp
  case stopReq => exact hq.trans hp'
  case inj => exact absurd hi hp
  all_goals exact hp'

/-- A STOP source waits. -/
theorem frame_setStop (hS : S .fc) (hq : S .stopReq) (h : Frame W S d e) :
    Frame W S d { e with fc := { e.fc with stopReq := true } } := by
  refine ⟨h.words, fun p hp => ?_⟩
  have hp' := h.parts p hp
  cases p
  case fc => exact absurd hS hp
  case stopReq => exact absurd hq hp
  all_goals exact hp'

/-! ## Units -/

theorem frame_setLane (i : Nat) (x : LaneSt) (hS : S .lanes) (hi : S (.lane i)) (h : Frame W S d e) :
    Frame W S d (e.setLane i x) := by
  refine ⟨h.words, fun p hp => ?_⟩
  have hp' := h.parts p hp
  cases p
  case lanes => exact absurd hS hp
  case lane k => exact ((lane_setLane e i k x).trans (if_neg fun hik : i = k => hp (hik ▸ hi))).trans hp'
  all_goals exact hp'
theorem frame_setQuire (i : Nat) (x : QuireSt) (hS : S .quires) (hi : S (.quire i)) (h : Frame W S d e) :
    Frame W S d (e.setQuire i x) := by
  refine ⟨h.words, fun p hp => ?_⟩
  have hp' := h.parts p hp
  cases p
  case quires => exact absurd hS hp
  case quire k => exact ((quire_setQuire e i k x).trans (if_neg fun hik : i = k => hp (hik ▸ hi))).trans hp'
  all_goals exact hp'
theorem frame_setCell (i : Nat) (x : CellSt) (hS : S .cells) (hi : S (.cell i)) (h : Frame W S d e) :
    Frame W S d (e.setCell i x) := by
  refine ⟨h.words, fun p hp => ?_⟩
  have hp' := h.parts p hp
  cases p
  case cells => exact absurd hS hp
  case cell k => exact ((cell_setCell e i k x).trans (if_neg fun hik : i = k => hp (hik ▸ hi))).trans hp'
  all_goals exact hp'
theorem frame_setRegionSt (i : Nat) (x : RegionSt) (hS : S .regions) (hi : S (.region i)) (h : Frame W S d e) :
    Frame W S d (e.setRegionSt i x) := by
  refine ⟨h.words, fun p hp => ?_⟩
  have hp' := h.parts p hp
  cases p
  case regions => exact absurd hS hp
  case region k => exact ((region_setRegionSt e i k x).trans (if_neg fun hik : i = k => hp (hik ▸ hi))).trans hp'
  all_goals exact hp'
theorem frame_setAin (i : Nat) (x : AinSt) (hS : S .ains) (hi : S (.ain i)) (h : Frame W S d e) :
    Frame W S d (e.setAin i x) := by
  refine ⟨h.words, fun p hp => ?_⟩
  have hp' := h.parts p hp
  cases p
  case ains => exact absurd hS hp
  case ain k => exact ((ain_setAin e i k x).trans (if_neg fun hik : i = k => hp (hik ▸ hi))).trans hp'
  all_goals exact hp'
theorem frame_setGroup (i : Nat) (x : AdGrp) (hS : S .groups) (hi : S (.group i)) (h : Frame W S d e) :
    Frame W S d (e.setGroup i x) := by
  refine ⟨h.words, fun p hp => ?_⟩
  have hp' := h.parts p hp
  cases p
  case groups => exact absurd hS hp
  case group k => exact ((group_setGroup e i k x).trans (if_neg fun hik : i = k => hp (hik ▸ hi))).trans hp'
  all_goals exact hp'

theorem frame_onLane (i : Nat) (g : LaneSt → LaneSt) (hS : S .lanes) (hi : S (.lane i)) (h : Frame W S d e) :
    Frame W S d (e.onLane i g) := frame_setLane i _ hS hi h
theorem frame_onQuire (i : Nat) (g : QuireSt → QuireSt) (hS : S .quires) (hi : S (.quire i)) (h : Frame W S d e) :
    Frame W S d (e.onQuire i g) := frame_setQuire i _ hS hi h
theorem frame_onCell (i : Nat) (g : CellSt → CellSt) (hS : S .cells) (hi : S (.cell i)) (h : Frame W S d e) :
    Frame W S d (e.onCell i g) := frame_setCell i _ hS hi h
theorem frame_onRegion (i : Nat) (g : RegionSt → RegionSt) (hS : S .regions) (hi : S (.region i)) (h : Frame W S d e) :
    Frame W S d (e.onRegion i g) := frame_setRegionSt i _ hS hi h
theorem frame_onAin (i : Nat) (g : AinSt → AinSt) (hS : S .ains) (hi : S (.ain i)) (h : Frame W S d e) :
    Frame W S d (e.onAin i g) := frame_setAin i _ hS hi h
theorem frame_onGroup (i : Nat) (g : AdGrp → AdGrp) (hS : S .groups) (hi : S (.group i)) (h : Frame W S d e) :
    Frame W S d (e.onGroup i g) := frame_setGroup i _ hS hi h

/-! ## Time and telemetry -/

theorem frame_until (t : Nat) (hW : ∀ a, timeRegs a → W a) (hS : S .tm) (h : Frame W S d e) : Frame W S d (e.until_ t) := by
  refine ⟨fun a ha => (until_word e t a fun k => ha (hW a k)).trans (h.words a ha), fun p hp => ?_⟩
  have hp' := h.parts p hp
  cases p
  case tm => exact absurd hS hp
  all_goals exact hp'

theorem frame_at (t : Nat) (hW : ∀ a, timeRegs a → W a) (hS : S .tm) (h : Frame W S d e) : Frame W S d (e.at_ t) :=
  frame_until _ hW hS h

theorem frame_tel (n k v : Nat) (hS : S .telem) (h : Frame W S d e) : Frame W S d (e.tel n k v) :=
  frame_ite h (frame_setPoint _ _ hS h)
theorem frame_telS (n k : Nat) (x : Int) (hS : S .telem) (h : Frame W S d e) : Frame W S d (e.telS n k x) := frame_tel _ _ _ hS h
theorem frame_telCount (n k b : Nat) (hS : S .telem) (h : Frame W S d e) : Frame W S d (e.telCount n k b) := frame_tel _ _ _ hS h
theorem frame_telClear (n : Nat) (hS : S .telem) (h : Frame W S d e) : Frame W S d (e.telClear n) := by
  unfold Dev.telClear
  exact frame_foldN _ _ (fun _ _ _ he => frame_setPoint _ _ hS he) h

/-! ## Flags and events (R291, R420) -/

/-- A footprint has room for what an event changes besides its flag. -/
structure Events (W : Nat → Prop) (S : Part → Prop) : Prop where
  evt : W NT_EVT
  cnt : W NT_CNT1
  fc : S .fc
  dr : S .dr

theorem frame_source (k : BitVec 4) (n key p : Nat) (l r : Bool) (hS : S .dr) (h : Frame W S d e) :
    Frame W S d (e.source k n key p l r) := frame_ite (frame_setDr _ hS h) h

theorem frame_flagEntry (n p : Nat) (hS : S .dr) (h : Frame W S d e) : Frame W S d (e.flagEntry n p) :=
  frame_ite (frame_source _ _ _ _ _ _ hS h) h

theorem frame_loseEvent (stamp : Nat) (new : Bool) (E : Events W S) (h : Frame W S d e) : Frame W S d (e.loseEvent stamp new) :=
  frame_setFc _ E.fc ⟨rfl, rfl, rfl⟩ (frame_bump NT_CNT1_EVLOST 1 E.cnt h)

theorem frame_pushEvent (addr bit cls stamp : Nat) (E : Events W S) (h : Frame W S d e) :
    Frame W S d (e.pushEvent addr bit cls stamp) :=
  frame_ite h (frame_ite (frame_setFc _ E.fc ⟨rfl, rfl, rfl⟩ h)
    (frame_ite (frame_flagEntry _ _ E.dr (frame_put _ _ E.evt (frame_loseEvent _ _ E h))) (frame_loseEvent _ _ E h)))

/-- The reaction of a class; one of STOP makes a STOP source wait. -/
theorem frame_react (c : Cls) (hS : S .fc) (hc : c = .stop → S .stopReq) (h : Frame W S d e) : Frame W S d (e.react c) := by
  cases c
  case notice | service => exact h
  case prot | protDev => exact frame_ite (frame_setFc _ hS ⟨rfl, rfl, rfl⟩ h) h
  case stop => exact frame_setStop hS (hc rfl) h

theorem frame_raiseBit_any (x : Fld) (i : Nat) (c : Cls) (E : Events W S) (hx : W x.addr) (hc : c = .stop → S .stopReq)
    (h : Frame W S d e) : Frame W S d (e.raiseBit x i c) :=
  frame_ite h (frame_react _ E.fc hc (frame_flagEntry _ _ E.dr (frame_pushEvent _ _ _ _ E (frame_putBit _ _ _ hx h))))

/-- A flag of a class other than STOP sets. -/
theorem frame_raiseBit (x : Fld) (i : Nat) (c : Cls) (E : Events W S) (hx : W x.addr) (hc : c ≠ .stop) (h : Frame W S d e) :
    Frame W S d (e.raiseBit x i c) := frame_raiseBit_any x i c E hx (fun k => absurd k hc) h

theorem frame_raise (x : Fld) (c : Cls) (E : Events W S) (hx : W x.addr) (hc : c ≠ .stop) (h : Frame W S d e) :
    Frame W S d (e.raise x c) := frame_raiseBit x 0 c E hx hc h

theorem frame_notice (x : Fld) (E : Events W S) (hx : W x.addr) (h : Frame W S d e) : Frame W S d (e.raise x .notice) :=
  frame_raise x _ E hx nofun h

theorem frame_service (x : Fld) (E : Events W S) (hx : W x.addr) (h : Frame W S d e) : Frame W S d (e.raise x .service) :=
  frame_raise x _ E hx nofun h

/-- A refused write (R28, R350). -/
theorem frame_refuse (o : Origin) (E : Events W S) (hW : ∀ a, refuseRegs a → W a) (h : Frame W S d e) :
    Frame W S d (e.refuse o) := by
  have hchip : W FC_CHIP_WREF.addr := hW _ (.inr (.inr rfl))
  cases o
  case sup => exact frame_service _ E (hW _ (.inr (.inl rfl))) (frame_bump _ _ (hW _ (.inl rfl)) h)
  all_goals exact frame_notice _ E hchip (frame_setFc _ E.fc ⟨rfl, rfl, rfl⟩ h)

/-- A write of a group, as its effect has it or refused. -/
theorem frame_shellWrite (o : Origin) (g : Group) (ok : Bool) (eff : Dev → Dev) (E : Events W S) (hW : ∀ a, refuseRegs a → W a)
    (heff : Frame W S d (eff e)) (h : Frame W S d e) : Frame W S d (shellWrite o g ok eff e).2 := by
  unfold shellWrite
  split
  · exact heff
  · exact frame_refuse o E hW h

/-! ## Modes and regions -/

theorem frame_setMode (m : Nat) (hmode : W GL_MODE) (hsu : W GL_SUSTAT) (hS : S .dr) (h : Frame W S d e) :
    Frame W S d (e.setMode m) :=
  have hp := frame_put GL_SUSTAT_CHGTO 0 hsu (frame_put GL_MODE_MODE m hmode h)
  frame_ite h (frame_ite (frame_source _ _ _ _ _ _ hS hp) hp)

theorem frame_setRegion (g st : Nat) (hW : W (RG_STAT g)) (hS : S .dr) (h : Frame W S d e) : Frame W S d (e.setRegion g st) :=
  have hp := frame_put (RG_STAT_STATE g) st hW h
  frame_ite h (frame_ite (frame_source _ _ _ _ _ _ hS hp) hp)

/-! ## How a command with a footprint ends -/

variable {s t : State}

/-- A footprint of the effect and the trip outputs, which settle last. -/
theorem frame_tripOutRelease (hW : W FC_TRIPSTAT) (h : Frame W S d e) : Frame W S d (tripOutRelease e) := by
  refine ⟨fun a ha => (tripOutRelease_word e a fun k => ha (k ▸ hW)).trans (h.words a ha), fun p hp => ?_⟩
  have hp' := h.parts p hp
  rw [tripOutRelease_eq]
  cases p <;> exact hp'

/-- What a running command changes, if its effect is quiet. -/
theorem running_frame {g : Dev → Dev} (h : s.awake) (hx : Host.Outcome.next (running g s) = (.next t : Host.Outcome State Fault Refusal))
    (hg : Frame W S s.dev (g s.dev)) (hW : ¬ W GL_MODE) (htrip : W FC_TRIPSTAT) (hq : ¬ S .stopReq) (hr : ¬ S .released) :
    s.keepsRest t ∧ Frame W S s.dev t.dev := by
  cases hx
  rw [running_quiet h (hg.quiet hW hq hr)]
  exact ⟨⟨rfl, rfl, rfl, rfl, rfl⟩, frame_tripOutRelease htrip hg⟩

/-- The same for a command that STOP does not make inert. -/
theorem within_frame {g : Dev → Dev} (h : s.awake) (hx : Host.Outcome.next (within g s) = (.next t : Host.Outcome State Fault Refusal))
    (hg : Frame W S s.dev (g s.dev)) (hW : ¬ W GL_MODE) (htrip : W FC_TRIPSTAT) (hq : ¬ S .stopReq) (hr : ¬ S .released) :
    s.keepsRest t ∧ Frame W S s.dev t.dev := by
  cases hx
  rw [within_quiet h (hg.quiet hW hq hr)]
  exact ⟨⟨rfl, rfl, rfl, rfl, rfl⟩, frame_tripOutRelease htrip hg⟩

end Sys2Proof.Machine
end

section
/-! PROOFS. The footprints of what serves the device: clocks and PTP, the safety channel, the fabric, the recorder (O6). -/

namespace Sys2Proof.Machine

variable {W : Nat → Prop} {S : Part → Prop} {d e : Dev} {lo hi : Nat}

/-- A footprint has room for the registers of a block, for events and for a refused write. -/
structure Room (lo hi : Nat) (W : Nat → Prop) (S : Part → Prop) : Prop extends Events W S where
  regs : ∀ a, lo ≤ a ∧ a < hi → W a
  refuse : ∀ a, refuseRegs a → W a

/-- A footprint has room for the clocks and station time. -/
structure ClockRoom (W : Nat → Prop) (S : Part → Prop) : Prop extends Room 0x4000 0x6000 W S where
  tm : S .tm

/-- A footprint has room for the safety channel. -/
structure SafetyRoom (W : Nat → Prop) (S : Part → Prop) : Prop extends Room 0x3000 0x4000 W S where
  sf : S .sf

/-- A footprint has room for the fabric and for what leaves on the AVS link. -/
structure FabricRoom (W : Nat → Prop) (S : Part → Prop) : Prop extends Room 0x1000 0x2000 W S where
  fb : S .fb
  sent : S .sent

/-- A field is below the power of its width. -/
theorem get_lt (d : Dev) (x : Fld) : d.get x < 2 ^ x.width := Nat.mod_lt _ (Nat.two_pow_pos _)

/-! ## Clocks and PTP -/

section clocks
variable (K : ClockRoom W S)
include K

theorem frame_slewTaken (x : Int) (h : Frame W S d e) : Frame W S d (slewTaken x e) :=
  frame_ite h (frame_putB _ _ (K.regs _ (by decide)) (frame_setTm _ K.tm h))

theorem frame_alignShow (k : Int) (h : Frame W S d e) : Frame W S d (alignShow k e) :=
  frame_ite h (frame_put _ _ (K.regs _ (by decide)) h)

theorem frame_alignStep (u : Int) (label : Nat) (h : Frame W S d e) : Frame W S d (alignStep u label e) :=
  frame_setTm _ K.tm (frame_alignShow K u h)

theorem frame_timebaseAlign (h : Frame W S d e) : Frame W S d (timebaseAlign e) :=
  frame_ite h (frame_ite (frame_alignStep K _ _ h) (frame_ite (frame_alignStep K _ _ h) h))

theorem frame_addSlew (x : Int) (h : Frame W S d e) : Frame W S d (addSlew x e) :=
  frame_putB TM_STAT_SLEWING _ (K.regs _ (by decide)) (frame_setTm _ K.tm h)

theorem frame_wrTmIncr (o : Origin) (w : Word) (h : Frame W S d e) : Frame W S d (wrTmIncr o w e).2 :=
  frame_shellWrite _ _ _ _ K.toEvents K.refuse (frame_put _ _ (K.regs _ (by decide)) h) h

theorem frame_wrTmAdj (o : Origin) (w : Word) (h : Frame W S d e) : Frame W S d (wrTmAdj o w e).2 :=
  frame_shellWrite _ _ _ _ K.toEvents K.refuse (frame_addSlew K _ h) h

theorem frame_wrTmJumpLo (o : Origin) (w : Word) (h : Frame W S d e) : Frame W S d (wrTmJumpLo o w e).2 :=
  frame_shellWrite _ _ _ _ K.toEvents K.refuse (frame_put TM_STAT_JUMPPEND _ (K.regs _ (by decide)) (frame_setTm _ K.tm h)) h

theorem frame_servoHoldover (h : Frame W S d e) : Frame W S d (servoHoldover e) :=
  frame_notice _ K.toEvents (K.regs _ (by decide)) (frame_put TM_STAT_STATE _ (K.regs _ (by decide)) h)

theorem frame_ptpIgnore (h : Frame W S d e) : Frame W S d (ptpIgnore e) := frame_bump _ _ (K.regs _ (by decide)) h

theorem frame_setPtpPort (x : Nat) (p : PtpPort) (h : Frame W S d e) : Frame W S d (setPtpPort x p e) :=
  frame_ite (frame_setTm _ K.tm h) (frame_setTm _ K.tm h)

theorem frame_selectMaster (h : Frame W S d e) : Frame W S d (selectMaster e) := by
  unfold selectMaster
  split
  · exact h
  · extract_lets port utc _ _ named
    have hutc : Frame W S d utc := frame_putB TM_UTC_UTCV _ (K.regs _ (by decide))
      (frame_put TM_UTC_UTCOFS _ (K.regs _ (by decide)) (frame_put TM_STAT_PORT _ (K.regs _ (by decide)) h))
    have hnamed : Frame W S d named := frame_ite hutc (frame_notice TM_EVT_MASTCHG K.toEvents (K.regs _ (by decide))
      (frame_setTm _ K.tm (frame_put (TM_GMID_ID 1) _ (K.regs _ (by decide)) (frame_put (TM_GMID_ID 0) _ (K.regs _ (by decide)) hutc))))
    exact frame_ite (frame_put TM_STAT_STATE _ (K.regs _ (by decide)) (frame_setTm _ K.tm hnamed)) hnamed

theorem frame_ptpAnnounce (m : Announce) (h : Frame W S d e) : Frame W S d (ptpAnnounce m e) :=
  frame_ite h (frame_ite (frame_ptpIgnore K h) (frame_ite h (frame_selectMaster K (frame_setPtpPort K _ _ h))))

theorem frame_ptpPdelaySend (x : Nat) (tx : Int) (hs : S .sent) (h : Frame W S d e) : Frame W S d (ptpPdelaySend x tx e) :=
  frame_ite (frame_send _ hs (frame_setPtpPort K _ _ h)) h

theorem frame_masterLost (h : Frame W S d e) : Frame W S d (masterLost e) :=
  have port := frame_ite (p := _ = true) (frame_setPtpPort K _ _ h) h
  frame_ite port (frame_setTm _ K.tm port)

theorem frame_ptpTimeout (lost : Bool) (h : Frame W S d e) : Frame W S d (ptpTimeout lost e) :=
  have gone := frame_ite (p := lost = true) (frame_masterLost K h) h
  have state := frame_ite (frame_servoHoldover K gone) (frame_ite (frame_put _ _ (K.regs _ (by decide)) gone) gone)
  frame_ite h (frame_ite (frame_selectMaster K state) state)

theorem frame_holdoverExpired (h : Frame W S d e) : Frame W S d (holdoverExpired e) :=
  frame_ite (frame_service _ K.toEvents (K.regs _ (by decide)) h) h

theorem frame_onPll (p : Pll) (g : PllSt → PllSt) (h : Frame W S d e) : Frame W S d (onPll p g e) := by
  cases p <;> exact frame_setTm _ K.tm h

theorem frame_bandFound (p : Pll) (band : Nat) (h : Frame W S d e) : Frame W S d (bandFound p band e) :=
  frame_ite (frame_put _ _ (K.regs _ (by cases p <;> decide)) (frame_onPll K p _ h)) h

theorem frame_wrSphs (o : Origin) (w : Word) (h : Frame W S d e) : Frame W S d (wrSphs o w e).2 :=
  frame_shellWrite _ _ _ _ K.toEvents K.refuse (frame_ite (frame_onPll K _ _ h) h) h

end clocks

/-! ## The safety channel -/

section safety
variable (K : SafetyRoom W S)
include K

theorem frame_sfSwitch (x : Nat) (on : Bool) (h : Frame W S d e) : Frame W S d (sfSwitch x on e) :=
  frame_putBit _ _ _ (K.regs _ (by decide)) (frame_putBit _ _ _ (K.regs _ (by decide)) h)

theorem frame_sfEndTest (x : Nat) (h : Frame W S d e) : Frame W S d (sfEndTest x e) := frame_setSf _ K.sf h

theorem frame_engage (x : Nat) (h : Frame W S d e) : Frame W S d (engage x e) :=
  frame_setSf _ K.sf (frame_sfEndTest K x (frame_sfSwitch K x false (frame_putBit _ _ _ (K.regs _ (by decide)) h)))

theorem frame_demand (i : Nat) (h : Frame W S d e) : Frame W S d (demand i e) :=
  frame_bump _ _ (K.regs _ (by decide)) (frame_raiseBit _ _ _ K.toEvents (K.regs _ (by decide)) nofun
    (frame_foldN _ _ (fun _ _ _ hd => frame_ite (frame_engage K _ hd) hd) h))

theorem frame_sfInput (i : Nat) (h : Frame W S d e) : Frame W S d (sfInput e i) :=
  have shown := frame_putBit SF_STAT_HLT i (sfHealthy i e) (K.regs _ (by decide)) h
  have lock := frame_ite (frame_putBit SF_STAT_DLOCK i false (K.regs _ (by decide)) shown) shown
  frame_ite shown (frame_ite (frame_setSf _ K.sf lock) (frame_ite lock (frame_demand K i (frame_setSf _ K.sf lock))))

theorem frame_release (x : Nat) (h : Frame W S d e) : Frame W S d (release x e) :=
  frame_ite (frame_setSf _ K.sf h) (frame_sfSwitch K x _
    (frame_setSf _ K.sf (frame_sfEndTest K x (frame_putBit _ _ _ (K.regs _ (by decide)) h))))

theorem frame_validReset (h : Frame W S d e) : Frame W S d (validReset e) :=
  frame_foldN _ _ (fun _ _ _ hd => frame_ite (frame_release K _ hd) hd) (frame_bump SF_CNT_RSTCNT 1 (K.regs _ (by decide)) h)

theorem frame_rstGo (p : Nat) (h : Frame W S d e) : Frame W S d (rstGo p e) := frame_setSf _ K.sf h

theorem frame_sfReset (hlt : Nat) (h : Frame W S d e) : Frame W S d (sfReset hlt e) := by
  unfold sfReset
  extract_lets a b shown _ barred c start
  have hb : Frame W S d barred :=
    frame_ite (frame_putB _ _ (K.regs _ (by decide)) h) (frame_setSf _ K.sf (frame_putB _ _ (K.regs _ (by decide)) h))
  have hstart : Frame W S d (start barred) := frame_setSf _ K.sf hb
  have hgo (p : Nat) : Frame W S d (rstGo p barred) := frame_rstGo K p hb
  have hvalid : Frame W S d (validReset (rstGo 0 barred)) := frame_validReset K (hgo 0)
  split
  · exact frame_ite hstart (frame_ite (hgo 1) hb)
  · exact frame_ite (frame_ite hstart (hgo 4)) (frame_ite hb (hgo 0))
  · have hok := frame_setSf { barred.sf with rstOk := barred.sf.rstOk &&& claspMask barred } K.sf hb
    exact frame_ite hok (frame_ite (frame_rstGo K 5 hok) (frame_ite (frame_ite (frame_rstGo K 4 hok) (frame_rstGo K 0 hok))
      (frame_ite (frame_rstGo K 3 hok) (frame_validReset K (frame_rstGo K 0 hok)))))
  · exact frame_ite (hgo 4) (frame_ite (frame_setSf _ K.sf hb) (frame_ite hvalid (hgo 0)))
  · exact frame_ite hb (hgo 0)
  · exact frame_ite (hgo 5) (frame_ite (hgo 0) hb)

theorem frame_sfOutput (x : Nat) (h : Frame W S d e) : Frame W S d (sfOutput e x) :=
  frame_putBit _ _ _ (K.regs _ (by decide)) (frame_ite (frame_sfEndTest K x (frame_sfSwitch K x false h))
    (frame_ite h (frame_sfSwitch K x _ h)))

theorem frame_sfOutputs (h : Frame W S d e) : Frame W S d (foldN 2 sfOutput e) :=
  frame_foldN _ _ (fun _ i _ hd => frame_sfOutput K i hd) h

theorem frame_sfCrcFail (h : Frame W S d e) : Frame W S d (sfCrcFail e) :=
  frame_foldN _ _ (fun _ _ _ hd => frame_ite (frame_raiseBit _ _ _ K.toEvents (K.regs _ (by decide)) nofun hd) hd)
    (frame_engage K 1 (frame_engage K 0 h))

theorem frame_safetyCycleD (crcOk : Bool) (hrb lrb : NodeRx) (h : Frame W S d e) : Frame W S d (safetyCycleD crcOk hrb lrb e) := by
  unfold safetyCycleD
  extract_lets _ sampled read checked
  have hr : Frame W S d read :=
    frame_put _ _ (K.regs _ (by decide)) (frame_put _ _ (K.regs _ (by decide)) (frame_setSf _ K.sf h))
  have hc : Frame W S d checked := frame_ite hr (frame_sfCrcFail K hr)
  exact frame_ite (frame_sfOutputs K (frame_engage K 1 (frame_engage K 0 hr)))
    (frame_sfOutputs K (frame_sfReset K _ (frame_foldN _ _ (fun _ i _ hd => frame_sfInput K i hd) hc)))

theorem frame_sfFilter (i : Nat) (chB level : Bool) (h : Frame W S d e) : Frame W S d (sfFilter i chB level e) :=
  frame_ite (frame_setSf _ K.sf h) (frame_setSf _ K.sf h)

theorem frame_rstFilter (chB level : Bool) (h : Frame W S d e) : Frame W S d (rstFilter chB level e) :=
  frame_ite (frame_setSf _ K.sf h) (frame_setSf _ K.sf h)

theorem frame_rstHeld (h : Frame W S d e) : Frame W S d (rstHeld e) := frame_ite (frame_rstGo K 5 h) h

theorem frame_discrepancy (i : Nat) (h : Frame W S d e) : Frame W S d (discrepancy i e) :=
  frame_ite (frame_raiseBit _ _ _ K.toEvents (K.regs _ (by decide)) nofun (frame_putBit SF_STAT_DLOCK i true (K.regs _ (by decide)) h)) h

theorem frame_permitTestD (x : Nat) (h : Frame W S d e) : Frame W S d (permitTestD x e) :=
  frame_ite h (frame_ite h (frame_ite (frame_putBit SF_RB_HCMD _ _ (K.regs _ (by decide)) (frame_setSf _ K.sf h))
    (frame_putBit SF_RB_LCMD _ _ (K.regs _ (by decide)) (frame_setSf _ K.sf h))))

theorem frame_testEnd (x : Nat) (h : Frame W S d e) : Frame W S d (testEnd x e) :=
  have back := frame_sfSwitch K x _ (frame_setSf _ K.sf h)
  frame_ite (frame_ite (frame_release K x (frame_setSf _ K.sf back)) back) h

end safety

/-! ## The fabric -/

/-- What SUP3 does at the end of a window, where a class may request a step. -/
def windowLadder (req : Option Nat) (unit : Nat) (d : Dev) : Dev :=
  if ¬ d.bit SV_STAT_RUN 3 then d
  else match req with
    | some x => ladderStep x unit d
    | none =>
      if d.get FB_EVAL_RELAXN ≤ d.fb.relaxRun ∧ d.get FB_VDD_FLOOR < d.get FB_VDD_TARGET ∧ d.fb.vout.isSome then
        ladderMark 6 (setVdd (d.get FB_VDD_TARGET - 1) { d with fb := { d.fb with relaxRun := 0 } })
      else d

/-- The window that begins. -/
def windowBegun (rel : Bool) (d : Dev) : Dev :=
  { d with fb := { d.fb with cls := [], winPer := 0, relaxRun := if rel then d.fb.relaxRun + 1 else 0 } }

/-- The unit of the minimum of the class that requests a step. -/
def minUnit (d : Dev) : Nat := match requester d with
  | some x => (clsWin x d).unit
  | none => 0

theorem evalWindow_eq (d : Dev) : evalWindow d =
    if d.mode = modeLOAD ∨ d.mode = modeSTOP ∨ d.fb.holdoff ∨ d.fb.winPer < d.get FB_EVAL_WINDOW then d
    else windowLadder (requester d) (minUnit d) (windowBegun (allRelaxed d) (foldN 6 evalClass d)) := rfl

/-- A footprint has room for a step of the ladder. -/
structure LadderRoom (W : Nat → Prop) (S : Part → Prop) : Prop extends Events W S where
  vdd : W FB_VDD
  ladder : W FB_LADDER
  tcmin : W FB_TCMIN
  chip : W FC_CHIP
  fb : S .fb
  sent : S .sent

theorem FabricRoom.steps (K : FabricRoom W S) : LadderRoom W S where
  toEvents := K.toEvents
  vdd := K.regs _ (by decide)
  ladder := K.regs _ (by decide)
  tcmin := K.regs _ (by decide)
  chip := K.refuse _ (.inr (.inr rfl))
  fb := K.fb
  sent := K.sent

section ladder
variable (L : LadderRoom W S)
include L

theorem frame_journal (kind uclass unit arg : Nat) (h : Frame W S d e) : Frame W S d (journal kind uclass unit arg e) :=
  frame_setFb _ L.fb h

theorem frame_setVdd (code : Nat) (h : Frame W S d e) : Frame W S d (setVdd code e) :=
  frame_journal L 4 0 0 code (frame_setFb _ L.fb (frame_send _ L.sent (frame_put FB_VDD_TARGET code L.vdd h)))

theorem frame_ladderMark (n : Nat) (h : Frame W S d e) : Frame W S d (ladderMark n e) :=
  frame_count FB_LADDER_STEPCNT _ L.ladder (frame_put FB_LADDER_STEP n L.ladder h)

theorem frame_raiseTcmin (h : Frame W S d e) : Frame W S d (raiseTcmin e) :=
  frame_service FC_CHIP_TCRAISE L.toEvents L.chip (frame_journal L 5 0 0 _
    (frame_put FB_TCMIN_PENDV 1 L.tcmin (frame_put FB_TCMIN_PEND _ L.tcmin h)))

theorem frame_ladderStep (x unit : Nat) (h : Frame W S d e) : Frame W S d (ladderStep x unit e) := by
  have step4 := frame_ladderMark L 4 (frame_raiseTcmin L h)
  unfold ladderStep
  split
  · exact step4
  split
  · exact frame_ladderMark L 1 (frame_setVdd L _ h)
  split
  · exact frame_ladderMark L 2 (frame_setFb _ L.fb h)
  split
  · exact frame_ladderMark L 3 (frame_setFb _ L.fb h)
  · exact frame_ite step4 (frame_service FB_LADDER_EXHAUST L.toEvents L.ladder (frame_put FB_LADDER_STEP _ L.ladder h))

/-- The ladder at the end of a window: SUP3 takes a step where a class requests one, or lowers the voltage where none has for long. -/
theorem frame_windowLadder (req : Option Nat) (unit : Nat) (h : Frame W S d e) : Frame W S d (windowLadder req unit e) := by
  unfold windowLadder
  refine frame_ite h ?_
  cases req with
  | some x => exact frame_ladderStep L x unit h
  | none => exact frame_ite (frame_ladderMark L 6 (frame_setVdd L _ (frame_setFb _ L.fb h))) h

end ladder

section fabric
variable (K : FabricRoom W S)
include K

/-- The registers of a class lie in the fabric block. -/
theorem clsRegs (x : Nat) (hx : x < 6) : W (FB_CLSMARG x) ∧ W (FB_CLSSTAT x) :=
  ⟨K.regs _ (by unfold FB_CLSMARG; omega), K.regs _ (by unfold FB_CLSSTAT; omega)⟩

omit K in
theorem frame_evalClass (E : Events W S) (x : Nat) (hmarg : W (FB_CLSMARG x)) (hstat : W (FB_CLSSTAT x)) (h : Frame W S d e) :
    Frame W S d (evalClass e x) :=
  have shown := frame_put (FB_CLSSTAT_UNIT x) (clsWin x e).unit hstat (frame_put (FB_CLSMARG_WINMIN x) (clsWin x e).minM hmarg h)
  have warn := frame_ite (frame_notice (FB_CLSSTAT_WARN x) E hstat shown) shown
  have act := frame_ite (frame_notice (FB_CLSSTAT_ACT x) E hstat warn) warn
  frame_ite (frame_notice (FB_CLSSTAT_MISS x) E hstat act) act

theorem frame_evalWindow (h : Frame W S d e) : Frame W S d (evalWindow e) := by
  have classes : Frame W S d (foldN 6 evalClass e) :=
    frame_foldN _ _ (fun _ x hx hd => frame_evalClass K.toEvents x (clsRegs K x hx).1 (clsRegs K x hx).2 hd) h
  rw [evalWindow_eq]
  exact frame_ite h (frame_windowLadder K.steps _ _ (frame_setFb _ K.fb classes))

theorem frame_avsEnd (ok : Bool) (h : Frame W S d e) : Frame W S d (avsEnd ok e) :=
  have ended := frame_setFb { e.fb with avsPend := false, avsLate := none } K.fb
    (frame_setFc { e.fc with avsBad := !ok } K.fc ⟨rfl, rfl, rfl⟩ h)
  frame_ite ended (frame_service FC_CHIP_AVS K.toEvents (K.refuse _ (.inr (.inr rfl))) ended)

theorem frame_avsOutcome (ok : Bool) (h : Frame W S d e) : Frame W S d (avsOutcome ok e) :=
  frame_ite h (frame_ite (frame_avsEnd K ok h) (frame_setFb _ K.fb h))

theorem frame_holdoffEnd (h : Frame W S d e) : Frame W S d (holdoffEnd e) := frame_ite (frame_setFb _ K.fb h) h

end fabric

/-! ## The recorder -/

section recorder
variable (K : Room 0x8000 0x9000 W S)
include K

/-- The registers of a record lie in the recorder block. -/
theorem recordRegs (r : Nat) (hr : r < 128) : W (DR_RSTART r) ∧ W (DR_RCOUNT r) ∧ W (DR_RTRIG r) ∧ W (DR_RSTAT r) :=
  ⟨K.regs _ (by unfold DR_RSTART; omega), K.regs _ (by unfold DR_RCOUNT; omega), K.regs _ (by unfold DR_RTRIG; omega),
    K.regs _ (by unfold DR_RSTAT; omega)⟩

omit K in
/-- The present record has one of the numbers of Table 13.7. -/
theorem cur_lt (d : Dev) : d.get DR_STAT_CUR < 128 := Nat.lt_of_lt_of_le (get_lt d DR_STAT_CUR) (by decide)

omit K in
/-- There are at most 128 records (R332). -/
theorem nRec_le (d : Dev) : nRec d ≤ 128 :=
  Nat.pow_le_pow_right (by decide) (Nat.le_of_lt_succ (get_lt d DR_CFG_NRECL))

omit K in
theorem nRec_pos (d : Dev) : 0 < nRec d := Nat.two_pow_pos _

omit K in
/-- A record found among those of the device has one of the numbers of Table 13.7. -/
theorem record_lt (d : Dev) {r : Nat} (hr : r ∈ List.range (nRec d)) : r < 128 :=
  Nat.lt_of_lt_of_le (List.mem_range.mp hr) (nRec_le d)

theorem frame_recStart (r : Nat) (hr : r < 128) (h : Frame W S d e) : Frame W S d (recStart r e) :=
  have ⟨hstart, hcount, htrig, hstat⟩ := recordRegs K r hr
  frame_setDr _ K.dr (frame_setWord _ _ hstat (frame_put (DR_RTRIG_SLOT r) _ htrig (frame_put (DR_RTRIG_TV r) _ htrig
    (frame_put (DR_RCOUNT_COUNT r) _ hcount (frame_put (DR_RSTART_SLOT r) _ hstart
      (frame_put DR_STAT_CUR _ (K.regs _ (by decide)) (frame_put DR_STAT_STATE _ (K.regs _ (by decide)) h)))))))

theorem frame_recArm (h : Frame W S d e) : Frame W S d (recArm e) := by
  unfold recArm
  split
  · split
    · rename_i r hr
      exact frame_recStart K r (record_lt e (List.mem_of_find?_eq_some hr)) h
    · exact h
  · exact h

theorem frame_recRelease (r : Nat) (hr : r < 128) (h : Frame W S d e) : Frame W S d (recRelease r e) :=
  have ⟨_, hcount, htrig, hstat⟩ := recordRegs K r hr
  frame_setWord _ _ hstat (frame_put (DR_RTRIG_TV r) _ htrig (frame_put (DR_RCOUNT_COUNT r) _ hcount
    (frame_putBit DR_STAT_FULL r false (K.regs _ (by decide)) h)))

theorem frame_recCut (h : Frame W S d e) : Frame W S d (recCut e) :=
  have ⟨hstart, hcount, _, hstat⟩ := recordRegs K _ (cur_lt e)
  frame_ite h (frame_put (DR_RCOUNT_COUNT _) _ hcount (frame_put (DR_RSTART_SLOT _) _ hstart (frame_put (DR_RSTAT_PREFULL _) 1 hstat h)))

theorem frame_recCutOwed (h : Frame W S d e) : Frame W S d (recCutOwed e) := frame_ite (frame_recCut K h) h

omit K in
/-- The oldest complete record is one of the records. -/
theorem recOldest_lt (d : Dev) {r : Nat} (hr : recOldest d = some r) : r < 128 := by
  unfold recOldest at hr
  refine List.foldlRecOn (motive := fun b : Option Nat => ∀ r, b = some r → r < 128) _ _ (by intro _ k; cases k) ?_ r hr
  intro best ih x hx r hr
  have hx := record_lt d (List.mem_of_mem_filter hx)
  split at hr
  · exact Option.some.inj hr ▸ hx
  · split at hr
    · exact Option.some.inj hr ▸ hx
    · exact ih r hr

theorem frame_recComplete (h : Frame W S d e) : Frame W S d (recComplete e) := by
  have ⟨_, _, _, hstat⟩ := recordRegs K _ (cur_lt e)
  unfold recComplete
  extract_lets r cut full
  have hf : Frame W S d full :=
    frame_putBit DR_STAT_FULL r true (K.regs _ (by decide)) (frame_put (DR_RSTAT_FULL r) 1 hstat (frame_recCutOwed K h))
  split
  · rename_i k hk
    obtain ⟨i, -, rfl⟩ := List.mem_map.mp (List.mem_of_find?_eq_some hk)
    exact frame_recStart K _ (Nat.lt_of_lt_of_le (Nat.mod_lt _ (nRec_pos _)) (nRec_le _)) hf
  · split
    · rename_i k hk
      split at hk
      · have hk := recOldest_lt full hk
        exact frame_recStart K k hk (frame_recRelease K k hk hf)
      · cases hk
    · exact frame_notice _ K.toEvents (K.regs _ (by decide)) (frame_put DR_STAT_STATE drHELD (K.regs _ (by decide)) hf)

theorem frame_recDisarm (h : Frame W S d e) : Frame W S d (recDisarm e) :=
  have ⟨_, _, _, hstat⟩ := recordRegs K _ (cur_lt e)
  have cut := frame_recCutOwed K h
  frame_put DR_STAT_STATE drIDLE (K.regs _ (by decide)) (frame_ite
    (frame_putBit DR_STAT_FULL _ true (K.regs _ (by decide)) (frame_put (DR_RSTAT_FULL _) 1 hstat cut))
    (frame_ite (frame_recRelease K _ (cur_lt e) cut) cut))

theorem frame_recTrigger (units lines : Nat) (force late relayed : Bool) (t : Nat) (h : Frame W S d e) :
    Frame W S d (recTrigger units lines force late relayed t e) := by
  have ⟨_, _, htrig, hstat⟩ := recordRegs K _ (cur_lt e)
  unfold recTrigger
  extract_lets st r x0 x1 tw counted _ _ _ begun _ _ noted
  refine frame_ite h ?_
  have hcounted : Frame W S d counted :=
    frame_foldN _ _ (fun _ u hu hd => frame_ite (frame_bump (DR_TCFG_TCNT u) 1 (K.regs _ (by simp only [DR_TCFG_TCNT, DR_TCFG]; omega)) hd) hd) h
  have hbegun : Frame W S d begun := frame_ite (frame_setDr _ K.dr (frame_putB (DR_RSTAT_FORCE r) force hstat
    (frame_put (DR_RSTAT_LINES r) lines hstat (frame_put (DR_RSTAT_UNITS r) units hstat (frame_put (DR_RTRIG_TV r) 1 htrig
      (frame_put DR_STAT_STATE drPOST (K.regs _ (by decide)) hcounted)))))) hcounted
  have hnoted : Frame W S d noted := frame_source _ _ _ _ _ _ K.dr (frame_setDr _ K.dr hbegun)
  exact frame_ite (frame_setDr _ K.dr hnoted) hnoted

theorem frame_stageIn (x : RecEntry) (h : Frame W S d e) : Frame W S d (stageIn x e) :=
  have staged := frame_setDr _ K.dr h
  frame_ite (frame_notice _ K.toEvents (K.regs _ (by decide)) (frame_bump DR_CNT_LATECNT 1 (K.regs _ (by decide)) staged)) staged

theorem frame_entryIn (h : Frame W S d e) : Frame W S d (entryIn e) := by
  unfold entryIn
  split
  · exact h
  · have taken := fun x => frame_setDr x K.dr h
    exact frame_ite (frame_stageIn K _ (taken _)) (frame_notice _ K.toEvents (K.regs _ (by decide))
      (frame_bump DR_CNT_DROPCNT 1 (K.regs _ (by decide)) (frame_setDr _ K.dr (taken _))))

theorem frame_gapEntry (h : Frame W S d e) : Frame W S d (gapEntry e) :=
  frame_ite h (frame_stageIn K _ (frame_setDr _ K.dr h))

theorem frame_recordCompleteD (h : Frame W S d e) : Frame W S d (recordCompleteD e) := frame_ite (frame_recComplete K h) h
theorem frame_postmaxExpired (h : Frame W S d e) : Frame W S d (postmaxExpired e) := frame_ite (frame_recComplete K h) h
theorem frame_xtrigEnd (x : Nat) (h : Frame W S d e) : Frame W S d (xtrigEnd x e) := frame_ite (frame_setDr _ K.dr h) h

theorem frame_recRel (mask : Nat) (h : Frame W S d e) : Frame W S d (recRel mask e) := by
  unfold recRel
  generalize hrs : (List.range (nRec e)).filter (fun r => bitOf mask r && e.bit DR_STAT_FULL r) = rs
  have hlt (r : Nat) (hr : r ∈ rs) : r < 128 := record_lt e (List.mem_of_mem_filter (hrs ▸ hr))
  have hf := frame_foldl rs (fun d r => recRelease r d) (fun _ r hr hd => frame_recRelease K r (hlt r hr) hd) h
  cases rs with
  | nil => exact hf
  | cons r rest => exact frame_ite (frame_recStart K r (hlt r List.mem_cons_self) hf) hf

theorem frame_wrDrCtl (o : Origin) (w : Word) (h : Frame W S d e) : Frame W S d (wrDrCtl o w e).2 :=
  have rel := frame_ite (p := w.toNat / 2 ^ 16 ≠ 0) (frame_recRel K (w.toNat / 2 ^ 16) h) h
  have arm := frame_ite (p := bitOf w.toNat 0 = true) (frame_recArm K rel) rel
  have force := frame_ite (p := bitOf w.toNat 1 = true) (frame_recTrigger K 0 0 true false false _ arm) arm
  frame_shellWrite _ _ _ _ K.toEvents K.refuse (frame_ite (frame_recDisarm K force) force) h

end recorder

/-! ## The frame of the service commands -/

variable {s t : State} {x : Part}

/-- The registers of a block of service commands. -/
def serviceRegs (lo hi a : Nat) : Prop := (lo ≤ a ∧ a < hi) ∨ refuseRegs a ∨ sideRegs a

/-- What a service command may change beside registers: its own part, events, recorder entries, and what leaves the device. -/
def serviceParts (x p : Part) : Prop := p = x ∨ p = .fc ∨ p = .dr ∨ p = .sent

theorem serviceRoom : Room lo hi (serviceRegs lo hi) (serviceParts x) where
  evt := .inr (.inr (.inl rfl))
  cnt := .inr (.inr (.inr (.inl rfl)))
  fc := .inr (.inl rfl)
  dr := .inr (.inr (.inl rfl))
  regs _ h := .inl h
  refuse _ h := .inr (.inl h)

theorem clockRoom : ClockRoom (serviceRegs 0x4000 0x6000) (serviceParts .tm) := ⟨serviceRoom, .inl rfl⟩
theorem safetyRoom : SafetyRoom (serviceRegs 0x3000 0x4000) (serviceParts .sf) := ⟨serviceRoom, .inl rfl⟩
theorem fabricRoom : FabricRoom (serviceRegs 0x1000 0x2000) (serviceParts .fb) := ⟨serviceRoom, .inl rfl, .inr (.inr (.inr rfl))⟩

/-- A part that serves a block of its own. -/
def serves (x : Part) : Prop := x = .tm ∨ x = .sf ∨ x = .fb ∨ x = .dr

/-- The mode lies in no block of service commands. -/
theorem serviceRegs_mode (hlo : 0x1000 ≤ lo) : ¬ serviceRegs lo hi GL_MODE := by
  rintro (⟨h, -⟩ | h | h)
  · exact absurd (Nat.le_trans hlo h) (by decide)
  · exact absurd h (by unfold refuseRegs; decide)
  · exact absurd h (by unfold sideRegs; decide)

theorem serviceParts_stopReq (hx : serves x) : ¬ serviceParts x .stopReq := by
  rcases hx with rfl | rfl | rfl | rfl <;> rintro (h | h | h | h) <;> cases h

theorem serviceParts_released (hx : serves x) : ¬ serviceParts x .released := by
  rcases hx with rfl | rfl | rfl | rfl <;> rintro (h | h | h | h) <;> cases h

theorem service_running (hlo : 0x1000 ≤ lo) (hp : serves x) (h : s.awake) {g : Dev → Dev}
    (hx : Host.Outcome.next (running g s) = (.next t : Host.Outcome State Fault Refusal)) (hg : Frame (serviceRegs lo hi) (serviceParts x) s.dev (g s.dev)) :
    s.keepsRest t ∧ Frame (serviceRegs lo hi) (serviceParts x) s.dev t.dev :=
  running_frame h hx hg (serviceRegs_mode hlo) (.inr (.inr (.inr (.inr rfl)))) (serviceParts_stopReq hp) (serviceParts_released hp)

theorem service_within (hlo : 0x1000 ≤ lo) (hp : serves x) (h : s.awake) {g : Dev → Dev}
    (hx : Host.Outcome.next (within g s) = (.next t : Host.Outcome State Fault Refusal)) (hg : Frame (serviceRegs lo hi) (serviceParts x) s.dev (g s.dev)) :
    s.keepsRest t ∧ Frame (serviceRegs lo hi) (serviceParts x) s.dev t.dev :=
  within_frame h hx hg (serviceRegs_mode hlo) (.inr (.inr (.inr (.inr rfl)))) (serviceParts_stopReq hp) (serviceParts_released hp)

/-- What a service command leaves as it was: every part but those that serve a block, events and the recorder. -/
theorem Frame.served (hp : serves x) (h : Frame (serviceRegs lo hi) (serviceParts x) d e) :
    (e.lanes, e.quires, e.cells, e.regions, e.ains, e.groups, e.adq, e.telem, e.snaps, e.nt, e.tw, e.su, e.jtag) =
      (d.lanes, d.quires, d.cells, d.regions, d.ains, d.groups, d.adq, d.telem, d.snaps, d.nt, d.tw, d.su, d.jtag) := by
  have key (p : Part) (hp : ¬ serviceParts x p) := h.parts p hp
  have ⟨hlanes, hquires, hcells, hregions⟩ : e.lanes = d.lanes ∧ e.quires = d.quires ∧ e.cells = d.cells ∧ e.regions = d.regions := by
    refine ⟨key .lanes ?_, key .quires ?_, key .cells ?_, key .regions ?_⟩ <;>
      rcases hp with rfl | rfl | rfl | rfl <;> rintro (k | k | k | k) <;> cases k
  have ⟨hains, hgroups, hadq, htelem, hsnaps⟩ :
      e.ains = d.ains ∧ e.groups = d.groups ∧ e.adq = d.adq ∧ e.telem = d.telem ∧ e.snaps = d.snaps := by
    refine ⟨key .ains ?_, key .groups ?_, key .adq ?_, key .telem ?_, key .snaps ?_⟩ <;>
      rcases hp with rfl | rfl | rfl | rfl <;> rintro (k | k | k | k) <;> cases k
  have ⟨hnt, htw, hsu, hjtag⟩ : e.nt = d.nt ∧ e.tw = d.tw ∧ e.su = d.su ∧ e.jtag = d.jtag := by
    refine ⟨key .nt ?_, key .tw ?_, key .su ?_, key .jtag ?_⟩ <;>
      rcases hp with rfl | rfl | rfl | rfl <;> rintro (k | k | k | k) <;> cases k
  rw [hlanes, hquires, hcells, hregions, hains, hgroups, hadq, htelem, hsnaps, hnt, htw, hsu, hjtag]

/-- The commands listed of the clocks and PTP. -/
theorem clocks_frame {c : Instr} (h : s.awake) (hx : exec c s = .next t)
    (hc : c = .timebaseAlignStep ∨ c = .holdoverExpiry ∨ (∃ l, c = .ptpReceiptTimeout l) ∨ (∃ p b, c = .pllBandSearchDone p b) ∨
      (∃ o n, c = .pllPhaseSteps o n) ∨ (∃ o w, c = .tmIncrWrite o w) ∨ (∃ o w, c = .tmAdjWrite o w) ∨
      (∃ o w, c = .jumpRequest o w) ∨ (∃ m, c = .ptpAnnounceRx m) ∨ (∃ x tx, c = .ptpPdelayReqSend x tx)) :
    s.keepsRest t ∧ Frame (serviceRegs 0x4000 0x6000) (serviceParts .tm) s.dev t.dev := by
  have r := frame_refl (W := serviceRegs 0x4000 0x6000) (S := serviceParts .tm) s.dev
  have run {g : Dev → Dev} := service_running (lo := 0x4000) (hi := 0x6000) (t := t) (by decide) (.inl rfl) h (g := g)
  have wr {g : Dev → Dev} := service_within (lo := 0x4000) (hi := 0x6000) (t := t) (by decide) (.inl rfl) h (g := g)
  rcases hc with rfl | rfl | ⟨l, rfl⟩ | ⟨p, b, rfl⟩ | ⟨o, n, rfl⟩ | ⟨o, w, rfl⟩ | ⟨o, w, rfl⟩ | ⟨o, w, rfl⟩ | ⟨m, rfl⟩ | ⟨x, tx, rfl⟩
  · exact run hx (frame_timebaseAlign clockRoom r)
  · exact run hx (frame_holdoverExpired clockRoom r)
  · exact run hx (frame_ptpTimeout clockRoom l r)
  · exact run hx (frame_bandFound clockRoom p _ r)
  · exact wr hx (frame_wrSphs clockRoom o _ r)
  · exact wr hx (frame_wrTmIncr clockRoom o w r)
  · exact wr hx (frame_wrTmAdj clockRoom o w r)
  · exact wr hx (frame_wrTmJumpLo clockRoom o w r)
  · exact run hx (frame_ptpAnnounce clockRoom m r)
  · exact run hx (frame_ptpPdelaySend clockRoom _ tx (.inr (.inr (.inr rfl))) r)

/-- The commands listed of the safety channel. -/
theorem safety_frame {c : Instr} (h : s.awake) (hx : exec c s = .next t)
    (hc : (∃ k h l, c = .safetyCycle k h l) ∨ (∃ i b l, c = .safetyInputFilter i b l) ∨ (∃ b l, c = .safetyResetFilter b l) ∨
      c = .resetHoldTimeout ∨ (∃ i, c = .discrepancyTimeout i) ∨ (∃ x, c = .permitTest x) ∨ (∃ x, c = .testWidthEnd x)) :
    s.keepsRest t ∧ Frame (serviceRegs 0x3000 0x4000) (serviceParts .sf) s.dev t.dev := by
  have r := frame_refl (W := serviceRegs 0x3000 0x4000) (S := serviceParts .sf) s.dev
  have wr {g : Dev → Dev} := service_within (lo := 0x3000) (hi := 0x4000) (t := t) (by decide) (.inr (.inl rfl)) h (g := g)
  rcases hc with ⟨k, hrb, lrb, rfl⟩ | ⟨i, b, l, rfl⟩ | ⟨b, l, rfl⟩ | rfl | ⟨i, rfl⟩ | ⟨x, rfl⟩ | ⟨x, rfl⟩
  · exact wr hx (frame_safetyCycleD safetyRoom k hrb lrb r)
  · exact wr hx (frame_sfFilter safetyRoom _ b l r)
  · exact wr hx (frame_rstFilter safetyRoom b l r)
  · exact wr hx (frame_rstHeld safetyRoom r)
  · exact wr hx (frame_discrepancy safetyRoom _ r)
  · exact wr hx (frame_permitTestD safetyRoom _ r)
  · exact wr hx (frame_testEnd safetyRoom _ r)

/-- The commands listed of the fabric. -/
theorem fabric_frame {c : Instr} (h : s.awake) (hx : exec c s = .next t)
    (hc : c = .evalWindowEnd ∨ c = .avsAck ∨ c = .avsTimeout ∨ c = .marginHoldoffEnd) :
    s.keepsRest t ∧ Frame (serviceRegs 0x1000 0x2000) (serviceParts .fb) s.dev t.dev := by
  have r := frame_refl (W := serviceRegs 0x1000 0x2000) (S := serviceParts .fb) s.dev
  have run {g : Dev → Dev} := service_running (lo := 0x1000) (hi := 0x2000) (t := t) (by decide) (.inr (.inr (.inl rfl))) h (g := g)
  rcases hc with rfl | rfl | rfl | rfl
  · exact run hx (frame_evalWindow fabricRoom r)
  · exact run hx (frame_avsOutcome fabricRoom true r)
  · exact run hx (frame_avsOutcome fabricRoom false r)
  · exact run hx (frame_holdoffEnd fabricRoom r)

/-- The commands listed of the recorder. -/
theorem recorder_frame {c : Instr} (h : s.awake) (hx : exec c s = .next t)
    (hc : c = .recorderEntryIn ∨ c = .recorderGapEntry ∨ c = .recordComplete ∨ c = .recordPostmaxExpiry ∨ (∃ o, c = .drArm o) ∨
      (∃ o, c = .drForce o) ∨ (∃ o, c = .drDisarm o) ∨ (∃ o m, c = .drRel o m) ∨ (∃ x, c = .xtrigPulseEnd x)) :
    s.keepsRest t ∧ Frame (serviceRegs 0x8000 0x9000) (serviceParts .dr) s.dev t.dev := by
  have r := frame_refl (W := serviceRegs 0x8000 0x9000) (S := serviceParts .dr) s.dev
  have run {g : Dev → Dev} := service_running (lo := 0x8000) (hi := 0x9000) (t := t) (by decide) (.inr (.inr (.inr rfl))) h (g := g)
  have wr {g : Dev → Dev} := service_within (lo := 0x8000) (hi := 0x9000) (t := t) (by decide) (.inr (.inr (.inr rfl))) h (g := g)
  rcases hc with rfl | rfl | rfl | rfl | ⟨o, rfl⟩ | ⟨o, rfl⟩ | ⟨o, rfl⟩ | ⟨o, m, rfl⟩ | ⟨x, rfl⟩
  · exact run hx (frame_entryIn serviceRoom r)
  · exact run hx (frame_gapEntry serviceRoom r)
  · exact run hx (frame_recordCompleteD serviceRoom r)
  · exact run hx (frame_postmaxExpired serviceRoom r)
  · exact wr hx (frame_wrDrCtl serviceRoom o 1 r)
  · exact wr hx (frame_wrDrCtl serviceRoom o 2 r)
  · exact wr hx (frame_wrDrCtl serviceRoom o 4 r)
  · exact wr hx (frame_wrDrCtl serviceRoom o _ r)
  · exact run hx (frame_xtrigEnd serviceRoom _ r)

/-- Settles O6, by the footprints of the operations that the commands are made of. -/
theorem serviceFrame : Obligations.ServiceFrame := by
  intro c s t h hx
  refine ⟨fun hc => ?_, fun hc => ?_, fun hc => ?_, fun hc => ?_⟩
  · obtain ⟨hrest, hf⟩ := clocks_frame h hx hc
    exact ⟨hf.words, hf.served (.inl rfl), hf.parts .sf nofun, hf.parts .fb nofun, hrest⟩
  · obtain ⟨hrest, hf⟩ := safety_frame h hx hc
    exact ⟨hf.words, hf.served (.inr (.inl rfl)), hf.parts .tm nofun, hf.parts .fb nofun, hrest⟩
  · obtain ⟨hrest, hf⟩ := fabric_frame h hx hc
    exact ⟨hf.words, hf.served (.inr (.inr (.inl rfl))), hf.parts .tm nofun, hf.parts .sf nofun, hrest⟩
  · obtain ⟨hrest, hf⟩ := recorder_frame h hx hc
    exact ⟨hf.words, hf.served (.inr (.inr (.inr rfl))), hf.parts .tm nofun, hf.parts .sf nofun, hf.parts .fb nofun, hrest⟩

end Sys2Proof.Machine
end

section
/-! PROOFS. The footprints of the lane layer: the chain of a quire, one lane, and the two lanes of a unit (O20). -/

namespace Sys2Proof.Machine

variable {W : Nat → Prop} {S : Part → Prop} {d e : Dev} {l q : Nat}

/-! ## Where the registers of lanes and quires lie -/

/-- Room for the registers of one lane, its state, what it sends, and events. -/
structure LaneRoom (l : Nat) (W : Nat → Prop) (S : Part → Prop) : Prop extends Events W S where
  regs : ∀ k, k < 0x100 → W (k + 0x10000 + 0x100 * l)
  lanes : S .lanes
  lane : S (.lane l)
  sent : S .sent

/-- Room for what a lane changes that enters a state: LN_STAT, LN_EVT, LN_CNT and LN_EQ, its state, what it sends, and events. -/
structure StateRoom (l : Nat) (W : Nat → Prop) (S : Part → Prop) : Prop extends Events W S where
  stat : W (LN_STAT l)
  flags : W (LN_EVT l)
  cnts : W (LN_CNT l)
  taps : W (LN_EQ l)
  lanes : S .lanes
  lane : S (.lane l)
  sent : S .sent

theorem LaneRoom.state (R : LaneRoom l W S) : StateRoom l W S where
  toEvents := R.toEvents
  stat := R.regs _ (by decide)
  flags := R.regs _ (by decide)
  cnts := R.regs _ (by decide)
  taps := R.regs _ (by decide)
  lanes := R.lanes
  lane := R.lane
  sent := R.sent

/-- Room for the registers of a quire, its state, and events. -/
structure QuireRoom (q : Nat) (W : Nat → Prop) (S : Part → Prop) : Prop extends Events W S where
  regs : ∀ k, k < 0x400 → W (k + 0x20000 + 0x400 * q)
  quires : S .quires
  quire : S (.quire q)

/-- Room for the chain of a quire: the quire, with the end-to-end delays and the HOP counts of its lanes. -/
structure ChainRoom (q : Nat) (W : Nat → Prop) (S : Part → Prop) : Prop extends QuireRoom q W S where
  e2eA : W (LN_TMXE2E (2 * q))
  e2eB : W (LN_TMXE2E (2 * q + 1))
  lanes : S .lanes
  laneA : S (.lane (2 * q))
  laneB : S (.lane (2 * q + 1))

/-- Room for a lane with the chain it is part of. -/
structure LaneChainRoom (l : Nat) (W : Nat → Prop) (S : Part → Prop) : Prop extends LaneRoom l W S where
  chain : l < 128 → ChainRoom (l / 2) W S

/-- Room for both lanes of a unit with their chain; a lane that negotiates alone needs the first only. -/
structure UnitRoom (l : Nat) (W : Nat → Prop) (S : Part → Prop) : Prop extends LaneChainRoom l W S where
  other : LaneRoom (partner l) W S

theorem partner_div (l : Nat) : partner l / 2 = l / 2 := by unfold partner; split <;> omega
theorem partner_lt (h : l < 128) : partner l < 128 := by unfold partner; split <;> omega
theorem lt_of_partner_lt (h : partner l < 128) : l < 128 := by have := partner_div l; omega
theorem partner_ne (l : Nat) : partner l ≠ l := by unfold partner; split <;> omega
theorem partner_partner (l : Nat) : partner (partner l) = l := by unfold partner; split <;> (split <;> omega)
theorem own_or_partner (l : Nat) : 2 * (l / 2) = l ∧ 2 * (l / 2) + 1 = partner l ∨ 2 * (l / 2) = partner l ∧ 2 * (l / 2) + 1 = l := by
  unfold partner; split <;> omega

/-- The unit seen from its other lane. -/
theorem UnitRoom.swap (R : UnitRoom l W S) : UnitRoom (partner l) W S where
  toLaneRoom := R.other
  chain h := partner_div l ▸ R.chain (lt_of_partner_lt h)
  other := (partner_partner l).symm ▸ R.toLaneRoom

/-! ## The chain of a quire -/

section quire
variable (R : QuireRoom q W S)
include R

theorem frame_slotWrite (h : Frame W S d e) : Frame W S d (slotWrite q e) := by
  unfold slotWrite
  extract_lets a b reach pend
  have hp : Frame W S d pend :=
    frame_put (QU_SLOTCTL_PEND q) 1 (R.regs _ (by decide)) (frame_put (QU_SLOTI_NSERV q) _ (R.regs _ (by decide))
      (frame_put (QU_SLOTI_REACHB q) _ (R.regs _ (by decide)) (frame_put (QU_SLOTI_REACHA q) _ (R.regs _ (by decide)) h)))
  split
  · exact frame_ite (frame_onQuire q _ R.quires R.quire hp) hp
  · exact hp

theorem frame_refsUpdate (h : Frame W S d e) : Frame W S d (refsUpdate q e) := by
  unfold refsUpdate
  exact frame_onQuire q _ R.quires R.quire (frame_putB (QU_STAT_PRIM q) _ (R.regs _ (by decide))
    (frame_ite (frame_notice (QU_EVT_ENDSW q) R.toEvents (R.regs _ (by decide)) h) h))

theorem frame_nposCheck (h : Frame W S d e) : Frame W S d (nposCheck q e) :=
  frame_ite (frame_service (QU_EVT_NPOSERR q) R.toEvents (R.regs _ (by decide)) h) h

end quire

section chain
variable (R : ChainRoom q W S)
include R

theorem ChainRoom.laneOf (i : Nat) (hi : i < 2) : S (.lane (2 * q + i)) :=
  match i, hi with
  | 0, _ => R.laneA
  | 1, _ => R.laneB

theorem frame_e2eReset (h : Frame W S d e) : Frame W S d (e2eReset q e) :=
  frame_put (LN_TMXE2E_VALID (2 * q + 1)) 0 R.e2eB (frame_onLane (2 * q + 1) _ R.lanes R.laneB
    (frame_put (LN_TMXE2E_VALID (2 * q)) 0 R.e2eA (frame_onLane (2 * q) _ R.lanes R.laneA h)))

theorem frame_chainUpdate (lane : Bool) (h : Frame W S d e) : Frame W S d (chainUpdate q lane e) := by
  unfold chainUpdate
  extract_lets refs old new counted _ changed
  have hr : Frame W S d refs := frame_ite (frame_refsUpdate R.toQuireRoom h) h
  have hcounted : Frame W S d counted :=
    frame_foldN 2 _ (fun _ i hi hd => frame_onLane (2 * q + i) _ R.lanes (R.laneOf i hi) hd)
      (frame_put (QU_STAT_CHAIN q) new (R.regs _ (by decide)) hr)
  have hchanged : Frame W S d changed :=
    frame_ite (frame_onQuire q _ R.quires R.quire
        (frame_ite (frame_notice (QU_EVT_REJOIN q) R.toEvents (R.regs _ (by decide)) hcounted) hcounted))
      (frame_e2eReset R (frame_service (QU_EVT_BREAK q) R.toEvents (R.regs _ (by decide)) hcounted))
  exact frame_ite (frame_ite (frame_slotWrite R.toQuireRoom hr) hr) (frame_ite hchanged (frame_slotWrite R.toQuireRoom hchanged))

end chain

/-! ## A lane that enters a state -/

section state
variable (R : StateRoom l W S)
include R

theorem frame_adapts (h : Frame W S d e) : Frame W S d (eqAdapt l e) := frame_onLane l _ R.lanes R.lane h

theorem frame_freezes (h : Frame W S d e) : Frame W S d (eqFreeze l e) := frame_putB (LN_EQ_FROZEN l) _ R.taps (frame_adapts R h)

theorem frame_sends (x : Sent) (h : Frame W S d e) : Frame W S d (laneOut l x e) := frame_ite (frame_send x R.sent h) h

theorem frame_entersState (st : Nat) (h : Frame W S d e) : Frame W S d (laneSet l st e) := by
  have hadapt : Frame W S d ((eqAdapt l e).put (LN_STAT_STATE l) st) := frame_put (LN_STAT_STATE l) st R.stat (frame_adapts R h)
  unfold laneSet
  extract_lets old on _ sof stat fresh hop lock fast back failed
  have hsof : Frame W S d sof := frame_ite hadapt (frame_onLane l _ R.lanes R.lane hadapt)
  have hfresh : Frame W S d fresh := frame_ite (frame_onLane l _ R.lanes R.lane (frame_put (LN_STAT_ORGV l) 0 R.stat
    (frame_put (LN_STAT_LOCK l) 0 R.stat (frame_put (LN_STAT_STEP l) 0 R.stat hsof)))) hsof
  have hhop : Frame W S d hop := frame_ite hfresh (frame_onLane l _ R.lanes R.lane hfresh)
  have hfast : Frame W S d fast := frame_ite (frame_bump (LN_CNT_FASTCNT l) 1 R.cnts
    (frame_notice (LN_EVT_FASTRT l) R.toEvents R.flags (frame_put (LN_STAT_LOCK l) 0 R.stat hhop))) hhop
  have hback : Frame W S d back := frame_ite (frame_bump (LN_CNT_REACQCNT l) 1 R.cnts
    (frame_service (LN_EVT_REACQ l) R.toEvents R.flags hfast)) hfast
  have hfailed : Frame W S d failed := frame_ite (frame_service (LN_EVT_FAILED l) R.toEvents R.flags hback) hback
  exact frame_freezes R (frame_ite (frame_send _ R.sent hfailed) (frame_ite hfailed (frame_sends R _ hfailed)))

end state

/-! ## One lane -/

section lane
variable (R : LaneRoom l W S)
include R

theorem frame_eqAdapt (h : Frame W S d e) : Frame W S d (eqAdapt l e) := frame_adapts R.state h

theorem frame_eqRevert (k : Nat) (h : Frame W S d e) : Frame W S d (eqRevert l k e) := frame_onLane l _ R.lanes R.lane h

theorem frame_eqFreeze (h : Frame W S d e) : Frame W S d (eqFreeze l e) := frame_freezes R.state h

theorem frame_laneOut (x : Sent) (h : Frame W S d e) : Frame W S d (laneOut l x e) := frame_sends R.state x h

theorem frame_sendIdle (h : Frame W S d e) : Frame W S d (sendIdle l e) := frame_laneOut R _ h

theorem frame_send16 (typ fields : Nat) (h : Frame W S d e) : Frame W S d (send16 l typ fields e) :=
  frame_foldN 16 _ (fun _ _ _ hd => frame_laneOut R _ hd) h

theorem frame_laneSet (st : Nat) (h : Frame W S d e) : Frame W S d (laneSet l st e) := frame_entersState R.state st h

theorem frame_stepStart (s : Nat) (h : Frame W S d e) : Frame W S d (stepStart l s e) := by
  unfold stepStart
  exact frame_onLane l _ R.lanes R.lane (frame_sendIdle R (frame_put (LN_STAT_LOCK l) 0 (R.regs _ (by decide))
    (frame_put (LN_STAT_STEP l) s (R.regs _ (by decide)) (frame_send16 R 0xA0 (s * 2 ^ 8) (frame_eqAdapt R h)))))

theorem frame_stepStands (s : Nat) (h : Frame W S d e) : Frame W S d (stepStands l s e) :=
  frame_onLane l _ R.lanes R.lane (frame_send16 R 0xA3 (s * 2 ^ 8) h)

theorem frame_stepRevert (h : Frame W S d e) : Frame W S d (stepRevert l e) := by
  unfold stepRevert
  split
  · exact h
  · exact frame_notice (LN_EVT_STEPFAIL l) R.toEvents (R.regs _ (by decide)) (frame_onLane l _ R.lanes R.lane
      (frame_sendIdle R (frame_put (LN_STAT_LOCK l) 0 (R.regs _ (by decide)) (frame_put (LN_STAT_STEP l) _ (R.regs _ (by decide))
        (frame_eqAdapt R h)))))

theorem frame_losGone (h : Frame W S d e) : Frame W S d (losGone l e) :=
  frame_eqFreeze R (frame_put (LN_STAT_LOS l) 0 (R.regs _ (by decide)) h)

theorem frame_prbsMissed (n : Nat) (h : Frame W S d e) : Frame W S d (prbsMissed l n e) :=
  frame_ite (frame_onLane l _ R.lanes R.lane (frame_bump (LN_PRBSERR_ERRCNT l) (64 * n) (R.regs _ (by decide)) h))
    (frame_ite h (frame_onLane l _ R.lanes R.lane h))

theorem frame_eqHoldEnd (h : Frame W S d e) : Frame W S d (eqHoldEnd l e) :=
  frame_ite h (frame_onLane l _ R.lanes R.lane (frame_eqAdapt R h))

theorem frame_blockDiscard (b : BitVec 64) (h : Frame W S d e) : Frame W S d (blockDiscard l b e) :=
  frame_ite h (frame_bump (LN_BERC_UNKCNT l) 1 (R.regs _ (by decide)) h)

theorem frame_blockIn (hdr : Nat) (b : BitVec 64) (h : Frame W S d e) : Frame W S d (blockIn l hdr b e) :=
  have counted := frame_bump (LN_BERC_SHERR l) 1 (R.regs _ (by decide)) h
  frame_ite h (frame_ite (frame_blockDiscard R b h) (frame_ite h (frame_ite (frame_prbsMissed R 1 counted) counted)))

theorem frame_idleBlock (b : BitVec 64) (h : Frame W S d e) : Frame W S d (idleBlock l b e) :=
  frame_ite h (frame_ite (frame_blockDiscard R b h) (frame_onLane l _ R.lanes R.lane h))

theorem frame_prbsWordIn (w : BitVec 64) (h : Frame W S d e) : Frame W S d (prbsWordIn l w e) := by
  unfold prbsWordIn
  extract_lets pat x own
  split
  · exact frame_onLane l _ R.lanes R.lane h
  · exact frame_ite (frame_onLane l _ R.lanes R.lane (frame_bump (LN_PRBSERR_ERRCNT l) _ (R.regs _ (by decide)) h))
      (frame_onLane l _ R.lanes R.lane (frame_putB (LN_PRBSCTL_SYNC l) _ (R.regs _ (by decide)) h))

theorem frame_prbsWords (ws : List (BitVec 64)) (h : Frame W S d e) : Frame W S d (prbsWords l ws e) :=
  frame_ite h (frame_foldl ws _ (fun _ w _ hd => frame_prbsWordIn R w hd) h)

theorem frame_trnBlock (x step : Nat) (hx : 128 + x = l) (h : Frame W S d e) : Frame W S d (trnBlock x step e) := by
  subst hx
  exact frame_ite (frame_onLane _ _ R.lanes R.lane (frame_put (LN_STAT_LOCK (128 + x)) 0 (R.regs _ (by decide)) h)) h

end lane

/-! ## A lane with its chain -/

section laneChain
variable (R : LaneChainRoom l W S)
include R

theorem frame_laneGo (st : Nat) (h : Frame W S d e) : Frame W S d (laneGo l st e) := by
  have hset := frame_laneSet R.toLaneRoom st h
  unfold laneGo
  split
  · rename_i hl
    exact frame_chainUpdate (R.chain hl.1) true hset
  · exact hset

theorem frame_losAsserted (h : Frame W S d e) : Frame W S d (losAsserted l e) :=
  have los := frame_put (LN_STAT_LOS l) 1 (R.regs _ (by decide)) h
  have evt := frame_notice (LN_EVT_LOS l) R.toEvents (R.regs _ (by decide)) los
  frame_ite h (frame_ite (frame_eqFreeze R.toLaneRoom los)
    (frame_ite (frame_laneGo R lnFASTRT evt) (frame_eqFreeze R.toLaneRoom evt)))

theorem frame_lolDetected (lost : Bool) (bad : Nat) (tap : Option Nat) (h : Frame W S d e) :
    Frame W S d (lolDetected l lost bad tap e) := by
  unfold lolDetected
  extract_lets lock counted missed held
  have hlock : Frame W S d lock := frame_ite (frame_put (LN_STAT_LOCK l) 0 (R.regs _ (by decide)) h) h
  have hcounted : Frame W S d counted := frame_bump (LN_BERC_SHERR l) bad (R.regs _ (by decide))
    (frame_notice (LN_EVT_LOL l) R.toEvents (R.regs _ (by decide)) hlock)
  have hmissed : Frame W S d missed := frame_ite (frame_prbsMissed R.toLaneRoom bad hcounted) hcounted
  have hheld : Frame W S d held := by
    cases tap with
    | some k => exact frame_eqRevert R.toLaneRoom k (frame_eqAdapt R.toLaneRoom hmissed)
    | none => exact hmissed
  exact frame_ite h (frame_ite (frame_laneGo R lnFASTRT hheld) hheld)

theorem frame_acquireTimeout (h : Frame W S d e) : Frame W S d (acquireTimeout l e) :=
  frame_ite (frame_ite (frame_laneGo R lnFAILED (frame_onLane l _ R.lanes R.lane h)) (frame_onLane l _ R.lanes R.lane h))
    (frame_ite (frame_laneGo R lnACQUIRE h) h)

theorem frame_fastrtTimeout (h : Frame W S d e) : Frame W S d (fastrtTimeout l e) := frame_ite (frame_laneGo R lnACQUIRE h) h
theorem frame_failedRetry (h : Frame W S d e) : Frame W S d (failedRetry l e) := frame_ite (frame_laneGo R lnACQUIRE h) h

/-- A lane that negotiates alone goes on without its partner. -/
theorem frame_stepNext_alone (ha : alone l e = true) (h : Frame W S d e) : Frame W S d (stepNext l e) := by
  unfold stepNext
  rw [if_pos ha]
  exact frame_ite (frame_stepStart R.toLaneRoom _ h) (frame_laneGo R lnACTIVE h)

end laneChain

/-! ## Both lanes of a unit -/

section unit
variable (R : UnitRoom l W S)
include R

theorem frame_pairActive (hl : l < 128) (h : Frame W S d e) : Frame W S d (pairActive l e) :=
  frame_chainUpdate (R.chain hl) true (frame_laneSet R.other lnACTIVE (frame_laneSet R.toLaneRoom lnACTIVE h))

omit R in
/-- A lane that does not negotiate alone is a quire lane. -/
theorem lt_of_not_alone (ha : ¬ alone l e = true) : l < 128 := by
  by_contra hl
  exact ha (by simp [alone, Nat.le_of_not_lt hl])

theorem frame_stepNext (h : Frame W S d e) : Frame W S d (stepNext l e) := by
  by_cases ha : alone l e = true
  · exact frame_stepNext_alone R.toLaneChainRoom ha h
  · unfold stepNext
    rw [if_neg ha]
    exact frame_ite h (frame_ite (frame_stepStart R.other _ (frame_stepStart R.toLaneRoom _ h)) (frame_pairActive R (lt_of_not_alone ha) h))

theorem frame_stepResume (h : Frame W S d e) : Frame W S d (stepResume l e) := frame_ite (frame_stepNext R h) h

theorem frame_wakePartner (h : Frame W S d e) : Frame W S d (wakePartner l e) := frame_ite (frame_stepResume R.swap h) h

theorem frame_blockLockHeld (h : Frame W S d e) : Frame W S d (blockLockHeld l e) :=
  frame_ite (frame_wakePartner R (frame_stepNext R (frame_laneGo R.toLaneChainRoom lnNEGOTIATE (frame_onLane l _ R.lanes R.lane h)))) h

theorem frame_rateStepPass (h : Frame W S d e) : Frame W S d (rateStepPass l e) := by
  unfold rateStepPass
  split
  · exact h
  · have passed := frame_onLane l (fun x => { x with passed := true }) R.lanes R.lane h
    refine frame_ite h (frame_ite (frame_ite ?_ passed) (frame_ite ?_ passed))
    · exact frame_wakePartner R (frame_stepNext R (frame_stepStands R.toLaneRoom _ passed))
    · exact frame_stepNext R (frame_stepStands R.other _ (frame_stepStands R.toLaneRoom _ passed))

theorem frame_rateStepFail (h : Frame W S d e) : Frame W S d (rateStepFail l e) :=
  have own := frame_stepRevert R.toLaneRoom h
  frame_ite (frame_ite own (frame_stepRevert R.other own)) h

theorem frame_blockLock (h : Frame W S d e) : Frame W S d (blockLock l e) :=
  have lock := frame_put (LN_STAT_LOCK l) 1 (R.regs _ (by decide)) h
  frame_ite h (frame_ite (frame_wakePartner R (frame_laneGo R.toLaneChainRoom lnACTIVE (frame_onLane l _ R.lanes R.lane lock))) lock)

theorem frame_fastrtRelock (h : Frame W S d e) : Frame W S d (fastrtRelock l e) :=
  frame_ite (frame_wakePartner R (frame_laneGo R.toLaneChainRoom lnACTIVE h)) h

theorem frame_originChanged (h : Frame W S d e) : Frame W S d (originChanged l e) := by
  have origin : Frame W S d (((e.put (LN_STAT_ORIGIN l) (e.lane l).orgCand).put (LN_STAT_ORGV l) 1).onLane l fun x => { x with orgRun := 0 }) :=
    frame_onLane l _ R.lanes R.lane (frame_put (LN_STAT_ORGV l) 1 (R.regs _ (by decide))
      (frame_put (LN_STAT_ORIGIN l) _ (R.regs _ (by decide)) h))
  unfold originChanged
  extract_lets x _ counted
  split
  · exact h
  · split
    · rename_i hl
      exact frame_wakePartner R (frame_stepResume R (frame_chainUpdate (R.chain hl) false origin))
    · exact origin

end unit

/-! ## The frame of the receiver's commands -/

/-- What a command of lane `l` may change: the registers of its unit's lanes and of its quire, and those any command may change. -/
def unitRegs (l a : Nat) : Prop := laneRegs l a ∨ laneRegs (partner l) a ∨ quireRegs (l / 2) a ∨ sideRegs a

/-- The parts of lanes and quires, of events and the recorder, and what leaves the device. -/
def lanePart : Part → Prop
  | .lanes | .lane _ | .quires | .quire _ | .fc | .dr | .sent => True
  | _ => False

theorem events_of_side (hW : ∀ a, sideRegs a → W a) (hfc : S .fc) (hdr : S .dr) : Events W S :=
  ⟨hW _ (.inl rfl), hW _ (.inr (.inl rfl)), hfc, hdr⟩

theorem unitEvents (l : Nat) : Events (unitRegs l) lanePart := events_of_side (fun _ h => .inr (.inr (.inr h))) trivial trivial

theorem unitRoom (l : Nat) : UnitRoom l (unitRegs l) lanePart where
  toEvents := unitEvents l
  regs k hk := .inl (by unfold laneRegs LN_CFG; omega)
  lanes := trivial
  lane := trivial
  sent := trivial
  chain _ := {
    toEvents := unitEvents l
    regs := fun k hk => .inr (.inr (.inl (by unfold quireRegs QU_CFG; omega)))
    e2eA := by
      rcases own_or_partner l with ⟨h, -⟩ | ⟨h, -⟩
      · exact .inl (by unfold laneRegs LN_CFG LN_TMXE2E; omega)
      · exact .inr (.inl (by unfold laneRegs LN_CFG LN_TMXE2E; omega))
    e2eB := by
      rcases own_or_partner l with ⟨-, h⟩ | ⟨-, h⟩
      · exact .inr (.inl (by unfold laneRegs LN_CFG LN_TMXE2E; omega))
      · exact .inl (by unfold laneRegs LN_CFG LN_TMXE2E; omega)
    quires := trivial
    quire := trivial
    lanes := trivial
    laneA := trivial
    laneB := trivial }
  other := {
    toEvents := unitEvents l
    regs := fun k hk => .inr (.inl (by unfold laneRegs LN_CFG; omega))
    lanes := trivial
    lane := trivial
    sent := trivial }

theorem unitRegs_mode (l : Nat) : ¬ unitRegs l GL_MODE := by
  unfold unitRegs laneRegs quireRegs sideRegs LN_CFG QU_CFG
  rintro (h | h | h | h)
  · exact absurd h.1 (by unfold GL_MODE; omega)
  · exact absurd h.1 (by unfold GL_MODE; omega)
  · exact absurd h.1 (by unfold GL_MODE; omega)
  · exact absurd h (by decide)

/-- A block that arrives while no injection waits reaches its lane. -/
theorem injLane_none (f : Dev → Dev) (h : d.fc.inj = none) : injLane l f d = f d := by
  unfold injLane injHit
  rw [h]
  exact if_neg (fun k => Bool.false_ne_true k.1)

/-- Settles O20, by the footprints of the lane operations. -/
theorem laneFrame : Obligations.LaneFrame := by
  intro l s t c h hinj hc hx
  have R := unitRoom l.val
  have r := frame_refl (W := unitRegs l.val) (S := lanePart) s.dev
  have run (g : Dev → Dev) (hx : Host.Outcome.next (running g s) = (.next t : Host.Outcome State Fault Refusal))
      (hg : Frame (unitRegs l.val) lanePart s.dev (g s.dev)) : s.keepsRest t ∧ Frame (unitRegs l.val) lanePart s.dev t.dev :=
    running_frame h hx hg (unitRegs_mode _) (.inr (.inr (.inr (.inr (.inr rfl))))) nofun nofun
  have key : s.keepsRest t ∧ Frame (unitRegs l.val) lanePart s.dev t.dev := by
    rcases hc with rfl | rfl | ⟨x, rfl⟩ | rfl | rfl | rfl | rfl | rfl | rfl | rfl | rfl | ⟨b, rfl⟩ | rfl | ⟨b, rfl⟩ | ⟨ws, rfl⟩ | rfl
    · exact run _ hx (frame_losAsserted R.toLaneChainRoom r)
    · exact run _ hx (frame_losGone R.toLaneRoom r)
    · exact run _ hx (frame_lolDetected R.toLaneChainRoom _ _ _ r)
    · exact run _ hx (frame_eqHoldEnd R.toLaneRoom r)
    · exact run _ hx (frame_blockLockHeld R r)
    · exact run _ hx (frame_acquireTimeout R.toLaneChainRoom r)
    · exact run _ hx (frame_fastrtTimeout R.toLaneChainRoom r)
    · exact run _ hx (frame_fastrtRelock R r)
    · exact run _ hx (frame_failedRetry R.toLaneChainRoom r)
    · exact run _ hx (frame_rateStepPass R r)
    · exact run _ hx (frame_rateStepFail R r)
    · exact run _ hx (injLane_none (idleBlock l.val b) hinj ▸ frame_idleBlock R.toLaneRoom b r)
    · exact run _ hx (frame_originChanged R r)
    · exact run _ hx (injLane_none (blockIn l.val b.hdr.toNat b.bits) hinj ▸ frame_blockIn R.toLaneRoom _ _ r)
    · exact run _ hx (frame_prbsWords R.toLaneRoom ws r)
    · exact run _ hx (frame_blockLock R r)
  obtain ⟨hrest, hf⟩ := key
  refine ⟨hrest, hf.words, ?_⟩
  rw [show t.dev.cells = _ from hf.parts .cells nofun, show t.dev.regions = _ from hf.parts .regions nofun,
    show t.dev.ains = _ from hf.parts .ains nofun, show t.dev.groups = _ from hf.parts .groups nofun,
    show t.dev.adq = _ from hf.parts .adq nofun, show t.dev.telem = _ from hf.parts .telem nofun,
    show t.dev.snaps = _ from hf.parts .snaps nofun, show t.dev.tm = _ from hf.parts .tm nofun,
    show t.dev.sf = _ from hf.parts .sf nofun, show t.dev.fb = _ from hf.parts .fb nofun,
    show t.dev.nt = _ from hf.parts .nt nofun, show t.dev.tw = _ from hf.parts .tw nofun,
    show t.dev.su = _ from hf.parts .su nofun, show t.dev.jtag = _ from hf.parts .jtag nofun]

end Sys2Proof.Machine
end

section
/-! PROOFS. The footprint of the commands of one quire (O24). -/

namespace Sys2Proof.Machine

variable {W : Nat → Prop} {S : Part → Prop} {d e : Dev} {q : Nat}

section quire
variable (R : QuireRoom q W S)
include R

theorem frame_budgetAchieved (h : Frame W S d e) : Frame W S d (budgetAchieved q e) :=
  frame_ite (frame_put (QU_STAT_BUDGET q) 1 (R.regs _ (by decide)) h) h

theorem frame_requestsRx (w : Nat) (words : BitVec 256) (h : Frame W S d e) : Frame W S d (requestsRx q w words e) :=
  frame_ite h (frame_ite h (frame_onQuire q _ R.quires R.quire h))

theorem frame_reachUpdated (endB : Bool) (hS : S .lanes) (hl : S (.lane (2 * q + b2n endB))) (h : Frame W S d e) :
    Frame W S d (reachUpdated q endB e) :=
  frame_ite h (frame_nposCheck R (frame_ite h (frame_slotWrite R (frame_onLane _ _ hS hl h))))

end quire

theorem frame_hopBlock (l hopcnt : Nat) (hS : S .lanes) (hl : ∀ k, S (.lane k)) (h : Frame W S d e) :
    Frame W S d (hopBlock l hopcnt e) := frame_ite h (frame_onLane _ _ hS (hl _) h)

/-- What a bookkeeping command of a quire may change: its registers, and those any command may change. -/
def quireOnly (q a : Nat) : Prop := quireRegs q a ∨ sideRegs a

/-- The parts of lanes and quires, of events and the recorder. -/
def quirePart : Part → Prop
  | .lanes | .lane _ | .quires | .quire _ | .fc | .dr => True
  | _ => False

theorem quireRoom (q : Nat) : QuireRoom q (quireOnly q) quirePart where
  toEvents := events_of_side (fun _ h => .inr h) trivial trivial
  regs k hk := .inl (by unfold quireRegs QU_CFG; omega)
  quires := trivial
  quire := trivial

theorem quireOnly_mode (q : Nat) : ¬ quireOnly q GL_MODE := by
  unfold quireOnly quireRegs sideRegs QU_CFG
  rintro (h | h)
  · exact absurd h.1 (by unfold GL_MODE; omega)
  · exact absurd h (by decide)

/-- Settles O24, by the footprints of the bookkeeping of a quire. -/
theorem quireFrame : Obligations.QuireFrame := by
  intro q s t c h hinj hc hx
  have R := quireRoom q.val
  have r := frame_refl (W := quireOnly q.val) (S := quirePart) s.dev
  have run (g : Dev → Dev) (hx : Host.Outcome.next (running g s) = (.next t : Host.Outcome State Fault Refusal))
      (hg : Frame (quireOnly q.val) quirePart s.dev (g s.dev)) : s.keepsRest t ∧ Frame (quireOnly q.val) quirePart s.dev t.dev :=
    running_frame h hx hg (quireOnly_mode _) (.inr (.inr (.inr rfl))) nofun nofun
  have key : s.keepsRest t ∧ Frame (quireOnly q.val) quirePart s.dev t.dev := by
    rcases hc with rfl | ⟨w, x, rfl⟩ | ⟨e, rfl⟩ | ⟨l, n, -, rfl⟩
    · exact run _ hx (frame_budgetAchieved R r)
    · exact run _ hx (frame_requestsRx R _ x r)
    · exact run _ hx (frame_reachUpdated R e trivial trivial r)
    · exact run _ hx (injLane_none (hopBlock l.val n.toNat) hinj ▸ frame_hopBlock l.val _ trivial (fun _ => trivial) r)
  obtain ⟨hrest, hf⟩ := key
  refine ⟨hrest, hf.words, ?_⟩
  rw [show t.dev.cells = _ from hf.parts .cells nofun, show t.dev.regions = _ from hf.parts .regions nofun,
    show t.dev.ains = _ from hf.parts .ains nofun, show t.dev.groups = _ from hf.parts .groups nofun,
    show t.dev.adq = _ from hf.parts .adq nofun, show t.dev.telem = _ from hf.parts .telem nofun,
    show t.dev.snaps = _ from hf.parts .snaps nofun, show t.dev.sent = _ from hf.parts .sent nofun,
    show t.dev.tm = _ from hf.parts .tm nofun, show t.dev.sf = _ from hf.parts .sf nofun, show t.dev.fb = _ from hf.parts .fb nofun,
    show t.dev.nt = _ from hf.parts .nt nofun, show t.dev.tw = _ from hf.parts .tw nofun,
    show t.dev.su = _ from hf.parts .su nofun, show t.dev.jtag = _ from hf.parts .jtag nofun]

end Sys2Proof.Machine
end

section
/-! PROOFS. The footprint of the commands of one cell engine (O27). -/

namespace Sys2Proof.Machine

variable {W : Nat → Prop} {S : Part → Prop} {d e : Dev} {n : Nat}

/-- Room for the registers of an engine, its state, telemetry, and events. -/
structure CellRoom (n : Nat) (W : Nat → Prop) (S : Part → Prop) : Prop extends Events W S where
  regs : ∀ k, k < 0x80 → W (k + 0x100000 + 0x80 * n)
  cells : S .cells
  cell : S (.cell n)
  telem : S .telem

section cell
variable (R : CellRoom n W S)
include R

theorem frame_putCest (v : Nat) (h : Frame W S d e) : Frame W S d (putCest n v e) :=
  frame_put (CE_WEAR_CEST15 n) _ (R.regs _ (by decide)) (frame_put (CE_EST_CEST n) _ (R.regs _ (by decide)) h)

theorem frame_putResr (v : Nat) (h : Frame W S d e) : Frame W S d (putResr n v e) :=
  frame_put (CE_WEAR_RESR15 n) _ (R.regs _ (by decide)) (frame_put (CE_EST_RESR n) _ (R.regs _ (by decide)) h)

theorem frame_estRestart (h : Frame W S d e) : Frame W S d (estRestart n e) := frame_onCell n _ R.cells R.cell h

theorem frame_estNominal (h : Frame W S d e) : Frame W S d (estNominal n e) :=
  frame_estRestart R (frame_put (CE_WEAR_RRATIO n) _ (R.regs _ (by decide)) (frame_put (CE_WEAR_CRATIO n) _ (R.regs _ (by decide))
    (frame_put (CE_EST_RVALID n) 0 (R.regs _ (by decide)) (frame_put (CE_EST_CVALID n) 0 (R.regs _ (by decide))
      (frame_putResr R _ (frame_putCest R _ h))))))

theorem frame_bypassTrig (cause : Nat) (h : Frame W S d e) : Frame W S d (bypassTrig n cause e) := frame_onCell n _ R.cells R.cell h

theorem frame_suspectTimedOut (h : Frame W S d e) : Frame W S d (suspectTimedOut n e) := frame_ite (frame_bypassTrig R 3 h) h

theorem frame_diagTimedOut (h : Frame W S d e) : Frame W S d (diagTimedOut n e) :=
  frame_ite (frame_onCell n _ R.cells R.cell (frame_put (CE_DIAGRES_STATUS n) 5 (R.regs _ (by decide)) h)) h

theorem frame_estWindow (h : Frame W S d e) : Frame W S d (estWindow n e) := by
  unfold estWindow
  extract_lets c cnom rnom sh cok rok cw rw ce re cest resr valid cr rr wear shown span cage rage ceol
  have hcest : Frame W S d cest := frame_ite (frame_putCest R _ h) h
  have hresr : Frame W S d resr := frame_ite (frame_putResr R _ hcest) hcest
  have hvalid : Frame W S d valid := frame_putB (CE_EST_RVALID n) rok (R.regs _ (by decide))
    (frame_putB (CE_EST_CVALID n) cok (R.regs _ (by decide)) hresr)
  have hwear : Frame W S d wear := frame_put (CE_WEAR_RRATIO n) _ (R.regs _ (by decide))
    (frame_put (CE_WEAR_CRATIO n) cr (R.regs _ (by decide)) hvalid)
  have hshown : Frame W S d shown := frame_foldl _ _ (fun _ p _ hd => frame_tel n p.1 p.2 R.telem hd) hwear
  have hspan : Frame W S d span := frame_ite (frame_setPoint _ _ R.telem (frame_setPoint _ _ R.telem hshown))
    (frame_tel n 39 c.vmax R.telem (frame_tel n 38 c.vmin R.telem hshown))
  have hcage : Frame W S d cage := frame_ite (frame_notice (CE_HEALTH_CAGE n) R.toEvents (R.regs _ (by decide)) hspan) hspan
  have hrage : Frame W S d rage := frame_ite (frame_notice (CE_HEALTH_RAGE n) R.toEvents (R.regs _ (by decide)) hcage) hcage
  have hceol : Frame W S d ceol :=
    frame_ite (frame_bypassTrig R 6 (frame_service (CE_HEALTH_CEOL n) R.toEvents (R.regs _ (by decide)) hrage)) hrage
  exact frame_ite h (frame_estRestart R hceol)

end cell

/-- What a command of an engine may change: its registers, and those any command may change. -/
def cellOnly (n a : Nat) : Prop := cellRegs n a ∨ sideRegs a

/-- The parts of one engine, of telemetry, of events and the recorder. -/
def cellPart (n : Nat) : Part → Prop
  | .cells | .telem | .fc | .dr => True
  | .cell k => k = n
  | _ => False

theorem cellRoom (n : Nat) : CellRoom n (cellOnly n) (cellPart n) where
  toEvents := events_of_side (fun _ h => .inr h) trivial trivial
  regs k hk := .inl (by unfold cellRegs CE_STAT; omega)
  cells := trivial
  cell := rfl
  telem := trivial

theorem cellOnly_mode (n : Nat) : ¬ cellOnly n GL_MODE := by
  unfold cellOnly cellRegs sideRegs CE_STAT
  rintro (h | h)
  · exact absurd h.1 (by unfold GL_MODE; omega)
  · exact absurd h (by decide)

/-- Settles O27, by the footprints of the operations of an engine. -/
theorem cellFrame : Obligations.CellFrame := by
  intro n s t c h hc hx
  have R := cellRoom n.val
  have r := frame_refl (W := cellOnly n.val) (S := cellPart n.val) s.dev
  have run (g : Dev → Dev) (hx : Host.Outcome.next (running g s) = (.next t : Host.Outcome State Fault Refusal))
      (hg : Frame (cellOnly n.val) (cellPart n.val) s.dev (g s.dev)) :
      s.keepsRest t ∧ Frame (cellOnly n.val) (cellPart n.val) s.dev t.dev :=
    running_frame h hx hg (cellOnly_mode _) (.inr (.inr (.inr rfl))) nofun nofun
  have key : s.keepsRest t ∧ Frame (cellOnly n.val) (cellPart n.val) s.dev t.dev := by
    rcases hc with rfl | rfl | rfl
    · exact run _ hx (frame_suspectTimedOut R r)
    · exact run _ hx (frame_estWindow R r)
    · exact run _ hx (frame_diagTimedOut R r)
  obtain ⟨hrest, hf⟩ := key
  refine ⟨hrest, hf.words, fun m hm => hf.parts (.cell m) hm, ?_⟩
  rw [show t.dev.lanes = _ from hf.parts .lanes nofun, show t.dev.quires = _ from hf.parts .quires nofun,
    show t.dev.regions = _ from hf.parts .regions nofun, show t.dev.ains = _ from hf.parts .ains nofun,
    show t.dev.groups = _ from hf.parts .groups nofun, show t.dev.adq = _ from hf.parts .adq nofun,
    show t.dev.snaps = _ from hf.parts .snaps nofun, show t.dev.sent = _ from hf.parts .sent nofun,
    show t.dev.tm = _ from hf.parts .tm nofun, show t.dev.sf = _ from hf.parts .sf nofun, show t.dev.fb = _ from hf.parts .fb nofun,
    show t.dev.nt = _ from hf.parts .nt nofun, show t.dev.tw = _ from hf.parts .tw nofun,
    show t.dev.su = _ from hf.parts .su nofun, show t.dev.jtag = _ from hf.parts .jtag nofun]

end Sys2Proof.Machine
end

section
/-! PROOFS. How an obligation about one command is read: what a command answers whose effect is quiet, and fields read after the
operations of registers. With it the step (O1) and the state at power-up (O2). -/

namespace Sys2Proof.Machine

variable {c : Instr} {s : State} {P : State → Prop} {d e : Dev}

/-! ## What a command answers -/

/-- A command of a part that STOP makes inert, on a device that is awake. -/
theorem answers_running {f : Dev → Dev} (hc : exec c s = .next (running f s)) (h : s.awake) (q : Quiet s.dev (f s.dev))
    (hP : P { s with dev := tripOutRelease (f s.dev) }) : Answers c s P := ⟨_, hc, by rwa [running_quiet h q]⟩

theorem answers_within {f : Dev → Dev} (hc : exec c s = .next (within f s)) (h : s.awake) (q : Quiet s.dev (f s.dev))
    (hP : P { s with dev := tripOutRelease (f s.dev) }) : Answers c s P := ⟨_, hc, by rwa [within_quiet h q]⟩

theorem answers_whole_quiet {f : State → State} (hc : exec c s = .next (whole f s)) (h : s.awake) (q : Quiet s.dev (f s).dev)
    (hP : P { f s with dev := tripOutRelease (f s).dev, pending := s.pending }) : Answers c s P :=
  ⟨_, hc, by rwa [whole_quiet h q]⟩

theorem answers_wholeRunning {f : State → State} (hc : exec c s = .next (wholeRunning f s)) (h : s.awake)
    (q : Quiet s.dev (f s).dev) (hP : P { f s with dev := tripOutRelease (f s).dev, pending := s.pending }) : Answers c s P :=
  ⟨_, hc, by rwa [wholeRunning_quiet h q]⟩

/-- The same where the effect may change the mode, as long as it is not STOP that is entered. -/
theorem answers_running_calm {f : Dev → Dev} (hc : exec c s = .next (running f s)) (h : s.awake)
    (hm : (f s.dev).mode ≠ modeSTOP) (hq : (f s.dev).fc.stopReq = false)
    (hP : P { s with dev := tripOutRelease (f s.dev) }) : Answers c s P :=
  ⟨_, hc, by rwa [running, if_neg h.2.1, within, if_pos h.1, settle_calm _ _ h.2.1 hm hq]⟩

/-! ## A footprint with nothing but trip outputs -/

/-- What settles after a quiet step. -/
theorem frame_settled (d : Dev) : Frame (· = FC_TRIPSTAT) (fun _ => False) d (tripOutRelease d) :=
  frame_tripOutRelease rfl (frame_refl d)

/-! ## Fields after they were stored -/

theorem get_put_lt (d : Dev) (f : Fld) (v : Nat) (h : f.lsb + f.width ≤ 32) (hv : v < 2 ^ f.width) : (d.put f v).get f = v :=
  (get_put_same d f v h).trans (Nat.mod_eq_of_lt hv)

theorem flag_iff (d : Dev) (f : Fld) : d.flag f = true ↔ d.get f ≠ 0 := by simp [Dev.flag]

theorem flag_of_get_one {f : Fld} (h : d.get f = 1) : d.flag f = true := by simp [Dev.flag, h]

theorem flag_of_get_zero {f : Fld} (h : d.get f = 0) : d.flag f = false := by simp [Dev.flag, h]

theorem flag_congr {f : Fld} (h : d.get f = e.get f) : d.flag f = e.flag f := by simp only [Dev.flag, h]

theorem flag_put_one (d : Dev) (f : Fld) (h : f.lsb + f.width ≤ 32) (hw : 0 < f.width) : (d.put f 1).flag f = true :=
  flag_of_get_one (get_put_lt d f 1 h (Nat.one_lt_two_pow hw.ne'))

theorem flag_put_zero (d : Dev) (f : Fld) (h : f.lsb + f.width ≤ 32) : (d.put f 0).flag f = false :=
  flag_of_get_zero (get_put_lt d f 0 h (Nat.two_pow_pos _))

theorem get_putB_same (d : Dev) (f : Fld) (b : Bool) (h : f.lsb + f.width ≤ 32) (hw : 0 < f.width) :
    (d.putB f b).get f = b2n b := by
  refine get_put_lt d f _ h (Nat.lt_of_lt_of_le ?_ (Nat.pow_le_pow_right (by decide) hw))
  cases b <;> decide

theorem flag_putB_same (d : Dev) (f : Fld) (b : Bool) (h : f.lsb + f.width ≤ 32) (hw : 0 < f.width) :
    (d.putB f b).flag f = b := by
  rw [Dev.flag, get_putB_same d f b h hw]
  cases b <;> rfl

theorem flag_put_ne (d : Dev) (f g : Fld) (v : Nat) (h : f.addr ≠ g.addr) : (d.put f v).flag g = d.flag g :=
  flag_congr (get_put_ne d f g v h)

theorem flag_put_disj (d : Dev) (f g : Fld) (v : Nat) (hg : g.lsb + g.width ≤ 32)
    (h : g.lsb + g.width ≤ f.lsb ∨ f.lsb + f.width ≤ g.lsb) : (d.put f v).flag g = d.flag g :=
  flag_congr (get_put_disj d f g v hg h)

theorem flag_raise_same (d : Dev) (f : Fld) (c : Cls) (hw : f.width = 1) (hl : f.lsb < 32) (h1 : f.addr ≠ NT_EVT)
    (h2 : f.addr ≠ NT_CNT1) : (d.raise f c).flag f = true := flag_of_get_one (get_raise_same d f c hw hl h1 h2)

theorem flag_raise_ne (d : Dev) (f g : Fld) (c : Cls) (h : f.addr ≠ g.addr) (h1 : g.addr ≠ NT_EVT) (h2 : g.addr ≠ NT_CNT1) :
    (d.raise f c).flag g = d.flag g := flag_congr (get_raise_ne d f g c h h1 h2)

/-! ## Single bits -/

/-- The bits of a number after one has been set. -/
theorem testBit_setBit (n i j : Nat) : (setBit n i).testBit j = (n.testBit j || decide (j = i)) := by
  unfold setBit
  split
  case isTrue h =>
    by_cases hji : j = i
    · subst hji; simpa [bitOf_eq_testBit] using h
    · simp [hji]
  case isFalse h =>
    have hi : n.testBit i = false := by simpa [bitOf_eq_testBit] using h
    by_cases hji : j = i
    · subst hji; rw [Nat.add_comm, Nat.testBit_two_pow_add_eq, hi]; simp
    · have key : n = clrBit (n + 2 ^ i) i := by
        have : bitOf (n + 2 ^ i) i = true := by
          rw [bitOf_eq_testBit, Nat.add_comm, Nat.testBit_two_pow_add_eq, hi]; rfl
        simp [clrBit, this]
      have := testBit_clrBit (n + 2 ^ i) i j
      rw [← key] at this
      simpa [hji] using this.symm

/-- Bit `j` of a field after bit `i` has been stored. -/
theorem bit_putBit (d : Dev) (f : Fld) (i j : Nat) (b : Bool) (h : f.lsb + f.width ≤ 32) (hj : j < f.width) :
    (d.putBit f i b).bit f j = if j = i then b else d.bit f j := by
  simp only [Dev.bit, Dev.putBit, get_put_same _ _ _ h, bitOf_eq_testBit, Nat.testBit_mod_two_pow, hj, decide_true, Bool.true_and]
  cases b
  · by_cases hji : j = i <;> simp [testBit_clrBit, hji]
  · by_cases hji : j = i <;> simp [testBit_setBit, hji]

theorem bit_congr {f : Fld} {i : Nat} (h : d.get f = e.get f) : d.bit f i = e.bit f i := by simp only [Dev.bit, h]

/-- A bit of a sticky field reads 1 after it has set. -/
theorem bit_raiseBit_same (d : Dev) (f : Fld) (i : Nat) (c : Cls) (h : f.lsb + f.width ≤ 32) (hi : i < f.width)
    (h1 : f.addr ≠ NT_EVT) (h2 : f.addr ≠ NT_CNT1) : (d.raiseBit f i c).bit f i = true := by
  have hw := raiseBit_own d f i c h1 h2
  split at hw
  case isTrue hb => exact (bit_congr (get_congr _ _ _ hw)).trans hb
  case isFalse => exact (bit_congr (get_congr _ _ _ hw)).trans ((bit_putBit d f i i true h hi).trans (if_pos rfl))

/-! ## Signed fields -/

/-- A value inside the signed format reads back from its code. -/
theorem toS_ofS {w : Nat} {x : Int} (hw : 0 < w) (hlo : -(2 ^ (w - 1) : Nat) ≤ x) (hhi : x < (2 ^ (w - 1) : Nat)) :
    toS w (ofS w x % 2 ^ w) = x := by
  have hpow : 2 ^ w = 2 * 2 ^ (w - 1) := by rw [← Nat.pow_succ', Nat.succ_eq_add_one, Nat.sub_add_cancel hw]
  unfold toS ofS
  rw [Nat.mod_mod, hpow]
  generalize 2 ^ (w - 1) = k at *
  rcases Int.lt_or_le x 0 with hx | hx
  · have hr : x % ((2 * k : Nat) : Int) = x + (2 * k : Nat) := by
      rw [← Int.add_emod_right]; exact Int.emod_eq_of_lt (by omega) (by omega)
    rw [hr, Nat.mod_eq_of_lt (by omega), if_neg (by omega)]; omega
  · rw [Int.emod_eq_of_lt hx (by omega), Nat.mod_eq_of_lt (by omega), if_pos (by omega)]; omega

/-- A signed field after a value inside its format was stored. -/
theorem getS_putS_same (d : Dev) (f : Fld) (x : Int) (h : f.lsb + f.width ≤ 32) (hw : 0 < f.width)
    (hlo : -(2 ^ (f.width - 1) : Nat) ≤ x) (hhi : x < (2 ^ (f.width - 1) : Nat)) : (d.putS f x).getS f = x := by
  rw [Dev.getS, Dev.putS, get_put_same _ _ _ h, toS_ofS hw hlo hhi]

/-- Saturation stays inside its bounds. -/
theorem satI_bounds {x lo hi : Int} (h : lo ≤ hi) : lo ≤ satI x lo hi ∧ satI x lo hi ≤ hi := by
  unfold satI; split
  · omega
  split <;> omega

/-! ## Addresses

Registers of one unit have addresses that differ by a constant; those of the units lie above those of the chip. -/

theorem off_ne {k m : Nat} (b : Nat) (h : k ≠ m) : k + b ≠ m + b := fun e => h (Nat.add_right_cancel e)

theorem above_ne {k m : Nat} (b : Nat) (h : m < k) : k + b ≠ m := by omega

theorem below_ne {k m : Nat} (b : Nat) (h : m < k) : m ≠ k + b := by omega

end Sys2Proof.Machine

open Sys2Proof Machine

/-- Settles O1, by the two cases of the queue. -/
theorem stepRunsFront : Obligations.StepRunsFront := by
  unfold Obligations.StepRunsFront
  intro s
  exact ⟨fun c rest h => by simp [step, h], fun h => by cases s; cases h; rfl⟩

/-- Settles O2: no register, no point and no slot of the recorder memory is listed at power-up, and no operation runs on the fuses. -/
theorem resetState : Obligations.ResetState := by
  unfold Obligations.ResetState
  have hinv : State.reset.Inv := ⟨rfl, by unfold Fuse.wf; decide, rfl⟩
  exact ⟨fun _ => rfl, rfl, by decide, rfl, rfl, fun _ => rfl, rfl, hinv⟩

end

section
/-! PROOFS. Steps of station time: phase steps, alignment, correction, slew and jump (O11). -/

namespace Sys2Proof.Machine

variable {s : State} {d e : Dev}

/-! ## Quiet footprints -/

/-- Everything but the mode. -/
abbrev calmRegs (a : Nat) : Prop := a ≠ GL_MODE

/-- Everything but the release from reset and the waiting STOP source. -/
def calmParts : Part → Prop
  | .stopReq | .released => False
  | _ => True

/-- An operation whose footprint leaves the mode, the release and the waiting STOP source is quiet. -/
theorem quiet_of_frame (h : Frame calmRegs calmParts d e) : Quiet d e := h.quiet (fun k => k rfl) id id

theorem calmEvents : Events calmRegs calmParts := ⟨by decide, by decide, trivial, trivial⟩

theorem calmRefuse (a : Nat) (h : refuseRegs a) : calmRegs a := by rcases h with rfl | rfl | rfl <;> decide

theorem calmClockRoom : ClockRoom calmRegs calmParts where
  toEvents := calmEvents
  regs a h := by unfold calmRegs GL_MODE; omega
  refuse := calmRefuse
  tm := trivial

/-! ## Writes of a group -/

theorem shellWrite_accepted {o : Origin} {g : Group} {ok : Bool} {eff : Dev → Dev} (hw : d.writable = true)
    (hp : d.permits o g = true) (hok : ok = true) : shellWrite o g ok eff d = (true, eff d) := by
  simp [shellWrite, hw, hp, hok]

theorem shellWrite_refused {o : Origin} {g : Group} {ok : Bool} {eff : Dev → Dev} (hok : ok = false) :
    shellWrite o g ok eff d = (false, d.refuse o) := by
  simp [shellWrite, hok]

theorem writable_of_awake (h : s.awake) (hl : s.dev.mode ≠ modeLOAD) : s.dev.writable = true := by
  obtain ⟨-, hstop, -⟩ := h
  simp [Dev.writable, hl, hstop]

/-- What a command answers that writes a register of a group, where the write is accepted. -/
theorem answers_shellWrite {c : Instr} {P : State → Prop} {o : Origin} {g : Group} {ok : Dev → Bool} {eff : Dev → Dev}
    (hc : exec c s = .next (within (fun d => (shellWrite o g (ok d) eff d).2) s)) (h : s.awake) (hl : s.dev.mode ≠ modeLOAD)
    (hp : s.dev.permits o g = true) (hok : ok s.dev = true) (q : Quiet s.dev (eff s.dev))
    (hP : P { s with dev := tripOutRelease (eff s.dev) }) : Answers c s P := by
  have hacc : (shellWrite o g (ok s.dev) eff s.dev).2 = eff s.dev := by
    rw [shellWrite_accepted (writable_of_awake h hl) hp hok]
  refine answers_within hc h ?_ ?_ <;> rwa [hacc]

/-! ## Signed register values -/

theorem toS_toNat {n : Nat} (w : BitVec n) : toS n w.toNat = w.toInt := by
  have hlt := w.isLt
  unfold toS
  rw [BitVec.toInt_eq_toNat_cond, Nat.mod_eq_of_lt hlt]
  cases n with
  | zero => simp [BitVec.toNat_of_zero_length]
  | succ k =>
    rw [Nat.pow_succ, Nat.add_sub_cancel] at *
    split <;> split <;> omega

/-! ## The alignment rule (R271) -/

theorem alignStep_tm (u : Int) (label : Nat) (d : Dev) :
    (alignStep u label d).tm = { d.tm with label := label, pllT := { d.tm.pllT with stepGap := 8 } } := rfl

/-- A label never lags its own grid point by more than it is worth. -/
theorem tickRho_le_label (d : Dev) : tickRho d ≤ d.tm.label := by unfold tickRho; omega

theorem timebaseAlign_leads (ht : d.flag PL_STAT_TLOCK = true) (hg : d.tm.pllT.stepGap = 0) (hr : (2 ^ 24 : Int) ≤ tickRho d) :
    timebaseAlign d = alignStep 1 (d.tm.label - 2 ^ 24) d := by
  unfold timebaseAlign
  rw [if_neg (by simp [ht, hg])]
  exact if_pos hr

theorem timebaseAlign_lags (ht : d.flag PL_STAT_TLOCK = true) (hg : d.tm.pllT.stepGap = 0) (hr : tickRho d ≤ -(2 ^ 24 : Int)) :
    timebaseAlign d = alignStep (-1) (d.tm.label + 2 ^ 24) d := by
  unfold timebaseAlign
  rw [if_neg (by simp [ht, hg])]
  exact (if_neg (by omega)).trans (if_pos hr)

theorem timebaseAlign_spaced (hg : d.tm.pllT.stepGap ≠ 0) : timebaseAlign d = d := by
  simp [timebaseAlign, hg]

/-- The alignment step. -/
theorem answers_timebaseAlign (h : s.awake) {P : State → Prop} (hP : P { s with dev := tripOutRelease (timebaseAlign s.dev) }) :
    Answers .timebaseAlignStep s P :=
  answers_running rfl h (quiet_of_frame (frame_timebaseAlign calmClockRoom (frame_refl _))) hP

/-- The alignment clause of O11. -/
theorem timebaseAlign_steps (h : s.awake) (ht : s.dev.flag PL_STAT_TLOCK = true) :
    (s.dev.tm.pllT.stepGap = 0 →
      ((2 ^ 24 : Int) ≤ tickRho s.dev → Answers .timebaseAlignStep s fun t =>
        t.dev.tm.label + 2 ^ 24 = s.dev.tm.label ∧ t.dev.tm.pllT.stepGap = 8) ∧
      (tickRho s.dev ≤ -(2 ^ 24 : Int) → Answers .timebaseAlignStep s fun t =>
        t.dev.tm.label = s.dev.tm.label + 2 ^ 24 ∧ t.dev.tm.pllT.stepGap = 8)) ∧
    (s.dev.tm.pllT.stepGap ≠ 0 → Answers .timebaseAlignStep s fun t => t.dev.tm = s.dev.tm) := by
  refine ⟨fun hg => ⟨fun hr => answers_timebaseAlign h ?_, fun hr => answers_timebaseAlign h ?_⟩,
    fun hg => answers_timebaseAlign h ?_⟩
  · have hle := tickRho_le_label s.dev
    rw [timebaseAlign_leads ht hg hr, tripOutRelease_tm, alignStep_tm]
    exact ⟨Nat.sub_add_cancel (by omega), rfl⟩
  · rw [timebaseAlign_lags ht hg hr, tripOutRelease_tm, alignStep_tm]
    exact ⟨rfl, rfl⟩
  · rw [timebaseAlign_spaced hg, tripOutRelease_tm]

/-! ## Slew (R272) -/

theorem addSlew_slew (x : Int) (d : Dev) : (addSlew x d).tm.slew =
    satI (d.tm.slew + x) (-((16000 * d.get TM_JMPCFG_JMAX * 2 ^ 28 : Nat) : Int)) (16000 * d.get TM_JMPCFG_JMAX * 2 ^ 28 : Nat) := rfl

theorem addSlew_shown (x : Int) (d : Dev) : (addSlew x d).flag TM_STAT_SLEWING = true ↔ (addSlew x d).tm.slew ≠ 0 := by
  unfold addSlew
  rw [flag_putB_same _ _ _ (by decide) (by decide)]
  exact bne_iff_ne

/-! ## Corrections (R272) -/

theorem getS_put_toNat (d : Dev) (f : Fld) (w : BitVec f.width) (h : f.lsb + f.width ≤ 32) : (d.put f w.toNat).getS f = w.toInt := by
  rw [Dev.getS, get_put_lt d f _ h w.isLt, toS_toNat]

/-- The clause of TM_INCR of O11. -/
theorem tmIncr_writes (h : s.awake) (o : Origin) (w : BitVec 32) (hl : s.dev.mode ≠ modeLOAD) (hp : s.dev.permits o .time = true) :
    (w.toInt.natAbs ≤ 0xD1B71 → Answers (.tmIncrWrite o w) s fun t => t.dev.getS TM_INCR_CORR = w.toInt) ∧
    (0xD1B71 < w.toInt.natAbs → o ≠ .sup → Answers (.tmIncrWrite o w) s fun t =>
      t.dev.word TM_INCR = s.dev.word TM_INCR ∧ t.dev.flag FC_CHIP_WREF = true) := by
  have hok : absN (toS 32 w.toNat) = w.toInt.natAbs := by rw [toS_toNat, absN]
  constructor
  · intro hw
    refine answers_shellWrite rfl h hl hp (by simpa [hok] using hw) (quiet_put _ _ (quiet_refl _) (by decide)) ?_
    exact (Frame.getS (frame_settled _) TM_INCR_CORR (by decide)).trans (getS_put_toNat s.dev TM_INCR_CORR w (by decide))
  · intro hw ho
    have href : (wrTmIncr o w s.dev).2 = s.dev.refuse o := by
      rw [wrTmIncr, shellWrite_refused (by simpa [hok] using hw)]
    refine answers_within (f := fun d => (wrTmIncr o w d).2) rfl h ?_ ⟨?_, ?_⟩
    · rw [href]; exact quiet_refuse o (quiet_refl _)
    · rw [href, tripOutRelease_word _ _ (by decide)]
      exact refuse_word o s.dev _ (by unfold refuseRegs; decide) (by decide) (by decide)
    · rw [href, tripOutRelease_flag _ _ (by decide)]
      exact refuse_wref o s.dev ho

end Sys2Proof.Machine

open Sys2Proof Machine

/-- Settles O11, by the effect of each write of a group and the three cases of the alignment rule. -/
theorem timebaseSteps : Obligations.TimebaseSteps := by
  unfold Obligations.TimebaseSteps
  intro s h
  refine ⟨fun o n hl hp hlock => ?_, timebaseAlign_steps h, fun o w hl hp => ?_⟩
  · have hn : toS 8 (n.setWidth 32).toNat = n.toInt := by
      rw [BitVec.toNat_setWidth, Nat.mod_eq_of_lt (Nat.lt_trans n.isLt (by decide)), toS_toNat]
    refine answers_shellWrite rfl h hl hp rfl ?_ ?_
    · rw [if_pos hlock]; exact quiet_of_word (quiet_refl _) rfl rfl rfl
    · rw [if_pos hlock, tripOutRelease_tm, hn]; rfl
  · obtain ⟨haccept, hrefuse⟩ := tmIncr_writes h o w hl hp
    refine ⟨haccept, hrefuse, ?_, ?_⟩
    · refine answers_shellWrite rfl h hl hp rfl (quiet_of_frame (frame_addSlew calmClockRoom _ (frame_refl _))) ?_
      rw [tripOutRelease_tm, tripOutRelease_flag _ _ (by decide), toS_toNat]
      exact ⟨addSlew_slew _ _, addSlew_shown _ _⟩
    · refine answers_shellWrite rfl h hl hp rfl (quiet_put _ _ (quiet_of_word (quiet_refl _) rfl rfl rfl) (by decide)) ?_
      rw [tripOutRelease_tm, tripOutRelease_flag _ _ (by decide)]
      exact ⟨flag_put_one _ _ (by decide) (by decide), rfl⟩

end

section
/-! PROOFS. The footprint of planning up to the vote (O34). -/

namespace Sys2Proof.Machine

variable {W : Nat → Prop} {S : Part → Prop} {d e : Dev} {g c : Nat}

/-- Room for the registers of a region with its modulator and channels, its state, and events. -/
structure RegionRoom (g : Nat) (W : Nat → Prop) (S : Part → Prop) : Prop extends Events W S where
  regs : ∀ k, k < 0x2000 → W (k + 0x30000 + 0x2000 * g)
  regions : S .regions
  region : S (.region g)

/-- Room for a hand-over to the twin besides (R238). -/
structure HandRoom (g : Nat) (W : Nat → Prop) (S : Part → Prop) : Prop extends RegionRoom g W S where
  twstat : W GL_TWSTAT
  sent : S .sent
  tw : S .tw

/-- Room for the channels of a region alone: their registers, the region's state, and events. -/
structure ChanRoom (g : Nat) (W : Nat → Prop) (S : Part → Prop) : Prop extends Events W S where
  regs : ∀ k, 0x600 ≤ k ∧ k < 0x2000 → W (k + 0x30000 + 0x2000 * g)
  regions : S .regions
  region : S (.region g)

/-- Room for the channels of a region and a hand-over to the twin. -/
structure GiveUpRoom (g : Nat) (W : Nat → Prop) (S : Part → Prop) : Prop extends ChanRoom g W S where
  twstat : W GL_TWSTAT
  sent : S .sent
  tw : S .tw

theorem RegionRoom.chans (R : RegionRoom g W S) : ChanRoom g W S := ⟨R.toEvents, fun k hk => R.regs k hk.2, R.regions, R.region⟩
theorem HandRoom.gives (H : HandRoom g W S) : GiveUpRoom g W S := ⟨H.toRegionRoom.chans, H.twstat, H.sent, H.tw⟩

section region
variable (R : RegionRoom g W S)
include R

/-- The registers of one target: its value and its reference. -/
theorem RegionRoom.target {k : Nat} (hk : k < 4) : W (tgtFld g k).addr ∧ W (refFld g k).addr := by
  have htgt := R.regs (0x60 + 0x4 * k) (by omega)
  have href := R.regs (0x50 + 0x4 * k) (by omega)
  unfold tgtFld refFld RG_TGT3_TGT RG_TGT_TGT RG_REF3_REF RG_REF_REF RG_TGT3 RG_TGT RG_REF3 RG_REF
  constructor <;> split
  · subst k; exact htgt
  · convert htgt using 1; dsimp only; omega
  · subst k; exact href
  · convert href using 1; dsimp only; omega

theorem frame_region (f : RegionSt → RegionSt) (h : Frame W S d e) : Frame W S d (e.onRegion g f) :=
  frame_onRegion g f R.regions R.region h

theorem frame_regionSt (x : RegionSt) (h : Frame W S d e) : Frame W S d (e.setRegionSt g x) :=
  frame_setRegionSt g x R.regions R.region h

theorem frame_onChan (c : Nat) (f : Chan → Chan) (h : Frame W S d e) : Frame W S d (e.onChan g c f) := frame_region R _ h

/-! ## Mull sets -/

theorem frame_setMull (m : Mull) (h : Frame W S d e) : Frame W S d (setMull g m e) :=
  frame_put (RG_FBSTAT_HOLDCNT g) _ (R.regs _ (by decide)) (frame_put (RG_MODHOLD_HOLDRUN g) _ (R.regs _ (by decide))
    (frame_putB (RG_MODSTAT_CSGN g) _ (R.regs _ (by decide)) (frame_region R _ h)))

theorem frame_ownEach (f : Mull → Mull) (h : Frame W S d e) : Frame W S d (ownEach g f e) :=
  frame_foldN 3 _ (fun _ c _ hd => frame_onChan R c _ hd) h

theorem frame_onMull (f : Mull → Mull) (h : Frame W S d e) : Frame W S d (onMull g f e) :=
  frame_ownEach R f (frame_setMull R _ h)

theorem frame_keepOwn (c : Nat) (now base : Mull) (h : Frame W S d e) : Frame W S d (keepOwn g c now base e) :=
  frame_onChan R c _ h

/-! ## The law -/

theorem frame_showState (h : Frame W S d e) : Frame W S d (showState g e) := by
  unfold showState
  extract_lets n shown
  exact frame_putB (RG_LAWSTAT_ZFRZ g) _ (R.regs _ (by decide))
    (frame_foldN 4 _ (fun _ t ht hd => frame_put (refFld g t) _ (R.target ht).2 hd) h)

theorem frame_lawEnter (i : LawIn) (h : Frame W S d e) : Frame W S d (lawEnter g i e) := by
  unfold lawEnter
  extract_lets c set shown
  exact frame_foldN 4 _ (fun _ t ht hd => frame_ite hd (frame_put (tgtFld g t) _ (R.target ht).1 hd))
    (frame_showState R (frame_region R _ (frame_onMull R _ h)))

theorem frame_feedback (bad miss : Bool) (h : Frame W S d e) : Frame W S d (feedback g bad miss e).2 := by
  have hold (v : Nat) {e : Dev} (h : Frame W S d e) : Frame W S d (e.put (RG_FBSTAT_HOLDCNT g) v) :=
    frame_put (RG_FBSTAT_HOLDCNT g) v (R.regs _ (by decide)) h
  have stat (v : Nat) {e : Dev} (h : Frame W S d e) : Frame W S d (e.put (RG_STAT_FBHOLD g) v) :=
    frame_put (RG_STAT_FBHOLD g) v (R.regs _ (by decide)) h
  have fbexp {e : Dev} (h : Frame W S d e) : Frame W S d (e.raise (RG_LAWSTAT_FBEXP g) (.prot (2 ^ g))) :=
    frame_raise (RG_LAWSTAT_FBEXP g) _ R.toEvents (R.regs _ (by decide)) nofun h
  have hstart : Frame W S d ((e.raise (RG_LAWSTAT_FBLOSS g) .service).bump (RG_LAWCNT_FBHCNT g)) :=
    frame_bump (RG_LAWCNT_FBHCNT g) 1 (R.regs _ (by decide))
      (frame_service (RG_LAWSTAT_FBLOSS g) R.toEvents (R.regs _ (by decide)) h)
  have hgo : Frame W S d (e.bump (RG_FBSTAT_HOLDCNT g)) := frame_bump (RG_FBSTAT_HOLDCNT g) 1 (R.regs _ (by decide)) h
  unfold feedback
  split
  · exact h
  split
  · split
    · exact h
    · exact frame_ite (fbexp (hold 1 (stat 1 hstart))) (hold 1 (stat 1 hstart))
  · dsimp only
    split
    · exact hold 0 (stat 0 hgo)
    split
    · exact fbexp hgo
    · exact hgo

theorem frame_lawPrepare (miss : Bool) (h : Frame W S d e) : Frame W S d (lawPrepare g miss e) := by
  unfold lawPrepare
  extract_lets start x y meas shown rdy fb own _ i fed
  have hmeas : Frame W S d meas := frame_region R _ h
  have hshown : Frame W S d shown := frame_put (RG_FBSTAT_STUCK g) _ (R.regs _ (by decide))
    (frame_put (RG_FBSTAT_STALE g) _ (R.regs _ (by decide)) hmeas)
  have hrdy : Frame W S d rdy := frame_putB (RG_STAT_LAWRDY g) _ (R.regs _ (by decide)) hshown
  have hfed : Frame W S d fed :=
    frame_region R _ (frame_foldN 3 _ (fun _ c _ hd => frame_onChan R c _ hd) (frame_feedback R _ miss hrdy))
  exact frame_ite (frame_lawEnter R i hfed) hfed

theorem frame_lawStore (c : Nat) (o : LawOut) (h : Frame W S d e) : Frame W S d (lawStore g c o e) := by
  unfold lawStore
  extract_lets stored shown clamp
  have hstored : Frame W S d stored := frame_onChan R c _ h
  have hshown : Frame W S d shown := frame_onMull R _ (frame_region R _ hstored)
  have hclamp : Frame W S d clamp := frame_ite (frame_put (RG_LAWSTAT_ICLAMP g) 1 (R.regs _ (by decide)) hshown) hshown
  exact frame_ite (frame_ite (frame_put (RG_LAWSTAT_ULIM g) 1 (R.regs _ (by decide)) hclamp) hclamp) hstored

theorem frame_lawRun (c : Nat) (h : Frame W S d e) : Frame W S d (lawRun g c e) := by
  unfold lawRun
  extract_lets ready
  have hready : Frame W S d ready := frame_ite h (frame_lawPrepare R false h)
  refine frame_ite h ?_
  split
  · exact frame_lawStore R c _ hready
  · exact hready

theorem frame_lawDeadline (h : Frame W S d e) : Frame W S d (lawDeadline g e) := by
  unfold lawDeadline
  extract_lets ready
  have hready : Frame W S d ready := frame_ite (frame_lawPrepare R true h) h
  refine frame_ite h (frame_foldN 3 _ (fun d' c _ hd => ?_) hready)
  exact frame_ite (frame_lawStore R c _ (frame_bump (RG_LAWCNT_LMISSCNT g) 1 (R.regs _ (by decide))
    (frame_notice (RG_LAWSTAT_LMISS g) R.toEvents (R.regs _ (by decide)) hd))) hd

/-! ## Gatherings and run-ahead plans -/

theorem frame_reportDeadlineD (h : Frame W S d e) : Frame W S d (reportDeadlineD g e) :=
  frame_ite h (frame_ite (frame_region R _ h) (frame_region R _ (frame_region R _ h)))

theorem frame_gatherDeadlineD (h : Frame W S d e) : Frame W S d (gatherDeadlineD g e) := by
  unfold gatherDeadlineD
  extract_lets r late hold fill past
  have hpast : Frame W S d past := frame_regionSt R _ h
  exact frame_ite h (frame_ite hpast (frame_notice (RG_MODHOLD_GLATE g) R.toEvents (R.regs _ (by decide)) hpast))

theorem frame_regatherDeadlineD (h : Frame W S d e) : Frame W S d (regatherDeadlineD g e) := frame_region R _ h

theorem frame_runAhead (c upset : Nat) (h : Frame W S d e) : Frame W S d (runAhead g c upset e) := by
  unfold runAhead
  dsimp only
  split
  · exact h
  · exact frame_ite h (frame_onChan R c _ h)

end region

/-! ## States of the channels -/

section chans
variable (C : ChanRoom g W S)
include C

/-- The registers of one channel. -/
theorem ChanRoom.chan (hc : c < 3) : W (CH_STAT g c) ∧ W (CH_CNT g c) := by
  have hstat := C.regs (0x640 + 0x20 * c) (by omega)
  have hcnt := C.regs (0x644 + 0x20 * c) (by omega)
  unfold CH_STAT CH_CNT
  exact ⟨by convert hstat using 1; omega, by convert hcnt using 1; omega⟩

theorem frame_chan (c : Nat) (f : Chan → Chan) (h : Frame W S d e) : Frame W S d (e.onChan g c f) :=
  frame_onRegion g _ C.regions C.region h

theorem frame_chanCount (h : Frame W S d e) : Frame W S d (chanCount g e) :=
  frame_putB (CH_VSTAT_STBY g) _ (C.regs _ (by decide)) (frame_put (CH_VSTAT_NACT g) _ (C.regs _ (by decide)) h)

theorem frame_chanGo (hc : c < 3) (st : Nat) (h : Frame W S d e) : Frame W S d (chanGo g c st e) :=
  frame_chanCount C (frame_put (CH_STAT_STATE g c) st (C.chan hc).1 h)

theorem frame_promote (hc : c < 3) (h : Frame W S d e) : Frame W S d (promote g c e) :=
  frame_notice (CH_VEVT_PROMOTE g) C.toEvents (C.regs _ (by decide))
    (frame_bump (CH_CNT_PROMCNT g c) 1 (C.chan hc).2 (frame_chanGo C hc _ h))

theorem frame_chanLost (hc : c < 3) (h : Frame W S d e) : Frame W S d (chanLost g c e) :=
  frame_service (CH_VEVT_LOST g) C.toEvents (C.regs _ (by decide)) (frame_chanGo C hc _ h)

theorem frame_copyDone (c : Nat) (h : Frame W S d e) : Frame W S d (copyDone g c e) := by
  unfold copyDone
  extract_lets copied
  have hcopied : Frame W S d copied := frame_chan C c _ h
  refine frame_ite ?_ h
  split <;> exact frame_chan C c _ hcopied

theorem frame_checkDone (hc : c < 3) (h : Frame W S d e) : Frame W S d (checkDone g c e) :=
  frame_ite (frame_notice (CH_VEVT_RSDONE g) C.toEvents (C.regs _ (by decide)) (frame_chanGo C hc _ h)) h

end chans

theorem mem_chansIn_lt {st : Nat} (h : c ∈ chansIn g st d) : c < 3 := List.mem_range.mp (List.mem_filter.mp h).1

theorem mem_candsIn_lt {st : Nat} {f : Nat → Option Cand} {p : Nat × Nat} (h : p ∈ candsIn g st f d) : p.1 < 3 := by
  obtain ⟨c, hc, hp⟩ := List.mem_filterMap.mp h
  obtain ⟨k, -, rfl⟩ := Option.map_eq_some_iff.mp hp
  exact mem_chansIn_lt hc

/-! ## Hand-over and give-up -/

theorem frame_tgivSend (hs : S .sent) (h : Frame W S d e) : Frame W S d (tgivSend e) :=
  frame_foldl _ _ (fun _ _ _ hd => frame_foldN 16 _ (fun _ _ _ hd => frame_ite (frame_send _ hs hd) hd) hd) h

theorem frame_handOver (hs : S .sent) (ht : S .tw) (hw : W GL_TWSTAT) (h : Frame W S d e) : Frame W S d (handOver e) :=
  frame_setTw _ ht (frame_put GL_TWSTAT_ROLE _ hw (frame_tgivSend hs h))

section gives
variable (H : GiveUpRoom g W S)
include H

theorem frame_soleOr (f : Fld) (hf : W f.addr) (h : Frame W S d e) : Frame W S d (soleOr g f e) :=
  frame_ite (frame_handOver H.sent H.tw H.twstat h) (frame_raise f _ H.toEvents hf nofun h)

theorem frame_noAgree (h : Frame W S d e) : Frame W S d (noAgree g e) :=
  frame_soleOr H (CH_VEVT_NOAGREE g) (H.regs _ (by decide)) (frame_onRegion g _ H.regions H.region h)

theorem frame_giveUp (hc : c < 3) (cause : Nat) (h : Frame W S d e) : Frame W S d (giveUp g c cause e) := by
  have R := H.toChanRoom
  unfold giveUp
  extract_lets st cause shown reset lost check
  have hcause : Frame W S d cause := frame_put (CH_STAT_CAUSE g c) _ (R.chan hc).1 (frame_chanGo R hc _ h)
  have hshown : Frame W S d shown := frame_service (CH_VEVT_GIVEUP g) R.toEvents (R.regs _ (by decide))
    (frame_bump (CH_CNT_GUCNT g c) 1 (R.chan hc).2 hcause)
  have hreset : Frame W S d reset := frame_chan R c _ hshown
  have hlost : Frame W S d lost := frame_ite (frame_chanLost R hc hreset) hreset
  have hcheck : Frame W S d check := frame_foldN 3 _ (fun _ k hk hd => frame_ite
    (frame_notice (CH_VEVT_RSDONE g) R.toEvents (R.regs _ (by decide)) (frame_chanGo R hk _ hd)) hd) hlost
  refine frame_ite h (frame_ite hlost ?_)
  split
  next s l hl => exact frame_promote R (mem_chansIn_lt (hl ▸ List.mem_cons_self)) hcheck
  next => exact frame_ite (frame_soleOr H (CH_VEVT_SOLE g) (R.regs _ (by decide)) hcheck) hcheck

theorem frame_dissent (hc : c < 3) (cause : Nat) (h : Frame W S d e) : Frame W S d (dissent g c cause e) := by
  have R := H.toChanRoom
  unfold dissent
  extract_lets cnt check
  have hcnt : Frame W S d cnt := frame_bump (CH_VCNT_DISCNT g) 1 (R.regs _ (by decide)) h
  have hcheck : Frame W S d check := frame_chan R c _ (frame_bump (CH_STAT_RSFAIL g c) 1 (R.chan hc).1
    (frame_put (CH_STAT_RSOK g c) 0 (R.chan hc).1 hcnt))
  exact frame_ite (frame_ite (frame_giveUp H hc 9 hcheck) hcheck) (frame_giveUp H hc cause hcnt)

theorem frame_dissenters (cause digest : Nat) {ds : List (Nat × Nat)} (hds : ∀ p ∈ ds, p.1 < 3) (h : Frame W S d e) :
    Frame W S d (dissenters g cause digest ds e) :=
  frame_foldl ds _ (fun _ p hp hd => frame_ite hd (frame_dissent H (hds p hp) cause hd)) h

end gives

section hand
variable (H : HandRoom g W S)
include H

/-! ## Votes -/

theorem frame_countHold (h : Frame W S d e) : Frame W S d (countHold g e) := by
  have R := H.toRegionRoom
  unfold countHold
  extract_lets cnt own two
  have hcnt : Frame W S d cnt := frame_bump (RG_MODHOLD_HOLDRUN g) 1 (R.regs _ (by decide))
    (frame_bump (RG_MODHOLD_HOLDCNT g) 1 (R.regs _ (by decide)) h)
  have hown : Frame W S d own := frame_ownEach R _ hcnt
  have htwo : Frame W S d two := frame_ite
    (frame_region R _ (frame_service (RG_MODHOLD_HOLD2 g) R.toEvents (R.regs _ (by decide)) hown)) hown
  exact frame_ite (frame_raise (RG_MODHOLD_HOLD8 g) _ R.toEvents (R.regs _ (by decide)) nofun htwo) htwo

theorem frame_voteSent (src digest : Nat) (f : Nat → Option Cand) (h : Frame W S d e) :
    Frame W S d (voteSent g src digest f e) := by
  have R := H.toRegionRoom
  unfold voteSent
  split
  · exact h
  extract_lets law act ds present shown voted
  have hds : ∀ p ∈ ds, p.1 < 3 := by
    intro p hp
    rcases List.mem_append.mp hp with hp | hp
    · rcases List.mem_append.mp hp with hp | hp <;> exact mem_candsIn_lt hp
    · exact mem_candsIn_lt hp
  have hpresent : Frame W S d present := frame_foldl ds _ (fun _ p hp hd =>
    frame_onChan R p.1 _ (frame_put (CH_CNT_LATE g p.1) 0 (R.chans.chan (hds p hp)).2 hd)) h
  have hvoted : Frame W S d voted := frame_region R _ (frame_put (CH_VSTAT_SRC g) src (R.regs _ (by decide)) hpresent)
  exact frame_dissenters H.gives 5 digest hds (frame_ite (frame_countHold H hvoted) hvoted)

theorem frame_takeHold (h : Frame W S d e) : Frame W S d (takeHold g e) := by
  unfold takeHold
  extract_lets f act done
  have hdone : Frame W S d done := frame_region H.toRegionRoom _ h
  split
  · exact frame_voteSent H _ _ _ hdone
  · exact frame_noAgree H.gives hdone
  · exact hdone

theorem frame_planDeadlineD (h : Frame W S d e) : Frame W S d (planDeadlineD g e) := by
  have hpast := frame_region H.toRegionRoom (fun r => { r with pdlPast := true }) h
  exact frame_ite h (frame_ite (frame_takeHold H hpast) hpast)

theorem frame_comparePlan (hc : c < 3) (upset : Nat) (h : Frame W S d e) : Frame W S d (comparePlan g c upset e) := by
  unfold comparePlan
  dsimp only
  split
  · have hpresent := frame_onChan H.toRegionRoom c (fun x => { x with present := true }) h
    exact frame_ite h (frame_ite hpresent (frame_dissent H.gives hc 5 hpresent))
  · exact h

theorem frame_recomputeD (hc : c < 3) (upset : Nat) (h : Frame W S d e) : Frame W S d (recomputeD g c upset e) := by
  unfold recomputeD
  dsimp only
  refine frame_ite h (frame_ite (frame_comparePlan H hc upset h) ?_)
  split
  · exact frame_ite h (frame_onChan H.toRegionRoom c _ h)
  · exact h

end hand

/-! ## The frame of planning -/

/-- What planning of a region may change: its registers, and those any command may change; with `hand`, GL_TWSTAT besides. -/
def planOnly (hand : Prop) (g a : Nat) : Prop := regionRegs g a ∨ (hand ∧ a = GL_TWSTAT) ∨ sideRegs a

/-- The parts of one region, of events and the recorder; with `hand`, those of a hand-over. -/
def planPart (hand : Prop) (g : Nat) : Part → Prop
  | .regions | .fc | .dr => True
  | .region k => k = g
  | .sent | .tw => hand
  | _ => False

theorem planRoom (hand : Prop) (g : Nat) : RegionRoom g (planOnly hand g) (planPart hand g) where
  toEvents := events_of_side (fun _ h => .inr (.inr h)) trivial trivial
  regs k hk := .inl (by unfold regionRegs RG_STAT; omega)
  regions := trivial
  region := rfl

theorem handRoom (g : Nat) : HandRoom g (planOnly True g) (planPart True g) where
  toRegionRoom := planRoom True g
  twstat := .inr (.inl ⟨trivial, rfl⟩)
  sent := trivial
  tw := trivial

theorem planOnly_mode (hand : Prop) (g : Nat) : ¬ planOnly hand g GL_MODE := by
  unfold planOnly regionRegs sideRegs RG_STAT
  rintro (h | h | h)
  · exact absurd h.1 (by unfold GL_MODE; omega)
  · exact absurd h.2 (by decide)
  · exact absurd h (by decide)

theorem injChan_none {g c : Nat} {d : Dev} (f : Dev → Dev) (h : d.fc.inj = none) : injChan g c f d = f d := by
  simp [injChan, injHit, h]

/-- A running command with the footprint of planning. -/
theorem plan_running {hand : Prop} {s t : State} (h : s.awake) {f : Dev → Dev}
    (hx : Host.Outcome.next (running f s) = (.next t : Host.Outcome State Fault Refusal))
    (hf : Frame (planOnly hand g) (planPart hand g) s.dev (f s.dev)) :
    s.keepsRest t ∧ Frame (planOnly hand g) (planPart hand g) s.dev t.dev :=
  running_frame h hx hf (planOnly_mode _ _) (.inr (.inr (.inr (.inr rfl)))) nofun nofun

/-- The parts that no planning touches. -/
theorem Frame.planned {hand : Prop} (h : Frame (planOnly hand g) (planPart hand g) d e) :
    (e.lanes, e.quires, e.cells, e.ains, e.groups, e.adq, e.telem, e.snaps, e.tm, e.sf, e.fb, e.nt, e.su, e.jtag) =
      (d.lanes, d.quires, d.cells, d.ains, d.groups, d.adq, d.telem, d.snaps, d.tm, d.sf, d.fb, d.nt, d.su, d.jtag) := by
  rw [show e.lanes = _ from h.parts .lanes nofun, show e.quires = _ from h.parts .quires nofun,
    show e.cells = _ from h.parts .cells nofun, show e.ains = _ from h.parts .ains nofun,
    show e.groups = _ from h.parts .groups nofun, show e.adq = _ from h.parts .adq nofun,
    show e.telem = _ from h.parts .telem nofun, show e.snaps = _ from h.parts .snaps nofun,
    show e.tm = _ from h.parts .tm nofun, show e.sf = _ from h.parts .sf nofun, show e.fb = _ from h.parts .fb nofun,
    show e.nt = _ from h.parts .nt nofun, show e.su = _ from h.parts .su nofun, show e.jtag = _ from h.parts .jtag nofun]

/-- Settles O34, by the footprints of the operations of planning. -/
theorem planFrame : Obligations.PlanFrame := by
  intro g s t c h hinj hx
  refine ⟨fun hc => ?_, fun hc => ?_⟩
  · have R := planRoom False g.val
    have r := frame_refl (W := planOnly False g.val) (S := planPart False g.val) s.dev
    have run (f : Dev → Dev) (hx : Host.Outcome.next (running f s) = (.next t : Host.Outcome State Fault Refusal))
        (hf : Frame (planOnly False g.val) (planPart False g.val) s.dev (f s.dev)) := plan_running h hx hf
    have key : s.keepsRest t ∧ Frame (planOnly False g.val) (planPart False g.val) s.dev t.dev := by
      rcases hc with rfl | rfl | rfl | ⟨k, u, rfl⟩ | ⟨k, rfl⟩ | rfl
      · exact run _ hx (frame_reportDeadlineD R r)
      · exact run _ hx (frame_gatherDeadlineD R r)
      · exact run _ hx (frame_regatherDeadlineD R r)
      · exact run _ hx (injChan_none _ hinj ▸ frame_runAhead R _ _ r)
      · exact run _ hx (injChan_none _ hinj ▸ frame_lawRun R _ r)
      · exact run _ hx (frame_lawDeadline R r)
    obtain ⟨hrest, hf⟩ := key
    refine ⟨hrest, fun a ha => hf.words a ?_, fun k hk => hf.parts (.region k) hk, hf.planned, hf.parts .sent id, hf.parts .tw id⟩
    rintro (k | k | k)
    exacts [ha (.inl k), k.1, ha (.inr k)]
  · have H := handRoom g.val
    have r := frame_refl (W := planOnly True g.val) (S := planPart True g.val) s.dev
    have run (f : Dev → Dev) (hx : Host.Outcome.next (running f s) = (.next t : Host.Outcome State Fault Refusal))
        (hf : Frame (planOnly True g.val) (planPart True g.val) s.dev (f s.dev)) := plan_running h hx hf
    have key : s.keepsRest t ∧ Frame (planOnly True g.val) (planPart True g.val) s.dev t.dev := by
      rcases hc with rfl | ⟨k, u, rfl⟩
      · exact run _ hx (frame_planDeadlineD H r)
      · exact run _ hx (injChan_none _ hinj ▸ frame_recomputeD H k.isLt _ r)
    obtain ⟨hrest, hf⟩ := key
    refine ⟨hrest, fun a ha => hf.words a ?_, fun k hk => hf.parts (.region k) hk, hf.planned⟩
    rintro (k | k | k)
    exacts [ha (.inl k), ha (.inr (.inl k.2)), ha (.inr (.inr k))]

end Sys2Proof.Machine
end

section
/-! PROOFS. The footprints of the channel and twin commands (O37). -/

namespace Sys2Proof.Machine

variable {W : Nat → Prop} {S : Part → Prop} {d e : Dev} {g c : Nat}

/-! ## Repairs -/

theorem frame_retireUnit (hS : S .fb) (x u : Nat) (h : Frame W S d e) : Frame W S d (retireUnit x u e) :=
  frame_setFb _ hS (frame_setFb _ hS h)

theorem frame_assignSpare (hS : S .fb) (x u sp : Nat) (h : Frame W S d e) : Frame W S d (assignSpare x u sp e) :=
  frame_setFb _ hS (frame_setFb _ hS h)

theorem frame_fillUnit (hS : S .fb) (x u : Nat) (h : Frame W S d e) : Frame W S d (fillUnit x u e).1 := by
  unfold fillUnit
  split
  · exact frame_assignSpare hS _ _ _ h
  · exact h

theorem frame_dropSpare (hS : S .fb) (x sp : Nat) (h : Frame W S d e) : Frame W S d (dropSpare x sp e).1 := by
  have hbad : Frame W S d (journal 3 x sp 0 { e with fb := { e.fb with spareBad := e.fb.spareBad ++ [(x, sp)] } }) :=
    frame_setFb _ hS (frame_setFb _ hS h)
  unfold dropSpare
  dsimp only
  split
  · exact hbad
  · exact frame_fillUnit hS _ _ hbad

theorem frame_repairUnit (hS : S .fb) (x u : Nat) (bad : Bool) (h : Frame W S d e) : Frame W S d (repairUnit x u bad e).1 := by
  have hretired := frame_retireUnit hS x u h
  unfold repairUnit
  split
  · exact frame_fillUnit hS _ _ hretired
  split
  · split
    · exact hretired
    · exact frame_fillUnit hS _ _ hretired
  · exact frame_dropSpare hS _ _ h

theorem frame_spareCounts (hW : W FB_SPARE) (h : Frame W S d e) : Frame W S d (spareCounts e) :=
  frame_put FB_SPARE_CHEL _ hW (frame_put FB_SPARE_CE _ hW h)

/-- The repairs of a self-test, one for each defective element. -/
theorem frame_selfTestRepairs (hS : S .fb) (bad : List Nat) (unit : Nat → Nat) (ok : Bool) (h : Frame W S d e) :
    Frame W S d (bad.foldl (fun (a : Dev × Bool) k =>
      let x := repairUnit 3 (unit k) false a.1
      (x.1, a.2 && x.2)) (e, ok)).1 :=
  List.foldlRecOn (motive := fun a : Dev × Bool => Frame W S d a.1) bad _ h fun _ ha k _ => frame_repairUnit hS 3 (unit k) false ha

theorem frame_selfTestDone (R : RegionRoom g W S) (hS : S .fb) (hW : W FB_SPARE) (hc : c < 3) (bad : List Nat)
    (h : Frame W S d e) : Frame W S d (selfTestDone g c bad e) := by
  unfold selfTestDone
  extract_lets r tested
  have htested : Frame W S d tested := frame_onChan R c _ (frame_spareCounts hW (frame_selfTestRepairs hS bad _ true h))
  have hstat (x : Fld) (hx : x.addr = CH_STAT g c) {e : Dev} (h : Frame W S d e) : Frame W S d (e.put x 0) :=
    frame_put x 0 (hx ▸ (R.chans.chan hc).1) h
  exact frame_ite h (frame_ite (frame_chanLost R.chans hc htested) (frame_chanGo R.chans hc _
    (hstat (CH_STAT_RSFAIL g c) rfl (hstat (CH_STAT_RSOK g c) rfl (hstat (CH_STAT_RSPROG g c) rfl htested)))))

/-! ## The twin -/

/-- Room for the twin's registers and state, and events. -/
structure TwinRoom (W : Nat → Prop) (S : Part → Prop) : Prop extends Events W S where
  stat : W GL_TWSTAT
  flags : W GL_TWEVT
  cnts : W GL_TWCNT
  tw : S .tw

section twin
variable (T : TwinRoom W S)
include T

theorem frame_onTw (f : TwinSt → TwinSt) (h : Frame W S d e) : Frame W S d (e.onTw f) := frame_setTw _ T.tw h

theorem frame_twinNote (h : Frame W S d e) : Frame W S d (twinNote e) := frame_ite h (frame_onTw T _ h)

theorem frame_twinHeard (h : Frame W S d e) : Frame W S d (twinHeard e) := frame_twinNote T (frame_onTw T _ h)

theorem frame_firstCopy (kind : Nat) (x : TwinHdr) (f : Dev → Dev) (hf : ∀ e, Frame W S d e → Frame W S d (f e))
    (h : Frame W S d e) : Frame W S d (firstCopy kind x f e) := frame_ite h (hf _ (frame_onTw T _ h))

theorem frame_twinArb (r : ArbRec) (h : Frame W S d e) : Frame W S d (twinArb r e) :=
  frame_ite h (frame_onTw T _ (frame_twinHeard T h))

theorem frame_role (v : Nat) (h : Frame W S d e) : Frame W S d (e.put GL_TWSTAT_ROLE v) := frame_put _ v T.stat h

theorem frame_tgivIn (h : Frame W S d e) : Frame W S d (tgivIn e) := by
  have hgone := frame_put GL_TWSTAT_PEERACT 0 T.stat
    (frame_onTw T (fun t => { t with role := roleGIVENUP }) (frame_twinHeard T h))
  exact frame_ite h (frame_ite (frame_bump GL_TWCNT_HOCNT 1 T.cnts
    (frame_notice GL_TWEVT_HANDOVER T.toEvents T.flags (frame_role T _ hgone))) hgone)

theorem frame_twinTimeout (h : Frame W S d e) : Frame W S d (twinTimeout e) := by
  have hnoted : Frame W S d (twinNote ((e.put GL_TWSTAT_PEERACT 0).put GL_TWSTAT_TWUP 0)) :=
    frame_twinNote T (frame_put GL_TWSTAT_TWUP 0 T.stat (frame_put GL_TWSTAT_PEERACT 0 T.stat h))
  exact frame_ite h (frame_ite hnoted (frame_ite
    (frame_raise GL_TWEVT_TWLOST _ T.toEvents T.flags nofun (frame_role T _ hnoted))
    (frame_service GL_TWEVT_TWSILENT T.toEvents T.flags (frame_role T _ hnoted))))

theorem frame_mullDif (h : Frame W S d e) : Frame W S d (mullDif e) :=
  frame_ite (frame_service GL_TWEVT_MULLDIF T.toEvents T.flags (frame_role T _ h)) h

theorem frame_mullTimeoutD (h : Frame W S d e) : Frame W S d (mullTimeoutD e) := frame_ite (frame_mullDif T h) h

theorem frame_twinResynced (h : Frame W S d e) : Frame W S d (twinResynced e) := frame_ite (frame_role T _ h) h

theorem frame_dualFound (h : Frame W S d e) : Frame W S d (dualFound e) := by
  have hdual := frame_service GL_TWEVT_DUAL T.toEvents T.flags h
  exact frame_ite h (frame_ite (frame_role T _ hdual) hdual)

end twin

/-- What a self-test may change: the registers of its region, FB_SPARE, and those any command may change. -/
def testOnly (g a : Nat) : Prop := regionRegs g a ∨ a = FB_SPARE ∨ sideRegs a

/-- The parts of one region, the repairs of the fabric, events and the recorder. -/
def testPart (g : Nat) : Part → Prop
  | .regions | .fc | .dr | .fb => True
  | .region k => k = g
  | _ => False

theorem testRoom (g : Nat) : RegionRoom g (testOnly g) (testPart g) where
  toEvents := events_of_side (fun _ h => .inr (.inr h)) trivial trivial
  regs k hk := .inl (by unfold regionRegs RG_STAT; omega)
  regions := trivial
  region := rfl

/-- What a twin command may change: the twin's registers, and those any command may change. -/
def twinOnly (a : Nat) : Prop := a = GL_TWSTAT ∨ a = GL_TWEVT ∨ a = GL_TWCNT ∨ sideRegs a

/-- The twin, events and the recorder. -/
def twinPart : Part → Prop
  | .fc | .dr | .tw => True
  | _ => False

theorem twinRoom : TwinRoom twinOnly twinPart where
  toEvents := events_of_side (fun _ h => .inr (.inr (.inr h))) trivial trivial
  stat := .inl rfl
  flags := .inr (.inl rfl)
  cnts := .inr (.inr (.inl rfl))
  tw := trivial

/-- The parts that no channel and no twin command touches. -/
def otherParts : List Part := [.lanes, .quires, .cells, .ains, .groups, .adq, .telem, .snaps, .tm, .sf, .nt, .su, .jtag]

theorem Frame.otherParts_eq (h : Frame W S d e) (hS : ∀ p ∈ otherParts, ¬ S p) :
    (e.lanes, e.quires, e.cells, e.ains, e.groups, e.adq, e.telem, e.snaps, e.tm, e.sf, e.nt, e.su, e.jtag) =
      (d.lanes, d.quires, d.cells, d.ains, d.groups, d.adq, d.telem, d.snaps, d.tm, d.sf, d.nt, d.su, d.jtag) := by
  have key (p : Part) (hp : p ∈ otherParts) := h.parts p (hS p hp)
  rw [show e.lanes = _ from key .lanes (by simp [otherParts]), show e.quires = _ from key .quires (by simp [otherParts]),
    show e.cells = _ from key .cells (by simp [otherParts]), show e.ains = _ from key .ains (by simp [otherParts]),
    show e.groups = _ from key .groups (by simp [otherParts]), show e.adq = _ from key .adq (by simp [otherParts]),
    show e.telem = _ from key .telem (by simp [otherParts]), show e.snaps = _ from key .snaps (by simp [otherParts]),
    show e.tm = _ from key .tm (by simp [otherParts]), show e.sf = _ from key .sf (by simp [otherParts]),
    show e.nt = _ from key .nt (by simp [otherParts]), show e.su = _ from key .su (by simp [otherParts]), show e.jtag = _ from key .jtag (by simp [otherParts])]

variable {s t : State} {i : Instr}

/-- The commands of a channel other than its self-test. -/
theorem channel_frame {g : Fin 8} (h : s.awake) (hx : exec i s = .next t)
    (hc : (∃ k x, i = .channelSelfCheckFail g k x) ∨ (∃ k, i = .resyncCopyDone g k) ∨ (∃ k, i = .resyncCheckDone g k)) :
    s.keepsRest t ∧ Frame (planOnly True g.val) (planPart True g.val) s.dev t.dev := by
  have H := handRoom g.val
  have r := frame_refl (W := planOnly True g.val) (S := planPart True g.val) s.dev
  rcases hc with ⟨k, x, rfl⟩ | ⟨k, rfl⟩ | ⟨k, rfl⟩
  · exact plan_running h hx (frame_giveUp H.gives k.isLt _ r)
  · exact plan_running h hx (frame_copyDone H.toRegionRoom.chans _ r)
  · exact plan_running h hx (frame_checkDone H.toRegionRoom.chans k.isLt r)

/-- The self-test of a channel. -/
theorem selfTest_frame {g : Fin 8} {k : Fin 3} {b : List (Fin 18)} (h : s.awake)
    (hx : exec (.channelSelfTestDone g k b) s = .next t) :
    s.keepsRest t ∧ Frame (testOnly g.val) (testPart g.val) s.dev t.dev := by
  have hf := frame_selfTestDone (testRoom g.val) trivial (.inr (.inl rfl)) k.isLt (b.map Fin.val) (frame_refl s.dev)
  refine running_frame h hx hf ?_ (.inr (.inr (.inr (.inr rfl)))) nofun nofun
  unfold testOnly regionRegs sideRegs RG_STAT
  rintro (h | h | h)
  · exact absurd h.1 (by unfold GL_MODE; omega)
  · exact absurd h (by decide)
  · exact absurd h (by decide)

/-- The twin commands. -/
theorem twin_frame (h : s.awake) (hx : exec i s = .next t)
    (hc : (∃ r, i = .twinArbRx r) ∨ i = .tgivRx ∨ i = .twinRecordTimeout ∨ i = .mullTimeout ∨ i = .twinResyncDone ∨
      i = .secondActiveDetect) :
    s.keepsRest t ∧ Frame twinOnly twinPart s.dev t.dev := by
  have T := twinRoom
  have r := frame_refl (W := twinOnly) (S := twinPart) s.dev
  have run (f : Dev → Dev) (hx : Host.Outcome.next (running f s) = (.next t : Host.Outcome State Fault Refusal))
      (hf : Frame twinOnly twinPart s.dev (f s.dev)) : s.keepsRest t ∧ Frame twinOnly twinPart s.dev t.dev :=
    running_frame h hx hf (by unfold twinOnly sideRegs; decide) (.inr (.inr (.inr (.inr (.inr rfl))))) nofun nofun
  rcases hc with ⟨x, rfl⟩ | rfl | rfl | rfl | rfl | rfl
  · exact run _ hx (frame_firstCopy T 0 x.hdr _ (fun _ => frame_twinArb T x.body) r)
  · exact run _ hx (frame_tgivIn T r)
  · exact run _ hx (frame_twinTimeout T r)
  · exact run _ hx (frame_mullTimeoutD T r)
  · exact run _ hx (frame_twinResynced T r)
  · exact run _ hx (frame_dualFound T r)

/-- Settles O37, by the footprints of the operations of channels and twin. -/
theorem channelFrame : Obligations.ChannelFrame := by
  intro c s t h hx
  refine ⟨fun g => ⟨fun hc => ?_, fun hc => ?_⟩, fun hc => ?_⟩
  · obtain ⟨hrest, hf⟩ := channel_frame h hx hc
    refine ⟨hrest, fun a ha => hf.words a ?_, fun k hk => hf.parts (.region k) hk, hf.otherParts_eq ?_, hf.parts .fb id⟩
    · rintro (k | k | k)
      exacts [ha (.inl k), ha (.inr (.inl k.2)), ha (.inr (.inr k))]
    · simp [otherParts, planPart]
  · obtain ⟨k, b, rfl⟩ := hc
    obtain ⟨hrest, hf⟩ := selfTest_frame h hx
    exact ⟨hrest, hf.words, fun k hk => hf.parts (.region k) hk, hf.otherParts_eq (by simp [otherParts, testPart])⟩
  · obtain ⟨hrest, hf⟩ := twin_frame h hx hc
    exact ⟨hrest, hf.words, hf.parts .regions id, hf.otherParts_eq (by simp [otherParts, twinPart]), hf.parts .fb id⟩

end Sys2Proof.Machine
end

section
/-! PROOFS. The footprint of the commands of one measurement group (O40). -/

namespace Sys2Proof.Machine

variable {W : Nat → Prop} {S : Part → Prop} {d e : Dev} {a : Nat}

/-! ## Time that passes

Of the timebase it changes the label, the slew that is left, and the spacing and queue of phase steps, and nothing else. -/

/-- Two states of the timebase that differ at most in what passing time changes. -/
def TimePassed (x y : TimeSt) : Prop := { y with label := x.label, slew := x.slew, pllT := x.pllT, pllS := x.pllS } = x

theorem timePassed_refl (x : TimeSt) : TimePassed x x := rfl

theorem timePassed_label (x : TimeSt) (n : Nat) : TimePassed x { x with label := n } := rfl

theorem timePassed_steps (x : TimeSt) (p q : PllSt) : TimePassed x { x with pllT := p, pllS := q } := rfl

theorem timePassed_trans {x y z : TimeSt} (h : TimePassed x y) (k : TimePassed y z) : TimePassed x z := by
  unfold TimePassed at *
  rw [← k] at h
  exact h

theorem slewTaken_timePassed (x : Int) (d : Dev) : TimePassed d.tm (slewTaken x d).tm := by
  unfold slewTaken
  split <;> rfl

theorem stepsPass_timePassed (n : Nat) (d : Dev) : TimePassed d.tm (stepsPass n d).tm := by
  unfold stepsPass
  extract_lets p k u _ _ e
  have he : TimePassed d.tm e.tm := timePassed_steps _ _ _
  split
  · exact he
  · rw [putS_tm]; exact he

theorem alignShow_tm (k : Int) (d : Dev) : (alignShow k d).tm = d.tm := by
  unfold alignShow
  split
  · rfl
  · rw [putS_tm]

theorem ticksRun_timePassed (n : Nat) (x : Int) (d : Dev) : TimePassed d.tm (ticksRun n x d).tm := by
  unfold ticksRun
  extract_lets r k e
  rw [alignShow_tm]
  exact timePassed_trans (slewTaken_timePassed x d) (timePassed_label e.tm _)

/-- Two runs of ticks after the phase steps. -/
theorem ticksRuns_timePassed (n a b c : Nat) (x y z : Int) (d : Dev) :
    TimePassed d.tm (ticksRun c z (ticksRun b y (ticksRun a x (stepsPass n d)))).tm :=
  timePassed_trans (timePassed_trans (timePassed_trans (stepsPass_timePassed n d) (ticksRun_timePassed a x _))
    (ticksRun_timePassed b y _)) (ticksRun_timePassed c z _)

theorem timePassed_ite {p : Prop} [Decidable p] {d e f : Dev} (he : TimePassed d.tm e.tm) (hf : TimePassed d.tm f.tm) :
    TimePassed d.tm (if p then e else f).tm := by split <;> assumption

theorem ticksPass_timePassed (t : Nat) (d : Dev) : TimePassed d.tm (ticksPass t d).tm := by
  unfold ticksPass
  dsimp only
  exact timePassed_ite (timePassed_refl _) (ticksRuns_timePassed _ _ _ _ _ _ _ _)

theorem until_tm (d : Dev) (t : Nat) : (d.until_ t).tm = (ticksPass t d).tm := rfl

theorem until_timePassed (d : Dev) (t : Nat) : TimePassed d.tm (d.until_ t).tm := until_tm d t ▸ ticksPass_timePassed t d

/-! ## The operations of a group -/

/-- Room for the registers of a group and of its slices, its state, and events. -/
structure GroupRoom (a : Nat) (W : Nat → Prop) (S : Part → Prop) : Prop extends Events W S where
  regs : ∀ k, k < 0x40 → W (k + 0x7100 + 0x40 * a)
  slices : ∀ k, k < 0x80 → W (k + 0x7200 + 0x80 * a)
  stat : W AD_STAT
  flags : W AD_EVT
  groups : S .groups
  group : S (.group a)

section group
variable (G : GroupRoom a W S)
include G

/-- The coefficients of one of the slices that a 4-bit number names. -/
theorem GroupRoom.slice {i : Nat} (hi : i < 16) : W (AD_SLCOEF a i) ∧ W (AD_SLSKEW a i) := by
  have hcoef := G.slices (0x8 * i) (by omega)
  have hskew := G.slices (0x4 + 0x8 * i) (by omega)
  unfold AD_SLCOEF AD_SLSKEW
  exact ⟨by convert hcoef using 1; omega, by convert hskew using 1; omega⟩

theorem frame_group (x : AdGrp) (h : Frame W S d e) : Frame W S d (e.setGroup a x) := frame_setGroup a x G.groups G.group h

theorem frame_slotStart (hW : ∀ b, timeRegs b → W b) (hS : S .tm) (h : Frame W S d e) : Frame W S d (slotStart a e) := by
  unfold slotStart
  extract_lets g lp t timed busy pairNow out inp c slip
  have htimed : Frame W S d timed := frame_until t hW hS h
  have hslip : Frame W S d slip := frame_ite (frame_bump (AD_CALCNT_SLIPS a) 1 (G.regs _ (by decide)) htimed) htimed
  exact frame_ite h (frame_group G _ hslip)

theorem frame_putCoef (f : Fld) (signed : Bool) (v lo hi : Int) (hf : W f.addr) (h : Frame W S d e) :
    Frame W S d (putCoef f signed v lo hi e) := by
  unfold putCoef
  extract_lets x stored
  have hstored : Frame W S d stored := frame_ite (frame_putS f x hf h) (frame_put f _ hf h)
  exact frame_ite (frame_notice AD_EVT_CALSAT G.toEvents G.flags hstored) hstored

theorem frame_moveCoef (f : Fld) (signed : Bool) (v lo hi : Int) (hf : W f.addr) (h : Frame W S d e) :
    Frame W S d (moveCoef f signed v lo hi e) := by
  unfold moveCoef
  extract_lets stored
  have hstored : Frame W S d stored := frame_ite (frame_putS f v hf h) (frame_put f _ hf h)
  exact frame_ite (frame_notice AD_EVT_CALSAT G.toEvents G.flags hstored) hstored

theorem frame_adNormalise (h : Frame W S d e) : Frame W S d (adNormalise a e) := by
  unfold adNormalise
  extract_lets mo mg mk
  refine frame_foldN 9 _ (fun e' i hi he => ?_) h
  have ⟨hcoef, hskew⟩ := G.slice (i := i) (by omega)
  exact frame_moveCoef G (AD_SLSKEW_SKEW a i) true _ _ _ hskew (frame_moveCoef G (AD_SLCOEF_GAIN a i) false _ _ _ hcoef
    (frame_moveCoef G (AD_SLCOEF_OFS a i) true _ _ _ hcoef he))

theorem frame_calStepEnd (h : Frame W S d e) : Frame W S d (calStepEnd a e) := by
  unfold calStepEnd
  extract_lets g caln r mu ofs gain skew step done stored
  have ⟨hcoef, hskew⟩ := G.slice (i := r) (get_lt e (AD_GSTAT_OUT a))
  have hofs : Frame W S d ofs := frame_putCoef G (AD_SLCOEF_OFS a r) true _ _ _ hcoef h
  have hgain : Frame W S d gain := frame_ite (frame_putCoef G (AD_SLCOEF_GAIN a r) false _ _ _ hcoef hofs) hofs
  have hset : Frame W S d skew := frame_ite (frame_putCoef G (AD_SLSKEW_SKEW a r) true _ _ _ hskew hgain) hgain
  have hstep : Frame W S d step := frame_count (AD_CALCNT_STEPS a) 1 (G.regs _ (by decide)) (frame_adNormalise G hset)
  have hstored : Frame W S d stored := frame_group G _ hstep
  exact frame_ite h (frame_ite
    (frame_putBit AD_STAT_CALOK a true G.stat (frame_put (AD_GSTAT_CALOK a) 1 (G.regs _ (by decide)) hstored)) hstored)

theorem frame_sliceSwap (h : Frame W S d e) : Frame W S d (sliceSwap a e) :=
  frame_ite h (frame_ite (frame_ite (frame_bump (AD_CALCNT_SLIPS a) 1 (G.regs _ (by decide)) (frame_group G _ h)) h)
    (frame_group G _ (frame_put (AD_GSTAT_OUT a) _ (G.regs _ (by decide)) h)))

end group

/-- Of the timebase, a slot changes what time that passes changes. -/
theorem slotStart_timePassed (a : Nat) (d : Dev) : TimePassed d.tm (slotStart a d).tm := by
  have hslip (p : Prop) [Decidable p] (e : Dev) : (if p then e.bump (AD_CALCNT_SLIPS a) else e).tm = e.tm := by split <;> rfl
  unfold slotStart
  dsimp only
  split
  · rfl
  · rw [setGroup_tm, hslip]
    exact until_timePassed d _

/-! ## The frame -/

/-- What a command of a group may change: its registers and those of its slices, AD_STAT, AD_EVT, and those any command may change;
with `slot`, what passing time changes besides. -/
def groupOnly (slot : Prop) (a x : Nat) : Prop :=
  (AD_GCFG a ≤ x ∧ x < AD_GCFG (a + 1)) ∨ (AD_SLCOEF a 0 ≤ x ∧ x < AD_SLCOEF (a + 1) 0) ∨ x = AD_STAT ∨ x = AD_EVT ∨ sideRegs x ∨
    (slot ∧ timeRegs x)

/-- The parts of one group, of events and the recorder; with `slot`, station time. -/
def groupPart (slot : Prop) (a : Nat) : Part → Prop
  | .groups | .fc | .dr => True
  | .group k => k = a
  | .tm => slot
  | _ => False

theorem groupRoom (slot : Prop) (a : Nat) : GroupRoom a (groupOnly slot a) (groupPart slot a) where
  toEvents := events_of_side (fun _ h => .inr (.inr (.inr (.inr (.inl h))))) trivial trivial
  regs k hk := .inl (by unfold AD_GCFG; omega)
  slices k hk := .inr (.inl (by unfold AD_SLCOEF; omega))
  stat := .inr (.inr (.inl rfl))
  flags := .inr (.inr (.inr (.inl rfl)))
  groups := trivial
  group := rfl

theorem groupOnly_mode (slot : Prop) (a : Nat) : ¬ groupOnly slot a GL_MODE := by
  unfold groupOnly sideRegs timeRegs AD_GCFG AD_SLCOEF
  rintro (h | h | h | h | h | h)
  · exact absurd h.1 (by unfold GL_MODE; omega)
  · exact absurd h.1 (by unfold GL_MODE; omega)
  · exact absurd h (by decide)
  · exact absurd h (by decide)
  · exact absurd h (by decide)
  · exact absurd h.2 (by decide)

variable {s t : State}

/-- A running command with the footprint of a group. -/
theorem group_running {slot : Prop} {f : Dev → Dev} (h : s.awake)
    (hx : Host.Outcome.next (running f s) = (.next t : Host.Outcome State Fault Refusal))
    (hf : Frame (groupOnly slot a) (groupPart slot a) s.dev (f s.dev)) :
    s.keepsRest t ∧ Frame (groupOnly slot a) (groupPart slot a) s.dev t.dev :=
  running_frame h hx hf (groupOnly_mode _ _) (.inr (.inr (.inr (.inr (.inl (.inr (.inr rfl))))))) nofun nofun

/-- The parts that no command of a group touches. -/
theorem Frame.outsideMeasure {slot : Prop} (h : Frame (groupOnly slot a) (groupPart slot a) d e) :
    (e.lanes, e.quires, e.cells, e.regions, e.ains, e.adq, e.telem, e.snaps, e.sent, e.sf, e.fb, e.nt, e.tw, e.su, e.jtag) =
      (d.lanes, d.quires, d.cells, d.regions, d.ains, d.adq, d.telem, d.snaps, d.sent, d.sf, d.fb, d.nt, d.tw, d.su, d.jtag) := by
  rw [show e.lanes = _ from h.parts .lanes nofun, show e.quires = _ from h.parts .quires nofun,
    show e.cells = _ from h.parts .cells nofun, show e.regions = _ from h.parts .regions nofun,
    show e.ains = _ from h.parts .ains nofun, show e.adq = _ from h.parts .adq nofun,
    show e.telem = _ from h.parts .telem nofun, show e.snaps = _ from h.parts .snaps nofun,
    show e.sent = _ from h.parts .sent nofun, show e.sf = _ from h.parts .sf nofun, show e.fb = _ from h.parts .fb nofun,
    show e.nt = _ from h.parts .nt nofun, show e.tw = _ from h.parts .tw nofun, show e.su = _ from h.parts .su nofun,
    show e.jtag = _ from h.parts .jtag nofun]

/-- A command of a group that lets no time pass. -/
theorem untimed_group_frame {a : Fin 4} {f : Dev → Dev} (h : s.awake)
    (hx : Host.Outcome.next (running f s) = (.next t : Host.Outcome State Fault Refusal))
    (hf : Frame (groupOnly False a.val) (groupPart False a.val) s.dev (f s.dev)) :
    s.keepsRest t ∧ Frame (groupOnly False a.val) (groupPart False a.val) s.dev t.dev ∧ t.dev.tm = s.dev.tm :=
  have ⟨hrest, hfr⟩ := group_running h hx hf
  ⟨hrest, hfr, hfr.parts .tm id⟩

/-- A footprint without time is one with it. -/
theorem groupOnly_mono {slot : Prop} {a x : Nat} (h : groupOnly False a x) : groupOnly slot a x := by
  rcases h with h | h | h | h | h | h
  exacts [.inl h, .inr (.inl h), .inr (.inr (.inl h)), .inr (.inr (.inr (.inl h))), .inr (.inr (.inr (.inr (.inl h)))), h.1.elim]

/-- Settles O40, by the footprints of the operations of a group and of time that passes. -/
theorem measureFrame : Obligations.MeasureFrame := by
  intro a s t c h hc hx
  rcases hc with rfl | hc
  · have hf := frame_slotStart (groupRoom True a.val) (fun b hb => .inr (.inr (.inr (.inr (.inr ⟨trivial, hb⟩))))) trivial
      (frame_refl s.dev)
    obtain ⟨hrest, hfr⟩ := group_running h hx hf
    have htm : t.dev.tm = (slotStart a.val s.dev).tm := by
      have ht : running (slotStart a.val) s = t := by injection hx
      rw [← ht, running_quiet h (hf.quiet (groupOnly_mode _ _) nofun nofun), tripOutRelease_tm]
    refine ⟨hrest, fun x hx => hfr.words x ?_, fun k hk => hfr.parts (.group k) hk, ?_, fun k => absurd rfl k, hfr.outsideMeasure⟩
    · exact fun k => hx (by simpa [groupOnly] using k)
    · rw [htm]; exact slotStart_timePassed a.val s.dev
  · have hrun : s.keepsRest t ∧ Frame (groupOnly False a.val) (groupPart False a.val) s.dev t.dev ∧ t.dev.tm = s.dev.tm := by
      rcases hc with rfl | rfl
      · exact untimed_group_frame h hx (frame_calStepEnd (groupRoom False a.val) (frame_refl _))
      · exact untimed_group_frame h hx (frame_sliceSwap (groupRoom False a.val) (frame_refl _))
    obtain ⟨hrest, hfr, htm⟩ := hrun
    refine ⟨hrest, fun x hx => hfr.words x fun k => hx (groupOnly_mono k), fun k hk => hfr.parts (.group k) hk, ?_,
      fun _ => htm, hfr.outsideMeasure⟩
    rw [htm]

end Sys2Proof.Machine
end

section
/-! PROOFS. The footprint of the network commands (O53). -/

namespace Sys2Proof.Machine

variable {W : Nat → Prop} {S : Part → Prop} {d e : Dev} {s t : State}

/-- Room for the network block, GL_IMGWR of a transfer, what is sent, and events. -/
structure NetRoom (W : Nat → Prop) (S : Part → Prop) : Prop extends Events W S where
  regs : ∀ a, 0x6000 ≤ a ∧ a < 0x6100 → W a
  imgwr : W GL_IMGWR
  nt : S .nt
  sent : S .sent

section net
variable (N : NetRoom W S)
include N

theorem frame_onNt (f : NetSt → NetSt) (h : Frame W S d e) : Frame W S d (e.onNt f) := frame_setNt _ N.nt h

/-! ## Links and addresses -/

theorem frame_showServe (h : Frame W S d e) : Frame W S d (showServe e) :=
  frame_putB NT_STAT_SERVE _ (N.regs _ (by decide)) h

theorem frame_linkUp (x : Nat) (h : Frame W S d e) : Frame W S d (linkUp x e) := by
  have hup : W (if x = 0 then NT_STAT_UP0 else NT_STAT_UP1).addr := by split <;> exact N.regs _ (by decide)
  exact frame_ite (frame_showServe N (frame_put _ 1 hup h)) h

theorem frame_linkDown (x : Nat) (h : Frame W S d e) : Frame W S d (linkDown x e) := by
  have hup : W (if x = 0 then NT_STAT_UP0 else NT_STAT_UP1).addr := by split <;> exact N.regs _ (by decide)
  have hlink : W (if x = 0 then NT_EVT_LINK0 else NT_EVT_LINK1).addr := by split <;> exact N.regs _ (by decide)
  unfold linkDown
  extract_lets down flagged
  have hflagged : Frame W S d flagged := frame_notice _ N.toEvents hlink (frame_showServe N (frame_put _ 0 hup h))
  exact frame_ite h (frame_ite hflagged (frame_service NT_EVT_NONET N.toEvents (N.regs _ (by decide)) hflagged))

theorem frame_arpPut (x : Nat) (ip : BitVec 128) (mac : BitVec 48) (h : Frame W S d e) : Frame W S d (arpPut x ip mac e) :=
  frame_onNt N _ h

theorem frame_arpDrop (x ip : Nat) (h : Frame W S d e) : Frame W S d (arpDrop x ip e) := frame_onNt N _ h

theorem frame_sendUdp (x : Nat) (a : BitVec 128) (udp : Nat) (bs : List Byte) (h : Frame W S d e) :
    Frame W S d (sendUdp x a udp bs e) :=
  frame_send _ N.sent (frame_ite h (frame_ite (frame_send _ N.sent h) (frame_send _ N.sent h)))

theorem frame_arpAsked (x : Nat) (eth : EthHdr) (target : BitVec 32) (mac : BitVec 48) (ip : BitVec 32) (h : Frame W S d e) :
    Frame W S d (arpAsked x eth target mac ip e) := frame_ite (frame_send _ N.sent h) h

theorem frame_neighbourAsked (x : Nat) (p : IpRx) (target : BitVec 128) (mac : BitVec 48) (ip : BitVec 128) (h : Frame W S d e) :
    Frame W S d (neighbourAsked x p target mac ip e) := frame_ite (frame_send _ N.sent h) h

theorem frame_arpAnswered (x : Nat) (eth : EthHdr) (mac : BitVec 48) (ip : BitVec 32) (h : Frame W S d e) :
    Frame W S d (arpAnswered x eth mac ip e) := frame_ite (frame_arpPut N x _ mac h) h

theorem frame_neighbourAnswered (x : Nat) (p : IpRx) (mac : BitVec 48) (a : BitVec 128) (h : Frame W S d e) :
    Frame W S d (neighbourAnswered x p mac a e) := frame_ite (frame_arpPut N x _ mac h) h

theorem frame_echoAsked (x : Nat) (p : IpRx) (v6 : Bool) (src dst : BitVec 128) (data : List Byte) (h : Frame W S d e) :
    Frame W S d (echoAsked x p v6 src dst data e) :=
  frame_ite h (frame_ite (frame_onNt N _ h) (frame_send _ N.sent (frame_onNt N _ h)))

/-! ## Answers and messages -/

theorem frame_onKept (r : Req) (typ : Nat) (f : Kept → Kept) (h : Frame W S d e) : Frame W S d (onKept r typ f e) :=
  frame_onNt N _ h

theorem frame_keep (r : Req) (typ : Nat) (h : Frame W S d e) : Frame W S d (keep r typ e) := frame_onNt N _ h

theorem frame_answer (r : Req) (typ status : Nat) (body : List Byte) (h : Frame W S d e) :
    Frame W S d (answer r typ status body e) :=
  frame_foldl _ _ (fun _ _ _ hd => frame_sendUdp N _ _ _ _ hd) (frame_onKept N r typ _ h)

theorem frame_answerBusy (r : Req) (typ : Nat) (h : Frame W S d e) : Frame W S d (answerBusy r typ e) :=
  frame_answer N r typ _ _ (frame_bump NT_CNT0_BUSYCNT 1 (N.regs _ (by decide)) h)

theorem frame_answerAgain (r : Req) (k : Kept) (h : Frame W S d e) : Frame W S d (answerAgain r k e) :=
  frame_foldl _ _ (fun _ _ _ hd => frame_sendUdp N _ _ _ _ hd) h

theorem frame_dgBad (h : Frame W S d e) : Frame W S d (dgBad e) :=
  frame_notice NT_EVT_DGBAD N.toEvents (N.regs _ (by decide)) (frame_bump NT_CNT0_DGBADCNT 1 (N.regs _ (by decide)) h)

theorem frame_showQueue (h : Frame W S d e) : Frame W S d (showQueue e) := frame_put NT_STAT_QLEN _ (N.regs _ (by decide)) h

theorem frame_enqueue (r : Req) (i : Instr) (h : Frame W S d e) : Frame W S d (enqueue r i e) :=
  frame_showQueue N (frame_onNt N _ h)

theorem frame_originate (typ : Nat) (body : List Byte) (dests : List (BitVec 128 × Nat)) (h : Frame W S d e) :
    Frame W S d (originate typ body dests e) :=
  frame_foldl _ _ (fun _ _ _ hd => frame_foldl _ _ (fun _ _ _ hd => frame_ite (frame_sendUdp N _ _ _ _ hd) hd) hd) (frame_onNt N _ h)

theorem frame_eventGap (h : Frame W S d e) : Frame W S d (eventGap e) := frame_ite h (frame_setFc _ N.fc ⟨rfl, rfl, rfl⟩ h)

theorem frame_eventSend (h : Frame W S d e) : Frame W S d (eventSend e) :=
  frame_ite h (frame_eventGap N (frame_originate N _ _ _ (frame_setFc _ N.fc ⟨rfl, rfl, rfl⟩ h)))

theorem frame_statusSend (h : Frame W S d e) : Frame W S d (statusSend e) := frame_ite (frame_originate N _ _ _ h) h

theorem frame_subDeliver (id : Nat) (inTime : Bool) (h : Frame W S d e) : Frame W S d (subDeliver id inTime e) := by
  unfold subDeliver
  split
  · exact h
  split
  · exact h
  · have hread := frame_onNt N (fun n => { n with subs := n.subs.map fun y => if y.id = id then { y with due := none } else y }) h
    exact frame_ite hread (frame_foldl _ _ (fun _ _ _ hd => frame_originate N _ _ _ hd) hread)

theorem frame_showSubs (h : Frame W S d e) : Frame W S d (showSubs e) := frame_put NT_STAT_NSUB _ (N.regs _ (by decide)) h

/-! ## Sessions and transfers -/

theorem frame_showSess (h : Frame W S d e) : Frame W S d (showSess e) := frame_put NT_STAT_SESS _ (N.regs _ (by decide)) h

theorem frame_xferClose (h : Frame W S d e) : Frame W S d (xferClose e) := by
  unfold xferClose
  split
  · exact h
  · exact frame_ite h (frame_foldl _ _ (fun _ _ _ hd => frame_answer N _ _ _ _ hd)
      (frame_put GL_IMGWR_STATE 0 N.imgwr (frame_onNt N _ h)))

theorem frame_xferStop (h : Frame W S d e) : Frame W S d (xferStop e) := by
  unfold xferStop
  split
  · exact h
  · exact frame_put GL_IMGWR_STATE 0 N.imgwr (frame_onNt N _ h)

theorem frame_sessEnd (h : Frame W S d e) : Frame W S d (sessEnd e) := frame_xferClose N (frame_showSess N (frame_onNt N _ h))

theorem frame_sessTimeout (h : Frame W S d e) : Frame W S d (sessTimeout e) :=
  frame_ite h (frame_ite (frame_sessEnd N h) (frame_onNt N _ h))

theorem frame_authFail (r : Req) (typ : Nat) (h : Frame W S d e) : Frame W S d (authFail r typ e) := by
  unfold authFail
  extract_lets counted failed closed
  have hfailed : Frame W S d failed := frame_onNt N _ (frame_notice NT_EVT_AUTHF N.toEvents (N.regs _ (by decide))
    (frame_bump NT_CNT1_AUTHFCNT 1 (N.regs _ (by decide)) h))
  have hclosed : Frame W S d closed := by
    unfold closed
    split
    · exact frame_ite (frame_sessEnd N hfailed) hfailed
    · exact hfailed
  exact frame_answer N r typ _ _ hclosed

theorem frame_cntTake (mcnt : Nat) (h : Frame W S d e) : Frame W S d (cntTake mcnt e) := frame_onNt N _ h

end net

/-! ## Requests, which may reach beyond the device -/

/-- A footprint that reaches nothing outside the device. -/
structure StateFrame (W : Nat → Prop) (S : Part → Prop) (s t : State) : Prop where
  rest : s.keepsRest t
  dev : Frame W S s.dev t.dev

theorem stateFrame_refl (s : State) : StateFrame W S s s := ⟨⟨rfl, rfl, rfl, rfl, rfl⟩, frame_refl _⟩

theorem stateFrame_dev {u : State} {x : Dev} (h : StateFrame W S s u) (hx : Frame W S s.dev x) :
    StateFrame W S s { u with dev := x } := ⟨h.rest, hx⟩

theorem stateFrame_ite {p : Prop} [Decidable p] {u v : State} (hu : StateFrame W S s u) (hv : StateFrame W S s v) :
    StateFrame W S s (if p then u else v) := by
  split <;> assumption

section requests
variable (N : NetRoom W S)
include N

theorem stateFrame_smpArrive (typ : Nat) (r : Req) (i : Instr) (f : State → State)
    (hf : ∀ u, StateFrame W S s u → StateFrame W S s (f u)) (h : StateFrame W S s t) :
    StateFrame W S s (smpArrive typ r i f t) := by
  have dev {x : Dev} (hx : Frame W S s.dev x) : StateFrame W S s { t with dev := x } := stateFrame_dev h hx
  have hkeep := frame_keep N r typ h.dev
  unfold smpArrive
  dsimp only
  refine stateFrame_ite h (stateFrame_ite (dev (frame_dgBad N h.dev)) ?_)
  split
  · exact stateFrame_ite (dev (frame_onKept N r typ _ h.dev)) (stateFrame_ite (dev (frame_answerAgain N r _ h.dev))
      (stateFrame_ite (dev (frame_enqueue N r i h.dev))
        (dev (frame_answerAgain N r _ (frame_bump NT_CNT0_BUSYCNT 1 (N.regs _ (by decide)) h.dev)))))
  · exact stateFrame_ite (hf _ (dev hkeep)) (stateFrame_ite (dev (frame_enqueue N r i hkeep)) (dev (frame_answerBusy N r typ hkeep)))

theorem stateFrame_answer (r : Req) (typ status : Nat) (body : List Byte) (h : StateFrame W S s t) :
    StateFrame W S s { t with dev := answer r typ status body t.dev } := stateFrame_dev h (frame_answer N r typ status body h.dev)

theorem stateFrame_withSigned (r : Req) (typ : Nat) (pending : Bool) (body : List Byte) (au : Auth) (f : State → State)
    (hf : ∀ u, StateFrame W S s u → StateFrame W S s (f u)) (h : StateFrame W S s t) :
    StateFrame W S s (withSigned r typ pending body au f t) := by
  unfold withSigned
  dsimp only
  split
  · exact stateFrame_ite (stateFrame_answer N r typ _ _ h) (stateFrame_ite (stateFrame_dev h (frame_authFail N r typ h.dev))
      (hf _ (stateFrame_dev h (frame_cntTake N _ h.dev))))
  · exact stateFrame_answer N r typ _ _ h

theorem stateFrame_treadDo (r : Req) (rs : List (Nat × Nat)) (h : StateFrame W S s t) : StateFrame W S s (treadDo r rs t) :=
  stateFrame_ite (stateFrame_dev h (frame_onNt N _ h.dev)) (stateFrame_answer N r tyTREAD stBADMSG [] h)

theorem stateFrame_tunsubDo (r : Req) (id : Nat) (h : StateFrame W S s t) : StateFrame W S s (tunsubDo r id t) :=
  stateFrame_ite (stateFrame_answer N r tyTUNSUB stBADMSG [] h) (stateFrame_ite
    (stateFrame_dev h (frame_answer N r tyTUNSUB stOK [] (frame_showSubs N (frame_onNt N _ h.dev))))
    (stateFrame_answer N r tyTUNSUB stSTATE [] h))

theorem stateFrame_mopenDo (r : Req) (chal : BitVec 128) (h : StateFrame W S s t) : StateFrame W S s (mopenDo r chal t) :=
  stateFrame_ite (stateFrame_answer N r tyMOPEN stSTATE [] h)
    (stateFrame_dev h (frame_answer N r tyMOPEN stOK _ (frame_showSess N (frame_onNt N _ h.dev))))

theorem stateFrame_mauthDo (r : Req) (au : Auth) (h : StateFrame W S s t) : StateFrame W S s (mauthDo r au t) :=
  stateFrame_withSigned N r tyMAUTH true _ au _ (fun _ hu =>
    stateFrame_dev hu (frame_answer N r tyMAUTH stOK [] (frame_showSess N (frame_onNt N _ hu.dev)))) h

theorem stateFrame_mcloseDo (r : Req) (au : Auth) (h : StateFrame W S s t) : StateFrame W S s (mcloseDo r au t) :=
  stateFrame_withSigned N r tyMCLOSE false _ au _ (fun _ hu =>
    stateFrame_dev hu (frame_answer N r tyMCLOSE stOK [] (frame_sessEnd N hu.dev))) h

/-- A request as it arrives and is carried out at once. -/
theorem stateFrame_smpIn (typ : Nat) (r : Req) (i : Instr)
    (hi : ∀ u, StateFrame W S s u → StateFrame W S s (smpDo true i u)) : StateFrame W S s (smpIn typ r i s) :=
  stateFrame_smpArrive N typ r i _ hi (stateFrame_refl s)

end requests

/-- What a running command that reaches beyond the device changes, if its effect is quiet. -/
theorem wholeRunning_frame {f : State → State} (h : s.awake)
    (hx : Host.Outcome.next (wholeRunning f s) = (.next t : Host.Outcome State Fault Refusal)) (hf : StateFrame W S s (f s))
    (hW : ¬ W GL_MODE) (htrip : W FC_TRIPSTAT) (hq : ¬ S .stopReq) (hr : ¬ S .released) :
    s.keepsRest t ∧ Frame W S s.dev t.dev := by
  obtain ⟨⟨hrec, hfuse, hflash, hvbat, -⟩, hdev⟩ := hf
  cases hx
  rw [wholeRunning_quiet h (hdev.quiet hW hq hr)]
  exact ⟨⟨hrec, hfuse, hflash, hvbat, rfl⟩, frame_tripOutRelease htrip hdev⟩

/-- What a network command may change: the registers of its block, GL_IMGWR, and those any command may change. -/
def netOnly (a : Nat) : Prop := (0x6000 ≤ a ∧ a < 0x6100) ∨ a = GL_IMGWR ∨ sideRegs a

/-- The network, what is sent, events and the recorder. -/
def netPart : Part → Prop
  | .nt | .sent | .fc | .dr => True
  | _ => False

theorem netRoom : NetRoom netOnly netPart where
  toEvents := events_of_side (fun _ h => .inr (.inr h)) trivial trivial
  regs _ h := .inl h
  imgwr := .inr (.inl rfl)
  nt := trivial
  sent := trivial

/-- Settles O53, by the footprints of ports, messages, requests and sessions. -/
theorem networkFrame : Obligations.NetworkFrame := by
  intro c s t h hc hx
  have N := netRoom
  have r := frame_refl (W := netOnly) (S := netPart) s.dev
  have hmode : ¬ netOnly GL_MODE := by unfold netOnly sideRegs; decide
  have htrip : netOnly FC_TRIPSTAT := .inr (.inr (.inr (.inr rfl)))
  have run (f : Dev → Dev) (hx : Host.Outcome.next (running f s) = (.next t : Host.Outcome State Fault Refusal))
      (hf : Frame netOnly netPart s.dev (f s.dev)) : s.keepsRest t ∧ Frame netOnly netPart s.dev t.dev :=
    running_frame h hx hf hmode htrip nofun nofun
  have req (typ : Nat) (r : Req) (i : Instr)
      (hx : Host.Outcome.next (wholeRunning (smpIn typ r i) s) = (.next t : Host.Outcome State Fault Refusal))
      (hi : ∀ u, StateFrame netOnly netPart s u → StateFrame netOnly netPart s (smpDo true i u)) :
      s.keepsRest t ∧ Frame netOnly netPart s.dev t.dev :=
    wholeRunning_frame h hx (stateFrame_smpIn N typ r i hi) hmode htrip nofun nofun
  have key : s.keepsRest t ∧ Frame netOnly netPart s.dev t.dev := by
    rcases hc with ⟨x, rfl⟩ | ⟨x, rfl⟩ | ⟨x, e, a, m, i, rfl⟩ | ⟨x, e, m, i, rfl⟩ | ⟨x, i, rfl⟩ | ⟨x, e, a, m, i, rfl⟩ |
      ⟨x, e, m, i, rfl⟩ | ⟨x, e, v, a, b, z, rfl⟩ | ⟨q, p, rfl⟩ | ⟨q, i, rfl⟩ | ⟨i, b, rfl⟩ | rfl | rfl | ⟨q, k, rfl⟩ | ⟨q, a, rfl⟩ |
      ⟨q, a, rfl⟩ | rfl
    · exact run _ hx (frame_linkUp N _ r)
    · exact run _ hx (frame_linkDown N _ r)
    · exact run _ hx (frame_arpAsked N _ _ _ _ _ r)
    · exact run _ hx (frame_arpAnswered N _ _ _ _ r)
    · exact run _ hx (frame_arpDrop N _ _ r)
    · exact run _ hx (frame_neighbourAsked N _ _ _ _ _ r)
    · exact run _ hx (frame_neighbourAnswered N _ _ _ _ r)
    · exact run _ hx (frame_echoAsked N _ _ _ _ _ _ r)
    · exact req _ _ _ hx fun u hu => stateFrame_treadDo N q _ hu
    · exact req _ _ _ hx fun u hu => stateFrame_tunsubDo N q _ hu
    · exact run _ hx (frame_subDeliver N _ _ r)
    · exact run _ hx (frame_eventSend N r)
    · exact run _ hx (frame_statusSend N r)
    · exact req _ _ _ hx fun u hu => stateFrame_mopenDo N q k hu
    · exact req _ _ _ hx fun u hu => stateFrame_mauthDo N q a hu
    · exact req _ _ _ hx fun u hu => stateFrame_mcloseDo N q a hu
    · exact run _ hx (frame_sessTimeout N r)
  obtain ⟨hrest, hf⟩ := key
  refine ⟨hrest, hf.words, ?_⟩
  rw [show t.dev.lanes = _ from hf.parts .lanes nofun, show t.dev.quires = _ from hf.parts .quires nofun,
    show t.dev.cells = _ from hf.parts .cells nofun, show t.dev.regions = _ from hf.parts .regions nofun,
    show t.dev.ains = _ from hf.parts .ains nofun, show t.dev.groups = _ from hf.parts .groups nofun,
    show t.dev.adq = _ from hf.parts .adq nofun, show t.dev.telem = _ from hf.parts .telem nofun,
    show t.dev.snaps = _ from hf.parts .snaps nofun, show t.dev.tm = _ from hf.parts .tm nofun,
    show t.dev.sf = _ from hf.parts .sf nofun, show t.dev.fb = _ from hf.parts .fb nofun,
    show t.dev.tw = _ from hf.parts .tw nofun, show t.dev.su = _ from hf.parts .su nofun,
    show t.dev.jtag = _ from hf.parts .jtag nofun]

end Sys2Proof.Machine
end

section
/-! PROOFS. Wide footprints: operations that may reach every unit, and entry to STOP (R302), which leaves the fault registers. -/

namespace Sys2Proof.Machine

variable {W : Nat → Prop} {S : Part → Prop} {d e : Dev} {s t : State}

/-- Room for every register of the clocks and of the units, for that of the transfer, for events, and for every part but the
release from reset, the waiting STOP source, the waiting injection, the fabric, station time, the network and the state of the twin. -/
structure BroadRoom (W : Nat → Prop) (S : Part → Prop) : Prop where
  units : ∀ a, 0x4000 ≤ a → W a
  imgwr : W GL_IMGWR
  parts : ∀ p, p ≠ .stopReq → p ≠ .released → p ≠ .tw → p ≠ .inj → p ≠ .fb → p ≠ .tm → p ≠ .nt → S p

/-- The same with the network, and the twin with its registers. -/
structure WideRoom (W : Nat → Prop) (S : Part → Prop) : Prop extends BroadRoom W S where
  twin : ∀ a, GL_TWSTAT ≤ a ∧ a ≤ GL_TWCNT → W a
  tw : S .tw
  nt : S .nt

/-! ## Diagnostics that end -/

theorem frame_diagAbort {n : Nat} (C : CellRoom n W S) (h : Frame W S d e) : Frame W S d (diagAbort n e) := by
  unfold diagAbort
  exact frame_onCell n _ C.cells C.cell (frame_telCount n 55 1 C.telem (frame_notice (CE_HEALTH_DIAGFAIL n) C.toEvents
    (C.regs _ (by decide)) (frame_put (CE_DIAGRES_STATUS n) 6 (C.regs _ (by decide)) h)))

theorem frame_diagsAbort (C : ∀ n, CellRoom n W S) (g : Nat) (h : Frame W S d e) : Frame W S d (diagsAbort g e) :=
  frame_foldl _ _ (fun _ n _ hd => frame_ite (frame_diagAbort (C n) hd) hd) h

section broad
variable (U : BroadRoom W S)
include U

theorem BroadRoom.events : Events W S where
  evt := U.units _ (by decide)
  cnt := U.units _ (by decide)
  fc := U.parts _ nofun nofun nofun nofun nofun nofun nofun
  dr := U.parts _ nofun nofun nofun nofun nofun nofun nofun

theorem BroadRoom.lane (l : Nat) : LaneRoom l W S where
  toEvents := U.events
  regs k _ := U.units _ (by omega)
  lanes := U.parts _ nofun nofun nofun nofun nofun nofun nofun
  lane := U.parts _ nofun nofun nofun nofun nofun nofun nofun
  sent := U.parts _ nofun nofun nofun nofun nofun nofun nofun

theorem BroadRoom.quire (q : Nat) : QuireRoom q W S where
  toEvents := U.events
  regs k _ := U.units _ (by omega)
  quires := U.parts _ nofun nofun nofun nofun nofun nofun nofun
  quire := U.parts _ nofun nofun nofun nofun nofun nofun nofun

theorem BroadRoom.chain (q : Nat) : ChainRoom q W S where
  toQuireRoom := U.quire q
  e2eA := U.units _ (by unfold LN_TMXE2E; omega)
  e2eB := U.units _ (by unfold LN_TMXE2E; omega)
  lanes := U.parts _ nofun nofun nofun nofun nofun nofun nofun
  laneA := U.parts _ nofun nofun nofun nofun nofun nofun nofun
  laneB := U.parts _ nofun nofun nofun nofun nofun nofun nofun

theorem BroadRoom.laneChain (l : Nat) : LaneChainRoom l W S := ⟨U.lane l, fun _ => U.chain _⟩

theorem BroadRoom.unit (l : Nat) : UnitRoom l W S := ⟨U.laneChain l, U.lane _⟩

theorem BroadRoom.cell (n : Nat) : CellRoom n W S where
  toEvents := U.events
  regs k _ := U.units _ (by omega)
  cells := U.parts _ nofun nofun nofun nofun nofun nofun nofun
  cell := U.parts _ nofun nofun nofun nofun nofun nofun nofun
  telem := U.parts _ nofun nofun nofun nofun nofun nofun nofun

theorem BroadRoom.region (g : Nat) : RegionRoom g W S where
  toEvents := U.events
  regs k _ := U.units _ (by omega)
  regions := U.parts _ nofun nofun nofun nofun nofun nofun nofun
  region := U.parts _ nofun nofun nofun nofun nofun nofun nofun

theorem BroadRoom.net (hn : S .nt) : NetRoom W S where
  toEvents := U.events
  regs a _ := U.units a (by omega)
  imgwr := U.imgwr
  nt := hn
  sent := U.parts _ nofun nofun nofun nofun nofun nofun nofun

theorem BroadRoom.time (a : Nat) (h : timeRegs a) : W a := by
  rcases h with rfl | rfl | rfl <;> exact U.units _ (by decide)

theorem frame_wide_at (ht : S .tm) (t : Nat) (h : Frame W S d e) : Frame W S d (e.at_ t) := frame_at t U.time ht h

theorem frame_wide_onQuire (q : Nat) (f : QuireSt → QuireSt) (h : Frame W S d e) : Frame W S d (e.onQuire q f) :=
  frame_onQuire q f (U.quire q).quires (U.quire q).quire h

theorem frame_wide_onCell (n : Nat) (f : CellSt → CellSt) (h : Frame W S d e) : Frame W S d (e.onCell n f) :=
  frame_onCell n f (U.cell n).cells (U.cell n).cell h

theorem frame_wide_setRegion (g st : Nat) (h : Frame W S d e) : Frame W S d (e.setRegion g st) :=
  frame_setRegion g st (U.units _ (by unfold RG_STAT; omega)) U.events.dr h

/-! ## Regions leave and enter their states -/

theorem frame_lawLeaveRun (g : Nat) (h : Frame W S d e) : Frame W S d (lawLeaveRun g e) :=
  frame_put (RG_STAT_REPON g) 0 ((U.region g).regs _ (by decide)) (frame_put (RG_FBSTAT_HOLDCNT g) 0 ((U.region g).regs _ (by decide))
    (frame_put (RG_STAT_FBHOLD g) 0 ((U.region g).regs _ (by decide)) h))

theorem frame_lawStopped (g : Nat) (h : Frame W S d e) : Frame W S d (lawStopped g e) :=
  frame_onMull (U.region g) _ (frame_put (RG_STAT_LAWRDY g) 0 ((U.region g).regs _ (by decide)) h)

theorem frame_leaveRun (g : Nat) (keep : Bool) (h : Frame W S d e) : Frame W S d (leaveRun g keep e) :=
  frame_ite (frame_region (U.region g) _ (frame_onMull (U.region g) _ (frame_lawLeaveRun U g h))) h

theorem frame_phaseClear (g : Nat) (h : Frame W S d e) : Frame W S d (phaseClear g e) :=
  frame_foldl _ _ (fun _ q _ hd => frame_wide_onQuire U q _ hd)
    (frame_put (RG_BLKSTAT_CONF g) 0 ((U.region g).regs _ (by decide))
      (frame_put (RG_BLKSTAT_PHASE g) 0 ((U.region g).regs _ (by decide)) h))

theorem frame_endBlock (g : Nat) (h : Frame W S d e) : Frame W S d (endBlock g e) :=
  frame_foldl _ _ (fun _ n _ hd => frame_wide_onCell U n _ hd) (frame_region (U.region g) _ (frame_phaseClear U g h))

theorem frame_regionOff (g : Nat) (h : Frame W S d e) : Frame W S d (regionOff g e) :=
  frame_ite h (frame_lawStopped U g (frame_onMull (U.region g) _
    (frame_wide_setRegion U g _ (frame_endBlock U g (frame_leaveRun U g false h)))))

theorem frame_noteSquash (g causes : Nat) (h : Frame W S d e) : Frame W S d (noteSquash g causes e) :=
  frame_setWord (RG_MODSQ g) _ ((U.region g).regs _ (by decide)) (frame_put (RG_MODSTAT_SQUASHED g) 1 ((U.region g).regs _ (by decide))
    (frame_bump (RG_MODSQ_SQCNT g) 1 ((U.region g).regs _ (by decide)) h))

theorem frame_blockRegion (g t0 stamp : Nat) (h : Frame W S d e) : Frame W S d (blockRegion g t0 stamp e) := by
  unfold blockRegion
  extract_lets st r noted left cleared
  have hnoted : Frame W S d noted := frame_ite (frame_noteSquash U g _ h) h
  have hleft : Frame W S d left := frame_wide_setRegion U g _ (frame_leaveRun U g _ hnoted)
  exact frame_ite (frame_diagsAbort U.cell g h)
    (frame_ite h (frame_region (U.region g) _ (frame_phaseClear U g (frame_diagsAbort U.cell g hleft))))

theorem frame_blockScope (gs : List Nat) (stamp : Nat) (h : Frame W S d e) : Frame W S d (blockScope gs stamp e) :=
  frame_foldl _ _ (fun _ g _ hd => frame_blockRegion U g _ stamp hd) h

/-! ## Entry to STOP -/

theorem frame_lanesDown (h : Frame W S d e) : Frame W S d (lanesDown e) :=
  frame_foldN 130 _ (fun _ l _ hd => frame_ite hd (frame_laneGo (U.laneChain l) lnDOWN hd)) h

theorem frame_netStop (hn : S .nt) (h : Frame W S d e) : Frame W S d (netStop e) := by
  have N := U.net hn
  exact frame_showServe N (frame_showQueue N (frame_showSubs N (frame_sessEnd N (frame_setNt _ N.nt
    (frame_xferStop N (frame_linkDown N 1 (frame_linkDown N 0 h)))))))

theorem frame_permitsOff (hrb : W SF_RB) (hstat : W SF_STAT) (h : Frame W S d e) : Frame W S d (permitsOff e) :=
  frame_foldN 2 _ (fun _ x _ hd => frame_putBit SF_STAT_OUT x false hstat (frame_setSf _ (U.parts _ nofun nofun nofun nofun nofun nofun nofun)
    (frame_putBit SF_RB_LCMD x false hrb (frame_putBit SF_RB_HCMD x false hrb hd)))) h

theorem frame_recStop (h : Frame W S d e) : Frame W S d (recStop e) :=
  frame_setDr _ U.events.dr (frame_put DR_STAT_STATE drIDLE (U.units _ (by decide)) h)

theorem frame_clearPend (hmode : W GL_MODE) (h : Frame W S d e) : Frame W S d (clearPend e) :=
  frame_put GL_MODE_PEND 0 hmode (frame_setSu _ (U.parts _ nofun nofun nofun nofun nofun nofun nofun) h)

end broad

section wide
variable (U : WideRoom W S)
include U

theorem WideRoom.hand (g : Nat) : HandRoom g W S where
  toRegionRoom := U.region g
  twstat := U.twin _ (by decide)
  sent := U.parts _ nofun nofun nofun nofun nofun nofun nofun
  tw := U.tw

theorem WideRoom.twins : TwinRoom W S where
  toEvents := U.events
  stat := U.twin _ (by decide)
  flags := U.twin _ (by decide)
  cnts := U.twin _ (by decide)
  tw := U.tw

theorem frame_stopEntry (hmode : W GL_MODE) (hsu : W GL_SUSTAT) (hrb : W SF_RB) (hstat : W SF_STAT) (h : Frame W S d e) :
    Frame W S d (stopEntry e) := by
  unfold stopEntry
  have B := U.toBroadRoom
  extract_lets given moved _ silent off inert
  have hgiven : Frame W S d given := frame_ite
    (frame_handOver (U.hand 0).sent (U.hand 0).tw (U.hand 0).twstat h) h
  have hmoved : Frame W S d moved := frame_setMode modeSTOP hmode hsu U.events.dr (frame_clearPend B hmode (frame_recStop B hgiven))
  have hsilent : Frame W S d silent := frame_setSu _ (U.parts _ nofun nofun nofun nofun nofun nofun nofun) hmoved
  have hoff : Frame W S d off := frame_foldN 8 _ (fun _ g _ hd => frame_ite (frame_regionOff B g hd) hd) (frame_lanesDown B hsilent)
  have hinert : Frame W S d inert := frame_put AD_STAT_RUN 0 (U.units _ (by decide)) (frame_permitsOff B hrb hstat (frame_netStop B U.nt hoff))
  exact frame_put GL_SUSTAT_CHGTO 0 hsu (frame_put SV_STAT_RUN 0 (U.units _ (by decide)) hinert)

end wide

/-! ## Two wide footprints -/

/-- Whatever reaches units but neither the mode nor the waiting STOP source is quiet. -/
theorem calmRoom : WideRoom calmRegs calmParts where
  units a h := by unfold calmRegs GL_MODE; omega
  twin a h := by unfold calmRegs GL_MODE; unfold GL_TWSTAT GL_TWCNT at h; omega
  imgwr := by decide
  parts p hq hr ht hi hf _ _ := by cases p <;> trivial
  tw := trivial
  nt := trivial

theorem calmBroad : BroadRoom calmRegs calmParts := calmRoom.toBroadRoom

/-- What STOP leaves alone: the registers of the fault collection, and the flags of the safety channel. -/
def stopRegs (a : Nat) : Prop := ¬ (0x2000 ≤ a ∧ a < 0x3000) ∧ a ≠ SF_EVT

theorem stopRoom : WideRoom stopRegs (fun p => p ≠ .inj ∧ p ≠ .fb) where
  units a h := ⟨by omega, by unfold SF_EVT; omega⟩
  twin a h := by unfold stopRegs SF_EVT; unfold GL_TWSTAT GL_TWCNT at h; omega
  imgwr := by unfold stopRegs; decide
  parts _ _ _ _ hi hf _ _ := ⟨hi, hf⟩
  tw := ⟨nofun, nofun⟩
  nt := ⟨nofun, nofun⟩

/-- Entry to STOP leaves the fault registers. -/
theorem stopEntry_word (d : Dev) (a : Nat) (h : ¬ stopRegs a) : (stopEntry d).word a = d.word a :=
  (frame_stopEntry stopRoom (by unfold stopRegs; decide) (by unfold stopRegs; decide) (by unfold stopRegs; decide)
    (by unfold stopRegs; decide) (frame_refl d)).words a h

/-- What settles after a step in which a STOP source sets: the mode is STOP, and the fault registers are as the step left them. -/
theorem settle_stopSource {b a : Dev} (hq : a.fc.stopReq = true) :
    (settle b a).mode = modeSTOP ∧ ∀ x : Fld, ¬ stopRegs x.addr → x.addr ≠ FC_TRIPSTAT → (settle b a).get x = a.get x := by
  refine ⟨settle_stop b a (.inr (.inl hq)), fun x hx ht => ?_⟩
  have hentry : ∀ e : Dev, (e = stopEntry a ∨ e = a) → e.get x = a.get x := by
    rintro e (rfl | rfl)
    · exact get_congr _ _ _ (stopEntry_word a _ hx)
    · rfl
  have hmode : GL_MODE ≠ x.addr := fun k => hx (k ▸ by unfold stopRegs; decide)
  have key : ∀ (e : Dev) (fc : FaultSt), (e = stopEntry a ∨ e = a) →
      ({ (tripOutRelease e).put GL_MODE_MODE modeSTOP with fc := fc } : Dev).get x = a.get x := fun e fc he => by
    calc _ = ((tripOutRelease e).put GL_MODE_MODE modeSTOP).get x := rfl
      _ = (tripOutRelease e).get x := get_put_ne _ _ _ _ hmode
      _ = e.get x := tripOutRelease_get e x ht
      _ = a.get x := hentry e he
  unfold settle
  dsimp only
  rw [if_pos (Or.inr (Or.inl hq))]
  by_cases hm : a.mode = modeSTOP
  · rw [if_neg (fun k => k.2 hm)]
    exact key a _ (.inr rfl)
  · rw [if_pos ⟨hq, hm⟩]
    exact key _ _ (.inl rfl)

/-- A running command that sets a STOP source. -/
theorem answers_running_stop {c : Instr} {f : Dev → Dev} {P : State → Prop} (hc : exec c s = .next (running f s)) (h : s.awake)
    (hP : P { s with dev := settle s.dev (f s.dev) }) : Answers c s P :=
  ⟨_, hc, by rwa [running, if_neg h.2.1, within, if_pos h.1]⟩

theorem answers_within_stop {c : Instr} {f : Dev → Dev} {P : State → Prop} (hc : exec c s = .next (within f s)) (h : s.awake)
    (hP : P { s with dev := settle s.dev (f s.dev) }) : Answers c s P :=
  ⟨_, hc, by rwa [within, if_pos h.1]⟩

/-- A flag of class STOP makes a STOP source wait. -/
theorem raise_stop_stopReq (d : Dev) (x : Fld) (h : d.bit x 0 = false) : (d.raise x .stop).fc.stopReq = true := by
  simp [Dev.raise, Dev.raiseBit, h, Dev.react]

end Sys2Proof.Machine
end

section
/-! PROOFS. Reference and lock (O10): what gating, the start of a lock sequence and an update leave of the registers of the PLLs. -/

namespace Sys2Proof.Machine

variable {W : Nat → Prop} {S : Part → Prop} {s : State} {d e : Dev}

/-! ## Room for lanes away from one register and from time -/

/-- The lanes leave a register of the clocks and the chip as it is. -/
theorem laneChain_away (l x : Nat) (hx : x < 0x10000) (h1 : x ≠ NT_EVT) (h2 : x ≠ NT_CNT1) :
    LaneChainRoom l (· ≠ x) (· ≠ .tm) where
  evt := Ne.symm h1
  cnt := Ne.symm h2
  fc := nofun
  dr := nofun
  regs k _ := by omega
  lanes := nofun
  lane := nofun
  sent := nofun
  chain _ :=
    { evt := Ne.symm h1, cnt := Ne.symm h2, fc := nofun, dr := nofun
      regs := fun k _ => by omega
      quires := nofun, quire := nofun, lanes := nofun, laneA := nofun, laneB := nofun
      e2eA := by unfold LN_TMXE2E; omega
      e2eB := by unfold LN_TMXE2E; omega }

theorem frame_lanesReclock (hL : ∀ l, LaneChainRoom l W S) (h : Frame W S d e) : Frame W S d (lanesReclock e) :=
  frame_foldN 130 _ (fun _ l _ hd => frame_ite hd (frame_laneGo (hL l) lnACQUIRE hd)) h

/-! ## The state of a PLL -/

@[simp] theorem pllOf_onPll (p : Pll) (f : PllSt → PllSt) (d : Dev) : pllOf p (onPll p f d) = f (pllOf p d) := by cases p <;> rfl
@[simp] theorem pllOf_put (p : Pll) (x : Fld) (v : Nat) (d : Dev) : pllOf p (d.put x v) = pllOf p d := by cases p <;> rfl
@[simp] theorem pllOf_putB (p : Pll) (x : Fld) (v : Bool) (d : Dev) : pllOf p (d.putB x v) = pllOf p d := by cases p <;> rfl
@[simp] theorem pllOf_raise (p : Pll) (x : Fld) (c : Cls) (d : Dev) : pllOf p (d.raise x c) = pllOf p d := by cases p <;> simp [pllOf]
@[simp] theorem pllOf_settled (p : Pll) (d : Dev) : pllOf p (tripOutRelease d) = pllOf p d := by cases p <;> simp [pllOf]
@[simp] theorem onPll_get (p : Pll) (f : PllSt → PllSt) (d : Dev) (x : Fld) : (onPll p f d).get x = d.get x := by cases p <;> rfl
@[simp] theorem onPll_flag (p : Pll) (f : PllSt → PllSt) (d : Dev) (x : Fld) : (onPll p f d).flag x = d.flag x := by cases p <;> rfl
@[simp] theorem onPll_mode (p : Pll) (f : PllSt → PllSt) (d : Dev) : (onPll p f d).mode = d.mode := by cases p <;> rfl

theorem pllOf_congr (p : Pll) (h : e.tm = d.tm) : pllOf p e = pllOf p d := by cases p <;> simp [pllOf, h]

/-! ## Gating (R266, R269) -/

/-- The lanes fall silent; no register changes. -/
theorem frame_lanesUnclocked (hl : S .lanes) (hi : ∀ l, S (.lane l)) (hs : S .sent) (h : Frame W S d e) :
    Frame W S d (lanesUnclocked e) :=
  frame_foldN 130 _ (fun _ l _ hd => frame_ite hd (frame_send _ hs (frame_onLane l _ hl (hi l) hd))) h

/-- The lanes as a gated output leaves them. -/
def unclocked (p : Pll) (d : Dev) : Dev := match p with
  | .t => d
  | .s => if d.flag PL_STAT_SLOCK then lanesUnclocked d else d

theorem pllGate_eq (p : Pll) (d : Dev) :
    pllGate p d = (onPll p (fun x => { x with seq := 0, steps := 0, stepGap := 0 }) (unclocked p d)).put (pllLockFld p) 0 := rfl

theorem frame_unclocked (p : Pll) (hl : S .lanes) (hi : ∀ l, S (.lane l)) (hs : S .sent) (h : Frame W S d e) :
    Frame W S d (unclocked p e) := by
  cases p
  · exact h
  · exact frame_ite (frame_lanesUnclocked hl hi hs h) h

theorem unclocked_get (p : Pll) (d : Dev) (x : Fld) : (unclocked p d).get x = d.get x :=
  Frame.get (frame_unclocked (W := fun _ => False) (S := fun _ => True) p trivial (fun _ => trivial) trivial (frame_refl d)) x id

theorem unclocked_tm (p : Pll) (d : Dev) : (unclocked p d).tm = d.tm :=
  (frame_unclocked (W := fun _ => False) (S := (· ≠ .tm)) p nofun (fun _ => nofun) nofun (frame_refl d)).parts .tm (fun k => k rfl)

/-- Gating clears the lock bit of its PLL. -/
theorem pllGate_lock (p : Pll) (d : Dev) : (pllGate p d).flag (pllLockFld p) = false := by
  rw [pllGate_eq]
  exact flag_put_zero _ _ (by cases p <;> decide)

/-- Gating leaves every other field. -/
theorem pllGate_get (p : Pll) (d : Dev) (x : Fld) (hx : x.lsb + x.width ≤ 32)
    (h : x.addr ≠ PL_STAT ∨ x.lsb + x.width ≤ (pllLockFld p).lsb ∨ (pllLockFld p).lsb + (pllLockFld p).width ≤ x.lsb) :
    (pllGate p d).get x = d.get x := by
  have ha : (pllLockFld p).addr = PL_STAT := by cases p <;> rfl
  rw [pllGate_eq]
  rcases h with h | h
  · rw [get_put_ne _ _ _ _ (by rw [ha]; exact Ne.symm h), onPll_get, unclocked_get]
  · rw [get_put_disj _ _ _ _ hx h, onPll_get, unclocked_get]

theorem pllGate_mode (p : Pll) (d : Dev) : (pllGate p d).mode = d.mode :=
  pllGate_get p d GL_MODE_MODE (by decide) (.inl (by decide))

theorem pllGate_refok (p : Pll) (d : Dev) : (pllGate p d).flag PL_STAT_REFOK = d.flag PL_STAT_REFOK :=
  flag_congr (pllGate_get p d _ (by decide) (by cases p <;> decide))

theorem pllGate_pllLoaded (p : Pll) (d : Dev) : (pllGate p d).tm.pllLoaded = d.tm.pllLoaded := by
  rw [pllGate_eq, put_tm]
  have h := unclocked_tm p d
  cases p
  · rfl
  · have hl := congrArg TimeSt.pllLoaded h
    exact hl

/-- The divider values of a PLL outlive its gating. -/
theorem pllGate_dividers (p : Pll) (d : Dev) : (pllOf p (pllGate p d)).nint = (pllOf p d).nint ∧
    (pllOf p (pllGate p d)).refm = (pllOf p d).refm ∧ (pllOf p (pllGate p d)).nfrac = (pllOf p d).nfrac ∧
    (pllOf p (pllGate p d)).updPend = (pllOf p d).updPend := by
  rw [pllGate_eq, pllOf_put, pllOf_onPll, pllOf_congr p (unclocked_tm p d)]
  exact ⟨rfl, rfl, rfl, rfl⟩

/-! ## What a gated output does (Table 10.3) -/

/-- In IDLE PLL-T takes station time with it. -/
theorem gateEffect_idle (p : Pll) (fault : Bool) (h : d.mode = modeIDLE) :
    gateEffect p fault d = match p with
      | .t => (d.put TM_STAT_STATE svFREE).put TM_STAT_TODV 0
      | .s => d := by
  cases p <;> exact if_pos h

/-- Before the dividers are applied nothing follows. -/
theorem gateEffect_unloaded (p : Pll) (fault : Bool) (h : d.mode ≠ modeIDLE) (hc : d.converting = false)
    (hl : d.tm.pllLoaded = false) : gateEffect p fault d = d := by
  unfold gateEffect
  rw [if_neg h]
  split
  · rfl
  split
  · simp [hl]
  · simp [hc]

/-- While the device converts it is STOP. -/
theorem gateEffect_converting (p : Pll) (h : d.converting = true) : gateEffect p true d = d.raise FC_CHIP_CLKSTOP .stop := by
  have hm : d.mode = modeCHARGE ∨ d.mode = modeRUN ∨ d.mode = modeBLOCK := by simpa [Dev.converting, or_assoc] using h
  unfold gateEffect
  rw [if_neg (by rcases hm with k | k | k <;> rw [k] <;> decide), if_neg (by simp),
    if_neg (by rcases hm with k | k | k <;> rw [k] <;> decide), if_pos h]

/-- Outside the registers of station time, gating in IDLE and before the dividers are applied changes nothing. -/
theorem gateEffect_frame (p : Pll) (fault : Bool) (hc : d.mode = modeIDLE ∨ (d.converting = false ∧ d.tm.pllLoaded = false)) :
    Frame (· = TM_STAT) (fun _ => False) d (gateEffect p fault d) := by
  rcases Classical.em (d.mode = modeIDLE) with hm | hm
  · rw [gateEffect_idle p fault hm]
    cases p
    · exact frame_put _ _ rfl (frame_put _ _ rfl (frame_refl d))
    · exact frame_refl d
  · obtain ⟨hconv, hload⟩ := hc.resolve_left hm
    rw [gateEffect_unloaded p fault hm hconv hload]
    exact frame_refl d

/-! ## The start of a lock sequence (R265, R268) -/

theorem pllPend_get (p : Pll) (d : Dev) (x : Fld) (hx : x.lsb + x.width ≤ 32)
    (h : x.addr ≠ PL_STAT ∨ x.lsb + x.width ≤ (pllPendFld p).lsb ∨ (pllPendFld p).lsb + (pllPendFld p).width ≤ x.lsb) :
    (pllPend p d).get x = d.get x := by
  have ha : (pllPendFld p).addr = PL_STAT := by cases p <;> rfl
  rcases h with h | h
  · exact get_put_ne _ _ _ _ (by rw [ha]; exact Ne.symm h)
  · exact get_put_disj _ _ _ _ hx h

/-- Applying the shadow set leaves the lock bits, the reference and the mode. -/
theorem pllApply_get (p : Pll) (d : Dev) (x : Fld) (hx : x.lsb + x.width ≤ 32) (ha : x.addr ≠ (pllUpdFld p).addr)
    (h : x.addr ≠ PL_STAT ∨ x.lsb + x.width ≤ (pllPendFld p).lsb ∨ (pllPendFld p).lsb + (pllPendFld p).width ≤ x.lsb) :
    (pllApply p d).get x = d.get x :=
  (pllPend_get p _ x hx h).trans ((get_put_ne _ _ _ _ (Ne.symm ha)).trans (onPll_get _ _ _ _))

theorem pllStart_get (p : Pll) (d : Dev) (x : Fld) (hx : x.lsb + x.width ≤ 32) (ha : x.addr ≠ (pllUpdFld p).addr)
    (h : x.addr ≠ PL_STAT ∨ x.lsb + x.width ≤ (pllPendFld p).lsb ∨ (pllPendFld p).lsb + (pllPendFld p).width ≤ x.lsb) :
    (pllStart p d).get x = d.get x := by
  unfold pllStart
  split
  · rfl
  · rw [onPll_get]
    split
    · exact pllApply_get p d x hx ha h
    · rfl

theorem pllStart_lock (p q : Pll) (d : Dev) : (pllStart p d).flag (pllLockFld q) = d.flag (pllLockFld q) :=
  flag_congr (pllStart_get p d _ (by cases q <;> decide) (by cases p <;> cases q <;> decide) (by cases p <;> cases q <;> decide))

theorem pllStart_refok (p : Pll) (d : Dev) : (pllStart p d).flag PL_STAT_REFOK = d.flag PL_STAT_REFOK :=
  flag_congr (pllStart_get p d _ (by decide) (by cases p <;> decide) (by cases p <;> decide))

theorem pllStart_mode (p : Pll) (d : Dev) : (pllStart p d).mode = d.mode :=
  pllStart_get p d GL_MODE_MODE (by decide) (by cases p <;> decide) (.inl (by decide))

/-- With the reference qualified the sequence is in its first step. -/
theorem pllStart_seq (p : Pll) (h : d.flag PL_STAT_REFOK = true) : (pllOf p (pllStart p d)).seq = 1 := by
  unfold pllStart
  rw [if_neg (by simp [h]), pllOf_onPll]

/-- Without an update pending nothing but the step of the sequence changes. -/
theorem pllStart_plain (p : Pll) (h : d.flag PL_STAT_REFOK = true) (hu : (pllOf p d).updPend = false) :
    pllStart p d = onPll p (fun x => { x with seq := 1 }) d := by
  unfold pllStart
  rw [if_neg (by simp [h])]
  simp [hu]

/-- The start of one sequence leaves the other PLL. -/
theorem pllStart_s_pllT (d : Dev) : (pllStart .s d).tm.pllT = d.tm.pllT := by
  unfold pllStart
  split
  · rfl
  · show (if (pllOf .s d).updPend = true then pllApply .s d else d).tm.pllT = d.tm.pllT
    split <;> rfl

section quiet
variable (K : BroadRoom W S) (ht : S .tm)
include K

theorem frame_pllPend (p : Pll) (h : Frame W S d e) : Frame W S d (pllPend p e) :=
  frame_putB _ _ (K.units _ (by cases p <;> decide)) h

theorem frame_gateEffect (p : Pll) (fault : Bool) (hc : e.mode = modeIDLE ∨ (e.converting = false ∧ e.tm.pllLoaded = false))
    (h : Frame W S d e) : Frame W S d (gateEffect p fault e) :=
  frame_trans h (frame_mono (fun a (ha : a = TM_STAT) => ha ▸ K.units _ (by decide)) (fun _ => False.elim) (gateEffect_frame p fault hc))

include ht

theorem frame_pllApply (p : Pll) (h : Frame W S d e) : Frame W S d (pllApply p e) :=
  frame_pllPend K p (frame_put _ _ (K.units _ (by cases p <;> decide))
    (by cases p <;> exact frame_setTm _ ht h))

omit K in
theorem frame_wide_onPll (p : Pll) (f : PllSt → PllSt) (h : Frame W S d e) : Frame W S d (onPll p f e) := by
  cases p <;> exact frame_setTm _ ht h

theorem frame_pllGate (p : Pll) (h : Frame W S d e) : Frame W S d (pllGate p e) :=
  frame_put _ _ (K.units _ (by cases p <;> decide)) (frame_wide_onPll ht p _
    (frame_unclocked p (K.lane 0).lanes (fun l => (K.lane l).lane) (K.lane 0).sent h))

theorem frame_pllStart (p : Pll) (h : Frame W S d e) : Frame W S d (pllStart p e) :=
  frame_ite h (frame_wide_onPll ht p _ (frame_ite (frame_pllApply K ht p h) h))

end quiet

end Sys2Proof.Machine
end

section
/-! PROOFS. Reference and lock (O10): the clauses of Table 10.2 and Table 10.3. -/

namespace Sys2Proof.Machine

variable {s : State} {d e : Dev}

/-! ## A lost reference (R262) -/

/-- The device once the reference has been found lost, before the outputs are gated. -/
def reflosSet (d : Dev) : Dev := (d.put PL_STAT_REFOK 0).raise PL_EVT_REFLOS .service

theorem referenceLost_eq (h : d.flag PL_STAT_REFOK = true) :
    referenceLost d = gateEffect .s true (gateEffect .t true (pllGate .s (pllGate .t (reflosSet d)))) := by
  unfold referenceLost
  rw [if_neg (by simp [h])]
  rfl

/-- Both outputs gated. -/
def bothGated (d : Dev) : Dev := pllGate .s (pllGate .t (reflosSet d))

theorem bothGated_mode (d : Dev) : (bothGated d).mode = d.mode := by
  rw [bothGated, pllGate_mode, pllGate_mode]
  exact (get_raise_ne _ _ _ _ (by decide) (by decide) (by decide)).trans (get_put_ne _ _ _ _ (by decide))

theorem converting_congr (h : e.mode = d.mode) : e.converting = d.converting := by simp only [Dev.converting, h]

theorem bothGated_pllLoaded (d : Dev) : (bothGated d).tm.pllLoaded = d.tm.pllLoaded := by
  rw [bothGated, pllGate_pllLoaded, pllGate_pllLoaded, reflosSet, raise_tm, put_tm]

/-- What both outputs gated show. -/
theorem bothGated_flags (d : Dev) : (bothGated d).flag PL_STAT_REFOK = false ∧ (bothGated d).flag PL_EVT_REFLOS = true ∧
    (bothGated d).flag PL_STAT_TLOCK = false ∧ (bothGated d).flag PL_STAT_SLOCK = false := by
  refine ⟨?_, ?_, ?_, pllGate_lock .s _⟩
  · rw [bothGated, pllGate_refok, pllGate_refok, reflosSet, flag_raise_ne _ _ _ _ (by decide) (by decide) (by decide)]
    exact flag_put_zero _ _ (by decide)
  · rw [bothGated, flag_congr (pllGate_get .s _ _ (by decide) (by decide)), flag_congr (pllGate_get .t _ _ (by decide) (by decide))]
    exact flag_raise_same _ _ _ rfl (by decide) (by decide) (by decide)
  · rw [bothGated, flag_congr (pllGate_get .s _ _ (by decide) (by decide))]
    exact pllGate_lock .t _

theorem frame_bothGated (d : Dev) : Frame calmRegs calmParts d (bothGated d) :=
  frame_pllGate calmBroad trivial .s (frame_pllGate calmBroad trivial .t
    (frame_service _ calmEvents (by decide) (frame_put _ _ (by decide) (frame_refl d))))

/-- In IDLE, and before the dividers are applied, no mode changes. -/
theorem referenceLost_calm (h : s.awake) (hok : s.dev.flag PL_STAT_REFOK = true)
    (hm : s.dev.mode = modeIDLE ∨ (s.dev.converting = false ∧ s.dev.tm.pllLoaded = false)) :
    Answers .referenceLost s fun t => t.dev.flag PL_STAT_REFOK = false ∧ t.dev.flag PL_EVT_REFLOS = true ∧
      t.dev.flag PL_STAT_TLOCK = false ∧ t.dev.flag PL_STAT_SLOCK = false ∧ t.dev.mode = s.dev.mode ∧
      (s.dev.mode = modeIDLE → t.dev.get TM_STAT_STATE = svFREE ∧ t.dev.flag TM_STAT_TODV = false) := by
  have hgated : (bothGated s.dev).mode = modeIDLE ∨
      ((bothGated s.dev).converting = false ∧ (bothGated s.dev).tm.pllLoaded = false) := by
    rwa [converting_congr (bothGated_mode _), bothGated_mode, bothGated_pllLoaded]
  have ht := gateEffect_frame .t true hgated
  have hmode : (gateEffect .t true (bothGated s.dev)).mode = (bothGated s.dev).mode := ht.get GL_MODE_MODE (by decide)
  have hgated' : (gateEffect .t true (bothGated s.dev)).mode = modeIDLE ∨
      ((gateEffect .t true (bothGated s.dev)).converting = false ∧ (gateEffect .t true (bothGated s.dev)).tm.pllLoaded = false) := by
    rwa [converting_congr hmode, hmode, show (gateEffect .t true (bothGated s.dev)).tm = _ from ht.parts .tm id]
  have hs := gateEffect_frame .s true hgated'
  have hframe : Frame (· = TM_STAT) (fun _ => False) (bothGated s.dev) (referenceLost s.dev) := by
    rw [referenceLost_eq hok]; exact frame_trans ht hs
  have hquiet : Frame calmRegs calmParts s.dev (referenceLost s.dev) :=
    frame_trans (frame_bothGated s.dev) (frame_mono (fun a (ha : a = TM_STAT) => by rw [ha]; decide) (fun _ => False.elim) hframe)
  refine answers_running rfl h (quiet_of_frame hquiet) ?_
  have keep (x : Fld) (hx : x.addr ≠ TM_STAT) (hx' : x.addr ≠ FC_TRIPSTAT) :
      (tripOutRelease (referenceLost s.dev)).flag x = (bothGated s.dev).flag x :=
    (tripOutRelease_flag _ _ hx').trans (hframe.flag x hx)
  obtain ⟨hrefok, hlos, htl, hsl⟩ := bothGated_flags s.dev
  refine ⟨(keep _ (by decide) (by decide)).trans hrefok, (keep _ (by decide) (by decide)).trans hlos,
    (keep _ (by decide) (by decide)).trans htl, (keep _ (by decide) (by decide)).trans hsl, ?_, fun hidle => ?_⟩
  · exact (tripOutRelease_get _ _ (by decide)).trans ((hframe.get GL_MODE_MODE (by decide)).trans (bothGated_mode _))
  · have heq : referenceLost s.dev = ((bothGated s.dev).put TM_STAT_STATE svFREE).put TM_STAT_TODV 0 := by
      have hb : (bothGated s.dev).mode = modeIDLE := (bothGated_mode _).trans hidle
      rw [referenceLost_eq hok]
      exact (gateEffect_idle .s true (hmode.trans hb)).trans (gateEffect_idle .t true hb)
    rw [tripOutRelease_get _ _ (by decide), tripOutRelease_flag _ _ (by decide), heq]
    exact ⟨(get_put_disj _ _ _ _ (by decide) (by decide)).trans (get_put_lt _ _ _ (by decide) (by decide)),
      flag_put_zero _ _ (by decide)⟩

/-! ## Clocks lost while converting -/

/-- A command whose effect sets CLKSTOP is STOP. -/
theorem answers_clkstop {c : Instr} {f : Dev → Dev} (hc : exec c s = .next (running f s)) (h : s.awake)
    (hf : (f s.dev).fc.stopReq = true ∧ (f s.dev).flag FC_CHIP_CLKSTOP = true) :
    Answers c s fun t => t.dev.mode = modeSTOP ∧ t.dev.flag FC_CHIP_CLKSTOP = true := by
  obtain ⟨hstop, hflag⟩ := hf
  obtain ⟨hmode, hkeep⟩ := settle_stopSource (b := s.dev) hstop
  exact answers_running_stop hc h ⟨hmode, (flag_congr (hkeep FC_CHIP_CLKSTOP (by unfold stopRegs; decide) (by decide))).trans hflag⟩

/-- The first lost clock of a device that converts. -/
theorem clkstop_set (hc : d.converting = true) (hf : d.flag FC_CHIP_CLKSTOP = false) (p : Pll) :
    (gateEffect p true d).fc.stopReq = true ∧ (gateEffect p true d).flag FC_CHIP_CLKSTOP = true := by
  rw [gateEffect_converting p hc]
  refine ⟨raise_stop_stopReq _ _ ?_, flag_raise_same _ _ _ rfl (by decide) (by decide) (by decide)⟩
  have h0 : d.get FC_CHIP_CLKSTOP = 0 := by simpa [Dev.flag] using hf
  rw [Dev.bit, h0]
  rfl

theorem raise_of_flag (x : Fld) (c : Cls) (h : d.bit x 0 = true) : d.raise x c = d := by simp [Dev.raise, Dev.raiseBit, h]

/-- A second one finds the flag set. -/
theorem clkstop_again (hc : d.converting = true) (hf : d.flag FC_CHIP_CLKSTOP = true) (p : Pll) : gateEffect p true d = d := by
  rw [gateEffect_converting p hc, raise_of_flag]
  have hlt : d.get FC_CHIP_CLKSTOP < 2 := get_lt d FC_CHIP_CLKSTOP
  have hne : d.get FC_CHIP_CLKSTOP ≠ 0 := (flag_iff _ _).mp hf
  rw [Dev.bit, show d.get FC_CHIP_CLKSTOP = 1 by omega]
  rfl

theorem gateEffect_converting_mode (hc : d.converting = true) (p : Pll) : (gateEffect p true d).mode = d.mode := by
  rw [gateEffect_converting p hc]
  exact get_raise_ne _ _ _ _ (by decide) (by decide) (by decide)

theorem referenceLost_clkstop (hok : d.flag PL_STAT_REFOK = true) (hc : d.converting = true) (hf : d.flag FC_CHIP_CLKSTOP = false) :
    (referenceLost d).fc.stopReq = true ∧ (referenceLost d).flag FC_CHIP_CLKSTOP = true := by
  have hconv : (bothGated d).converting = true := (converting_congr (bothGated_mode d)).trans hc
  have hflag : (bothGated d).flag FC_CHIP_CLKSTOP = false := by
    rw [bothGated, flag_congr (pllGate_get .s _ _ (by decide) (.inl (by decide))),
      flag_congr (pllGate_get .t _ _ (by decide) (.inl (by decide))), reflosSet,
      flag_raise_ne _ _ _ _ (by decide) (by decide) (by decide), flag_put_ne _ _ _ _ (by decide)]
    exact hf
  have hset := clkstop_set hconv hflag .t
  rw [referenceLost_eq hok, ← bothGated,
    clkstop_again ((converting_congr (gateEffect_converting_mode hconv .t)).trans hconv) hset.2 .s]
  exact hset

/-! ## Lock sequences -/

theorem referenceQualified_starts (h : s.awake) (hok : s.dev.flag PL_STAT_REFOK = false) :
    Answers .referenceQualified s fun t =>
      t.dev.flag PL_STAT_REFOK = true ∧ t.dev.tm.pllT.seq = 1 ∧ t.dev.tm.pllS.seq = 1 := by
  have heq : referenceQualified s.dev = pllStart .s (pllStart .t (s.dev.put PL_STAT_REFOK 1)) := if_neg (by simp [hok])
  have hset : (s.dev.put PL_STAT_REFOK 1).flag PL_STAT_REFOK = true := flag_put_one _ _ (by decide) (by decide)
  have hset' : (pllStart .t (s.dev.put PL_STAT_REFOK 1)).flag PL_STAT_REFOK = true := (pllStart_refok .t _).trans hset
  refine answers_running rfl h (quiet_of_frame ?_) ?_
  · rw [heq]
    exact frame_pllStart calmBroad trivial .s (frame_pllStart calmBroad trivial .t (frame_put _ _ (by decide) (frame_refl _)))
  · rw [tripOutRelease_flag _ _ (by decide), tripOutRelease_tm, heq]
    exact ⟨(pllStart_refok .s _).trans hset', by rw [pllStart_s_pllT]; exact pllStart_seq .t hset, pllStart_seq .s hset'⟩

theorem bandFound_answers (h : s.awake) (p : Pll) (band : BitVec 6) (hq : (pllOf p s.dev).seq = 1) :
    Answers (.pllBandSearchDone p band) s fun t => (pllOf p t.dev).seq = 2 ∧ t.dev.get (pllBandFld p) = band.toNat := by
  have heq : bandFound p band.toNat s.dev = (onPll p (fun x => { x with seq := 2 }) s.dev).put (pllBandFld p) band.toNat := if_pos hq
  refine answers_running rfl h (quiet_of_frame (frame_bandFound calmClockRoom p _ (frame_refl _))) ?_
  rw [pllOf_settled, tripOutRelease_get _ _ (by cases p <;> decide), heq]
  refine ⟨by rw [pllOf_put, pllOf_onPll], get_put_lt _ _ _ (by cases p <;> decide) ?_⟩
  cases p <;> exact band.isLt

theorem lockFailed_answers (h : s.awake) (p : Pll) (hq : (pllOf p s.dev).seq = 2) (hok : s.dev.flag PL_STAT_REFOK = true)
    (hl : s.dev.mode ≠ modeLOAD) (hk : s.dev.mode ≠ modeCHECK) :
    Answers (.pllLockFail p) s fun t => (pllOf p t.dev).seq = 1 := by
  have hmode : (pllStart p (onPll p (fun x => { x with seq := 0 }) s.dev)).mode = s.dev.mode :=
    (pllStart_mode p _).trans (onPll_mode _ _ _)
  have heq : lockFailed p s.dev = pllStart p (onPll p (fun x => { x with seq := 0 }) s.dev) := by
    unfold lockFailed
    rw [if_neg (by simp [hq])]
    exact if_neg (by rw [hmode]; simp [hl, hk])
  refine answers_running rfl h (quiet_of_frame ?_) ?_
  · rw [heq]; exact frame_pllStart calmBroad trivial p (frame_wide_onPll trivial p _ (frame_refl _))
  · rw [pllOf_settled, heq]
    exact pllStart_seq p (by rw [onPll_flag]; exact hok)

/-! ## UPD (R264) -/

theorem onPll_get_dividers (p : Pll) (x : Fld) (f : PllSt → PllSt) (u : Nat) (d : Dev)
    (hx : x = pllNint p ∨ x = pllRefm p ∨ x = pllNfrac p) : ((onPll p f d).put (pllUpdFld p) u).get x = d.get x := by
  rw [get_put_ne _ _ _ _ (by rcases hx with k | k | k <;> cases p <;> subst k <;> decide), onPll_get]

/-- The shadow set is the active set, and nothing is pending. -/
theorem pllApply_applied (p : Pll) (d : Dev) : (pllOf p (pllApply p d)).nint = d.get (pllNint p) ∧
    (pllOf p (pllApply p d)).refm = d.get (pllRefm p) ∧ (pllOf p (pllApply p d)).nfrac = d.get (pllNfrac p) ∧
    (pllOf p (pllApply p d)).updPend = false ∧ (pllApply p d).flag (pllPendFld p) = false := by
  have hof : pllOf p (pllApply p d) = { pllOf p d with
      refm := d.get (pllRefm p), nint := d.get (pllNint p), nfrac := d.get (pllNfrac p), updPend := false } := by
    rw [pllApply, pllPend, pllOf_putB, pllOf_put, pllOf_onPll]
  refine ⟨by rw [hof], by rw [hof], by rw [hof], by rw [hof], ?_⟩
  rw [pllApply, pllPend, flag_putB_same _ _ _ (by cases p <;> decide) (by cases p <;> decide), pllOf_put, pllOf_onPll,
    onPll_get_dividers p _ _ _ _ (.inl rfl), onPll_get_dividers p _ _ _ _ (.inr (.inl rfl)),
    onPll_get_dividers p _ _ _ _ (.inr (.inr rfl))]
  simp

theorem pllApply_mode (p : Pll) (d : Dev) : (pllApply p d).mode = d.mode :=
  pllApply_get p d GL_MODE_MODE (by decide) (by cases p <;> decide) (.inl (by decide))

theorem pllApply_refok (p : Pll) (d : Dev) : (pllApply p d).flag PL_STAT_REFOK = d.flag PL_STAT_REFOK :=
  flag_congr (pllApply_get p d _ (by decide) (by cases p <;> decide) (by cases p <;> decide))

/-- What gating does in IDLE leaves the PLLs' registers. -/
theorem gateEffect_idle_flag (p : Pll) (fault : Bool) (h : d.mode = modeIDLE) (x : Fld) (hx : x.addr ≠ TM_STAT) :
    (gateEffect p fault d).flag x = d.flag x := (gateEffect_frame p fault (.inl h)).flag x hx

theorem gateEffect_idle_tm (p : Pll) (fault : Bool) (h : d.mode = modeIDLE) : (gateEffect p fault d).tm = d.tm :=
  (gateEffect_frame p fault (.inl h)).parts .tm id

theorem pllUpdate_answers (h : s.awake) (o : Origin) (p : Pll) (hidle : s.dev.mode = modeIDLE) (hp : s.dev.permits o .pll = true)
    (hu : s.dev.flag (pllUpdFld p) = false) (hok : s.dev.flag PL_STAT_REFOK = true) :
    Answers (.pllUpdate o p) s fun t => (pllOf p t.dev).nint = s.dev.get (pllNint p) ∧
      (pllOf p t.dev).refm = s.dev.get (pllRefm p) ∧ (pllOf p t.dev).nfrac = s.dev.get (pllNfrac p) ∧
      (pllOf p t.dev).seq = 1 ∧ t.dev.flag (pllLockFld p) = false ∧ t.dev.flag (pllPendFld p) = false := by
  have hidle' : (pllGate p (pllApply p s.dev)).mode = modeIDLE := by rw [pllGate_mode, pllApply_mode, hidle]
  obtain ⟨hnint, hrefm, hnfrac, hpend, hshown⟩ := pllApply_applied p s.dev
  obtain ⟨gnint, grefm, gnfrac, gpend⟩ := pllGate_dividers p (pllApply p s.dev)
  have hof : pllOf p (gateEffect p false (pllGate p (pllApply p s.dev))) = pllOf p (pllGate p (pllApply p s.dev)) :=
    pllOf_congr p (gateEffect_idle_tm p false hidle')
  have hrefok : (gateEffect p false (pllGate p (pllApply p s.dev))).flag PL_STAT_REFOK = true := by
    rw [gateEffect_idle_flag p false hidle' _ (by decide), pllGate_refok, pllApply_refok, hok]
  have heq : pllUpdate p s.dev = onPll p (fun x => { x with seq := 1 }) (gateEffect p false (pllGate p (pllApply p s.dev))) := by
    unfold pllUpdate
    rw [if_pos hok, pllStart_plain p hrefok (by rw [hof, gpend, hpend])]
  refine answers_shellWrite (eff := fun d => if bitOf (1 : Word).toNat 0 then pllUpdate p d else d) rfl h (by rw [hidle]; decide) hp
    (by rw [hidle, hu]; rfl) ?_ ?_
  · refine quiet_of_frame ?_
    show Frame _ _ _ (pllUpdate p s.dev)
    rw [heq]
    exact frame_wide_onPll trivial p _ (frame_gateEffect calmBroad p _ (.inl hidle')
      (frame_pllGate calmBroad trivial p (frame_pllApply calmBroad trivial p (frame_refl _))))
  · show _ ∧ _ ∧ _ ∧ _ ∧ (tripOutRelease (pllUpdate p s.dev)).flag _ = _ ∧ (tripOutRelease (pllUpdate p s.dev)).flag _ = _
    have hpl : (pllLockFld p).addr = PL_STAT ∧ (pllPendFld p).addr = PL_STAT := by cases p <;> exact ⟨rfl, rfl⟩
    have hof' : pllOf p (tripOutRelease (pllUpdate p s.dev)) = { pllOf p (pllGate p (pllApply p s.dev)) with seq := 1 } := by
      rw [pllOf_settled, heq, pllOf_onPll, hof]
    have hflag (x : Fld) (hx : x.addr = PL_STAT) :
        (tripOutRelease (pllUpdate p s.dev)).flag x = (pllGate p (pllApply p s.dev)).flag x := by
      rw [tripOutRelease_flag _ _ (by rw [hx]; decide), heq, onPll_flag, gateEffect_idle_flag p false hidle' _ (by rw [hx]; decide)]
    refine ⟨?_, ?_, ?_, ?_, ?_, ?_⟩
    · exact (congrArg PllSt.nint hof').trans (gnint.trans hnint)
    · exact (congrArg PllSt.refm hof').trans (grefm.trans hrefm)
    · exact (congrArg PllSt.nfrac hof').trans (gnfrac.trans hnfrac)
    · exact congrArg PllSt.seq hof'
    · exact (hflag _ hpl.1).trans (pllGate_lock p _)
    · rw [hflag _ hpl.2, flag_congr (pllGate_get p _ _ (by cases p <;> decide) (by cases p <;> decide)), hshown]

/-! ## Lock declared, lock lost -/

/-- Lock is declared; the lanes that come back in IDLE leave the registers of the PLLs. -/
theorem pllLock_answers (h : s.awake) (p : Pll) (v : Option (BitVec 8)) (hq : (pllOf p s.dev).seq = 2) (hl : s.dev.mode ≠ modeLOAD) :
    Answers (.pllLock ⟨p, v⟩) s fun t => (pllOf p t.dev).seq = 3 ∧ t.dev.flag (pllLockFld p) = true := by
  let back : Dev := match p with
    | .s => if (lockFound p s.dev).mode = modeIDLE then lanesReclock (lockFound p s.dev) else lockFound p s.dev
    | .t => lockFound p s.dev
  have hfound : lockFound p s.dev = match p with
      | .t => ((onPll p (fun x => { x with seq := 3 }) s.dev).put (pllLockFld p) 1).put TM_STAT_STATE svFREE
      | .s => (onPll p (fun x => { x with seq := 3 }) s.dev).put (pllLockFld p) 1 := by
    unfold lockFound; rw [if_pos hq]; cases p <;> rfl
  have hseq : (pllOf p (lockFound p s.dev)).seq = 3 := by rw [hfound]; cases p <;> rfl
  have hlock : (lockFound p s.dev).flag (pllLockFld p) = true := by
    rw [hfound]
    cases p
    · exact (flag_put_ne _ _ _ _ (by decide)).trans (flag_put_one _ _ (by decide) (by decide))
    · exact flag_put_one _ _ (by decide) (by decide)
  have hlanes : Frame (· ≠ PL_STAT) (· ≠ .tm) (lockFound p s.dev) back := by
    cases p
    · exact frame_refl _
    · exact frame_ite (frame_lanesReclock (fun l => laneChain_away l _ (by decide) (by decide) (by decide)) (frame_refl _)) (frame_refl _)
  have hquiet : Frame calmRegs calmParts s.dev back := by
    have hf : Frame calmRegs calmParts s.dev (lockFound p s.dev) := by
      have ho := frame_put (W := calmRegs) (S := calmParts) (pllLockFld p) 1 (by cases p <;> decide)
        (frame_wide_onPll trivial p (fun x => { x with seq := 3 }) (frame_refl s.dev))
      rw [hfound]
      cases p
      · exact frame_put _ _ (by decide) ho
      · exact ho
    cases p
    · exact hf
    · exact frame_ite (frame_lanesReclock calmBroad.laneChain hf) hf
  have hstate : pllLockF ⟨p, v⟩ s = { s with dev := back } := by
    have hm : back.mode ≠ modeLOAD := by rw [(quiet_of_frame hquiet).1]; exact hl
    unfold pllLockF
    dsimp only
    rw [if_neg (by simp [hq])]
    cases p <;> exact if_neg fun k => hm k.1
  refine answers_wholeRunning rfl h ?_ ?_
  · rw [hstate]; exact quiet_of_frame hquiet
  · rw [hstate]
    have haddr : (pllLockFld p).addr = PL_STAT := by cases p <;> rfl
    refine ⟨?_, ?_⟩
    · rw [pllOf_settled, pllOf_congr p (hlanes.parts .tm (fun k => k rfl)), hseq]
    · rw [tripOutRelease_flag _ _ (by rw [haddr]; decide), hlanes.flag _ (fun k => k haddr), hlock]

/-- The output of a PLL that has lost lock, gated. -/
def lolGated (p : Pll) (d : Dev) : Dev := pllGate p (d.raise (pllLolFld p) .service)

theorem lockLost_eq (p : Pll) (hq : (pllOf p d).seq = 3) : lockLost p d = pllStart p (gateEffect p true (lolGated p d)) :=
  if_neg (by simp [hq])

theorem lolGated_get (p : Pll) (d : Dev) (x : Fld) (hx : x.lsb + x.width ≤ 32)
    (h : x.addr ≠ PL_STAT ∨ x.lsb + x.width ≤ (pllLockFld p).lsb ∨ (pllLockFld p).lsb + (pllLockFld p).width ≤ x.lsb)
    (he : x.addr ≠ PL_EVT) (h1 : x.addr ≠ NT_EVT) (h2 : x.addr ≠ NT_CNT1) : (lolGated p d).get x = d.get x := by
  rw [lolGated, pllGate_get p _ x hx h, get_raise_ne _ _ _ _ (by cases p <;> exact Ne.symm he) h1 h2]

theorem lolGated_mode (p : Pll) (d : Dev) : (lolGated p d).mode = d.mode :=
  lolGated_get p d GL_MODE_MODE (by decide) (.inl (by decide)) (by decide) (by decide) (by decide)

theorem lockLost_idle (h : s.awake) (p : Pll) (hq : (pllOf p s.dev).seq = 3) (hidle : s.dev.mode = modeIDLE)
    (hok : s.dev.flag PL_STAT_REFOK = true) :
    Answers (.pllLossOfLock p) s fun t => (pllOf p t.dev).seq = 1 ∧ t.dev.flag (pllLockFld p) = false ∧
      t.dev.flag (pllLolFld p) = true := by
  have hidle' : (lolGated p s.dev).mode = modeIDLE := (lolGated_mode p _).trans hidle
  have hrefok : (gateEffect p true (lolGated p s.dev)).flag PL_STAT_REFOK = true := by
    rw [gateEffect_idle_flag p true hidle' _ (by decide),
      flag_congr (lolGated_get p _ _ (by decide) (by cases p <;> decide) (by decide) (by decide) (by decide)), hok]
  have hevt : (lolGated p s.dev).flag (pllLolFld p) = true := by
    rw [lolGated, flag_congr (pllGate_get p _ _ (by cases p <;> decide) (.inl (by cases p <;> decide)))]
    cases p <;> exact flag_raise_same _ _ _ rfl (by decide) (by decide) (by decide)
  refine answers_running rfl h (quiet_of_frame ?_) ?_
  · rw [lockLost_eq p hq]
    exact frame_pllStart calmBroad trivial p (frame_gateEffect calmBroad p _ (.inl hidle') (frame_pllGate calmBroad trivial p
      (frame_service _ calmEvents (by cases p <;> decide) (frame_refl _))))
  · rw [pllOf_settled, tripOutRelease_flag _ _ (by cases p <;> decide), tripOutRelease_flag _ _ (by cases p <;> decide), lockLost_eq p hq]
    refine ⟨pllStart_seq p hrefok, ?_, ?_⟩
    · rw [pllStart_lock, gateEffect_idle_flag p true hidle' _ (by cases p <;> decide)]
      exact pllGate_lock p _
    · rw [flag_congr (pllStart_get p _ _ (by cases p <;> decide) (by cases p <;> decide) (.inl (by cases p <;> decide))),
        gateEffect_idle_flag p true hidle' _ (by cases p <;> decide), hevt]

theorem onPll_fc (p : Pll) (f : PllSt → PllSt) (d : Dev) : (onPll p f d).fc = d.fc := by cases p <;> rfl

theorem pllApply_fc (p : Pll) (d : Dev) : (pllApply p d).fc = d.fc := by
  rw [pllApply, pllPend, putB_fc, put_fc, onPll_fc]

theorem pllStart_fc (p : Pll) (d : Dev) : (pllStart p d).fc = d.fc := by
  unfold pllStart
  split
  · rfl
  · dsimp only
    rw [onPll_fc]
    split
    · exact pllApply_fc p d
    · rfl

theorem lockLost_clkstop (p : Pll) (hq : (pllOf p d).seq = 3) (hc : d.converting = true) (hf : d.flag FC_CHIP_CLKSTOP = false) :
    (lockLost p d).fc.stopReq = true ∧ (lockLost p d).flag FC_CHIP_CLKSTOP = true := by
  have hconv : (lolGated p d).converting = true := (converting_congr (lolGated_mode p d)).trans hc
  have hflag : (lolGated p d).flag FC_CHIP_CLKSTOP = false :=
    (flag_congr (lolGated_get p d _ (by decide) (.inl (by decide)) (by decide) (by decide) (by decide))).trans hf
  obtain ⟨hstop, hset⟩ := clkstop_set hconv hflag p
  rw [lockLost_eq p hq, pllStart_fc]
  exact ⟨hstop, (flag_congr (pllStart_get p _ _ (by decide) (by cases p <;> decide) (.inl (by decide)))).trans hset⟩

end Sys2Proof.Machine

open Sys2Proof Machine

/-- Settles O10, clause by clause: a lost reference and a lost lock gate outputs, and everything else moves a lock sequence. -/
theorem referenceAndLock : Obligations.ReferenceAndLock := by
  unfold Obligations.ReferenceAndLock
  intro s h
  refine ⟨fun hok => ⟨referenceLost_calm h hok, fun hc hf => answers_clkstop rfl h (referenceLost_clkstop hok hc hf)⟩,
    referenceQualified_starts h, fun o p hidle hp hu hok => pllUpdate_answers h o p hidle hp hu hok, bandFound_answers h,
    lockFailed_answers h, pllLock_answers h, fun p hq => ⟨lockLost_idle h p hq, fun hc hf => answers_clkstop rfl h (lockLost_clkstop p hq hc hf)⟩⟩

end

section
/-! PROOFS. PTP and the servo (O12, O13): what an offset does to the registers of station time, and what it leaves. -/

namespace Sys2Proof.Machine

variable {W : Nat → Prop} {S : Part → Prop} {s : State} {d e : Dev}

/-! ## Ports of PTP -/

@[simp] theorem ptpPort_setPtpPort (x : Nat) (p : PtpPort) (d : Dev) : ptpPort x (setPtpPort x p d) = p := by
  unfold ptpPort setPtpPort
  split <;> rfl

theorem setPtpPort_word (x : Nat) (p : PtpPort) (d : Dev) (a : Nat) : (setPtpPort x p d).word a = d.word a := by
  unfold setPtpPort; split <;> rfl

@[simp] theorem setPtpPort_get (x : Nat) (p : PtpPort) (d : Dev) (f : Fld) : (setPtpPort x p d).get f = d.get f :=
  get_congr _ _ _ (setPtpPort_word x p d _)
@[simp] theorem setPtpPort_flag (x : Nat) (p : PtpPort) (d : Dev) (f : Fld) : (setPtpPort x p d).flag f = d.flag f :=
  flag_congr (setPtpPort_get x p d f)

/-- The ports of PTP are as before. -/
def Dev.samePorts (d e : Dev) : Prop := e.tm.port0 = d.tm.port0 ∧ e.tm.port1 = d.tm.port1

theorem samePorts_refl (d : Dev) : d.samePorts d := ⟨rfl, rfl⟩
theorem samePorts_trans {f : Dev} (h : d.samePorts e) (k : e.samePorts f) : d.samePorts f := ⟨k.1.trans h.1, k.2.trans h.2⟩
theorem samePorts_of_tm (h : e.tm = d.tm) : d.samePorts e := ⟨by rw [h], by rw [h]⟩
theorem samePorts_raise (x : Fld) (c : Cls) (h : d.samePorts e) : d.samePorts (e.raise x c) :=
  samePorts_trans h (samePorts_of_tm (raise_tm _ _ _))
theorem samePorts_put (x : Fld) (v : Nat) (h : d.samePorts e) : d.samePorts (e.put x v) := h
theorem samePorts_ite {p : Prop} [Decidable p] {f : Dev} (h : d.samePorts e) (k : d.samePorts f) :
    d.samePorts (if p then e else f) := by split <;> assumption
theorem ptpPort_congr (x : Nat) (h : d.samePorts e) : ptpPort x e = ptpPort x d := by
  unfold ptpPort; rw [h.1, h.2]

theorem refuse_tm (o : Origin) (d : Dev) : (d.refuse o).tm = d.tm := by
  cases o <;> simp [Dev.refuse, Dev.wref]

theorem samePorts_shellWrite (o : Origin) (g : Group) (ok : Bool) (eff : Dev → Dev) (heff : d.samePorts (eff e))
    (h : d.samePorts e) : d.samePorts (shellWrite o g ok eff e).2 := by
  unfold shellWrite
  split
  · exact heff
  · exact samePorts_trans h (samePorts_of_tm (refuse_tm o e))

/-! ## Room for what the servo does after it has shown an offset -/

/-- Room for the state of the servo, its events, the correction, and refused writes. -/
structure ServoRoom (W : Nat → Prop) (S : Part → Prop) : Prop extends Events W S where
  stat : W TM_STAT
  event : W TM_EVT
  incr : W TM_INCR
  refuse : ∀ a, refuseRegs a → W a
  tm : S .tm

theorem ClockRoom.servo (K : ClockRoom W S) : ServoRoom W S :=
  ⟨K.toEvents, K.regs _ (by decide), K.regs _ (by decide), K.regs _ (by decide), K.refuse, K.tm⟩

section servo
variable (K : ServoRoom W S)
include K

theorem frame_servo_wrTmIncr (o : Origin) (w : Word) (h : Frame W S d e) : Frame W S d (wrTmIncr o w e).2 :=
  frame_shellWrite _ _ _ _ K.toEvents K.refuse (frame_put _ _ K.incr h) h

theorem frame_servo_wrTmAdj (o : Origin) (w : Word) (h : Frame W S d e) : Frame W S d (wrTmAdj o w e).2 :=
  frame_shellWrite _ _ _ _ K.toEvents K.refuse (frame_putB TM_STAT_SLEWING _ K.stat (frame_setTm _ K.tm h)) h

theorem frame_wrTmJumpHi (o : Origin) (w : Word) (h : Frame W S d e) : Frame W S d (wrTmJumpHi o w e).2 :=
  frame_shellWrite _ _ _ _ K.toEvents K.refuse (frame_setTm _ K.tm h) h

theorem frame_servo_wrTmJumpLo (o : Origin) (w : Word) (h : Frame W S d e) : Frame W S d (wrTmJumpLo o w e).2 :=
  frame_shellWrite _ _ _ _ K.toEvents K.refuse (frame_put TM_STAT_JUMPPEND _ K.stat (frame_setTm _ K.tm h)) h

theorem frame_servoAct (ofs : Int) (big : Bool) (h : Frame W S d e) : Frame W S d (servoAct ofs big e) :=
  have corrected := frame_servo_wrTmIncr K _ _ h
  frame_ite (frame_servo_wrTmAdj K _ _ corrected)
    (frame_ite (frame_servo_wrTmJumpLo K _ _ (frame_wrTmJumpHi K _ _ corrected)) corrected)

theorem frame_servoState (ns : Int) (big : Bool) (h : Frame W S d e) : Frame W S d (servoState ns big e) :=
  frame_ite (frame_ite (frame_put TM_STAT_STATE _ K.stat (frame_setTm _ K.tm h)) (frame_setTm _ K.tm h))
    (frame_ite (frame_ite (frame_put TM_STAT_STATE _ K.stat (frame_setTm _ K.tm (frame_setTm _ K.tm h))) (frame_setTm _ K.tm h))
      (frame_ite (frame_put TM_STAT_STATE _ K.stat (frame_setTm _ K.tm h)) h))

theorem frame_jumpRefused (h : Frame W S d e) : Frame W S d (jumpRefused e) :=
  have refused := frame_service TM_EVT_JUMPREF K.toEvents K.event h
  frame_ite (frame_notice _ K.toEvents K.event (frame_put TM_STAT_STATE _ K.stat refused)) refused

end servo

/-! ## An offset -/

/-- An offset is beyond JMAX. -/
def ofsBeyond (ofs : Int) (d : Dev) : Bool := decide ((d.get TM_JMPCFG_JMAX * 1000 : Nat) < (rdiv ofs 65536).natAbs)

/-- The offset shown, with the path delay of the serving port, and counted. -/
def servoShow (ofs : Int) (d : Dev) : Dev :=
  pdlyShow (d.get TM_STAT_PORT) ((d.putS TM_OFS_OFS (satS 32 (rdiv ofs 65536))).count TM_CNT_SYNCCNT)

/-- What the servo does with the offset it has shown. -/
def servoReact (ofs : Int) (big : Bool) (d : Dev) : Dev :=
  if big && d.converting && servoSteers d then jumpRefused { d with tm := { d.tm with lockRun := 0 } }
  else
    let d := servoState (rdiv ofs 65536) big d
    if servoSteers d then servoAct ofs big d else d

theorem servoShow_get (ofs : Int) (d : Dev) (x : Fld) (h1 : x.addr ≠ TM_OFS) (h2 : x.addr ≠ TM_CNT) (h3 : x.addr ≠ TM_PDLY) :
    (servoShow ofs d).get x = d.get x := by
  unfold servoShow pdlyShow Dev.count Dev.putS
  rw [get_put_ne _ _ _ _ (Ne.symm h3), get_put_ne _ _ _ _ (Ne.symm h2), get_put_ne _ _ _ _ (Ne.symm h1)]

theorem setTm_get (d : Dev) (x : TimeSt) (f : Fld) : ({ d with tm := x } : Dev).get f = d.get f := rfl

theorem servoShow_tm (ofs : Int) (d : Dev) : (servoShow ofs d).tm = d.tm := rfl

/-- The shown device with the test against JMAX. -/
def servoTested (ofs : Int) (d : Dev) : Dev :=
  { servoShow ofs d with tm := { (servoShow ofs d).tm with ofsBig := ofsBeyond ofs d } }

theorem servoOffset_eq (ofs : Int) (d : Dev) : servoOffset ofs d = servoReact ofs (ofsBeyond ofs d) (servoTested ofs d) := by
  have hb : ofsBeyond ofs (servoShow ofs d) = ofsBeyond ofs d := by
    unfold ofsBeyond
    rw [servoShow_get _ _ _ (by decide) (by decide) (by decide)]
  unfold servoOffset
  extract_lets ns shown big tm tested
  have hshown : servoShow ofs d = shown := rfl
  have hbig : ofsBeyond ofs d = big := by
    rw [← hb, hshown]
    rfl
  have htested : servoTested ofs d = tested := by
    unfold servoTested
    rw [hbig, hshown]
  rw [hbig, htested]
  clear_value big tested
  rfl

theorem servoTested_get (ofs : Int) (d : Dev) (x : Fld) (h1 : x.addr ≠ TM_OFS) (h2 : x.addr ≠ TM_CNT) (h3 : x.addr ≠ TM_PDLY) :
    (servoTested ofs d).get x = d.get x := (setTm_get _ _ x).trans (servoShow_get ofs d x h1 h2 h3)

theorem satS_bounds (w : Nat) (x : Int) : -(2 ^ (w - 1) : Nat) ≤ satS w x ∧ satS w x < (2 ^ (w - 1) : Nat) := by
  have hpos : 0 < 2 ^ (w - 1) := Nat.two_pow_pos _
  have h := satI_bounds (x := x) (lo := -(2 ^ (w - 1) : Nat)) (hi := (2 ^ (w - 1) : Nat) - 1) (by omega)
  unfold satS
  omega

/-- The offset shows, and the Sync is counted. -/
theorem servoTested_shown (ofs : Int) (d : Dev) :
    (servoTested ofs d).getS TM_OFS_OFS = satS 32 (rdiv ofs 65536) ∧
    (servoTested ofs d).get TM_CNT_SYNCCNT = (d.get TM_CNT_SYNCCNT + 1) % 2 ^ 16 := by
  have hget (x : Fld) : (servoTested ofs d).get x = (servoShow ofs d).get x := setTm_get _ _ x
  rw [Dev.getS, hget, hget, ← Dev.getS]
  constructor
  · have hkeep : (servoShow ofs d).getS TM_OFS_OFS = (d.putS TM_OFS_OFS (satS 32 (rdiv ofs 65536))).getS TM_OFS_OFS := by
      unfold servoShow pdlyShow Dev.count Dev.getS
      rw [get_put_ne _ _ _ _ (by decide), get_put_ne _ _ _ _ (by decide)]
    rw [hkeep]
    exact getS_putS_same _ _ _ (by decide) (by decide) (satS_bounds 32 _).1 (satS_bounds 32 _).2
  · unfold servoShow pdlyShow Dev.count Dev.putS
    rw [get_put_ne _ _ _ _ (by decide), get_put_same _ _ _ (by decide), get_put_ne _ _ _ _ (by decide)]
    rfl

theorem frame_servoReact (K : ServoRoom W S) (ofs : Int) (big : Bool) (h : Frame W S d e) : Frame W S d (servoReact ofs big e) :=
  have state := frame_servoState K (rdiv ofs 65536) big h
  frame_ite (frame_jumpRefused K (frame_setTm _ K.tm h)) (frame_ite (frame_servoAct K ofs big state) state)

theorem frame_servoOffset (K : ClockRoom W S) (ofs : Int) (h : Frame W S d e) : Frame W S d (servoOffset ofs e) := by
  rw [servoOffset_eq]
  exact frame_servoReact K.servo ofs _ (frame_setTm _ K.tm (frame_put TM_PDLY_PDLY _ (K.regs _ (by decide))
    (frame_count TM_CNT_SYNCCNT _ (K.regs _ (by decide)) (frame_putS TM_OFS_OFS _ (K.regs _ (by decide)) h))))

/-- Everything but the registers that show an offset and the mode. -/
def ofsRegs (a : Nat) : Prop := a ≠ TM_OFS ∧ a ≠ TM_CNT ∧ a ≠ TM_PDLY ∧ a ≠ GL_MODE ∧ a ≠ SV_WPERM

theorem ofsRoom : ServoRoom ofsRegs (fun _ => True) where
  evt := by unfold ofsRegs; decide
  cnt := by unfold ofsRegs; decide
  fc := trivial
  dr := trivial
  stat := by unfold ofsRegs; decide
  event := by unfold ofsRegs; decide
  incr := by unfold ofsRegs; decide
  refuse a h := by rcases h with rfl | rfl | rfl <;> (unfold ofsRegs; decide)
  tm := trivial

/-- The servo leaves what an offset shows. -/
theorem servoReact_shows (ofs : Int) (big : Bool) (d : Dev) (x : Fld) (h : ¬ ofsRegs x.addr) :
    (servoReact ofs big d).get x = d.get x := (frame_servoReact ofsRoom ofs big (frame_refl d)).get x h

/-! ## What the servo leaves of the ports -/

theorem samePorts_wrTmJumpHi (o : Origin) (w : Word) (h : d.samePorts e) : d.samePorts (wrTmJumpHi o w e).2 :=
  samePorts_shellWrite _ _ _ _ h h

theorem samePorts_wrTmJumpLo (o : Origin) (w : Word) (h : d.samePorts e) : d.samePorts (wrTmJumpLo o w e).2 :=
  samePorts_shellWrite _ _ _ _ (samePorts_put TM_STAT_JUMPPEND _ h) h

theorem samePorts_wrTmIncr (o : Origin) (w : Word) (h : d.samePorts e) : d.samePorts (wrTmIncr o w e).2 :=
  samePorts_shellWrite _ _ _ _ (samePorts_put _ _ h) h

theorem samePorts_slew (x : Int) (d : Dev) : d.samePorts { d with tm := { d.tm with slew := x } } := ⟨rfl, rfl⟩

theorem samePorts_addSlew (x : Int) (d : Dev) : d.samePorts (addSlew x d) := by
  unfold addSlew
  extract_lets lim r
  exact samePorts_trans (samePorts_slew r d) (samePorts_of_tm (putB_tm _ _ _))

theorem samePorts_wrTmAdj (o : Origin) (w : Word) (h : d.samePorts e) : d.samePorts (wrTmAdj o w e).2 :=
  samePorts_shellWrite _ _ _ _ (samePorts_trans h (samePorts_addSlew _ e)) h

theorem samePorts_servoAct (ofs : Int) (big : Bool) (h : d.samePorts e) : d.samePorts (servoAct ofs big e) := by
  unfold servoAct
  extract_lets corrected us
  have hcorrected : d.samePorts corrected := samePorts_wrTmIncr _ _ h
  exact samePorts_ite (samePorts_wrTmAdj _ _ hcorrected)
    (samePorts_ite (samePorts_wrTmJumpLo _ _ (samePorts_wrTmJumpHi _ _ hcorrected)) hcorrected)

theorem samePorts_servoState (ns : Int) (big : Bool) (h : d.samePorts e) : d.samePorts (servoState ns big e) :=
  samePorts_ite (samePorts_ite h h) (samePorts_ite (samePorts_ite h h) (samePorts_ite h h))

theorem samePorts_servoReact (ofs : Int) (big : Bool) (h : d.samePorts e) : d.samePorts (servoReact ofs big e) :=
  have refused : d.samePorts (({ e with tm := { e.tm with lockRun := 0 } } : Dev).raise TM_EVT_JUMPREF .service) :=
    samePorts_raise _ _ h
  have state := samePorts_servoState (rdiv ofs 65536) big h
  samePorts_ite (samePorts_ite (samePorts_raise _ _ (samePorts_put TM_STAT_STATE _ refused)) refused)
    (samePorts_ite (samePorts_servoAct ofs big state) state)

theorem samePorts_servoOffset (ofs : Int) (d : Dev) : d.samePorts (servoOffset ofs d) := by
  rw [servoOffset_eq]
  exact samePorts_servoReact ofs _ ⟨rfl, rfl⟩

end Sys2Proof.Machine
end

section
/-! PROOFS. PTP messages (O12) and the states of the servo (O13). -/

namespace Sys2Proof.Machine

variable {W : Nat → Prop} {S : Part → Prop} {s : State} {d e : Dev}

/-! ## Announce (R277) -/

/-- A port with a master has a best master. -/
theorem bestMaster_isSome (x : Nat) {m : Announce} (h : (ptpPort x d).master = some m) : (bestMaster d).isSome = true := by
  unfold bestMaster
  have hport : d.tm.port0.master = some m ∨ d.tm.port1.master = some m := by
    unfold ptpPort at h
    split at h
    · exact .inl h
    · exact .inr h
  rcases hport with k | k
  · rw [k]
    cases h1 : d.tm.port1.master with
    | none => rfl
    | some b => dsimp only; split <;> rfl
  · rw [k]
    cases h0 : d.tm.port0.master with
    | none => rfl
    | some a => dsimp only; split <;> rfl

/-- The port and the UTC offset of a master. -/
def masterPort (m : Announce) (d : Dev) : Dev :=
  ((d.put TM_STAT_PORT m.port.val).put TM_UTC_UTCOFS m.utcOfs.toNat).putB TM_UTC_UTCV m.utcValid

/-- The grandmaster shown, with MASTCHG where it is another. -/
def masterName (m : Announce) (d : Dev) : Dev :=
  if d.tm.gm = some m.gmId then d
  else
    let d := (d.put (TM_GMID_ID 0) (m.gmId.toNat % 2 ^ 32)).put (TM_GMID_ID 1) (m.gmId.toNat / 2 ^ 32)
    ({ d with tm := { d.tm with gm := some m.gmId } }).raise TM_EVT_MASTCHG .notice

/-- The registers that name the selected master, before the servo starts. -/
def masterShow (m : Announce) (d : Dev) : Dev := masterName m (masterPort m d)

theorem frame_masterName (m : Announce) (d : Dev) : Frame (· ≠ TM_STAT) (fun _ => True) d (masterName m d) :=
  frame_ite (frame_refl d) (frame_notice TM_EVT_MASTCHG ⟨by decide, by decide, trivial, trivial⟩ (by decide)
    (frame_setTm _ trivial (frame_put (TM_GMID_ID 1) _ (by decide) (frame_put (TM_GMID_ID 0) _ (by decide) (frame_refl d)))))

theorem masterPort_get (m : Announce) (d : Dev) (x : Fld) (hx : x.addr = TM_STAT) :
    (masterPort m d).get x = (d.put TM_STAT_PORT m.port.val).get x := by
  have h : x.addr ≠ TM_UTC := by rw [hx]; decide
  exact (get_put_ne _ TM_UTC_UTCV _ _ (Ne.symm h)).trans (get_put_ne _ TM_UTC_UTCOFS _ _ (Ne.symm h))

theorem selectMaster_some {m : Announce} (h : bestMaster d = some m) :
    selectMaster d = if (masterShow m d).get TM_STAT_STATE = svFREE then
      ({ masterShow m d with tm := { (masterShow m d).tm with lockRun := 0, badRun := 0 } }).put TM_STAT_STATE svACQUIRE
    else masterShow m d := by
  unfold selectMaster
  rw [h]
  unfold masterShow masterPort masterName
  rfl

/-- Showing a master keeps the state of the servo and names the port. -/
theorem masterShow_stat (m : Announce) (d : Dev) : (masterShow m d).get TM_STAT_STATE = d.get TM_STAT_STATE ∧
    (masterShow m d).get TM_STAT_PORT = m.port.val ∧ (masterShow m d).tm.gm = some m.gmId ∧ d.samePorts (masterShow m d) := by
  have hput (x : Fld) (hx : x.addr = TM_STAT) : (masterShow m d).get x = (d.put TM_STAT_PORT m.port.val).get x :=
    ((frame_masterName m _).get x (fun k => k hx)).trans (masterPort_get m d x hx)
  refine ⟨?_, ?_, ?_, ?_⟩
  · rw [hput _ rfl, get_put_disj _ _ _ _ (by decide) (by decide)]
  · rw [hput _ rfl, get_put_lt _ _ _ (by decide) (Nat.lt_of_lt_of_le m.port.isLt (by decide))]
  · unfold masterShow masterName
    split
    case isTrue k => exact k
    case isFalse => rw [raise_tm]
  · exact samePorts_ite ⟨rfl, rfl⟩ (samePorts_raise _ _ ⟨rfl, rfl⟩)

/-- What the selection of a master leaves, and what it does to the servo. -/
theorem selectMaster_facts (d : Dev) : d.samePorts (selectMaster d) ∧
    ((bestMaster d).isSome = true → d.get TM_STAT_STATE = svFREE → (selectMaster d).get TM_STAT_STATE = svACQUIRE) ∧
    (d.get TM_STAT_STATE ≠ svFREE → (selectMaster d).get TM_STAT_STATE = d.get TM_STAT_STATE) := by
  cases hb : bestMaster d with
  | none =>
    have heq : selectMaster d = d := by unfold selectMaster; rw [hb]
    rw [heq]
    exact ⟨samePorts_refl d, nofun, fun _ => rfl⟩
  | some m =>
    obtain ⟨hstate, -, -, hports⟩ := masterShow_stat m d
    rw [selectMaster_some hb, hstate]
    refine ⟨samePorts_ite (samePorts_trans hports ⟨rfl, rfl⟩) hports, fun _ hfree => ?_, fun hne => ?_⟩
    · rw [if_pos hfree]
      exact get_put_lt _ _ _ (by decide) (by decide)
    · rw [if_neg hne]
      exact hstate

/-- The selected master serves. -/
theorem selectMaster_serves {m : Announce} (h : bestMaster d = some m) :
    (selectMaster d).tm.gm = some m.gmId ∧ (selectMaster d).get TM_STAT_PORT = m.port.val := by
  obtain ⟨-, hport, hgm, -⟩ := masterShow_stat m d
  rw [selectMaster_some h]
  split
  · exact ⟨hgm, (get_put_disj _ _ _ _ (by decide) (by decide)).trans hport⟩
  · exact ⟨hgm, hport⟩

/-- The Announce clause of O12. -/
theorem announce_answers (h : s.awake) (m : Announce) (hon : ptpOn m.port.val m.eth s.dev = true)
    (hdom : m.domain.toNat = s.dev.get TM_CFG_DOMAIN) (hlo : -4 ≤ m.logInterval) (hhi : m.logInterval ≤ 1)
    (hnone : (ptpPort m.port.val s.dev).master = none) :
    Answers (.ptpAnnounceRx m) s fun t => (ptpPort m.port.val t.dev).master = some m ∧
      (s.dev.get TM_STAT_STATE = svFREE → t.dev.get TM_STAT_STATE = svACQUIRE) := by
  have heq : ptpAnnounce m s.dev =
      selectMaster (setPtpPort m.port.val { ptpPort m.port.val s.dev with master := some m } s.dev) := by
    unfold ptpAnnounce
    rw [if_neg (by simp [hon]), if_neg (by simp [hdom]), if_neg (by omega)]
    dsimp only
    rw [hnone]
  refine answers_running rfl h (quiet_of_frame (frame_ptpAnnounce calmClockRoom m (frame_refl _))) ?_
  rw [heq]
  generalize hset : setPtpPort m.port.val { ptpPort m.port.val s.dev with master := some m } s.dev = d
  obtain ⟨hports, hstart, -⟩ := selectMaster_facts d
  have hmaster : (ptpPort m.port.val d).master = some m := by rw [← hset, ptpPort_setPtpPort]
  refine ⟨?_, fun hfree => ?_⟩
  · rw [ptpPort_congr _ (samePorts_of_tm (tripOutRelease_tm _)), ptpPort_congr _ hports, hmaster]
  · rw [tripOutRelease_get _ _ (by decide)]
    exact hstart (bestMaster_isSome _ hmaster) (by rw [← hset, setPtpPort_get, hfree])

/-! ## Sync and Follow_Up (R277, R279) -/

/-- The device that a Sync of a serving port leads to. -/
theorem ptpSync_eq {x : Nat} {ev : EthHdr} {dom : Nat} {li : Int} (two : Bool) (seq : BitVec 16) (origin corr rx : Int)
    (hon : ptpOn x ev d = true) (hdom : dom = d.get TM_CFG_DOMAIN) (hlo : -4 ≤ li) (hhi : li ≤ 1) (hs : ptpServes x d = true) :
    ptpSync x ev dom li two seq origin corr rx d =
      if two then setPtpPort x { ptpPort x d with syncSeq := some (seq, ptpRx x rx d, corr) } d
      else servoOffset (ptpRx x rx d - origin - corr - (ptpPort x d).pdly) (setPtpPort x { ptpPort x d with syncSeq := none } d) := by
  unfold ptpSync
  rw [if_neg (by simp [hon]), if_neg (by simp [hdom]), if_neg (by omega), if_neg (by simp [hs])]

theorem ptpFollowUp_eq {x : Nat} {ev : EthHdr} {dom : Nat} {seq : BitVec 16} (origin corr : Int) {t2 c0 : Int}
    (hon : ptpOn x ev d = true) (hdom : dom = d.get TM_CFG_DOMAIN) (hs : ptpServes x d = true)
    (hq : (ptpPort x d).syncSeq = some (seq, t2, c0)) :
    ptpFollowUp x ev dom seq origin corr d =
      servoOffset (t2 - origin - c0 - corr - (ptpPort x d).pdly) (setPtpPort x { ptpPort x d with syncSeq := none } d) := by
  unfold ptpFollowUp
  rw [if_neg (by simp [hon]), if_neg (by simp [hdom])]
  dsimp only
  rw [hq]
  exact if_pos ⟨rfl, hs⟩

/-- An offset of a port shows, counts, and leaves the port as it was set. -/
theorem servoOffset_port (ofs : Int) (x : Nat) (p : PtpPort) (d : Dev) :
    ptpPort x (servoOffset ofs (setPtpPort x p d)) = p ∧
    (servoOffset ofs (setPtpPort x p d)).get TM_CNT_SYNCCNT = (d.get TM_CNT_SYNCCNT + 1) % 2 ^ 16 ∧
    (servoOffset ofs (setPtpPort x p d)).getS TM_OFS_OFS = satS 32 (rdiv ofs 65536) := by
  obtain ⟨hofs, hcnt⟩ := servoTested_shown ofs (setPtpPort x p d)
  refine ⟨?_, ?_, ?_⟩
  · rw [ptpPort_congr _ (samePorts_servoOffset ofs _), ptpPort_setPtpPort]
  · rw [servoOffset_eq, servoReact_shows _ _ _ _ (by unfold ofsRegs; decide), hcnt, setPtpPort_get]
  · rw [servoOffset_eq, Dev.getS, servoReact_shows _ _ _ _ (by unfold ofsRegs; decide)]
    exact hofs

theorem quiet_servoOffset (ofs : Int) (x : Nat) (p : PtpPort) (d : Dev) : Quiet d (servoOffset ofs (setPtpPort x p d)) :=
  quiet_of_frame (frame_servoOffset calmClockRoom ofs (frame_setPtpPort calmClockRoom x p (frame_refl d)))

/-- What a command shows that takes an offset of port `x` and leaves nothing waiting there. -/
theorem answers_offset {c : Instr} {f : Dev → Dev} (x : Nat) (ofs : Int) (hc : exec c s = .next (running f s)) (h : s.awake)
    (hf : f s.dev = servoOffset ofs (setPtpPort x { ptpPort x s.dev with syncSeq := none } s.dev)) :
    Answers c s fun t => (ptpPort x t.dev).syncSeq = none ∧ t.dev.get TM_CNT_SYNCCNT = (s.dev.get TM_CNT_SYNCCNT + 1) % 2 ^ 16 ∧
      t.dev.getS TM_OFS_OFS = satS 32 (rdiv ofs 65536) := by
  obtain ⟨hport, hcnt, hofs⟩ := servoOffset_port ofs x { ptpPort x s.dev with syncSeq := none } s.dev
  refine answers_running hc h (by rw [hf]; exact quiet_servoOffset _ _ _ _) ?_
  rw [hf]
  refine ⟨?_, (tripOutRelease_get _ _ (by decide)).trans hcnt, ?_⟩
  · rw [ptpPort_congr _ (samePorts_of_tm (tripOutRelease_tm _)), hport]
  · rw [Dev.getS, tripOutRelease_get _ _ (by decide)]
    exact hofs

theorem answers_mono {c : Instr} {P Q : State → Prop} (h : Answers c s P) (hpq : ∀ t, P t → Q t) : Answers c s Q := by
  obtain ⟨t, ht, hp⟩ := h
  exact ⟨t, ht, hpq t hp⟩

/-- The clause of Sync and Follow_Up of O12. -/
theorem sync_answers (h : s.awake) (x : Fin 2) (ev : EthHdr) (dom : BitVec 8) (seq : BitVec 16) (hon : ptpOn x.val ev s.dev = true)
    (hdom : dom.toNat = s.dev.get TM_CFG_DOMAIN) (hs : ptpServes x.val s.dev = true) (li : Int) (origin corr rx : PtpTime)
    (hlo : -4 ≤ li) (hhi : li ≤ 1) :
    (Answers (.ptpSyncRx x ev dom li true seq origin corr rx) s fun t =>
      (ptpPort x.val t.dev).syncSeq = some (seq, ptpRx x.val rx s.dev, corr)) ∧
    (Answers (.ptpSyncRx x ev dom li false seq origin corr rx) s fun t =>
      t.dev.get TM_CNT_SYNCCNT = (s.dev.get TM_CNT_SYNCCNT + 1) % 2 ^ 16 ∧
      t.dev.getS TM_OFS_OFS = satS 32 (rdiv (ptpRx x.val rx s.dev - origin - corr - (ptpPort x.val s.dev).pdly) 65536)) ∧
    (∀ t2 c0, (ptpPort x.val s.dev).syncSeq = some (seq, t2, c0) →
      Answers (.ptpFollowUpRx x ev dom seq origin corr) s fun t => (ptpPort x.val t.dev).syncSeq = none ∧
        t.dev.get TM_CNT_SYNCCNT = (s.dev.get TM_CNT_SYNCCNT + 1) % 2 ^ 16 ∧
        t.dev.getS TM_OFS_OFS = satS 32 (rdiv (t2 - origin - c0 - corr - (ptpPort x.val s.dev).pdly) 65536)) := by
  refine ⟨?_, ?_, fun t2 c0 hq => ?_⟩
  · have heq := ptpSync_eq true seq origin corr rx hon hdom hlo hhi hs
    refine answers_running rfl h ?_ ?_
    · rw [heq]; exact quiet_of_frame (frame_setPtpPort calmClockRoom _ _ (frame_refl _))
    · rw [heq, ptpPort_congr _ (samePorts_of_tm (tripOutRelease_tm _)), if_pos rfl, ptpPort_setPtpPort]
  · refine answers_mono (answers_offset x.val _ rfl h ?_) fun t ht => ht.2
    exact ptpSync_eq false seq origin corr rx hon hdom hlo hhi hs
  · exact answers_offset x.val _ rfl h (ptpFollowUp_eq origin corr hon hdom hs hq)

/-! ## Peer delay (R278, R279) -/

theorem pdelayReq_answers (h : s.awake) (x : Fin 2) (ev : EthHdr) (dom : BitVec 8) (seq : BitVec 16)
    (hon : ptpOn x.val ev s.dev = true) (hdom : dom.toNat = s.dev.get TM_CFG_DOMAIN) (src : BitVec 80) (rx tx : PtpTime) :
    Answers (.ptpPdelayReqRx x ev dom seq src rx tx) s fun t =>
      t.dev.sent = .pdelayRespFollowUp x.val (frameHdr x.val (some ptpPeerMac) s.dev) seq.toNat src (ptpTx x.val tx s.dev) ::
        .pdelayResp x.val (frameHdr x.val (some ptpPeerMac) s.dev) seq.toNat src (ptpRx x.val rx s.dev) :: s.dev.sent := by
  have heq : ptpPdelayReq x.val ev dom.toNat seq src rx tx s.dev =
      (s.dev.send (.pdelayResp x.val (frameHdr x.val (some ptpPeerMac) s.dev) seq.toNat src (ptpRx x.val rx s.dev))).send
        (.pdelayRespFollowUp x.val (frameHdr x.val (some ptpPeerMac) s.dev) seq.toNat src (ptpTx x.val tx s.dev)) := by
    unfold ptpPdelayReq
    rw [if_neg (by simp [hon]), if_neg (by simp [hdom])]
  refine answers_running rfl h ?_ ?_
  · rw [heq]; exact quiet_of_frame (frame_send _ trivial (frame_send _ trivial (frame_refl _)))
  · rw [heq, tripOutRelease_sent]
    rfl

theorem quiet_setPtpPort (x : Nat) (p : PtpPort) (d : Dev) : Quiet d (setPtpPort x p d) :=
  quiet_of_frame (frame_setPtpPort calmClockRoom x p (frame_refl d))

theorem pdelayResp_answers (h : s.awake) (x : Fin 2) (ev : EthHdr) (dom : BitVec 8) (seq : BitVec 16)
    (hon : ptpOn x.val ev s.dev = true) (hdom : dom.toNat = s.dev.get TM_CFG_DOMAIN) (tt corr rx : PtpTime)
    (hseq : seq.toNat = (ptpPort x.val s.dev).reqSeq % 2 ^ 16) :
    (Answers (.ptpPdelayRespRx x ev dom seq false tt corr rx) s fun t => (ptpPort x.val t.dev).respSeen =
      some (ptpRx x.val rx s.dev - (ptpPort x.val s.dev).reqTx + tt - corr)) ∧
    (∀ acc, (ptpPort x.val s.dev).respSeen = some acc →
      Answers (.ptpPdelayRespRx x ev dom seq true tt corr rx) s fun t =>
        (ptpPort x.val t.dev).pdly = rdiv (acc - tt - corr) 2 ∧ (ptpPort x.val t.dev).respSeen = none) := by
  refine ⟨?_, fun acc hacc => ?_⟩
  · have heq : ptpPdelayResp x.val ev dom.toNat seq false tt corr rx s.dev =
        setPtpPort x.val { ptpPort x.val s.dev with
          respSeen := some (ptpRx x.val rx s.dev - (ptpPort x.val s.dev).reqTx + tt - corr) } s.dev := by
      unfold ptpPdelayResp
      rw [if_neg (by simp [hon]), if_neg (by simp [hdom]), if_neg (by simp [hseq])]
      rfl
    refine answers_running rfl h ?_ ?_
    · rw [heq]; exact quiet_setPtpPort _ _ _
    · rw [heq, ptpPort_congr _ (samePorts_of_tm (tripOutRelease_tm _)), ptpPort_setPtpPort]
  · generalize hset : setPtpPort x.val { ptpPort x.val s.dev with respSeen := none, pdly := rdiv (acc - tt - corr) 2 } s.dev = d
    have heq : ptpPdelayResp x.val ev dom.toNat seq true tt corr rx s.dev =
        if d.get TM_STAT_PORT = x.val then pdlyShow x.val d else d := by
      unfold ptpPdelayResp
      rw [if_neg (by simp [hon]), if_neg (by simp [hdom]), if_neg (by simp [hseq]), if_pos rfl, hacc, ← hset]
    have hquiet : Quiet s.dev d := by rw [← hset]; exact quiet_setPtpPort _ _ _
    have hports : d.samePorts (ptpPdelayResp x.val ev dom.toNat seq true tt corr rx s.dev) := by
      rw [heq]; exact samePorts_ite (samePorts_put TM_PDLY_PDLY _ (samePorts_refl d)) (samePorts_refl d)
    refine answers_running rfl h ?_ ?_
    · rw [heq]
      split
      · exact quiet_put _ _ hquiet (by decide)
      · exact hquiet
    · rw [ptpPort_congr _ (samePorts_of_tm (tripOutRelease_tm _)), ptpPort_congr _ hports, ← hset, ptpPort_setPtpPort]
      exact ⟨rfl, rfl⟩

theorem pdelaySend_answers (h : s.awake) (x : Fin 2) (tx : PtpTime) (hup : netUp x.val s.dev = true)
    (hen : s.dev.bit TM_CFG_PORTEN x.val = true) (hrun : s.dev.bit SV_STAT_RUN 0 = true) :
    Answers (.ptpPdelayReqSend x tx) s fun t =>
      (ptpPort x.val t.dev).reqSeq = ((ptpPort x.val s.dev).reqSeq + 1) % 2 ^ 16 ∧
      (ptpPort x.val t.dev).reqTx = ptpTx x.val tx s.dev ∧
      t.dev.sent = .pdelayReq x.val (frameHdr x.val (some ptpPeerMac) s.dev)
        (((ptpPort x.val s.dev).reqSeq + 1) % 2 ^ 16) :: s.dev.sent := by
  have heq : ptpPdelaySend x.val tx s.dev = (setPtpPort x.val { ptpPort x.val s.dev with
      reqSeq := ((ptpPort x.val s.dev).reqSeq + 1) % 2 ^ 16, reqTx := ptpTx x.val tx s.dev, respSeen := none } s.dev).send
      (.pdelayReq x.val (frameHdr x.val (some ptpPeerMac) s.dev) (((ptpPort x.val s.dev).reqSeq + 1) % 2 ^ 16)) :=
    if_pos (by rw [hen, hup, hrun]; rfl)
  refine answers_running rfl h (quiet_of_frame (frame_ptpPdelaySend calmClockRoom _ _ trivial (frame_refl _))) ?_
  rw [ptpPort_congr _ (samePorts_of_tm (tripOutRelease_tm _)), tripOutRelease_sent, heq]
  have hport : ∀ (p : PtpPort) (y : Sent), ptpPort x.val ((setPtpPort x.val p s.dev).send y) = p := fun p _ => ptpPort_setPtpPort x.val p s.dev
  rw [hport]
  refine ⟨rfl, rfl, ?_⟩
  unfold setPtpPort Dev.send
  split <;> rfl

theorem ignored_answers (h : s.awake) (x : Fin 2) (hup : netUp x.val s.dev = true) :
    Answers (.ptpIgnoredMessage x) s fun t => t.dev.get TM_CNT_IGNCNT =
      if s.dev.bit TM_CFG_PORTEN x.val && s.dev.bit SV_STAT_RUN 0 then satInc TM_CNT_IGNCNT.width (s.dev.get TM_CNT_IGNCNT) 1
      else s.dev.get TM_CNT_IGNCNT := by
  refine answers_running rfl h (quiet_of_frame ?_) ?_
  · exact frame_ite (frame_ptpIgnore calmClockRoom (frame_refl _)) (frame_refl _)
  · rw [tripOutRelease_get _ _ (by decide), ptpIgnoredOn, hup, Bool.and_true]
    split
    · rw [ptpIgnore, get_bump_same _ _ _ (by decide)]
    · rfl

end Sys2Proof.Machine

open Sys2Proof Machine

/-- Settles O12, message by message. -/
theorem ptpMessages : Obligations.PtpMessages := by
  unfold Obligations.PtpMessages
  intro s h
  refine ⟨fun m hon hdom hlo hhi hnone => announce_answers h m hon hdom hlo hhi hnone, fun x ev dom seq hon hdom => ⟨?_, ?_, ?_⟩,
    fun x tx hup => ⟨pdelaySend_answers h x tx hup, ignored_answers h x hup⟩⟩
  · exact fun hs li origin corr rx hlo hhi => sync_answers h x ev dom seq hon hdom hs li origin corr rx hlo hhi
  · exact fun src rx tx => pdelayReq_answers h x ev dom seq hon hdom src rx tx
  · exact fun tt corr rx hseq => pdelayResp_answers h x ev dom seq hon hdom tt corr rx hseq

end

section
/-! PROOFS. The states of the servo (O13, R279 to R281, Table 10.6). -/

namespace Sys2Proof.Machine

variable {W : Nat → Prop} {S : Part → Prop} {s : State} {d e : Dev}

/-! ## What a write of SUP0 leaves of the state -/

/-- A write of a group leaves a field that its effect leaves, outside the registers that collect a refusal. -/
theorem shellWrite_get {o : Origin} {g : Group} {ok : Bool} {eff : Dev → Dev} (x : Fld) (heff : (eff d).get x = d.get x)
    (hx : ¬ refuseRegs x.addr) (h1 : x.addr ≠ NT_EVT) (h2 : x.addr ≠ NT_CNT1) : (shellWrite o g ok eff d).2.get x = d.get x := by
  unfold shellWrite
  split
  · exact heff
  · exact get_congr _ _ _ (refuse_word o d _ hx h1 h2)


theorem addSlew_get (x : Int) (d : Dev) (f : Fld) (h : f.addr ≠ TM_STAT ∨ f.lsb + f.width ≤ 5 ∨ 6 ≤ f.lsb) (hf : f.lsb + f.width ≤ 32) :
    (addSlew x d).get f = d.get f := by
  unfold addSlew
  extract_lets lim r
  generalize r = r
  rcases h with h | h
  · exact (get_put_ne _ TM_STAT_SLEWING _ _ (Ne.symm h)).trans (setTm_get d _ f)
  · exact (get_put_disj _ TM_STAT_SLEWING _ _ hf h).trans (setTm_get d _ f)

theorem servoAct_state (ofs : Int) (big : Bool) (d : Dev) : (servoAct ofs big d).get TM_STAT_STATE = d.get TM_STAT_STATE := by
  have hr : ¬ refuseRegs TM_STAT_STATE.addr := by unfold refuseRegs; decide
  unfold servoAct
  extract_lets corrected us
  have hcorrected : corrected.get TM_STAT_STATE = d.get TM_STAT_STATE :=
    shellWrite_get _ (get_put_ne _ _ _ _ (by decide)) hr (by decide) (by decide)
  split
  · exact (shellWrite_get _ (addSlew_get _ _ _ (by decide) (by decide)) hr (by decide) (by decide)).trans hcorrected
  split
  · refine (shellWrite_get _ ?_ hr (by decide) (by decide)).trans
      ((shellWrite_get _ rfl hr (by decide) (by decide)).trans hcorrected)
    exact get_put_disj _ TM_STAT_JUMPPEND _ _ (by decide) (by decide)
  · exact hcorrected

/-- A jump requested by SUP0 waits, with SUP0 permitted and register writes accepted. -/
theorem servoAct_jump (ofs : Int) (d : Dev) (hm : d.mode = modeIDLE) (hp : d.permits .sup .time = true) :
    (servoAct ofs true d).flag TM_STAT_JUMPPEND = true := by
  have K : ServoRoom ofsRegs fun _ => True := ofsRoom
  unfold servoAct
  extract_lets corrected us
  have hframe : Frame ofsRegs (fun _ => True) d (wrTmJumpHi .sup (BitVec.ofNat 32 (us / 2 ^ 32)) corrected).2 :=
    frame_wrTmJumpHi K _ _ (frame_servo_wrTmIncr K _ _ (frame_refl d))
  have hcorrected : corrected.mode = modeIDLE :=
    ((frame_servo_wrTmIncr K _ _ (frame_refl d)).get GL_MODE_MODE (by unfold ofsRegs; decide)).trans hm
  have hmode : (wrTmJumpHi .sup (BitVec.ofNat 32 (us / 2 ^ 32)) corrected).2.mode = modeIDLE :=
    (hframe.get GL_MODE_MODE (by unfold ofsRegs; decide)).trans hm
  have hperm : (wrTmJumpHi .sup (BitVec.ofNat 32 (us / 2 ^ 32)) corrected).2.permits .sup .time = true :=
    (hframe.flag SV_WPERM_TIME (by unfold ofsRegs; decide)).trans hp
  rw [if_neg (by simp), if_pos hcorrected]
  unfold wrTmJumpLo
  rw [shellWrite_accepted (by unfold Dev.writable; rw [hmode]; decide) hperm rfl]
  exact flag_put_one _ TM_STAT_JUMPPEND (by decide) (by decide)

/-! ## The state taken on one offset -/

theorem servoState_acquire_lock {ns : Int} {big : Bool} (hst : d.get TM_STAT_STATE = svACQUIRE) (hrun : d.tm.lockRun = 15)
    (hle : ns.natAbs ≤ d.get TM_SRVCFG_LOCKTH) : (servoState ns big d).get TM_STAT_STATE = svLOCKED := by
  unfold servoState
  dsimp only
  rw [if_pos hst, if_pos hle, hrun, if_pos (by decide)]
  exact get_put_lt _ _ _ (by decide) (by decide)

theorem servoState_lose_lock {ns : Int} {big : Bool} (hst : d.get TM_STAT_STATE = svLOCKED) (hrun : d.tm.badRun = 3)
    (hlt : 4 * d.get TM_SRVCFG_LOCKTH < ns.natAbs) : (servoState ns big d).get TM_STAT_STATE = svACQUIRE := by
  unfold servoState
  dsimp only
  rw [if_neg (by rw [hst]; decide), if_pos hst, if_pos hlt, hrun, if_pos (by decide)]
  exact get_put_lt _ _ _ (by decide) (by decide)

/-- A servo that steers goes on steering. -/
theorem servoState_steers (ns : Int) (big : Bool) (h : servoSteers d = true) : servoSteers (servoState ns big d) = true := by
  have hst : d.get TM_STAT_STATE = svACQUIRE ∨ d.get TM_STAT_STATE = svLOCKED := by simpa [servoSteers] using h
  have steer (e : Dev) (v : Nat) (hv : v = svACQUIRE ∨ v = svLOCKED) : servoSteers (e.put TM_STAT_STATE v) = true := by
    rcases hv with rfl | rfl <;> (rw [servoSteers, get_put_lt _ _ _ (by decide) (by decide)]; rfl)
  unfold servoState
  extract_lets lockTh st n m
  rcases hst with hst | hst
  · rw [if_pos hst]
    split
    · exact steer _ _ (.inr rfl)
    · exact h
  · rw [if_neg (by rw [show st = svLOCKED from hst]; decide), if_pos hst]
    split
    · exact steer _ _ (.inl rfl)
    · exact h

theorem servoState_keeps (ns : Int) (big : Bool) (d : Dev) (x : Fld) (h : ¬ ofsRegs x.addr) :
    (servoState ns big d).get x = d.get x := (frame_servoState ofsRoom ns big (frame_refl d)).get x h

/-- In IDLE no offset is refused. -/
theorem servoReact_idle (ofs : Int) (big : Bool) (hm : d.mode = modeIDLE) :
    servoReact ofs big d = if servoSteers (servoState (rdiv ofs 65536) big d) then
      servoAct ofs big (servoState (rdiv ofs 65536) big d) else servoState (rdiv ofs 65536) big d := by
  have hc : d.converting = false := by rw [Dev.converting, hm]; rfl
  unfold servoReact
  rw [hc]
  simp

theorem servoReact_idle_state (ofs : Int) (big : Bool) (hm : d.mode = modeIDLE) :
    (servoReact ofs big d).get TM_STAT_STATE = (servoState (rdiv ofs 65536) big d).get TM_STAT_STATE := by
  rw [servoReact_idle ofs big hm]
  split
  · exact servoAct_state _ _ _
  · rfl

/-! ## The clauses of Sync -/

/-- A Sync of a serving port in IDLE: what the servo makes of the offset it shows. -/
theorem answers_syncIdle (h : s.awake) (x : Fin 2) (ev : EthHdr) (dom : BitVec 8) (seq : BitVec 16) (li : Int) (origin corr rx : PtpTime)
    (hon : ptpOn x.val ev s.dev = true) (hdom : dom.toNat = s.dev.get TM_CFG_DOMAIN) (hlo : -4 ≤ li) (hhi : li ≤ 1)
    (hs : ptpServes x.val s.dev = true) {P : Dev → Prop}
    (hP : ∀ d : Dev, (∀ f : Fld, f.addr ≠ TM_OFS → f.addr ≠ TM_CNT → f.addr ≠ TM_PDLY → d.get f = s.dev.get f) →
      d.tm.lockRun = s.dev.tm.lockRun → d.tm.badRun = s.dev.tm.badRun →
      P (tripOutRelease (servoReact (ptpRx x.val rx s.dev - origin - corr - (ptpPort x.val s.dev).pdly)
        (ofsBeyond (ptpRx x.val rx s.dev - origin - corr - (ptpPort x.val s.dev).pdly) s.dev) d))) :
    Answers (.ptpSyncRx x ev dom li false seq origin corr rx) s fun t => P t.dev := by
  have heq := ptpSync_eq false seq origin corr rx hon hdom hlo hhi hs
  refine answers_running rfl h ?_ ?_
  · rw [heq]; exact quiet_servoOffset _ _ _ _
  · generalize hofs : ptpRx x.val rx s.dev - origin - corr - (ptpPort x.val s.dev).pdly = ofs at *
    have hset : ∀ p, ofsBeyond ofs (setPtpPort x.val p s.dev) = ofsBeyond ofs s.dev := fun p => by
      rw [ofsBeyond, setPtpPort_get, ofsBeyond]
    rw [heq, if_neg (by simp), servoOffset_eq, hset]
    refine hP _ (fun f h1 h2 h3 => (servoTested_get _ _ f h1 h2 h3).trans (setPtpPort_get _ _ _ _)) ?_ ?_ <;>
      (unfold servoTested setPtpPort; split <;> rfl)

/-- The Sync clause of O13. -/
theorem servo_sync (h : s.awake) (x : Fin 2) (ev : EthHdr) (dom : BitVec 8) (seq : BitVec 16) (li : Int) (origin corr rx : PtpTime)
    (hon : ptpOn x.val ev s.dev = true) (hdom : dom.toNat = s.dev.get TM_CFG_DOMAIN) (hlo : -4 ≤ li) (hhi : li ≤ 1)
    (hs : ptpServes x.val s.dev = true) (hm : s.dev.mode = modeIDLE) :
    let ns := rdiv (ptpRx x.val rx s.dev - origin - corr - (ptpPort x.val s.dev).pdly) 65536
    (s.dev.get TM_STAT_STATE = svACQUIRE → s.dev.tm.lockRun = 15 → ns.natAbs ≤ s.dev.get TM_SRVCFG_LOCKTH →
      Answers (.ptpSyncRx x ev dom li false seq origin corr rx) s fun t => t.dev.get TM_STAT_STATE = svLOCKED) ∧
    (s.dev.get TM_STAT_STATE = svLOCKED → s.dev.tm.badRun = 3 → 4 * s.dev.get TM_SRVCFG_LOCKTH < ns.natAbs →
      Answers (.ptpSyncRx x ev dom li false seq origin corr rx) s fun t => t.dev.get TM_STAT_STATE = svACQUIRE) ∧
    ((s.dev.get TM_STAT_STATE = svACQUIRE ∨ s.dev.get TM_STAT_STATE = svLOCKED) → s.dev.permits .sup .time = true →
      1000 * s.dev.get TM_JMPCFG_JMAX < ns.natAbs →
      Answers (.ptpSyncRx x ev dom li false seq origin corr rx) s fun t => t.dev.flag TM_STAT_JUMPPEND = true) := by
  intro ns
  refine ⟨fun hst hrun hle => ?_, fun hst hrun hlt => ?_, fun hst hp hlt => ?_⟩
  · refine answers_syncIdle h x ev dom seq li origin corr rx hon hdom hlo hhi hs (P := fun d => d.get TM_STAT_STATE = svLOCKED)
      fun d hget hlock _ => ?_
    rw [tripOutRelease_get _ _ (by decide), servoReact_idle_state _ _ ((hget GL_MODE_MODE (by decide) (by decide) (by decide)).trans hm)]
    refine servoState_acquire_lock ((hget _ (by decide) (by decide) (by decide)).trans hst) (hlock.trans hrun) ?_
    rw [hget TM_SRVCFG_LOCKTH (by decide) (by decide) (by decide)]
    exact hle
  · refine answers_syncIdle h x ev dom seq li origin corr rx hon hdom hlo hhi hs (P := fun d => d.get TM_STAT_STATE = svACQUIRE)
      fun d hget _ hbad => ?_
    rw [tripOutRelease_get _ _ (by decide), servoReact_idle_state _ _ ((hget GL_MODE_MODE (by decide) (by decide) (by decide)).trans hm)]
    refine servoState_lose_lock ((hget _ (by decide) (by decide) (by decide)).trans hst) (hbad.trans hrun) ?_
    rw [hget TM_SRVCFG_LOCKTH (by decide) (by decide) (by decide)]
    exact hlt
  · refine answers_syncIdle h x ev dom seq li origin corr rx hon hdom hlo hhi hs (P := fun d => d.flag TM_STAT_JUMPPEND = true)
      fun d hget _ _ => ?_
    have hmode : d.mode = modeIDLE := (hget GL_MODE_MODE (by decide) (by decide) (by decide)).trans hm
    have hsteers : servoSteers d = true := by
      rw [servoSteers, hget _ (by decide) (by decide) (by decide)]
      simpa using hst
    have hbig : ofsBeyond (ptpRx x.val rx s.dev - origin - corr - (ptpPort x.val s.dev).pdly) s.dev = true := by
      rw [ofsBeyond, Nat.mul_comm]
      exact decide_eq_true hlt
    have hperm : d.permits .sup .time = true := (flag_congr (hget SV_WPERM_TIME (by decide) (by decide) (by decide))).trans hp
    rw [tripOutRelease_flag _ _ (by decide), hbig, servoReact_idle _ _ hmode, if_pos (servoState_steers _ _ hsteers)]
    refine servoAct_jump _ _ ?_ ?_
    · exact (servoState_keeps _ _ _ GL_MODE_MODE (by unfold ofsRegs; decide)).trans hmode
    · exact (flag_congr (servoState_keeps _ _ _ SV_WPERM_TIME (by unfold ofsRegs; decide))).trans hperm

/-! ## Timeouts (R277, R281) -/

/-- A device whose servo does not leave LOCKED or ACQUIRE keeps it over a loss of its master. -/
theorem masterLost_get (d : Dev) (x : Fld) : (masterLost d).get x = d.get x := by
  unfold masterLost
  extract_lets p _ d'
  have hd' : d'.get x = d.get x := by
    show (if d.tm.gm.isSome then _ else d).get x = d.get x
    split
    · exact setPtpPort_get _ _ _ _
    · rfl
  split
  · exact hd'
  · exact hd'

/-- The servo's part of a timeout. -/
def servoWaits (lost : Bool) (d : Dev) : Dev :=
  if d.get TM_STAT_STATE = svLOCKED then servoHoldover d
  else if d.get TM_STAT_STATE = svACQUIRE ∧ lost ∧ d.tm.gm.isNone then d.put TM_STAT_STATE svFREE
  else d

theorem ptpTimeout_eq (lost : Bool) (h : d.bit SV_STAT_RUN 0 = true) :
    ptpTimeout lost d = if lost then selectMaster (servoWaits lost (masterLost d)) else servoWaits lost d := by
  unfold ptpTimeout
  rw [if_neg (by simp [h])]
  cases lost <;> rfl

theorem servoWaits_locked (lost : Bool) (h : d.get TM_STAT_STATE = svLOCKED) :
    (servoWaits lost d).get TM_STAT_STATE = svHOLDOVER ∧ (servoWaits lost d).flag TM_EVT_HOLD = true := by
  unfold servoWaits servoHoldover
  rw [if_pos h]
  exact ⟨(get_raise_ne _ _ _ _ (by decide) (by decide) (by decide)).trans (get_put_lt _ _ _ (by decide) (by decide)),
    flag_raise_same _ _ _ rfl (by decide) (by decide) (by decide)⟩

/-- The selection of a master leaves the flags of station time but MASTCHG. -/
theorem selectMaster_flag (d : Dev) (x : Fld) (hx : x.addr = TM_EVT) (hl : x.lsb + x.width ≤ 32)
    (hd : x.lsb + x.width ≤ TM_EVT_MASTCHG.lsb ∨ TM_EVT_MASTCHG.lsb + TM_EVT_MASTCHG.width ≤ x.lsb) :
    (selectMaster d).get x = d.get x := by
  cases hb : bestMaster d with
  | none => unfold selectMaster; rw [hb]
  | some m =>
    have hport : (masterPort m d).get x = d.get x := by
      have hne (f : Fld) (v : Nat) (e : Dev) (hf : f.addr ≠ TM_EVT) : (e.put f v).get x = e.get x :=
        get_put_ne _ _ _ _ (by rw [hx]; exact hf)
      exact (hne TM_UTC_UTCV _ _ (by decide)).trans ((hne TM_UTC_UTCOFS _ _ (by decide)).trans (hne TM_STAT_PORT _ _ (by decide)))
    have hshow : (masterShow m d).get x = d.get x := by
      refine Eq.trans ?_ hport
      unfold masterShow masterName
      split
      · rfl
      · refine (get_raise_disj _ TM_EVT_MASTCHG x _ hx (by decide) (by decide) hl hd).trans ?_
        exact (setTm_get _ _ x).trans ((get_put_ne _ (TM_GMID_ID 1) x _ (by rw [hx]; decide)).trans
          (get_put_ne _ (TM_GMID_ID 0) x _ (by rw [hx]; decide)))
    rw [selectMaster_some hb]
    split
    · exact (get_put_ne _ _ _ _ (by rw [hx]; decide)).trans hshow
    · exact hshow

theorem timeout_locked (h : s.awake) (hrun : s.dev.bit SV_STAT_RUN 0 = true) (lost : Bool)
    (hst : s.dev.get TM_STAT_STATE = svLOCKED) :
    Answers (.ptpReceiptTimeout lost) s fun t => t.dev.get TM_STAT_STATE = svHOLDOVER ∧ t.dev.flag TM_EVT_HOLD = true := by
  refine answers_running rfl h (quiet_of_frame (frame_ptpTimeout calmClockRoom lost (frame_refl _))) ?_
  rw [tripOutRelease_get _ _ (by decide), tripOutRelease_flag _ _ (by decide), ptpTimeout_eq lost hrun]
  cases lost
  case false => exact servoWaits_locked false hst
  case true =>
    obtain ⟨hstate, hflag⟩ := servoWaits_locked (d := masterLost s.dev) true ((masterLost_get _ _).trans hst)
    obtain ⟨-, -, hkeep⟩ := selectMaster_facts (servoWaits true (masterLost s.dev))
    rw [if_pos rfl]
    refine ⟨(hkeep (by rw [hstate]; decide)).trans hstate, ?_⟩
    exact (flag_congr (selectMaster_flag _ _ rfl (by decide) (by decide))).trans hflag

/-- What the loss of the serving master leaves: the master of the other port. -/
theorem masterLost_best (d : Dev) (hg : d.tm.gm.isSome = true) :
    bestMaster (masterLost d) = (ptpPort (1 - d.get TM_STAT_PORT) d).master ∧
      ((bestMaster (masterLost d)).isNone → (masterLost d).tm.gm = none) := by
  have hport : d.get TM_STAT_PORT < 2 := get_lt d TM_STAT_PORT
  have hbest : ∀ d' : Dev, d' = setPtpPort (d.get TM_STAT_PORT) { ptpPort (d.get TM_STAT_PORT) d with master := none } d →
      bestMaster d' = (ptpPort (1 - d.get TM_STAT_PORT) d).master := by
    rintro d' rfl
    rcases Nat.lt_or_ge 0 (d.get TM_STAT_PORT) with hp | hp
    · rw [show d.get TM_STAT_PORT = 1 by omega]
      show (match d.tm.port0.master, (none : Option Announce) with
        | none, m => m | m, none => m | some a, some b => if rankLt (annRank b) (annRank a) then some b else some a) = d.tm.port0.master
      cases d.tm.port0.master <;> rfl
    · rw [show d.get TM_STAT_PORT = 0 by omega]
      rfl
  unfold masterLost
  dsimp only
  rw [if_pos hg]
  have hb := hbest _ rfl
  split
  case isTrue k => exact ⟨hb, fun n => absurd k (by simpa using n)⟩
  case isFalse => exact ⟨hb, fun _ => rfl⟩

theorem servoWaits_tm (lost : Bool) (d : Dev) : (servoWaits lost d).tm = d.tm := by
  unfold servoWaits
  split
  · rw [servoHoldover, raise_tm, put_tm]
  split <;> rfl

theorem bestMaster_congr (h : e.tm = d.tm) : bestMaster e = bestMaster d := by simp only [bestMaster, h]

theorem timeout_lost (h : s.awake) (hrun : s.dev.bit SV_STAT_RUN 0 = true) (hg : s.dev.tm.gm.isSome = true) :
    Answers (.ptpReceiptTimeout true) s fun t =>
      match (ptpPort (1 - s.dev.get TM_STAT_PORT) s.dev).master with
      | none => t.dev.tm.gm = none
      | some m => t.dev.tm.gm = some m.gmId ∧ t.dev.get TM_STAT_PORT = m.port.val := by
  obtain ⟨hbest, hnone⟩ := masterLost_best s.dev hg
  have hwait : bestMaster (servoWaits true (masterLost s.dev)) = bestMaster (masterLost s.dev) :=
    bestMaster_congr (servoWaits_tm _ _)
  refine answers_running rfl h (quiet_of_frame (frame_ptpTimeout calmClockRoom true (frame_refl _))) ?_
  rw [tripOutRelease_tm, tripOutRelease_get _ _ (by decide), ptpTimeout_eq true hrun, if_pos rfl]
  cases hm : (ptpPort (1 - s.dev.get TM_STAT_PORT) s.dev).master with
  | none =>
    have hb : bestMaster (servoWaits true (masterLost s.dev)) = none := hwait.trans (hbest.trans hm)
    have heq : selectMaster (servoWaits true (masterLost s.dev)) = servoWaits true (masterLost s.dev) := by
      unfold selectMaster; rw [hb]
    show (selectMaster _).tm.gm = none
    rw [heq, servoWaits_tm, hnone (by rw [hbest, hm]; rfl)]
  | some m => exact selectMaster_serves (hwait.trans (hbest.trans hm))

theorem holdoverExpiry_answers (h : s.awake) {P : Dev → Prop} (hP : P (tripOutRelease (holdoverExpired s.dev))) :
    Answers .holdoverExpiry s fun t => P t.dev :=
  answers_running rfl h (quiet_of_frame (frame_holdoverExpired calmClockRoom (frame_refl _))) hP

theorem todWriteback_answers (h : s.awake) {P : State → Prop}
    (hP : P { todWritebackF s with dev := tripOutRelease s.dev, pending := s.pending }) : Answers .todWriteback s P := by
  have hdev : (todWritebackF s).dev = s.dev := by unfold todWritebackF; split <;> rfl
  refine answers_whole_quiet rfl h (by rw [hdev]; exact quiet_refl _) ?_
  rwa [hdev]

end Sys2Proof.Machine

open Sys2Proof Machine

/-- Settles O13: the servo's state on one offset, its timeouts, and the write-back of time. -/
theorem servoStates : Obligations.ServoStates := by
  unfold Obligations.ServoStates
  intro s h
  refine ⟨fun x ev dom seq li origin corr rx hon hdom hlo hhi hs hm => servo_sync h x ev dom seq li origin corr rx hon hdom hlo hhi hs hm,
    fun hrun => ⟨timeout_locked h hrun, timeout_lost h hrun, fun hst => ?_, fun hlock => ?_⟩, fun hrun => ⟨fun lost => ?_, ?_, ?_⟩⟩
  · refine holdoverExpiry_answers h (P := fun d => d.flag TM_EVT_HOEXP = true) ?_
    rw [tripOutRelease_flag _ _ (by decide), holdoverExpired, if_pos ⟨hst, hrun⟩]
    exact flag_raise_same _ _ _ rfl (by decide) (by decide) (by decide)
  · refine todWriteback_answers h ?_
    rw [todWritebackF, if_pos ⟨h.1, hlock, hrun⟩]
    exact ⟨rfl, rfl⟩
  · have heq : ptpTimeout lost s.dev = s.dev := if_pos (by simp [hrun])
    refine answers_running rfl h (by rw [heq]; exact quiet_refl _) ?_
    rw [heq, tripOutRelease_get _ _ (by decide), tripOutRelease_tm]
    exact ⟨rfl, rfl⟩
  · refine holdoverExpiry_answers h (P := fun d => d.get TM_EVT_HOEXP = s.dev.get TM_EVT_HOEXP) ?_
    rw [tripOutRelease_get _ _ (by decide), holdoverExpired, if_neg (by simp [hrun])]
  · refine todWriteback_answers h ?_
    rw [todWritebackF, if_neg (by simp [hrun])]

end

section
/-! PROOFS. What the operations of a region do to its state: channels, mull sets, votes (used by O29 to O33 and O35). -/

namespace Sys2Proof.Machine

variable {d e : Dev} {g c : Nat}

/-! ## Channels -/

@[simp] theorem chan_setChan_same (r : RegionSt) (c : Nat) (x : Chan) : (r.setChan c x).chan c = x := by
  unfold RegionSt.setChan RegionSt.chan
  split
  · rfl
  · split <;> rfl

theorem chan_setChan_ne (r : RegionSt) {c k : Nat} (x : Chan) (hc : c < 3) (hk : k < 3) (h : c ≠ k) :
    (r.setChan c x).chan k = r.chan k := by
  have hc' : c = 0 ∨ c = 1 ∨ c = 2 := by omega
  have hk' : k = 0 ∨ k = 1 ∨ k = 2 := by omega
  rcases hc' with rfl | rfl | rfl <;> rcases hk' with rfl | rfl | rfl <;> first | rfl | exact absurd rfl h

theorem region_onChan (d : Dev) (g c : Nat) (f : Chan → Chan) :
    (d.onChan g c f).region g = (d.region g).setChan c (f ((d.region g).chan c)) := region_onRegion_same d g _

@[simp] theorem onChan_get (d : Dev) (g c : Nat) (f : Chan → Chan) (x : Fld) : (d.onChan g c f).get x = d.get x := rfl
@[simp] theorem onChan_flag (d : Dev) (g c : Nat) (f : Chan → Chan) (x : Fld) : (d.onChan g c f).flag x = d.flag x := rfl
@[simp] theorem onRegion_flag (d : Dev) (g : Nat) (f : RegionSt → RegionSt) (x : Fld) : (d.onRegion g f).flag x = d.flag x := rfl

theorem three (p : Nat → Prop) (h0 : p 0) (h1 : p 1) (h2 : p 2) {k : Nat} (hk : k < 3) : p k := by
  have : k = 0 ∨ k = 1 ∨ k = 2 := by omega
  rcases this with rfl | rfl | rfl <;> assumption

theorem foldN_three {α : Type} (f : α → Nat → α) (a : α) : foldN 3 f a = f (f (f a 0) 1) 2 := rfl

/-! ## Mull sets -/

/-- A channel with its own copy changed. -/
def ownMap (f : Mull → Mull) (x : Chan) : Chan := { x with own := x.own.map fun p => (f p.1, p.2) }

/-- A region with the copies of its channels changed. -/
def RegionSt.ownEach (f : Mull → Mull) (r : RegionSt) : RegionSt :=
  { r with chA := ownMap f r.chA, chB := ownMap f r.chB, chC := ownMap f r.chC }

/-- A region with the common items of a mull set put in place. -/
def RegionSt.withMull (m : Mull) (r : RegionSt) : RegionSt := { r with
  ctl := m.ctl, meas := m.meas, u0 := m.u0, u1 := m.u1, u2 := m.u2, dph := m.dph, carry := m.carry, last := m.last }

theorem region_ownEach (f : Mull → Mull) (d : Dev) : (ownEach g f d).region g = (d.region g).ownEach f := by
  unfold ownEach
  rw [foldN_three, region_onChan, region_onChan, region_onChan]
  rfl

theorem region_setMull (m : Mull) (d : Dev) : (setMull g m d).region g = (d.region g).withMull m := by
  simp only [setMull, region_put, region_putB, region_onRegion_same]
  rfl

theorem region_onMull (f : Mull → Mull) (d : Dev) :
    (onMull g f d).region g = ((d.region g).withMull (f (mullOf g d))).ownEach f := by
  unfold onMull
  rw [region_ownEach, region_setMull]

/-- The own copies change, and nothing else of a channel. -/
theorem chan_ownEach (f : Mull → Mull) (r : RegionSt) {c : Nat} (hc : c < 3) : (r.ownEach f).chan c = ownMap f (r.chan c) :=
  three (fun c => (r.ownEach f).chan c = ownMap f (r.chan c)) rfl rfl rfl hc

theorem chan_withMull (m : Mull) (r : RegionSt) (c : Nat) : (r.withMull m).chan c = r.chan c := rfl

@[simp] theorem ownEach_get (f : Mull → Mull) (d : Dev) (x : Fld) : (ownEach g f d).get x = d.get x := by
  unfold ownEach
  rw [foldN_three, onChan_get, onChan_get, onChan_get]

theorem setMull_get (m : Mull) (d : Dev) (x : Fld) (h1 : x.addr ≠ RG_MODSTAT g) (h2 : x.addr ≠ RG_MODHOLD g)
    (h3 : x.addr ≠ RG_FBSTAT g) : (setMull g m d).get x = d.get x := by
  unfold setMull Dev.putB
  rw [get_put_ne _ _ _ _ (Ne.symm h3), get_put_ne _ _ _ _ (Ne.symm h2), get_put_ne _ _ _ _ (Ne.symm h1), get_onRegion]

theorem onMull_get (f : Mull → Mull) (d : Dev) (x : Fld) (h1 : x.addr ≠ RG_MODSTAT g) (h2 : x.addr ≠ RG_MODHOLD g)
    (h3 : x.addr ≠ RG_FBSTAT g) : (onMull g f d).get x = d.get x := by
  unfold onMull
  rw [ownEach_get, setMull_get _ _ _ h1 h2 h3]

theorem region_handOver (d : Dev) : (handOver d).region g = d.region g :=
  (frame_handOver (W := fun _ => True) (S := fun p => p = .sent ∨ p = .tw) (.inl rfl) (.inr rfl) trivial (frame_refl d)).parts (.region g)
    nofun

theorem region_soleOr (x : Fld) (d : Dev) : (soleOr g x d).region g = d.region g := by
  unfold soleOr
  split
  · exact region_handOver d
  · exact raise_region _ _ _ _

@[simp] theorem region_chanGo (st : Nat) (d : Dev) (k : Nat) : (chanGo g c st d).region k = d.region k := rfl
@[simp] theorem region_chanLost (d : Dev) (k : Nat) : (chanLost g c d).region k = d.region k := by simp [chanLost]
@[simp] theorem region_promote (d : Dev) (k : Nat) : (promote g c d).region k = d.region k := by simp [promote]

/-! ## Views of a region that votes and channels do not change -/

/-- A view of a region that does not look at its channels, nor at what holds and votes without agreement note. -/
structure VoteBlind {α : Type} (f : RegionSt → α) : Prop where
  chan : ∀ r c x, f (r.setChan c x) = f r
  noag : ∀ r : RegionSt, f { r with noag := true } = f r
  hold2 : ∀ r : RegionSt, f { r with hold2 := true } = f r

section blind
variable {α : Type} {f : RegionSt → α} (B : VoteBlind f)
include B

theorem VoteBlind.onChan (c : Nat) (k : Chan → Chan) (d : Dev) : f ((d.onChan g c k).region g) = f (d.region g) := by
  rw [region_onChan, B.chan]

theorem VoteBlind.ownEach (k : Mull → Mull) (d : Dev) : f ((ownEach g k d).region g) = f (d.region g) := by
  unfold Machine.ownEach
  rw [foldN_three, B.onChan, B.onChan, B.onChan]

theorem VoteBlind.noAgree (d : Dev) : f ((noAgree g d).region g) = f (d.region g) := by
  unfold Machine.noAgree
  rw [region_soleOr, region_onRegion_same, B.noag]

theorem VoteBlind.giveUp (c cause : Nat) (d : Dev) : f ((giveUp g c cause d).region g) = f (d.region g) := by
  unfold Machine.giveUp
  extract_lets st caused counted reset lost checked
  have hreset : f (reset.region g) = f (d.region g) := by
    rw [B.onChan]
    show f ((((caused.bump (CH_CNT_GUCNT g c)).raise (CH_VEVT_GIVEUP g) .service)).region g) = _
    rw [raise_region]
    rfl
  have hlost : f (lost.region g) = f (d.region g) := by
    show f ((if _ then chanLost g c reset else reset).region g) = _
    split
    · rw [region_chanLost, hreset]
    · exact hreset
  have hchecked : f (checked.region g) = f (d.region g) := by
    have step (e : Dev) (k : Nat) :
        (if checkOk g k e then (chanGo g k chSTANDBY e).raise (CH_VEVT_RSDONE g) .notice else e).region g = e.region g := by
      split
      · rw [raise_region, region_chanGo]
      · rfl
    show f ((foldN 3 _ lost).region g) = _
    rw [foldN_three, step, step, step, hlost]
  split
  · rfl
  split
  · exact hlost
  split
  · rw [region_promote, hchecked]
  · split
    · rw [region_soleOr, hchecked]
    · exact hchecked

theorem VoteBlind.dissent (c cause : Nat) (d : Dev) : f ((dissent g c cause d).region g) = f (d.region g) := by
  unfold Machine.dissent
  extract_lets counted checked
  have hcounted : counted.region g = d.region g := rfl
  split
  · have hchecked : f (checked.region g) = f (d.region g) := B.onChan _ _ _
    split
    · rw [B.giveUp, hchecked]
    · exact hchecked
  · rw [B.giveUp, hcounted]

theorem VoteBlind.dissenters (cause digest : Nat) (ds : List (Nat × Nat)) (d : Dev) :
    f ((dissenters g cause digest ds d).region g) = f (d.region g) := by
  unfold Machine.dissenters
  induction ds generalizing d with
  | nil => rfl
  | cons p ps ih =>
    rw [List.foldl_cons, ih]
    split
    · rfl
    · exact B.dissent _ _ _

theorem VoteBlind.countHold (d : Dev) : f ((countHold g d).region g) = f (d.region g) := by
  unfold Machine.countHold
  extract_lets counted own two
  have hown : f (own.region g) = f (d.region g) := B.ownEach _ _
  have htwo : f (two.region g) = f (d.region g) := by
    show f ((if _ then _ else own).region g) = _
    split
    · rw [region_onRegion_same, B.hold2, raise_region, hown]
    · exact hown
  split
  · rw [raise_region, htwo]
  · exact htwo

end blind

end Sys2Proof.Machine
end

section
/-! PROOFS. What stays as it is while time moves on to the instant of a command. -/

namespace Sys2Proof.Machine

variable {d e : Dev}

theorem not_timeRegs_of_unit {a : Nat} (h : 0x6000 ≤ a) : ¬ timeRegs a := by
  unfold timeRegs TM_STAT PL_TCTL PL_SCTL
  omega

theorem at_get (d : Dev) (t : Nat) (x : Fld) (h : ¬ timeRegs x.addr) : (d.at_ t).get x = d.get x := get_congr _ _ _ (until_word _ _ _ h)
theorem at_flag (d : Dev) (t : Nat) (x : Fld) (h : ¬ timeRegs x.addr) : (d.at_ t).flag x = d.flag x := flag_congr (at_get d t x h)
theorem at_bit (d : Dev) (t : Nat) (x : Fld) (i : Nat) (h : ¬ timeRegs x.addr) : (d.at_ t).bit x i = d.bit x i :=
  bit_congr (at_get d t x h)

theorem at_mode (d : Dev) (t : Nat) : (d.at_ t).mode = d.mode := at_get d t _ (by unfold timeRegs; decide)
theorem at_converting (d : Dev) (t : Nat) : (d.at_ t).converting = d.converting := by simp only [Dev.converting, at_mode]
theorem at_live (d : Dev) (t : Nat) : (d.at_ t).live = d.live := by simp only [Dev.live, at_mode, at_converting]

theorem at_lane (d : Dev) (t k : Nat) : (d.at_ t).lane k = d.lane k := rfl
theorem at_quire (d : Dev) (t k : Nat) : (d.at_ t).quire k = d.quire k := rfl
theorem at_cell (d : Dev) (t k : Nat) : (d.at_ t).cell k = d.cell k := rfl
theorem at_region (d : Dev) (t k : Nat) : (d.at_ t).region k = d.region k := rfl
theorem at_group (d : Dev) (t k : Nat) : (d.at_ t).group k = d.group k := rfl
theorem at_ain (d : Dev) (t k : Nat) : (d.at_ t).ain k = d.ain k := rfl

/-! ## The period -/

theorem at_timePassed (d : Dev) (t : Nat) : TimePassed d.tm (d.at_ t).tm := until_timePassed d _

theorem timePassed_period {x y : TimeSt} (h : TimePassed x y) :
    y.bj = x.bj ∧ y.jAbs = x.jAbs ∧ y.gapEnd = x.gapEnd ∧ y.tTicks = x.tTicks ∧ y.grid = x.grid ∧ y.eras = x.eras := by
  have hb := congrArg TimeSt.bj h
  have hj := congrArg TimeSt.jAbs h
  have hg := congrArg TimeSt.gapEnd h
  have ht := congrArg TimeSt.tTicks h
  have hr := congrArg TimeSt.grid h
  have he := congrArg TimeSt.eras h
  exact ⟨hb, hj, hg, ht, hr, he⟩

theorem at_bj (d : Dev) (t : Nat) : (d.at_ t).tm.bj = d.tm.bj := (timePassed_period (at_timePassed d t)).1
theorem at_jAbs (d : Dev) (t : Nat) : (d.at_ t).tm.jAbs = d.tm.jAbs := (timePassed_period (at_timePassed d t)).2.1
theorem at_gapEnd (d : Dev) (t : Nat) : (d.at_ t).tm.gapEnd = d.tm.gapEnd := (timePassed_period (at_timePassed d t)).2.2.1
theorem at_tTicks (d : Dev) (t : Nat) : (d.at_ t).tm.tTicks = d.tm.tTicks := (timePassed_period (at_timePassed d t)).2.2.2.1
theorem at_grid (d : Dev) (t : Nat) : (d.at_ t).tm.grid = d.tm.grid := (timePassed_period (at_timePassed d t)).2.2.2.2.1
theorem at_eras (d : Dev) (t : Nat) : (d.at_ t).tm.eras = d.tm.eras := (timePassed_period (at_timePassed d t)).2.2.2.2.2
theorem at_T (d : Dev) (t : Nat) : (d.at_ t).T = d.T := at_tTicks d t
theorem at_posBase (d : Dev) (t : Nat) : (d.at_ t).posBase = d.posBase := by simp only [Dev.posBase, at_bj, at_gapEnd, at_tTicks]
theorem at_planTick (c : Nat) (d : Dev) (t : Nat) : planTick c (d.at_ t) = planTick c d := by rw [planTick, at_T, planTick]

/-! ## Assignment -/

theorem at_quireRegion (d : Dev) (t q : Nat) : (d.at_ t).quireRegion q = d.quireRegion q := by
  have h : 0x6000 ≤ (QU_CFG q) := by unfold QU_CFG; omega
  simp only [Dev.quireRegion, at_flag d t _ (not_timeRegs_of_unit (show 0x6000 ≤ (QU_CFG_ASSIGNED q).addr from h)),
    at_get d t _ (not_timeRegs_of_unit (show 0x6000 ≤ (QU_CFG_REGION q).addr from h))]

theorem at_quiresOf (d : Dev) (t g : Nat) : (d.at_ t).quiresOf g = d.quiresOf g := by simp only [Dev.quiresOf, at_quireRegion]
theorem at_assigned (d : Dev) (t g : Nat) : (d.at_ t).assigned g = d.assigned g := by simp only [Dev.assigned, at_quiresOf]
theorem at_rgState (d : Dev) (t g : Nat) : (d.at_ t).rgState g = d.rgState g :=
  at_get d t _ (not_timeRegs_of_unit (show 0x6000 ≤ RG_STAT g by unfold RG_STAT; omega))

theorem at_planning (d : Dev) (t g : Nat) : planning g (d.at_ t) = planning g d := by
  simp only [planning, at_region, at_assigned, at_rgState, at_jAbs]

theorem frame_at_calm (d : Dev) (t : Nat) : Frame calmRegs calmParts d (d.at_ t) := frame_wide_at calmBroad trivial t (frame_refl d)

end Sys2Proof.Machine
end

section
/-! PROOFS. Fields of the registers of units: what their numbers decide by computation, whatever the unit's number is. -/

namespace Sys2Proof.Machine

variable {d e : Dev}

/-! ## Addresses of units lie above those of the chip, the clocks and the network -/

theorem unit_ge {b c : Nat} (h : Nat.ble 0x7000 b = true) : 0x7000 ≤ b + c := Nat.le_trans (Nat.le_of_ble_eq_true h) (Nat.le_add_right _ _)

theorem unit_ge_two {b c k : Nat} (h : Nat.ble 0x7000 b = true) : 0x7000 ≤ b + c + k :=
  Nat.le_trans (unit_ge h) (Nat.le_add_right _ _)

theorem unit_ne {a x : Nat} (ha : 0x7000 ≤ a) (hx : Nat.blt x 0x7000 = true) : a ≠ x :=
  Nat.ne_of_gt (Nat.lt_of_lt_of_le (Nat.le_of_ble_eq_true hx) ha)

theorem unit_calm {a : Nat} (ha : 0x7000 ≤ a) : calmRegs a := unit_ne ha rfl

/-! ## Reading what was stored -/

theorem ufld_put (d : Dev) (x : Fld) (v : Nat) (h : Nat.ble (x.lsb + x.width) 32 = true)
    (hv : Nat.blt v (2 ^ x.width) = true) : (d.put x v).get x = v :=
  get_put_lt d x v (Nat.le_of_ble_eq_true h) (Nat.le_of_ble_eq_true hv)

theorem ufld_put_mod (d : Dev) (x : Fld) (v : Nat) (h : Nat.ble (x.lsb + x.width) 32 = true) :
    (d.put x v).get x = v % 2 ^ x.width := get_put_same d x v (Nat.le_of_ble_eq_true h)

theorem ufld_put_disj (d : Dev) (x y : Fld) (v : Nat)
    (h : (Nat.ble (y.lsb + y.width) x.lsb || Nat.ble (x.lsb + x.width) y.lsb) = true)
    (hy : Nat.ble (y.lsb + y.width) 32 = true) : (d.put x v).get y = d.get y := by
  refine get_put_disj d x y v (Nat.le_of_ble_eq_true hy) ?_
  rcases Bool.or_eq_true_iff.mp h with h | h
  · exact .inl (Nat.le_of_ble_eq_true h)
  · exact .inr (Nat.le_of_ble_eq_true h)

theorem uflag_put_one (d : Dev) (x : Fld) (h : Nat.ble (x.lsb + x.width) 32 = true)
    (hw : Nat.blt 0 x.width = true) : (d.put x 1).flag x = true :=
  flag_put_one d x (Nat.le_of_ble_eq_true h) (Nat.le_of_ble_eq_true hw)

theorem uflag_put_zero (d : Dev) (x : Fld) (h : Nat.ble (x.lsb + x.width) 32 = true) : (d.put x 0).flag x = false :=
  flag_put_zero d x (Nat.le_of_ble_eq_true h)

theorem uflag_putB (d : Dev) (x : Fld) (b : Bool) (h : Nat.ble (x.lsb + x.width) 32 = true)
    (hw : Nat.blt 0 x.width = true) : (d.putB x b).flag x = b :=
  flag_putB_same d x b (Nat.le_of_ble_eq_true h) (Nat.le_of_ble_eq_true hw)

theorem uflag_put_disj (d : Dev) (x y : Fld) (v : Nat)
    (h : (Nat.ble (y.lsb + y.width) x.lsb || Nat.ble (x.lsb + x.width) y.lsb) = true)
    (hy : Nat.ble (y.lsb + y.width) 32 = true) : (d.put x v).flag y = d.flag y := flag_congr (ufld_put_disj d x y v h hy)

theorem ufld_bump (d : Dev) (x : Fld) (k : Nat) (h : Nat.ble (x.lsb + x.width) 32 = true) :
    (d.bump x k).get x = satInc x.width (d.get x) k := get_bump_same d x k (Nat.le_of_ble_eq_true h)

theorem ufld_bump_disj (d : Dev) (x y : Fld) (k : Nat)
    (h : (Nat.ble (y.lsb + y.width) x.lsb || Nat.ble (x.lsb + x.width) y.lsb) = true)
    (hy : Nat.ble (y.lsb + y.width) 32 = true) : (d.bump x k).get y = d.get y := ufld_put_disj d x y _ h hy

/-! ## Flags of units -/

theorem uflag_raise (d : Dev) (x : Fld) (c : Cls) (ha : 0x7000 ≤ x.addr) (hw : x.width = 1)
    (hl : Nat.blt x.lsb 32 = true) : (d.raise x c).flag x = true :=
  flag_raise_same d x c hw (Nat.le_of_ble_eq_true hl) (unit_ne ha rfl) (unit_ne ha rfl)

theorem ufld_raise_ne (d : Dev) (x y : Fld) (c : Cls) (hy : 0x7000 ≤ y.addr) (h : x.addr ≠ y.addr) : (d.raise x c).get y = d.get y :=
  get_raise_ne d x y c h (unit_ne hy rfl) (unit_ne hy rfl)

theorem ufld_raise_disj (d : Dev) (x y : Fld) (c : Cls) (hx : 0x7000 ≤ x.addr) (ha : y.addr = x.addr)
    (h : (Nat.ble (y.lsb + y.width) x.lsb || Nat.ble (x.lsb + x.width) y.lsb) = true)
    (hy : Nat.ble (y.lsb + y.width) 32 = true) : (d.raise x c).get y = d.get y := by
  refine get_raise_disj d x y c ha (unit_ne hx rfl) (unit_ne hx rfl) (Nat.le_of_ble_eq_true hy) ?_
  rcases Bool.or_eq_true_iff.mp h with h | h
  · exact .inl (Nat.le_of_ble_eq_true h)
  · exact .inr (Nat.le_of_ble_eq_true h)

/-! ## After the trip outputs have settled -/

theorem settled_get (d : Dev) (x : Fld) (ha : 0x7000 ≤ x.addr) : (tripOutRelease d).get x = d.get x :=
  tripOutRelease_get d x (unit_ne ha rfl)

theorem settled_flag (d : Dev) (x : Fld) (ha : 0x7000 ≤ x.addr) : (tripOutRelease d).flag x = d.flag x :=
  tripOutRelease_flag d x (unit_ne ha rfl)

theorem settled_mode (d : Dev) : (tripOutRelease d).mode = d.mode := tripOutRelease_get d _ (by decide)

end Sys2Proof.Machine
end

section
/-! PROOFS. Report deadline, gatherings and the gathering deadline (O29). -/

namespace Sys2Proof.Machine

variable {s : State} {d e : Dev} {g : Nat}

theorem calmRegion (g : Nat) : RegionRoom g calmRegs calmParts := calmBroad.region g
theorem calmHand (g : Nat) : HandRoom g calmRegs calmParts := calmRoom.hand g

theorem planning_assigned (h : planning g d = true) : d.assigned g = true := by
  simp only [planning, Bool.and_eq_true] at h
  exact h.1.1

/-- The report deadline passed changes nothing that planning looks at. -/
theorem planning_onRegion (k : RegionSt → RegionSt) (hh : (k (d.region g)).halt = (d.region g).halt)
    (hr : (k (d.region g)).resume = (d.region g).resume) : planning g (d.onRegion g k) = planning g d := by
  unfold planning
  rw [region_onRegion_same]
  dsimp only
  rw [hh, hr]
  rfl

/-- The keys of a quire look at the prediction boundaries of their region and at the cells. -/
theorem quireKeys_onRegion (q : Nat) (i1 : Int) (k : RegionSt → RegionSt) (h0 : (k (d.region g)).ib0 = (d.region g).ib0)
    (h1 : (k (d.region g)).ib1 = (d.region g).ib1) : quireKeys q g i1 (d.onRegion g k) = quireKeys q g i1 d := by
  unfold quireKeys
  rw [region_onRegion_same]
  dsimp only
  rw [h0, h1]
  rfl

theorem reportDeadline_region (hp : planning g s.dev = true) (hr : (s.dev.region g).rdlPast = false) :
    (tripOutRelease (reportDeadlineD g s.dev)).region g = { s.dev.region g with
      rdlPast := true, keys := (s.dev.quiresOf g).map fun q => (q, quireKeys q g (s.dev.region g).i1p s.dev) } := by
  have hp' : planning g (s.dev.onRegion g fun r => { r with rdlPast := true }) = true := (planning_onRegion _ rfl rfl).trans hp
  rw [tripOutRelease_region]
  unfold reportDeadlineD
  rw [if_neg (by simp [planning_assigned hp, hr])]
  dsimp only
  rw [if_neg (by simp [hp']), region_onRegion_same, region_onRegion_same]
  simp only [quireKeys_onRegion]
  rfl

/-! ## Gatherings -/

theorem gatherIn_intime {q tk : Nat} (hq : d.quireRegion q = some g) (hp : planning g d = true) (hr : (d.region g).rdlPast = true)
    (hg : (d.region g).gdlPast = false) (ht : d.tm.bj + tk < d.posBase + planTick (d.get (RG_MODCFG1_GDL g)) d) :
    gatherIn q tk d = d.onRegion g fun r => { r with gath := smInsert r.gath q (gathOf ((smLook r.keys q).getD [])) } := by
  unfold gatherIn
  rw [hq]
  dsimp only
  rw [if_neg (by simp [hp, hr]), if_pos ⟨by simp [hg], ht⟩]

/-! ## The gathering deadline -/

/-- A map that lists a key still lists it once others have been inserted. -/
theorem isSome_foldl_insert {α : Type} (f : List (Nat × α) → Nat → α) (l : List Nat) (m : List (Nat × α)) (q : Nat)
    (h : (smLook m q).isSome = true ∨ q ∈ l) : (smLook (l.foldl (fun m k => smInsert m k (f m k)) m) q).isSome = true := by
  induction l generalizing m with
  | nil => exact h.resolve_right (List.not_mem_nil)
  | cons k ks ih =>
    rw [List.foldl_cons]
    refine ih _ ?_
    rw [smLook_smInsert]
    rcases h with h | h
    · split
      · exact .inl rfl
      · exact .inl h
    · rcases List.mem_cons.mp h with rfl | h
      · rw [if_pos rfl]; exact .inl rfl
      · exact .inr h

/-- What stands in for the missing gatherings of a region. -/
theorem gatherDeadline_answers (hp : planning g d = true) (hg : (d.region g).gdlPast = false) :
    ((gatherDeadlineD g d).region g).gdlPast = true ∧
    (∀ q ∈ d.quiresOf g, (smLook ((gatherDeadlineD g d).region g).gath q).isSome = true) ∧
    ((∃ q ∈ d.quiresOf g, smLook (d.region g).gath q = none) → (gatherDeadlineD g d).flag (RG_MODHOLD_GLATE g) = true) := by
  unfold gatherDeadlineD
  extract_lets r late hold fill past
  have hpast : past.region g = { r with gdlPast := true, gath := fill, gathLate := late, gathHold := hold } :=
    (region_setRegionSt d g g _).trans (if_pos rfl)
  have hregion : (if late.isEmpty = true then past else past.raise (RG_MODHOLD_GLATE g) .notice).region g = past.region g := by
    split
    · rfl
    · exact raise_region _ _ _ _
  rw [if_neg (by simp [hp, r, hg]), hregion, hpast]
  refine ⟨rfl, fun q hq => ?_, fun ⟨q, hq, hnone⟩ => ?_⟩
  · refine isSome_foldl_insert _ _ _ _ ?_
    cases hl : smLook r.gath q with
    | some x => exact .inl rfl
    | none => exact .inr (List.mem_filter.mpr ⟨hq, by simp [hl]⟩)
  · have hlate : q ∈ late := List.mem_filter.mpr ⟨hq, by simp [r, hnone]⟩
    rw [if_neg (by simp [List.ne_nil_of_mem hlate])]
    exact uflag_raise _ (RG_MODHOLD_GLATE g) _ (unit_ge rfl) rfl rfl

end Sys2Proof.Machine

open Sys2Proof Machine

/-- Settles O29, by the region that each deadline leaves. -/
theorem planGathering : Obligations.PlanGathering := by
  unfold Obligations.PlanGathering
  intro g s h hp
  have K := calmRegion g.val
  refine ⟨fun hr => ?_, fun q tk hq hr hg ht => ?_, fun hg => ?_⟩
  · refine answers_running rfl h (quiet_of_frame (frame_reportDeadlineD K (frame_refl _))) ?_
    rw [reportDeadline_region hp hr]
    exact ⟨rfl, rfl⟩
  · have heq : gatherIn q.val tk (s.dev.at_ tk) = (s.dev.at_ tk).onRegion g.val fun r =>
        { r with gath := smInsert r.gath q.val (gathOf ((smLook r.keys q.val).getD [])) } := by
      refine gatherIn_intime ((at_quireRegion _ _ _).trans hq) ((at_planning _ _ _).trans hp) hr hg ?_
      rw [at_bj, at_posBase, at_planTick,
        at_get _ _ _ (not_timeRegs_of_unit (show 0x6000 ≤ RG_MODCFG1 g.val by unfold RG_MODCFG1; omega))]
      exact ht
    refine answers_running (f := fun d => gatherIn q.val tk (d.at_ tk)) rfl h ?_ ?_
    · rw [heq]; exact quiet_of_frame (frame_region K _ (frame_at_calm _ _))
    · rw [heq, tripOutRelease_region, region_onRegion_same, at_region, smLook_smInsert, if_pos rfl]
  · obtain ⟨hpast, hall, hlate⟩ := gatherDeadline_answers hp hg
    refine answers_running rfl h (quiet_of_frame (frame_gatherDeadlineD K (frame_refl _))) ?_
    rw [tripOutRelease_region, settled_flag _ _ (unit_ge rfl)]
    exact ⟨hpast, hall, hlate⟩

end

section
/-! PROOFS. The debug halt (O33): a freeze, a block in its place, and their end. -/

namespace Sys2Proof.Machine

variable {s : State} {d e : Dev} {g : Nat}

/-! ## What a block leaves and what it sets -/

/-- The cells leave a register below them. -/
theorem cell_away (n x : Nat) (hx : x < 0x100000) (h1 : x ≠ NT_EVT) (h2 : x ≠ NT_CNT1) : CellRoom n (· ≠ x) fun _ => True where
  evt := Ne.symm h1
  cnt := Ne.symm h2
  fc := trivial
  dr := trivial
  regs k _ := by omega
  cells := trivial
  cell := trivial
  telem := trivial

theorem regionAddr_lt {b : Nat} (hg : g < 8) (hb : b < 0x32000) : b + 0x2000 * g < 0x100000 := by omega

theorem diagsAbort_get (d : Dev) (x : Fld) (hlo : 0x7000 ≤ x.addr) (hhi : x.addr < 0x100000) : (diagsAbort g d).get x = d.get x :=
  (frame_diagsAbort (fun n => cell_away n x.addr hhi (unit_ne hlo rfl) (unit_ne hlo rfl)) g (frame_refl d)).get x (fun k => k rfl)

theorem phaseClear_get (d : Dev) (x : Fld) (h : x.addr ≠ RG_BLKSTAT g) : (phaseClear g d).get x = d.get x := by
  unfold phaseClear
  have hf : ∀ (l : List Nat) (e : Dev), (l.foldl (fun d q => d.onQuire q fun x => { x with phase := 0 }) e).get x = e.get x := by
    intro l
    induction l with
    | nil => exact fun _ => rfl
    | cons q qs ih => exact fun e => (ih _).trans (get_onQuire e q _ x)
  rw [hf, get_put_ne _ _ _ _ (Ne.symm h), get_put_ne _ _ _ _ (Ne.symm h)]

theorem setRegion_state (d : Dev) (g st : Nat) (hst : st < 8) : (d.setRegion g st).rgState g = st := by
  unfold Dev.setRegion
  split
  case isTrue h => exact h
  case isFalse =>
    have hput : (d.put (RG_STAT_STATE g) st).rgState g = st := get_put_lt d (RG_STAT_STATE g) st (Nat.le_of_ble_eq_true rfl) hst
    dsimp only
    split
    · exact (get_congr _ _ _ (source_word _ _ _ _ _ _ _ _)).trans hput
    · exact hput

theorem setRegion_get (d : Dev) (g st : Nat) (x : Fld) (h : x.addr ≠ RG_STAT g) : (d.setRegion g st).get x = d.get x := by
  unfold Dev.setRegion
  have hput : (d.put (RG_STAT_STATE g) st).get x = d.get x := get_put_ne _ _ _ _ (Ne.symm h)
  split
  · rfl
  · dsimp only
    split
    · exact (get_congr _ _ _ (source_word _ _ _ _ _ _ _ _)).trans hput
    · exact hput

/-- A field that shows the halt: HALTED and HALTSAFE. -/
def haltFld (g : Nat) (x : Fld) : Prop := x = RG_MODSTAT_HALTED g ∨ x = RG_MODSTAT_HALTSAFE g

theorem haltFld_ne {x : Fld} (h : haltFld g x) {a : Nat} (ha : RG_MODSTAT g ≠ a) : x.addr ≠ a := by
  rcases h with rfl | rfl <;> exact ha

theorem haltFld_put {x : Fld} (h : haltFld g x) (d : Dev) (y : Fld) (v : Nat) (hy : y = RG_MODSTAT_CSGN g ∨ y = RG_MODSTAT_SQUASHED g) :
    (d.put y v).get x = d.get x := by
  rcases h with rfl | rfl <;> rcases hy with rfl | rfl <;> exact ufld_put_disj _ _ _ _ (by rfl) (by rfl)

theorem onMull_haltFld {x : Fld} (h : haltFld g x) (f : Mull → Mull) (d : Dev) : (onMull g f d).get x = d.get x := by
  unfold onMull
  rw [ownEach_get]
  unfold setMull Dev.putB
  rw [get_put_ne _ _ _ _ (Ne.symm (haltFld_ne h (a := RG_FBSTAT g) (by unfold RG_MODSTAT RG_FBSTAT; omega))),
    get_put_ne _ _ _ _ (Ne.symm (haltFld_ne h (a := RG_MODHOLD g) (by unfold RG_MODSTAT RG_MODHOLD; omega))),
    haltFld_put h _ _ _ (.inl rfl), get_onRegion]

theorem leaveRun_haltFld {x : Fld} (h : haltFld g x) (keep : Bool) (d : Dev) : (leaveRun g keep d).get x = d.get x := by
  have hstat : RG_STAT g ≠ x.addr := Ne.symm (haltFld_ne h (by unfold RG_MODSTAT RG_STAT; omega))
  have hfb : RG_FBSTAT g ≠ x.addr := Ne.symm (haltFld_ne h (by unfold RG_MODSTAT RG_FBSTAT; omega))
  unfold leaveRun
  split
  · rw [get_onRegion, onMull_haltFld h]
    unfold lawLeaveRun
    rw [get_put_ne _ _ _ _ hstat, get_put_ne _ _ _ _ hfb, get_put_ne _ _ _ _ hstat]
  · rfl

theorem noteSquash_haltFld {x : Fld} (h : haltFld g x) (causes : Nat) (d : Dev) : (noteSquash g causes d).get x = d.get x := by
  have hsq : RG_MODSQ g ≠ x.addr := Ne.symm (haltFld_ne h (by unfold RG_MODSTAT RG_MODSQ; omega))
  unfold noteSquash
  rw [get_congr _ _ _ (word_setWord_ne _ _ _ _ hsq), haltFld_put h _ _ _ (.inr rfl)]
  exact get_put_ne _ _ _ _ hsq

theorem blockRegion_haltFld {x : Fld} (hg : g < 8) (h : haltFld g x) (t0 stamp : Nat) (d : Dev) :
    (blockRegion g t0 stamp d).get x = d.get x := by
  have hlo : 0x7000 ≤ x.addr := by rcases h with rfl | rfl <;> exact unit_ge rfl
  have hhi : x.addr < 0x100000 := by rcases h with rfl | rfl <;> exact regionAddr_lt hg (by decide)
  unfold blockRegion
  extract_lets st r noted left cleared
  have hnoted : noted.get x = d.get x := by
    show (if _ then noteSquash g _ d else d).get x = _
    split
    · exact noteSquash_haltFld h _ _
    · rfl
  have hleft : left.get x = d.get x := by
    show (Dev.setRegion _ g rgBLOCK).get x = _
    rw [setRegion_get _ _ _ _ (haltFld_ne h (by unfold RG_MODSTAT RG_STAT; omega)), leaveRun_haltFld h, hnoted]
  split
  · exact diagsAbort_get d x hlo hhi
  split
  · rfl
  · rw [get_onRegion]
    show (phaseClear g (diagsAbort g left)).get x = _
    rw [phaseClear_get _ _ (haltFld_ne h (by unfold RG_MODSTAT RG_BLKSTAT; omega)), diagsAbort_get _ _ hlo hhi, hleft]

/-- A region of CHARGE, READY or RUN is in BLOCK once it has been blocked. -/
theorem blockRegion_state (hg : g < 8) (t0 stamp : Nat) (d : Dev)
    (h : d.rgState g = rgCHARGE ∨ d.rgState g = rgREADY ∨ d.rgState g = rgRUN) : (blockRegion g t0 stamp d).rgState g = rgBLOCK := by
  have hlo : 0x7000 ≤ (RG_STAT_STATE g).addr := unit_ge rfl
  unfold blockRegion
  extract_lets st r noted left cleared
  have hst : st ≠ rgBLOCK := by rcases h with k | k | k <;> (rw [show st = _ from k]; decide)
  rw [if_neg hst, if_neg (not_not.mpr h)]
  show cleared.get (RG_STAT_STATE g) = rgBLOCK
  show (phaseClear g (diagsAbort g left)).get _ = _
  rw [phaseClear_get _ _ (by unfold RG_STAT_STATE RG_STAT RG_BLKSTAT; dsimp only; omega),
    diagsAbort_get _ _ hlo (regionAddr_lt hg (by decide))]
  exact setRegion_state _ _ _ (by decide)

theorem blockScope_one (g stamp : Nat) (d : Dev) : ∃ t0, blockScope [g] stamp d = if d.assigned g then blockRegion g t0 stamp d else d := by
  refine ⟨ovrT0 (advsOf [g] d) stamp d, ?_⟩
  unfold blockScope
  by_cases h : d.assigned g = true
  · rw [if_pos h, List.filter_cons_of_pos (by simpa using h)]
    rfl
  · rw [if_neg h, List.filter_cons_of_neg (by simpa using h)]
    rfl

/-! ## SAFE -/

/-- The device as SAFE finds it, before the block. -/
def haltShown (g : Nat) (d : Dev) : Dev :=
  ((d.put (RG_MODSTAT_HALTED g) 1).put (RG_MODSTAT_HALTSAFE g) 1).onRegion g fun r => { r with halt := 3, resume := none }

theorem haltShown_get (d : Dev) (x : Fld) (h : RG_MODSTAT g ≠ x.addr) : (haltShown g d).get x = d.get x := by
  unfold haltShown
  rw [get_onRegion, get_put_ne _ _ _ _ h, get_put_ne _ _ _ _ h]

/-- The regions that quires are assigned to, by the configuration of the quires. -/
theorem quiresOf_of_quires (h : ∀ q, q < 64 → ∀ x : Fld, x.addr = QU_CFG q → e.get x = d.get x) : e.quiresOf g = d.quiresOf g := by
  refine List.filter_congr fun q hq => ?_
  have hq := h q (List.mem_range.mp hq)
  simp only [Dev.quireRegion, flag_congr (hq (QU_CFG_ASSIGNED q) rfl), hq (QU_CFG_REGION q) rfl]

theorem assigned_of_quires (h : ∀ q, q < 64 → ∀ x : Fld, x.addr = QU_CFG q → e.get x = d.get x) : e.assigned g = d.assigned g := by
  simp only [Dev.assigned, quiresOf_of_quires h]

theorem haltSafe_shows (hg : g < 8) (d : Dev) : (haltSafe g d).flag (RG_MODSTAT_HALTED g) = true ∧
    (haltSafe g d).flag (RG_MODSTAT_HALTSAFE g) = true ∧
    (d.assigned g = true → (d.rgState g = rgCHARGE ∨ d.rgState g = rgREADY ∨ d.rgState g = rgRUN) →
      (haltSafe g d).rgState g = rgBLOCK) := by
  have hshown : (haltShown g d).flag (RG_MODSTAT_HALTED g) = true ∧ (haltShown g d).flag (RG_MODSTAT_HALTSAFE g) = true := by
    unfold haltShown
    rw [onRegion_flag, onRegion_flag]
    exact ⟨(uflag_put_disj _ _ _ _ (by rfl) (by rfl)).trans (uflag_put_one _ _ (by rfl) (by rfl)), uflag_put_one _ _ (by rfl) (by rfl)⟩
  have hassigned : (haltShown g d).assigned g = d.assigned g := by
    refine assigned_of_quires fun q hq x hx => ?_
    have h : RG_MODSTAT g ≠ x.addr := by rw [hx]; unfold RG_MODSTAT QU_CFG; omega
    exact (haltShown_get d x h)
  have hstate : (haltShown g d).rgState g = d.rgState g := by
    have h : RG_MODSTAT g ≠ (RG_STAT_STATE g).addr := by unfold RG_MODSTAT RG_STAT_STATE RG_STAT; dsimp only; omega
    exact haltShown_get d _ h
  obtain ⟨t0, ht0⟩ := blockScope_one g ((d.put (RG_MODSTAT_HALTED g) 1).put (RG_MODSTAT_HALTSAFE g) 1).nowTick (haltShown g d)
  have heq : haltSafe g d = if (haltShown g d).assigned g then blockRegion g t0 _ (haltShown g d) else haltShown g d := ht0
  have keep (x : Fld) (hx : haltFld g x) : (haltSafe g d).flag x = (haltShown g d).flag x := by
    rw [heq]
    split
    · exact flag_congr (blockRegion_haltFld hg hx _ _ _)
    · rfl
  refine ⟨(keep _ (.inl rfl)).trans hshown.1, (keep _ (.inr rfl)).trans hshown.2, fun ha hr => ?_⟩
  rw [heq, if_pos (hassigned.trans ha)]
  exact blockRegion_state hg _ _ _ (by rw [hstate]; exact hr)

/-! ## Writes of HALT -/

/-- The device after HALT has been written with a 1. -/
theorem wrModCtl_one (o : Origin) (hw : d.writable = true) (hp : d.permits o .halt = true) (h0 : (d.region g).halt = 0) :
    (wrModCtl o g 1 d).2 = if ¬ (d.put (RG_MODCTL_HALT g) 1).flag (RG_MODCFG0_HALTMODE g) ∨ (d.put (RG_MODCTL_HALT g) 1).flag (RG_STAT_ENERG g)
      then haltSafe g (d.put (RG_MODCTL_HALT g) 1) else (d.put (RG_MODCTL_HALT g) 1).onRegion g fun r => { r with halt := 1 } := by
  unfold wrModCtl
  rw [shellWrite_accepted hw hp rfl]
  dsimp only
  rw [if_pos (by decide), h0]
  rfl

/-- The period in which planning resumes (R107). -/
def resumeAt (d : Dev) : Nat := if d.nowTick + d.T ≤ d.nextB then d.tm.jAbs + 1 else d.tm.jAbs + 2

theorem resumeAt_later (d : Dev) : d.tm.jAbs < resumeAt d := by
  unfold resumeAt
  split
  · exact Nat.lt_succ_self _
  · exact Nat.lt_add_of_pos_right (by decide)

/-- The region after HALT has been written with a 0. -/
theorem wrModCtl_zero (o : Origin) (hw : d.writable = true) (hp : d.permits o .halt = true) :
    (wrModCtl o g 0 d).2 =
      if (d.region g).halt = 3 then
        ((d.put (RG_MODCTL_HALT g) 0).put (RG_MODSTAT_HALTED g) 0).onRegion g fun r => { r with halt := 0 }
      else if (d.region g).halt = 1 then (d.put (RG_MODCTL_HALT g) 0).onRegion g fun r => { r with halt := 0 }
      else if (d.region g).halt = 2 then
        (d.put (RG_MODCTL_HALT g) 0).onRegion g fun r =>
          { r with resume := some (r.resume.getD (resumeAt (d.put (RG_MODCTL_HALT g) 0))) }
      else d.put (RG_MODCTL_HALT g) 0 := by
  unfold wrModCtl
  rw [shellWrite_accepted hw hp rfl]
  dsimp only
  rw [if_neg (by decide)]
  rfl

/-- A freeze that has begun ends in a period to come. -/
theorem wrModCtl_resume (o : Origin) (hw : d.writable = true) (hp : d.permits o .halt = true) (h2 : (d.region g).halt = 2) :
    ∃ k, d.tm.jAbs < k ∧ (wrModCtl o g 0 d).2 =
      (d.put (RG_MODCTL_HALT g) 0).onRegion g fun r => { r with resume := some (r.resume.getD k) } := by
  refine ⟨resumeAt (d.put (RG_MODCTL_HALT g) 0), resumeAt_later _, ?_⟩
  rw [wrModCtl_zero o hw hp, if_neg (by rw [h2]; decide), if_neg (by rw [h2]; decide), if_pos h2]

/-- The write of HALT leaves what decides between a freeze and a block. -/
theorem halted_flags (d : Dev) : (d.put (RG_MODCTL_HALT g) 1).flag (RG_MODCFG0_HALTMODE g) = d.flag (RG_MODCFG0_HALTMODE g) ∧
    (d.put (RG_MODCTL_HALT g) 1).flag (RG_STAT_ENERG g) = d.flag (RG_STAT_ENERG g) ∧
    (d.put (RG_MODCTL_HALT g) 1).rgState g = d.rgState g :=
  ⟨flag_put_ne _ _ _ _ (by unfold RG_MODCTL_HALT RG_MODCTL RG_MODCFG0_HALTMODE RG_MODCFG0; dsimp only; omega),
    flag_put_ne _ _ _ _ (by unfold RG_MODCTL_HALT RG_MODCTL RG_STAT_ENERG RG_STAT; dsimp only; omega),
    get_put_ne _ _ _ _ (by unfold RG_MODCTL_HALT RG_MODCTL RG_STAT_STATE RG_STAT; dsimp only; omega)⟩

theorem frame_haltSafe {W : Nat → Prop} {S : Part → Prop} (K : BroadRoom W S) (g : Nat) (h : Frame W S d e) :
    Frame W S d (haltSafe g e) := by
  have R := K.region g
  unfold haltSafe
  exact frame_blockScope K _ _ (frame_region R _ (frame_put (RG_MODSTAT_HALTSAFE g) 1 (R.regs _ (by decide))
    (frame_put (RG_MODSTAT_HALTED g) 1 (R.regs _ (by decide)) h)))

/-- Clauses of HALT = 1. -/
theorem modHalt_answers (h : s.awake) (o : Origin) (g : Fin 8) (hl : s.dev.mode ≠ modeLOAD) (hp : s.dev.permits o .halt = true)
    (h0 : (s.dev.region g.val).halt = 0) :
    (s.dev.flag (RG_MODCFG0_HALTMODE g.val) = true → s.dev.flag (RG_STAT_ENERG g.val) = false →
      Answers (.modHalt o g) s fun t => t.dev.flag (RG_MODCTL_HALT g.val) = true ∧ (t.dev.region g.val).halt = 1) ∧
    ((s.dev.flag (RG_MODCFG0_HALTMODE g.val) = false ∨ s.dev.flag (RG_STAT_ENERG g.val) = true) →
      Answers (.modHalt o g) s fun t => t.dev.flag (RG_MODSTAT_HALTED g.val) = true ∧
        t.dev.flag (RG_MODSTAT_HALTSAFE g.val) = true ∧
        (s.dev.assigned g.val = true →
          (s.dev.rgState g.val = rgCHARGE ∨ s.dev.rgState g.val = rgREADY ∨ s.dev.rgState g.val = rgRUN) →
          t.dev.rgState g.val = rgBLOCK)) := by
  have heq := wrModCtl_one (g := g.val) o (writable_of_awake h hl) hp h0
  obtain ⟨hmode, henerg, hstate⟩ := halted_flags (g := g.val) s.dev
  rw [hmode, henerg] at heq
  have hput : Frame calmRegs calmParts s.dev (s.dev.put (RG_MODCTL_HALT g.val) 1) :=
    frame_put _ _ (unit_calm (unit_ge rfl)) (frame_refl _)
  refine ⟨fun hm he => ?_, fun hme => ?_⟩
  · rw [if_neg (by simp [hm, he])] at heq
    refine answers_within (f := fun d => (wrModCtl o g.val 1 d).2) rfl h ?_ ?_
    · rw [heq]; exact quiet_of_frame (frame_region (calmBroad.region g.val) _ hput)
    · rw [heq, settled_flag _ _ (unit_ge rfl), tripOutRelease_region, onRegion_flag, region_onRegion_same]
      exact ⟨uflag_put_one _ _ (by rfl) (by rfl), rfl⟩
  · rw [if_pos (by simpa using hme)] at heq
    obtain ⟨hh, hs, hb⟩ := haltSafe_shows g.isLt (s.dev.put (RG_MODCTL_HALT g.val) 1)
    refine answers_within (f := fun d => (wrModCtl o g.val 1 d).2) rfl h ?_ ?_
    · rw [heq]; exact quiet_of_frame (frame_haltSafe calmBroad g.val hput)
    · rw [heq, settled_flag _ _ (unit_ge rfl), settled_flag _ _ (unit_ge rfl)]
      refine ⟨hh, hs, fun ha hr => (settled_get _ _ (unit_ge rfl)).trans (hb ?_ (by rw [hstate]; exact hr))⟩
      rw [assigned_of_quires fun q hq x hx => get_put_ne _ _ _ _ (by
        rw [hx]; unfold RG_MODCTL_HALT RG_MODCTL QU_CFG; dsimp only; omega)]
      exact ha

/-- Who may write HALT does not depend on the device. -/
theorem permits_halt (d e : Dev) (o : Origin) : d.permits o .halt = e.permits o .halt := by cases o <;> rfl

/-- HALT = 0 reaches its row at the instant of the command. -/
theorem modHaltEnd_answers (h : s.awake) (o : Origin) (g : Fin 8) (tk : Nat) (hk : (wrModCtl o g.val 0 (s.dev.at_ tk)).2 = e)
    (q : Frame calmRegs calmParts (s.dev.at_ tk) e) {P : Dev → Prop} (hP : P (tripOutRelease e)) :
    Answers (.modHaltEnd o g tk) s fun t => P t.dev := by
  refine answers_within (f := fun d => (wrModCtl o g.val 0 (d.at_ tk)).2) rfl h ?_ ?_
  · rw [hk]; exact quiet_of_frame (frame_trans (frame_at_calm _ _) q)
  · rw [hk]; exact hP

end Sys2Proof.Machine

open Sys2Proof Machine

/-- Settles O33: the effect of each write of HALT. -/
theorem modulationHalt : Obligations.ModulationHalt := by
  unfold Obligations.ModulationHalt
  intro o g s h hl hp
  have hw : ∀ tk, (s.dev.at_ tk).writable = true := fun tk => by
    have := writable_of_awake h hl
    simpa only [Dev.writable, at_mode] using this
  have hp' : ∀ tk, (s.dev.at_ tk).permits o .halt = true := fun tk => (permits_halt _ s.dev o).trans hp
  have cleared (d : Dev) : Frame calmRegs calmParts d (d.put (RG_MODCTL_HALT g.val) 0) :=
    frame_put _ _ (unit_calm (unit_ge rfl)) (frame_refl _)
  have K := calmBroad.region g.val
  refine ⟨fun h0 => (modHalt_answers h o g hl hp h0).1, fun h0 => (modHalt_answers h o g hl hp h0).2, fun tk h3 => ?_,
    fun tk h1 => ?_, fun tk h2 hn => ?_⟩ <;> have hk := wrModCtl_zero (g := g.val) o (hw tk) (hp' tk)
  · rw [at_region, if_pos h3] at hk
    refine modHaltEnd_answers h o g tk hk ?_ (P := fun d => d.flag _ = false ∧ d.flag _ = false ∧ (d.region g.val).halt = 0) ?_
    · exact frame_region K _ (frame_put (RG_MODSTAT_HALTED g.val) 0 (unit_calm (unit_ge rfl)) (cleared _))
    · rw [settled_flag _ _ (unit_ge rfl), settled_flag _ _ (unit_ge rfl), tripOutRelease_region, onRegion_flag, onRegion_flag,
        region_onRegion_same]
      refine ⟨?_, uflag_put_zero _ _ (by rfl), rfl⟩
      rw [flag_put_ne _ _ _ _ (by unfold RG_MODSTAT_HALTED RG_MODSTAT RG_MODCTL_HALT RG_MODCTL; dsimp only; omega)]
      exact uflag_put_zero _ _ (by rfl)
  · rw [at_region, if_neg (by rw [h1]; decide), if_pos h1] at hk
    refine modHaltEnd_answers h o g tk hk ?_ (P := fun d => d.flag _ = false ∧ (d.region g.val).halt = 0) ?_
    · exact frame_region K _ (cleared _)
    · rw [settled_flag _ _ (unit_ge rfl), tripOutRelease_region, onRegion_flag, region_onRegion_same]
      exact ⟨uflag_put_zero _ _ (by rfl), rfl⟩
  · obtain ⟨k, hlater, hk⟩ := wrModCtl_resume (g := g.val) o (hw tk) (hp' tk) h2
    rw [at_jAbs] at hlater
    refine modHaltEnd_answers h o g tk hk ?_
      (P := fun d => d.flag _ = false ∧ ∃ k, (d.region g.val).resume = some k ∧ s.dev.tm.jAbs < k) ?_
    · exact frame_region K _ (cleared _)
    · rw [settled_flag _ _ (unit_ge rfl), tripOutRelease_region, onRegion_flag, region_onRegion_same, region_put, at_region, hn]
      exact ⟨uflag_put_zero _ _ (by rfl), _, rfl, hlater⟩

end

section
/-! PROOFS. Law runs of the channels and the fallback at the deadline (O32). -/

namespace Sys2Proof.Machine

variable {s : State} {d e : Dev} {g c k : Nat}

/-! ## The controller that a channel works with -/

/-- The controller of a channel: that of its own copy, else the region's. -/
def RegionSt.ctlOf (r : RegionSt) (c : Nat) : Ctl := match (r.chan c).own with
  | some p => p.1.ctl
  | none => r.ctl

theorem ctlOf_congr {r q : RegionSt} (hchan : (q.chan c).own = (r.chan c).own) (hctl : q.ctl = r.ctl) : q.ctlOf c = r.ctlOf c := by
  unfold RegionSt.ctlOf
  rw [hchan, hctl]

/-- A change of the mull sets that leaves every controller. -/
theorem ctlOf_ownEach (r : RegionSt) {m : Mull} {f : Mull → Mull} (hf : ∀ n, (f n).ctl = n.ctl) (hm : m.ctl = r.ctl) (hc : c < 3) :
    ((r.withMull m).ownEach f).ctlOf c = r.ctlOf c := by
  unfold RegionSt.ctlOf
  rw [chan_ownEach _ _ hc, chan_withMull]
  unfold ownMap
  cases (r.chan c).own with
  | none => exact hm
  | some p => exact hf p.1

/-! ## What a stored output leaves -/

/-- A region with a law output in the channel it belongs to. -/
def RegionSt.lawPut (c : Nat) (o : LawOut) (r : RegionSt) : RegionSt := r.setChan c { r.chan c with law := some o }

/-- What a law output leaves of its region: the other channels' outputs, the controllers, the bridge current, what is copied. -/
structure LawRest (c : Nat) (o : LawOut) (r q : RegionSt) : Prop where
  law : ∀ k, k < 3 → (q.chan k).law = if k = c then some o else (r.chan k).law
  copied : ∀ k, k < 3 → (q.chan k).copied = (r.chan k).copied
  ctl : ∀ k, k < 3 → q.ctlOf k = r.ctlOf k
  ib1 : q.ib1 = r.ib1

theorem lawRest_lawPut (o : LawOut) (r : RegionSt) (hc : c < 3) : LawRest c o r (r.lawPut c o) := by
  have hchan (k : Nat) (hk : k < 3) : (r.lawPut c o).chan k = if k = c then { r.chan c with law := some o } else r.chan k := by
    by_cases h : k = c
    · subst h; rw [if_pos rfl]; exact chan_setChan_same _ _ _
    · rw [if_neg h]; exact chan_setChan_ne _ _ hc hk (Ne.symm h)
  have hrest : (r.lawPut c o).ctl = r.ctl ∧ (r.lawPut c o).ib1 = r.ib1 := by
    unfold RegionSt.lawPut RegionSt.setChan
    split
    · exact ⟨rfl, rfl⟩
    · split <;> exact ⟨rfl, rfl⟩
  refine ⟨fun k hk => ?_, fun k hk => ?_, fun k hk => ctlOf_congr ?_ hrest.1, hrest.2⟩ <;>
  · rw [hchan k hk]
    by_cases h : k = c
    · subst h; simp
    · simp only [if_neg h]

theorem LawRest.show {o : LawOut} {r q : RegionSt} (h : LawRest c o r q) {m : Mull} {f : Mull → Mull}
    (hf : ∀ n, (f n).ctl = n.ctl) (hm : m.ctl = q.ctl) : LawRest c o r ((({ q with i1p := o.i1 }).withMull m).ownEach f) :=
  have hchan (k : Nat) (hk : k < 3) : ((({ q with i1p := o.i1 }).withMull m).ownEach f).chan k = ownMap f (q.chan k) := chan_ownEach _ _ hk
  ⟨fun k hk => by rw [hchan k hk]; exact h.law k hk, fun k hk => by rw [hchan k hk]; exact h.copied k hk,
    fun k hk => (ctlOf_ownEach { q with i1p := o.i1 } hf hm hk).trans (h.ctl k hk), h.ib1⟩

/-- A law output in the channel it belongs to, before the readouts follow. -/
def lawPut (g c : Nat) (o : LawOut) (d : Dev) : Dev := d.onChan g c fun x => { x with law := some o }

/-- The predicted current of a law output, in every copy of the measurement. -/
def withI1 (o : LawOut) (m : Mull) : Mull := { m with meas := { m.meas with i1 := o.i1 } }

/-- The prediction of a law output in the region. -/
def lawPredict (g : Nat) (o : LawOut) (d : Dev) : Dev := onMull g (withI1 o) (d.onRegion g fun r => { r with i1p := o.i1 })

/-- A limit that a law output has met. -/
def lawLimit (b : Bool) (f : Fld) (d : Dev) : Dev := if b then d.put f 1 else d

/-- The readouts of a law output: the prediction, and the limits met. -/
def lawShow (g : Nat) (o : LawOut) (d : Dev) : Dev :=
  lawLimit o.ulim (RG_LAWSTAT_ULIM g) (lawLimit o.iclamp (RG_LAWSTAT_ICLAMP g) (lawPredict g o d))

theorem lawStore_cases (g c : Nat) (o : LawOut) (d : Dev) :
    lawStore g c o d = lawShow g o (lawPut g c o d) ∨ lawStore g c o d = lawPut g c o d := by
  unfold lawStore
  extract_lets put shown clamp
  by_cases h : (chansIn g chACTIVE put).head? = some c ∨ (put.region g).i1p ≠ o.i1 ∧ chansIn g chACTIVE put = []
  · exact .inl (if_pos h)
  · exact .inr (if_neg h)

@[simp] theorem region_lawLimit (b : Bool) (f : Fld) (d : Dev) (i : Nat) : (lawLimit b f d).region i = d.region i := by
  unfold lawLimit
  cases b
  · rfl
  · exact region_put _ _ _ _

theorem region_lawPredict (o : LawOut) (d : Dev) : (lawPredict g o d).region g =
    (({ d.region g with i1p := o.i1 }).withMull (withI1 o (mullOf g (d.onRegion g fun r => { r with i1p := o.i1 })))).ownEach (withI1 o) := by
  unfold lawPredict
  rw [region_onMull, region_onRegion_same]

theorem mullOf_ctl (g : Nat) (d : Dev) : (mullOf g d).ctl = (d.region g).ctl := rfl

/-- A stored law output leaves of its region what `LawRest` lists. -/
theorem lawStore_rest (o : LawOut) (d : Dev) (hc : c < 3) : LawRest c o (d.region g) ((lawStore g c o d).region g) := by
  have hput : LawRest c o (d.region g) ((lawPut g c o d).region g) := by
    unfold lawPut
    rw [region_onChan]
    exact lawRest_lawPut o (d.region g) hc
  rcases lawStore_cases g c o d with heq | heq
  · rw [heq, lawShow, region_lawLimit, region_lawLimit, region_lawPredict]
    refine hput.show (fun _ => rfl) ?_
    show (mullOf g _).ctl = _
    rw [mullOf_ctl, region_onRegion_same]
  · rw [heq]
    exact hput

theorem lawLimit_get (b : Bool) {f x : Fld} (h : ∀ d : Dev, (d.put f 1).get x = d.get x) (d : Dev) : (lawLimit b f d).get x = d.get x := by
  unfold lawLimit
  cases b
  · rfl
  · exact h d

/-- The fields that a stored law output leaves. -/
theorem lawStore_get (o : LawOut) (d : Dev) {x : Fld} (h1 : x.addr ≠ RG_MODSTAT g) (h2 : x.addr ≠ RG_MODHOLD g)
    (h3 : x.addr ≠ RG_FBSTAT g) (hu : ∀ d : Dev, (d.put (RG_LAWSTAT_ULIM g) 1).get x = d.get x)
    (hi : ∀ d : Dev, (d.put (RG_LAWSTAT_ICLAMP g) 1).get x = d.get x) : (lawStore g c o d).get x = d.get x := by
  rcases lawStore_cases g c o d with heq | heq
  · rw [heq, lawShow, lawLimit_get _ hu, lawLimit_get _ hi, lawPredict, onMull_get _ _ _ h1 h2 h3, get_onRegion, lawPut, onChan_get]
  · rw [heq, lawPut, onChan_get]

theorem lawStore_get_of_ne (o : LawOut) (d : Dev) {x : Fld} (h1 : x.addr ≠ RG_MODSTAT g) (h2 : x.addr ≠ RG_MODHOLD g)
    (h3 : x.addr ≠ RG_FBSTAT g) (h4 : x.addr ≠ RG_LAWSTAT g) : (lawStore g c o d).get x = d.get x :=
  lawStore_get o d h1 h2 h3 (fun _ => get_put_ne _ _ _ _ (Ne.symm h4)) fun _ => get_put_ne _ _ _ _ (Ne.symm h4)

theorem iref_addr (g : Nat) : RG_IREF g ≠ RG_MODSTAT g ∧ RG_IREF g ≠ RG_MODHOLD g ∧ RG_IREF g ≠ RG_FBSTAT g ∧
    RG_IREF g ≠ RG_LAWSTAT g ∧ RG_IREF g ≠ RG_LAWCNT g := by
  unfold RG_IREF RG_MODSTAT RG_MODHOLD RG_FBSTAT RG_LAWSTAT RG_LAWCNT
  omega

theorem chStat_addr (g : Nat) (hk : k < 3) : CH_STAT g k ≠ RG_MODSTAT g ∧ CH_STAT g k ≠ RG_MODHOLD g ∧ CH_STAT g k ≠ RG_FBSTAT g ∧
    CH_STAT g k ≠ RG_LAWSTAT g ∧ CH_STAT g k ≠ RG_LAWCNT g := by
  unfold CH_STAT RG_MODSTAT RG_MODHOLD RG_FBSTAT RG_LAWSTAT RG_LAWCNT
  omega

theorem lawStat_addr (g : Nat) : RG_LAWSTAT g ≠ RG_MODSTAT g ∧ RG_LAWSTAT g ≠ RG_MODHOLD g ∧ RG_LAWSTAT g ≠ RG_FBSTAT g ∧
    RG_LAWSTAT g ≠ RG_LAWCNT g := by
  unfold RG_MODSTAT RG_MODHOLD RG_FBSTAT RG_LAWSTAT RG_LAWCNT
  omega

/-! ## The fallback at the LAW deadline -/

/-- The fallback of a channel, by what it reads. -/
theorem lawFallback_asChan (g c : Nat) (d : Dev) : lawFallback g (asChan g c d) =
    ⟨((d.region g).ctlOf c).uref, (d.region g).ib1, d.getS (RG_IREF_IREF g), (d.region g).ctlOf c, false, false, true, false⟩ := by
  obtain ⟨h1, h2, h3, -⟩ := iref_addr g
  unfold lawFallback asChan RegionSt.ctlOf
  cases hown : ((d.region g).chan c).own with
  | none => simp only [hown]
  | some p =>
    simp only [hown]
    unfold Dev.getS
    rw [get_onRegion, setMull_get _ _ _ h1 h2 h3, region_onRegion_same, region_setMull]
    rfl

/-- What the LAW deadline leaves of a region: all that a fallback reads, and which channels run. -/
structure LawKept (g : Nat) (d e : Dev) : Prop where
  ctl : ∀ k, k < 3 → (e.region g).ctlOf k = (d.region g).ctlOf k
  ib1 : (e.region g).ib1 = (d.region g).ib1
  iref : e.get (RG_IREF_IREF g) = d.get (RG_IREF_IREF g)
  runs : ∀ k, k < 3 → chanRuns g k e = chanRuns g k d

theorem LawKept.trans {a b c : Dev} (h : LawKept g a b) (h' : LawKept g b c) : LawKept g a c :=
  ⟨fun k hk => (h'.ctl k hk).trans (h.ctl k hk), h'.ib1.trans h.ib1, h'.iref.trans h.iref, fun k hk => (h'.runs k hk).trans (h.runs k hk)⟩

theorem LawKept.fallback (h : LawKept g d e) (hk : k < 3) : lawFallback g (asChan g k e) = lawFallback g (asChan g k d) := by
  rw [lawFallback_asChan, lawFallback_asChan, h.ctl k hk, h.ib1]
  unfold Dev.getS
  rw [h.iref]

theorem chanRuns_congr (hstate : e.get (CH_STAT_STATE g k) = d.get (CH_STAT_STATE g k))
    (hcopied : ((e.region g).chan k).copied = ((d.region g).chan k).copied) : chanRuns g k e = chanRuns g k d := by
  unfold chanRuns
  rw [hstate, hcopied]

/-- A missed law shows and counts. -/
def missShown (g : Nat) (d : Dev) : Dev := (d.raise (RG_LAWSTAT_LMISS g) .notice).bump (RG_LAWCNT_LMISSCNT g)

theorem region_missShown (d : Dev) : (missShown g d).region g = d.region g := by
  unfold missShown
  simp

theorem missShown_get (d : Dev) {x : Fld} (h1 : x.addr ≠ RG_LAWSTAT g) (h2 : x.addr ≠ RG_LAWCNT g)
    (hx : 0x7000 ≤ x.addr := by exact unit_ge rfl) : (missShown g d).get x = d.get x := by
  unfold missShown Dev.bump
  rw [get_put_ne _ _ _ _ (Ne.symm h2), ufld_raise_ne _ _ _ _ hx (Ne.symm h1)]

theorem missShown_flag (g : Nat) (d : Dev) : (missShown g d).flag (RG_LAWSTAT_LMISS g) = true := by
  unfold missShown Dev.bump
  rw [flag_congr (get_put_ne _ _ _ _ (Ne.symm (lawStat_addr g).2.2.2))]
  exact uflag_raise _ _ _ (unit_ge rfl) (by rfl) (by rfl)

/-- One channel at the LAW deadline. -/
def lawMiss (g : Nat) (d : Dev) (c : Nat) : Dev :=
  if chanRuns g c d ∧ ((d.region g).chan c).law.isNone then lawStore g c (lawFallback g (asChan g c (missShown g d))) (missShown g d)
  else d

theorem lawMiss_cases (g c : Nat) (d : Dev) : lawMiss g d c = d ∨ ∃ o, lawMiss g d c = lawStore g c o (missShown g d) := by
  unfold lawMiss
  split
  · exact .inr ⟨_, rfl⟩
  · exact .inl rfl

theorem lawKept_missShown (g : Nat) (d : Dev) : LawKept g d (missShown g d) where
  ctl k _ := by rw [region_missShown]
  ib1 := by rw [region_missShown]
  iref := missShown_get d (iref_addr g).2.2.2.1 (iref_addr g).2.2.2.2
  runs k hk := by
    obtain ⟨-, -, -, h4, h5⟩ := chStat_addr g hk
    exact chanRuns_congr (missShown_get d h4 h5 (unit_ge_two rfl)) (by rw [region_missShown])

theorem lawKept_lawStore (o : LawOut) (d : Dev) (hc : c < 3) : LawKept g d (lawStore g c o d) where
  ctl := (lawStore_rest o d hc).ctl
  ib1 := (lawStore_rest o d hc).ib1
  iref := by
    obtain ⟨h1, h2, h3, h4, -⟩ := iref_addr g
    exact lawStore_get_of_ne o d h1 h2 h3 h4
  runs k hk := by
    obtain ⟨h1, h2, h3, h4, -⟩ := chStat_addr g hk
    exact chanRuns_congr (lawStore_get_of_ne o d h1 h2 h3 h4) ((lawStore_rest o d hc).copied k hk)

theorem lawKept_lawMiss (d : Dev) (hc : c < 3) : LawKept g d (lawMiss g d c) := by
  rcases lawMiss_cases g c d with h | ⟨o, h⟩ <;> rw [h]
  · exact ⟨fun _ _ => rfl, rfl, rfl, fun _ _ => rfl⟩
  · exact (lawKept_missShown g d).trans (lawKept_lawStore o _ hc)

/-- Another channel's output stays. -/
theorem lawMiss_other (d : Dev) (hc : c < 3) (hk : k < 3) (h : k ≠ c) :
    (((lawMiss g d c).region g).chan k).law = ((d.region g).chan k).law := by
  rcases lawMiss_cases g c d with heq | ⟨o, heq⟩ <;> rw [heq]
  rw [(lawStore_rest o _ hc).law k hk, if_neg h, region_missShown]

theorem lawStore_lmiss (o : LawOut) (d : Dev) : (lawStore g c o d).flag (RG_LAWSTAT_LMISS g) = d.flag (RG_LAWSTAT_LMISS g) := by
  obtain ⟨h1, h2, h3, -⟩ := lawStat_addr g
  exact flag_congr (lawStore_get o d h1 h2 h3 (fun _ => ufld_put_disj _ _ _ _ (by rfl) (by rfl)) fun _ => ufld_put_disj _ _ _ _ (by rfl) (by rfl))

theorem lawMiss_lmiss (d : Dev) (c : Nat) (h : d.flag (RG_LAWSTAT_LMISS g) = true) :
    (lawMiss g d c).flag (RG_LAWSTAT_LMISS g) = true := by
  rcases lawMiss_cases g c d with heq | ⟨o, heq⟩ <;> rw [heq]
  · exact h
  · rw [lawStore_lmiss, missShown_flag]

/-- A channel that runs and has no output takes the fallback. -/
theorem lawMiss_same (d : Dev) (hc : c < 3) (hrun : chanRuns g c d = true) (hnone : ((d.region g).chan c).law = none) :
    (((lawMiss g d c).region g).chan c).law = some (lawFallback g (asChan g c d)) ∧
    (lawMiss g d c).flag (RG_LAWSTAT_LMISS g) = true := by
  have heq : lawMiss g d c = lawStore g c (lawFallback g (asChan g c (missShown g d))) (missShown g d) :=
    if_pos ⟨hrun, by rw [hnone]; rfl⟩
  rw [heq, lawStore_lmiss, missShown_flag, (lawStore_rest _ _ hc).law c hc, if_pos rfl, (lawKept_missShown g d).fallback hc]
  exact ⟨rfl, rfl⟩

/-- At the LAW deadline a channel that runs and has no output takes the fallback, whatever the others do. -/
theorem lawMiss_three (d : Dev) (hc : c < 3) (hrun : chanRuns g c d = true) (hnone : ((d.region g).chan c).law = none) :
    (((foldN 3 (lawMiss g) d).region g).chan c).law = some (lawFallback g (asChan g c d)) ∧
    (foldN 3 (lawMiss g) d).flag (RG_LAWSTAT_LMISS g) = true := by
  have before (e : Dev) (he : LawKept g d e) (hn : ((e.region g).chan c).law = none) :
      (((lawMiss g e c).region g).chan c).law = some (lawFallback g (asChan g c d)) ∧ (lawMiss g e c).flag (RG_LAWSTAT_LMISS g) = true := by
    have h := lawMiss_same e hc (by rw [he.runs c hc]; exact hrun) hn
    rwa [he.fallback hc] at h
  have after (e : Dev) (k : Nat) (hk : k < 3) (hne : c ≠ k)
      (h : ((e.region g).chan c).law = some (lawFallback g (asChan g c d)) ∧ e.flag (RG_LAWSTAT_LMISS g) = true) :
      (((lawMiss g e k).region g).chan c).law = some (lawFallback g (asChan g c d)) ∧ (lawMiss g e k).flag (RG_LAWSTAT_LMISS g) = true :=
    ⟨(lawMiss_other e hk hc hne).trans h.1, lawMiss_lmiss e k h.2⟩
  have skip (e : Dev) (k : Nat) (hk : k < 3) (hne : c ≠ k) (hn : ((e.region g).chan c).law = none) :
      ((((lawMiss g e k).region g).chan c).law = none) := (lawMiss_other e hk hc hne).trans hn
  rw [foldN_three]
  have hcase : c = 0 ∨ c = 1 ∨ c = 2 := by omega
  rcases hcase with rfl | rfl | rfl
  · exact after _ 2 (by omega) (by omega) (after _ 1 (by omega) (by omega)
      (before d ⟨fun _ _ => rfl, rfl, rfl, fun _ _ => rfl⟩ hnone))
  · exact after _ 2 (by omega) (by omega) (before _ (lawKept_lawMiss d (by omega)) (skip d 0 (by omega) (by omega) hnone))
  · exact before _ ((lawKept_lawMiss d (by omega)).trans (lawKept_lawMiss _ (by omega)))
      (skip _ 1 (by omega) (by omega) (skip d 0 (by omega) (by omega) hnone))

theorem lawDeadline_eq (d : Dev) (hasg : d.assigned g = true) (hoff : d.rgState g ≠ rgOFF) (hin : (d.region g).lawIn.isSome = true) :
    lawDeadline g d = foldN 3 (lawMiss g) d := by
  unfold lawDeadline
  rw [if_neg (by simp [hasg, hoff])]
  have : ¬ ((d.region g).lawIn.isNone = true ∧ lawReady g d = true) := by
    intro h
    have := h.1
    cases hl : (d.region g).lawIn <;> simp_all
  simp only [if_neg this]
  rfl

theorem lawRun_eq {o : LawOut} (d : Dev) (hasg : d.assigned g = true) (hoff : d.rgState g ≠ rgOFF) (hrun : chanRuns g c d = true)
    (hnone : ((d.region g).chan c).law = none) (hin : (d.region g).lawIn.isSome = true) (hready : lawReady g d = true)
    (ho : lawCompute g (asChan g c d) = some o) : lawRun g c d = lawStore g c o d := by
  unfold lawRun
  rw [if_neg (by simp [hasg, hoff, hrun, hnone, hready])]
  simp only [if_pos hin, ho]

end Sys2Proof.Machine
end

section
open Sys2Proof Machine

/-- Settles O32: a channel stores the output of its run; at the LAW deadline a channel without one takes the fallback, which the
channels before it leave as it was. -/
theorem lawRuns : Obligations.LawRuns := by
  intro g c s ha hinj hasg hoff hrun hnone hin
  have K := calmRegion g.val
  refine ⟨fun o hready ho => ?_, ?_⟩
  · have heq := lawRun_eq s.dev hasg hoff hrun hnone hin hready ho
    have hinj' := injChan_none (g := g.val) (c := c.val) (lawRun g.val c.val) hinj
    refine answers_running (f := injChan g.val c.val (lawRun g.val c.val)) rfl ha ?_ ?_ <;> rw [hinj']
    · exact quiet_of_frame (frame_lawRun K _ (frame_refl _))
    · rw [tripOutRelease_region, heq, (lawStore_rest o s.dev c.isLt).law c c.isLt, if_pos rfl]
  · refine answers_running rfl ha (quiet_of_frame (frame_lawDeadline K (frame_refl _))) ?_
    rw [tripOutRelease_region, settled_flag _ _ (unit_ge rfl), lawDeadline_eq s.dev hasg hoff hin]
    exact lawMiss_three s.dev c.isLt hrun hnone

end

section
/-! PROOFS. What a channel that gives up leaves: its state, its cause, its readouts (used by O30 and O35). -/

namespace Sys2Proof.Machine

variable {d e : Dev} {g c k : Nat} {x : Fld}

theorem mem_chansIn {st : Nat} : c ∈ chansIn g st d ↔ c < 3 ∧ d.get (CH_STAT_STATE g c) = st := by
  unfold chansIn
  rw [List.mem_filter, List.mem_range, beq_iff_eq]

/-- A field that the channels of region `g`, `c` apart, do not touch when they move. -/
structure OffChans (g c : Nat) (x : Fld) : Prop where
  unit : 0x7000 ≤ x.addr
  vstat : x.addr ≠ CH_VSTAT g
  stat : ∀ k, k ≠ c → x.addr ≠ CH_STAT g k
  cnt : ∀ k, x.addr ≠ CH_CNT g k
  evt : x.addr ≠ CH_VEVT g ∨ x = CH_VEVT_GIVEUP g ∨ x = CH_VEVT_VMISS g

theorem chanCount_get (d : Dev) (h : x.addr ≠ CH_VSTAT g) : (chanCount g d).get x = d.get x := by
  unfold chanCount Dev.putB
  rw [get_put_ne _ _ _ _ (Ne.symm h), get_put_ne _ _ _ _ (Ne.symm h)]

theorem chanGo_get (st : Nat) (d : Dev) (h : x.addr ≠ CH_VSTAT g) (hs : x.addr ≠ CH_STAT g c) :
    (chanGo g c st d).get x = d.get x := by
  unfold chanGo
  rw [chanCount_get _ h, get_put_ne _ _ _ _ (Ne.symm hs)]

theorem chStat_ne_vstat (g c : Nat) : CH_STAT g c ≠ CH_VSTAT g := by unfold CH_STAT CH_VSTAT; omega
theorem chStat_ne_cnt (g c k : Nat) : CH_STAT g c ≠ CH_CNT g k := by unfold CH_STAT CH_CNT; omega
theorem chStat_ne_evt (g c : Nat) : CH_STAT g c ≠ CH_VEVT g := by unfold CH_STAT CH_VEVT; omega
theorem chStat_ne (g : Nat) (h : c ≠ k) : CH_STAT g c ≠ CH_STAT g k := by unfold CH_STAT; omega

theorem offChans_stat (g : Nat) (hx : x.addr = CH_STAT g c) : OffChans g c x where
  unit := hx ▸ unit_ge_two rfl
  vstat := hx ▸ chStat_ne_vstat g c
  stat _ h := hx ▸ chStat_ne g (Ne.symm h)
  cnt k := hx ▸ chStat_ne_cnt g c k
  evt := .inl (hx ▸ chStat_ne_evt g c)

theorem offChans_giveup (g c : Nat) : OffChans g c (CH_VEVT_GIVEUP g) where
  unit := unit_ge rfl
  vstat := by unfold CH_VEVT_GIVEUP CH_VEVT CH_VSTAT; dsimp only; omega
  stat k _ := by unfold CH_VEVT_GIVEUP CH_VEVT CH_STAT; dsimp only; omega
  cnt k := by unfold CH_VEVT_GIVEUP CH_VEVT CH_CNT; dsimp only; omega
  evt := .inr (.inl rfl)

theorem offChans_discnt (g c : Nat) : OffChans g c (CH_VCNT_DISCNT g) where
  unit := unit_ge rfl
  vstat := by unfold CH_VCNT_DISCNT CH_VCNT CH_VSTAT; dsimp only; omega
  stat k _ := by unfold CH_VCNT_DISCNT CH_VCNT CH_STAT; dsimp only; omega
  cnt k := by unfold CH_VCNT_DISCNT CH_VCNT CH_CNT; dsimp only; omega
  evt := .inl (by unfold CH_VCNT_DISCNT CH_VCNT CH_VEVT; dsimp only; omega)

theorem offChans_vmiss (g c : Nat) : OffChans g c (CH_VEVT_VMISS g) where
  unit := unit_ge rfl
  vstat := (offChans_giveup g c).vstat
  stat := (offChans_giveup g c).stat
  cnt := (offChans_giveup g c).cnt
  evt := .inr (.inr rfl)

section off
variable (O : OffChans g c x)
include O

/-- A flag of the votes other than GIVEUP. -/
theorem OffChans.raise (d : Dev) (f : Fld) (cl : Cls)
    (hf : f = CH_VEVT_LOST g ∨ f = CH_VEVT_RSDONE g ∨ f = CH_VEVT_PROMOTE g ∨ f = CH_VEVT_SOLE g) :
    (d.raise f cl).get x = d.get x := by
  rcases O.evt with h | rfl | rfl
  · exact ufld_raise_ne _ _ _ _ O.unit (by rcases hf with rfl | rfl | rfl | rfl <;> exact Ne.symm h)
  · rcases hf with rfl | rfl | rfl | rfl <;> exact ufld_raise_disj _ _ _ _ (unit_ge rfl) (by rfl) (by rfl) (by rfl)
  · rcases hf with rfl | rfl | rfl | rfl <;> exact ufld_raise_disj _ _ _ _ (unit_ge rfl) (by rfl) (by rfl) (by rfl)

theorem OffChans.chanGo (st : Nat) (d : Dev) (h : k ≠ c) : (chanGo g k st d).get x = d.get x :=
  chanGo_get st d O.vstat (O.stat k h)

theorem OffChans.promote (d : Dev) (h : k ≠ c) : (promote g k d).get x = d.get x := by
  unfold Machine.promote Dev.bump
  rw [O.raise _ _ _ (.inr (.inr (.inl rfl))), get_put_ne _ _ _ _ (Ne.symm (O.cnt k)), O.chanGo _ _ h]

theorem OffChans.handOver (d : Dev) : (handOver d).get x = d.get x :=
  (frame_handOver (W := (· = GL_TWSTAT)) (S := fun p => p = .sent ∨ p = .tw) (.inl rfl) (.inr rfl) rfl (frame_refl d)).get x
    (unit_ne O.unit rfl)

theorem OffChans.sole (d : Dev) : (soleOr g (CH_VEVT_SOLE g) d).get x = d.get x := by
  unfold soleOr
  split
  · exact O.handOver d
  · exact O.raise _ _ _ (.inr (.inr (.inr rfl)))

end off

/-! ## A channel that has given up -/

/-- A channel enters GIVEUP with its cause; its work is gone. -/
def gaveUp (g c cause : Nat) (d : Dev) : Dev :=
  (((chanGo g c chGIVENUP d).put (CH_STAT_CAUSE g c) cause).bump (CH_CNT_GUCNT g c)).raise (CH_VEVT_GIVEUP g) .service
    |>.onChan g c fun _ => chan0

/-- It is LOST once it has given up often enough. -/
def gaveUpLost (g c cause : Nat) (d : Dev) : Dev :=
  if (gaveUp g c cause d).get (CH_VCFG_MAXGU g) ≤ (gaveUp g c cause d).get (CH_CNT_GUCNT g c) then chanLost g c (gaveUp g c cause d)
  else gaveUp g c cause d

/-- A channel whose check is complete enters STANDBY. -/
def checkedIn (g : Nat) (d : Dev) (k : Nat) : Dev :=
  if checkOk g k d then (chanGo g k chSTANDBY d).raise (CH_VEVT_RSDONE g) .notice else d

/-- A STANDBY channel takes the place of the one that gave up. -/
def replaced (g : Nat) (d : Dev) : Dev :=
  match chansIn g chSTANDBY d with
  | s :: _ => promote g s d
  | [] => if (chansIn g chACTIVE d).length < 2 then soleOr g (CH_VEVT_SOLE g) d else d

theorem giveUp_eq (cause : Nat) (hst : d.get (CH_STAT_STATE g c) = chACTIVE ∨ d.get (CH_STAT_STATE g c) = chSTANDBY ∨
    d.get (CH_STAT_STATE g c) = chRESYNC) (hasg : d.assigned g = true) : giveUp g c cause d =
    if d.get (CH_STAT_STATE g c) ≠ chACTIVE then gaveUpLost g c cause d
    else replaced g (foldN 3 (checkedIn g) (gaveUpLost g c cause d)) := by
  unfold giveUp
  rw [if_neg (not_or.mpr ⟨not_not.mpr hst, not_not.mpr hasg⟩)]
  rfl

/-- The rest of a give-up leaves a field that only the channel itself moves, the channel being neither in RESYNC nor in STANDBY. -/
theorem OffChans.replaced (O : OffChans g c x) (hc : c < 3) (d : Dev) (h1 : d.get (CH_STAT_STATE g c) ≠ chRESYNC)
    (h2 : d.get (CH_STAT_STATE g c) ≠ chSTANDBY) : (replaced g (foldN 3 (checkedIn g) d)).get x = d.get x := by
  have hstep (y : Fld) (Y : OffChans g c y) (e : Dev) (k : Nat) (hk : k < 3) (he : e.get (CH_STAT_STATE g c) ≠ chRESYNC) :
      (checkedIn g e k).get y = e.get y := by
    unfold checkedIn
    split
    next hok =>
      have hne : k ≠ c := by
        rintro rfl
        simp only [checkOk, Bool.and_eq_true, beq_iff_eq] at hok
        exact he hok.1.1
      rw [Y.raise _ _ _ (.inr (.inl rfl)), Y.chanGo _ _ hne]
    next => rfl
  have S : OffChans g c (CH_STAT_STATE g c) := offChans_stat g rfl
  have hfold (y : Fld) (Y : OffChans g c y) : (foldN 3 (checkedIn g) d).get y = d.get y := by
    have e1 := hstep _ S d 0 (by omega) h1
    have e2 := hstep _ S (checkedIn g d 0) 1 (by omega) (by rw [e1]; exact h1)
    rw [foldN_three, hstep y Y _ 2 (by omega) (by rw [e2, e1]; exact h1), hstep y Y _ 1 (by omega) (by rw [e1]; exact h1),
      hstep y Y _ 0 (by omega) h1]
  rw [← hfold x O]
  unfold Machine.replaced
  split
  next s l hl =>
    obtain ⟨-, hst⟩ := mem_chansIn.mp (hl ▸ List.mem_cons_self : s ∈ chansIn g chSTANDBY _)
    refine O.promote _ ?_
    rintro rfl
    exact h2 ((hfold _ S).symm.trans hst)
  next =>
    split
    · exact O.sole _
    · rfl

theorem gaveUp_state (cause : Nat) (d : Dev) : (gaveUp g c cause d).get (CH_STAT_STATE g c) = chGIVENUP := by
  unfold gaveUp Dev.bump
  rw [onChan_get, ufld_raise_ne _ _ _ _ (unit_ge_two rfl) (Ne.symm (chStat_ne_evt g c)),
    get_put_ne _ _ _ _ (Ne.symm (chStat_ne_cnt g c c)), ufld_put_disj _ (CH_STAT_CAUSE g c) (CH_STAT_STATE g c) _ rfl rfl, chanGo,
    chanCount_get _ (chStat_ne_vstat g c)]
  exact ufld_put _ _ _ (by rfl) (by rfl)

theorem gaveUp_cause {cause : Nat} (d : Dev) (h : cause < 16) : (gaveUp g c cause d).get (CH_STAT_CAUSE g c) = cause := by
  unfold gaveUp Dev.bump
  rw [onChan_get, ufld_raise_ne _ _ _ _ (unit_ge_two rfl) (Ne.symm (chStat_ne_evt g c)),
    get_put_ne _ _ _ _ (Ne.symm (chStat_ne_cnt g c c)), ufld_put_mod _ (CH_STAT_CAUSE g c) _ rfl]
  exact Nat.mod_eq_of_lt h

theorem gaveUp_flag (cause : Nat) (d : Dev) : (gaveUp g c cause d).flag (CH_VEVT_GIVEUP g) = true := by
  unfold gaveUp
  rw [onChan_flag]
  exact uflag_raise _ _ _ (unit_ge rfl) (by rfl) (by rfl)

theorem gaveUp_cnt (cause : Nat) (d : Dev) :
    (gaveUp g c cause d).get (CH_CNT_GUCNT g c) = satInc (CH_CNT_GUCNT g c).width (d.get (CH_CNT_GUCNT g c)) 1 := by
  have hs : (CH_CNT_GUCNT g c).addr ≠ CH_STAT g c := Ne.symm (chStat_ne_cnt g c c)
  have hv : (CH_CNT_GUCNT g c).addr ≠ CH_VSTAT g := by unfold CH_CNT_GUCNT CH_CNT CH_VSTAT; dsimp only; omega
  have he : (CH_VEVT_GIVEUP g).addr ≠ (CH_CNT_GUCNT g c).addr := by
    unfold CH_CNT_GUCNT CH_CNT CH_VEVT_GIVEUP CH_VEVT; dsimp only; omega
  unfold gaveUp
  rw [onChan_get, ufld_raise_ne _ _ _ _ (unit_ge_two rfl) he, ufld_bump _ (CH_CNT_GUCNT g c) _ rfl, get_put_ne _ _ _ _ (Ne.symm hs), chanGo_get _ _ hv hs]

theorem gaveUp_maxgu (cause : Nat) (d : Dev) : (gaveUp g c cause d).get (CH_VCFG_MAXGU g) = d.get (CH_VCFG_MAXGU g) := by
  have hs : (CH_VCFG_MAXGU g).addr ≠ CH_STAT g c := by unfold CH_VCFG_MAXGU CH_VCFG CH_STAT; dsimp only; omega
  have hc : (CH_CNT_GUCNT g c).addr ≠ (CH_VCFG_MAXGU g).addr := by unfold CH_VCFG_MAXGU CH_VCFG CH_CNT_GUCNT CH_CNT; dsimp only; omega
  have hv : (CH_VCFG_MAXGU g).addr ≠ CH_VSTAT g := by unfold CH_VCFG_MAXGU CH_VCFG CH_VSTAT; dsimp only; omega
  have he : (CH_VEVT_GIVEUP g).addr ≠ (CH_VCFG_MAXGU g).addr := by unfold CH_VCFG_MAXGU CH_VCFG CH_VEVT_GIVEUP CH_VEVT; dsimp only; omega
  unfold gaveUp Dev.bump
  rw [onChan_get, ufld_raise_ne _ _ _ _ (unit_ge rfl) he, get_put_ne _ _ _ _ hc, get_put_ne _ _ _ _ (Ne.symm hs), chanGo_get _ _ hv hs]

theorem OffChans.chanLost_get (O : OffChans g c x) (d : Dev) (hs : ∀ d : Dev, (d.put (CH_STAT_STATE g c) chLOST).get x = d.get x) :
    (chanLost g c d).get x = d.get x := by
  unfold chanLost Machine.chanGo
  rw [O.raise _ _ _ (.inl rfl), chanCount_get _ O.vstat, hs]

theorem chanLost_state (d : Dev) : (chanLost g c d).get (CH_STAT_STATE g c) = chLOST := by
  unfold chanLost chanGo
  rw [ufld_raise_ne _ _ _ _ (unit_ge_two rfl) (Ne.symm (chStat_ne_evt g c)), chanCount_get _ (chStat_ne_vstat g c)]
  exact ufld_put _ _ _ (by rfl) (by rfl)

theorem OffChans.lost (O : OffChans g c x) (cause : Nat) (d : Dev)
    (hs : ∀ d : Dev, (d.put (CH_STAT_STATE g c) chLOST).get x = d.get x) :
    (gaveUpLost g c cause d).get x = (gaveUp g c cause d).get x := by
  unfold gaveUpLost
  split
  · exact O.chanLost_get _ hs
  · rfl

theorem gaveUpLost_state (cause : Nat) (d : Dev) : (gaveUpLost g c cause d).get (CH_STAT_STATE g c) =
    if d.get (CH_VCFG_MAXGU g) ≤ satInc (CH_CNT_GUCNT g c).width (d.get (CH_CNT_GUCNT g c)) 1 then chLOST else chGIVENUP := by
  unfold gaveUpLost
  rw [gaveUp_maxgu, gaveUp_cnt]
  split
  · exact chanLost_state _
  · exact gaveUp_state _ _

/-- A field that only the channel itself moves, after it has given up. -/
theorem OffChans.giveUp (O : OffChans g c x) (hc : c < 3) (cause : Nat) (d : Dev)
    (hst : d.get (CH_STAT_STATE g c) = chACTIVE ∨ d.get (CH_STAT_STATE g c) = chSTANDBY ∨ d.get (CH_STAT_STATE g c) = chRESYNC)
    (hasg : d.assigned g = true) : (giveUp g c cause d).get x = (gaveUpLost g c cause d).get x := by
  have hlost := gaveUpLost_state (g := g) (c := c) cause d
  rw [giveUp_eq cause hst hasg]
  split
  · rfl
  · refine O.replaced hc _ ?_ ?_ <;> rw [hlost] <;> split <;> decide

theorem giveUp_state (hc : c < 3) (cause : Nat) (d : Dev)
    (hst : d.get (CH_STAT_STATE g c) = chACTIVE ∨ d.get (CH_STAT_STATE g c) = chSTANDBY ∨ d.get (CH_STAT_STATE g c) = chRESYNC)
    (hasg : d.assigned g = true) : (giveUp g c cause d).get (CH_STAT_STATE g c) =
    if d.get (CH_VCFG_MAXGU g) ≤ satInc (CH_CNT_GUCNT g c).width (d.get (CH_CNT_GUCNT g c)) 1 then chLOST else chGIVENUP :=
  ((offChans_stat g rfl).giveUp hc cause d hst hasg).trans (gaveUpLost_state cause d)

theorem giveUp_cause (hc : c < 3) {cause : Nat} (h : cause < 16) (d : Dev)
    (hst : d.get (CH_STAT_STATE g c) = chACTIVE ∨ d.get (CH_STAT_STATE g c) = chSTANDBY ∨ d.get (CH_STAT_STATE g c) = chRESYNC)
    (hasg : d.assigned g = true) : (giveUp g c cause d).get (CH_STAT_CAUSE g c) = cause := by
  have O : OffChans g c (CH_STAT_CAUSE g c) := offChans_stat g rfl
  rw [O.giveUp hc cause d hst hasg, O.lost cause d fun _ => ufld_put_disj _ _ _ _ (by rfl) (by rfl), gaveUp_cause d h]

theorem giveUp_flag (hc : c < 3) (cause : Nat) (d : Dev)
    (hst : d.get (CH_STAT_STATE g c) = chACTIVE ∨ d.get (CH_STAT_STATE g c) = chSTANDBY ∨ d.get (CH_STAT_STATE g c) = chRESYNC)
    (hasg : d.assigned g = true) : (giveUp g c cause d).flag (CH_VEVT_GIVEUP g) = true := by
  have O := offChans_giveup g c
  have hne (d : Dev) : (d.put (CH_STAT_STATE g c) chLOST).get (CH_VEVT_GIVEUP g) = d.get (CH_VEVT_GIVEUP g) :=
    get_put_ne _ _ _ _ (chStat_ne_evt g c)
  rw [flag_congr ((O.giveUp hc cause d hst hasg).trans (O.lost cause d hne)), gaveUp_flag]

/-- A give-up leaves the fields that no channel moves. -/
theorem OffChans.giveUp_get (O : OffChans g c x) (hs : x.addr ≠ CH_STAT g c)
    (hg : ∀ d : Dev, (d.raise (CH_VEVT_GIVEUP g) .service).get x = d.get x) (hc : c < 3) (cause : Nat) (d : Dev) :
    (Machine.giveUp g c cause d).get x = d.get x := by
  by_cases h : (d.get (CH_STAT_STATE g c) = chACTIVE ∨ d.get (CH_STAT_STATE g c) = chSTANDBY ∨ d.get (CH_STAT_STATE g c) = chRESYNC) ∧
      d.assigned g = true
  · rw [O.giveUp hc cause d h.1 h.2, O.lost cause d fun _ => get_put_ne _ _ _ _ (Ne.symm hs)]
    unfold gaveUp Dev.bump
    rw [onChan_get, hg, get_put_ne _ _ _ _ (Ne.symm (O.cnt c)), get_put_ne _ _ _ _ (Ne.symm hs), chanGo_get _ _ O.vstat hs]
  · unfold Machine.giveUp
    rw [if_pos]
    simpa only [not_and_or] using h

theorem giveUp_discnt (hc : c < 3) (cause : Nat) (d : Dev) : (giveUp g c cause d).get (CH_VCNT_DISCNT g) = d.get (CH_VCNT_DISCNT g) := by
  have he : (CH_VEVT_GIVEUP g).addr ≠ (CH_VCNT_DISCNT g).addr := by unfold CH_VCNT_DISCNT CH_VCNT CH_VEVT_GIVEUP CH_VEVT; dsimp only; omega
  exact (offChans_discnt g c).giveUp_get (by unfold CH_VCNT_DISCNT CH_VCNT CH_STAT; dsimp only; omega)
    (fun _ => ufld_raise_ne _ _ _ _ (unit_ge rfl) he) hc cause d

theorem giveUp_vmiss (hc : c < 3) (cause : Nat) (d : Dev) : (giveUp g c cause d).get (CH_VEVT_VMISS g) = d.get (CH_VEVT_VMISS g) :=
  (offChans_vmiss g c).giveUp_get (Ne.symm (chStat_ne_evt g c)) (fun _ => ufld_raise_disj _ _ _ _ (unit_ge rfl) (by rfl) (by rfl) (by rfl)) hc cause d

end Sys2Proof.Machine
end

section
/-! PROOFS. Run-ahead plans, recomputes and late plans (O30). -/

namespace Sys2Proof.Machine

variable {s : State} {d e : Dev} {g c u : Nat} {o : LawOut} {p : Plan}

theorem chan_onChan_same (d : Dev) (g c : Nat) (f : Chan → Chan) : ((d.onChan g c f).region g).chan c = f ((d.region g).chan c) := by
  rw [region_onChan, chan_setChan_same]

/-- The run-ahead plan of a channel that may compute it. -/
theorem runAhead_eq (hplan : planning g d = true) (hrun : chanRuns g c d = true) (hlaw : ((d.region g).chan c).law = some o)
    (hrdl : (d.region g).rdlPast = true) (hgdl : (d.region g).gdlPast = true) (hcp : (d.region g).cpPast = false)
    (hdone : (d.region g).voteDone = false) (hhold : (d.region g).gathHold = false) (hra : ((d.region g).chan c).ra = none) :
    runAhead g c u d = d.onChan g c fun x => { x with ra := some (channelPlan g c u none o d), present := true } := by
  unfold runAhead
  simp only [hlaw]
  rw [if_neg (by simp [hplan, hrun, hrdl, hgdl, hcp, hdone, hhold, hra])]

/-- The recompute of a channel that may compute it. -/
theorem recomputeD_eq {m : Nat} (hplan : planning g d = true) (hrun : chanRuns g c d = true)
    (hlaw : ((d.region g).chan c).law = some o) (hsq : (d.region g).squash = some m) (hdone : (d.region g).voteDone = false)
    (hrc : ((d.region g).chan c).rc = none) (hcome : bitOf m 0 = true → regathered g d = true ∨ (d.region g).rgdlPast = true) :
    recomputeD g c u d = d.onChan g c fun x => { x with rc := some (channelPlan g c u (some m) o d), present := true } := by
  unfold recomputeD
  have hlate : ¬ (bitOf m 0 = true ∧ ¬ regathered g d = true ∧ ¬ (d.region g).rgdlPast = true) := by
    rintro ⟨h1, h2, h3⟩
    rcases hcome h1 with h | h
    · exact h2 h
    · exact h3 h
  simp only [hsq, hlaw, hdone]
  rw [if_neg (by simp [hplan]), if_neg (by simp), if_neg]
  simp only [hrun, hrc, not_true_eq_false, Option.isSome_none, Bool.false_eq_true, false_or, hlate, not_false_eq_true]

/-- A late plan is compared once the vote is over. -/
theorem latePlan_voted (hplan : planning g d = true) (hdone : (d.region g).voteDone = true) :
    latePlan g c u d = comparePlan g c u d := by
  unfold latePlan
  rw [if_neg (by simp [hplan]), if_pos hdone]

theorem comparePlan_hold (hvoted : (d.region g).voted = some p) (hhold : p.hold = true) : comparePlan g c u d = d := by
  unfold comparePlan
  simp only [hvoted]
  split
  next p' o' hp' ho' =>
    obtain rfl : p = p' := Option.some.inj hp'
    exact if_pos (.inr (.inr (.inr (.inr hhold))))
  next => rfl

theorem comparePlan_eq (hvoted : (d.region g).voted = some p) (hhold : p.hold = false) (hrun : chanRuns g c d = true)
    (hlaw : ((d.region g).chan c).law = some o) (hdone : (d.region g).voteDone = true)
    (hpres : ((d.region g).chan c).present = false) (hvdl : (d.region g).vdlPast = false) :
    comparePlan g c u d = if (channelPlan g c u (d.region g).sqUsed o d).digest = planDigest g p d then
        d.onChan g c fun x => { x with present := true }
      else dissent g c 5 (d.onChan g c fun x => { x with present := true }) := by
  unfold comparePlan
  simp only [hvoted, hlaw]
  rw [if_neg (by simp [hhold, hrun, hdone, hpres, hvdl])]

/-! ## Dissent -/

theorem discnt_addr (g c : Nat) : CH_VCNT g ≠ CH_STAT g c := by unfold CH_VCNT CH_STAT; omega

/-- Each dissent is counted once. -/
theorem dissent_discnt (hc : c < 3) (cause : Nat) (d : Dev) :
    (dissent g c cause d).get (CH_VCNT_DISCNT g) = satInc (CH_VCNT_DISCNT g).width (d.get (CH_VCNT_DISCNT g)) 1 := by
  have hcount : (d.bump (CH_VCNT_DISCNT g)).get (CH_VCNT_DISCNT g) = satInc (CH_VCNT_DISCNT g).width (d.get (CH_VCNT_DISCNT g)) 1 :=
    ufld_bump _ _ _ (by rfl)
  unfold dissent
  extract_lets counted checked
  have hchecked : checked.get (CH_VCNT_DISCNT g) = counted.get (CH_VCNT_DISCNT g) := by
    show (Dev.onChan ((counted.put (CH_STAT_RSOK g c) 0).bump (CH_STAT_RSFAIL g c)) g c _).get _ = _
    unfold Dev.bump
    rw [onChan_get, get_put_ne _ _ _ _ (Ne.symm (discnt_addr g c)), get_put_ne _ _ _ _ (Ne.symm (discnt_addr g c))]
  rw [← hcount]
  split
  · split
    · rw [giveUp_discnt hc, hchecked]
    · exact hchecked
  · exact giveUp_discnt hc _ _

/-- A channel that dissents, and does not resynchronise, gives up with the cause. -/
theorem dissent_cause (hc : c < 3) {cause : Nat} (h : cause < 16) (d : Dev) (hrun : d.get (CH_STAT_STATE g c) = chACTIVE ∨
    d.get (CH_STAT_STATE g c) = chSTANDBY) (hasg : d.assigned g = true) : (dissent g c cause d).get (CH_STAT_CAUSE g c) = cause := by
  have hstate : (d.bump (CH_VCNT_DISCNT g)).get (CH_STAT_STATE g c) = d.get (CH_STAT_STATE g c) :=
    get_put_ne _ _ _ _ (discnt_addr g c)
  have hne : d.get (CH_STAT_STATE g c) ≠ chRESYNC := by rcases hrun with h | h <;> rw [h] <;> decide
  unfold dissent
  extract_lets counted checked
  rw [if_neg (by rw [hstate]; exact hne)]
  refine giveUp_cause hc h _ ?_ ?_
  · rw [hstate]
    exact hrun.imp_right .inl
  · rw [← hasg]
    refine assigned_of_quires fun q hq x hx => get_put_ne _ _ _ _ ?_
    rw [hx]
    unfold CH_VCNT_DISCNT CH_VCNT QU_CFG
    dsimp only
    omega

theorem runs_of_not_resync (hrun : chanRuns g c d = true) (h : d.get (CH_STAT_STATE g c) ≠ chRESYNC) :
    d.get (CH_STAT_STATE g c) = chACTIVE ∨ d.get (CH_STAT_STATE g c) = chSTANDBY := by
  unfold chanRuns at hrun
  simp only [Bool.or_eq_true, Bool.and_eq_true, beq_iff_eq, h, false_and, or_false] at hrun
  exact hrun

end Sys2Proof.Machine

open Sys2Proof Machine

/-- Settles O30, by the plan that each computation puts into its channel, and the dissent of one that differs from the plan sent. -/
theorem planComputed : Obligations.PlanComputed := by
  unfold Obligations.PlanComputed
  intro g c u o s ha hinj hplan hrun hlaw
  have K := calmRegion g.val
  have H := calmHand g.val
  refine ⟨fun hrdl hgdl hcp hdone hhold hra => ?_, fun m hsq hdone hrc hcome => ?_, fun p hvoted hdone => ⟨fun hhold => ?_, fun hhold hpres hvdl => ?_⟩⟩
  · have hinj' := injChan_none (g := g.val) (c := c.val) (runAhead g.val c.val u.toNat) hinj
    refine answers_running (f := injChan g.val c.val (runAhead g.val c.val u.toNat)) rfl ha ?_ ?_ <;> rw [hinj']
    · exact quiet_of_frame (frame_runAhead K _ _ (frame_refl _))
    · rw [tripOutRelease_region, runAhead_eq hplan hrun hlaw hrdl hgdl hcp hdone hhold hra, chan_onChan_same]
      exact ⟨rfl, rfl⟩
  · have hinj' := injChan_none (g := g.val) (c := c.val) (recomputeD g.val c.val u.toNat) hinj
    refine answers_running (f := injChan g.val c.val (recomputeD g.val c.val u.toNat)) rfl ha ?_ ?_ <;> rw [hinj']
    · exact quiet_of_frame (frame_recomputeD H c.isLt _ (frame_refl _))
    · rw [tripOutRelease_region, recomputeD_eq hplan hrun hlaw hsq hdone hrc hcome, chan_onChan_same]
      exact ⟨rfl, rfl⟩
  · have hinj' := injChan_none (g := g.val) (c := c.val) (latePlan g.val c.val u.toNat) hinj
    have heq : latePlan g.val c.val u.toNat s.dev = s.dev := (latePlan_voted hplan hdone).trans (comparePlan_hold hvoted hhold)
    refine answers_running (f := injChan g.val c.val (latePlan g.val c.val u.toNat)) rfl ha ?_ ?_ <;> rw [hinj', heq]
    · exact quiet_of_frame (frame_refl _)
    · exact tripOutRelease_region _ _
  · have hinj' := injChan_none (g := g.val) (c := c.val) (latePlan g.val c.val u.toNat) hinj
    have heq := (latePlan_voted (c := c.val) (u := u.toNat) hplan hdone).trans
      (comparePlan_eq hvoted hhold hrun hlaw hdone hpres hvdl)
    refine answers_running (f := injChan g.val c.val (latePlan g.val c.val u.toNat)) rfl ha ?_ ?_ <;> rw [hinj']
    · rw [latePlan_voted hplan hdone]
      exact quiet_of_frame (frame_comparePlan H c.isLt _ (frame_refl _))
    · show if _ then _ else _
      rw [heq, tripOutRelease_region, settled_get _ _ (unit_ge rfl), settled_get _ _ (unit_ge_two rfl)]
      split
      · rw [chan_onChan_same, onChan_get]
        exact ⟨rfl, rfl⟩
      · refine ⟨(dissent_discnt c.isLt 5 _).trans (by rw [onChan_get]), fun hst => ?_⟩
        exact dissent_cause c.isLt (by decide) _ (by rw [onChan_get]; exact runs_of_not_resync hrun hst)
          ((assigned_of_quires fun _ _ _ _ => onChan_get _ _ _ _ _).trans (planning_assigned hplan))

end

section
/-! PROOFS. Give-up, self-test and resynchronisation of a channel (O35). -/

namespace Sys2Proof.Machine

variable {s : State} {d e : Dev} {g c u : Nat}

/-! ## Entering a state -/

theorem chanGo_state (st : Nat) (d : Dev) (h : st < 8) : (chanGo g c st d).get (CH_STAT_STATE g c) = st := by
  unfold chanGo
  rw [chanCount_get _ (chStat_ne_vstat g c), ufld_put_mod _ (CH_STAT_STATE g c) _ rfl]
  exact Nat.mod_eq_of_lt h

theorem chanGo_fb (st : Nat) (d : Dev) : (chanGo g c st d).fb = d.fb := by
  unfold chanGo chanCount Dev.putB
  rw [put_fb, put_fb, put_fb]

theorem chanLost_fb (d : Dev) : (chanLost g c d).fb = d.fb := by
  unfold chanLost
  rw [raise_fb, chanGo_fb]

theorem giveUp_unassigned (cause : Nat) (h : d.assigned g = false) : giveUp g c cause d = d := by
  unfold giveUp
  exact if_pos (.inr (by simp [h]))

/-! ## Self-test -/

/-- The elements of a channel are replaced one by one; whether each has got a spare. -/
def repairsDone (g c : Nat) (bad : List Nat) (d : Dev) : Dev × Bool :=
  bad.foldl (fun (a : Dev × Bool) e =>
    let x := repairUnit 3 (18 * (3 * g + c) + e) false a.1
    (x.1, a.2 && x.2)) (d, true)

/-- The channel after its self-test, the repairs made. -/
def tested (g c : Nat) (bad : List Nat) (d : Dev) : Dev :=
  (spareCounts (repairsDone g c bad d).1).onChan g c fun x => { x with testing := false, copied := false, diff := false }

/-- A channel starts to resynchronise. -/
def resyncStart (g c : Nat) (d : Dev) : Dev :=
  chanGo g c chRESYNC (((d.put (CH_STAT_RSPROG g c) 0).put (CH_STAT_RSOK g c) 0).put (CH_STAT_RSFAIL g c) 0)

theorem selfTestDone_eq (bad : List Nat) (hst : d.get (CH_STAT_STATE g c) = chGIVENUP) (ht : ((d.region g).chan c).testing = true) :
    selfTestDone g c bad d = if (repairsDone g c bad d).2 then resyncStart g c (tested g c bad d) else chanLost g c (tested g c bad d) := by
  unfold selfTestDone
  rw [if_neg (by simp [hst, ht])]
  show (if ¬ (repairsDone g c bad d).2 = true then chanLost g c (tested g c bad d) else resyncStart g c (tested g c bad d)) = _
  exact ite_not _ _ _

theorem tested_fb (bad : List Nat) (d : Dev) : (tested g c bad d).fb = (repairsDone g c bad d).1.fb := by
  unfold tested spareCounts Dev.onChan
  rw [onRegion_fb, put_fb, put_fb]

theorem resyncStart_fb (d : Dev) : (resyncStart g c d).fb = d.fb := by
  unfold resyncStart
  rw [chanGo_fb, put_fb, put_fb, put_fb]

theorem resyncStart_region (d : Dev) : (resyncStart g c d).region g = d.region g := by
  unfold resyncStart
  rw [region_chanGo, region_put, region_put, region_put]

theorem selfTestDone_fb (bad : List Nat) (hst : d.get (CH_STAT_STATE g c) = chGIVENUP) (ht : ((d.region g).chan c).testing = true) :
    (selfTestDone g c bad d).fb = (repairsDone g c bad d).1.fb := by
  rw [selfTestDone_eq bad hst ht, ← tested_fb]
  split
  · exact resyncStart_fb _
  · exact chanLost_fb _

theorem selfTestDone_state (bad : List Nat) (hst : d.get (CH_STAT_STATE g c) = chGIVENUP) (ht : ((d.region g).chan c).testing = true) :
    (selfTestDone g c bad d).get (CH_STAT_STATE g c) = if (repairsDone g c bad d).2 then chRESYNC else chLOST := by
  rw [selfTestDone_eq bad hst ht]
  split
  · exact chanGo_state _ _ (by decide)
  · exact chanLost_state _

/-- A self-test without a finding ends the test. -/
theorem selfTestDone_none_testing (hst : d.get (CH_STAT_STATE g c) = chGIVENUP) (ht : ((d.region g).chan c).testing = true) :
    (((selfTestDone g c [] d).region g).chan c).testing = false := by
  have heq : selfTestDone g c [] d = resyncStart g c (tested g c [] d) := by
    rw [selfTestDone_eq [] hst ht]
    exact if_pos rfl
  rw [heq, resyncStart_region, tested, chan_onChan_same]

/-- A unit without a fused spare retires, and the next spare in its scope takes its place. -/
theorem repairUnit_eq (c u : Nat) (d : Dev) (h : u ∉ sparesFor c u) : repairUnit c u false d = fillUnit c u (retireUnit c u d) := by
  unfold repairUnit
  exact if_pos ⟨by decide, by rw [List.contains_iff_mem]; exact h⟩

theorem retireUnit_retired (c u : Nat) (d : Dev) : (retireUnit c u d).fb.retired = d.fb.retired ++ [(c, u)] := rfl
theorem retireUnit_assigned (c u : Nat) (d : Dev) : (retireUnit c u d).fb.assigned = d.fb.assigned := rfl
theorem retireUnit_spareBad (c u : Nat) (d : Dev) : (retireUnit c u d).fb.spareBad = d.fb.spareBad := rfl
theorem assignSpare_retired (c u sp : Nat) (d : Dev) : (assignSpare c u sp d).fb.retired = d.fb.retired := rfl
theorem assignSpare_assigned (c u sp : Nat) (d : Dev) : (assignSpare c u sp d).fb.assigned = d.fb.assigned ++ [(c, u, sp)] := rfl

/-- A unit that retires is none of the spares of its scope. -/
theorem spareFor_retireUnit (c u : Nat) (d : Dev) (h : u ∉ sparesFor c u) : spareFor c u (retireUnit c u d) = spareFor c u d := by
  unfold spareFor
  refine List.find?_congr fun sp hsp => ?_
  have hne : sp ≠ u := fun h' => h (h' ▸ hsp)
  unfold spareOk
  rw [retireUnit_retired, retireUnit_assigned, retireUnit_spareBad, List.contains_append]
  simp [hne]

theorem fillUnit_retired (c u : Nat) (d : Dev) : (fillUnit c u d).1.fb.retired = d.fb.retired := by
  unfold fillUnit
  split
  · exact assignSpare_retired _ _ _ _
  · rfl

/-- What the repair of one element leaves. -/
theorem repairsDone_one (e : Nat) (he : e < 16) :
    (3, 18 * (3 * g + c) + e) ∈ (repairsDone g c [e] d).1.fb.retired ∧
    match spareFor 3 (18 * (3 * g + c) + e) d with
    | some sp => (repairsDone g c [e] d).2 = true ∧ (3, 18 * (3 * g + c) + e, sp) ∈ (repairsDone g c [e] d).1.fb.assigned
    | none => (repairsDone g c [e] d).2 = false := by
  have hspare : 18 * (3 * g + c) + e ∉ sparesFor 3 (18 * (3 * g + c) + e) := by
    simp only [sparesFor, List.mem_map, List.mem_range, not_exists, not_and]
    omega
  have heq : repairsDone g c [e] d = fillUnit 3 (18 * (3 * g + c) + e) (retireUnit 3 (18 * (3 * g + c) + e) d) := by
    show ((repairUnit 3 (18 * (3 * g + c) + e) false d).1, true && (repairUnit 3 (18 * (3 * g + c) + e) false d).2) = _
    rw [repairUnit_eq _ _ _ hspare, Bool.true_and]
  rw [heq, fillUnit_retired, retireUnit_retired]
  refine ⟨by simp, ?_⟩
  unfold fillUnit
  rw [spareFor_retireUnit _ _ _ hspare]
  cases spareFor 3 (18 * (3 * g + c) + e) d with
  | some sp => exact ⟨rfl, by dsimp only; rw [assignSpare_assigned]; simp⟩
  | none => rfl

/-! ## Resynchronisation -/

theorem copyDone_copied (hst : d.get (CH_STAT_STATE g c) = chRESYNC) (hn : d.get (CH_VSTAT_NSEG g) ≤ d.get (CH_STAT_RSPROG g c)) :
    ((copyDone g c d).region g |>.chan c).copied = true := by
  unfold copyDone
  by_cases h : ((d.region g).chan c).copied = true
  · rw [if_neg (fun hh => hh.2.1 h)]
    exact h
  · rw [if_pos ⟨hst, h, hn⟩]
    dsimp only
    split <;> rw [chan_onChan_same] <;> exact congrArg Chan.copied (chan_onChan_same _ _ _ _)

theorem checkDone_eq (hst : d.get (CH_STAT_STATE g c) = chRESYNC) (hcop : ((d.region g).chan c).copied = true)
    (hok : d.get (CH_VCFG_RSN g) ≤ d.get (CH_STAT_RSOK g c)) : checkDone g c d =
    (chanGo g c (if (chansIn g chACTIVE d).length < 2 then chACTIVE else chSTANDBY) d).raise (CH_VEVT_RSDONE g) .notice := by
  unfold checkDone
  exact if_pos (by simp [checkOk, hst, hcop, hok])

end Sys2Proof.Machine

open Sys2Proof Machine

/-- Settles O35, by the state that each step of Table 8.2 leaves the channel in. -/
theorem channelStates : Obligations.ChannelStates := by
  unfold Obligations.ChannelStates
  intro g c s ha
  have K := calmRegion g.val
  have H := calmHand g.val
  refine ⟨fun cause hasg hst => ?_, fun cause hasg => ?_, fun hst ht => ⟨?_, fun e he => ?_⟩, fun hst hn => ?_, fun hst hcop hok => ?_⟩
  · refine answers_running rfl ha (quiet_of_frame (frame_giveUp H.gives c.isLt _ (frame_refl _))) ?_
    have hcause : cause.val + 1 < 16 := by omega
    rw [settled_get _ _ (unit_ge_two rfl), settled_get _ _ (unit_ge_two rfl), settled_flag _ _ (unit_ge rfl)]
    exact ⟨giveUp_state c.isLt _ _ hst hasg, giveUp_cause c.isLt hcause _ hst hasg, giveUp_flag c.isLt _ _ hst hasg⟩
  · refine answers_running rfl ha (quiet_of_frame (frame_giveUp H.gives c.isLt _ (frame_refl _))) ?_
    rw [settled_get _ _ (unit_ge_two rfl), giveUp_unassigned _ hasg]
  · refine answers_running rfl ha (quiet_of_frame (frame_selfTestDone K trivial (by decide) c.isLt _ (frame_refl _))) ?_
    rw [settled_get _ _ (unit_ge_two rfl), tripOutRelease_region]
    exact ⟨selfTestDone_state [] hst ht, selfTestDone_none_testing hst ht⟩
  · refine answers_running rfl ha (quiet_of_frame (frame_selfTestDone K trivial (by decide) c.isLt _ (frame_refl _))) ?_
    obtain ⟨hret, hspare⟩ := repairsDone_one (d := s.dev) (g := g.val) (c := c.val) e.val he
    have hfb := selfTestDone_fb [e.val] hst ht
    have hstate := selfTestDone_state [e.val] hst ht
    rw [settled_get _ _ (unit_ge_two rfl), tripOutRelease_fb]
    refine ⟨by rw [← hfb] at hret; exact hret, ?_⟩
    cases hsp : spareFor 3 (18 * (3 * g.val + c.val) + e.val) s.dev with
    | some sp =>
      simp only [hsp] at hspare ⊢
      rw [← hfb] at hspare
      exact ⟨hstate.trans (if_pos hspare.1), hspare.2⟩
    | none =>
      simp only [hsp] at hspare ⊢
      exact hstate.trans (if_neg (by rw [hspare]; decide))
  · refine answers_running rfl ha (quiet_of_frame (frame_copyDone K.chans _ (frame_refl _))) ?_
    rw [tripOutRelease_region]
    exact copyDone_copied hst hn
  · refine answers_running rfl ha (quiet_of_frame (frame_checkDone K.chans c.isLt (frame_refl _))) ?_
    rw [settled_get _ _ (unit_ge_two rfl), settled_flag _ _ (unit_ge rfl), checkDone_eq hst hcop hok]
    refine ⟨uflag_raise _ _ _ (unit_ge rfl) (by rfl) (by rfl), ?_⟩
    rw [ufld_raise_ne _ _ _ _ (unit_ge_two rfl) (Ne.symm (chStat_ne_evt _ _))]
    exact chanGo_state _ _ (by split <;> decide)

end

section
/-! PROOFS. Regions enter CHARGE and RUN, as the twin's do too: what they reach (used by O9 and O36). -/

namespace Sys2Proof.Machine

variable {W : Nat → Prop} {S : Part → Prop} {d e : Dev} {g : Nat}

section broad
variable (B : BroadRoom W S)
include B

theorem frame_regionCharge (g : Nat) (h : Frame W S d e) : Frame W S d (regionCharge g e) := by
  have R := B.region g
  refine frame_foldN 3 _ (fun _ c hc hd => frame_ite (frame_chanGo R.chans hc _ hd) hd) ?_
  exact frame_onMull R _ (frame_wide_setRegion B g _ (frame_endBlock B g h))

theorem frame_lawEnterRun (g : Nat) (h : Frame W S d e) : Frame W S d (lawEnterRun g e) := by
  unfold lawEnterRun
  exact frame_region (B.region g) _ (frame_putB (RG_STAT_REPON g) _ ((B.region g).regs _ (by decide)) h)

theorem frame_regionRun (g : Nat) (h : Frame W S d e) : Frame W S d (regionRun g e) :=
  frame_onMull (B.region g) _ (frame_lawEnterRun B g (frame_wide_setRegion B g _ (frame_endBlock B g h)))

theorem frame_followRegion (g st : Nat) (h : Frame W S d e) : Frame W S d (followRegion g st e) :=
  frame_ite h (frame_ite (frame_regionOff B g h) (frame_ite (frame_regionCharge B g (frame_leaveRun B g false h))
    (frame_ite (frame_regionRun B g h) (frame_wide_setRegion B g st (frame_leaveRun B g false h)))))

theorem frame_takeSet (g : Nat) (m : Mull) (h : Frame W S d e) : Frame W S d (takeSet g m e) := by
  have R := B.region g
  exact frame_foldN 3 _ (fun _ c _ hd => frame_onChan R c _ hd) (frame_showState R (frame_region R _ (frame_setMull R m h)))

theorem frame_twinSets (m : MullRec) (h : Frame W S d e) : Frame W S d (twinSets m e) :=
  frame_ite (frame_foldl _ _ (fun _ _ _ hd => frame_takeSet B _ _ hd) h)
    (frame_foldN 8 _ (fun _ g _ hd => frame_ite hd (frame_takeSet B g _ hd)) h)

end broad

/-! ## Everything but the twin -/

/-- Everything but the release from reset, the waiting STOP source and the twin. -/
def untwinned (p : Part) : Prop := calmParts p ∧ p ≠ .tw

theorem untwinnedRoom : BroadRoom calmRegs untwinned where
  units := calmBroad.units
  imgwr := calmBroad.imgwr
  parts p h1 h2 h3 h4 h5 h6 h7 := ⟨calmBroad.parts p h1 h2 h3 h4 h5 h6 h7, h3⟩

theorem Frame.calm (h : Frame calmRegs untwinned d e) : Frame calmRegs calmParts d e := frame_mono (fun _ => id) (fun _ k => k.1) h

theorem Frame.tw_eq (h : Frame W untwinned d e) : e.tw = d.tw := h.parts .tw fun k => k.2 rfl

/-! ## Records that arrive -/

/-- Whether a record is the first copy with a correct CRC on an ACTIVE twin lane (R235). -/
def firstOf (kind : Nat) (h : TwinHdr) (d : Dev) : Bool :=
  h.crcOk && d.lnState (128 + h.lane.val) == lnACTIVE && smLook d.tw.got kind != some h.period.toNat

/-- The record is noted as taken. -/
def gotNoted (kind : Nat) (h : TwinHdr) (d : Dev) : Dev := d.onTw fun t => { t with got := smInsert t.got kind h.period.toNat }

theorem firstCopy_eq (kind : Nat) (h : TwinHdr) (f : Dev → Dev) (d : Dev) :
    firstCopy kind h f d = if firstOf kind h d then f (gotNoted kind h d) else d := by
  unfold firstCopy firstOf gotNoted
  by_cases hc : ¬ h.crcOk ∨ d.lnState (128 + h.lane.val) ≠ lnACTIVE ∨ smLook d.tw.got kind = some h.period.toNat
  · rw [if_pos hc, if_neg]
    simp only [Bool.and_eq_true, beq_iff_eq, bne_iff_ne, ne_eq, not_and, not_not]
    rcases hc with h1 | h2 | h3
    · exact fun k => absurd k.1 h1
    · exact fun k => absurd k.2 h2
    · exact fun _ => h3
  · rw [if_neg hc, if_pos]
    simp only [not_or, not_not] at hc
    simp only [Bool.and_eq_true, beq_iff_eq, bne_iff_ne, ne_eq]
    exact ⟨⟨hc.1, hc.2.1⟩, hc.2.2⟩

/-- A view of the twin's state that what a STANDBY device has seen of the chains does not change. -/
def SeenBlind {α : Type} (f : TwinSt → α) : Prop := ∀ t i c, f { t with intact := i, cut := c } = f t

theorem SeenBlind.note {α : Type} {f : TwinSt → α} (hf : SeenBlind f) (d : Dev) : f (twinNote d).tw = f d.tw := by
  unfold twinNote
  split
  · rfl
  · exact hf _ _ _

theorem SeenBlind.heard {α : Type} {f : TwinSt → α} (hf : SeenBlind f) (d : Dev) :
    f (twinHeard d).tw = f { d.tw with silent := 0, recNow := true } := by
  unfold twinHeard
  rw [hf.note]
  exact hf { d.tw with silent := 0, recNow := true } [] []

theorem frame_gotNoted {kind : Nat} {x : TwinHdr} (T : TwinRoom W S) (h : Frame W S d e) : Frame W S d (gotNoted kind x e) :=
  frame_onTw T _ h

/-! ## A MULL record -/

/-- What a MULL record brings to a device that follows: states, sets, losses, pointers, staged setpoints. -/
def mullTaken (m : MullRec) (d : Dev) : Dev :=
  let d := m.states.foldl (fun d p =>
    if d.assigned p.1.val then followRegion p.1.val (followTo (d.rgState p.1.val) p.2.toNat (regionProt p.1.val d) d.mode) d else d) d
  let d := twinSets m d
  let d := foldN 64 (fun d q => if d.flag (QU_CFG_ASSIGNED q) then d.onQuire q fun x => { x with lossCnt := [] } else d) d
  let d := m.loss.foldl (fun d p => d.onQuire (p.1.val / 128) fun q =>
    { q with lossCnt := smSet (fun _ => 0) q.lossCnt (p.1.val % 128) p.2 }) d
  let d := m.pointers.foldl (fun d p => d.onQuire p.1.val fun q => { q with ptr := p.2 }) d
  foldN 8 (fun d g =>
    let l := (m.staged.filter fun x => x.1.val == g).map fun x => x.2
    let ss := (l.zip (List.range l.length)).map fun x =>
      (⟨x.1.1.toNat, toS 32 x.1.2.1.toNat, x.1.2.2.1, x.1.2.2.2.toNat, x.2⟩ : Staged)
    (d.onRegion g fun r => { r with staged := ss }).put (RG_SPQ_DEPTH g) ss.length) d

/-- What the comparison of the digests leads to. -/
def mullJudged (m : MullRec) (d : Dev) : Dev :=
  let bad := m.digests.any fun p => Config.mullDigest (mullStore p.1.val d) != p.2
  if d.role = roleSTANDBY then (if bad then mullDif d else d)
  else if ¬ d.tw.copied then d
  else if ¬ bad then d.onTw fun t => { t with rsOk := t.rsOk + 1 }
  else
    let d := d.onTw fun t => { t with rsOk := 0, rsFail := t.rsFail + 1 }
    if 3 ≤ d.tw.rsFail then (d.put GL_TWSTAT_ROLE roleGIVENUP).raise GL_TWEVT_MULLDIF .service else d

/-- A MULL record is heard. -/
def mullHeard (m : MullRec) (d : Dev) : Dev :=
  (twinHeard d).onTw fun t => { t with mode := m.mode.toNat, mullNow := true, mullSilent := 0 }

theorem twinMull_eq (m : MullRec) (hp : d.paired = true) : twinMull m d =
    if ¬ (mullHeard m d).converting ∨ ¬ ((mullHeard m d).role = roleSTANDBY ∨ (mullHeard m d).role = roleRESYNC) then mullHeard m d
    else mullJudged m (mullTaken m ((mullHeard m d).setMode (followMode (mullHeard m d).mode m.mode.toNat (mullHeard m d)))) := by
  unfold twinMull
  rw [if_neg (by simp [hp])]
  rfl

theorem frame_mullTaken (B : BroadRoom W S) (m : MullRec) (h : Frame W S d e) : Frame W S d (mullTaken m e) := by
  refine frame_foldN 8 _ (fun _ g _ hd => frame_put (RG_SPQ_DEPTH g) _ ((B.region g).regs _ (by decide)) (frame_region (B.region g) _ hd)) ?_
  refine frame_foldl _ _ (fun _ p _ hd => frame_wide_onQuire B _ _ hd) (frame_foldl _ _ (fun _ p _ hd => frame_wide_onQuire B _ _ hd) ?_)
  refine frame_foldN 64 _ (fun _ q _ hd => frame_ite (frame_wide_onQuire B _ _ hd) hd) (frame_twinSets B m ?_)
  exact frame_foldl _ _ (fun _ p _ hd => frame_ite (frame_followRegion B _ _ hd) hd) h

theorem frame_mullJudged (T : TwinRoom W S) (m : MullRec) (h : Frame W S d e) : Frame W S d (mullJudged m e) := by
  unfold mullJudged
  extract_lets bad failed
  have hfailed : Frame W S d failed := frame_onTw T _ h
  exact frame_ite (frame_ite (frame_mullDif T h) h) (frame_ite h (frame_ite (frame_onTw T _ h)
    (frame_ite (frame_service GL_TWEVT_MULLDIF T.toEvents T.flags (frame_role T _ hfailed)) hfailed)))

/-- A view of the twin's state that the count of equal periods does not change. -/
def RunBlind {α : Type} (f : TwinSt → α) : Prop := ∀ t a b, f { t with rsOk := a, rsFail := b } = f t

theorem mullDif_tw (d : Dev) : (mullDif d).tw = d.tw := by
  unfold mullDif
  split
  · rw [raise_tw, put_tw]
  · rfl

theorem RunBlind.judged {α : Type} {f : TwinSt → α} (hf : RunBlind f) (m : MullRec) (d : Dev) : f (mullJudged m d).tw = f d.tw := by
  unfold mullJudged
  extract_lets bad failed
  have hfailed : f failed.tw = f d.tw := hf d.tw 0 _
  split
  · split
    · rw [mullDif_tw]
    · rfl
  split
  · rfl
  split
  · exact hf d.tw _ d.tw.rsFail
  split
  · rw [raise_tw, put_tw]
    exact hfailed
  · exact hfailed

theorem setMode_tw (v : Nat) (d : Dev) : (d.setMode v).tw = d.tw :=
  (frame_setMode (W := fun _ => True) (S := (· = .dr)) v trivial trivial rfl (frame_refl d)).parts .tw nofun

/-- The twin's state after a MULL record that was taken. -/
theorem twinMull_tw (m : MullRec) (hp : d.paired = true) : (twinMull m d).tw.mode = m.mode.toNat ∧ (twinMull m d).tw.mullSilent = 0 := by
  have hheard : (mullHeard m d).tw.mode = m.mode.toNat ∧ (mullHeard m d).tw.mullSilent = 0 := ⟨rfl, rfl⟩
  have hmode : RunBlind TwinSt.mode := fun _ _ _ => rfl
  have hsil : RunBlind TwinSt.mullSilent := fun _ _ _ => rfl
  rw [twinMull_eq m hp]
  split
  · exact hheard
  · have htaken (e : Dev) : (mullTaken m e).tw = e.tw := (frame_mullTaken untwinnedRoom m (frame_refl e)).tw_eq
    rw [hmode.judged, hsil.judged, htaken, setMode_tw]
    exact hheard

theorem setMode_mode (v : Nat) (d : Dev) (hv : v < 8) : (d.setMode v).mode = v := by
  have hput : ((d.put GL_MODE_MODE v).put GL_SUSTAT_CHGTO 0).mode = v :=
    (get_put_ne _ _ _ _ (by decide)).trans ((get_put_same _ _ _ (by decide)).trans (Nat.mod_eq_of_lt hv))
  unfold Dev.setMode
  split
  · assumption
  · dsimp only
    split
    · exact ((frame_source (W := fun _ => False) (S := (· = .dr)) _ _ _ _ _ _ rfl (frame_refl _)).get GL_MODE_MODE id).trans hput
    · exact hput

/-- A device that follows its twin stays out of STOP. -/
theorem followMode_ne_stop (own m : Nat) (d : Dev) (h : own < 8 ∧ own ≠ modeSTOP) :
    followMode own m d < 8 ∧ followMode own m d ≠ modeSTOP := by
  unfold followMode
  split
  · exact h
  next hm =>
    simp only [not_or, not_lt] at hm
    have hm' : m < 8 ∧ m ≠ modeSTOP := by
      have := hm.2.1
      unfold modeBLOCK at this
      unfold modeSTOP
      omega
    split
    · exact hm'
    split
    · decide
    split
    · decide
    · exact h

theorem calmTwins : TwinRoom calmRegs calmParts := calmRoom.twins

theorem calm_of_quiet (q : Quiet d e) (hm : d.mode ≠ modeSTOP) (hq : d.fc.stopReq = false) : e.mode ≠ modeSTOP ∧ e.fc.stopReq = false := by
  obtain ⟨qmode, qreq, -⟩ := q
  rw [qmode, qreq]
  exact ⟨hm, hq⟩

/-- A MULL record stops nothing. -/
theorem twinMull_calm (m : MullRec) (hp : d.paired = true) (hm : d.mode ≠ modeSTOP) (hq : d.fc.stopReq = false) :
    (twinMull m d).mode ≠ modeSTOP ∧ (twinMull m d).fc.stopReq = false := by
  have hh : (mullHeard m d).mode ≠ modeSTOP ∧ (mullHeard m d).fc.stopReq = false := by
    refine calm_of_quiet (quiet_of_frame ?_) hm hq
    exact frame_onTw calmTwins _ (frame_twinHeard calmTwins (frame_refl d))
  rw [twinMull_eq m hp]
  split
  · exact hh
  · have hset := followMode_ne_stop _ m.mode.toNat (mullHeard m d) ⟨get_lt _ _, hh.1⟩
    have hmode := setMode_mode _ (mullHeard m d) hset.1
    have hreq : ((mullHeard m d).setMode (followMode (mullHeard m d).mode m.mode.toNat (mullHeard m d))).fc.stopReq = false :=
      ((frame_setMode (W := fun _ => True) (S := (· = .dr)) _ trivial trivial rfl (frame_refl (mullHeard m d))).parts .stopReq nofun).trans hh.2
    refine calm_of_quiet (quiet_of_frame (frame_mullJudged calmTwins m (frame_mullTaken calmBroad m (frame_refl _)))) ?_ hreq
    exact fun k => hset.2 (hmode.symm.trans k)

/-! ## A STAT record -/

/-- A view of the twin's state that a STAT record's lists do not change. -/
structure StatBlind {α : Type} (f : TwinSt → α) : Prop where
  seen : SeenBlind f
  mull : ∀ t a, f { t with mull := a } = f t
  lanes : ∀ t a b, f { t with lanes := a, reach := b } = f t
  steps : ∀ t a, f { t with steps := a } = f t
  dif : ∀ t a, f { t with imgDif := a } = f t

/-- The chains follow the lanes and the reach that the twin of end `k` reports, where `old` was reported before. -/
def lanesFollow (k : Nat) (old : TwinSt) (lanes : List Nat) (reach : List (Nat × Nat)) (d : Dev) : Dev :=
  foldN 64 (fun d q =>
    let l := 2 * q + k
    if ¬ d.flag (QU_CFG_ASSIGNED q) then d
    else
      let d := if old.lanes.contains l ≠ lanes.contains l then chainUpdate q true d else d
      if smGet (fun _ => 0) old.reach l ≠ smGet (fun _ => 0) reach l ∧ d.get (QU_STAT_CHAIN q) ≠ chUNSETTLED then
        nposCheck q (slotWrite q d) else d) d

theorem twinLanes_eq (lanes : List Nat) (reach : List (Nat × Nat)) (d : Dev) : twinLanes lanes reach d =
    lanesFollow (1 - d.get GL_TWCFG_END) d.tw lanes reach
      (d.onTw fun t => { t with lanes := lanes.filter fun l => decide (l < 128), reach := reach }) := rfl

theorem frame_lanesFollow (B : BroadRoom W S) (k : Nat) (old : TwinSt) (lanes : List Nat) (reach : List (Nat × Nat))
    (h : Frame W S d e) : Frame W S d (lanesFollow k old lanes reach e) := by
  refine frame_foldN 64 _ (fun f q _ hd => ?_) h
  extract_lets l changed
  have hchanged : Frame W S d changed := frame_ite (frame_chainUpdate (B.chain q) true hd) hd
  exact frame_ite hd (frame_ite (frame_nposCheck (B.quire q) (frame_slotWrite (B.quire q) hchanged)) hchanged)

theorem StatBlind.twinLanes {α : Type} {f : TwinSt → α} (hf : StatBlind f) (lanes : List Nat) (reach : List (Nat × Nat)) (d : Dev) :
    f (twinLanes lanes reach d).tw = f d.tw := by
  rw [twinLanes_eq, (frame_lanesFollow untwinnedRoom _ _ _ _ (frame_refl _)).tw_eq]
  exact hf.lanes d.tw _ _

/-- The steps that waited for the twin stand. -/
def stepsFollow (d : Dev) : Dev := (ownLanes d).foldl (fun d l => if (d.lane l).passed then rateStepPass l d else d) d

theorem frame_stepsFollow (B : BroadRoom W S) (h : Frame W S d e) : Frame W S d (stepsFollow e) :=
  frame_foldl _ _ (fun _ l _ hd => frame_ite (frame_rateStepPass (B.unit l) hd) hd) h

theorem twinSteps_eq (steps : List (Nat × Nat)) (d : Dev) : twinSteps steps d = stepsFollow (d.onTw fun t => { t with steps := steps }) := rfl

theorem StatBlind.twinSteps {α : Type} {f : TwinSt → α} (hf : StatBlind f) (steps : List (Nat × Nat)) (d : Dev) :
    f (twinSteps steps d).tw = f d.tw := by
  rw [twinSteps_eq, (frame_stepsFollow untwinnedRoom (frame_refl _)).tw_eq]
  exact hf.steps d.tw _

theorem frame_twinFolios (T : TwinRoom W S) (digest : Nat) (h : Frame W S d e) : Frame W S d (twinFolios digest e) := by
  unfold twinFolios
  extract_lets dif noted
  have hnoted : Frame W S d noted := frame_onTw T _ h
  exact frame_ite h (frame_ite (frame_service GL_TWEVT_IMGDIF T.toEvents T.flags hnoted) hnoted)

theorem StatBlind.twinFolios {α : Type} {f : TwinSt → α} (hf : StatBlind f) (digest : Nat) (d : Dev) :
    f (twinFolios digest d).tw = f d.tw := by
  unfold Machine.twinFolios
  extract_lets dif noted
  have hnoted : f noted.tw = f d.tw := hf.dif d.tw _
  split
  · rfl
  split
  · rw [raise_tw]
    exact hnoted
  · exact hnoted

section relay
variable (E : Events calmRegs S)
include E

omit E in
theorem frame_tripShow (h : Frame calmRegs S d e) : Frame calmRegs S d (tripShow e) := frame_put FC_TRIPSTAT_FILT _ (by decide) h

theorem frame_tripFlag (x : Nat) (h : Frame calmRegs S d e) : Frame calmRegs S d (tripFlag x e) := by
  unfold tripFlag
  refine frame_source _ _ _ _ _ _ E.dr (frame_raiseBit FC_TRIPEVT_TRIP x _ E (by decide) ?_ (frame_bump FC_TRIPEVT_TRIPCNT 1 (by decide) h))
  unfold tripCls
  split <;> nofun

theorem frame_tripRelay (es : List (Fin 4 × Bool)) (h : Frame calmRegs S d e) : Frame calmRegs S d (tripRelay es e) := by
  refine frame_ite h (frame_foldl _ _ (fun f p _ hd => frame_ite ?_ ?_) h)
  · exact frame_tripFlag E _ (frame_tripShow (frame_setFc _ E.fc ⟨rfl, rfl, rfl⟩ hd))
  · exact frame_ite (frame_source _ _ _ _ _ _ E.dr (frame_tripShow (frame_setFc _ E.fc ⟨rfl, rfl, rfl⟩ hd))) hd

theorem recRoom : Room 0x8000 0x9000 calmRegs S where
  toEvents := E
  regs a h := by unfold calmRegs GL_MODE; omega
  refuse := calmRefuse

theorem frame_lineNote (line t : Nat) (h : Frame calmRegs S d e) : Frame calmRegs S d (lineNote line t e) :=
  frame_ite (frame_setDr _ E.dr h) h

theorem frame_fire (fs : List Firing) (late : Bool) (h : Frame calmRegs S d e) : Frame calmRegs S d (fire fs late e) := by
  unfold fire
  dsimp only
  split
  · exact h
  · exact frame_recTrigger (recRoom E) _ _ _ _ _ _ h

theorem frame_relayEvents (ls : List (Nat × Nat)) (ts : List Nat) (h : Frame calmRegs S d e) :
    Frame calmRegs S d (relayEvents ls ts e) := by
  unfold relayEvents
  extract_lets heard all own twin entered noted fired fs
  have hnoted : Frame calmRegs S d noted := frame_foldl _ _ (fun _ _ _ hd => frame_lineNote E _ _ hd)
    (frame_foldl _ _ (fun _ _ _ hd => frame_source _ _ _ _ _ _ E.dr hd) h)
  split
  · exact frame_fire E _ _ hnoted
  · exact frame_recTrigger (recRoom E) _ _ _ _ _ _ hnoted

end relay

theorem frame_twinFollow (hm : W GL_MODE) (hsu : S .su) (a b : Option Nat) (h : Frame W S d e) : Frame W S d (twinFollow a b e) := by
  have hput (k : Nat) (x : StartSt) : Frame W S d (({ e with su := x }.put GL_MODE_PEND 1).put GL_MODE_PKIND k) :=
    frame_put GL_MODE_PKIND k hm (frame_put GL_MODE_PEND 1 hm (frame_setSu x hsu h))
  unfold twinFollow
  refine frame_ite h ?_
  split
  · exact frame_ite (hput 0 _) h
  · exact frame_ite (hput 1 _) h
  · exact h

/-- What an announced entry leaves pending does not change the mode. -/
theorem twinFollow_mode (a b : Option Nat) (d : Dev) : (twinFollow a b d).mode = d.mode := by
  have hput (k : Nat) (x : StartSt) : (({ d with su := x }.put GL_MODE_PEND 1).put GL_MODE_PKIND k).mode = d.mode :=
    (ufld_put_disj _ GL_MODE_PKIND GL_MODE_MODE _ rfl rfl).trans (ufld_put_disj _ GL_MODE_PEND GL_MODE_MODE _ rfl rfl)
  unfold twinFollow
  split
  · rfl
  split
  · split
    · exact hput 0 _
    · rfl
  · split
    · exact hput 1 _
    · rfl
  · rfl

/-- A STAT record is heard. -/
def statHeard (r : StatRec) (d : Dev) : Dev :=
  let d := (twinHeard d).onTw fun t => { t with role := r.role.toNat, chargeAt := r.chargeAt, stopAt := r.stopAt }
  let d := d.putB GL_TWSTAT_PEERACT (r.role.toNat == roleACTIVE)
  let d := if r.role.toNat = roleACTIVE then { d with su := { d.su with idleAt := d.tm.jAbs + 1 } } else d
  d.onTw fun t => { t with mull := asMap (r.mullDigests.map fun p => (p.1.val, p.2.toNat)) }

/-- What a STAT record brings: lanes, steps, folios, trip edges and triggers. -/
def statTaken (r : StatRec) (d : Dev) : Dev :=
  let d := twinLanes (r.laneActive.map fun l => l.val) (asMap (r.reach.map fun p => (p.1.val, p.2.toNat))) d
  let d := twinSteps (asMap (r.stepPass.map fun p => (p.1.val, p.2.toNat))) d
  let d := twinFolios r.folioDigests.toNat d
  let d := tripRelay r.tripEdges d
  relayEvents (relayLines r.tripEdges d) r.triggers d

theorem twinStat_eq (r : StatRec) (hp : d.paired = true) (hl : d.live = true) :
    twinStat r d = twinFollow r.chargeAt r.stopAt (statTaken r (statHeard r d)) := by
  unfold twinStat
  rw [if_neg (by simp [hp, hl])]
  rfl

theorem untwinnedEvents : Events calmRegs untwinned := untwinnedRoom.events

theorem StatBlind.taken {α : Type} {f : TwinSt → α} (hf : StatBlind f) (r : StatRec) (d : Dev) : f (statTaken r d).tw = f d.tw := by
  unfold statTaken
  extract_lets lanes steps folios relayed
  rw [(frame_relayEvents untwinnedEvents _ _ (frame_tripRelay untwinnedEvents r.tripEdges (frame_refl folios))).tw_eq,
    hf.twinFolios, hf.twinSteps, hf.twinLanes]

theorem frame_statTaken (r : StatRec) (h : Frame calmRegs calmParts d e) : Frame calmRegs calmParts d (statTaken r e) := by
  refine frame_relayEvents calmEvents _ _ (frame_tripRelay calmEvents _ (frame_twinFolios calmTwins _ ?_))
  rw [twinSteps_eq, twinLanes_eq]
  exact frame_stepsFollow calmBroad (frame_onTw calmTwins _ (frame_lanesFollow calmBroad _ _ _ _ (frame_onTw calmTwins _ h)))

theorem frame_statHeard (r : StatRec) (h : Frame calmRegs calmParts d e) : Frame calmRegs calmParts d (statHeard r e) := by
  unfold statHeard
  extract_lets heard shown idle
  have hshown : Frame calmRegs calmParts d shown := frame_putB GL_TWSTAT_PEERACT _ (by decide) (frame_onTw calmTwins _ (frame_twinHeard calmTwins h))
  exact frame_onTw calmTwins _ (frame_ite (frame_setSu _ trivial hshown) hshown)

theorem statHeard_tw (r : StatRec) (d : Dev) :
    (statHeard r d).tw.role = r.role.toNat ∧ (statHeard r d).tw.chargeAt = r.chargeAt ∧ (statHeard r d).tw.stopAt = r.stopAt := by
  unfold statHeard
  dsimp only
  split <;> exact ⟨rfl, rfl, rfl⟩

/-- The twin's state after a STAT record that was taken. -/
theorem twinStat_tw (r : StatRec) (hp : d.paired = true) (hl : d.live = true) :
    (twinStat r d).tw.role = r.role.toNat ∧ (twinStat r d).tw.chargeAt = r.chargeAt ∧ (twinStat r d).tw.stopAt = r.stopAt := by
  have hrole : StatBlind TwinSt.role := ⟨fun _ _ _ => rfl, fun _ _ => rfl, fun _ _ _ => rfl, fun _ _ => rfl, fun _ _ => rfl⟩
  have hcharge : StatBlind TwinSt.chargeAt := ⟨fun _ _ _ => rfl, fun _ _ => rfl, fun _ _ _ => rfl, fun _ _ => rfl, fun _ _ => rfl⟩
  have hstop : StatBlind TwinSt.stopAt := ⟨fun _ _ _ => rfl, fun _ _ => rfl, fun _ _ _ => rfl, fun _ _ => rfl, fun _ _ => rfl⟩
  have hfollow (e : Dev) : (twinFollow r.chargeAt r.stopAt e).tw = e.tw :=
    (frame_twinFollow (W := fun _ => True) (S := (· = .su)) trivial rfl _ _ (frame_refl e)).parts .tw nofun
  rw [twinStat_eq r hp hl, hfollow, hrole.taken, hcharge.taken, hstop.taken]
  exact statHeard_tw r d

/-- A STAT record stops nothing. -/
theorem twinStat_calm (r : StatRec) (hm : d.mode ≠ modeSTOP) (hq : d.fc.stopReq = false) (hp : d.paired = true) (hl : d.live = true) :
    (twinStat r d).mode ≠ modeSTOP ∧ (twinStat r d).fc.stopReq = false := by
  have ht := calm_of_quiet (quiet_of_frame (frame_statTaken r (frame_statHeard r (frame_refl d)))) hm hq
  rw [twinStat_eq r hp hl, twinFollow_mode]
  exact ⟨ht.1, ((frame_twinFollow (W := fun _ => True) (S := (· = .su)) trivial rfl _ _ (frame_refl _)).parts .stopReq nofun).trans ht.2⟩

end Sys2Proof.Machine
end

section
/-! PROOFS. The twin's records, its silence and its give-up (O36). -/

namespace Sys2Proof.Machine

variable {s : State} {d e : Dev}

/-! ## Records -/

/-- A record that arrives after `pre`, with an effect `f` that keeps the device calm: it is taken where it is the first copy, and
changes nothing of the twin's state elsewhere. -/
theorem answers_firstCopy {c : Instr} {kind : Nat} {h : TwinHdr} (pre f : Dev → Dev) {P : TwinSt → Prop} (ha : s.awake)
    (hc : exec c s = .next (running (fun d => firstCopy kind h f (pre d)) s)) (hfirst : firstOf kind h (pre s.dev) = firstOf kind h s.dev)
    (hpre : Frame calmRegs untwinned s.dev (pre s.dev)) (hcalm : (f (gotNoted kind h (pre s.dev))).mode ≠ modeSTOP ∧
      (f (gotNoted kind h (pre s.dev))).fc.stopReq = false) (hP : P (f (gotNoted kind h (pre s.dev))).tw) :
    Answers c s fun t => if firstOf kind h s.dev then P t.dev.tw else t.dev.tw = s.dev.tw := by
  have heq := firstCopy_eq kind h f (pre s.dev)
  have hq := calm_of_quiet (quiet_of_frame hpre.calm) ha.2.1 ha.2.2
  rw [hfirst] at heq
  refine answers_running_calm (f := fun d => firstCopy kind h f (pre d)) hc ha ?_ ?_ ?_
  · rw [heq]
    split
    · exact hcalm.1
    · exact hq.1
  · rw [heq]
    split
    · exact hcalm.2
    · exact hq.2
  · dsimp only
    rw [heq, tripOutRelease_tw]
    split
    · exact hP
    · exact hpre.tw_eq

theorem firstOf_at (kind : Nat) (h : TwinHdr) (d : Dev) (tk : Nat) : firstOf kind h (d.at_ tk) = firstOf kind h d := by
  have hst : (d.at_ tk).lnState (128 + h.lane.val) = d.lnState (128 + h.lane.val) :=
    at_get d tk (LN_STAT_STATE (128 + h.lane.val)) (not_timeRegs_of_unit (by unfold LN_STAT_STATE LN_STAT; dsimp only; omega))
  unfold firstOf
  rw [hst, at_tw]

theorem gotNoted_paired (kind : Nat) (h : TwinHdr) (d : Dev) : (gotNoted kind h d).paired = d.paired := rfl

theorem twinArb_tw (r : ArbRec) (hp : d.paired = true) : (twinArb r d).tw.arb = some r ∧ (twinArb r d).tw.silent = 0 := by
  have hs : SeenBlind TwinSt.silent := fun _ _ _ => rfl
  unfold twinArb
  rw [if_neg (by simp [hp])]
  exact ⟨rfl, hs.heard d⟩

/-! ## Roles -/

theorem role_raise (d : Dev) (x y : Fld) (c : Cls) (hx : x.addr = GL_TWEVT) (hy : y.addr = GL_TWSTAT) : (d.raise x c).get y = d.get y :=
  get_raise_ne d x y c (by rw [hx, hy]; decide) (by rw [hy]; decide) (by rw [hy]; decide)

theorem role_put (d : Dev) (v : Nat) (h : v < 8) : (d.put GL_TWSTAT_ROLE v).role = v :=
  get_put_lt d GL_TWSTAT_ROLE v (by decide) h

theorem twinNote_get (d : Dev) (x : Fld) : (twinNote d).get x = d.get x := by
  unfold twinNote
  split <;> rfl

theorem settled_role (d : Dev) : (tripOutRelease d).role = d.role := tripOutRelease_get d GL_TWSTAT_ROLE (by decide)

/-- TGIV has been heard: the twin has given up. -/
def tgivHeard (d : Dev) : Dev := ((twinHeard d).onTw fun t => { t with role := roleGIVENUP }).put GL_TWSTAT_PEERACT 0

theorem tgivHeard_get (d : Dev) {x : Fld} (h : x.addr ≠ GL_TWSTAT) : (tgivHeard d).get x = d.get x := by
  unfold tgivHeard
  rw [get_put_ne _ _ _ _ (Ne.symm h)]
  exact twinNote_get _ x

theorem tgivHeard_role (d : Dev) : (tgivHeard d).role = d.role :=
  (get_put_disj _ _ GL_TWSTAT_ROLE _ (by decide) (by decide)).trans (twinNote_get _ GL_TWSTAT_ROLE)

theorem tgivIn_eq (hp : d.paired = true) : tgivIn d = if (tgivHeard d).role = roleSTANDBY ∧ (tgivHeard d).converting then
    (((tgivHeard d).put GL_TWSTAT_ROLE roleACTIVE).raise GL_TWEVT_HANDOVER .notice).bump GL_TWCNT_HOCNT else tgivHeard d := by
  unfold tgivIn
  rw [if_neg (by simp [hp])]
  rfl

theorem tgivIn_tw (hp : d.paired = true) : (tgivIn d).tw.role = roleGIVENUP := by
  rw [tgivIn_eq hp]
  split
  · rw [bump_tw, raise_tw, put_tw]
    rfl
  · rfl

theorem tgivIn_peer (hp : d.paired = true) : (tgivIn d).flag GL_TWSTAT_PEERACT = false := by
  have h0 : (tgivHeard d).flag GL_TWSTAT_PEERACT = false := flag_put_zero _ _ (by decide)
  rw [tgivIn_eq hp]
  split
  · rw [Dev.bump, flag_put_ne _ _ _ _ (by decide), flag_congr (role_raise _ _ _ _ rfl rfl),
      flag_put_disj _ _ _ _ (by decide) (by decide), h0]
  · exact h0

theorem tgivIn_role (hp : d.paired = true) (hr : d.role = roleSTANDBY) (hc : d.converting = true) :
    (tgivIn d).role = roleACTIVE ∧ (tgivIn d).flag GL_TWEVT_HANDOVER = true := by
  have hcond : (tgivHeard d).role = roleSTANDBY ∧ (tgivHeard d).converting = true :=
    ⟨(tgivHeard_role d).trans hr, (converting_congr (tgivHeard_get d (by decide))).trans hc⟩
  rw [tgivIn_eq hp, if_pos hcond]
  refine ⟨?_, ?_⟩
  · exact (get_put_ne _ _ _ _ (by decide)).trans ((role_raise _ _ _ _ rfl rfl).trans (role_put _ _ (by decide)))
  · rw [Dev.bump, flag_put_ne _ _ _ _ (by decide)]
    exact flag_raise_same _ _ _ rfl (by decide) (by decide) (by decide)

/-- The silence of the twin has been noted. -/
def twinLost (d : Dev) : Dev := twinNote ((d.put GL_TWSTAT_PEERACT 0).put GL_TWSTAT_TWUP 0)

theorem twinTimeout_cases (hp : d.paired = true) (h : d.get GL_TWCFG_TWLOSS ≤ d.tw.silent) : twinTimeout d = twinLost d ∨
    twinTimeout d = ((twinLost d).put GL_TWSTAT_ROLE roleACTIVE).raise GL_TWEVT_TWLOST .protDev ∨
    twinTimeout d = ((twinLost d).put GL_TWSTAT_ROLE roleGIVENUP).raise GL_TWEVT_TWSILENT .service := by
  have heq : twinTimeout d = if (twinLost d).role ≠ roleSTANDBY ∨ ¬ (twinLost d).converting then twinLost d
      else if chainsLost (twinLost d) then ((twinLost d).put GL_TWSTAT_ROLE roleACTIVE).raise GL_TWEVT_TWLOST .protDev
      else ((twinLost d).put GL_TWSTAT_ROLE roleGIVENUP).raise GL_TWEVT_TWSILENT .service := if_neg (by simp [hp, h])
  rw [heq]
  split
  · exact .inl rfl
  split
  · exact .inr (.inl rfl)
  · exact .inr (.inr rfl)

theorem twinTimeout_down (hp : d.paired = true) (h : d.get GL_TWCFG_TWLOSS ≤ d.tw.silent) :
    (twinTimeout d).flag GL_TWSTAT_TWUP = false ∧ (twinTimeout d).flag GL_TWSTAT_PEERACT = false := by
  have hup : (twinLost d).flag GL_TWSTAT_TWUP = false :=
    (flag_congr (twinNote_get _ _)).trans (flag_put_zero _ _ (by decide))
  have hact : (twinLost d).flag GL_TWSTAT_PEERACT = false :=
    (flag_congr (twinNote_get _ _)).trans ((flag_put_disj _ _ _ _ (by decide) (by decide)).trans (flag_put_zero _ _ (by decide)))
  have hrole (x : Fld) (v : Nat) (c : Cls) (hx : x.addr = GL_TWEVT) :
      (((twinLost d).put GL_TWSTAT_ROLE v).raise x c).flag GL_TWSTAT_TWUP = false ∧
      (((twinLost d).put GL_TWSTAT_ROLE v).raise x c).flag GL_TWSTAT_PEERACT = false := by
    rw [flag_congr (role_raise _ _ _ _ hx rfl), flag_congr (role_raise _ _ _ _ hx rfl), flag_put_disj _ _ _ _ (by decide) (by decide),
      flag_put_disj _ _ _ _ (by decide) (by decide)]
    exact ⟨hup, hact⟩
  rcases twinTimeout_cases hp h with heq | heq | heq <;> rw [heq]
  · exact ⟨hup, hact⟩
  · exact hrole _ _ _ rfl
  · exact hrole _ _ _ rfl

theorem mullTimeoutD_eq (hp : d.paired = true) (h : 4 ≤ d.tw.mullSilent) (hr : d.role = roleSTANDBY) (hc : d.converting = true) :
    mullTimeoutD d = (d.put GL_TWSTAT_ROLE roleGIVENUP).raise GL_TWEVT_MULLDIF .service := by
  unfold mullTimeoutD mullDif
  rw [if_pos ⟨hp, h⟩, if_pos ⟨hr, hc⟩]

theorem dualFound_eq (hr : d.role = roleACTIVE) : dualFound d = if (d.raise GL_TWEVT_DUAL .service).flag GL_TWCFG_END then
    (d.raise GL_TWEVT_DUAL .service).put GL_TWSTAT_ROLE roleGIVENUP else d.raise GL_TWEVT_DUAL .service := by
  unfold dualFound
  exact if_neg (not_not.mpr hr)

theorem dualFound_end (d : Dev) : (d.raise GL_TWEVT_DUAL .service).flag GL_TWCFG_END = d.flag GL_TWCFG_END :=
  flag_raise_ne _ _ _ _ (by decide) (by decide) (by decide)

end Sys2Proof.Machine

open Sys2Proof Machine

/-- Settles O36: records by the state that their taking leaves, the rest by what each command does to the role. -/
theorem twinRecords : Obligations.TwinRecords := by
  unfold Obligations.TwinRecords
  intro s ha hp
  have T := calmTwins
  have q0 := frame_refl (W := calmRegs) (S := calmParts) s.dev
  refine ⟨fun h => ⟨fun r => ?_, fun m => ?_, fun r tk hl => ?_⟩, ?_, fun hs => ?_, fun hs hr hc => ?_, fun hr hc hn => ?_, fun hr => ?_⟩
  · refine answers_firstCopy (kind := 0) (h := h) id (twinArb r) (P := fun t => t.arb = some r ∧ t.silent = 0) ha rfl rfl (frame_refl _) ?_
       (twinArb_tw r hp)
    exact calm_of_quiet (quiet_of_frame (frame_twinArb T r (frame_gotNoted T q0))) ha.2.1 ha.2.2
  · refine answers_firstCopy (kind := 1) (h := h) id (twinMull m) (P := fun t => t.mode = m.mode.toNat ∧ t.mullSilent = 0) ha rfl rfl
      (frame_refl _) ?_      (twinMull_tw m hp)
    exact twinMull_calm m hp ha.2.1 ha.2.2
  · have hat : Frame calmRegs untwinned s.dev (s.dev.at_ tk) := frame_wide_at untwinnedRoom ⟨trivial, nofun⟩ tk (frame_refl _)
    have hq := calm_of_quiet (quiet_of_frame hat.calm) ha.2.1 ha.2.2
    have hp' : (gotNoted 2 h (s.dev.at_ tk)).paired = true := (at_flag s.dev tk _ (by unfold timeRegs; decide)).trans hp
    have hl' : (gotNoted 2 h (s.dev.at_ tk)).live = true := (at_live s.dev tk).trans hl
    refine answers_firstCopy (kind := 2) (h := h) (fun d => d.at_ tk) (twinStat r)
      (P := fun t => t.role = r.role.toNat ∧ t.chargeAt = r.chargeAt ∧ t.stopAt = r.stopAt) ha rfl (firstOf_at _ _ _ _) hat ?_ (twinStat_tw r hp' hl')
    exact twinStat_calm r hq.1 hq.2 hp' hl'
  · refine answers_running rfl ha (quiet_of_frame (frame_tgivIn T q0)) ?_
    rw [tripOutRelease_tw, settled_role, tripOutRelease_flag _ _ (by decide), tripOutRelease_flag _ _ (by decide)]
    exact ⟨tgivIn_tw hp, tgivIn_peer hp, fun hr hc => tgivIn_role hp hr hc⟩
  · refine answers_running rfl ha (quiet_of_frame (frame_twinTimeout T q0)) ?_
    rw [tripOutRelease_flag _ _ (by decide), tripOutRelease_flag _ _ (by decide)]
    exact twinTimeout_down hp hs
  · refine answers_running rfl ha (quiet_of_frame (frame_mullTimeoutD T q0)) ?_
    rw [settled_role, tripOutRelease_flag _ _ (by decide), mullTimeoutD_eq hp hs hr hc]
    exact ⟨(role_raise _ _ _ _ rfl rfl).trans (role_put _ _ (by decide)), flag_raise_same _ _ _ rfl (by decide) (by decide) (by decide)⟩
  · refine answers_running rfl ha (quiet_of_frame (frame_twinResynced T q0)) ?_
    rw [settled_role, twinResynced, if_pos ⟨hr, hc, hn⟩]
    exact role_put _ _ (by decide)
  · refine answers_running rfl ha (quiet_of_frame (frame_dualFound T q0)) ?_
    rw [settled_role, tripOutRelease_flag _ _ (by decide), dualFound_eq hr, dualFound_end]
    have hflag : (s.dev.raise GL_TWEVT_DUAL .service).flag GL_TWEVT_DUAL = true := flag_raise_same _ _ _ rfl (by decide) (by decide) (by decide)
    split
    · exact ⟨(flag_put_ne _ _ _ _ (by decide)).trans hflag, role_put _ _ (by decide)⟩
    · exact ⟨hflag, (role_raise _ _ _ _ rfl rfl).trans hr⟩

end

section
/-! PROOFS. Votes: what a vote finds, what it leaves, and what the candidates of a vote depend on (O31). -/

namespace Sys2Proof.Machine

variable {d e : Dev} {g c src x n : Nat} {f f' : Nat → Option Cand} {k : Cand}

/-- A fold leaves a view that each step leaves. -/
theorem foldl_view {α β : Type} (w : Dev → β) (l : List α) {q : Dev → α → Dev} (h : ∀ e a, w (q e a) = w e) (d : Dev) : w (l.foldl q d) = w d :=
  List.foldlRecOn (motive := fun e => w e = w d) l q rfl fun e he a _ => (h e a).trans he

theorem foldN_view {β : Type} (w : Dev → β) (n : Nat) {q : Dev → Nat → Dev} (h : ∀ e i, w (q e i) = w e) (d : Dev) : w (foldN n q d) = w d :=
  foldl_view w (List.range n) h d

/-! ## What the candidates depend on -/

theorem chansIn_congr {st : Nat} (h : ∀ c, c < 3 → e.get (CH_STAT_STATE g c) = d.get (CH_STAT_STATE g c)) :
    chansIn g st e = chansIn g st d :=
  List.filter_congr fun c hc => by rw [h c (List.mem_range.mp hc)]

theorem candsIn_congr {st : Nat} (h : ∀ c, c < 3 → e.get (CH_STAT_STATE g c) = d.get (CH_STAT_STATE g c))
    (hf : ∀ c, c < 3 → f' c = f c) : candsIn g st f' e = candsIn g st f d := by
  unfold candsIn
  rw [chansIn_congr h]
  exact List.filterMap_congr fun c hc => by rw [hf c (mem_chansIn_lt hc)]

/-- A candidate is one of a channel. -/
theorem mem_candsIn {st : Nat} {p : Nat × Nat} (h : p ∈ candsIn g st f d) : p.1 ∈ chansIn g st d ∧ (f p.1).isSome = true := by
  obtain ⟨c, hc, hp⟩ := List.mem_filterMap.mp h
  obtain ⟨k, hk, rfl⟩ := Option.map_eq_some_iff.mp hp
  exact ⟨hc, by rw [hk]; rfl⟩

/-- An agreement names one of the digests. -/
theorem voteOf_agree {ds : List (Nat × Nat)} (h : voteOf ds n = .agree x src) : (src, x) ∈ ds := by
  unfold voteOf at h
  dsimp only at h
  split at h
  · cases h
  · split at h
    next p hp =>
      injection h with hx hs
      rw [← hx, ← hs]
      exact List.mem_of_find?_eq_some hp
    next => split at h <;> cases h

theorem voteOf_agree_cand {st : Nat} (h : voteOf (candsIn g st f d) n = .agree x src) : ∃ k, f src = some k :=
  Option.isSome_iff_exists.mp (mem_candsIn (voteOf_agree h)).2

/-! ## The hold plan does not depend on the instants passed -/

/-- A device with other region states. -/
def Dev.withRegions (d : Dev) (R : List (Nat × RegionSt)) : Dev := { d with regions := R }

theorem withRegions_put (d : Dev) (R : List (Nat × RegionSt)) (x : Fld) (v : Nat) : (d.withRegions R).put x v = (d.put x v).withRegions R := rfl
theorem onRegion_withRegions (d : Dev) (g : Nat) (q : RegionSt → RegionSt) : d.onRegion g q = d.withRegions (d.onRegion g q).regions := rfl
theorem withRegions_withRegions (d : Dev) (R Q : List (Nat × RegionSt)) : (d.withRegions R).withRegions Q = d.withRegions Q := rfl

theorem withRegions_onRegion (d : Dev) (R Q : List (Nat × RegionSt)) (g : Nat) (f h : RegionSt → RegionSt) :
    ∃ P, (d.withRegions R).onRegion g f = ((d.withRegions Q).onRegion g h).withRegions P := ⟨_, rfl⟩

/-- A hold plan depends on the regions' states by the plan in force, the gatherings, the carry and the phase alone. -/
theorem holdPlan_regions (d : Dev) (R : List (Nat × RegionSt)) (hlast : ((d.withRegions R).region g).last = (d.region g).last)
    (hgath : ((d.withRegions R).region g).gath = (d.region g).gath) (hcarry : ((d.withRegions R).region g).carry = (d.region g).carry)
    (hdph : ((d.withRegions R).region g).dph = (d.region g).dph) : holdPlan g (d.withRegions R) = holdPlan g d := by
  have hrep (dir : Bool) (base : List Nat) (m : Nat) : holdReplace g dir base m (d.withRegions R) = holdReplace g dir base m d := by
    unfold holdReplace
    rw [hgath]
    rfl
  unfold holdPlan
  dsimp only
  rw [hlast, hcarry, hdph]
  simp only [hrep]
  rfl

/-- What a change of a region has to leave for its hold plans: the channels, and what `holdPlan_regions` lists. -/
structure HoldKept (k : RegionSt → RegionSt) : Prop where
  chan : ∀ r c, (k r).chan c = r.chan c
  last : ∀ r, (k r).last = r.last
  gath : ∀ r, (k r).gath = r.gath
  carry : ∀ r, (k r).carry = r.carry
  dph : ∀ r, (k r).dph = r.dph

/-- The registers that show a mull set. -/
def mullShown (g : Nat) (m : Mull) (d : Dev) : Dev :=
  ((d.put (RG_MODSTAT_CSGN g) (b2n m.csgn)).put (RG_MODHOLD_HOLDRUN g) m.holdRun).put (RG_FBSTAT_HOLDCNT g) m.fbCnt

theorem mullShown_onRegion (g : Nat) (m : Mull) (d : Dev) (q : RegionSt → RegionSt) :
    ∃ R, mullShown g m (d.onRegion g q) = (mullShown g m d).withRegions R := by
  unfold mullShown
  rw [onRegion_withRegions, withRegions_put, withRegions_put, withRegions_put]
  exact ⟨_, rfl⟩

/-- A mull set in place changes the registers that show it, and the regions. -/
theorem setMull_withRegions (g : Nat) (m : Mull) (d : Dev) : ∃ R, setMull g m d = (mullShown g m d).withRegions R := by
  unfold setMull Dev.putB
  dsimp only
  exact mullShown_onRegion g m d _

theorem asChan_onRegion {q : RegionSt → RegionSt} (hq : HoldKept q) (g c : Nat) (d : Dev) :
    ∃ R, asChan g c (d.onRegion g q) = (asChan g c d).withRegions R := by
  unfold asChan
  rw [region_onRegion_same]
  dsimp only
  rw [hq.chan]
  cases ((d.region g).chan c).own with
  | none => exact ⟨_, rfl⟩
  | some p =>
    dsimp only
    obtain ⟨R, hR⟩ := setMull_withRegions g p.1 d
    obtain ⟨R', hR'⟩ := setMull_withRegions g p.1 (d.onRegion g q)
    obtain ⟨Q, hQ⟩ := mullShown_onRegion g p.1 d q
    rw [hR, hR', hQ, withRegions_withRegions]
    exact withRegions_onRegion _ _ _ _ _ _

/-- The items of a region that its hold plans use, as a channel sees them. -/
theorem region_asChan_onRegion {q : RegionSt → RegionSt} (hq : HoldKept q) (g c : Nat) (d : Dev) :
    ((asChan g c (d.onRegion g q)).region g).last = ((asChan g c d).region g).last ∧
    ((asChan g c (d.onRegion g q)).region g).gath = ((asChan g c d).region g).gath ∧
    ((asChan g c (d.onRegion g q)).region g).carry = ((asChan g c d).region g).carry ∧
    ((asChan g c (d.onRegion g q)).region g).dph = ((asChan g c d).region g).dph := by
  unfold asChan
  rw [region_onRegion_same]
  dsimp only
  rw [hq.chan]
  cases ((d.region g).chan c).own with
  | none =>
    dsimp only
    rw [region_onRegion_same]
    exact ⟨hq.last _, hq.gath _, hq.carry _, hq.dph _⟩
  | some p =>
    dsimp only
    rw [region_onRegion_same, region_onRegion_same, region_setMull, region_setMull, region_onRegion_same]
    exact ⟨rfl, hq.gath _, rfl, rfl⟩

theorem holdPlan_onRegion {q : RegionSt → RegionSt} (hq : HoldKept q) (g c : Nat) (d : Dev) :
    holdPlan g (asChan g c (d.onRegion g q)) = holdPlan g (asChan g c d) := by
  obtain ⟨hlast, hgath, hcarry, hdph⟩ := region_asChan_onRegion hq g c d
  obtain ⟨R, hR⟩ := asChan_onRegion hq g c d
  rw [hR] at hlast hgath hcarry hdph ⊢
  exact holdPlan_regions _ R hlast hgath hcarry hdph

theorem cellsOf_onRegion (d : Dev) (g h : Nat) (q : RegionSt → RegionSt) : (d.onRegion g q).cellsOf h = d.cellsOf h := rfl

theorem planDigest_onRegion (d : Dev) (g h : Nat) (q : RegionSt → RegionSt) (p : Plan) :
    planDigest h p (d.onRegion g q) = planDigest h p d := by
  unfold planDigest planRecord
  rw [cellsOf_onRegion]

theorem holdCand_onRegion {q : RegionSt → RegionSt} (hq : HoldKept q) (g c : Nat) (d : Dev) :
    holdCand g c (d.onRegion g q) = holdCand g c d := by
  unfold holdCand
  dsimp only
  rw [holdPlan_onRegion hq, planDigest_onRegion]

/-! ## What a vote leaves -/

/-- The plan of a vote, with all that the region notes of it. -/
def RegionSt.voteTaken (p : Plan) (law : Option LawOut) (sat csat : Bool) (r : RegionSt) : RegionSt :=
  { r with voted := some p, vLaw := law, vSat := sat, vCsat := csat, sqUsed := r.squash, voteDone := true, squash := none }

/-- The channels compared with a plan are present. -/
def presentAll (g : Nat) (ds : List (Nat × Nat)) (d : Dev) : Dev :=
  ds.foldl (fun d p => (d.put (CH_CNT_LATE g p.1) 0).onChan g p.1 fun x => { x with present := true }) d

theorem VoteBlind.presentAll {α : Type} {v : RegionSt → α} (B : VoteBlind v) (ds : List (Nat × Nat)) (d : Dev) :
    v ((presentAll g ds d).region g) = v (d.region g) := by
  unfold Machine.presentAll
  induction ds generalizing d with
  | nil => rfl
  | cons p ps ih => rw [List.foldl_cons, ih, B.onChan, region_put]

/-- A view blind to votes and channels sees of a vote what `voteTaken` notes. -/
theorem VoteBlind.voteSent {α : Type} {v : RegionSt → α} (B : VoteBlind v) (hk : f src = some k) (digest : Nat) (d : Dev) :
    ∃ q law, v ((voteSent g src digest f d).region g) = v (RegionSt.voteTaken k.p law k.demsat k.csat q) ∧
      ∀ (β : Type) (w : RegionSt → β), VoteBlind w → w q = w (d.region g) := by
  unfold Machine.voteSent
  split
  next h => rw [hk] at h; cases h
  next k' hk' =>
  obtain rfl : k = k' := Option.some.inj (hk.symm.trans hk')
  extract_lets law act ds present shown voted
  refine ⟨shown.region g, law, ?_, fun β w W => ?_⟩
  · rw [B.dissenters]
    have hvoted : v (voted.region g) = v (RegionSt.voteTaken k.p law k.demsat k.csat (shown.region g)) := by
      show v ((shown.onRegion g _).region g) = _
      rw [region_onRegion_same]
      rfl
    split
    · rw [B.countHold, hvoted]
    · exact hvoted
  · show w ((present.put _ _).region g) = _
    rw [region_put]
    exact W.presentAll ds d

end Sys2Proof.Machine
end

section
/-! PROOFS. The instants of a plan in preparation: which views of a region they leave (O31). -/

namespace Sys2Proof.Machine

variable {d e : Dev} {g c src x n : Nat} {f f' : Nat → Option Cand} {k : Cand} {o : LawOut}

/-- A view of a region that planning changes only at the instants that it shows. -/
structure InstantView {α : Type} (v : RegionSt → α) : Prop extends VoteBlind v where
  taken : ∀ r p law sat csat, v (RegionSt.voteTaken p law sat csat r) = v r
  decided : ∀ r : RegionSt, v { r with voteDone := true, squash := none } = v r
  mull : ∀ m r, v (RegionSt.withMull m r) = v r
  pred : ∀ (r : RegionSt) i, v { r with i1p := i } = v r
  staged : ∀ (r : RegionSt) l, v { r with staged := l } = v r
  targets : ∀ (r : RegionSt) a b l, v { r with tgtSet := a, tgtNow := b, ramps := l } = v r
  marked : ∀ (r : RegionSt) m cut a b c', v { r with squash := m, sqCut := cut, chA := a, chB := b, chC := c' } = v r
  turned : ∀ (r : RegionSt) i s, v { r with i1r := i, csgnNew := s } = v r

/-- The region of a squash: its causes, the cells that it takes out, the run-ahead plans gone. -/
def squashMarked (causes : Nat) (d : Dev) (r : RegionSt) : RegionSt := { r with
  squash := some causes
  sqCut := if bitOf causes 1 then (r.gath.flatMap fun p => p.2.chg.map Key.n).filter fun n => !selectable n d else []
  chA := { r.chA with ra := none, present := false }
  chB := { r.chB with ra := none, present := false }
  chC := { r.chC with ra := none, present := false } }

/-- Cause SIGN revises the prediction with the measured current. -/
def squashTurned (g : Nat) (im : Option Int) (d : Dev) (r : RegionSt) : RegionSt := match im with
  | some i =>
    let ip := r.ib1 + rdiv ((r.i1p - r.ib1) * planTick (d.get (RG_MODCFG1_CP g)) d) d.T
    { r with i1r := some (satS 16 (r.i1p + (i - ip))), csgnNew := decide (i < 0) }
  | none => r

/-- A squash stands in its region. -/
def squashStored (g causes : Nat) (im : Option Int) (d : Dev) : Dev :=
  (noteSquash g causes d).setRegionSt g (squashTurned g im (noteSquash g causes d)
    (squashMarked causes (noteSquash g causes d) ((noteSquash g causes d).region g)))

theorem squashNow_eq (causes : Nat) (im : Option Int) (d : Dev) : squashNow g causes im d =
    if bitOf causes 3 then lawRerun g (applySetpoints g (squashStored g causes im d)) else squashStored g causes im d := rfl

/-- The absences of the channels compared end. -/
def dropLate (g : Nat) (ds : List (Nat × Nat)) (d : Dev) : Dev := ds.foldl (fun d p => d.put (CH_CNT_LATE g p.1) 0) d

theorem region_dropLate (ds : List (Nat × Nat)) (d : Dev) (i : Nat) : (dropLate g ds d).region i = d.region i :=
  foldl_view (fun e => e.region i) ds (fun _ _ => region_put _ _ _ _) d

section view
variable {α : Type} {v : RegionSt → α} (V : InstantView v)
include V

theorem InstantView.onMull (q : Mull → Mull) (d : Dev) : v ((onMull g q d).region g) = v (d.region g) := by
  unfold Machine.onMull
  rw [V.ownEach, region_setMull, V.mull]

theorem InstantView.voteSent (src digest : Nat) (f : Nat → Option Cand) (d : Dev) :
    v ((voteSent g src digest f d).region g) = v (d.region g) := by
  cases hk : f src with
  | none => unfold Machine.voteSent; simp only [hk]
  | some k =>
    obtain ⟨q, law, hv, hq⟩ := V.toVoteBlind.voteSent hk digest d
    rw [hv, V.taken, hq _ v V.toVoteBlind]

theorem InstantView.takeHold (d : Dev) : v ((takeHold g d).region g) = v (d.region g) := by
  unfold Machine.takeHold
  extract_lets h act decided
  have hd : v (decided.region g) = v (d.region g) := by
    show v ((d.onRegion g _).region g) = _
    rw [region_onRegion_same, V.decided]
  split
  · rw [V.voteSent, hd]
  · rw [V.noAgree, hd]
  · exact hd

theorem InstantView.takeSetpoint (st : Staged) (d : Dev) : v ((takeSetpoint g st d).region g) = v (d.region g) := by
  unfold Machine.takeSetpoint
  extract_lets shown noted
  rw [V.onMull]
  show v ((shown.onRegion g _).region g) = _
  rw [region_onRegion_same, V.targets, region_put]

theorem InstantView.applySetpoints (d : Dev) : v ((applySetpoints g d).region g) = v (d.region g) := by
  unfold Machine.applySetpoints
  extract_lets r due keep cut shown
  have hshown : v (shown.region g) = v (d.region g) := by
    show v ((cut.put _ _).region g) = _
    rw [region_put]
    show v ((d.onRegion g fun r => { r with staged := keep }).region g) = _
    rw [region_onRegion_same, V.staged]
  refine (foldN_view (fun e => v (e.region g)) 4 (fun e t => ?_) shown).trans hshown
  dsimp only
  split
  · rfl
  · rw [V.takeSetpoint, region_bump]

theorem InstantView.lawStore (c : Nat) (o : LawOut) (d : Dev) : v ((lawStore g c o d).region g) = v (d.region g) := by
  have hput : v ((lawPut g c o d).region g) = v (d.region g) := V.onChan c _ d
  rcases lawStore_cases g c o d with heq | heq <;> rw [heq]
  · rw [lawShow, region_lawLimit, region_lawLimit, lawPredict, V.onMull, region_onRegion_same, V.pred, hput]
  · exact hput

theorem InstantView.lawRerun (d : Dev) : v ((lawRerun g d).region g) = v (d.region g) := by
  refine foldN_view (fun e => v (e.region g)) 3 (fun e c => ?_) d
  split
  · split
    · exact V.lawStore _ _ _
    · rfl
  · rfl

theorem InstantView.squashNow (causes : Nat) (im : Option Int) (d : Dev) : v ((squashNow g causes im d).region g) = v (d.region g) := by
  have hnoted : (noteSquash g causes d).region g = d.region g := by
    unfold noteSquash
    rw [region_setWord, region_put, region_bump]
  have hstored : v ((squashStored g causes im d).region g) = v (d.region g) := by
    have hmark : v (squashMarked causes (noteSquash g causes d) ((noteSquash g causes d).region g)) = v (d.region g) := by
      rw [← hnoted]
      exact V.marked _ _ _ _ _ _
    unfold squashStored
    rw [region_setRegionSt, if_pos rfl, ← hmark]
    cases im with
    | none => rfl
    | some i => exact V.turned _ _ _
  rw [squashNow_eq]
  split
  · rw [V.lawRerun, V.applySetpoints, hstored]
  · exact hstored

/-- The commit point changes a view only by passing. -/
theorem InstantView.commitPoint (d : Dev) (hasg : d.assigned g = true) (hcp : (d.region g).cpPast = false) :
    v ((commitPointD g d).region g) = v { d.region g with cpPast := true } := by
  have hpast : (d.onRegion g fun r => { r with cpPast := true }).region g = { d.region g with cpPast := true } := region_onRegion_same _ _ _
  rw [← hpast]
  unfold commitPointD
  extract_lets r past kept im causes ds n late
  have hlate : v (late.region g) = v (past.region g) := congrArg v (region_dropLate ds past g)
  rw [if_neg (by simp [hasg, hcp, r])]
  have hset (b : Bool) (e : Dev) (he : v (e.region g) = v (past.region g)) :
      v ((if b then Machine.applySetpoints g e else e).region g) = v (past.region g) := by
    split
    · rw [V.applySetpoints, he]
    · exact he
  split
  · split
    · rw [V.lawRerun]; exact hset _ _ rfl
    · exact hset _ _ rfl
  split
  · exact hset _ _ rfl
  split
  · rw [V.takeHold]; exact hset _ _ hlate
  · rw [V.squashNow, hlate]
  · split
    · rw [V.voteSent, region_put, hlate]
    · rw [V.squashNow, V.dissenters, hlate]

end view

theorem instantView_cpPast : InstantView RegionSt.cpPast := by
  refine ⟨⟨fun r c y => ?_, fun _ => rfl, fun _ => rfl⟩, fun _ _ _ _ _ => rfl, fun _ => rfl, fun _ _ => rfl, fun _ _ => rfl, fun _ _ => rfl,
    fun _ _ _ _ => rfl, fun _ _ _ _ _ _ => rfl, fun _ _ _ => rfl⟩
  unfold RegionSt.setChan
  split
  · rfl
  · split <;> rfl

theorem setChan_view {α : Type} (v : RegionSt → α) (ha : ∀ (r : RegionSt) y, v { r with chA := y } = v r)
    (hb : ∀ (r : RegionSt) y, v { r with chB := y } = v r) (hc : ∀ (r : RegionSt) y, v { r with chC := y } = v r) (r : RegionSt) (c : Nat)
    (y : Chan) : v (r.setChan c y) = v r := by
  unfold RegionSt.setChan
  split
  · exact ha r y
  · split
    · exact hb r y
    · exact hc r y

theorem voteBlind_voted : VoteBlind RegionSt.voted :=
  ⟨setChan_view _ (fun _ _ => rfl) (fun _ _ => rfl) fun _ _ => rfl, fun _ => rfl, fun _ => rfl⟩
theorem voteBlind_voteDone : VoteBlind RegionSt.voteDone :=
  ⟨setChan_view _ (fun _ _ => rfl) (fun _ _ => rfl) fun _ _ => rfl, fun _ => rfl, fun _ => rfl⟩
theorem voteBlind_squash : VoteBlind RegionSt.squash :=
  ⟨setChan_view _ (fun _ _ => rfl) (fun _ _ => rfl) fun _ _ => rfl, fun _ => rfl, fun _ => rfl⟩

/-- A vote that names a plan: it is voted, and decides the preparation. -/
theorem voteSent_voted (hk : f src = some k) (digest : Nat) (d : Dev) : ((voteSent g src digest f d).region g).voted = some k.p ∧
    ((voteSent g src digest f d).region g).voteDone = true ∧ ((voteSent g src digest f d).region g).squash = none := by
  obtain ⟨_, _, h1, -⟩ := voteBlind_voted.voteSent (g := g) hk digest d
  obtain ⟨_, _, h2, -⟩ := voteBlind_voteDone.voteSent (g := g) hk digest d
  obtain ⟨_, _, h3, -⟩ := voteBlind_squash.voteSent (g := g) hk digest d
  exact ⟨h1, h2, h3⟩

theorem voteSent_none (hk : f src = none) (digest : Nat) (d : Dev) : voteSent g src digest f d = d := by
  unfold voteSent
  simp only [hk]

/-- The hold plan decides the preparation, whether a plan is voted or not. -/
theorem takeHold_decided (d : Dev) : ((takeHold g d).region g).voteDone = true ∧ ((takeHold g d).region g).squash = none := by
  unfold takeHold
  extract_lets h act decided
  have hd : (decided.region g).voteDone = true ∧ (decided.region g).squash = none := by
    show ((d.onRegion g _).region g).voteDone = _ ∧ ((d.onRegion g _).region g).squash = _
    rw [region_onRegion_same]
    exact ⟨rfl, rfl⟩
  split
  next x src _ =>
    cases hk : (if chanRuns g src decided then h src else none) with
    | none =>
      rw [voteSent_none (f := fun c => if chanRuns g c decided then h c else none) hk]
      exact hd
    | some k =>
      obtain ⟨-, h2, h3⟩ := voteSent_voted (g := g) (f := fun c => if chanRuns g c decided then h c else none) hk x decided
      exact ⟨h2, h3⟩
  · rw [voteBlind_voteDone.noAgree, voteBlind_squash.noAgree]
    exact hd
  · exact hd

theorem chanRuns_of_active (h : c ∈ chansIn g chACTIVE d) : chanRuns g c d = true := by
  unfold chanRuns
  rw [(mem_chansIn.mp h).2]
  rfl

/-- The hold plan on which the ACTIVE channels agree is voted. -/
theorem takeHold_voted (d : Dev) (h : voteOf (candsIn g chACTIVE (fun c => some (holdCand g c d)) d)
    (candsIn g chACTIVE (fun c => some (holdCand g c d)) d).length = .agree x src) :
    ((takeHold g d).region g).voted = some (holdCand g src d).p := by
  have hrun := chanRuns_of_active (mem_candsIn (voteOf_agree h)).1
  unfold takeHold
  extract_lets f act decided
  have hact : voteOf act act.length = .agree x src := h
  have hrun' : chanRuns g src decided = true := by
    rw [← hrun]
    refine chanRuns_congr (get_onRegion _ _ _ _) ?_
    show (((d.onRegion g _).region g).chan src).copied = _
    rw [region_onRegion_same]
    rfl
  simp only [hact]
  exact (voteSent_voted (g := g) (f := fun c => if chanRuns g c decided then f c else none) (k := holdCand g src d) (if_pos hrun') x decided).1

/-! ## PDL and CP -/

theorem raOf_onRegion {q : RegionSt → RegionSt} (hq : HoldKept q) (d : Dev) (c : Nat) : raOf g (d.onRegion g q) c = raOf g d c := by
  unfold raOf
  rw [region_onRegion_same, hq.chan]

theorem runAheads_onRegion {q : RegionSt → RegionSt} (hq : HoldKept q) (d : Dev) :
    candsIn g chACTIVE (raOf g (d.onRegion g q)) (d.onRegion g q) = candsIn g chACTIVE (raOf g d) d :=
  candsIn_congr (fun _ _ => get_onRegion _ _ _ _) fun c _ => raOf_onRegion hq d c

theorem holdKept_pdl : HoldKept fun r => { r with pdlPast := true } := ⟨fun _ _ => rfl, fun _ => rfl, fun _ => rfl, fun _ => rfl, fun _ => rfl⟩
theorem holdKept_cp : HoldKept fun r => { r with cpPast := true } := ⟨fun _ _ => rfl, fun _ => rfl, fun _ => rfl, fun _ => rfl, fun _ => rfl⟩

theorem planDeadlineD_eq (hplan : planning g d = true) (hp : (d.region g).pdlPast = false) : planDeadlineD g d =
    if (candsIn g chACTIVE (raOf g d) d).length < 2 then takeHold g (d.onRegion g fun r => { r with pdlPast := true })
    else d.onRegion g fun r => { r with pdlPast := true } := by
  unfold planDeadlineD
  rw [if_neg (by simp [hplan, hp])]
  dsimp only
  rw [runAheads_onRegion holdKept_pdl]

theorem plannedLost_onRegion {q : RegionSt → RegionSt} (hq : HoldKept q) (d : Dev) : plannedLost g (d.onRegion g q) = plannedLost g d := by
  unfold plannedLost
  rw [chansIn_congr fun _ _ => get_onRegion _ _ _ _, region_onRegion_same]
  simp only [hq.chan]
  rfl

theorem signCause_onRegion {q : RegionSt → RegionSt} (hq : HoldKept q) (d : Dev) : signCause g (d.onRegion g q) = signCause g d := by
  unfold signCause
  rw [chansIn_congr fun _ _ => get_onRegion _ _ _ _, region_onRegion_same]
  simp only [hq.chan]
  rfl

/-- The commit point without a cause of a squash, the ACTIVE channels in agreement. -/
theorem commitPoint_voted (hasg : d.assigned g = true) (hcp : (d.region g).cpPast = false) (hplan : planning g d = true)
    (hdone : (d.region g).voteDone = false) (hset : (d.region g).cSetpt = false) (hcell : (d.region g).cCell = false)
    (hlost : plannedLost g d = false) (hsign : signCause g d = none)
    (hagree : voteOf (candsIn g chACTIVE (raOf g d) d) (chansIn g chACTIVE d).length = .agree x src)
    (hk : ((d.region g).chan src).ra = some k) :
    ((commitPointD g d).region g).voted = some k.p ∧ ((commitPointD g d).region g).voteDone = true := by
  have hk' (ds : List (Nat × Nat)) : raOf g (dropLate g ds (d.onRegion g fun r => { r with cpPast := true })) src = some k := by
    unfold raOf
    rw [region_dropLate, region_onRegion_same]
    exact hk
  unfold commitPointD
  extract_lets r past kept im causes ds n late
  have hplan' : planning g past = true := (planning_onRegion (fun r => { r with cpPast := true }) rfl rfl).trans hplan
  have him : im = none := (signCause_onRegion holdKept_cp d).trans hsign
  have hl : plannedLost g past = false := (plannedLost_onRegion holdKept_cp d).trans hlost
  have hcauses : causes = 0 := by
    show b2n im.isSome + 2 * b2n (r.cCell || plannedLost g past) + 8 * b2n r.cSetpt = 0
    rw [him, hl, show r.cCell = false from hcell, show r.cSetpt = false from hset]
    rfl
  have hds : ds = candsIn g chACTIVE (raOf g d) d := runAheads_onRegion holdKept_cp d
  have hn : n = (chansIn g chACTIVE d).length := congrArg List.length (chansIn_congr fun _ _ => get_onRegion _ _ _ _)
  rw [if_neg (by simp [hasg, hcp, r]), if_neg (by simp [hplan']), if_neg (by simp [hdone, r])]
  have hag : voteOf ds n = .agree x src := by rw [hds, hn]; exact hagree
  simp only [hag]
  rw [if_pos hcauses]
  obtain ⟨h1, h2, -⟩ := voteSent_voted (g := g) (hk' ds) x (late.put (RG_MODSTAT_SQUASHED g) 0)
  exact ⟨h1, h2⟩

end Sys2Proof.Machine
end

section
/-! PROOFS. The footprints of the commit point, the votes and the VOTE deadline (O31). -/

namespace Sys2Proof.Machine

variable {W : Nat → Prop} {S : Part → Prop} {d e : Dev} {g c : Nat}

/-- Of several staged setpoints of one target the one that stands is one of them. -/
theorem mem_of_latest {l : List Staged} {st : Staged} (h : l.foldl (fun (a : Option Staged) s => match a with
    | none => some s
    | some b => if b.ord < s.ord then some s else some b) none = some st) : st ∈ l := by
  have key : ∀ (l : List Staged) (a : Option Staged), l.foldl (fun (a : Option Staged) s => match a with
      | none => some s
      | some b => if b.ord < s.ord then some s else some b) a = some st → st ∈ l ∨ a = some st := by
    intro l
    induction l with
    | nil => exact fun a h => .inr h
    | cons x xs ih =>
      intro a h
      rw [List.foldl_cons] at h
      rcases ih _ h with h | h
      · exact .inl (List.mem_cons_of_mem _ h)
      · split at h
        · exact .inl (List.mem_cons.mpr (.inl (Option.some.inj h).symm))
        · split at h
          · exact .inl (List.mem_cons.mpr (.inl (Option.some.inj h).symm))
          · exact .inr h
  exact (key l none h).resolve_right nofun

section region
variable (R : RegionRoom g W S)
include R

theorem frame_takeSetpoint (st : Staged) (ht : st.tgt < 4) (h : Frame W S d e) : Frame W S d (takeSetpoint g st e) :=
  frame_onMull R _ (frame_region R _ (frame_put (tgtFld g st.tgt) _ (R.target ht).1 h))

theorem frame_applySetpoints (h : Frame W S d e) : Frame W S d (applySetpoints g e) := by
  unfold applySetpoints
  extract_lets r due keep cut shown
  have hshown : Frame W S d shown := frame_put (RG_SPQ_DEPTH g) _ (R.regs _ (by decide)) (frame_regionSt R _ h)
  refine frame_foldN 4 _ (fun f t ht hf => ?_) hshown
  dsimp only
  split
  · exact hf
  next st hst =>
    refine frame_takeSetpoint R st ?_ (frame_bump (RG_SPQ_SUPCNT g) _ (R.regs _ (by decide)) hf)
    have hmem := (List.mem_filter.mp (mem_of_latest hst)).2
    rw [beq_iff_eq] at hmem
    omega

theorem frame_lawRerun (h : Frame W S d e) : Frame W S d (lawRerun g e) := by
  refine frame_foldN 3 _ (fun f c _ hf => frame_ite ?_ hf) h
  split
  · exact frame_lawStore R c _ hf
  · exact hf

end region

section hand
variable (H : HandRoom g W S)
include H

theorem frame_squashStored (causes : Nat) (im : Option Int) (h : Frame W S d e) : Frame W S d (squashStored g causes im e) :=
  frame_regionSt H.toRegionRoom _ (frame_setWord (RG_MODSQ g) _ (H.regs _ (by decide))
    (frame_put (RG_MODSTAT_SQUASHED g) 1 (H.regs _ (by decide)) (frame_bump (RG_MODSQ_SQCNT g) 1 (H.regs _ (by decide)) h)))

theorem frame_squashNow (causes : Nat) (im : Option Int) (h : Frame W S d e) : Frame W S d (squashNow g causes im e) := by
  have R := H.toRegionRoom
  have hs := frame_squashStored H causes im h
  rw [squashNow_eq]
  exact frame_ite (frame_lawRerun R (frame_applySetpoints R hs)) hs

theorem frame_commitPointD (h : Frame W S d e) : Frame W S d (commitPointD g e) := by
  have R := H.toRegionRoom
  unfold commitPointD
  extract_lets r past kept im causes ds n late
  have hpast : Frame W S d past := frame_region R _ h
  have hds : ∀ p ∈ ds, p.1 < 3 := fun p hp => mem_candsIn_lt hp
  have hlate : Frame W S d late := frame_foldl ds _ (fun _ p hp hd => frame_put (CH_CNT_LATE g p.1) 0 (R.chans.chan (hds p hp)).2 hd) hpast
  have hkept : Frame W S d kept := frame_ite (frame_applySetpoints R hpast) hpast
  refine frame_ite h (frame_ite (frame_ite (frame_lawRerun R hkept) hkept) (frame_ite hkept ?_))
  split
  · exact frame_takeHold H (frame_ite (frame_applySetpoints R hlate) hlate)
  · exact frame_squashNow H _ _ hlate
  · exact frame_ite (frame_voteSent H _ _ _ (frame_put (RG_MODSTAT_SQUASHED g) 0 (R.regs _ (by decide)) hlate))
      (frame_squashNow H _ _ (frame_dissenters H.gives 5 _ hds hlate))

theorem frame_recomputeVoteNow (h : Frame W S d e) : Frame W S d (recomputeVoteNow g e) := by
  unfold recomputeVoteNow
  split
  · exact frame_voteSent H _ _ _ h
  · exact frame_noAgree H.gives (frame_region H.toRegionRoom _ h)
  · exact frame_takeHold H h

theorem frame_recomputeVoteD (h : Frame W S d e) : Frame W S d (recomputeVoteD g e) := frame_ite (frame_recomputeVoteNow H h) h

theorem frame_recomputeDeadlineD (h : Frame W S d e) : Frame W S d (recomputeDeadlineD g e) := frame_ite (frame_recomputeVoteNow H h) h

end hand

/-! ## After the VOTE deadline: the votes of the mull sets, and the record to the twin -/

theorem mem_votesOver {α : Type} {bad : Nat} {same : α → α → Bool} {f : Nat → α} {cs : List Nat} {p : Nat × Nat}
    (h : p ∈ votesOver bad same f cs) : p.1 ∈ cs := by
  unfold votesOver voteClasses at h
  rw [List.map_map, List.mem_map] at h
  obtain ⟨c, hc, rfl⟩ := h
  exact hc

theorem mem_comparedChans_lt (h : c ∈ comparedChans g d) : c < 3 := by
  unfold comparedChans at h
  rcases List.mem_append.mp h with h | h
  · rcases List.mem_append.mp h with h | h <;> exact mem_chansIn_lt h
  · exact mem_chansIn_lt (List.mem_filter.mp h).1

/-- A mull record that has been voted in agreement ends the cause of NOAGREE. -/
def recordAgreed (g v : Nat) (d : Dev) : Dev := (d.put (CH_VMULL_DIGEST g) v).onRegion g fun r => { r with noag := false }

/-- What the vote of the mull records can lead to. -/
theorem mullVote_cases (g recBad scanBad : Nat) (d : Dev) :
    (∃ x, mullVote g recBad scanBad d = applyRecord g x d) ∨
    mullVote g recBad scanBad d = noAgree g (applyRecord g none d) ∨
    ∃ x vs r v, (∀ p ∈ vs, p.1 < 3) ∧
      mullVote g recBad scanBad d = scanVote g scanBad (dissenters g 6 x vs (applyRecord g r (recordAgreed g v d))) := by
  unfold mullVote
  dsimp only
  cases chansIn g chACTIVE d with
  | nil => exact .inl ⟨_, rfl⟩
  | cons c cs =>
    cases cs with
    | nil => exact .inl ⟨_, rfl⟩
    | cons c' cs =>
      dsimp only
      split
      · exact .inr (.inr ⟨_, _, _, _, fun _ hp => mem_comparedChans_lt (mem_votesOver hp), rfl⟩)
      · exact .inr (.inl rfl)

section gives
variable (H : GiveUpRoom g W S)
include H

theorem frame_applyRecord (x : Option MullChange) (h : Frame W S d e) : Frame W S d (applyRecord g x e) := by
  unfold applyRecord
  extract_lets now old store sets stored
  have hstored : Frame W S d stored := frame_onRegion g _ H.regions H.region h
  exact frame_ite h (frame_foldN 3 _ (fun _ c _ hd => frame_ite (frame_chan H.toChanRoom c _ hd) hd) hstored)

theorem frame_scanVote (bad : Nat) (h : Frame W S d e) : Frame W S d (scanVote g bad e) := by
  unfold scanVote
  extract_lets nseg act vs
  refine frame_ite h ?_
  split
  · exact frame_dissenters H 7 _ (fun _ hp => mem_comparedChans_lt (mem_votesOver hp)) h
  · exact frame_noAgree H h

theorem frame_mullVote (recBad scanBad : Nat) (h : Frame W S d e) : Frame W S d (mullVote g recBad scanBad e) := by
  rcases mullVote_cases g recBad scanBad e with ⟨x, heq⟩ | heq | ⟨x, vs, r, v, hvs, heq⟩ <;> rw [heq]
  · exact frame_applyRecord H x h
  · exact frame_noAgree H (frame_applyRecord H none h)
  · exact frame_scanVote H _ (frame_dissenters H 6 _ hvs (frame_applyRecord H _
      (frame_onRegion g _ H.regions H.region (frame_put (CH_VMULL_DIGEST g) _ (H.regs _ (by decide)) h))))

end gives

section lanes
variable (L : ∀ l, l < 130 → LaneRoom l W S)
include L

theorem frame_prbsFill (l : Nat) (hl : l < 130) (ws : List (BitVec 64)) (h : Frame W S d e) : Frame W S d (prbsFill l ws e).2 := by
  unfold prbsFill
  extract_lets pat m
  split
  · exact h
  · refine List.foldlRecOn (motive := fun a : List (BitVec 64) × Dev => Frame W S d a.2) ws _ h fun _ ha _ _ => ?_
    dsimp only
    exact frame_onLane l _ (L l hl).lanes (L l hl).lane (frame_put (LN_PRBSCTL_INJ1 l) 0 ((L l hl).regs _ (by decide)) ha)

theorem frame_twinSend (kind : Nat) (x : TwinLoad) (h : Frame W S d e) : Frame W S d (twinSend kind x e) := by
  refine frame_foldl _ _ (fun f l hmem hd => ?_) h
  have hl : l < 130 := by
    have hmem := (List.mem_filter.mp hmem).1
    simp only [List.mem_cons, List.not_mem_nil, or_false] at hmem
    omega
  extract_lets on r
  refine frame_send _ (L l hl).sent ?_
  show Frame W S d (if _ then _ else _ : List (BitVec 64) × Dev).2
  split
  · exact frame_prbsFill L l hl _ hd
  · exact hd

theorem frame_mullSend (ht : S .tw) (h : Frame W S d e) : Frame W S d (mullSend e) :=
  frame_ite h (frame_setTw _ ht (frame_twinSend L 1 _ h))

end lanes

/-! ## The commit -/

section wide
variable (U : WideRoom W S)
include U

theorem frame_commitSets (p : Plan) (h : Frame W S d e) : Frame W S d (commitSets g p e) := by
  have R := U.region g
  exact frame_foldN 3 _ (fun _ c _ hd => frame_ite (frame_keepOwn R c _ _ hd) hd) (frame_setMull R _ h)

theorem frame_injStore (m : Memory) (hj : S .inj) (h : Frame W S d e) : Frame W S d (injStore m e) :=
  frame_ite (frame_setInj _ U.events.fc hj rfl h) h

theorem frame_showCtl (o : LawOut) (hold : Bool) (h : Frame W S d e) : Frame W S d (showCtl g o hold e) := by
  have R := U.region g
  unfold showCtl
  extract_lets shown
  have hshown : Frame W S d shown := frame_put (RG_STAT_ZONE g) _ (R.regs _ (by decide)) (frame_showState R h)
  exact frame_ite h (frame_ite (frame_bump (RG_LAWSTAT_ZCHGCNT g) 1 (R.regs _ (by decide))
    (frame_notice (RG_LAWSTAT_ZCHG g) U.events (R.regs _ (by decide)) hshown)) hshown)

theorem frame_showVpred (p : Plan) (h : Frame W S d e) : Frame W S d (showVpred g p e) :=
  frame_foldl _ _ (fun _ x _ hd => frame_foldl x.2.chg _ (fun _ k _ hd => frame_put (CE_VPRED_VPRED k.n) _
    (U.units _ (by unfold CE_VPRED_VPRED CE_VPRED; dsimp only; omega)) hd) hd) h

theorem frame_showPlan (p : Plan) (u : Int) (h : Frame W S d e) : Frame W S d (showPlan g p u e) := by
  have R := U.region g
  unfold showPlan
  extract_lets a b c x y z r w
  have hb : Frame W S d b := frame_put (RG_MODSTAT_DPH g) _ (R.regs _ (by decide)) (frame_putB (RG_MODSTAT_HOLD g) _ (R.regs _ (by decide))
    (frame_putB (RG_MODSTAT_DIR g) _ (R.regs _ (by decide)) (frame_putB (RG_MODSTAT_POL g) _ (R.regs _ (by decide)) h)))
  have hx : Frame W S d x := frame_putB (RG_MODTRIM_TRIMV g) _ (R.regs _ (by decide)) (frame_put (RG_MODTRIM_NT g) _ (R.regs _ (by decide))
    (frame_put (RG_MODPLAN_E g) _ (R.regs _ (by decide)) (frame_put (RG_MODPLAN_L g) _ (R.regs _ (by decide)) hb)))
  have hz : Frame W S d z := frame_put (RG_MODTRIMW_WOUT g) _ (R.regs _ (by decide)) (frame_putB (RG_MODTRIM_SUPP g) _ (R.regs _ (by decide))
    (frame_putB (RG_MODTRIM_NOTCH g) _ (R.regs _ (by decide)) hx))
  exact frame_ite (frame_source _ _ _ _ _ _ U.events.dr hz) hz

theorem frame_commitPlan (p : Plan) (hj : S .inj) (h : Frame W S d e) : Frame W S d (commitPlan g p e) := by
  have R := U.region g
  unfold commitPlan
  extract_lets r set unheld supp counted sat shown
  have hset : Frame W S d set := frame_region R _ (frame_injStore U _ hj (frame_commitSets U p h))
  have hunheld : Frame W S d unheld := frame_region R _ hset
  have hsupp : Frame W S d supp := frame_ite (frame_bump (RG_MODCNT_SUPPCNT g) 1 (R.regs _ (by decide)) hunheld) hunheld
  have hcounted : Frame W S d counted := frame_ite hset (frame_ite (frame_bump (RG_MODCNT_CARRYSAT g) 1 (R.regs _ (by decide)) hsupp) hsupp)
  have hsat : Frame W S d sat := frame_ite (frame_notice (RG_MODHOLD_DEMSAT g) U.events (R.regs _ (by decide)) hcounted) hcounted
  refine frame_showPlan U p _ (frame_showVpred U p ?_)
  show Frame W S d (match r.vLaw with | some o => _ | none => _)
  split
  · exact frame_showCtl U _ _ (frame_putS (RG_IREF_I1 g) _ (R.regs _ (by decide)) (frame_putS (RG_IREF_IREF g) _ (R.regs _ (by decide))
      (frame_putS (RG_UREF_UREF g) _ (R.regs _ (by decide)) hsat)))
  · exact hsat

theorem frame_voteMiss (h : Frame W S d e) : Frame W S d (voteMiss g e) := by
  have R := U.region g
  exact frame_onMull R _ (frame_region R _ (frame_bump (CH_VCNT_VMISSCNT g) 1 (R.regs _ (by decide))
    (frame_service (CH_VEVT_VMISS g) U.events (R.regs _ (by decide)) h)))

theorem frame_lateCount (h : Frame W S d e) : Frame W S d (lateCount g e) := by
  have R := U.region g
  refine frame_foldN 3 _ (fun f c hc hd => ?_) h
  extract_lets counted
  have hcounted : Frame W S d counted := frame_bump (CH_CNT_LATE g c) 1 (R.chans.chan hc).2 hd
  exact frame_ite (frame_ite (frame_giveUp (U.hand g).gives hc 8 hcounted) hcounted) hd

end wide

end Sys2Proof.Machine
end

section
/-! PROOFS. The VOTE deadline, and the instants of the plan in preparation (O31). -/

namespace Sys2Proof.Machine

variable {s : State} {d e : Dev} {g c src x : Nat} {k : Cand} {p : Plan}

/-! ## What stays past the VOTE deadline -/

theorem voteBlind_vdlPast : VoteBlind RegionSt.vdlPast :=
  ⟨setChan_view _ (fun _ _ => rfl) (fun _ _ => rfl) fun _ _ => rfl, fun _ => rfl, fun _ => rfl⟩

theorem onMull_vdlPast (q : Mull → Mull) (d : Dev) : ((onMull g q d).region g).vdlPast = (d.region g).vdlPast := by
  unfold onMull
  rw [voteBlind_vdlPast.ownEach, region_setMull]
  rfl

theorem region_of_regions {i : Nat} (h : e.regions = d.regions) : e.region i = d.region i := by
  unfold Dev.region
  rw [h]

theorem region_showPlan (u : Int) (d : Dev) (i : Nat) : (showPlan g p u d).region i = d.region i := by
  unfold showPlan
  extract_lets a b c x y z r w
  have hz : z.region i = d.region i := by simp only [z, y, x, c, b, a, region_put, region_putB]
  split
  · rw [region_of_regions (source_regions _ _ _ _ _ _ _), hz]
  · exact hz

theorem region_showVpred (d : Dev) (i : Nat) : (showVpred g p d).region i = d.region i := by
  unfold showVpred
  exact foldl_view (fun e => e.region i) _ (fun e (y : Nat × Gath) => foldl_view (fun e => e.region i) y.2.chg (fun _ _ => region_put _ _ _ _) e) d

theorem region_showState (d : Dev) (i : Nat) : (showState g d).region i = d.region i := by
  unfold showState
  rw [region_putB]
  exact foldN_view (fun e => e.region i) 4 (fun _ _ => region_put _ _ _ _) d

theorem region_showCtl (o : LawOut) (hold : Bool) (d : Dev) (i : Nat) : (showCtl g o hold d).region i = d.region i := by
  unfold showCtl
  extract_lets shown
  have hshown : shown.region i = d.region i := by
    show ((showState g d).put _ _).region i = _
    rw [region_put, region_showState]
  split
  · rfl
  split
  · rw [region_bump, raise_region, hshown]
  · exact hshown

theorem keepOwn_vdlPast (now base : Mull) (d : Dev) : ((keepOwn g c now base d).region g).vdlPast = (d.region g).vdlPast :=
  voteBlind_vdlPast.onChan c _ d

theorem commitSets_vdlPast (p : Plan) (d : Dev) : ((commitSets g p d).region g).vdlPast = (d.region g).vdlPast := by
  unfold commitSets
  extract_lets r common set
  have hset : (set.region g).vdlPast = (d.region g).vdlPast := by
    show ((setMull g common d).region g).vdlPast = _
    rw [region_setMull]
    rfl
  refine (foldN_view (fun e => (e.region g).vdlPast) 3 (fun e c => ?_) set).trans hset
  split
  · exact keepOwn_vdlPast _ _ _
  · rfl

theorem region_injStore (m : Memory) (d : Dev) (i : Nat) : (injStore m d).region i = d.region i := by
  unfold injStore
  split <;> rfl

/-- What is counted of a plan that carries a run of the law. -/
theorem ite_view {α : Type} (w : Dev → α) {b : Prop} [Decidable b] {a d : Dev} (h : w a = w d) : w (if b then a else d) = w d := by
  split
  · exact h
  · rfl

theorem commitPlan_vdlPast (p : Plan) (d : Dev) : ((commitPlan g p d).region g).vdlPast = (d.region g).vdlPast := by
  unfold commitPlan
  extract_lets r set unheld supp counted sat shown
  have hset : (set.region g).vdlPast = (d.region g).vdlPast := by
    show ((Dev.onRegion _ g _).region g).vdlPast = _
    rw [region_onRegion_same]
    dsimp only
    rw [region_injStore, commitSets_vdlPast]
  have hunheld : (unheld.region g).vdlPast = (d.region g).vdlPast := by
    show ((set.onRegion g _).region g).vdlPast = _
    rw [region_onRegion_same]
    exact hset
  have hsupp : (supp.region g).vdlPast = (d.region g).vdlPast :=
    (ite_view (fun e => (e.region g).vdlPast) (congrArg RegionSt.vdlPast (region_bump _ _ _ _))).trans hunheld
  have hcounted : (counted.region g).vdlPast = (d.region g).vdlPast := by
    show ((if p.hold then set else _).region g).vdlPast = _
    split
    · exact hset
    · exact (ite_view (fun e => (e.region g).vdlPast) (congrArg RegionSt.vdlPast (region_bump _ _ _ _))).trans hsupp
  have hsat : (sat.region g).vdlPast = (d.region g).vdlPast :=
    (ite_view (fun e => (e.region g).vdlPast) (congrArg RegionSt.vdlPast (raise_region _ _ _ _))).trans hcounted
  rw [region_showPlan, region_showVpred, ← hsat]
  show ((match r.vLaw with | some o => _ | none => _ : Dev).region g).vdlPast = _
  split
  · rw [region_showCtl, region_putS, region_putS, region_putS]
  · rfl

theorem voteMiss_vdlPast (d : Dev) : ((voteMiss g d).region g).vdlPast = (d.region g).vdlPast := by
  unfold voteMiss
  rw [onMull_vdlPast]
  rw [region_onRegion_same]
  dsimp only
  rw [region_bump, raise_region]

theorem lateCount_vdlPast (d : Dev) : ((lateCount g d).region g).vdlPast = (d.region g).vdlPast := by
  refine foldN_view (fun e => (e.region g).vdlPast) 3 (fun e c => ?_) d
  dsimp only
  split
  · split
    · rw [voteBlind_vdlPast.giveUp, region_bump]
    · rw [region_bump]
  · rfl

theorem applyRecord_vdlPast (y : Option MullChange) (d : Dev) : ((applyRecord g y d).region g).vdlPast = (d.region g).vdlPast := by
  unfold applyRecord
  extract_lets now old store sets stored
  have hstored : (stored.region g).vdlPast = (d.region g).vdlPast := by
    show ((d.onRegion g _).region g).vdlPast = _
    rw [region_onRegion_same]
  split
  · rfl
  · refine (foldN_view (fun e => (e.region g).vdlPast) 3 (fun e c => ?_) stored).trans hstored
    dsimp only
    split
    · exact keepOwn_vdlPast _ _ _
    · rfl

theorem scanVote_vdlPast (bad : Nat) (d : Dev) : ((scanVote g bad d).region g).vdlPast = (d.region g).vdlPast := by
  unfold scanVote
  extract_lets nseg act vs
  split
  · rfl
  split
  · exact voteBlind_vdlPast.dissenters _ _ _ _
  · exact voteBlind_vdlPast.noAgree _

theorem mullVote_vdlPast (a b : Nat) (d : Dev) : ((mullVote g a b d).region g).vdlPast = (d.region g).vdlPast := by
  rcases mullVote_cases g a b d with ⟨x, heq⟩ | heq | ⟨x, vs, r, v, hvs, heq⟩ <;> rw [heq]
  · exact applyRecord_vdlPast _ _
  · rw [voteBlind_vdlPast.noAgree, applyRecord_vdlPast]
  · rw [scanVote_vdlPast, voteBlind_vdlPast.dissenters, applyRecord_vdlPast]
    rw [recordAgreed, region_onRegion_same]
    dsimp only
    rw [region_put]

/-- The region past its VOTE deadline. -/
def votePast (g : Nat) (d : Dev) : Dev := d.onRegion g fun r => { r with vdlPast := true, voteDone := true }

/-- What the VOTE deadline makes of the voted plan. -/
def voteCommitted (g : Nat) (d : Dev) : Dev :=
  if planning g d then
    match ((lateCount g d).region g).voted with
    | some p => if planLimitOk g p (lateCount g d) then commitPlan g p (lateCount g d) else voteMiss g (lateCount g d)
    | none => voteMiss g (lateCount g d)
  else if d.rgState g = rgRUN then onMull g (fun m => shiftU m.u0 m) d
  else onMull g (fun m => { m with u0 := none, u1 := none, u2 := none }) (match (d.region g).voted with
    | some p => if planLimitOk g p d then commitPlan g p d else voteMiss g d
    | none => d)

theorem voteDeadlineD_eq (a b : Nat) (hasg : d.assigned g = true) (hl : d.live = true) (hv : (d.region g).vdlPast = false) :
    voteDeadlineD g a b d = mullSend (mullVote g a b (voteCommitted g (votePast g d))) := by
  unfold voteDeadlineD
  rw [if_neg (by simp [hasg, hl, hv])]
  rfl

theorem frame_voteCommitted {W : Nat → Prop} {S : Part → Prop} (U : WideRoom W S) (hj : S .inj) (h : Frame W S d e) :
    Frame W S d (voteCommitted g e) := by
  have R := U.region g
  have hlate := frame_lateCount U (g := g) h
  unfold voteCommitted
  refine frame_ite ?_ (frame_ite (frame_onMull R _ h) (frame_onMull R _ ?_))
  · split
    · exact frame_ite (frame_commitPlan U _ hj hlate) (frame_voteMiss U hlate)
    · exact frame_voteMiss U hlate
  · split
    · exact frame_ite (frame_commitPlan U _ hj h) (frame_voteMiss U h)
    · exact h

theorem frame_voteDeadlineD {W : Nat → Prop} {S : Part → Prop} (U : WideRoom W S) (a b : Nat) (hj : S .inj) (h : Frame W S d e) :
    Frame W S d (voteDeadlineD g a b e) :=
  frame_ite h (frame_mullSend (fun _ _ => U.lane _) U.tw (frame_mullVote (U.hand g).gives a b
    (frame_voteCommitted U hj (frame_region (U.region g) _ h))))

theorem voteCommitted_vdlPast (d : Dev) : ((voteCommitted g d).region g).vdlPast = (d.region g).vdlPast := by
  unfold voteCommitted
  split
  · split
    · split
      · rw [commitPlan_vdlPast, lateCount_vdlPast]
      · rw [voteMiss_vdlPast, lateCount_vdlPast]
    · rw [voteMiss_vdlPast, lateCount_vdlPast]
  split
  · exact onMull_vdlPast _ _
  · rw [onMull_vdlPast]
    split
    · split
      · exact commitPlan_vdlPast _ _
      · exact voteMiss_vdlPast _
    · rfl

/-- The record to the twin leaves the regions. -/
theorem mullSend_regions (d : Dev) : (mullSend d).regions = d.regions :=
  (frame_mullSend (W := fun _ => True) (S := (· ≠ .regions)) (fun _ _ =>
    ⟨⟨trivial, trivial, nofun, nofun⟩, fun _ _ => trivial, nofun, nofun, nofun⟩) nofun (frame_refl d)).parts .regions fun h => h rfl

theorem voteDeadline_vdlPast (a b : Nat) (hasg : d.assigned g = true) (hl : d.live = true) (hv : (d.region g).vdlPast = false) :
    ((voteDeadlineD g a b d).region g).vdlPast = true := by
  rw [voteDeadlineD_eq a b hasg hl hv, region_of_regions (mullSend_regions _), mullVote_vdlPast, voteCommitted_vdlPast, votePast,
    region_onRegion_same]

/-! ## The plan that is sent -/

/-- With every ACTIVE channel present none is late. -/
theorem lateCount_none (h : ∀ c ∈ chansIn g chACTIVE d, ((d.region g).chan c).present = true) : lateCount g d = d := by
  have hstep (c : Nat) (hc : c < 3) : ¬ (d.get (CH_STAT_STATE g c) = chACTIVE ∧ ¬ ((d.region g).chan c).present = true) := by
    rintro ⟨hst, hp⟩
    exact hp (h c (mem_chansIn.mpr ⟨hc, hst⟩))
  unfold lateCount
  rw [foldN_three, if_neg (hstep 0 (by omega)), if_neg (hstep 1 (by omega)), if_neg (hstep 2 (by omega))]

theorem showPlan_l (p : Plan) (u : Int) (d : Dev) :
    (showPlan g p u d).get (RG_MODPLAN_L g) = p.l % 2 ^ (RG_MODPLAN_L g).width := by
  have htrim : RG_MODTRIM g ≠ RG_MODPLAN g := by unfold RG_MODTRIM RG_MODPLAN; omega
  have htrimw : RG_MODTRIMW g ≠ RG_MODPLAN g := by unfold RG_MODTRIMW RG_MODPLAN; omega
  unfold showPlan
  extract_lets a b c x y z r w
  have hc : c.get (RG_MODPLAN_L g) = p.l % 2 ^ (RG_MODPLAN_L g).width :=
    (ufld_put_disj _ (RG_MODPLAN_E g) (RG_MODPLAN_L g) _ rfl rfl).trans (ufld_put_mod _ (RG_MODPLAN_L g) _ rfl)
  have hz : z.get (RG_MODPLAN_L g) = c.get (RG_MODPLAN_L g) := by
    simp only [z, y, x, Dev.putB]
    rw [get_put_ne _ _ _ _ htrimw, get_put_ne _ _ _ _ htrim, get_put_ne _ _ _ _ htrim, get_put_ne _ _ _ _ htrim,
      get_put_ne _ _ _ _ htrim]
  rw [← hc, ← hz]
  split
  · exact get_congr _ _ _ (source_word _ _ _ _ _ _ _ _)
  · rfl

theorem commitPlan_l (p : Plan) (d : Dev) : (commitPlan g p d).get (RG_MODPLAN_L g) = p.l % 2 ^ (RG_MODPLAN_L g).width :=
  showPlan_l _ _ _

/-- Everything but one register of the region below its channels' block. -/
theorem butRegRoom {n : Nat} (g : Nat) (hn : n < 0x600) : GiveUpRoom g (· ≠ n + 0x30000 + 0x2000 * g) fun _ => True where
  evt := by unfold NT_EVT; omega
  cnt := by unfold NT_CNT1; omega
  fc := trivial
  dr := trivial
  regs k hk := by omega
  regions := trivial
  region := trivial
  twstat := by unfold GL_TWSTAT; omega
  sent := trivial
  tw := trivial

theorem butRegLane {n : Nat} (g : Nat) {l : Nat} (hl : l < 130) :
    LaneRoom l (· ≠ n + 0x30000 + 0x2000 * g) fun _ => True where
  evt := by unfold NT_EVT; omega
  cnt := by unfold NT_CNT1; omega
  fc := trivial
  dr := trivial
  regs k hk := by omega
  lanes := trivial
  lane := trivial
  sent := trivial

/-- The votes of the mull sets and the record to the twin leave the registers of planning. -/
theorem mullSend_get (a b : Nat) (d : Dev) {y : Fld} {n : Nat} (hn : n < 0x600) (hy : y.addr = n + 0x30000 + 0x2000 * g) :
    (mullSend (mullVote g a b d)).get y = d.get y :=
  (frame_mullSend (fun _ => butRegLane g) trivial (frame_mullVote (butRegRoom g hn) a b (frame_refl d))).get y fun h => h hy

/-! ## A period without a plan -/

theorem vmiss_ne_cnt (g : Nat) : CH_VCNT g ≠ CH_VEVT g := by unfold CH_VCNT CH_VEVT; omega

theorem voteMiss_flag (d : Dev) : (voteMiss g d).flag (CH_VEVT_VMISS g) = true := by
  have h1 : (CH_VEVT_VMISS g).addr ≠ RG_MODSTAT g := by unfold CH_VEVT_VMISS CH_VEVT RG_MODSTAT; dsimp only; omega
  have h2 : (CH_VEVT_VMISS g).addr ≠ RG_MODHOLD g := by unfold CH_VEVT_VMISS CH_VEVT RG_MODHOLD; dsimp only; omega
  have h3 : (CH_VEVT_VMISS g).addr ≠ RG_FBSTAT g := by unfold CH_VEVT_VMISS CH_VEVT RG_FBSTAT; dsimp only; omega
  unfold voteMiss Dev.bump
  rw [flag_congr (onMull_get _ _ _ h1 h2 h3), onRegion_flag, flag_put_ne _ _ _ _ (vmiss_ne_cnt g)]
  exact uflag_raise _ _ _ (unit_ge rfl) (by rfl) (by rfl)

theorem dissent_vmiss (hc : c < 3) (cause : Nat) (d : Dev) : (dissent g c cause d).get (CH_VEVT_VMISS g) = d.get (CH_VEVT_VMISS g) := by
  unfold dissent
  extract_lets counted checked
  have hcounted : counted.get (CH_VEVT_VMISS g) = d.get (CH_VEVT_VMISS g) := get_put_ne _ _ _ _ (vmiss_ne_cnt g)
  have hchecked : checked.get (CH_VEVT_VMISS g) = counted.get (CH_VEVT_VMISS g) := by
    show (Dev.onChan ((counted.put (CH_STAT_RSOK g c) 0).bump (CH_STAT_RSFAIL g c)) g c _).get _ = _
    unfold Dev.bump
    rw [onChan_get, get_put_ne _ _ _ _ (chStat_ne_evt g c), get_put_ne _ _ _ _ (chStat_ne_evt g c)]
  rw [← hcounted]
  split
  · split
    · rw [giveUp_vmiss hc, hchecked]
    · exact hchecked
  · exact giveUp_vmiss hc _ _

theorem dissenters_vmiss (cause digest : Nat) {ds : List (Nat × Nat)} (hds : ∀ p ∈ ds, p.1 < 3) (d : Dev) :
    (dissenters g cause digest ds d).get (CH_VEVT_VMISS g) = d.get (CH_VEVT_VMISS g) := by
  refine List.foldlRecOn (motive := fun e : Dev => e.get (CH_VEVT_VMISS g) = d.get (CH_VEVT_VMISS g)) ds _ rfl fun e he p hp => ?_
  split
  · exact he
  · exact (dissent_vmiss (hds p hp) _ _).trans he

theorem noAgree_vmiss (d : Dev) : (noAgree g d).get (CH_VEVT_VMISS g) = d.get (CH_VEVT_VMISS g) := by
  unfold noAgree soleOr
  split
  · exact (offChans_vmiss g 0).handOver _
  · exact ufld_raise_disj _ _ _ _ (unit_ge rfl) (by rfl) (by rfl) (by rfl)

theorem applyRecord_get (r : Option MullChange) (d : Dev) (y : Fld) : (applyRecord g r d).get y = d.get y := by
  unfold applyRecord
  extract_lets now old store sets stored
  have hstored : stored.get y = d.get y := get_onRegion _ _ _ _
  split
  · rfl
  · refine (foldN_view (fun e => e.get y) 3 (fun e c => ?_) stored).trans hstored
    dsimp only
    split
    · exact onChan_get _ _ _ _ _
    · rfl

theorem scanVote_vmiss (bad : Nat) (d : Dev) : (scanVote g bad d).get (CH_VEVT_VMISS g) = d.get (CH_VEVT_VMISS g) := by
  unfold scanVote
  extract_lets nseg act vs
  split
  · rfl
  split
  · exact dissenters_vmiss _ _ (fun _ hp => mem_comparedChans_lt (mem_votesOver hp)) _
  · exact noAgree_vmiss _

theorem mullVote_vmiss (a b : Nat) (d : Dev) : (mullVote g a b d).get (CH_VEVT_VMISS g) = d.get (CH_VEVT_VMISS g) := by
  have hne : (CH_VMULL_DIGEST g).addr ≠ (CH_VEVT_VMISS g).addr := by
    unfold CH_VMULL_DIGEST CH_VMULL CH_VEVT_VMISS CH_VEVT; dsimp only; omega
  rcases mullVote_cases g a b d with ⟨x, heq⟩ | heq | ⟨x, vs, r, v, hvs, heq⟩ <;> rw [heq]
  · exact applyRecord_get _ _ _
  · rw [noAgree_vmiss, applyRecord_get]
  · rw [scanVote_vmiss, dissenters_vmiss _ _ hvs, applyRecord_get, recordAgreed, get_onRegion, get_put_ne _ _ _ _ hne]

theorem mullSend_vmiss (d : Dev) : (mullSend d).get (CH_VEVT_VMISS g) = d.get (CH_VEVT_VMISS g) :=
  (frame_mullSend (fun _ => butRegLane (n := 0x608) g) trivial (frame_refl d)).get (CH_VEVT_VMISS g) fun h => h rfl

/-- With no ACTIVE channel late the voted plan that the limit shell lets through is committed, and VMISS shows where none is voted. -/
theorem voteDeadline_plan (a b : Nat) (hl : d.live = true) (hv : (d.region g).vdlPast = false) (hplan : planning g d = true)
    (hall : ∀ c ∈ chansIn g chACTIVE d, ((d.region g).chan c).present = true) :
    (∀ p, (d.region g).voted = some p → planLimitOk g p d = true →
      (voteDeadlineD g a b d).get (RG_MODPLAN_L g) = p.l % 2 ^ (RG_MODPLAN_L g).width) ∧
    ((d.region g).voted = none → (voteDeadlineD g a b d).flag (CH_VEVT_VMISS g) = true) := by
  have hpast : (votePast g d).region g = { d.region g with vdlPast := true, voteDone := true } := region_onRegion_same _ _ _
  have hplan' : planning g (votePast g d) = true := (planning_onRegion (fun r => { r with vdlPast := true, voteDone := true }) rfl rfl).trans hplan
  have hch : chansIn g chACTIVE (votePast g d) = chansIn g chACTIVE d := chansIn_congr fun _ _ => get_onRegion _ _ _ _
  have hlate : lateCount g (votePast g d) = votePast g d := by
    refine lateCount_none fun c hc => ?_
    rw [hpast]
    exact hall c (hch ▸ hc)
  rw [voteDeadlineD_eq a b (planning_assigned hplan) hl hv]
  refine ⟨fun p hp hok => ?_, fun hn => ?_⟩
  · have hcommit : voteCommitted g (votePast g d) = commitPlan g p (votePast g d) := by
      unfold voteCommitted
      rw [if_pos hplan', hlate, hpast]
      simp only [hp]
      exact if_pos hok
    rw [hcommit, mullSend_get (n := 0x418) a b _ (by decide) rfl, commitPlan_l]
  · have hcommit : voteCommitted g (votePast g d) = voteMiss g (votePast g d) := by
      unfold voteCommitted
      rw [if_pos hplan', hlate, hpast]
      simp only [hn]
    rw [hcommit, flag_congr (mullSend_vmiss _), flag_congr (mullVote_vmiss _ _ _), voteMiss_flag]

/-! ## Recompute votes -/

theorem recomputeVoteNow_decided (d : Dev) : ((recomputeVoteNow g d).region g).voteDone = true ∧
    ((recomputeVoteNow g d).region g).squash = none := by
  unfold recomputeVoteNow
  split
  next x src hv =>
    obtain ⟨k, hk⟩ := voteOf_agree_cand hv
    exact (voteSent_voted hk x d).2
  · rw [voteBlind_voteDone.noAgree, voteBlind_squash.noAgree, region_onRegion_same]
    exact ⟨rfl, rfl⟩
  · exact takeHold_decided d

theorem recomputeVoteNow_voted (d : Dev) (hv : voteOf (candsIn g chACTIVE (rcOf g d) d) (chansIn g chACTIVE d).length = .agree x src)
    (hk : ((d.region g).chan src).rc = some k) : ((recomputeVoteNow g d).region g).voted = some k.p := by
  unfold recomputeVoteNow
  simp only [hv]
  exact (voteSent_voted (f := rcOf g d) hk x d).1

/-! ## PDL, and instants that have passed -/

theorem instantView_pdlPast : InstantView RegionSt.pdlPast :=
  ⟨⟨setChan_view _ (fun _ _ => rfl) (fun _ _ => rfl) fun _ _ => rfl, fun _ => rfl, fun _ => rfl⟩, fun _ _ _ _ _ => rfl, fun _ => rfl,
    fun _ _ => rfl, fun _ _ => rfl, fun _ _ => rfl, fun _ _ _ _ => rfl, fun _ _ _ _ _ _ => rfl, fun _ _ _ => rfl⟩

/-- At PDL: the instant has passed, and run-ahead plans that cannot agree give way to the hold plan. -/
theorem planDeadline_region (hplan : planning g d = true) (hp : (d.region g).pdlPast = false) :
    ((planDeadlineD g d).region g).pdlPast = true ∧
    ((candsIn g chACTIVE (raOf g d) d).length < 2 → ((planDeadlineD g d).region g).voteDone = true ∧
      ∀ x src, voteOf (candsIn g chACTIVE (fun c => some (holdCand g c d)) d)
          (candsIn g chACTIVE (fun c => some (holdCand g c d)) d).length = .agree x src →
        ((planDeadlineD g d).region g).voted = some (holdCand g src d).p) := by
  have hpast : ((d.onRegion g fun r => { r with pdlPast := true }).region g).pdlPast = true := by rw [region_onRegion_same]
  have hhold (c : Nat) : holdCand g c (d.onRegion g fun r => { r with pdlPast := true }) = holdCand g c d := holdCand_onRegion holdKept_pdl g c d
  rw [planDeadlineD_eq hplan hp]
  by_cases hfew : (candsIn g chACTIVE (raOf g d) d).length < 2
  · rw [if_pos hfew]
    refine ⟨(instantView_pdlPast.takeHold _).trans hpast, fun _ => ⟨(takeHold_decided _).1, fun x src hv => ?_⟩⟩
    rw [← hhold]
    refine takeHold_voted (x := x) _ ?_
    rw [candsIn_congr (fun _ _ => get_onRegion _ _ _ _) fun c _ => congrArg some (hhold c)]
    exact hv
  · rw [if_neg hfew]
    exact ⟨hpast, fun h => absurd h hfew⟩

theorem planDeadlineD_past (h : (d.region g).pdlPast = true) : planDeadlineD g d = d := if_pos (.inr h)
theorem commitPointD_past (h : (d.region g).cpPast = true) : commitPointD g d = d := if_pos (.inr h)
theorem recomputeVoteD_past (h : (d.region g).voteDone = true) : recomputeVoteD g d = d := if_neg fun k => k.2.2.1 h
theorem recomputeDeadlineD_past (h : (d.region g).voteDone = true) : recomputeDeadlineD g d = d := if_neg fun k => k.2.2 h
theorem voteDeadlineD_past (a b : Nat) (h : (d.region g).vdlPast = true) : voteDeadlineD g a b d = d := if_pos (.inr (.inr h))

theorem regatherDeadline_past (h : (d.region g).rgdlPast = true) : (regatherDeadlineD g d).region g = d.region g := by
  have heta : { d.region g with rgdlPast := true } = d.region g := by rw [← h]
  rw [regatherDeadlineD, region_onRegion_same, heta]

/-- A command whose effect leaves the device leaves its regions. -/
theorem answers_unchanged {c : Instr} {f : Dev → Dev} (hc : exec c s = .next (running f s)) (ha : s.awake) (h : f s.dev = s.dev) :
    Answers c s fun t => t.dev.region g = s.dev.region g := by
  refine answers_running hc ha ?_ ?_ <;> rw [h]
  · exact quiet_of_frame (frame_refl _)
  · exact tripOutRelease_region _ _

end Sys2Proof.Machine

open Sys2Proof Machine

/-- Settles O31: each instant by the view of the region that it alone changes, the votes by what a vote leaves. -/
theorem planInstants : Obligations.PlanInstants := by
  unfold Obligations.PlanInstants
  intro g s ha
  have K := calmRegion g.val
  have H := calmHand g.val
  have r0 := frame_refl (W := calmRegs) (S := calmParts) s.dev
  refine ⟨fun hplan hp => ?_, fun hasg hcp => ?_, ?_, fun hplan hsq hdone => ?_, fun a b hasg hl hv => ?_, fun c a b hc => ?_⟩
  · refine answers_running rfl ha (quiet_of_frame (frame_planDeadlineD H r0)) ?_
    rw [tripOutRelease_region]
    exact planDeadline_region hplan hp
  · refine answers_running rfl ha (quiet_of_frame (frame_commitPointD H r0)) ?_
    rw [tripOutRelease_region, instantView_cpPast.commitPoint _ hasg hcp]
    exact ⟨rfl, fun x src k hplan hdone hset hcell hlost hsign hv hk => commitPoint_voted hasg hcp hplan hdone hset hcell hlost hsign hv hk⟩
  · refine answers_running rfl ha (quiet_of_frame (frame_regatherDeadlineD K r0)) ?_
    rw [tripOutRelease_region, regatherDeadlineD, region_onRegion_same]
  · have hall : ∀ t : State, t.dev.region g.val = (recomputeVoteNow g.val s.dev).region g.val →
        (t.dev.region g.val).voteDone = true ∧ (t.dev.region g.val).squash = none ∧
        ∀ x src k, voteOf (candsIn g.val chACTIVE (rcOf g.val s.dev) s.dev) (chansIn g.val chACTIVE s.dev).length = .agree x src →
          ((s.dev.region g.val).chan src).rc = some k → (t.dev.region g.val).voted = some k.p := by
      intro t ht
      rw [ht]
      exact ⟨(recomputeVoteNow_decided s.dev).1, (recomputeVoteNow_decided s.dev).2, fun x src k hv hk => recomputeVoteNow_voted s.dev hv hk⟩
    refine ⟨fun hrc => ?_, ?_⟩
    · refine answers_running rfl ha (quiet_of_frame (frame_recomputeVoteD H r0)) (hall _ ?_)
      have heq : recomputeVoteD g.val s.dev = recomputeVoteNow g.val s.dev :=
        if_pos ⟨hplan, hsq, by simp [hdone], by rw [List.all_eq_true]; exact hrc⟩
      rw [tripOutRelease_region, heq]
    · refine answers_running rfl ha (quiet_of_frame (frame_recomputeDeadlineD H r0)) (hall _ ?_)
      have heq : recomputeDeadlineD g.val s.dev = recomputeVoteNow g.val s.dev := if_pos ⟨hplan, hsq, by simp [hdone]⟩
      rw [tripOutRelease_region, heq]
  · refine answers_running rfl ha (quiet_of_frame (frame_voteDeadlineD calmRoom _ _ trivial r0)) ?_
    rw [tripOutRelease_region, settled_get _ _ (unit_ge rfl), settled_flag _ _ (unit_ge rfl)]
    exact ⟨voteDeadline_vdlPast _ _ hasg hl hv, fun hplan hall => voteDeadline_plan _ _ hl hv hplan hall⟩
  · rcases hc with ⟨rfl, h⟩ | ⟨rfl, h⟩ | ⟨rfl, h⟩ | ⟨rfl | rfl, h⟩ | ⟨rfl, h⟩
    · exact answers_unchanged rfl ha (planDeadlineD_past h)
    · exact answers_unchanged rfl ha (commitPointD_past h)
    · refine answers_running rfl ha (quiet_of_frame (frame_regatherDeadlineD K r0)) ?_
      rw [tripOutRelease_region]
      exact regatherDeadline_past h
    · exact answers_unchanged rfl ha (recomputeVoteD_past h)
    · exact answers_unchanged rfl ha (recomputeDeadlineD_past h)
    · exact answers_unchanged rfl ha (voteDeadlineD_past _ _ h)

end

section
/-! PROOFS. Slots and conversions of a measurement group (O38). -/

namespace Sys2Proof.Machine

variable {W : Nat → Prop} {S : Part → Prop} {d e : Dev} {s : State} {a : Nat}

/-! ## Ticks that pass

The alignment rule keeps the label within 2^-8 ns of the grid, so the nearest grid point moves on by each tick. -/

theorem stepsPass_nowTick (n : Nat) (d : Dev) : (stepsPass n d).nowTick = d.nowTick := by
  have hlabel : (stepsPass n d).tm.label = d.tm.label := by
    unfold stepsPass; dsimp only; split <;> rfl
  rw [Dev.nowTick, hlabel, Dev.nowTick]

theorem slewTaken_label (x : Int) (d : Dev) : (slewTaken x d).tm.label = d.tm.label := by
  unfold slewTaken
  split <;> rfl

/-- What the alignment rule leaves of ρ is less than one step. -/
theorem alignCount_rest (r : Int) : -(2 ^ 24 : Int) < r - alignCount r * 2 ^ 24 ∧ r - alignCount r * 2 ^ 24 < 2 ^ 24 := by
  have hsplit := Int.tdiv_mul_add_tmod r (2 ^ 24)
  have hlt := Int.tmod_lt_of_pos r (show (0 : Int) < 2 ^ 24 by decide)
  have hgt := Int.lt_tmod_of_pos r (show (0 : Int) < 2 ^ 24 by decide)
  unfold alignCount
  omega

theorem ticksRun_nowTick (n : Nat) (x : Int) (d : Dev) : (ticksRun n x d).nowTick = d.nowTick + n := by
  obtain ⟨hlo, hhi⟩ := alignCount_rest (tickRho d + n * d.getS TM_INCR_CORR + x)
  have hsame : (slewTaken x d).nowTick = d.nowTick := by rw [Dev.nowTick, slewTaken_label, Dev.nowTick]
  unfold ticksRun
  dsimp only
  rw [Dev.nowTick, alignShow_tm]
  dsimp only
  rw [hsame]
  omega

/-- While the timebase runs, time moves on to the instant asked for. -/
theorem until_nowTick (d : Dev) (t : Nat) (h : d.timeRuns = true) : t ≤ (d.until_ t).nowTick := by
  have htm : (d.until_ t).nowTick = (ticksPass t d).nowTick := rfl
  rw [htm]
  unfold ticksPass
  split
  case isTrue hle => exact hle.resolve_left fun k => k h
  case isFalse hlt =>
    dsimp only
    rw [ticksRun_nowTick, ticksRun_nowTick, ticksRun_nowTick, stepsPass_nowTick]
    have hle : slewTicks (t - d.nowTick) d ≤ t - d.nowTick := Nat.min_le_left _ _
    omega

/-! ## Slots -/

/-- A slot of a group that runs takes its conversion into flight. -/
theorem slotStart_group (hrun : adRun a d = true) (ht : d.timeRuns = true) (ho : slotOff (adLp a d) (d.group a).slot < d.perLen) :
    ∃ c p, (slotStart a d).group a = { d.group a with
      slot := (d.group a).slot + 1, serial := (d.group a).serial + 1, flight := (d.group a).flight ++ [c], pairDue := p, inj := none } := by
  unfold slotStart
  dsimp only
  rw [if_neg (by simp [hrun, ht, ho]), group_setGroup, if_pos rfl]
  exact ⟨_, _, rfl⟩

theorem slotStart_nowTick (hrun : adRun a d = true) (ht : d.timeRuns = true) (ho : slotOff (adLp a d) (d.group a).slot < d.perLen) :
    slotTick a d ≤ (slotStart a d).nowTick := by
  have hslip (p : Prop) [Decidable p] (e : Dev) : (if p then e.bump (AD_CALCNT_SLIPS a) else e).nowTick = e.nowTick := by
    split <;> rfl
  have hset (e : Dev) (x : AdGrp) : (e.setGroup a x).nowTick = e.nowTick := rfl
  unfold slotStart
  dsimp only
  rw [if_neg (by simp [hrun, ht, ho]), hset, hslip]
  exact until_nowTick d _ ht

theorem slotStart_past (ho : d.perLen ≤ slotOff (adLp a d) (d.group a).slot) : slotStart a d = d := by
  unfold slotStart
  exact if_pos (.inr (.inr ho))

theorem BroadRoom.group (U : BroadRoom W S) (a : Nat) : GroupRoom a W S where
  toEvents := U.events
  regs k _ := U.units _ (by omega)
  slices k _ := U.units _ (by omega)
  stat := U.units _ (by decide)
  flags := U.units _ (by decide)
  groups := U.parts _ nofun nofun nofun nofun nofun nofun nofun
  group := U.parts _ nofun nofun nofun nofun nofun nofun nofun

/-! ## The queue -/

theorem frame_adQueue (c : Conv) (a inp slice : Nat) (code : Int) (inj ovr : Bool) (E : Events W S) (hq : W AD_QSTAT) (he : W AD_EVT)
    (hS : S .adq) (h : Frame W S d e) : Frame W S d (adQueue c a inp slice code inj ovr e) :=
  frame_ite (frame_notice AD_EVT_QOVF E he (frame_bump AD_QSTAT_DROPCNT 1 hq h))
    (frame_put AD_QSTAT_LEVEL _ hq (frame_setAdq _ hS h))

/-- What a result that enters the queue may change. -/
def queueRegs (a : Nat) : Prop := a = AD_QSTAT ∨ a = AD_EVT ∨ a = NT_EVT ∨ a = NT_CNT1
def queueParts : Part → Prop
  | .adq | .fc | .dr => True
  | _ => False

theorem queueEvents : Events queueRegs queueParts := ⟨.inr (.inr (.inl rfl)), .inr (.inr (.inr rfl)), trivial, trivial⟩

theorem frame_queued (c : Conv) (a inp slice : Nat) (code : Int) (inj ovr : Bool) (h : Frame queueRegs queueParts d e) :
    Frame queueRegs queueParts d (adQueue c a inp slice code inj ovr e) :=
  frame_adQueue c a inp slice code inj ovr queueEvents (.inl rfl) (.inr (.inl rfl)) trivial h

/-! ## The codes of an input -/

/-- A code whose slot is the last goes to the end. -/
theorem codeInsert_last (x : Nat × Int) (l : List (Nat × Int)) (h : ∀ y ∈ l, y.1 < x.1) : codeInsert x l = l ++ [x] := by
  induction l with
  | nil => rfl
  | cons y ys ih =>
    rw [codeInsert, if_neg (by have := h y (.head _); omega), ih fun z hz => h z (.tail _ hz), List.cons_append]

/-- The last code is kept. -/
theorem codeKeep_getLast? (lo : Nat) (x : Nat × Int) (l : List (Nat × Int)) : (codeKeep lo (l ++ [x])).getLast? = some x := by
  unfold codeKeep
  have hle : ((l ++ [x]).filter fun y => decide (y.1 < lo)).length ≤ l.length + 1 := by
    simpa using List.length_filter_le (fun y => decide (y.1 < lo)) (l ++ [x])
  rw [List.drop_append_of_le_length (by omega), List.getLast?_concat]

/-! ## Pairs -/

theorem pairAdd_kept (caln : Nat) (p : Pair) (prev : Option (Nat × Int)) (next : Nat × Int) (g : AdGrp) :
    (pairAdd caln p prev next g).flight = g.flight ∧ (pairAdd caln p prev next g).serial = g.serial := by
  cases prev with
  | none => exact ⟨rfl, rfl⟩
  | some q =>
    unfold pairAdd
    dsimp only
    split <;> exact ⟨rfl, rfl⟩

/-- Pairs that close leave the conversions in flight as they were. -/
theorem pairClose_kept (caln inp : Nat) (l : List (Nat × Int)) (g : AdGrp) :
    (pairClose caln inp l g).flight = g.flight ∧ (pairClose caln inp l g).serial = g.serial := by
  unfold pairClose
  refine List.foldlRecOn (motive := fun x => AdGrp.flight x = g.flight ∧ AdGrp.serial x = g.serial) _ _ ⟨rfl, rfl⟩ ?_
  intro x ⟨hf, hs⟩ p _
  split
  · exact ⟨hf, hs⟩
  · split
    · exact ⟨hf, hs⟩
    · obtain ⟨kf, ks⟩ := pairAdd_kept caln p (l.filter fun x => decide (x.1 < p.slot)).getLast? _ { x with wait := x.wait.erase p }
      exact ⟨kf.trans hf, ks.trans hs⟩

/-! ## A conversion that completes -/

/-- A raw code is at a rail. -/
def atRail (x : Int) : Bool := x == -2048 || x == 2047

/-- The flags that the raw codes of a conversion set. -/
def convFlagged (a : Nat) (x y : Int) (c : Conv) (d : Dev) : Dev :=
  let d := if atRail x then d.raiseBit AD_OVR_OVR (8 * a + c.inp) .notice else d
  if c.out ≠ 0 ∧ atRail y then d.raiseBit AD_OVR_OVR (8 * a + (if c.out = 1 then c.inp else c.out - 2)) .notice else d

/-- With its result in the queue, where the input asks for it. -/
def convQueued (a : Nat) (x y : Int) (c : Conv) (d : Dev) : Dev :=
  let e := convFlagged a x y c d
  if e.flag (AD_INCFG_QEN (8 * a + c.inp)) then adQueue c a c.inp c.slice (adCorrect a c.slice x d) false (atRail x) e else e

/-- The accumulators of an input with code `code`; `g` is the group. -/
def convAin (a : Nat) (c : Conv) (code : Int) (g : AdGrp) (d : Dev) : AinSt :=
  let n := d.ain (8 * a + c.inp)
  let w := windowOf (8 * a + c.inp) c d
  let toW1 := decide (n.wPer < w.1) || (n.wPer == w.1 && decide (n.wm < w.2))
  let toP1 := decide (g.closedPer < if c.off + adLat c.lp < c.len then c.per else c.per + 1)
  { n with
    p0 := if toP1 then n.p0 else accAdd n.p0 code
    p1 := if toP1 then accAdd n.p1 code else n.p1
    w0 := if toW1 then n.w0 else accAdd n.w0 code
    w1 := if toW1 then accAdd n.w1 code else n.w1 }

/-- The group without the conversion, its pairs closed. -/
def convGroup (a : Nat) (y : Int) (c : Conv) (code : Int) (l : List (Nat × Int)) (g : AdGrp) (d : Dev) : AdGrp :=
  let g := { g with flight := g.flight.erase c }
  let g := if c.out = 1 ∧ c.outSlice = d.get (AD_GSTAT_OUT a) then
    { g with wait := g.wait ++ [⟨adCorrect a c.outSlice y d, code, c.inp, c.slot⟩] } else g
  pairClose (d.get (AD_CALCFG_CALN a)) c.inp l g

/-- An injected conversion that ran on the out slice ends. -/
def convInjected (a : Nat) (y : Int) (c : Conv) (d : Dev) : Dev :=
  if 2 ≤ c.out then adQueue c a (c.out - 2) c.outSlice (adCorrect a c.outSlice y d) true (atRail y) (d.put (AD_INJ_GO a) 0) else d

/-- A conversion that completes, put together from its parts. -/
theorem convDone_some (x y : Int) (c : Conv) (h : firstDone (d.group a).flight = some c) :
    convDone a x y d =
      let n := convAin a c (adCorrect a c.slice x d) (d.group a) (convFlagged a x y c d)
      let l := codeInsert (c.slot, adCorrect a c.slice x d) ((convFlagged a x y c d).ain (8 * a + c.inp)).lastC
      let g := convGroup a y c (adCorrect a c.slice x d) l (d.group a) (convQueued a x y c d)
      convInjected a y c (((convQueued a x y c d).setAin (8 * a + c.inp)
        { n with lastC := codeKeep (openSlot g c.inp g.serial) l }).setGroup a g) := by
  unfold convDone
  dsimp only
  rw [h]
  rfl

/-! ## What it leaves -/

theorem convFlagged_ain (x y : Int) (c : Conv) (k : Nat) : (convFlagged a x y c d).ain k = d.ain k := by
  unfold convFlagged
  dsimp only
  split <;> split <;> simp only [raiseBit_ain]

theorem convGroup_kept (y : Int) (c : Conv) (code : Int) (l : List (Nat × Int)) (g : AdGrp) (d : Dev) :
    (convGroup a y c code l g d).flight = g.flight.erase c ∧ (convGroup a y c code l g d).serial = g.serial := by
  unfold convGroup
  dsimp only
  split
  · exact pairClose_kept _ _ _ _
  · exact pairClose_kept _ _ _ _

/-- An injected conversion that ends shows in the queue and in AD_INJ. -/
theorem convInjected_frame (y : Int) (c : Conv) (e : Dev) :
    Frame (fun x => queueRegs x ∨ x = AD_INJ a) queueParts e (convInjected a y c e) :=
  frame_ite (frame_adQueue c a _ _ _ true _ ⟨.inl queueEvents.evt, .inl queueEvents.cnt, trivial, trivial⟩ (.inl (.inl rfl))
    (.inl (.inr (.inl rfl))) trivial (frame_put (AD_INJ_GO a) 0 (.inr rfl) (frame_refl e))) (frame_refl e)

theorem convQueued_frame (x y : Int) (c : Conv) (d : Dev) :
    Frame queueRegs queueParts (convFlagged a x y c d) (convQueued a x y c d) :=
  frame_ite (frame_queued c a _ _ _ false _ (frame_refl _)) (frame_refl _)

/-- The group once a conversion has completed. -/
theorem convDone_group (x y : Int) (c : Conv) (h : firstDone (d.group a).flight = some c) :
    ((convDone a x y d).group a).flight = (d.group a).flight.erase c ∧ ((convDone a x y d).group a).serial = (d.group a).serial := by
  rw [convDone_some x y c h]
  dsimp only
  have hgroup : ∀ e : Dev, (convInjected a y c e).group a = e.group a := fun e =>
    (convInjected_frame y c e).parts (.group a) nofun
  rw [hgroup, group_setGroup, if_pos rfl]
  exact convGroup_kept _ _ _ _ _ _

/-- The input once a conversion has completed. -/
theorem convDone_ain (x y : Int) (c : Conv) (h : firstDone (d.group a).flight = some c) :
    ((convDone a x y d).ain (8 * a + c.inp)).lastC = codeKeep (openSlot ((convDone a x y d).group a) c.inp (d.group a).serial)
        (codeInsert (c.slot, adCorrect a c.slice x d) (d.ain (8 * a + c.inp)).lastC) ∧
    (c.per ≤ (d.group a).closedPer → c.off + adLat c.lp < c.len → ((convDone a x y d).ain (8 * a + c.inp)).p0 =
      accAdd (d.ain (8 * a + c.inp)).p0 (adCorrect a c.slice x d)) := by
  have hserial := (convDone_group x y c h).2
  rw [← hserial]
  rw [convDone_some x y c h]
  dsimp only
  have hgroup : ∀ e : Dev, (convInjected a y c e).group a = e.group a := fun e =>
    (convInjected_frame y c e).parts (.group a) nofun
  have hain : ∀ (e : Dev) k, (convInjected a y c e).ain k = e.ain k := fun e k => (convInjected_frame y c e).parts (.ain k) nofun
  have hset : ∀ (e : Dev) (g : AdGrp) (k : Nat), (e.setGroup a g).ain k = e.ain k := fun e g k => rfl
  simp only [hgroup, hain, hset, group_setGroup, if_pos, ain_setAin, convFlagged_ain]
  refine ⟨trivial, fun hper hopen => ?_⟩
  unfold convAin
  dsimp only
  rw [if_pos hopen, decide_eq_false (by omega), convFlagged_ain]
  rfl

/-- A bit of a sticky field that reads 1 stays, whichever other one sets. -/
theorem bit_raiseBit_kept (d : Dev) (f : Fld) (i j : Nat) (c : Cls) (h : f.lsb + f.width ≤ 32) (hj : j < f.width)
    (h1 : f.addr ≠ NT_EVT) (h2 : f.addr ≠ NT_CNT1) (hb : d.bit f j = true) : (d.raiseBit f i c).bit f j = true := by
  have hw := raiseBit_own d f i c h1 h2
  split at hw
  · exact (bit_congr (get_congr _ _ _ hw)).trans hb
  · refine (bit_congr (get_congr _ _ _ hw)).trans ((bit_putBit d f i j true h hj).trans ?_)
    split
    · rfl
    · exact hb

/-- A raw code at a rail shows. -/
theorem convDone_ovr (x y : Int) (c : Conv) (h : firstDone (d.group a).flight = some c) (hi : 8 * a + c.inp < 32)
    (hx : atRail x = true) : (convDone a x y d).bit AD_OVR_OVR (8 * a + c.inp) = true := by
  have hflag : (convFlagged a x y c d).bit AD_OVR_OVR (8 * a + c.inp) = true := by
    unfold convFlagged
    dsimp only
    rw [if_pos hx]
    have hown := bit_raiseBit_same d AD_OVR_OVR (8 * a + c.inp) .notice (by decide) hi (by decide) (by decide)
    split
    · exact bit_raiseBit_kept _ _ _ _ _ (by decide) hi (by decide) (by decide) hown
    · exact hown
  have hqueued := (convQueued_frame (a := a) x y c d).bit AD_OVR_OVR (8 * a + c.inp) (by unfold queueRegs; decide)
  have hinj := fun e => (convInjected_frame (a := a) y c e).bit AD_OVR_OVR (8 * a + c.inp)
    (by rintro (h | h)
        · exact absurd h (by unfold queueRegs; decide)
        · exact absurd h (by unfold AD_INJ; exact (above_ne _ (by decide)).symm))
  rw [convDone_some x y c h]
  exact (hinj _).trans (hqueued.trans hflag)

theorem quiet_convDone (x y : Int) (d : Dev) : Quiet d (convDone a x y d) := by
  cases h : firstDone (d.group a).flight with
  | none =>
    have hsame : convDone a x y d = d := by unfold convDone; dsimp only; rw [h]
    rw [hsame]
    exact quiet_refl d
  | some c =>
    have hraise (e : Dev) (i : Nat) (he : Frame calmRegs calmParts d e) :
        Frame calmRegs calmParts d (e.raiseBit AD_OVR_OVR i .notice) := frame_raiseBit _ _ _ calmEvents (by decide) nofun he
    have hflag : Frame calmRegs calmParts d (convFlagged a x y c d) :=
      have hx := frame_ite (p := atRail x = true) (hraise d (8 * a + c.inp) (frame_refl d)) (frame_refl d)
      frame_ite (hraise _ _ hx) hx
    have hqueued : Frame calmRegs calmParts d (convQueued a x y c d) :=
      frame_ite (frame_adQueue c a _ _ _ _ _ calmEvents (by decide) (by decide) trivial hflag) hflag
    rw [convDone_some x y c h]
    have hset (n : AinSt) (g : AdGrp) : Frame calmRegs calmParts d (((convQueued a x y c d).setAin (8 * a + c.inp) n).setGroup a g) :=
      frame_setGroup a g trivial trivial (frame_setAin (8 * a + c.inp) n trivial trivial hqueued)
    exact quiet_of_frame (frame_ite (frame_adQueue c a _ _ _ _ _ calmEvents (by decide) (by decide) trivial
      (frame_put (AD_INJ_GO a) 0 (unit_calm (unit_ge rfl)) (hset _ _))) (hset _ _))

end Sys2Proof.Machine

open Sys2Proof Machine

/-- Settles O38, by the conversion that a slot adds and the parts of one that completes. -/
theorem conversions : Obligations.Conversions := by
  unfold Obligations.Conversions
  intro a s h
  have G : GroupRoom a.val calmRegs calmParts := calmBroad.group a.val
  have hquiet : Quiet s.dev (slotStart a.val s.dev) :=
    quiet_of_frame (frame_slotStart G (fun b hb => calmBroad.time b hb) trivial (frame_refl _))
  refine ⟨fun hrun ht ho => answers_running rfl h hquiet ?_, fun ho => answers_running rfl h hquiet ?_,
    fun code outCode c hc hi => answers_running rfl h (quiet_convDone _ _ _) ?_⟩
  · obtain ⟨c, p, hg⟩ := slotStart_group hrun ht ho
    have hnow : slotTick a.val s.dev ≤ (tripOutRelease (slotStart a.val s.dev)).nowTick := by
      rw [Dev.nowTick, tripOutRelease_tm]
      exact slotStart_nowTick hrun ht ho
    rw [tripOutRelease_group, hg]
    exact ⟨rfl, rfl, List.length_append, rfl, hnow⟩
  · rw [slotStart_past ho, tripOutRelease_groups]
  · obtain ⟨hflight, -⟩ := convDone_group code.toInt outCode.toInt c hc
    obtain ⟨hlast, hp0⟩ := convDone_ain code.toInt outCode.toInt c hc
    rw [tripOutRelease_group, tripOutRelease_ain]
    refine ⟨hflight, hlast, fun hall => ?_, hp0, fun hrail => ?_⟩
    · rw [hlast, codeInsert_last _ _ fun y hy => of_decide_eq_true (List.all_eq_true.mp hall y hy)]
      exact codeKeep_getLast? _ _ _
    · rw [(frame_settled _).bit _ _ (by decide)]
      exact convDone_ovr _ _ c hc (by omega) (by simpa [atRail] using hrail)

end

section
/-! PROOFS. Calibration steps, the closing of records and injected conversions (O39). -/

namespace Sys2Proof.Machine

variable {W : Nat → Prop} {S : Part → Prop} {d e : Dev} {s : State} {a : Nat}

/-! ## Steps of calibration

The coefficients move, with AD_EVT where one reaches a limit; the counters of the group and the group itself do not. -/

/-- What a coefficient that moves may change. -/
def coefRegs (x : Nat) : Prop := 0x7200 ≤ x ∨ x = AD_EVT ∨ x = NT_EVT ∨ x = NT_CNT1
def coefParts : Part → Prop
  | .fc | .dr => True
  | _ => False

theorem coefEvents : Events coefRegs coefParts := ⟨.inr (.inr (.inl rfl)), .inr (.inr (.inr rfl)), trivial, trivial⟩

theorem coefRegs_slice (a i : Nat) : coefRegs (AD_SLCOEF a i) ∧ coefRegs (AD_SLSKEW a i) :=
  ⟨.inl (by unfold AD_SLCOEF; omega), .inl (by unfold AD_SLSKEW; omega)⟩

theorem coefRegs_counter (h : a < 4) : ¬ coefRegs (AD_CALCNT a) := by
  unfold coefRegs AD_CALCNT AD_EVT NT_EVT NT_CNT1
  omega

theorem putCoef_frame (f : Fld) (signed : Bool) (v lo hi : Int) (hf : coefRegs f.addr) (h : Frame coefRegs coefParts d e) :
    Frame coefRegs coefParts d (putCoef f signed v lo hi e) := by
  unfold putCoef
  dsimp only
  have hstored := frame_ite (p := signed = true) (frame_putS f (satI v lo hi) hf h) (frame_put f (satI v lo hi).toNat hf h)
  exact frame_ite (frame_notice AD_EVT_CALSAT coefEvents (.inr (.inl rfl)) hstored) hstored

theorem moveCoef_frame (f : Fld) (signed : Bool) (v lo hi : Int) (hf : coefRegs f.addr) (h : Frame coefRegs coefParts d e) :
    Frame coefRegs coefParts d (moveCoef f signed v lo hi e) := by
  unfold moveCoef
  dsimp only
  have hstored := frame_ite (p := signed = true) (frame_putS f v hf h) (frame_put f v.toNat hf h)
  exact frame_ite (frame_notice AD_EVT_CALSAT coefEvents (.inr (.inl rfl)) hstored) hstored

theorem adNormalise_frame (a : Nat) (h : Frame coefRegs coefParts d e) : Frame coefRegs coefParts d (adNormalise a e) :=
  have hc i := (coefRegs_slice a i).1
  frame_foldN 9 _ (fun _ i _ he => moveCoef_frame (AD_SLSKEW_SKEW a i) true _ _ _ (coefRegs_slice a i).2
    (moveCoef_frame (AD_SLCOEF_GAIN a i) false _ _ _ (hc i) (moveCoef_frame (AD_SLCOEF_OFS a i) true _ _ _ (hc i) he))) h

/-- The device with the new coefficients of the slice that is out. -/
def stepCoefs (a : Nat) (d : Dev) : Dev :=
  let g := d.group a
  let caln := d.get (AD_CALCFG_CALN a)
  let r := d.get (AD_GSTAT_OUT a)
  let mu := 2 ^ d.get (AD_CALCFG_MU a)
  let d := putCoef (AD_SLCOEF_OFS a r) true (d.getS (AD_SLCOEF_OFS a r) + rdiv (g.so * 4) (caln * mu)) (-0x0800) 0x0800 d
  let d := if (caln * 65536 : Nat) ≤ g.sq then
      putCoef (AD_SLCOEF_GAIN a r) false ((d.get (AD_SLCOEF_GAIN a r) : Int) - rdiv (g.sg * 32768) (g.sq.toNat * mu)) 0x7000
        0x9000 d else d
  if (caln * 256 : Nat) ≤ g.sl then
    putCoef (AD_SLSKEW_SKEW a r) true
      (d.getS (AD_SLSKEW_SKEW a r) - rdiv (g.ss * (if adLp a d then 1000000 else 250000)) (g.sl.toNat * mu)) (-0x0100) 0x0100 d
  else d

theorem stepCoefs_frame (a : Nat) (d : Dev) : Frame coefRegs coefParts d (stepCoefs a d) := by
  unfold stepCoefs
  extract_lets g caln r mu ofs gain
  obtain ⟨hcoef, hskew⟩ := coefRegs_slice a r
  have hofs : Frame coefRegs coefParts d ofs := putCoef_frame (AD_SLCOEF_OFS a r) true _ _ _ hcoef (frame_refl d)
  have hgain : Frame coefRegs coefParts d gain := frame_ite (putCoef_frame (AD_SLCOEF_GAIN a r) false _ _ _ hcoef hofs) hofs
  exact frame_ite (putCoef_frame (AD_SLSKEW_SKEW a r) true _ _ _ hskew hgain) hgain

/-- The slices that the foreground or a step has calibrated. -/
def doneWith (a : Nat) (d : Dev) : List Nat :=
  if (d.group a).done.contains (d.get (AD_GSTAT_OUT a)) then (d.group a).done else (d.group a).done ++ [d.get (AD_GSTAT_OUT a)]

/-- A step of calibration that ends. -/
theorem calStepEnd_ends (hrun : adRun a d = true) (hw : (d.group a).swapWait = 0)
    (hp : d.get (AD_CALCFG_CALN a) ≤ (d.group a).pairs) (hn : d.flag (AD_GSTAT_NOROT a) = false) :
    calStepEnd a d =
      let e := ((adNormalise a (stepCoefs a d)).count (AD_CALCNT_STEPS a)).setGroup a
        { d.group a with swapWait := 1, done := doneWith a d }
      if 9 ≤ (doneWith a d).length then (e.put (AD_GSTAT_CALOK a) 1).putBit AD_STAT_CALOK a true else e := by
  unfold calStepEnd
  dsimp only
  rw [if_neg (by simp [hrun, hw, hp, hn])]
  rfl

theorem calStepEnd_shows (ha : a < 4) (hrun : adRun a d = true) (hw : (d.group a).swapWait = 0)
    (hp : d.get (AD_CALCFG_CALN a) ≤ (d.group a).pairs) (hn : d.flag (AD_GSTAT_NOROT a) = false) :
    ((calStepEnd a d).group a).swapWait = 1 ∧
      (calStepEnd a d).get (AD_CALCNT_STEPS a) = (d.get (AD_CALCNT_STEPS a) + 1) % 2 ^ 16 := by
  have hsame : (adNormalise a (stepCoefs a d)).get (AD_CALCNT_STEPS a) = d.get (AD_CALCNT_STEPS a) :=
    (adNormalise_frame a (stepCoefs_frame a d)).get _ (coefRegs_counter ha)
  have hcount (e : Dev) : (e.count (AD_CALCNT_STEPS a)).get (AD_CALCNT_STEPS a) = (e.get (AD_CALCNT_STEPS a) + 1) % 2 ^ 16 :=
    ufld_put_mod _ _ _ (by rfl)
  have hset (e : Dev) (x : AdGrp) : (e.setGroup a x).get (AD_CALCNT_STEPS a) = e.get (AD_CALCNT_STEPS a) := rfl
  have hok (e : Dev) : ((e.put (AD_GSTAT_CALOK a) 1).putBit AD_STAT_CALOK a true).get (AD_CALCNT_STEPS a) =
      e.get (AD_CALCNT_STEPS a) :=
    (get_put_ne _ _ _ _ (above_ne _ (by decide)).symm).trans (get_put_ne _ _ _ _ (off_ne _ (by decide)))
  rw [calStepEnd_ends hrun hw hp hn]
  dsimp only
  split
  · rw [hok, hset, hcount, hsame, group_putBit, group_put, group_setGroup, if_pos rfl]
    exact ⟨rfl, rfl⟩
  · rw [hset, hcount, hsame, group_setGroup, if_pos rfl]
    exact ⟨rfl, rfl⟩

/-! ## The swap -/

theorem get_setGroup (d : Dev) (i : Nat) (x : AdGrp) (f : Fld) : (d.setGroup i x).get f = d.get f := rfl

/-- A swap that an injected conversion holds back. -/
theorem sliceSwap_waits (hrun : adRun a d = true) (hw : (d.group a).swapWait = 1)
    (hpos : (d.group a).serial % 8 = ((d.group a).swapPos + 1) % 8) (hb : outBusy (d.group a) (slotTick a d) = true) :
    sliceSwap a d = (d.setGroup a { d.group a with swapWait := 2 }).bump (AD_CALCNT_SLIPS a) := by
  unfold sliceSwap
  dsimp only
  rw [if_neg (by simp [hrun, hw, hpos]), if_pos (.inl hb), if_pos hw]

/-- The calibrated slice takes its place. -/
theorem sliceSwap_swaps (hrun : adRun a d = true) (hw : (d.group a).swapWait = 2 ∨ (d.group a).swapWait = 1 ∧
      (d.group a).serial % 8 = ((d.group a).swapPos + 1) % 8)
    (hb : outBusy (d.group a) (slotTick a d) = false) (hi : (d.group a).inj = none) :
    ∃ g : AdGrp, g.swapWait = 0 ∧ g.pairs = 0 ∧
      sliceSwap a d = (d.put (AD_GSTAT_OUT a) ((d.group a).order.getD ((d.group a).serial % 8) 0)).setGroup a g := by
  unfold sliceSwap
  dsimp only
  rw [if_neg (by rcases hw with hw | ⟨hw, hpos⟩ <;> simp [*]), if_neg (by simp [hb, hi])]
  exact ⟨_, rfl, rfl, rfl⟩

/-! ## Records that close -/

/-- The registers of the inputs. -/
def closeRegs (x : Nat) : Prop := 0x7800 ≤ x
def closeParts (i : Nat) : Part → Prop
  | .dr | .ains => True
  | .ain k => k = i
  | _ => False

theorem frame_adRecord (i : Nat) (win : Bool) (m : Nat) (c : Clo) (key : Nat) (refr : Bool) (hS : S .dr) (h : Frame W S d e) :
    Frame W S d (adRecord i win m c key refr e) := frame_ite (frame_source _ _ _ _ _ _ hS h) h

theorem frame_periodClose (i per : Nat) (hW : ∀ x, closeRegs x → W x) (hS : ∀ p, closeParts i p → S p) (h : Frame W S d e) :
    Frame W S d (periodClose i per e) := by
  have hreg (b : Nat) (hb : 0x7800 ≤ b) : W (b + 0x20 * i) := hW _ (Nat.le_trans hb (Nat.le_add_right _ _))
  unfold periodClose
  dsimp only
  exact frame_adRecord i false 0 _ _ false (hS .dr trivial) (frame_setAin i _ (hS .ains trivial) (hS (.ain i) rfl)
    (frame_put (AD_ACCINF_PSEQ i) _ (hreg _ (by decide)) (frame_putS (AD_MEAN_MEAN i) _ (hreg _ (by decide))
    (frame_putS (PMINMAX_MAX i) _ (hreg _ (by decide)) (frame_putS (PMINMAX_MIN i) _ (hreg _ (by decide))
    (frame_put (PSUMHI_COUNT i) _ (hreg _ (by decide)) (frame_put (PSUMHI_SUMH i) _ (hreg _ (by decide))
    (frame_put (PSUMLO_SUM i) _ (hreg _ (by decide)) h))))))))

theorem adRecord_ain (i : Nat) (win : Bool) (m : Nat) (c : Clo) (key : Nat) (refr : Bool) (d : Dev) (k : Nat) :
    (adRecord i win m c key refr d).ain k = d.ain k :=
  (frame_adRecord (W := fun _ => False) (S := (· = .dr)) i win m c key refr rfl (frame_refl d)).parts (.ain k) nofun

theorem periodClose_frame (i per : Nat) (d : Dev) : Frame closeRegs (closeParts i) d (periodClose i per d) :=
  frame_periodClose i per (fun _ h => h) (fun _ h => h) (frame_refl d)

/-- The accumulators of an input whose period record closes. -/
theorem periodClose_ain (i per : Nat) (d : Dev) :
    ((periodClose i per d).ain i).p0 = (d.ain i).p1 ∧ ((periodClose i per d).ain i).p1 = acc0 := by
  unfold periodClose
  dsimp only
  rw [adRecord_ain, ain_setAin, if_pos rfl]
  exact ⟨rfl, rfl⟩

theorem periodClose_other (i per k : Nat) (d : Dev) (h : k ≠ i) : (periodClose i per d).ain k = d.ain k :=
  (periodClose_frame i per d).parts (.ain k) h

/-- The period records of the first `n` inputs of a group close, each once. -/
theorem periodCloses_ain (per n : Nat) (d : Dev) :
    (∀ k, k < n → ((foldN n (fun d k => periodClose (8 * a + k) per d) d).ain (8 * a + k)).p0 = (d.ain (8 * a + k)).p1 ∧
      ((foldN n (fun d k => periodClose (8 * a + k) per d) d).ain (8 * a + k)).p1 = acc0) ∧
    (∀ k, n ≤ k → (foldN n (fun d k => periodClose (8 * a + k) per d) d).ain (8 * a + k) = d.ain (8 * a + k)) := by
  induction n with
  | zero => exact ⟨fun k hk => absurd hk (Nat.not_lt_zero k), fun _ _ => rfl⟩
  | succ n ih =>
    obtain ⟨hdone, hopen⟩ := ih
    have hsucc : foldN (n + 1) (fun d k => periodClose (8 * a + k) per d) d =
        periodClose (8 * a + n) per (foldN n (fun d k => periodClose (8 * a + k) per d) d) := by
      simp only [foldN, List.range_succ, List.foldl_append, List.foldl_cons, List.foldl_nil]
    rw [hsucc]
    refine ⟨fun k hk => ?_, fun k hk => ?_⟩
    · rcases Nat.lt_succ_iff_lt_or_eq.mp hk with hlt | rfl
      · rw [periodClose_other _ _ _ _ (by omega)]
        exact hdone k hlt
      · obtain ⟨hp0, hp1⟩ := periodClose_ain (8 * a + k) per (foldN k (fun d k => periodClose (8 * a + k) per d) d)
        rw [hp0, hopen k (Nat.le_refl k)]
        exact ⟨rfl, hp1⟩
    · rw [periodClose_other _ _ _ _ (by omega)]
      exact hopen k (by omega)

/-- The period records of a group that runs close: the device before, with time moved on and MMISS shown. -/
def recordsDue (a : Nat) (inTime : Bool) (d : Dev) : Dev :=
  let d := if (d.group a).closedPer = d.tm.jAbs then d.until_ d.nextB else d
  if inTime then d else d.raise AD_EVT_MMISS .notice

theorem periodRecords_close (inTime : Bool) (hrun : adRun a d = true) (hj : (d.group a).closedPer ≤ d.tm.jAbs) :
    periodRecords a inTime d = (foldN 8 (fun e k => periodClose (8 * a + k) (d.group a).closedPer e) (recordsDue a inTime d)).onGroup a
      fun g => { g with closedPer := g.closedPer + 1 } := by
  unfold periodRecords
  dsimp only
  rw [if_neg (by simp [hrun, hj])]
  rfl

theorem recordsDue_ain (inTime : Bool) (d : Dev) (k : Nat) : (recordsDue a inTime d).ain k = d.ain k := by
  have htime : (if (d.group a).closedPer = d.tm.jAbs then d.until_ d.nextB else d).ain k = d.ain k := by split <;> rfl
  cases inTime
  · exact (raise_ain _ _ _ _).trans htime
  · exact htime

theorem recordsDue_group (inTime : Bool) (d : Dev) (k : Nat) : (recordsDue a inTime d).group k = d.group k := by
  have htime : (if (d.group a).closedPer = d.tm.jAbs then d.until_ d.nextB else d).group k = d.group k := by split <;> rfl
  cases inTime
  · exact (raise_group _ _ _ _).trans htime
  · exact htime

theorem recordsDue_late (d : Dev) : (recordsDue a false d).flag AD_EVT_MMISS = true :=
  uflag_raise _ AD_EVT_MMISS .notice (by decide) rfl rfl

/-- What the period records of all inputs may change. -/
def recordParts : Part → Prop
  | .dr | .ains | .ain _ => True
  | _ => False

theorem periodCloses_frame (per n : Nat) (h : Frame W S d e) (hW : ∀ x, closeRegs x → W x) (hS : ∀ p, recordParts p → S p) :
    Frame W S d (foldN n (fun d k => periodClose (8 * a + k) per d) e) :=
  frame_foldN n _ (fun _ k _ he => frame_periodClose (8 * a + k) per hW
    (fun p hp => hS p (by cases p <;> first | exact hp | trivial)) he) h

/-- The period records of a group that runs. -/
theorem periodRecords_shows (inTime : Bool) (hrun : adRun a d = true) (hj : (d.group a).closedPer ≤ d.tm.jAbs) :
    ((periodRecords a inTime d).group a).closedPer = (d.group a).closedPer + 1 ∧
    (∀ k, k < 8 → ((periodRecords a inTime d).ain (8 * a + k)).p0 = (d.ain (8 * a + k)).p1 ∧
      ((periodRecords a inTime d).ain (8 * a + k)).p1 = acc0) ∧
    (inTime = false → (periodRecords a inTime d).flag AD_EVT_MMISS = true) := by
  have hfr := periodCloses_frame (a := a) (d.group a).closedPer 8 (frame_refl (recordsDue a inTime d)) (fun _ h => h) (fun _ h => h)
  obtain ⟨hclosed, -⟩ := periodCloses_ain (a := a) (d.group a).closedPer 8 (recordsDue a inTime d)
  have hon (e : Dev) (f : AdGrp → AdGrp) : (e.onGroup a f).flag AD_EVT_MMISS = e.flag AD_EVT_MMISS := rfl
  rw [periodRecords_close inTime hrun hj]
  refine ⟨?_, fun k hk => ?_, fun hlate => ?_⟩
  · have hgroup : (foldN 8 (fun e k => periodClose (8 * a + k) (d.group a).closedPer e) (recordsDue a inTime d)).group a = d.group a :=
      (hfr.parts (.group a) nofun).trans (recordsDue_group _ _ _)
    rw [group_onGroup_same]
    exact congrArg (fun g : AdGrp => g.closedPer + 1) hgroup
  · rw [ain_onGroup, ← recordsDue_ain (a := a) inTime d]
    exact hclosed k hk
  · rw [hon, hfr.flag AD_EVT_MMISS (by unfold closeRegs; decide), hlate]
    exact recordsDue_late d

theorem quiet_periodRecords (inTime : Bool) (d : Dev) : Quiet d (periodRecords a inTime d) := by
  unfold periodRecords
  dsimp only
  refine quiet_of_frame (frame_ite (frame_refl d) ?_)
  have htime : Frame calmRegs calmParts d (if (d.group a).closedPer = d.tm.jAbs then d.until_ d.nextB else d) :=
    frame_ite (frame_until _ calmBroad.time trivial (frame_refl d)) (frame_refl d)
  have hdue := frame_ite (p := inTime = true) htime (frame_notice AD_EVT_MMISS calmEvents (by decide) htime)
  exact frame_onGroup a _ trivial trivial (periodCloses_frame _ 8 hdue
    (fun x hx => by unfold closeRegs at hx; unfold calmRegs GL_MODE; omega) (fun p hp => by cases p <;> trivial))

/-! ## Windows that close -/

theorem frame_amEval (i : Nat) (c : Clo) (E : Events W S) (hW : W (FC_AMSTAT i)) (h : Frame W S d e) :
    Frame W S d (amEval i c e) := by
  unfold amEval
  extract_lets act out shown run counted
  have hshown : Frame W S d shown := frame_putB (FC_AMSTAT_OUT i) out hW h
  have hcounted : Frame W S d counted := frame_bump (FC_AMSTAT_RUN i) 1 hW hshown
  refine frame_ite h (frame_ite (frame_put (FC_AMSTAT_RUN i) 0 hW hshown) (frame_ite hcounted ?_))
  refine frame_raise (FC_AMSTAT_HIT i) _ E hW ?_ hcounted
  split
  · exact nofun
  · split <;> exact nofun

theorem frame_ibDeliver (i : Nat) (c : Clo) (hs : S .regions) (hr : ∀ g, S (.region g)) (h : Frame W S d e) :
    Frame W S d (ibDeliver i c e) :=
  frame_ite h (frame_foldN 8 _ (fun _ g _ he => frame_ite (frame_onRegion g _ hs (hr g) he) he) h)

/-- A window's record stands in the registers of its input. -/
def windowShown (i : Nat) (d : Dev) : Dev :=
  let n := d.ain i
  let d := if n.wPer = d.tm.jAbs then d.at_ (gridOf i n.wm d.perLen d) else d
  let x := n.w0
  let d := (d.put (WSUMLO_SUM i) (ofS 32 x.sum)).put (WSUMHI_SUMH i) (ofS 40 x.sum / 2 ^ 32)
  let d := ((d.put (WSUMHI_COUNT i) x.cnt).putS (WMINMAX_MIN i) x.mn).putS (WMINMAX_MAX i) x.mx
  d.put (AD_ACCINF_WIDX i) n.wm

/-- What a window that closes delivers. -/
def windowRecord (i : Nat) (d : Dev) : Clo :=
  let n := d.ain i
  adDeliver i n.wPer n.wm n.w0 (if n.wPer = d.tm.jAbs then d.at_ (gridOf i n.wm d.perLen d) else d)

/-- The accumulators of an input whose window closes. -/
def windowNext (i : Nat) (d : Dev) : AinSt :=
  let n := d.ain i
  let wd := 2 ^ d.get (AD_INCFG_WDIV i)
  let c := windowRecord i d
  let last := decide (wd ≤ n.wm)
  { n with
    w0 := n.w1
    w1 := acc0
    wC := some c
    wB := if last then some { c with per := n.wPer + 1 } else n.wB
    wm := if last then 1 else n.wm + 1
    wPer := if last then n.wPer + 1 else n.wPer }

theorem windowNext_shows (i : Nat) (d : Dev) : (windowNext i d).w0 = (d.ain i).w1 ∧ (windowNext i d).w1 = acc0 ∧
    (windowNext i d).wm = if 2 ^ d.get (AD_INCFG_WDIV i) ≤ (d.ain i).wm then 1 else (d.ain i).wm + 1 := by
  refine ⟨rfl, rfl, ?_⟩
  unfold windowNext
  simp only [decide_eq_true_eq]

/-- A window of an input that runs closes. -/
theorem windowClose_closes {i : Nat} (hrun : adRun (i / 8) d = true) (hj : (d.ain i).wPer ≤ d.tm.jAbs) :
    windowClose i d =
      let e := (windowShown i d).setAin i (windowNext i d)
      let e := amEval i (windowRecord i d) (adRecord i true (d.ain i).wm (windowRecord i d) e.nowNs false e)
      if decide (2 ^ d.get (AD_INCFG_WDIV i) ≤ (d.ain i).wm) then
        ibDeliver i { windowRecord i d with per := (d.ain i).wPer + 1 } e else e := by
  unfold windowClose
  dsimp only
  rw [if_neg (by simp [hrun, hj])]
  rfl

/-- The accumulators of an input whose window has closed. -/
theorem windowClose_ain {i : Nat} (hrun : adRun (i / 8) d = true) (hj : (d.ain i).wPer ≤ d.tm.jAbs) :
    (windowClose i d).ain i = windowNext i d := by
  have hrec (w : Bool) (m : Nat) (c : Clo) (key : Nat) (r : Bool) (e : Dev) :
      (amEval i c (adRecord i w m c key r e)).ain i = e.ain i :=
    ((frame_amEval (W := fun x => x = FC_AMSTAT i ∨ x = NT_EVT ∨ x = NT_CNT1) (S := fun p => p = .fc ∨ p = .dr) i c
      ⟨.inr (.inl rfl), .inr (.inr rfl), .inl rfl, .inr rfl⟩ (.inl rfl) (frame_refl _)).parts (.ain i) nofun).trans
      (adRecord_ain _ _ _ _ _ _ _ _)
  have hib (c : Clo) (e : Dev) : (ibDeliver i c e).ain i = e.ain i :=
    (frame_ibDeliver (W := fun _ => False) (S := fun p => p = .regions ∨ ∃ g, p = .region g) i c (.inl rfl)
      (fun g => .inr ⟨g, rfl⟩) (frame_refl _)).parts (.ain i) nofun
  rw [windowClose_closes hrun hj]
  dsimp only
  split
  · rw [hib, hrec, ain_setAin, if_pos rfl]
  · rw [hrec, ain_setAin, if_pos rfl]

theorem quiet_windowClose (i : Nat) (hi : i < 32) (d : Dev) : Quiet d (windowClose i d) := by
  by_cases hstop : ¬ adRun (i / 8) d ∨ d.tm.jAbs < (d.ain i).wPer
  · have hsame : windowClose i d = d := if_pos hstop
    rw [hsame]
    exact quiet_refl d
  · obtain ⟨hrun, hj⟩ := not_or.mp hstop
    rw [windowClose_closes (not_not.mp hrun) (Nat.le_of_not_lt hj)]
    dsimp only
    have hreg (b : Nat) (hb : Nat.ble 0x7000 b = true) : calmRegs (b + 0x20 * i) := unit_calm (unit_ge hb)
    have htime : Frame calmRegs calmParts d
        (if (d.ain i).wPer = d.tm.jAbs then d.at_ (gridOf i (d.ain i).wm d.perLen d) else d) :=
      frame_ite (frame_at_calm _ _) (frame_refl d)
    have hshown : Frame calmRegs calmParts d (windowShown i d) :=
      frame_put (AD_ACCINF_WIDX i) _ (hreg _ rfl) (frame_putS (WMINMAX_MAX i) _ (hreg _ rfl) (frame_putS (WMINMAX_MIN i) _ (hreg _ rfl)
      (frame_put (WSUMHI_COUNT i) _ (hreg _ rfl) (frame_put (WSUMHI_SUMH i) _ (hreg _ rfl)
      (frame_put (WSUMLO_SUM i) _ (hreg _ rfl) htime)))))
    have hset (n : AinSt) : Frame calmRegs calmParts d ((windowShown i d).setAin i n) := frame_setAin i n trivial trivial hshown
    have hrec (n : AinSt) (m : Nat) (c : Clo) (key : Nat) : Frame calmRegs calmParts d
        (amEval i c (adRecord i true m c key false ((windowShown i d).setAin i n))) :=
      frame_amEval i c calmEvents (by unfold calmRegs GL_MODE FC_AMSTAT; omega) (frame_adRecord i true m c key false trivial (hset n))
    exact quiet_of_frame (frame_ite (frame_ibDeliver i _ trivial (fun _ => trivial) (hrec _ _ _ _)) (hrec _ _ _ _))

/-! ## Injected conversions -/

/-- The request names its input in the low three bits and asks with the fourth. -/
theorem adInjWord (input : BitVec 3) : (BitVec.ofNat 32 (input.toNat + 8)).toNat % 8 = input.toNat ∧
    bitOf (BitVec.ofNat 32 (input.toNat + 8)).toNat 3 = true := by
  have hlt := input.isLt
  rw [BitVec.toNat_ofNat, Nat.mod_eq_of_lt (Nat.lt_trans (Nat.add_lt_add_right hlt 8) (by decide))]
  unfold bitOf
  exact ⟨by omega, beq_iff_eq.mpr (by omega)⟩

/-- What an accepted write of AD_INJ does. -/
def adInjWritten (a : Nat) (input : BitVec 3) (d : Dev) : Dev :=
  let d := d.put (AD_INJ_INPUT a) input.toNat
  let g := d.group a
  let r := d.get (AD_GSTAT_OUT a)
  let swapNext := g.swapWait == 2 || (g.swapWait == 1 && g.serial % 8 == (g.swapPos + 1) % 8)
  let pairNext := decide (g.pairDue ≤ g.serial) && !d.flag (AD_GSTAT_NOROT a)
  let idle := g.inj.isNone && !outConverts g r d.nowTick && d.bit (AD_GSTAT_SLOK a) r
  if adRun a d ∧ idle ∧ ¬ swapNext ∧ ¬ pairNext then
    ((d.bump (AD_INJCNT_ACCEPT a)).put (AD_INJ_GO a) 1).onGroup a fun g => { g with inj := some input.toNat }
  else d.bump (AD_INJCNT_DROP a)

/-- A write of the request sees the group as it was. -/
theorem adInjInput_same (a n : Nat) (d : Dev) (x : Fld) (h : x.addr ≠ AD_INJ a) : (d.put (AD_INJ_INPUT a) n).get x = d.get x :=
  get_put_ne _ _ _ _ h.symm

theorem adRun_put (b : Nat) (x : Fld) (v : Nat) (h : x.addr ≠ AD_STAT) : adRun b (d.put x v) = adRun b d :=
  bit_congr (get_put_ne _ _ _ _ h)

/-- A request that nothing else on the out slice stands against is accepted. -/
theorem adInjWritten_accepts (input : BitVec 3) (hrun : adRun a d = true) (hi : (d.group a).inj = none)
    (hw : (d.group a).swapWait = 0) (ho : outConverts (d.group a) (d.get (AD_GSTAT_OUT a)) d.nowTick = false)
    (hs : d.bit (AD_GSTAT_SLOK a) (d.get (AD_GSTAT_OUT a)) = true) (hp : (d.group a).serial < (d.group a).pairDue) :
    adInjWritten a input d = (((d.put (AD_INJ_INPUT a) input.toNat).bump (AD_INJCNT_ACCEPT a)).put (AD_INJ_GO a) 1).onGroup a
      fun g => { g with inj := some input.toNat } := by
  have hout : (d.put (AD_INJ_INPUT a) input.toNat).get (AD_GSTAT_OUT a) = d.get (AD_GSTAT_OUT a) :=
    adInjInput_same a _ d _ (off_ne _ (by decide))
  have hslok : (d.put (AD_INJ_INPUT a) input.toNat).bit (AD_GSTAT_SLOK a) (d.get (AD_GSTAT_OUT a)) = true :=
    (bit_congr (adInjInput_same a _ d _ (off_ne _ (by decide)))).trans hs
  have hnow : (d.put (AD_INJ_INPUT a) input.toNat).nowTick = d.nowTick := rfl
  unfold adInjWritten
  dsimp only
  rw [if_pos]
  rw [adRun_put a _ _ (above_ne _ (by decide)), group_put, hout, hslok, hnow, ho, hi, hw]
  simp [hrun, Nat.not_le.mpr hp]

/-- A counter of AD_INJCNT after the request has been counted. -/
theorem adInjCounted (a n : Nat) (d : Dev) (x : Fld) (hx : x.addr = AD_INJCNT a) (hw : x.width = 16)
    (h : Nat.ble (x.lsb + x.width) 32 = true) : ((d.put (AD_INJ_INPUT a) n).bump x).get x = satInc 16 (d.get x) 1 := by
  rw [ufld_bump _ x 1 h, adInjInput_same a n d x (hx ▸ off_ne _ (by decide)), hw]

theorem adInjAccepted_shows (a n : Nat) (d : Dev) (f : AdGrp → AdGrp) :
    ((((d.put (AD_INJ_INPUT a) n).bump (AD_INJCNT_ACCEPT a)).put (AD_INJ_GO a) 1).onGroup a f).flag (AD_INJ_GO a) = true ∧
    ((((d.put (AD_INJ_INPUT a) n).bump (AD_INJCNT_ACCEPT a)).put (AD_INJ_GO a) 1).onGroup a f).get (AD_INJCNT_ACCEPT a) =
      satInc 16 (d.get (AD_INJCNT_ACCEPT a)) 1 := by
  have hflag (e : Dev) : (e.onGroup a f).flag (AD_INJ_GO a) = e.flag (AD_INJ_GO a) := rfl
  rw [hflag, uflag_put_one _ (AD_INJ_GO a) rfl rfl, get_onGroup, get_put_ne _ _ _ _ (off_ne _ (by decide))]
  exact ⟨rfl, adInjCounted a n d (AD_INJCNT_ACCEPT a) rfl rfl rfl⟩

/-- A request to a group that does not run is dropped. -/
theorem adInjWritten_drops (input : BitVec 3) (hrun : adRun a d = false) :
    adInjWritten a input d = (d.put (AD_INJ_INPUT a) input.toNat).bump (AD_INJCNT_DROP a) := by
  unfold adInjWritten
  dsimp only
  rw [if_neg]
  rw [adRun_put a _ _ (above_ne _ (by decide)), hrun]
  exact fun k => absurd k.1 (by decide)

/-- What the command of an injected conversion answers where the write is allowed. -/
theorem answers_adInj {P : State → Prop} {o : Origin} {a : Fin 4} {input : BitVec 3} (h : s.awake) (hl : s.dev.mode ≠ modeLOAD)
    (hp : s.dev.permits o .meas = true) (hf : Frame calmRegs calmParts s.dev (adInjWritten a.val input s.dev))
    (hP : P { s with dev := tripOutRelease (adInjWritten a.val input s.dev) }) : Answers (.adInjGo o a input) s P := by
  obtain ⟨hlow, hgo⟩ := adInjWord input
  have heq : (wrAdInj o a.val (BitVec.ofNat 32 (input.toNat + 8)) s.dev).2 = adInjWritten a.val input s.dev := by
    unfold wrAdInj
    rw [shellWrite_accepted (writable_of_awake h hl) hp rfl]
    dsimp only
    rw [hlow, hgo]
    exact if_neg (by decide)
  refine answers_within (f := fun d => (wrAdInj o a.val (BitVec.ofNat 32 (input.toNat + 8)) d).2) rfl h ?_ ?_ <;> rw [heq]
  · exact quiet_of_frame hf
  · exact hP

theorem adInjWritten_frame (a : Nat) (input : BitVec 3) (d : Dev) : Frame calmRegs calmParts d (adInjWritten a input d) := by
  have G := calmBroad.group a
  have hput : Frame calmRegs calmParts d (d.put (AD_INJ_INPUT a) input.toNat) := frame_put _ _ (unit_calm (unit_ge rfl)) (frame_refl d)
  exact frame_ite (frame_onGroup a _ trivial trivial (frame_put (AD_INJ_GO a) 1 (unit_calm (unit_ge rfl))
    (frame_bump (AD_INJCNT_ACCEPT a) 1 (unit_calm (unit_ge rfl)) hput))) (frame_bump (AD_INJCNT_DROP a) 1 (unit_calm (unit_ge rfl)) hput)

end Sys2Proof.Machine

open Sys2Proof Machine

/-- Settles O39, by the effect of each command of calibration, of records and of injected conversions. -/
theorem measurementRecords : Obligations.MeasurementRecords := by
  unfold Obligations.MeasurementRecords
  intro a s h
  have G : GroupRoom a.val calmRegs calmParts := calmBroad.group a.val
  have hswap : Quiet s.dev (sliceSwap a.val s.dev) := quiet_of_frame (frame_sliceSwap G (frame_refl _))
  refine ⟨fun hrun hw hp hn => ?_, fun hrun hw hpos hb => ?_, fun hrun hw hb hi => ?_, fun inTime hrun hj => ?_,
    fun i hrun hj => ?_, fun o input hl hp => ⟨fun hrun hi hw ho hs hd => ?_, fun hrun => ?_⟩⟩
  · refine answers_running rfl h (quiet_of_frame (frame_calStepEnd G (frame_refl _))) ?_
    rw [tripOutRelease_group, settled_get _ (AD_CALCNT_STEPS a.val) (unit_ge rfl)]
    exact calStepEnd_shows a.isLt hrun hw hp hn
  · refine answers_running rfl h hswap ?_
    rw [tripOutRelease_group, settled_get _ (AD_GSTAT_OUT a.val) (unit_ge rfl), settled_get _ (AD_CALCNT_SLIPS a.val) (unit_ge rfl),
      sliceSwap_waits hrun hw hpos hb, group_bump, group_setGroup, if_pos rfl,
      ufld_bump _ (AD_CALCNT_SLIPS a.val) _ rfl, get_setGroup]
    exact ⟨rfl, get_put_ne _ _ _ _ (off_ne _ (by decide)), rfl⟩
  · obtain ⟨g, hg0, hgp, heq⟩ := sliceSwap_swaps hrun hw hb hi
    refine answers_running rfl h hswap ?_
    rw [tripOutRelease_group, settled_get _ (AD_GSTAT_OUT a.val) (unit_ge rfl), heq, group_setGroup, if_pos rfl,
      get_setGroup, ufld_put_mod _ (AD_GSTAT_OUT a.val) _ rfl]
    exact ⟨hg0, hgp, rfl⟩
  · refine answers_running rfl h (quiet_periodRecords inTime s.dev) ?_
    simp only [tripOutRelease_group, tripOutRelease_ain]
    rw [settled_flag _ AD_EVT_MMISS (by decide)]
    exact periodRecords_shows inTime hrun hj
  · refine answers_running rfl h (quiet_windowClose i.val i.isLt s.dev) ?_
    rw [tripOutRelease_ain, windowClose_ain hrun hj]
    exact windowNext_shows i.val s.dev
  · refine answers_adInj h hl hp (adInjWritten_frame _ _ _) ?_
    rw [tripOutRelease_group, settled_flag _ (AD_INJ_GO a.val) (unit_ge rfl), settled_get _ (AD_INJCNT_ACCEPT a.val) (unit_ge rfl),
      adInjWritten_accepts input hrun hi hw ho hs hd, group_onGroup_same]
    exact ⟨rfl, adInjAccepted_shows a.val input.toNat s.dev _⟩
  · refine answers_adInj h hl hp (adInjWritten_frame _ _ _) ?_
    rw [tripOutRelease_group, settled_get _ (AD_INJCNT_DROP a.val) (unit_ge rfl), adInjWritten_drops input hrun]
    exact ⟨rfl, adInjCounted a.val input.toNat s.dev (AD_INJCNT_DROP a.val) rfl rfl rfl⟩

end

section
/-! PROOFS. A lane that enters a state: what LN_STAT reads then, which flags stay, and what stays of a lane's own record. -/

namespace Sys2Proof.Machine

variable {W : Nat → Prop} {S : Part → Prop} {d e : Dev} {l k q st : Nat}

/-! ## What stays of a lane's record -/

/-- A lane's record but for the taps of its equaliser, the frame under way, and the counts of reach and delay. -/
def LaneRest (x y : LaneSt) : Prop :=
  { y with eqGen := x.eqGen, eq := x.eq, sof := x.sof, hopRun := x.hopRun, reach := x.reach, e2eSum := x.e2eSum, e2eN := x.e2eN } = x

theorem laneRest_refl (x : LaneSt) : LaneRest x x := rfl

theorem laneRest_trans {x y z : LaneSt} (h : LaneRest x y) (k : LaneRest y z) : LaneRest x z := by
  unfold LaneRest at *
  rw [← k] at h
  exact h

/-- A change of one lane that leaves the rest of it. -/
theorem laneRest_onLane {x : LaneSt} {f : LaneSt → LaneSt} (i : Nat) (hf : ∀ x, LaneRest x (f x)) (h : LaneRest x (e.lane k)) :
    LaneRest x ((e.onLane i f).lane k) := by
  by_cases hik : i = k
  · subst hik
    rw [lane_onLane_same]
    exact laneRest_trans h (hf _)
  · rw [lane_onLane_ne _ _ _ _ hik]
    exact h

theorem laneRest_ite {p : Prop} [Decidable p] {x : LaneSt} {e f : Dev} (he : LaneRest x (e.lane k)) (hf : LaneRest x (f.lane k)) :
    LaneRest x ((if p then e else f).lane k) := by split <;> assumption

/-- An operation whose footprint leaves a lane leaves its record. -/
theorem laneRest_frame {x : LaneSt} (h : Frame W S e d) (hk : ¬ S (.lane k)) (he : LaneRest x (e.lane k)) : LaneRest x (d.lane k) := by
  rw [show d.lane k = e.lane k from h.parts (.lane k) hk]
  exact he

theorem laneRest_put {x : LaneSt} (f : Fld) (v : Nat) (h : LaneRest x (e.lane k)) : LaneRest x ((e.put f v).lane k) := h

/-! ## The chain follows -/

theorem e2eReset_laneRest (q : Nat) (h : LaneRest (d.lane k) (e.lane k)) : LaneRest (d.lane k) ((e2eReset q e).lane k) :=
  laneRest_put (LN_TMXE2E_VALID (2 * q + 1)) 0 (laneRest_onLane (2 * q + 1) (fun _ => rfl)
    (laneRest_put (LN_TMXE2E_VALID (2 * q)) 0 (laneRest_onLane (2 * q) (fun _ => rfl) h)))

theorem hopReset_laneRest (q : Nat) (h : LaneRest (d.lane k) (e.lane k)) :
    LaneRest (d.lane k) ((foldN 2 (fun d e => d.onLane (2 * q + e) fun x => { x with hopRun := 0 }) e).lane k) :=
  List.foldlRecOn (motive := fun e : Dev => LaneRest (d.lane k) (e.lane k)) _ _ h
    fun _ he i _ => laneRest_onLane (2 * q + i) (fun _ => rfl) he

/-- Every part but the lanes. -/
def noLane : Part → Prop
  | .lanes | .lane _ => False
  | _ => True

theorem quireRoom_noLane (q : Nat) : QuireRoom q (fun _ => True) noLane :=
  { evt := trivial, cnt := trivial, fc := trivial, dr := trivial, regs := fun _ _ => trivial, quires := trivial, quire := trivial }

theorem chainUpdate_laneRest (q : Nat) (lane : Bool) (d : Dev) (k : Nat) : LaneRest (d.lane k) ((chainUpdate q lane d).lane k) := by
  have R := quireRoom_noLane q
  unfold chainUpdate
  extract_lets refs old new counted _ changed
  have hrefs : LaneRest (d.lane k) (refs.lane k) := laneRest_ite (laneRest_frame (frame_refsUpdate R (frame_refl d)) nofun rfl) rfl
  have hcounted : LaneRest (d.lane k) (counted.lane k) :=
    hopReset_laneRest q (laneRest_put (QU_STAT_CHAIN q) new hrefs)
  have hchanged : LaneRest (d.lane k) (changed.lane k) := by
    refine laneRest_ite ?_ ?_
    · have hrejoin := frame_ite (p := (counted.quire q).intact = true)
        (frame_notice (W := fun _ => True) (QU_EVT_REJOIN q) R.toEvents trivial (frame_refl counted)) (frame_refl counted)
      exact laneRest_frame (frame_onQuire q _ R.quires R.quire hrejoin) nofun hcounted
    · exact e2eReset_laneRest q
        (laneRest_frame (frame_service (W := fun _ => True) (QU_EVT_BREAK q) R.toEvents trivial (frame_refl counted)) nofun hcounted)
  have hwrite : ∀ e : Dev, LaneRest (d.lane k) (e.lane k) → LaneRest (d.lane k) ((slotWrite q e).lane k) := fun e he =>
    laneRest_frame (frame_slotWrite R (frame_refl e)) nofun he
  exact laneRest_ite (laneRest_ite (hwrite _ hrefs) hrefs) (laneRest_ite hchanged (hwrite _ hchanged))

/-- The chain of a unit leaves the lanes' registers but LN_TMXE2E. -/
theorem chainUpdate_word (q : Nat) (lane : Bool) (d : Dev) (a : Nat) (ha : a < 0x20000) (h0 : a ≠ LN_TMXE2E (2 * q))
    (h1 : a ≠ LN_TMXE2E (2 * q + 1)) (h2 : a ≠ NT_EVT) (h3 : a ≠ NT_CNT1) : (chainUpdate q lane d).word a = d.word a := by
  have R : ChainRoom q (· ≠ a) (fun _ => True) :=
    { evt := h2.symm, cnt := h3.symm, fc := trivial, dr := trivial, regs := fun k _ => by omega, quires := trivial, quire := trivial
      e2eA := h0.symm, e2eB := h1.symm, lanes := trivial, laneA := trivial, laneB := trivial }
  exact (frame_chainUpdate R lane (frame_refl d)).words a (fun h => h rfl)

/-! ## A lane that enters a state -/

/-- LN_STAT as entry to a state leaves it. -/
def statSet (l st : Nat) (d : Dev) : Dev :=
  let d := d.put (LN_STAT_STATE l) st
  let d := if st = lnDOWN ∨ st = lnACQUIRE ∨ st = lnFAILED then
    ((d.put (LN_STAT_STEP l) 0).put (LN_STAT_LOCK l) 0).put (LN_STAT_ORGV l) 0 else d
  if st = lnFASTRT then d.put (LN_STAT_LOCK l) 0 else d

/-- A lane's record as entry to a state leaves it. -/
def restarted (st : Nat) (x : LaneSt) : LaneSt :=
  if st = lnDOWN ∨ st = lnACQUIRE ∨ st = lnFAILED then
    { x with target := none, passed := false, fell := false, orgRun := 0, tmx := [] } else x

theorem word_put_congr (x : Fld) (v a : Nat) (h : d.word a = e.word a) : (d.put x v).word a = (e.put x v).word a := by
  by_cases hx : x.addr = a
  · subst hx
    simp only [Dev.put, word_setWord_same, h]
  · rw [word_put_ne _ _ _ _ hx, word_put_ne _ _ _ _ hx, h]

theorem word_ite {p : Prop} [Decidable p] {a : Nat} {w : Word} (hd : d.word a = w) (he : e.word a = w) :
    (if p then d else e).word a = w := by split <;> assumption

theorem word_ite_congr {p : Prop} [Decidable p] {a : Nat} {d' e' : Dev} (hd : d.word a = d'.word a) (he : e.word a = e'.word a) :
    (if p then d else e).word a = (if p then d' else e').word a := by split <;> assumption

theorem word_send (x : Sent) (d : Dev) (a : Nat) : (d.send x).word a = d.word a := rfl
theorem word_laneOut (l : Nat) (x : Sent) (d : Dev) (a : Nat) : (laneOut l x d).word a = d.word a := word_ite rfl rfl
theorem word_eqAdapt (l : Nat) (d : Dev) (a : Nat) : (eqAdapt l d).word a = d.word a := rfl
theorem word_eqFreeze (l : Nat) (d : Dev) (a : Nat) (h : LN_EQ l ≠ a) : (eqFreeze l d).word a = d.word a := word_put_ne _ _ _ _ h

/-- A flag of the lane leaves LN_STAT. -/
theorem raise_stat (f : Fld) (c : Cls) (l : Nat) (d : Dev) (h : f.addr = LN_EVT l) : (d.raise f c).word (LN_STAT l) = d.word (LN_STAT l) :=
  raise_word d f c _ (h ▸ off_ne _ (by decide)) (above_ne _ (by decide)) (above_ne _ (by decide))

theorem laneSet_stat (l st : Nat) (d : Dev) : (laneSet l st d).word (LN_STAT l) = (statSet l st d).word (LN_STAT l) := by
  have hcnt : LN_CNT l ≠ LN_STAT l := off_ne _ (by decide)
  unfold laneSet statSet
  extract_lets old on entered sof cleared fresh hop lock fast back failed state cleared'
  have hstate : entered.word (LN_STAT l) = state.word (LN_STAT l) := word_put_congr _ _ _ (word_eqAdapt _ _ _)
  have hsof : sof.word (LN_STAT l) = state.word (LN_STAT l) := word_ite hstate ((word_onLane _ _ _ _).trans hstate)
  have hfresh : fresh.word (LN_STAT l) = cleared'.word (LN_STAT l) :=
    
    word_ite_congr ((word_onLane _ _ _ _).trans (word_put_congr _ _ _ (word_put_congr _ _ _ (word_put_congr _ _ _ hsof)))) hsof
  have hhop : hop.word (LN_STAT l) = cleared'.word (LN_STAT l) := word_ite hfresh ((word_onLane _ _ _ _).trans hfresh)
  have hfast : fast.word (LN_STAT l) = (if st = lnFASTRT then cleared'.put (LN_STAT_LOCK l) 0 else cleared').word (LN_STAT l) := by
    refine word_ite_congr ?_ hhop
    exact (word_put_ne _ (LN_CNT_FASTCNT l) _ _ hcnt).trans ((raise_stat (LN_EVT_FASTRT l) .notice l lock rfl).trans
      (word_put_congr _ _ _ hhop))
  have hback : back.word (LN_STAT l) = fast.word (LN_STAT l) :=
    word_ite ((word_put_ne _ (LN_CNT_REACQCNT l) _ _ hcnt).trans (raise_stat (LN_EVT_REACQ l) .service l fast rfl)) rfl
  have hfailed : failed.word (LN_STAT l) = fast.word (LN_STAT l) :=
    word_ite ((raise_stat (LN_EVT_FAILED l) .service l back rfl).trans hback) hback
  refine (word_eqFreeze l _ _ (off_ne _ (by decide))).trans ?_
  exact (word_ite (word_send _ _ _) (word_ite rfl (word_laneOut _ _ _ _))).trans (hfailed.trans hfast)

theorem restarted_rest (st : Nat) {x y : LaneSt} (h : LaneRest x y) : LaneRest (restarted st x) (restarted st y) := by
  unfold LaneRest at h
  generalize x.eqGen = g, x.eq = e, x.sof = s, x.hopRun = r, x.reach = v, x.e2eSum = m, x.e2eN = n at h
  subst h
  unfold restarted
  split <;> rfl

theorem laneSet_rest (l st : Nat) (d : Dev) : LaneRest (restarted st (d.lane l)) ((laneSet l st d).lane l) := by
  unfold laneSet
  extract_lets old on entered sof cleared fresh hop lock fast back failed
  have hentered : LaneRest (d.lane l) (entered.lane l) := laneRest_put _ _ (laneRest_onLane l (fun _ => rfl) (laneRest_refl _))
  have hsof : LaneRest (d.lane l) (sof.lane l) := laneRest_ite hentered (laneRest_onLane l (fun _ => rfl) hentered)
  have hfresh : LaneRest (restarted st (d.lane l)) (fresh.lane l) := by
    have hrest := restarted_rest st hsof
    unfold restarted at hrest ⊢
    by_cases hst : st = lnDOWN ∨ st = lnACQUIRE ∨ st = lnFAILED
    · simp only [fresh, if_pos hst, lane_onLane_same] at hrest ⊢
      exact hrest
    · simp only [fresh, if_neg hst] at hrest ⊢
      exact hrest
  have hhop : LaneRest (restarted st (d.lane l)) (hop.lane l) := laneRest_ite hfresh (laneRest_onLane l (fun _ => rfl) hfresh)
  have hraise {x : LaneSt} (f : Fld) (c : Cls) {e : Dev} (h : LaneRest x (e.lane l)) : LaneRest x ((e.raise f c).lane l) :=
    (raise_lane e f c l).symm ▸ h
  have hfast : LaneRest (restarted st (d.lane l)) (fast.lane l) :=
    laneRest_ite (laneRest_put _ _ (hraise _ _ (laneRest_put _ _ hhop))) hhop
  have hback : LaneRest (restarted st (d.lane l)) (back.lane l) := laneRest_ite (laneRest_put _ _ (hraise _ _ hfast)) hfast
  have hfailed : LaneRest (restarted st (d.lane l)) (failed.lane l) := laneRest_ite (hraise _ _ hback) hback
  have hout : LaneRest (restarted st (d.lane l)) ((sendIdle l failed).lane l) := laneRest_ite hfailed hfailed
  exact laneRest_put _ _ (laneRest_onLane l (fun _ => rfl) (laneRest_ite hfailed (laneRest_ite hfailed hout)))

/-! ## Reading a lane that has moved -/

/-- Where the chain of a lane leaves its registers. -/
theorem laneGo_set_word (l st : Nat) (d : Dev) (a : Nat) (ha : a < 0x20000) (h0 : ∀ k, a ≠ LN_TMXE2E k) (h2 : a ≠ NT_EVT)
    (h3 : a ≠ NT_CNT1) : (laneGo l st d).word a = (laneSet l st d).word a := by
  unfold laneGo
  exact word_ite (chainUpdate_word _ _ _ _ ha (h0 _) (h0 _) h2 h3) rfl

theorem laneGo_stat (st : Nat) (d : Dev) (hl : l < 130) : (laneGo l st d).word (LN_STAT l) = (statSet l st d).word (LN_STAT l) := by
  rw [← laneSet_stat]
  refine laneGo_set_word l st d _ ?_ (fun k => ?_) ?_ ?_
  · unfold LN_STAT; omega
  · unfold LN_STAT LN_TMXE2E; omega
  · exact above_ne _ (by decide)
  · exact above_ne _ (by decide)

theorem laneGo_rest (l st : Nat) (d : Dev) : LaneRest (restarted st (d.lane l)) ((laneGo l st d).lane l) := by
  unfold laneGo
  exact laneRest_ite (laneRest_trans (laneSet_rest l st d) (chainUpdate_laneRest _ _ _ _)) (laneSet_rest l st d)

/-- Another lane's record. -/
theorem laneGo_other (st : Nat) (d : Dev) (h : k ≠ l) : LaneRest (d.lane k) ((laneGo l st d).lane k) := by
  have R : StateRoom l (fun _ => True) (· ≠ .lane k) :=
    { evt := trivial, cnt := trivial, fc := nofun, dr := nofun, stat := trivial, flags := trivial, cnts := trivial, taps := trivial
      lanes := nofun, lane := fun hp => h (by injection hp with hp; exact hp.symm), sent := nofun }
  have hset : LaneRest (d.lane k) ((laneSet l st d).lane k) :=
    laneRest_frame (frame_entersState R st (frame_refl d)) (fun hp => hp rfl) rfl
  unfold laneGo
  exact laneRest_ite (laneRest_trans hset (chainUpdate_laneRest _ _ _ _)) hset

/-- A register of no state of the lane. -/
theorem laneSet_word (l st : Nat) (d : Dev) (a : Nat) (h0 : a ≠ LN_STAT l) (h1 : a ≠ LN_EVT l) (h2 : a ≠ LN_CNT l) (h3 : a ≠ LN_EQ l)
    (h4 : a ≠ NT_EVT) (h5 : a ≠ NT_CNT1) : (laneSet l st d).word a = d.word a := by
  have R : StateRoom l (· ≠ a) (fun _ => True) :=
    { evt := h4.symm, cnt := h5.symm, fc := trivial, dr := trivial, stat := h0.symm, flags := h1.symm, cnts := h2.symm
      taps := h3.symm, lanes := trivial, lane := trivial, sent := trivial }
  exact (frame_entersState R st (frame_refl d)).words a (fun h => h rfl)

/-! ### The fields of LN_STAT -/

/-- States that a lane keeps its lock and its step in. -/
theorem statSet_keeps (h : st = lnNEGOTIATE ∨ st = lnACTIVE) (d : Dev) : statSet l st d = d.put (LN_STAT_STATE l) st := by
  unfold statSet
  dsimp only
  rcases h with rfl | rfl
  · rw [if_neg (by decide), if_neg (by decide)]
  · rw [if_neg (by decide), if_neg (by decide)]

theorem statSet_restarts (h : st = lnDOWN ∨ st = lnACQUIRE ∨ st = lnFAILED) (d : Dev) : statSet l st d =
    (((d.put (LN_STAT_STATE l) st).put (LN_STAT_STEP l) 0).put (LN_STAT_LOCK l) 0).put (LN_STAT_ORGV l) 0 := by
  unfold statSet
  dsimp only
  rw [if_pos h, if_neg (by rcases h with rfl | rfl | rfl <;> decide)]

theorem statSet_fastrt (d : Dev) : statSet l lnFASTRT d = (d.put (LN_STAT_STATE l) lnFASTRT).put (LN_STAT_LOCK l) 0 := by
  unfold statSet
  dsimp only
  rw [if_pos rfl, if_neg (by decide)]

/-- A field of LN_STAT that entry to a state does not store. -/
theorem statSet_get (d : Dev) (x : Fld) (h0 : (Nat.ble (x.lsb + x.width) 0 || Nat.ble 3 x.lsb) = true)
    (h1 : (Nat.ble (x.lsb + x.width) 3 || Nat.ble 5 x.lsb) = true) (h2 : (Nat.ble (x.lsb + x.width) 6 || Nat.ble 7 x.lsb) = true)
    (h3 : (Nat.ble (x.lsb + x.width) 9 || Nat.ble 10 x.lsb) = true) (hx : Nat.ble (x.lsb + x.width) 32 = true) :
    (statSet l st d).get x = d.get x := by
  unfold statSet
  dsimp only
  have hstate : (d.put (LN_STAT_STATE l) st).get x = d.get x := ufld_put_disj d (LN_STAT_STATE l) x st h0 hx
  have hcleared (e : Dev) : (((e.put (LN_STAT_STEP l) 0).put (LN_STAT_LOCK l) 0).put (LN_STAT_ORGV l) 0).get x = e.get x := by
    rw [ufld_put_disj _ (LN_STAT_ORGV l) x 0 h3 hx, ufld_put_disj _ (LN_STAT_LOCK l) x 0 h2 hx, ufld_put_disj _ (LN_STAT_STEP l) x 0 h1 hx]
  split <;> split <;> simp only [ufld_put_disj _ (LN_STAT_LOCK l) x 0 h2 hx, hcleared, hstate]

theorem laneGo_get (hl : l < 130) (d : Dev) (x : Fld) (hx : x.addr = LN_STAT l) : (laneGo l st d).get x = (statSet l st d).get x :=
  get_congr _ _ _ (hx ▸ laneGo_stat st d hl)

section go
variable (hl : l < 130)
include hl

theorem laneGo_state (hst : Nat.blt st 8 = true) (d : Dev) : (laneGo l st d).lnState l = st := by
  have hput : (d.put (LN_STAT_STATE l) st).get (LN_STAT_STATE l) = st := ufld_put d (LN_STAT_STATE l) st rfl hst
  rw [Dev.lnState, laneGo_get hl d (LN_STAT_STATE l) rfl]
  unfold statSet
  dsimp only
  have hcleared (e : Dev) : (((e.put (LN_STAT_STEP l) 0).put (LN_STAT_LOCK l) 0).put (LN_STAT_ORGV l) 0).get (LN_STAT_STATE l) =
      e.get (LN_STAT_STATE l) := by
    rw [ufld_put_disj _ (LN_STAT_ORGV l) (LN_STAT_STATE l) _ rfl rfl, ufld_put_disj _ (LN_STAT_LOCK l) (LN_STAT_STATE l) _ rfl rfl,
      ufld_put_disj _ (LN_STAT_STEP l) (LN_STAT_STATE l) _ rfl rfl]
  split <;> split <;> simp only [ufld_put_disj _ (LN_STAT_LOCK l) (LN_STAT_STATE l) _ rfl rfl, hcleared, hput]

theorem laneGo_unlocks (h : st = lnDOWN ∨ st = lnACQUIRE ∨ st = lnFAILED ∨ st = lnFASTRT) (d : Dev) :
    (laneGo l st d).flag (LN_STAT_LOCK l) = false := by
  rw [flag_congr (laneGo_get hl d (LN_STAT_LOCK l) rfl)]
  by_cases hf : st = lnFASTRT
  · subst hf
    rw [statSet_fastrt]
    exact uflag_put_zero _ (LN_STAT_LOCK l) rfl
  · rw [statSet_restarts (by tauto), uflag_put_disj _ (LN_STAT_ORGV l) (LN_STAT_LOCK l) _ rfl rfl]
    exact uflag_put_zero _ (LN_STAT_LOCK l) rfl

theorem laneGo_restarts_step (h : st = lnDOWN ∨ st = lnACQUIRE ∨ st = lnFAILED) (d : Dev) :
    (laneGo l st d).get (LN_STAT_STEP l) = 0 := by
  rw [laneGo_get hl d (LN_STAT_STEP l) rfl, statSet_restarts h, ufld_put_disj _ (LN_STAT_ORGV l) (LN_STAT_STEP l) _ rfl rfl,
    ufld_put_disj _ (LN_STAT_LOCK l) (LN_STAT_STEP l) _ rfl rfl]
  exact ufld_put _ (LN_STAT_STEP l) 0 rfl rfl

/-- Entry to NEGOTIATE or ACTIVE changes nothing else of LN_STAT. -/
theorem laneGo_keeps (h : st = lnNEGOTIATE ∨ st = lnACTIVE) (d : Dev) (x : Fld) (ha : x.addr = LN_STAT l) (hx : Nat.ble 3 x.lsb = true)
    (hw : Nat.ble (x.lsb + x.width) 32 = true) : (laneGo l st d).get x = d.get x := by
  rw [laneGo_get hl d x ha, statSet_keeps h]
  exact ufld_put_disj d (LN_STAT_STATE l) x st (by rw [Bool.or_eq_true]; exact .inr hx) hw

theorem laneGo_los (st : Nat) (d : Dev) : (laneGo l st d).flag (LN_STAT_LOS l) = d.flag (LN_STAT_LOS l) :=
  flag_congr ((laneGo_get hl d (LN_STAT_LOS l) rfl).trans (statSet_get d (LN_STAT_LOS l) rfl rfl rfl rfl rfl))

theorem laneGo_rxslept (st : Nat) (d : Dev) : (laneGo l st d).flag (LN_STAT_RXSLEPT l) = d.flag (LN_STAT_RXSLEPT l) :=
  flag_congr ((laneGo_get hl d (LN_STAT_RXSLEPT l) rfl).trans (statSet_get d (LN_STAT_RXSLEPT l) rfl rfl rfl rfl rfl))

/-- A register of the lane that no state changes. -/
theorem laneGo_word (st : Nat) (d : Dev) (b : Nat) (h : b = 0x10000 ∨ b = 0x10004 ∨ b = 0x10008 ∨ b = 0x1000c ∨ b = 0x1001c ∨
    b = 0x10024 ∨ b = 0x10028) : (laneGo l st d).word (b + 0x100 * l) = d.word (b + 0x100 * l) := by
  rw [laneGo_set_word]
  · refine laneSet_word l st d _ (off_ne _ ?_) (off_ne _ ?_) (off_ne _ ?_) (off_ne _ ?_) (above_ne _ ?_) (above_ne _ ?_) <;>
      rcases h with rfl | rfl | rfl | rfl | rfl | rfl | rfl <;> decide
  · omega
  · intro k; unfold LN_TMXE2E; omega
  · unfold NT_EVT; omega
  · unfold NT_CNT1; omega

end go

/-! ### The flags of LN_EVT -/

theorem get_ite {p : Prop} [Decidable p] {x : Fld} {n : Nat} (hd : d.get x = n) (he : e.get x = n) : (if p then d else e).get x = n := by
  split <;> assumption

/-- Entry to a state raises flags of LN_EVT above LOS and LOL. -/
theorem laneSet_evt (l st : Nat) (d : Dev) (x : Fld) (ha : x.addr = LN_EVT l) (hx : Nat.ble (x.lsb + x.width) 2 = true) :
    (laneSet l st d).get x = d.get x ∧ (st = lnFAILED → (laneSet l st d).flag (LN_EVT_FAILED l) = true) := by
  have hbit {f : Fld} (hf : 2 ≤ f.lsb) : (Nat.ble (x.lsb + x.width) f.lsb || Nat.ble (f.lsb + f.width) x.lsb) = true := by
    rw [Bool.or_eq_true]
    exact .inl (Nat.ble_eq_true_of_le (Nat.le_trans (Nat.le_of_ble_eq_true hx) hf))
  have hw : Nat.ble (x.lsb + x.width) 32 = true :=
    Nat.ble_eq_true_of_le (Nat.le_trans (Nat.le_of_ble_eq_true hx) (by decide))
  have hraise (f : Fld) (c : Cls) (e : Dev) (hf : f.addr = LN_EVT l) (hb : Nat.ble 2 f.lsb = true) : (e.raise f c).get x = e.get x :=
    ufld_raise_disj e f x c (hf ▸ unit_ge rfl) (ha.trans hf.symm) (hbit (Nat.le_of_ble_eq_true hb)) hw
  have hput (f : Fld) (v : Nat) (e : Dev) (b : Nat) (hf : f.addr = b + 0x100 * l) (hb : b ≠ 0x10014) : (e.put f v).get x = e.get x :=
    get_put_ne _ _ _ _ (by rw [ha, hf]; exact off_ne _ hb)
  unfold laneSet
  extract_lets old on entered sof cleared fresh hop lock fast back failed
  have hentered : entered.get x = d.get x := hput _ _ _ 0x10010 rfl (by decide)
  have hsof : sof.get x = d.get x := get_ite hentered ((get_onLane _ _ _ _).trans hentered)
  have hcleared : cleared.get x = d.get x := (hput _ _ _ 0x10010 rfl (by decide)).trans ((hput _ _ _ 0x10010 rfl (by decide)).trans
    ((hput _ _ _ 0x10010 rfl (by decide)).trans hsof))
  have hfresh : fresh.get x = d.get x := get_ite ((get_onLane _ _ _ _).trans hcleared) hsof
  have hhop : hop.get x = d.get x := get_ite hfresh ((get_onLane _ _ _ _).trans hfresh)
  have hfast : fast.get x = d.get x := get_ite ((hput _ _ _ 0x10018 rfl (by decide)).trans
    ((hraise (LN_EVT_FASTRT l) .notice lock rfl rfl).trans ((hput _ _ _ 0x10010 rfl (by decide)).trans hhop))) hhop
  have hback : back.get x = d.get x := get_ite ((hput _ _ _ 0x10018 rfl (by decide)).trans
    ((hraise (LN_EVT_REACQ l) .service fast rfl rfl).trans hfast)) hfast
  have hfailed : failed.get x = d.get x := get_ite ((hraise (LN_EVT_FAILED l) .service back rfl rfl).trans hback) hback
  have hout (y : Fld) (p q : Prop) [Decidable p] [Decidable q] (hy : y.addr = LN_EVT l) :
      (eqFreeze l (if p then failed.send (.quiet l) else if q then failed else sendIdle l failed)).get y = failed.get y := by
    refine get_congr _ _ _ ((word_eqFreeze l _ _ (hy ▸ off_ne _ (by decide))).trans ?_)
    exact word_ite (word_send _ _ _) (word_ite rfl (word_laneOut _ _ _ _))
  refine ⟨(hout x _ _ ha).trans hfailed, fun hst => ?_⟩
  rw [flag_congr (hout (LN_EVT_FAILED l) _ _ rfl)]
  have hraised : failed = back.raise (LN_EVT_FAILED l) .service := if_pos hst
  rw [hraised]
  exact uflag_raise back (LN_EVT_FAILED l) .service (unit_ge rfl) rfl rfl

theorem laneGo_evt (hl : l < 130) (st : Nat) (d : Dev) (x : Fld) (ha : x.addr = LN_EVT l) :
    (laneGo l st d).get x = (laneSet l st d).get x := by
  refine get_congr _ _ _ (ha ▸ laneGo_set_word l st d _ ?_ (fun k => ?_) ?_ ?_)
  · unfold LN_EVT; omega
  · unfold LN_EVT LN_TMXE2E; omega
  · exact above_ne _ (by decide)
  · exact above_ne _ (by decide)

/-- LOS and LOL stand as they were. -/
theorem laneGo_evt_low (hl : l < 130) (st : Nat) (d : Dev) (x : Fld) (ha : x.addr = LN_EVT l) (hx : Nat.ble (x.lsb + x.width) 2 = true) :
    (laneGo l st d).flag x = d.flag x :=
  flag_congr ((laneGo_evt hl st d x ha).trans (laneSet_evt l st d x ha hx).1)

theorem laneGo_failed (hl : l < 130) (d : Dev) : (laneGo l lnFAILED d).flag (LN_EVT_FAILED l) = true :=
  (flag_congr (laneGo_evt hl lnFAILED d (LN_EVT_FAILED l) rfl)).trans ((laneSet_evt l lnFAILED d (LN_EVT_LOS l) rfl rfl).2 rfl)

/-! ## The other lane of the unit -/

/-- Room for another lane with its chain, away from one register of lane `l`. -/
theorem awayRoom {a : Nat} (h : k ≠ l) (hl : l < 130) (hlo : LN_CFG l ≤ a) (hhi : a < LN_CFG (l + 1)) (he : a ≠ LN_TMXE2E l) :
    LaneChainRoom k (· ≠ a) (fun _ => True) := by
  unfold LN_CFG at hlo hhi
  unfold LN_TMXE2E at he
  have hn : NT_EVT ≠ a ∧ NT_CNT1 ≠ a := by unfold NT_EVT NT_CNT1; omega
  exact
    { evt := hn.1, cnt := hn.2, fc := trivial, dr := trivial, lanes := trivial, lane := trivial, sent := trivial
      regs := fun i hi => by omega
      chain := fun hk =>
        { evt := hn.1, cnt := hn.2, fc := trivial, dr := trivial, lanes := trivial, quires := trivial, quire := trivial
          laneA := trivial, laneB := trivial
          regs := fun i hi => by omega
          e2eA := by unfold LN_TMXE2E; omega
          e2eB := by unfold LN_TMXE2E; omega } }

/-- The lane that its partner's step wakes keeps its registers but LN_TMXE2E. -/
theorem wakePartner_word {a : Nat} (hl : l < 130) (hlo : LN_CFG l ≤ a) (hhi : a < LN_CFG (l + 1)) (he : a ≠ LN_TMXE2E l) (d : Dev) :
    (wakePartner l d).word a = d.word a := by
  unfold wakePartner stepResume
  split
  case isFalse => rfl
  case isTrue h =>
    have ha : alone (partner l) d = true := by simp [alone, partner_partner, h.2]
    refine word_ite ?_ rfl
    exact (frame_stepNext_alone (awayRoom (partner_ne l) hl hlo hhi he) ha (frame_refl d)).words a (fun k => k rfl)

/-- Room for all of a lane but another lane's record. -/
theorem otherRoom (h : k ≠ l) : LaneRoom l (fun _ => True) (· ≠ .lane k) :=
  { evt := trivial, cnt := trivial, fc := nofun, dr := nofun, regs := fun _ _ => trivial, lanes := nofun
    lane := fun hp => h (by injection hp with hp; exact hp.symm), sent := nofun }

theorem wakePartner_rest (l : Nat) (d : Dev) : LaneRest (d.lane l) ((wakePartner l d).lane l) := by
  have hother := (partner_ne l).symm
  unfold wakePartner stepResume
  split
  case isFalse => exact laneRest_refl _
  case isTrue h =>
    have ha : alone (partner l) d = true := by simp [alone, partner_partner, h.2]
    refine laneRest_ite ?_ (laneRest_refl _)
    unfold stepNext
    rw [if_pos ha]
    refine laneRest_ite ?_ (laneGo_other lnACTIVE d hother)
    exact laneRest_frame (frame_stepStart (otherRoom hother) _ (frame_refl d)) (fun hp => hp rfl) (laneRest_refl _)

theorem wakePartner_get (hl : l < 130) (d : Dev) (x : Fld) (hx : x.addr = LN_STAT l) : (wakePartner l d).get x = d.get x := by
  refine get_congr _ _ _ (hx ▸ wakePartner_word hl ?_ ?_ ?_ d)
  · unfold LN_CFG LN_STAT; omega
  · unfold LN_CFG LN_STAT; omega
  · exact off_ne _ (by decide)

end Sys2Proof.Machine
end

section
/-! PROOFS. What a receiver sees moves its lane (O14). -/

namespace Sys2Proof.Machine

variable {W : Nat → Prop} {S : Part → Prop} {d e : Dev} {s : State} {l k v : Nat}

/-! ## Failed acquisitions -/

theorem LaneRest.acq {x y : LaneSt} (h : LaneRest x y) : y.acq = x.acq := by
  have hacq := congrArg LaneSt.acq h
  exact hacq

theorem laneGo_acq (l st : Nat) (d : Dev) : ((laneGo l st d).lane l).acq = (d.lane l).acq := by
  refine (laneGo_rest l st d).acq.trans ?_
  unfold restarted
  split <;> rfl

/-! ## A step change -/

theorem word_send16 (l typ fields : Nat) (d : Dev) (a : Nat) : (send16 l typ fields d).word a = d.word a :=
  (foldN_view (fun e : Dev => e.word a) 16 (fun _ _ => word_laneOut _ _ _ _) d)

/-- LN_STAT once a step change has started. -/
theorem stepStart_stat (l n : Nat) (d : Dev) :
    (stepStart l n d).word (LN_STAT l) = ((d.put (LN_STAT_STEP l) n).put (LN_STAT_LOCK l) 0).word (LN_STAT l) := by
  unfold stepStart
  dsimp only
  refine (word_onLane _ _ _ _).trans ((word_laneOut _ _ _ _).trans (word_put_congr _ _ _ (word_put_congr _ _ _ ?_)))
  exact (word_send16 _ _ _ _ _).trans (word_eqAdapt _ _ _)

theorem stepStart_state (l n : Nat) (d : Dev) : (stepStart l n d).lnState l = d.lnState l := by
  rw [Dev.lnState, get_congr _ _ (LN_STAT_STATE l) (stepStart_stat l n d), ufld_put_disj _ (LN_STAT_LOCK l) (LN_STAT_STATE l) _ rfl rfl,
    ufld_put_disj _ (LN_STAT_STEP l) (LN_STAT_STATE l) _ rfl rfl]
  rfl

theorem stepStart_lock (l n : Nat) (d : Dev) : (stepStart l n d).flag (LN_STAT_LOCK l) = false := by
  rw [flag_congr (get_congr _ _ (LN_STAT_LOCK l) (stepStart_stat l n d))]
  exact uflag_put_zero _ (LN_STAT_LOCK l) rfl

theorem stepStart_step (l n : Nat) (d : Dev) : (stepStart l n d).get (LN_STAT_STEP l) = n % 4 := by
  rw [get_congr _ _ (LN_STAT_STEP l) (stepStart_stat l n d), ufld_put_disj _ (LN_STAT_LOCK l) (LN_STAT_STEP l) _ rfl rfl]
  exact ufld_put_mod _ (LN_STAT_STEP l) _ rfl

/-- Blocks that leave change no record. -/
theorem lane_laneOut (l : Nat) (x : Sent) (d : Dev) (k : Nat) : (laneOut l x d).lane k = d.lane k := by
  unfold laneOut
  split <;> rfl

theorem lane_send16 (l typ fields : Nat) (d : Dev) (k : Nat) : (send16 l typ fields d).lane k = d.lane k :=
  foldN_view (fun e : Dev => e.lane k) 16 (fun _ _ => lane_laneOut _ _ _ _) d

theorem eqAdapt_rest (l : Nat) (d : Dev) : LaneRest (d.lane l) ((eqAdapt l d).lane l) :=
  laneRest_onLane l (fun _ => rfl) (laneRest_refl _)

/-- The record of a lane whose step change has started. -/
theorem stepStart_lane (l n : Nat) (d : Dev) : ∃ x t, LaneRest (d.lane l) x ∧ (stepStart l n d).lane l =
    { x with target := some n, passed := false, eqStep := t } := by
  unfold stepStart
  dsimp only
  have hsame (n' : Nat) : (sendIdle l (((send16 l 0xA0 n' (eqAdapt l d)).put (LN_STAT_STEP l) n).put (LN_STAT_LOCK l) 0)).lane l =
      (eqAdapt l d).lane l := (lane_laneOut _ _ _ _).trans (lane_send16 _ _ _ _ _)
  rw [lane_onLane_same, hsame]
  exact ⟨_, _, eqAdapt_rest l d, rfl⟩

/-- A step change of one lane is nothing to another. -/
theorem stepStart_word (n : Nat) (h : k ≠ l) (hl : l < 130) {a : Nat} (hlo : LN_CFG l ≤ a) (hhi : a < LN_CFG (l + 1))
    (he : a ≠ LN_TMXE2E l) (d : Dev) : (stepStart k n d).word a = d.word a :=
  (frame_stepStart (awayRoom h hl hlo hhi he).toLaneRoom n (frame_refl d)).words a (fun k => k rfl)

/-! ## The unit goes on -/

theorem stat_bounds (l : Nat) : LN_CFG l ≤ LN_STAT l ∧ LN_STAT l < LN_CFG (l + 1) ∧ LN_STAT l ≠ LN_TMXE2E l := by
  refine ⟨?_, ?_, off_ne _ (by decide)⟩ <;> unfold LN_CFG LN_STAT <;> omega

theorem stepStart_other (n : Nat) (h : k ≠ l) (hl : l < 130) (d : Dev) (x : Fld) (hx : x.addr = LN_STAT l) :
    (stepStart k n d).get x = d.get x := by
  obtain ⟨hlo, hhi, he⟩ := stat_bounds l
  exact get_congr _ _ _ (hx ▸ stepStart_word n h hl hlo hhi he d)

/-- The next step of one lane. -/
theorem stepNext_alone (h : alone l d = true) : stepNext l d =
    if d.get (LN_STAT_STEP l) < stepCap l d then stepStart l (d.get (LN_STAT_STEP l) + 1) d else laneGo l lnACTIVE d :=
  if_pos h

/-- Both lanes of a unit become ACTIVE. -/
theorem pairActive_stat (hl : l < 130) (d : Dev) (x : Fld) (hx : x.addr = LN_STAT l) :
    (pairActive l d).get x = (statSet l lnACTIVE d).get x := by
  refine get_congr _ _ _ (hx ▸ ?_)
  unfold pairActive
  refine (chainUpdate_word (l / 2) true _ (LN_STAT l) (by unfold LN_STAT; omega) (by unfold LN_STAT LN_TMXE2E; omega)
    (by unfold LN_STAT LN_TMXE2E; omega) (above_ne _ (by decide)) (above_ne _ (by decide))).trans ?_
  obtain ⟨hlo, hhi, he⟩ := stat_bounds l
  refine Eq.trans ?_ (laneSet_stat l lnACTIVE d)
  exact (frame_laneSet (awayRoom (partner_ne l) hl hlo hhi he).toLaneRoom lnACTIVE (frame_refl _)).words _ (fun k => k rfl)

theorem pairActive_rest (l : Nat) (d : Dev) : LaneRest (d.lane l) ((pairActive l d).lane l) := by
  unfold pairActive
  refine laneRest_trans ?_ (chainUpdate_laneRest _ _ _ _)
  have hother := (partner_ne l).symm
  have hself : LaneRest (d.lane l) ((laneSet l lnACTIVE d).lane l) := laneSet_rest l lnACTIVE d
  exact laneRest_frame (frame_laneSet (otherRoom hother) lnACTIVE (frame_refl _)) (fun hp => hp rfl) hself

/-- A lane that negotiates still does, or is ACTIVE, once its unit has gone on. -/
theorem stepNext_state (hl : l < 130) (hs : d.lnState l = lnNEGOTIATE) :
    (stepNext l d).lnState l = lnNEGOTIATE ∨ (stepNext l d).lnState l = lnACTIVE := by
  have hactive : (d.put (LN_STAT_STATE l) lnACTIVE).get (LN_STAT_STATE l) = lnACTIVE := ufld_put d (LN_STAT_STATE l) lnACTIVE rfl rfl
  by_cases ha : alone l d = true
  · rw [stepNext_alone ha]
    split
    · exact .inl ((stepStart_state _ _ _).trans hs)
    · exact .inr (laneGo_state hl rfl d)
  · unfold stepNext
    rw [if_neg ha]
    dsimp only
    split
    · exact .inl hs
    · split
      · exact .inl ((stepStart_other _ (partner_ne l) hl _ (LN_STAT_STATE l) rfl).trans ((stepStart_state _ _ _).trans hs))
      · right
        rw [Dev.lnState, pairActive_stat hl d (LN_STAT_STATE l) rfl, statSet_keeps (.inr rfl)]
        exact hactive

/-- What a lane's step change and the rest of its moves leave of its record stands as its unit goes on. -/
theorem stepNext_view {β : Type} (w : LaneSt → β) (hw : ∀ x y, LaneRest x y → w y = w x)
    (ht : ∀ (x : LaneSt) n t, w { x with target := some n, passed := false, eqStep := t } = w x) (l : Nat) (d : Dev) :
    w ((stepNext l d).lane l) = w (d.lane l) := by
  have hstart (n : Nat) (e : Dev) : w ((stepStart l n e).lane l) = w (e.lane l) := by
    obtain ⟨x, t, hrest, hx⟩ := stepStart_lane l n e
    rw [hx, ht]
    exact hw _ _ hrest
  have hother (n : Nat) (e : Dev) : (stepStart (partner l) n e).lane l = e.lane l :=
    (frame_stepStart (otherRoom (partner_ne l).symm) n (frame_refl e)).parts (.lane l) (fun hp => hp rfl)
  unfold stepNext
  dsimp only
  split
  · split
    · exact hstart _ _
    · exact hw _ _ (laneGo_rest l lnACTIVE d)
  · split
    · rfl
    · split
      · rw [hother, hstart]
      · exact hw _ _ (pairActive_rest l d)

theorem stepNext_acq (l : Nat) (d : Dev) : ((stepNext l d).lane l).acq = (d.lane l).acq :=
  stepNext_view LaneSt.acq (fun _ _ h => h.acq) (fun _ _ _ => rfl) l d

/-! ## Loss of signal and of lock -/

theorem eqFreeze_get (l : Nat) (d : Dev) (x : Fld) (h : LN_EQ l ≠ x.addr) : (eqFreeze l d).get x = d.get x :=
  get_congr _ _ _ (word_eqFreeze l d _ h)

theorem losAsserted_active (hl : l < 130) (hs : d.lnState l = lnACTIVE) (hlos : d.flag (LN_STAT_LOS l) = false)
    (hrx : d.flag (LN_STAT_RXSLEPT l) = false) : (losAsserted l d).lnState l = lnFASTRT ∧ (losAsserted l d).flag (LN_STAT_LOS l) = true ∧
      (losAsserted l d).flag (LN_STAT_LOCK l) = false ∧ (losAsserted l d).flag (LN_EVT_LOS l) = true := by
  have heq : losAsserted l d = laneGo l lnFASTRT ((d.put (LN_STAT_LOS l) 1).raise (LN_EVT_LOS l) .notice) := by
    have hrx' : (d.put (LN_STAT_LOS l) 1).flag (LN_STAT_RXSLEPT l) = false :=
      (uflag_put_disj d (LN_STAT_LOS l) (LN_STAT_RXSLEPT l) 1 rfl rfl).trans hrx
    have hs' : ((d.put (LN_STAT_LOS l) 1).raise (LN_EVT_LOS l) .notice).lnState l = lnACTIVE :=
      (ufld_raise_ne _ (LN_EVT_LOS l) (LN_STAT_STATE l) _ (unit_ge rfl) (off_ne _ (by decide))).trans
        ((ufld_put_disj d (LN_STAT_LOS l) (LN_STAT_STATE l) 1 rfl rfl).trans hs)
    unfold losAsserted
    dsimp only
    rw [if_neg (by rw [hs, hlos]; decide), if_neg (by rw [hrx']; decide), if_pos hs']
  rw [heq]
  refine ⟨laneGo_state hl rfl _, ?_, laneGo_unlocks hl (by decide) _, ?_⟩
  · rw [laneGo_los hl, flag_raise_ne _ (LN_EVT_LOS l) (LN_STAT_LOS l) _ (off_ne _ (by decide)) (above_ne _ (by decide)) (above_ne _ (by decide))]
    exact uflag_put_one _ (LN_STAT_LOS l) rfl rfl
  · rw [laneGo_evt_low hl _ _ (LN_EVT_LOS l) rfl rfl]
    exact uflag_raise _ (LN_EVT_LOS l) _ (unit_ge rfl) rfl rfl

theorem losGone_shows (l : Nat) (d : Dev) :
    (losGone l d).flag (LN_STAT_LOS l) = false ∧ (losGone l d).lnState l = d.lnState l := by
  unfold losGone
  refine ⟨(flag_congr (eqFreeze_get l _ (LN_STAT_LOS l) (off_ne _ (by decide)))).trans (uflag_put_zero _ (LN_STAT_LOS l) rfl), ?_⟩
  exact (eqFreeze_get l _ (LN_STAT_STATE l) (off_ne _ (by decide))).trans (ufld_put_disj _ (LN_STAT_LOS l) (LN_STAT_STATE l) 0 rfl rfl)

/-! ## LOL -/

theorem word_prbsMissed (l n : Nat) (d : Dev) (a : Nat) (h : LN_PRBSERR l ≠ a) : (prbsMissed l n d).word a = d.word a := by
  unfold prbsMissed
  exact word_ite ((word_onLane _ _ _ _).trans (word_put_ne _ _ _ _ h)) (word_ite rfl rfl)

/-- What LOL leaves before the lane moves. -/
def lolSeen (l : Nat) (lost : Bool) (bad : Nat) (tap : Option Nat) (d : Dev) : Dev :=
  let d := if lost then d.put (LN_STAT_LOCK l) 0 else d
  let d := (d.raise (LN_EVT_LOL l) .notice).bump (LN_BERC_SHERR l) bad
  let d := if d.flag (LN_PRBSCTL_CHK l) ∧ d.get (LN_PRBSCTL_PAT l) ≠ 0 then prbsMissed l bad d else d
  match tap with
  | some k => eqRevert l k (eqAdapt l d)
  | none => d

theorem lolDetected_seen (lost : Bool) (bad : Nat) (tap : Option Nat) (hs : d.lnState l ≠ lnDOWN)
    (hrx : d.flag (LN_STAT_RXSLEPT l) = false) : lolDetected l lost bad tap d =
      if (lolSeen l lost bad tap d).lnState l = lnACTIVE then laneGo l lnFASTRT (lolSeen l lost bad tap d)
      else lolSeen l lost bad tap d := by
  unfold lolDetected
  rw [if_neg (by simp [hs, hrx])]
  cases tap <;> rfl

/-- The registers that LOL leaves, whichever tap returns. -/
theorem lolSeen_word (l : Nat) (lost : Bool) (bad : Nat) (tap : Option Nat) (d : Dev) (a : Nat) (h : LN_PRBSERR l ≠ a) :
    (lolSeen l lost bad tap d).word a =
      (((if lost then d.put (LN_STAT_LOCK l) 0 else d).raise (LN_EVT_LOL l) .notice).bump (LN_BERC_SHERR l) bad).word a := by
  have hcounted : ∀ (p : Prop) [Decidable p] (e : Dev), (if p then prbsMissed l bad e else e).word a = e.word a := fun p _ e =>
    word_ite (word_prbsMissed l bad e a h) rfl
  cases tap with
  | none => exact hcounted _ _
  | some k => exact (word_onLane _ _ _ _).trans ((word_eqAdapt _ _ _).trans (hcounted _ _))

theorem lolSeen_shows (l : Nat) (lost : Bool) (bad : Nat) (tap : Option Nat) (d : Dev) :
    (lolSeen l lost bad tap d).lnState l = d.lnState l ∧
    (lolSeen l lost bad tap d).flag (LN_STAT_LOCK l) = (d.flag (LN_STAT_LOCK l) && !lost) ∧
    (lolSeen l lost bad tap d).flag (LN_EVT_LOL l) = true ∧
    (lolSeen l lost bad tap d).get (LN_BERC_SHERR l) = satInc (LN_BERC_SHERR l).width (d.get (LN_BERC_SHERR l)) bad := by
  have hstat (x : Fld) (hx : x.addr = LN_STAT l) :
      (lolSeen l lost bad tap d).get x = (if lost then d.put (LN_STAT_LOCK l) 0 else d).get x := by
    refine get_congr _ _ _ (hx ▸ (lolSeen_word l lost bad tap d (LN_STAT l) (off_ne _ (by decide))).trans ?_)
    exact (word_put_ne _ (LN_BERC_SHERR l) _ _ (off_ne _ (by decide))).trans (raise_stat (LN_EVT_LOL l) .notice l _ rfl)
  refine ⟨?_, ?_, ?_, ?_⟩
  · rw [Dev.lnState, hstat (LN_STAT_STATE l) rfl]
    exact get_ite (ufld_put_disj d (LN_STAT_LOCK l) (LN_STAT_STATE l) 0 rfl rfl) rfl
  · rw [flag_congr (hstat (LN_STAT_LOCK l) rfl)]
    cases lost
    · rw [if_neg (by decide)]; simp
    · rw [if_pos rfl, uflag_put_zero d (LN_STAT_LOCK l) rfl]; simp
  · rw [flag_congr (get_congr _ _ (LN_EVT_LOL l) (lolSeen_word l lost bad tap d (LN_EVT l) (off_ne _ (by decide))))]
    exact (flag_put_ne _ (LN_BERC_SHERR l) (LN_EVT_LOL l) _ (off_ne _ (by decide))).trans (uflag_raise _ (LN_EVT_LOL l) _ (unit_ge rfl) rfl rfl)
  · rw [get_congr _ _ (LN_BERC_SHERR l) (lolSeen_word l lost bad tap d (LN_BERC l) (off_ne _ (by decide))), ufld_bump _ (LN_BERC_SHERR l) _ rfl,
      ufld_raise_ne _ (LN_EVT_LOL l) (LN_BERC_SHERR l) _ (unit_ge rfl) (off_ne _ (by decide))]
    congr 1
    exact get_ite (get_put_ne _ (LN_STAT_LOCK l) (LN_BERC_SHERR l) _ (off_ne _ (by decide))) rfl

theorem lolDetected_shows (hl : l < 130) (lost : Bool) (bad : Nat) (tap : Option Nat) (hs : d.lnState l ≠ lnDOWN)
    (hrx : d.flag (LN_STAT_RXSLEPT l) = false) : (lolDetected l lost bad tap d).flag (LN_EVT_LOL l) = true ∧
      (lolDetected l lost bad tap d).get (LN_BERC_SHERR l) = satInc (LN_BERC_SHERR l).width (d.get (LN_BERC_SHERR l)) bad ∧
      if d.lnState l = lnACTIVE then (lolDetected l lost bad tap d).lnState l = lnFASTRT ∧
        (lolDetected l lost bad tap d).flag (LN_STAT_LOCK l) = false
      else (lolDetected l lost bad tap d).lnState l = d.lnState l ∧
        (lolDetected l lost bad tap d).flag (LN_STAT_LOCK l) = (d.flag (LN_STAT_LOCK l) && !lost) := by
  obtain ⟨hstate, hlock, hlol, hsherr⟩ := lolSeen_shows l lost bad tap d
  rw [lolDetected_seen lost bad tap hs hrx, hstate]
  by_cases ha : d.lnState l = lnACTIVE
  · rw [if_pos ha, if_pos ha]
    refine ⟨?_, ?_, laneGo_state hl rfl _, laneGo_unlocks hl (by decide) _⟩
    · rw [laneGo_evt_low hl _ _ (LN_EVT_LOL l) rfl rfl]; exact hlol
    · rw [get_congr _ _ (LN_BERC_SHERR l) (laneGo_word hl _ _ 0x1001c (by decide))]; exact hsherr
  · rw [if_neg ha, if_neg ha]
    exact ⟨hlol, hsherr, hstate, hlock⟩

/-! ## Acquisition, lock and their timeouts -/

theorem fastrtRelock_active (hl : l < 130) (hs : d.lnState l = lnFASTRT) (hlock : d.flag (LN_STAT_LOCK l) = true) :
    (fastrtRelock l d).lnState l = lnACTIVE := by
  unfold fastrtRelock
  rw [if_pos ⟨hs, hlock⟩, Dev.lnState, wakePartner_get hl _ (LN_STAT_STATE l) rfl]
  exact laneGo_state hl rfl d

theorem blockLockHeld_negotiates (hl : l < 130) (hs : d.lnState l = lnACQUIRE) (hlock : d.flag (LN_STAT_LOCK l) = true)
    (hlos : d.flag (LN_STAT_LOS l) = false) : ((blockLockHeld l d).lane l).acq = 0 ∧
      ((blockLockHeld l d).lnState l = lnNEGOTIATE ∨ (blockLockHeld l d).lnState l = lnACTIVE) := by
  unfold blockLockHeld
  rw [if_pos ⟨hs, hlock, by simp [hlos]⟩, Dev.lnState, wakePartner_get hl _ (LN_STAT_STATE l) rfl, (wakePartner_rest l _).acq,
    stepNext_acq, laneGo_acq, lane_onLane_same]
  exact ⟨rfl, stepNext_state hl (laneGo_state hl rfl _)⟩

theorem acquireTimeout_counts (hl : l < 130) (hs : d.lnState l = lnACQUIRE) (hlos : d.flag (LN_STAT_LOS l) = false) :
    if d.get (LN_TIMCFG_NACQ l) ≤ (d.lane l).acq + 1 then (acquireTimeout l d).lnState l = lnFAILED ∧
      ((acquireTimeout l d).lane l).acq = 0 ∧ (acquireTimeout l d).flag (LN_EVT_FAILED l) = true
    else (acquireTimeout l d).lnState l = lnACQUIRE ∧ ((acquireTimeout l d).lane l).acq = (d.lane l).acq + 1 := by
  have heq : acquireTimeout l d = if d.get (LN_TIMCFG_NACQ l) ≤ (d.lane l).acq + 1 then
      laneGo l lnFAILED (d.onLane l fun x => { x with acq := 0 }) else d.onLane l fun x => { x with acq := (d.lane l).acq + 1 } :=
    if_pos ⟨hs, by simp [hlos]⟩
  rw [heq]
  by_cases hn : d.get (LN_TIMCFG_NACQ l) ≤ (d.lane l).acq + 1
  · rw [if_pos hn, if_pos hn, laneGo_acq, lane_onLane_same]
    exact ⟨laneGo_state hl rfl _, rfl, laneGo_failed hl _⟩
  · rw [if_neg hn, if_neg hn, lane_onLane_same]
    exact ⟨hs, rfl⟩

theorem blockLock_locks (hl : l < 130) (hs : d.lnState l ≠ lnDOWN) (hrx : d.flag (LN_STAT_RXSLEPT l) = false) :
    (blockLock l d).flag (LN_STAT_LOCK l) = true := by
  have hone := uflag_put_one d (LN_STAT_LOCK l) rfl rfl
  unfold blockLock
  rw [if_neg (by simp [hs, hrx])]
  dsimp only
  split
  · rw [flag_congr (wakePartner_get hl _ (LN_STAT_LOCK l) rfl),
      flag_congr (laneGo_keeps hl (.inr rfl) _ (LN_STAT_LOCK l) rfl rfl rfl)]
    exact hone
  · exact hone

end Sys2Proof.Machine

open Sys2Proof Machine

/-- Settles O14, by the state that each signal takes the lane to. -/
theorem laneSignals : Obligations.LaneSignals := by
  unfold Obligations.LaneSignals
  intro l s h
  have U := calmBroad.unit l.val
  have L := U.toLaneChainRoom
  have r := frame_refl (W := calmRegs) (S := calmParts) s.dev
  have hl := l.isLt
  have settled_state (d : Dev) : (tripOutRelease d).lnState l.val = d.lnState l.val := settled_get d (LN_STAT_STATE l.val) (unit_ge rfl)
  refine ⟨fun hs hlos hrx => ?_, ?_, fun lost bad tap hs hrx => ?_, fun hs hlock => ?_, fun hs hlock => ?_, fun hs hlock hlos => ?_,
    fun hs hlos => ?_, fun hs => ?_, fun hs hrx => ?_⟩
  · refine answers_running rfl h (quiet_of_frame (frame_losAsserted L r)) ?_
    rw [settled_state, settled_flag _ (LN_STAT_LOS l.val) (unit_ge rfl), settled_flag _ (LN_STAT_LOCK l.val) (unit_ge rfl),
      settled_flag _ (LN_EVT_LOS l.val) (unit_ge rfl)]
    exact losAsserted_active hl hs hlos hrx
  · refine answers_running rfl h (quiet_of_frame (frame_losGone L.toLaneRoom r)) ?_
    rw [settled_state, settled_flag _ (LN_STAT_LOS l.val) (unit_ge rfl)]
    exact losGone_shows l.val s.dev
  · refine answers_running rfl h (quiet_of_frame (frame_lolDetected L lost bad (tap.map Fin.val) r)) ?_
    dsimp only
    rw [settled_state, settled_flag _ (LN_EVT_LOL l.val) (unit_ge rfl), settled_flag _ (LN_STAT_LOCK l.val) (unit_ge rfl),
      settled_get _ (LN_BERC_SHERR l.val) (unit_ge rfl)]
    exact lolDetected_shows hl lost bad _ hs hrx
  · refine answers_running rfl h (quiet_of_frame (frame_fastrtRelock U r)) ?_
    rw [settled_state]
    exact fastrtRelock_active hl hs hlock
  · have heq : fastrtTimeout l.val s.dev = laneGo l.val lnACQUIRE s.dev := if_pos ⟨hs, by simp [hlock]⟩
    refine answers_running rfl h (quiet_of_frame (frame_fastrtTimeout L r)) ?_
    rw [settled_state, settled_get _ (LN_STAT_STEP l.val) (unit_ge rfl), heq]
    exact ⟨laneGo_state hl rfl _, laneGo_restarts_step hl (by decide) _⟩
  · refine answers_running rfl h (quiet_of_frame (frame_blockLockHeld U r)) ?_
    rw [settled_state, tripOutRelease_lane]
    exact blockLockHeld_negotiates hl hs hlock hlos
  · refine answers_running rfl h (quiet_of_frame (frame_acquireTimeout L r)) ?_
    rw [settled_state, tripOutRelease_lane, settled_flag _ (LN_EVT_FAILED l.val) (unit_ge rfl)]
    exact acquireTimeout_counts hl hs hlos
  · have heq : failedRetry l.val s.dev = laneGo l.val lnACQUIRE s.dev := if_pos hs
    refine answers_running rfl h (quiet_of_frame (frame_failedRetry L r)) ?_
    rw [settled_state, heq]
    exact laneGo_state hl rfl _
  · refine answers_running rfl h (quiet_of_frame (frame_blockLock U r)) ?_
    rw [settled_flag _ (LN_STAT_LOCK l.val) (unit_ge rfl)]
    exact blockLock_locks hl hs hrx

end

section
/-! PROOFS. RETRAIN, REACQ and the sleep bits of LN_CTL (O15). -/

namespace Sys2Proof.Machine

variable {W : Nat → Prop} {S : Part → Prop} {d e : Dev} {s : State} {l : Nat}

/-! ## Footprints -/

theorem frame_txSleep (R : LaneRoom l W S) (on : Bool) (h : Frame W S d e) : Frame W S d (txSleep l on e) := by
  have hctl : Frame W S d (e.putB (LN_CTL_TXSLP l) on) := frame_putB _ _ (R.regs _ (by decide)) h
  exact frame_ite h (frame_ite
    (frame_send _ R.sent (frame_onLane l _ R.lanes R.lane
      (frame_putB (LN_STAT_TXSLEPT l) true (R.regs _ (by decide)) (frame_send16 R 0xAA 0 hctl))))
    (frame_sendIdle R (frame_send16 R 0xAC 0 (frame_putB (LN_STAT_TXSLEPT l) false (R.regs _ (by decide)) hctl))))

theorem frame_rxSleep (R : LaneChainRoom l W S) (on : Bool) (h : Frame W S d e) : Frame W S d (rxSleep l on e) := by
  have hctl : Frame W S d ((e.putB (LN_CTL_RXSLP l) on).putB (LN_STAT_RXSLEPT l) on) :=
    frame_putB _ _ (R.regs _ (by decide)) (frame_putB _ _ (R.regs _ (by decide)) h)
  exact frame_ite h (frame_ite (frame_eqFreeze R.toLaneRoom (frame_put (LN_STAT_LOCK l) 0 (R.regs _ (by decide)) hctl))
    (frame_ite (frame_laneGo R lnFASTRT hctl) (frame_eqFreeze R.toLaneRoom hctl)))

/-! ## Writes of LN_CTL -/

/-- What an accepted write of LN_CTL does. -/
def lnCtlWritten (l v : Nat) (d : Dev) : Dev :=
  let d := rxSleep l (bitOf v 1) (txSleep l (bitOf v 0) d)
  let d := if bitOf v 2 ∧ d.lnState l = lnACTIVE then laneGo l lnFASTRT d else d
  if bitOf v 3 then reacq l d else d

theorem frame_lnCtlWritten (R : LaneChainRoom l W S) (v : Nat) (h : Frame W S d e) : Frame W S d (lnCtlWritten l v e) := by
  have hsleep := frame_rxSleep R (bitOf v 1) (frame_txSleep R.toLaneRoom (bitOf v 0) h)
  have hretrain := frame_ite (p := bitOf v 2 ∧ (rxSleep l (bitOf v 1) (txSleep l (bitOf v 0) e)).lnState l = lnACTIVE)
    (frame_laneGo R lnFASTRT hsleep) hsleep
  exact frame_ite (frame_ite (frame_laneGo R lnACQUIRE hretrain) hretrain) hretrain

/-- A command that writes the word `v` of LN_CTL, where the write is allowed. -/
theorem answers_lnCtl {c : Instr} {P : State → Prop} {o : Origin} {w : Dev → Nat} {v : Nat}
    (hc : exec c s = .next (within (fun d => (wrLnCtl o l (BitVec.ofNat 32 (w d)) d).2) s)) (h : s.awake) (hl : s.dev.mode ≠ modeLOAD)
    (hp : s.dev.permits o .lane = true) (hv : w s.dev = v) (hlt : v < 2 ^ 32) (hok : lnCtlOk l v s.dev = true)
    (hP : P { s with dev := tripOutRelease (lnCtlWritten l v s.dev) }) : Answers c s P := by
  have heq : (wrLnCtl o l (BitVec.ofNat 32 (w s.dev)) s.dev).2 = lnCtlWritten l v s.dev := by
    unfold wrLnCtl
    rw [hv]
    dsimp only
    rw [BitVec.toNat_ofNat, Nat.mod_eq_of_lt hlt, shellWrite_accepted (writable_of_awake h hl) hp hok]
    rfl
  refine answers_within hc h ?_ ?_ <;> rw [heq]
  · exact quiet_of_frame (frame_lnCtlWritten (calmBroad.laneChain l) v (frame_refl _))
  · exact hP

/-- A lane that is ACTIVE takes any write of LN_CTL; the sleep bits want IDLE. -/
theorem lnCtlOk_active {v : Nat} (hs : d.lnState l = lnACTIVE) (h : (bitOf v 0 || bitOf v 1) = false ∨ d.mode = modeIDLE) :
    lnCtlOk l v d = true := by
  have hup : (lnACTIVE != lnDOWN) = true := rfl
  unfold lnCtlOk
  rw [hs, beq_self_eq_true, hup]
  rcases h with h | h <;> simp [h]

/-! ## The sleep bits as they stand -/

theorem get_of_word {x : Fld} {w : Word} (h : d.word x.addr = w) : d.get x = fldGet w x := by rw [Dev.get, h]

theorem flag_of_word {x : Fld} {w : Word} (h : d.word x.addr = w) : d.flag x = (fldGet w x != 0) := by rw [Dev.flag, get_of_word h]

/-- A direction whose bit stands as written is left alone. -/
theorem txSleep_same {on : Bool} (h : d.flag (LN_CTL_TXSLP l) = on) : txSleep l on d = d := by
  unfold txSleep
  exact if_pos (by rw [h]; exact beq_self_eq_true on)

theorem rxSleep_same {on : Bool} (h : d.flag (LN_CTL_RXSLP l) = on) : rxSleep l on d = d := by
  unfold rxSleep
  exact if_pos (by rw [h]; exact beq_self_eq_true on)

/-- The registers once the transmit direction has changed between sleep and waking. -/
theorem txSleep_word {on : Bool} (h : d.flag (LN_CTL_TXSLP l) = !on) (a : Nat) :
    (txSleep l on d).word a = ((d.putB (LN_CTL_TXSLP l) on).putB (LN_STAT_TXSLEPT l) on).word a := by
  unfold txSleep
  rw [if_neg (by rw [h]; cases on <;> decide)]
  cases on
  · exact (word_laneOut _ _ _ _).trans (word_send16 _ _ _ _ _)
  · exact (word_send _ _ _).trans ((word_onLane _ _ _ _).trans (word_put_congr _ _ _ (word_send16 _ _ _ _ _)))

theorem txSleep_shows {on : Bool} (h : d.flag (LN_CTL_TXSLP l) = !on) : (txSleep l on d).flag (LN_CTL_TXSLP l) = on ∧
    (txSleep l on d).flag (LN_STAT_TXSLEPT l) = on ∧ (txSleep l on d).lnState l = d.lnState l ∧
    (txSleep l on d).flag (LN_CTL_RXSLP l) = d.flag (LN_CTL_RXSLP l) := by
  have hget (x : Fld) : (txSleep l on d).get x = ((d.putB (LN_CTL_TXSLP l) on).putB (LN_STAT_TXSLEPT l) on).get x :=
    get_congr _ _ _ (txSleep_word h _)
  refine ⟨?_, ?_, ?_, ?_⟩
  · rw [flag_congr (hget _)]
    exact (flag_put_ne _ _ _ _ (off_ne _ (by decide))).trans (uflag_putB d (LN_CTL_TXSLP l) on rfl rfl)
  · rw [flag_congr (hget _)]
    exact uflag_putB _ (LN_STAT_TXSLEPT l) on rfl rfl
  · rw [Dev.lnState, hget]
    exact (ufld_put_disj _ (LN_STAT_TXSLEPT l) (LN_STAT_STATE l) _ rfl rfl).trans (get_put_ne _ _ _ _ (off_ne _ (by decide)))
  · rw [flag_congr (hget _)]
    exact (flag_put_ne _ _ _ _ (off_ne _ (by decide))).trans (uflag_put_disj d (LN_CTL_TXSLP l) (LN_CTL_RXSLP l) _ rfl rfl)

/-- The receive direction falls asleep. -/
theorem rxSleep_sleeps (h : d.flag (LN_CTL_RXSLP l) = false) : (rxSleep l true d).flag (LN_CTL_RXSLP l) = true ∧
    (rxSleep l true d).flag (LN_STAT_RXSLEPT l) = true ∧ (rxSleep l true d).flag (LN_STAT_LOCK l) = false ∧
    (rxSleep l true d).flag (LN_EQ_FROZEN l) = true := by
  have hslept (e : Dev) : ((e.putB (LN_STAT_RXSLEPT l) true).put (LN_STAT_LOCK l) 0).flag (LN_STAT_RXSLEPT l) = true :=
    (uflag_put_disj _ (LN_STAT_LOCK l) (LN_STAT_RXSLEPT l) 0 rfl rfl).trans (uflag_putB e (LN_STAT_RXSLEPT l) true rfl rfl)
  unfold rxSleep
  rw [if_neg (by rw [h]; decide), if_pos rfl]
  refine ⟨?_, ?_, ?_, ?_⟩
  · rw [flag_congr (eqFreeze_get l _ (LN_CTL_RXSLP l) (off_ne _ (by decide)))]
    exact (flag_put_ne _ _ _ _ (off_ne _ (by decide))).trans ((flag_put_ne _ _ _ _ (off_ne _ (by decide))).trans
      (uflag_putB d (LN_CTL_RXSLP l) true rfl rfl))
  · rw [flag_congr (eqFreeze_get l _ (LN_STAT_RXSLEPT l) (off_ne _ (by decide)))]
    exact hslept _
  · rw [flag_congr (eqFreeze_get l _ (LN_STAT_LOCK l) (off_ne _ (by decide)))]
    exact uflag_put_zero _ (LN_STAT_LOCK l) rfl
  · refine (uflag_putB _ (LN_EQ_FROZEN l) _ rfl rfl).trans ?_
    rw [hslept, Bool.or_true, Bool.true_or]

/-- The receive direction of an ACTIVE lane wakes and relocks through FASTRT. -/
theorem rxSleep_wakes (hl : l < 130) (h : d.flag (LN_CTL_RXSLP l) = true) (hs : d.lnState l = lnACTIVE) :
    (rxSleep l false d).flag (LN_CTL_RXSLP l) = false ∧ (rxSleep l false d).flag (LN_STAT_RXSLEPT l) = false ∧
      (rxSleep l false d).lnState l = lnFASTRT := by
  have hs' : ((d.putB (LN_CTL_RXSLP l) false).putB (LN_STAT_RXSLEPT l) false).lnState l = lnACTIVE :=
    (ufld_put_disj _ (LN_STAT_RXSLEPT l) (LN_STAT_STATE l) _ rfl rfl).trans ((get_put_ne _ _ _ _ (off_ne _ (by decide))).trans hs)
  have heq : rxSleep l false d = laneGo l lnFASTRT ((d.putB (LN_CTL_RXSLP l) false).putB (LN_STAT_RXSLEPT l) false) := by
    unfold rxSleep
    rw [if_neg (by rw [h]; decide), if_neg (by decide)]
    exact if_pos hs'
  rw [heq]
  refine ⟨?_, ?_, laneGo_state hl rfl _⟩
  · rw [flag_congr (get_congr _ _ (LN_CTL_RXSLP l) (laneGo_word hl _ _ 0x1000c (by decide)))]
    exact (flag_put_ne _ _ _ _ (off_ne _ (by decide))).trans (uflag_putB d (LN_CTL_RXSLP l) false rfl rfl)
  · rw [laneGo_rxslept hl]
    exact uflag_putB _ (LN_STAT_RXSLEPT l) false rfl rfl

/-- A write without a command of the state machine. -/
theorem lnCtlWritten_sleep {v : Nat} {b0 b1 : Bool} (h0 : bitOf v 0 = b0) (h1 : bitOf v 1 = b1) (h2 : bitOf v 2 = false)
    (h3 : bitOf v 3 = false) (d : Dev) : lnCtlWritten l v d = rxSleep l b1 (txSleep l b0 d) := by
  unfold lnCtlWritten
  simp only [h0, h1, h2, h3, Bool.false_eq_true, false_and, if_false]

/-- RETRAIN of an ACTIVE lane. -/
theorem lnCtlWritten_retrain (hl : l < 130) (hs : d.lnState l = lnACTIVE) (htx : d.flag (LN_CTL_TXSLP l) = false)
    (hrx : d.flag (LN_CTL_RXSLP l) = false) : (lnCtlWritten l 4 d).lnState l = lnFASTRT := by
  have h0 : bitOf 4 0 = false := rfl
  have h1 : bitOf 4 1 = false := rfl
  have h2 : bitOf 4 2 = true := rfl
  have h3 : bitOf 4 3 = false := rfl
  unfold lnCtlWritten
  simp only [h0, h1, h2, h3, txSleep_same htx, rxSleep_same hrx, hs, Bool.false_eq_true, if_false, and_self, if_true]
  exact laneGo_state hl rfl d

/-- REACQ of an ACTIVE lane. -/
theorem lnCtlWritten_reacq (hl : l < 130) (hs : d.lnState l = lnACTIVE) (htx : d.flag (LN_CTL_TXSLP l) = false)
    (hrx : d.flag (LN_CTL_RXSLP l) = false) : (lnCtlWritten l 8 d).lnState l = lnACQUIRE := by
  have h0 : bitOf 8 0 = false := rfl
  have h1 : bitOf 8 1 = false := rfl
  have h2 : bitOf 8 2 = false := rfl
  have h3 : bitOf 8 3 = true := rfl
  have hreacq : reacq l d = laneGo l lnACQUIRE d := if_pos (.inl hs)
  unfold lnCtlWritten
  simp only [h0, h1, h2, h3, txSleep_same htx, rxSleep_same hrx, Bool.false_eq_true, false_and, if_false, if_true, hreacq]
  exact laneGo_state hl rfl d

end Sys2Proof.Machine

open Sys2Proof Machine

/-- Settles O15, by what each bit of LN_CTL does. -/
theorem laneControl : Obligations.LaneControl := by
  unfold Obligations.LaneControl
  intro o l s h hl hp hs
  have hlt := l.isLt
  have settled_state (d : Dev) : (tripOutRelease d).lnState l.val = d.lnState l.val := settled_get d (LN_STAT_STATE l.val) (unit_ge rfl)
  refine ⟨fun hw => ?_, fun hw => ?_, fun hw => ?_⟩
  · have hctl : lnCtl l.val s.dev = 0 := by rw [lnCtl, hw]; rfl
    have htx : s.dev.flag (LN_CTL_TXSLP l.val) = false := flag_of_word (x := LN_CTL_TXSLP l.val) hw
    have hrx : s.dev.flag (LN_CTL_RXSLP l.val) = false := flag_of_word (x := LN_CTL_RXSLP l.val) hw
    refine ⟨?_, ?_, fun hm => ⟨?_, ?_⟩⟩
    · refine answers_lnCtl (v := 4) (w := fun d => setBit (lnCtl l.val d) 2) rfl h hl hp (by rw [hctl]; rfl) (by decide)
        (lnCtlOk_active hs (.inl rfl)) ?_
      rw [settled_state]
      exact lnCtlWritten_retrain hlt hs htx hrx
    · refine answers_lnCtl (v := 8) (w := fun d => setBit (lnCtl l.val d) 3) rfl h hl hp (by rw [hctl]; rfl) (by decide)
        (lnCtlOk_active hs (.inl rfl)) ?_
      rw [settled_state]
      exact lnCtlWritten_reacq hlt hs htx hrx
    · refine answers_lnCtl (v := 1) (w := fun d => setBit (lnCtl l.val d) 0) rfl h hl hp (by rw [hctl]; rfl) (by decide)
        (lnCtlOk_active hs (.inr hm)) ?_
      obtain ⟨hbit, hslept, hstate, hother⟩ := txSleep_shows (on := true) htx
      rw [settled_state, settled_flag _ (LN_CTL_TXSLP l.val) (unit_ge rfl), settled_flag _ (LN_STAT_TXSLEPT l.val) (unit_ge rfl),
        lnCtlWritten_sleep (b0 := true) (b1 := false) rfl rfl rfl rfl, rxSleep_same (hother.trans hrx)]
      exact ⟨hbit, hslept, hstate.trans hs⟩
    · refine answers_lnCtl (v := 2) (w := fun d => setBit (lnCtl l.val d) 1) rfl h hl hp (by rw [hctl]; rfl) (by decide)
        (lnCtlOk_active hs (.inr hm)) ?_
      rw [settled_flag _ (LN_CTL_RXSLP l.val) (unit_ge rfl), settled_flag _ (LN_STAT_RXSLEPT l.val) (unit_ge rfl),
        settled_flag _ (LN_STAT_LOCK l.val) (unit_ge rfl), settled_flag _ (LN_EQ_FROZEN l.val) (unit_ge rfl),
        lnCtlWritten_sleep (b0 := false) (b1 := true) rfl rfl rfl rfl, txSleep_same htx]
      exact rxSleep_sleeps hrx
  · have hctl : lnCtl l.val s.dev = 1 := by rw [lnCtl, hw]; rfl
    have htx : s.dev.flag (LN_CTL_TXSLP l.val) = true := flag_of_word (x := LN_CTL_TXSLP l.val) hw
    have hrx : s.dev.flag (LN_CTL_RXSLP l.val) = false := flag_of_word (x := LN_CTL_RXSLP l.val) hw
    refine answers_lnCtl (v := 0) (w := fun d => clrBit (lnCtl l.val d) 0) rfl h hl hp (by rw [hctl]; rfl) (by decide)
      (lnCtlOk_active hs (.inl rfl)) ?_
    obtain ⟨hbit, hslept, hstate, hother⟩ := txSleep_shows (on := false) htx
    rw [settled_state, settled_flag _ (LN_CTL_TXSLP l.val) (unit_ge rfl), settled_flag _ (LN_STAT_TXSLEPT l.val) (unit_ge rfl),
      lnCtlWritten_sleep (b0 := false) (b1 := false) rfl rfl rfl rfl, rxSleep_same (hother.trans hrx)]
    exact ⟨hbit, hslept, hstate.trans hs⟩
  · have hctl : lnCtl l.val s.dev = 2 := by rw [lnCtl, hw]; rfl
    have htx : s.dev.flag (LN_CTL_TXSLP l.val) = false := (flag_of_word (x := LN_CTL_TXSLP l.val) hw).trans (by simp [fldGet, LN_CTL_TXSLP])
    have hrx : s.dev.flag (LN_CTL_RXSLP l.val) = true := flag_of_word (x := LN_CTL_RXSLP l.val) hw
    refine answers_lnCtl (v := 0) (w := fun d => clrBit (lnCtl l.val d) 1) rfl h hl hp (by rw [hctl]; rfl) (by decide)
      (lnCtlOk_active hs (.inl rfl)) ?_
    rw [settled_state, settled_flag _ (LN_CTL_RXSLP l.val) (unit_ge rfl), settled_flag _ (LN_STAT_RXSLEPT l.val) (unit_ge rfl),
      lnCtlWritten_sleep (b0 := false) (b1 := false) rfl rfl rfl rfl, txSleep_same htx]
    exact rxSleep_wakes hlt hrx hs

end

section
/-! PROOFS. Rate steps of a lane, alone and with its partner (O16). -/

namespace Sys2Proof.Machine

variable {W : Nat → Prop} {S : Part → Prop} {d e : Dev} {s : State} {l k v : Nat}

/-! ## What a negotiation looks at -/

/-- Two devices with the same registers agree on who negotiates alone, and up to which step. -/
theorem alone_congr (h : ∀ a, e.word a = d.word a) (l : Nat) : alone l e = alone l d := by
  simp only [alone, Dev.lnState, Dev.flag, Dev.get, h]

theorem lnState_congr (h : ∀ a, e.word a = d.word a) (l : Nat) : e.lnState l = d.lnState l := get_congr _ _ _ (h _)

theorem stepCap_congr (h : ∀ a, e.word a = d.word a) (l : Nat) : stepCap l e = stepCap l d := by
  unfold stepCap
  dsimp only
  rw [lnState_congr h, get_congr _ _ (LN_CFG_MAXSTEP l) (h _), get_congr _ _ (LN_STAT_STEP (partner l)) (h _)]

/-- No step lies above the third. -/
theorem stepCap_le (l : Nat) (d : Dev) : stepCap l d < 4 := by
  have hmax : d.get (LN_CFG_MAXSTEP l) < 4 := get_lt d (LN_CFG_MAXSTEP l)
  unfold stepCap
  dsimp only
  split
  · exact Nat.lt_of_le_of_lt (Nat.min_le_left _ _) hmax
  · exact hmax

/-! ## A step that stands -/

/-- The lane's own report of a step. -/
def stepReported (l : Nat) (d : Dev) : Dev := d.onLane l fun x => { x with passed := true }

theorem stepStands_word (l n : Nat) (d : Dev) (a : Nat) : (stepStands l n d).word a = d.word a :=
  (word_onLane _ _ _ _).trans (word_send16 _ _ _ _ _)

theorem stepStands_lane (l n : Nat) (d : Dev) : (stepStands l n d).lane l = { d.lane l with target := none, passed := false } := by
  unfold stepStands
  rw [lane_onLane_same, lane_send16]

theorem stepStands_other (n : Nat) (h : k ≠ l) (d : Dev) : (stepStands l n d).lane k = d.lane k := by
  unfold stepStands
  rw [lane_onLane_ne _ _ _ _ h.symm, lane_send16]

/-! ## A step that verifies -/

/-- A step that verifies on a lane that negotiates. -/
theorem rateStepPass_verified (ht : (d.lane l).target = some v) (hs : d.lnState l = lnNEGOTIATE)
    (hlock : d.flag (LN_STAT_LOCK l) = true) (hr : 128 ≤ l → (d.lane l).rxStep = v) : rateStepPass l d =
      if alone l (stepReported l d) = true then
        (if twinPassed l v (stepReported l d) = true then wakePartner l (stepNext l (stepStands l v (stepReported l d))) else stepReported l d)
      else if ((stepReported l d).lane (partner l)).passed = true then
        stepNext l (stepStands (partner l) v (stepStands l v (stepReported l d)))
      else stepReported l d := by
  have hskip : ¬ (d.lnState l ≠ lnNEGOTIATE ∨ ¬ d.flag (LN_STAT_LOCK l) = true ∨ (128 ≤ l ∧ (d.lane l).rxStep ≠ v)) := by
    rintro (h | h | h)
    · exact h hs
    · exact h hlock
    · exact h.2 (hr h.1)
  unfold rateStepPass
  rw [ht]
  exact if_neg hskip

/-- A lane that negotiates alone goes on by itself. -/
theorem rateStepPass_alone (ht : (d.lane l).target = some v) (hs : d.lnState l = lnNEGOTIATE) (hlock : d.flag (LN_STAT_LOCK l) = true)
    (hr : 128 ≤ l → (d.lane l).rxStep = v) (ha : alone l d = true) (hp : d.flag GL_TWCFG_PAIR = false) :
    rateStepPass l d = wakePartner l (stepNext l (stepStands l v (stepReported l d))) := by
  have ha' : alone l (stepReported l d) = true := ha
  have hp' : (stepReported l d).flag GL_TWCFG_PAIR = false := hp
  have hpassed : twinPassed l v (stepReported l d) = true := by
    unfold twinPassed
    exact if_neg (by simp [hp'])
  rw [rateStepPass_verified ht hs hlock hr, if_pos ha', if_pos hpassed]

/-- What the next step of a lane alone shows. -/
theorem stepNext_alone_shows (hl : l < 130) (ha : alone l d = true) (hs : d.lnState l = lnNEGOTIATE)
    (hv : d.get (LN_STAT_STEP l) = v) :
    if v < stepCap l d then
      (wakePartner l (stepNext l d)).lnState l = lnNEGOTIATE ∧ (wakePartner l (stepNext l d)).get (LN_STAT_STEP l) = v + 1 ∧
        (wakePartner l (stepNext l d)).flag (LN_STAT_LOCK l) = false ∧ ((wakePartner l (stepNext l d)).lane l).target = some (v + 1)
    else (wakePartner l (stepNext l d)).lnState l = lnACTIVE ∧ (wakePartner l (stepNext l d)).get (LN_STAT_STEP l) = v := by
  have hcap := stepCap_le l d
  rw [stepNext_alone ha, hv]
  by_cases hlt : v < stepCap l d
  · rw [if_pos hlt, if_pos hlt]
    have hstate : (stepStart l (v + 1) d).lnState l = lnNEGOTIATE := (stepStart_state l (v + 1) d).trans hs
    have hwake : wakePartner l (stepStart l (v + 1) d) = stepStart l (v + 1) d := by
      unfold wakePartner
      exact if_neg (by rw [hstate]; exact fun k => absurd k.2 (by decide))
    rw [hwake]
    obtain ⟨x, t, -, hx⟩ := stepStart_lane l (v + 1) d
    refine ⟨hstate, (stepStart_step l (v + 1) d).trans (Nat.mod_eq_of_lt (by omega)), stepStart_lock l (v + 1) d, ?_⟩
    rw [hx]
  · rw [if_neg hlt, if_neg hlt]
    refine ⟨?_, ?_⟩
    · rw [Dev.lnState, wakePartner_get hl _ (LN_STAT_STATE l) rfl]
      exact laneGo_state hl rfl d
    · rw [wakePartner_get hl _ (LN_STAT_STEP l) rfl]
      exact (laneGo_keeps hl (.inr rfl) d (LN_STAT_STEP l) rfl rfl rfl).trans hv

/-- A step that stands alone leads on. -/
theorem rateStepPass_alone_shows (hl : l < 130) (ht : (d.lane l).target = some v) (hs : d.lnState l = lnNEGOTIATE)
    (hlock : d.flag (LN_STAT_LOCK l) = true) (hr : 128 ≤ l → (d.lane l).rxStep = v) (ha : alone l d = true)
    (hp : d.flag GL_TWCFG_PAIR = false) (hv : v = d.get (LN_STAT_STEP l)) :
    if v < stepCap l d then
      (rateStepPass l d).lnState l = lnNEGOTIATE ∧ (rateStepPass l d).get (LN_STAT_STEP l) = v + 1 ∧
        (rateStepPass l d).flag (LN_STAT_LOCK l) = false ∧ ((rateStepPass l d).lane l).target = some (v + 1)
    else (rateStepPass l d).lnState l = lnACTIVE ∧ (rateStepPass l d).get (LN_STAT_STEP l) = v := by
  have hword (a : Nat) : (stepStands l v (stepReported l d)).word a = d.word a := stepStands_word _ _ _ _
  rw [rateStepPass_alone ht hs hlock hr ha hp, ← stepCap_congr hword l]
  exact stepNext_alone_shows hl ((alone_congr hword l).trans ha) ((lnState_congr hword l).trans hs)
    ((get_congr _ _ (LN_STAT_STEP l) (hword _)).trans hv.symm)

/-! ## A step that fails -/

theorem stepRevert_word (ht : (d.lane l).target = some v) : (stepRevert l d).word (LN_STAT l) =
    ((d.put (LN_STAT_STEP l) (v - 1)).put (LN_STAT_LOCK l) 0).word (LN_STAT l) := by
  unfold stepRevert
  rw [ht]
  exact (raise_stat (LN_EVT_STEPFAIL l) .notice l _ rfl).trans ((word_onLane _ _ _ _).trans ((word_laneOut _ _ _ _).trans
    (word_put_congr _ _ _ (word_put_congr _ _ _ (word_eqAdapt _ _ _)))))

/-- A lane that reverts. -/
theorem stepRevert_shows (ht : (d.lane l).target = some v) (hs : d.lnState l = lnNEGOTIATE) (hv : v < 4) :
    (stepRevert l d).lnState l = lnNEGOTIATE ∧ (stepRevert l d).get (LN_STAT_STEP l) = v - 1 ∧
      (stepRevert l d).flag (LN_STAT_LOCK l) = false ∧ (stepRevert l d).flag (LN_EVT_STEPFAIL l) = true ∧
      ((stepRevert l d).lane l).target = none := by
  have hstat (x : Fld) (hx : x.addr = LN_STAT l) :
      (stepRevert l d).get x = ((d.put (LN_STAT_STEP l) (v - 1)).put (LN_STAT_LOCK l) 0).get x :=
    get_congr _ _ _ (hx ▸ stepRevert_word ht)
  refine ⟨?_, ?_, ?_, ?_, ?_⟩
  · rw [Dev.lnState, hstat (LN_STAT_STATE l) rfl, ufld_put_disj _ (LN_STAT_LOCK l) (LN_STAT_STATE l) _ rfl rfl,
      ufld_put_disj _ (LN_STAT_STEP l) (LN_STAT_STATE l) _ rfl rfl]
    exact hs
  · rw [hstat (LN_STAT_STEP l) rfl, ufld_put_disj _ (LN_STAT_LOCK l) (LN_STAT_STEP l) _ rfl rfl, ufld_put_mod _ (LN_STAT_STEP l) _ rfl]
    exact Nat.mod_eq_of_lt (Nat.lt_of_le_of_lt (Nat.sub_le v 1) hv)
  · rw [flag_congr (hstat (LN_STAT_LOCK l) rfl)]
    exact uflag_put_zero _ (LN_STAT_LOCK l) rfl
  · unfold stepRevert
    rw [ht]
    exact uflag_raise _ (LN_EVT_STEPFAIL l) .notice (unit_ge rfl) rfl rfl
  · unfold stepRevert
    rw [ht]
    dsimp only
    rw [raise_lane, lane_onLane_same]

/-- A lane that reverts leaves another one. -/
theorem stepRevert_lane (h : k ≠ l) (d : Dev) : (stepRevert l d).lane k = d.lane k :=
  (frame_stepRevert (otherRoom h) (frame_refl d)).parts (.lane k) (fun hp => hp rfl)

theorem stepRevert_other (h : k ≠ l) (hl : l < 130) {a : Nat} (hlo : LN_CFG l ≤ a) (hhi : a < LN_CFG (l + 1)) (he : a ≠ LN_TMXE2E l)
    (d : Dev) : (stepRevert k d).word a = d.word a :=
  (frame_stepRevert (awayRoom h hl hlo hhi he).toLaneRoom (frame_refl d)).words a (fun k => k rfl)

theorem evt_bounds (l : Nat) : LN_CFG l ≤ LN_EVT l ∧ LN_EVT l < LN_CFG (l + 1) ∧ LN_EVT l ≠ LN_TMXE2E l := by
  refine ⟨?_, ?_, off_ne _ (by decide)⟩ <;> unfold LN_CFG LN_EVT <;> omega

/-- Both lanes of a unit revert. -/
theorem unitRevert_shows (hl : l < 130) (ht : (d.lane l).target = some v) (hs : d.lnState l = lnNEGOTIATE)
    (hm : (d.lane (partner l)).target = some v) (hms : d.lnState (partner l) = lnNEGOTIATE) (hml : partner l < 130) (hv : v < 4) :
    ∀ x, x = l ∨ x = partner l → (stepRevert (partner l) (stepRevert l d)).lnState x = lnNEGOTIATE ∧
      (stepRevert (partner l) (stepRevert l d)).get (LN_STAT_STEP x) = v - 1 ∧
      (stepRevert (partner l) (stepRevert l d)).flag (LN_STAT_LOCK x) = false ∧
      (stepRevert (partner l) (stepRevert l d)).flag (LN_EVT_STEPFAIL x) = true := by
  have hne := partner_ne l
  rintro x (rfl | rfl)
  · obtain ⟨hstate, hstep, hlock, hfail, -⟩ := stepRevert_shows ht hs hv
    obtain ⟨slo, shi, se⟩ := stat_bounds x
    obtain ⟨elo, ehi, ee⟩ := evt_bounds x
    have hstat (y : Fld) (hy : y.addr = LN_STAT x) : (stepRevert (partner x) (stepRevert x d)).get y = (stepRevert x d).get y :=
      get_congr _ _ _ (hy ▸ stepRevert_other hne hl slo shi se _)
    refine ⟨(hstat (LN_STAT_STATE x) rfl).trans hstate, (hstat (LN_STAT_STEP x) rfl).trans hstep,
      (flag_congr (hstat (LN_STAT_LOCK x) rfl)).trans hlock, ?_⟩
    exact (flag_congr (get_congr _ _ (LN_EVT_STEPFAIL x) (stepRevert_other hne hl elo ehi ee _))).trans hfail
  · obtain ⟨slo, shi, se⟩ := stat_bounds (partner l)
    have hms' : (stepRevert l d).lnState (partner l) = lnNEGOTIATE :=
      (get_congr _ _ (LN_STAT_STATE (partner l)) (stepRevert_other hne.symm hml slo shi se d)).trans hms
    obtain ⟨hstate, hstep, hlock, hfail, -⟩ := stepRevert_shows ((congrArg LaneSt.target (stepRevert_lane hne d)).trans hm) hms' hv
    exact ⟨hstate, hstep, hlock, hfail⟩

/-! ## A unit of two lanes goes on -/

/-- A lane that does not negotiate alone has a partner among the lanes of quires. -/
theorem unit_lt (ha : alone l d = false) : partner l < 130 :=
  Nat.lt_trans (partner_lt (lt_of_not_alone (e := d) (by simp [ha]))) (by decide)

/-- Both lanes of a unit start the same step. -/
theorem unitStart_shows (hl : l < 130) (hml : partner l < 130) (hs : d.lnState l = lnNEGOTIATE)
    (hms : d.lnState (partner l) = lnNEGOTIATE) (hv : v < 4) : ∀ x, x = l ∨ x = partner l →
      (stepStart (partner l) v (stepStart l v d)).lnState x = lnNEGOTIATE ∧
      (stepStart (partner l) v (stepStart l v d)).get (LN_STAT_STEP x) = v ∧
      (stepStart (partner l) v (stepStart l v d)).flag (LN_STAT_LOCK x) = false := by
  have hne := partner_ne l
  rintro x (rfl | rfl)
  · have hother (y : Fld) (hy : y.addr = LN_STAT x) : (stepStart (partner x) v (stepStart x v d)).get y = (stepStart x v d).get y :=
      stepStart_other v hne hl _ y hy
    exact ⟨(hother (LN_STAT_STATE x) rfl).trans ((stepStart_state x v d).trans hs),
      (hother (LN_STAT_STEP x) rfl).trans ((stepStart_step x v d).trans (Nat.mod_eq_of_lt hv)),
      (flag_congr (hother (LN_STAT_LOCK x) rfl)).trans (stepStart_lock x v d)⟩
  · have hother : (stepStart l v d).lnState (partner l) = lnNEGOTIATE :=
      (stepStart_other v hne.symm hml d (LN_STAT_STATE (partner l)) rfl).trans hms
    exact ⟨(stepStart_state _ v _).trans hother, (stepStart_step _ v _).trans (Nat.mod_eq_of_lt hv), stepStart_lock _ v _⟩

theorem pairActive_partner (hml : partner l < 130) (d : Dev) (x : Fld) (hx : x.addr = LN_STAT (partner l)) :
    (pairActive l d).get x = (statSet (partner l) lnACTIVE d).get x := by
  refine get_congr _ _ _ (hx ▸ ?_)
  unfold pairActive
  refine (chainUpdate_word (l / 2) true _ (LN_STAT (partner l)) (by unfold LN_STAT; omega) (by unfold LN_STAT LN_TMXE2E; omega)
    (by unfold LN_STAT LN_TMXE2E; omega) (above_ne _ (by decide)) (above_ne _ (by decide))).trans ?_
  obtain ⟨hlo, hhi, he⟩ := stat_bounds (partner l)
  refine (laneSet_stat (partner l) lnACTIVE _).trans ?_
  rw [statSet_keeps (.inr rfl), statSet_keeps (.inr rfl)]
  refine word_put_congr _ _ _ ?_
  exact (frame_laneSet (awayRoom (partner_ne l).symm hml hlo hhi he).toLaneRoom lnACTIVE (frame_refl d)).words _ (fun k => k rfl)

/-- Both lanes of a unit become ACTIVE at the step they stand at. -/
theorem pairActive_shows (hl : l < 130) (hml : partner l < 130) (hv : d.get (LN_STAT_STEP l) = v)
    (hmv : d.get (LN_STAT_STEP (partner l)) = v) : ∀ x, x = l ∨ x = partner l →
      (pairActive l d).lnState x = lnACTIVE ∧ (pairActive l d).get (LN_STAT_STEP x) = v := by
  have hset (x : Nat) : (d.put (LN_STAT_STATE x) lnACTIVE).get (LN_STAT_STATE x) = lnACTIVE := ufld_put d (LN_STAT_STATE x) lnACTIVE rfl rfl
  have hkeep (x : Nat) : (d.put (LN_STAT_STATE x) lnACTIVE).get (LN_STAT_STEP x) = d.get (LN_STAT_STEP x) :=
    ufld_put_disj d (LN_STAT_STATE x) (LN_STAT_STEP x) _ rfl rfl
  rintro x (rfl | rfl)
  · rw [Dev.lnState, pairActive_stat hl d (LN_STAT_STATE x) rfl, pairActive_stat hl d (LN_STAT_STEP x) rfl, statSet_keeps (.inr rfl)]
    exact ⟨hset x, (hkeep x).trans hv⟩
  · rw [Dev.lnState, pairActive_partner hml d (LN_STAT_STATE _) rfl, pairActive_partner hml d (LN_STAT_STEP _) rfl,
      statSet_keeps (.inr rfl)]
    exact ⟨hset _, (hkeep _).trans hmv⟩

/-- Both lanes of a unit have verified: the unit goes on from where it stands. -/
theorem stepNext_unit (ha : alone l d = false) (hms : d.lnState (partner l) = lnNEGOTIATE) (ht : (d.lane (partner l)).target = none)
    (hf : (d.lane (partner l)).fell = false) : stepNext l d =
      if d.get (LN_STAT_STEP l) < stepCap l d ∧ d.get (LN_STAT_STEP l) < stepCap (partner l) d then
        stepStart (partner l) (d.get (LN_STAT_STEP l) + 1) (stepStart l (d.get (LN_STAT_STEP l) + 1) d)
      else pairActive l d := by
  have hgo : ¬ (d.lnState (partner l) ≠ lnNEGOTIATE ∨ (d.lane (partner l)).target.isSome = true ∨ (d.lane (partner l)).fell = true) := by
    rw [hms, ht, hf]
    decide
  unfold stepNext
  rw [if_neg (by simp [ha])]
  dsimp only
  exact if_neg hgo

/-- What a step that verifies shows on both lanes of a unit. -/
theorem rateStepPass_unit_shows (hl : l < 130) (hml : partner l < 130) (ht : (d.lane l).target = some v)
    (hs : d.lnState l = lnNEGOTIATE) (hlock : d.flag (LN_STAT_LOCK l) = true) (ha : alone l d = false)
    (hv : d.get (LN_STAT_STEP l) = v) (hms : d.lnState (partner l) = lnNEGOTIATE) (hmv : d.get (LN_STAT_STEP (partner l)) = v)
    (hf : (d.lane (partner l)).fell = false) : ∀ x, x = l ∨ x = partner l →
      if (d.lane (partner l)).passed = false then
        (rateStepPass l d).lnState x = lnNEGOTIATE ∧ (rateStepPass l d).get (LN_STAT_STEP x) = v ∧
          ((rateStepPass l d).lane l).passed = true
      else if v < stepCap l d ∧ v < stepCap (partner l) d then
        (rateStepPass l d).lnState x = lnNEGOTIATE ∧ (rateStepPass l d).get (LN_STAT_STEP x) = v + 1 ∧
          (rateStepPass l d).flag (LN_STAT_LOCK x) = false
      else (rateStepPass l d).lnState x = lnACTIVE ∧ (rateStepPass l d).get (LN_STAT_STEP x) = v := by
  have hne := partner_ne l
  have hr : 128 ≤ l → (d.lane l).rxStep = v := fun h => absurd ha (by simp [alone, h])
  have ha' : alone l (stepReported l d) = false := ha
  have hother : (stepReported l d).lane (partner l) = d.lane (partner l) := lane_onLane_ne _ _ _ _ hne.symm
  rw [rateStepPass_verified ht hs hlock hr, if_neg (by simp [ha']), hother]
  intro x hx
  by_cases hp : (d.lane (partner l)).passed = false
  · have hself : ((stepReported l d).lane l).passed = true := by
      unfold stepReported
      rw [lane_onLane_same]
    rw [if_pos hp, if_neg (by simp [hp])]
    refine ⟨?_, ?_, hself⟩
    · rcases hx with rfl | rfl
      · exact hs
      · exact hms
    · rcases hx with rfl | rfl
      · exact hv
      · exact hmv
  · have hp' : (d.lane (partner l)).passed = true := by simpa using hp
    rw [if_neg hp, if_pos hp']
    have hword (a : Nat) : (stepStands (partner l) v (stepStands l v (stepReported l d))).word a = d.word a :=
      (stepStands_word _ _ _ _).trans (stepStands_word _ _ _ _)
    have hlane := (stepStands_lane (partner l) v (stepStands l v (stepReported l d)))
    rw [stepStands_other v hne, hother] at hlane
    have hgo := stepNext_unit ((alone_congr hword l).trans ha) ((lnState_congr hword _).trans hms) (by rw [hlane]) (by rw [hlane]; exact hf)
    have hv' := (get_congr _ _ (LN_STAT_STEP l) (hword _)).trans hv
    rw [hgo, hv', stepCap_congr hword, stepCap_congr hword]
    by_cases hcap : v < stepCap l d ∧ v < stepCap (partner l) d
    · rw [if_pos hcap, if_pos hcap]
      have hlt := stepCap_le l d
      exact unitStart_shows hl hml ((lnState_congr hword _).trans hs) ((lnState_congr hword _).trans hms) (by omega) x hx
    · rw [if_neg hcap, if_neg hcap]
      exact pairActive_shows hl hml hv' ((get_congr _ _ (LN_STAT_STEP (partner l)) (hword _)).trans hmv) x hx

end Sys2Proof.Machine

open Sys2Proof Machine

/-- Settles O16, by the next step of a lane alone, of a unit of two, and by the step before. -/
theorem laneRateSteps : Obligations.LaneRateSteps := by
  unfold Obligations.LaneRateSteps
  intro l s v h hs ht hv hpos
  have U := calmBroad.unit l.val
  have r := frame_refl (W := calmRegs) (S := calmParts) s.dev
  have hl := l.isLt
  have hstep : v < 4 := hv ▸ get_lt s.dev (LN_STAT_STEP l.val)
  have settled_state (d : Dev) (k : Nat) : (tripOutRelease d).lnState k = d.lnState k := settled_get d (LN_STAT_STATE k) (unit_ge rfl)
  have settled_step (d : Dev) (k : Nat) : (tripOutRelease d).get (LN_STAT_STEP k) = d.get (LN_STAT_STEP k) :=
    settled_get d (LN_STAT_STEP k) (unit_ge rfl)
  have settled_lock (d : Dev) (k : Nat) : (tripOutRelease d).flag (LN_STAT_LOCK k) = d.flag (LN_STAT_LOCK k) :=
    settled_flag d (LN_STAT_LOCK k) (unit_ge rfl)
  have settled_fail (d : Dev) (k : Nat) : (tripOutRelease d).flag (LN_EVT_STEPFAIL k) = d.flag (LN_EVT_STEPFAIL k) :=
    settled_flag d (LN_EVT_STEPFAIL k) (unit_ge rfl)
  have hpass : Quiet s.dev (rateStepPass l.val s.dev) := quiet_of_frame (frame_rateStepPass U r)
  have hfail : Quiet s.dev (rateStepFail l.val s.dev) := quiet_of_frame (frame_rateStepFail U r)
  have hgoes : rateStepFail l.val s.dev =
      if alone l.val s.dev = true then stepRevert l.val s.dev else stepRevert (partner l.val) (stepRevert l.val s.dev) :=
    if_pos ⟨hs, by rw [ht]; rfl⟩
  refine ⟨fun ha => ⟨fun hlock hp hr => ?_, ?_⟩, fun m hm ha hms hmt hmv hf => ⟨fun hlock => ?_, ?_⟩⟩
  · refine answers_running rfl h hpass ?_
    rw [settled_state, settled_step, settled_lock, tripOutRelease_lane]
    exact rateStepPass_alone_shows hl ht hs hlock hr ha hp hv
  · refine answers_running rfl h hfail ?_
    rw [settled_state, settled_step, settled_lock, settled_fail, tripOutRelease_lane, hgoes, if_pos ha]
    exact stepRevert_shows ht hs hstep
  · have hml := unit_lt ha
    subst hm
    refine answers_running rfl h hpass fun x hx => ?_
    rw [settled_state, settled_step, settled_lock, tripOutRelease_lane]
    exact rateStepPass_unit_shows hl hml ht hs hlock ha hv.symm hms hmv hf x hx
  · have hml := unit_lt ha
    subst hm
    refine answers_running rfl h hfail fun x hx => ?_
    rw [settled_state, settled_step, settled_lock, settled_fail, hgoes, if_neg (by simp [ha])]
    exact unitRevert_shows hl ht hs hmt hms hml hstep x hx

end

section
/-! PROOFS. Control blocks, origin, TRN and adaptation (O17). -/

namespace Sys2Proof.Machine

variable {W : Nat → Prop} {S : Part → Prop} {d e : Dev} {s : State} {l k v : Nat}

/-! ## The check of a control block (R133) -/

theorem crcStep8_lt {c : Nat} (b : Bool) : crcStep 8 0x2F c b < 2 ^ 8 := by
  have hsh : c * 2 % 2 ^ 8 < 2 ^ 8 := Nat.mod_lt _ (by decide)
  unfold crcStep
  dsimp only
  split
  · exact Nat.xor_lt_two_pow hsh (by decide)
  · exact hsh

theorem crc8_lt (n v : Nat) : crc8 n v < 2 ^ 8 := by
  unfold crc8
  refine Nat.xor_lt_two_pow ?_ (by decide)
  exact List.foldlRecOn (motive := (· < 2 ^ 8)) _ _ (by decide) fun _ _ b _ => crcStep8_lt b

/-- A control block as built reads back. -/
theorem ctlBlock_toNat {typ fields : Nat} (h : typ + fields < 2 ^ 56) :
    (ctlBlock typ fields).toNat = typ + fields + crc8 56 (typ + fields) * 2 ^ 56 := by
  have hcrc := crc8_lt 56 (typ + fields)
  unfold ctlBlock
  dsimp only
  rw [BitVec.toNat_ofNat, Nat.mod_eq_of_lt h, Nat.mod_eq_of_lt (by omega)]

theorem ctlBlock_chk {typ fields : Nat} (h : typ + fields < 2 ^ 56) : blockChk (ctlBlock typ fields) = true := by
  unfold blockChk
  rw [ctlBlock_toNat h, Nat.add_mul_mod_self_right, Nat.mod_eq_of_lt h, Nat.add_mul_div_right _ _ (by decide),
    Nat.div_eq_of_lt h, Nat.zero_add]
  exact beq_self_eq_true _

/-- The IDLE block of an origin. -/
theorem idleBlock_fields {o : Nat} (h : o < 256) : blockType (ctlBlock 0x1E (o * 2 ^ 8)) = 0x1E ∧
    blockChk (ctlBlock 0x1E (o * 2 ^ 8)) = true ∧ bitsOf (ctlBlock 0x1E (o * 2 ^ 8)).toNat 8 8 = o := by
  have hlt : 0x1E + o * 2 ^ 8 < 2 ^ 56 := by omega
  have hval := ctlBlock_toNat hlt
  refine ⟨?_, ctlBlock_chk hlt, ?_⟩
  · unfold blockType
    rw [hval]
    omega
  · unfold bitsOf
    rw [hval]
    omega

/-! ## IDLE blocks and the origin (R134, R135) -/

/-- A valid IDLE block of the origin that is being counted. -/
theorem idleBlock_counts {o : Nat} (h : o < 256) (hs : d.lnState l ≠ lnDOWN) (hv : d.flag (LN_STAT_ORGV l) = false)
    (hc : (d.lane l).orgCand = o) : ((idleBlock l (ctlBlock 0x1E (o * 2 ^ 8)) d).lane l).orgRun = (d.lane l).orgRun + 1 ∧
      ((idleBlock l (ctlBlock 0x1E (o * 2 ^ 8)) d).lane l).orgCand = o := by
  obtain ⟨htype, hchk, ho⟩ := idleBlock_fields h
  have hnew : ¬ (d.flag (LN_STAT_ORGV l) = true ∧ d.get (LN_STAT_ORIGIN l) = o) := by simp [hv]
  unfold idleBlock
  dsimp only
  rw [if_neg hs, if_neg (by rw [htype, hchk]; decide), lane_onLane_same, ho, if_neg hnew, if_pos hc]
  exact ⟨rfl, hc⟩

/-- The origin of a lane and what it is worth stand as its unit goes on. -/
theorem stepNext_get (hl : l < 130) (d : Dev) (x : Fld) (ha : x.addr = LN_STAT l) (hx : Nat.ble 7 x.lsb = true)
    (hw : Nat.ble (x.lsb + x.width) 32 = true) : (stepNext l d).get x = d.get x := by
  have h7 : 7 ≤ x.lsb := Nat.le_of_ble_eq_true hx
  have hbits {y : Fld} (hy : y.lsb + y.width ≤ 7) : (Nat.ble (x.lsb + x.width) y.lsb || Nat.ble (y.lsb + y.width) x.lsb) = true := by
    rw [Bool.or_eq_true]
    exact .inr (Nat.ble_eq_true_of_le (Nat.le_trans hy h7))
  have hstate (e : Dev) : (e.put (LN_STAT_STATE l) lnACTIVE).get x = e.get x :=
    ufld_put_disj e (LN_STAT_STATE l) x _ (hbits (Nat.le_of_ble_eq_true rfl)) hw
  have hstart (n : Nat) (e : Dev) : (stepStart l n e).get x = e.get x := by
    rw [get_congr _ _ x (ha ▸ stepStart_stat l n e), ufld_put_disj _ (LN_STAT_LOCK l) x _ (hbits (Nat.le_of_ble_eq_true rfl)) hw,
      ufld_put_disj _ (LN_STAT_STEP l) x _ (hbits (Nat.le_of_ble_eq_true rfl)) hw]
  unfold stepNext
  dsimp only
  refine get_ite (get_ite (hstart _ _) ?_) (get_ite rfl (get_ite ?_ ?_))
  · rw [laneGo_get hl d x ha, statSet_keeps (.inr rfl)]
    exact hstate d
  · exact (stepStart_other _ (partner_ne l) hl _ x ha).trans (hstart _ _)
  · rw [pairActive_stat hl d x ha, statSet_keeps (.inr rfl)]
    exact hstate d

theorem LaneRest.orgRun {x y : LaneSt} (h : LaneRest x y) : y.orgRun = x.orgRun := by
  have hrun := congrArg LaneSt.orgRun h
  exact hrun

theorem stepResume_orgRun (l : Nat) (d : Dev) : ((stepResume l d).lane l).orgRun = (d.lane l).orgRun := by
  unfold stepResume
  split
  · exact stepNext_view LaneSt.orgRun (fun _ _ h => h.orgRun) (fun _ _ _ => rfl) l d
  · rfl

/-- The origin as it has changed, before the chain follows. -/
def originTaken (l : Nat) (d : Dev) : Dev :=
  ((d.put (LN_STAT_ORIGIN l) (d.lane l).orgCand).put (LN_STAT_ORGV l) 1).onLane l fun x => { x with orgRun := 0 }

theorem originChanged_eq (h : 16 ≤ (d.lane l).orgRun) : originChanged l d =
    if l < 128 then wakePartner l (stepResume l (chainUpdate (l / 2) false (originTaken l d))) else originTaken l d := by
  unfold originChanged
  exact if_neg (Nat.not_lt.mpr h)

/-- What follows a new origin on the unit leaves the upper fields of LN_STAT. -/
theorem originFollowed_get (hl : l < 130) (d : Dev) (x : Fld) (ha : x.addr = LN_STAT l) (hx : Nat.ble 7 x.lsb = true)
    (hw : Nat.ble (x.lsb + x.width) 32 = true) : (wakePartner l (stepResume l (chainUpdate (l / 2) false d))).get x = d.get x := by
  have hchain : (chainUpdate (l / 2) false d).get x = d.get x := by
    refine get_congr _ _ _ ?_
    rw [ha]
    refine chainUpdate_word (l / 2) false d (LN_STAT l) ?_ ?_ ?_ (above_ne _ (by decide)) (above_ne _ (by decide))
    · unfold LN_STAT; omega
    · unfold LN_STAT LN_TMXE2E; omega
    · unfold LN_STAT LN_TMXE2E; omega
  rw [wakePartner_get hl _ x ha]
  unfold stepResume
  exact get_ite ((stepNext_get hl _ x ha hx hw).trans hchain) hchain

theorem originTaken_shows (l : Nat) (d : Dev) : (originTaken l d).get (LN_STAT_ORIGIN l) = (d.lane l).orgCand % 256 ∧
    (originTaken l d).flag (LN_STAT_ORGV l) = true ∧ ((originTaken l d).lane l).orgRun = 0 := by
  have hget (x : Fld) : (originTaken l d).get x = ((d.put (LN_STAT_ORIGIN l) (d.lane l).orgCand).put (LN_STAT_ORGV l) 1).get x :=
    get_onLane _ _ _ _
  refine ⟨?_, ?_, ?_⟩
  · exact (hget _).trans ((ufld_put_disj _ (LN_STAT_ORGV l) (LN_STAT_ORIGIN l) 1 rfl rfl).trans (ufld_put_mod d (LN_STAT_ORIGIN l) _ rfl))
  · exact (flag_congr (hget _)).trans (uflag_put_one _ (LN_STAT_ORGV l) rfl rfl)
  · unfold originTaken
    rw [lane_onLane_same]

/-- A new origin shows, and its count starts again. -/
theorem originChanged_shows (hl : l < 130) (h : 16 ≤ (d.lane l).orgRun) :
    (originChanged l d).get (LN_STAT_ORIGIN l) = (d.lane l).orgCand % 256 ∧ (originChanged l d).flag (LN_STAT_ORGV l) = true ∧
      ((originChanged l d).lane l).orgRun = 0 := by
  obtain ⟨horigin, hvalid, hrun⟩ := originTaken_shows l d
  rw [originChanged_eq h]
  split
  · refine ⟨(originFollowed_get hl _ (LN_STAT_ORIGIN l) rfl rfl rfl).trans horigin,
      (flag_congr (originFollowed_get hl _ (LN_STAT_ORGV l) rfl rfl rfl)).trans hvalid, ?_⟩
    rw [(wakePartner_rest l _).orgRun, stepResume_orgRun, (chainUpdate_laneRest _ _ _ _).orgRun]
    exact hrun
  · exact ⟨horigin, hvalid, hrun⟩

/-! ## Blocks that are counted (R133, R149, R157) -/

/-- A block of a wrong type or check. -/
theorem blockIn_control (hs : d.lnState l ≠ lnDOWN) (hrx : d.flag (LN_STAT_RXSLEPT l) = false) (b : BitVec 64) :
    blockIn l 2 b d = if blockAssigned (blockType b) = false ∨ blockChk b = false then d.bump (LN_BERC_UNKCNT l) else d := by
  unfold blockIn blockDiscard
  rw [if_neg (by simp [hs, hrx]), if_pos rfl]
  cases blockAssigned (blockType b) <;> cases blockChk b <;> simp [hs]

/-- A block under an invalid header. -/
theorem blockIn_invalid (hs : d.lnState l ≠ lnDOWN) (hrx : d.flag (LN_STAT_RXSLEPT l) = false) (b : BitVec 64) {hdr : Nat} (h2 : hdr ≠ 2)
    (h1 : hdr ≠ 1) : blockIn l hdr b d =
      if (d.bump (LN_BERC_SHERR l)).flag (LN_PRBSCTL_CHK l) = true ∧ (d.bump (LN_BERC_SHERR l)).get (LN_PRBSCTL_PAT l) ≠ 0 then
        prbsMissed l 1 (d.bump (LN_BERC_SHERR l)) else d.bump (LN_BERC_SHERR l) := by
  unfold blockIn
  rw [if_neg (by simp [hs, hrx]), if_neg h2, if_neg h1]

/-- The errors that a block under an invalid header counts. -/
theorem blockIn_invalid_shows (hs : d.lnState l ≠ lnDOWN) (hrx : d.flag (LN_STAT_RXSLEPT l) = false) (b : BitVec 64) {hdr : Nat}
    (h2 : hdr ≠ 2) (h1 : hdr ≠ 1) : (blockIn l hdr b d).get (LN_BERC_UNKCNT l) = d.get (LN_BERC_UNKCNT l) ∧
      (blockIn l hdr b d).get (LN_BERC_SHERR l) = satInc (LN_BERC_SHERR l).width (d.get (LN_BERC_SHERR l)) 1 ∧
      (blockIn l hdr b d).get (LN_PRBSERR_ERRCNT l) = if d.flag (LN_PRBSCTL_SYNC l) = true ∧ d.flag (LN_PRBSCTL_CHK l) = true ∧
          d.get (LN_PRBSCTL_PAT l) ≠ 0 then satInc (LN_PRBSERR_ERRCNT l).width (d.get (LN_PRBSERR_ERRCNT l)) 64
        else d.get (LN_PRBSERR_ERRCNT l) := by
  have hctl (x : Fld) (hx : x.addr = LN_PRBSCTL l) : (d.bump (LN_BERC_SHERR l)).get x = d.get x :=
    get_put_ne _ _ _ _ (hx ▸ off_ne _ (by decide))
  have herr : (d.bump (LN_BERC_SHERR l)).get (LN_PRBSERR_ERRCNT l) = d.get (LN_PRBSERR_ERRCNT l) :=
    get_put_ne _ _ _ _ (off_ne _ (by decide))
  have hberc (x : Fld) (hx : x.addr = LN_BERC l) : (blockIn l hdr b d).get x = (d.bump (LN_BERC_SHERR l)).get x := by
    rw [blockIn_invalid hs hrx b h2 h1]
    exact get_ite (get_congr _ _ _ (word_prbsMissed l 1 _ _ (hx ▸ off_ne _ (by decide)))) rfl
  refine ⟨?_, ?_, ?_⟩
  · rw [hberc (LN_BERC_UNKCNT l) rfl]
    exact ufld_bump_disj d (LN_BERC_SHERR l) (LN_BERC_UNKCNT l) 1 rfl rfl
  · rw [hberc (LN_BERC_SHERR l) rfl]
    exact ufld_bump d (LN_BERC_SHERR l) 1 rfl
  · rw [blockIn_invalid hs hrx b h2 h1, flag_congr (hctl (LN_PRBSCTL_CHK l) rfl), hctl (LN_PRBSCTL_PAT l) rfl]
    unfold prbsMissed
    rw [flag_congr (hctl (LN_PRBSCTL_SYNC l) rfl)]
    by_cases hc : d.flag (LN_PRBSCTL_CHK l) = true ∧ d.get (LN_PRBSCTL_PAT l) ≠ 0
    · by_cases hsync : d.flag (LN_PRBSCTL_SYNC l) = true
      · rw [if_pos hc, if_pos hsync, if_pos ⟨hsync, hc⟩, get_onLane, ufld_bump _ (LN_PRBSERR_ERRCNT l) _ rfl, herr]
      · rw [if_pos hc, if_neg hsync, if_neg (show ¬ (1 : Nat) = 0 by decide), if_neg (fun h => hsync h.1), get_onLane, herr]
    · rw [if_neg hc, if_neg (fun h => hc h.2), herr]

/-- What a block counts, by its header. -/
theorem blockIn_shows (hs : d.lnState l ≠ lnDOWN) (hrx : d.flag (LN_STAT_RXSLEPT l) = false) (hdr : BitVec 2) (b : BitVec 64) :
    (blockIn l hdr.toNat b d).get (LN_BERC_UNKCNT l) =
      (if hdr = 2 ∧ (blockAssigned (blockType b) = false ∨ blockChk b = false) then satInc 16 (d.get (LN_BERC_UNKCNT l)) 1
        else d.get (LN_BERC_UNKCNT l)) ∧
    (blockIn l hdr.toNat b d).get (LN_BERC_SHERR l) =
      (if hdr = 0 ∨ hdr = 3 then satInc (LN_BERC_SHERR l).width (d.get (LN_BERC_SHERR l)) 1 else d.get (LN_BERC_SHERR l)) ∧
    (blockIn l hdr.toNat b d).get (LN_PRBSERR_ERRCNT l) =
      (if (hdr = 0 ∨ hdr = 3) ∧ d.flag (LN_PRBSCTL_SYNC l) = true ∧ d.flag (LN_PRBSCTL_CHK l) = true ∧
          d.get (LN_PRBSCTL_PAT l) ≠ 0 then satInc (LN_PRBSERR_ERRCNT l).width (d.get (LN_PRBSERR_ERRCNT l)) 64
        else d.get (LN_PRBSERR_ERRCNT l)) := by
  have hcases : (hdr = 0 ∨ hdr = 3) ∧ hdr ≠ 2 ∧ hdr.toNat ≠ 2 ∧ hdr.toNat ≠ 1 ∨ hdr = 2 ∨ hdr = 1 := by
    revert hdr
    decide
  rcases hcases with ⟨hbad, h2, hn2, hn1⟩ | rfl | rfl
  · obtain ⟨hunk, hsherr, herr⟩ := blockIn_invalid_shows hs hrx b hn2 hn1
    rw [if_neg (fun k => h2 k.1), if_pos hbad]
    refine ⟨hunk, hsherr, ?_⟩
    simpa only [hbad, true_and] using herr
  · have hbad : ¬ ((2 : BitVec 2) = 0 ∨ (2 : BitVec 2) = 3) := by decide
    have heq : blockIn l (2 : BitVec 2).toNat b d =
        if blockAssigned (blockType b) = false ∨ blockChk b = false then d.bump (LN_BERC_UNKCNT l) else d := blockIn_control hs hrx b
    rw [heq]
    by_cases hunk : blockAssigned (blockType b) = false ∨ blockChk b = false
    · simp only [hunk, hbad, if_true, if_false, false_and, and_self]
      exact ⟨ufld_bump d (LN_BERC_UNKCNT l) 1 rfl, ufld_bump_disj d (LN_BERC_UNKCNT l) (LN_BERC_SHERR l) 1 rfl rfl,
        get_put_ne _ _ _ _ (off_ne _ (by decide))⟩
    · simp only [hunk, hbad, if_false, false_and, and_false, and_self]
  · have hbad : ¬ ((1 : BitVec 2) = 0 ∨ (1 : BitVec 2) = 3) := by decide
    have heq : blockIn l (1 : BitVec 2).toNat b d = d := by
      unfold blockIn
      rw [if_neg (by simp [hs, hrx])]
      exact (if_neg (by decide)).trans (if_pos rfl)
    have hctl : ¬ (1 : BitVec 2) = 2 := by decide
    simp only [heq, hbad, hctl, if_false, false_and, and_self]

/-! ## TRN blocks and the hold of a tap -/

theorem trnBlock_shows (x step : Nat) (hs : d.lnState (128 + x) = lnNEGOTIATE) :
    ((trnBlock x step d).lane (128 + x)).rxStep = step ∧ (trnBlock x step d).flag (LN_STAT_LOCK (128 + x)) = false := by
  have heq : trnBlock x step d = (d.put (LN_STAT_LOCK (128 + x)) 0).onLane (128 + x) fun y => { y with rxStep := step } := if_pos hs
  rw [heq, lane_onLane_same]
  exact ⟨rfl, (flag_congr (get_onLane _ _ _ _)).trans (uflag_put_zero d (LN_STAT_LOCK (128 + x)) rfl)⟩

theorem eqHoldEnd_lane (h : (d.lane l).eqHeld ≠ []) : ((eqHoldEnd l d).lane l).eqHeld = (d.lane l).eqHeld.drop 1 ∧
    ((eqHoldEnd l d).lane l).eq = (List.range 6).map fun k => eqStepTap l k d := by
  unfold eqHoldEnd eqAdapt
  rw [if_neg h, lane_onLane_same, lane_onLane_same]
  exact ⟨rfl, rfl⟩

end Sys2Proof.Machine

open Sys2Proof Machine

/-- Settles O17, by what each block counts and changes. -/
theorem laneBlocks : Obligations.LaneBlocks := by
  unfold Obligations.LaneBlocks
  intro l s h hinj
  have U := calmBroad.unit l.val
  have L := calmBroad.lane
  have r := frame_refl (W := calmRegs) (S := calmParts) s.dev
  refine ⟨fun o ho hs hv hc => ?_, fun hrun => ?_, fun hdr b hs hrx => ?_, fun x step hs => ?_, fun hheld => ?_⟩
  · have heq : injLane l.val (idleBlock l.val (ctlBlock 0x1E (o * 2 ^ 8))) s.dev = idleBlock l.val (ctlBlock 0x1E (o * 2 ^ 8)) s.dev :=
      injLane_none _ hinj
    refine answers_running (f := injLane l.val (idleBlock l.val (ctlBlock 0x1E (o * 2 ^ 8)))) rfl h ?_ ?_
    · rw [heq]
      exact quiet_of_frame (frame_idleBlock (L l.val) _ r)
    · rw [heq, tripOutRelease_lane]
      exact idleBlock_counts ho hs hv hc
  · refine answers_running rfl h (quiet_of_frame (frame_originChanged U r)) ?_
    rw [settled_get _ (LN_STAT_ORIGIN l.val) (unit_ge rfl), settled_flag _ (LN_STAT_ORGV l.val) (unit_ge rfl), tripOutRelease_lane]
    exact originChanged_shows l.isLt hrun
  · have heq : injLane l.val (blockIn l.val hdr.toNat b) s.dev = blockIn l.val hdr.toNat b s.dev := injLane_none _ hinj
    refine answers_running (f := injLane l.val (blockIn l.val hdr.toNat b)) rfl h ?_ ?_
    · rw [heq]
      exact quiet_of_frame (frame_blockIn (L l.val) _ b r)
    · rw [heq, settled_get _ (LN_BERC_UNKCNT l.val) (unit_ge rfl), settled_get _ (LN_BERC_SHERR l.val) (unit_ge rfl),
        settled_get _ (LN_PRBSERR_ERRCNT l.val) (unit_ge rfl)]
      exact blockIn_shows hs hrx hdr b
  · have heq : injLane (128 + x.val) (trnBlock x.val step.toNat) s.dev = trnBlock x.val step.toNat s.dev := injLane_none _ hinj
    refine answers_running (f := injLane (128 + x.val) (trnBlock x.val step.toNat)) rfl h ?_ ?_
    · rw [heq]
      exact quiet_of_frame (frame_trnBlock (L (128 + x.val)) x.val _ rfl r)
    · rw [heq, tripOutRelease_lane, settled_flag _ (LN_STAT_LOCK (128 + x.val)) (unit_ge rfl)]
      exact trnBlock_shows x.val step.toNat hs
  · refine answers_running rfl h (quiet_of_frame (frame_eqHoldEnd (L l.val) r)) ?_
    rw [tripOutRelease_lane]
    exact eqHoldEnd_lane hheld

end

section
/-! PROOFS. The pattern generator, the checker and its error count (O18). -/

namespace Sys2Proof.Machine

variable {W : Nat → Prop} {S : Part → Prop} {d e : Dev} {s : State} {l : Nat}

/-! ## Writes of LN_PRBSCTL -/

/-- What a write of LN_PRBSCTL starts anew: the checker, and the generator's register. -/
def prbsRestart (l v : Nat) (d : Dev) : Dev :=
  let d := if bitOf v 4 ∧ ¬ d.flag (LN_PRBSCTL_CHK l) then
      ((d.put (LN_PRBSERR_ERRCNT l) 0).put (LN_PRBSCTL_SYNC l) 0).onLane l fun x => { x with chk := none, chkRun := 0 } else d
  let d := if bitOf v 4 then d else d.put (LN_PRBSCTL_SYNC l) 0
  if bitOf v 3 ∧ (¬ d.flag (LN_PRBSCTL_GEN l) ∨ d.get (LN_PRBSCTL_PAT l) ≠ v % 8) then
    d.onLane l fun x => { x with gen := max 1 ((Config.prbsSeed l x.genBits).toNat % 2 ^ (prbsPoly (v % 8)).1), genBits := x.genBits + 1 }
  else d

/-- The fields of LN_PRBSCTL as written. -/
def prbsFields (l v : Nat) (d : Dev) : Dev :=
  let d := ((d.put (LN_PRBSCTL_PAT l) (v % 8)).putB (LN_PRBSCTL_GEN l) (bitOf v 3)).putB (LN_PRBSCTL_CHK l) (bitOf v 4)
  let d := d.put (LN_PRBSCTL_INJRATE l) (bitsOf v 6 4)
  if bitOf v 5 then d.put (LN_PRBSCTL_INJ1 l) 1 else d

theorem frame_prbsRestart (R : LaneRoom l W S) (v : Nat) (h : Frame W S d e) : Frame W S d (prbsRestart l v e) := by
  unfold prbsRestart
  extract_lets anew synced
  have hanew : Frame W S d anew := frame_ite (frame_onLane l _ R.lanes R.lane (frame_put (LN_PRBSCTL_SYNC l) 0 (R.regs _ (by decide))
    (frame_put (LN_PRBSERR_ERRCNT l) 0 (R.regs _ (by decide)) h))) h
  have hsynced : Frame W S d synced := frame_ite hanew (frame_put (LN_PRBSCTL_SYNC l) 0 (R.regs _ (by decide)) hanew)
  exact frame_ite (frame_onLane l _ R.lanes R.lane hsynced) hsynced

theorem frame_prbsFields (R : LaneRoom l W S) (v : Nat) (h : Frame W S d e) : Frame W S d (prbsFields l v e) := by
  have hctl : W (LN_PRBSCTL l) := R.regs _ (by decide)
  have hrate := frame_put (LN_PRBSCTL_INJRATE l) (bitsOf v 6 4) hctl (frame_putB (LN_PRBSCTL_CHK l) (bitOf v 4) hctl
    (frame_putB (LN_PRBSCTL_GEN l) (bitOf v 3) hctl (frame_put (LN_PRBSCTL_PAT l) (v % 8) hctl h)))
  exact frame_ite (frame_put (LN_PRBSCTL_INJ1 l) 1 hctl hrate) hrate

/-- A command that writes the word `v` of LN_PRBSCTL, where the write is allowed. -/
theorem answers_prbs {c : Instr} {P : State → Prop} {o : Origin} {w : Dev → Nat} {v : Nat}
    (hc : exec c s = .next (within (fun d => (wrPrbs o l (BitVec.ofNat 32 (w d)) d).2) s)) (h : s.awake) (hl : s.dev.mode ≠ modeLOAD)
    (hp : s.dev.permits o .lane = true) (hv : w s.dev = v) (hlt : v < 2 ^ 32) (hok : prbsOk l v s.dev = true)
    (hP : P { s with dev := tripOutRelease (prbsFields l v (prbsRestart l v s.dev)) }) : Answers c s P := by
  have heq : (wrPrbs o l (BitVec.ofNat 32 (w s.dev)) s.dev).2 = prbsFields l v (prbsRestart l v s.dev) := by
    unfold wrPrbs
    rw [hv]
    dsimp only
    rw [BitVec.toNat_ofNat, Nat.mod_eq_of_lt hlt, shellWrite_accepted (writable_of_awake h hl) hp hok]
    rfl
  refine answers_within hc h ?_ ?_ <;> rw [heq]
  · exact quiet_of_frame (frame_prbsFields (calmBroad.lane l) v (frame_prbsRestart (calmBroad.lane l) v (frame_refl _)))
  · exact hP

/-- Every field as it was written. -/
theorem prbsFields_shows (l v : Nat) (d : Dev) : (prbsFields l v d).flag (LN_PRBSCTL_GEN l) = bitOf v 3 ∧
    (prbsFields l v d).flag (LN_PRBSCTL_CHK l) = bitOf v 4 ∧ (prbsFields l v d).get (LN_PRBSCTL_PAT l) = v % 8 ∧
    (prbsFields l v d).get (LN_PRBSCTL_INJRATE l) = bitsOf v 6 4 ∧
    (bitOf v 5 = true → (prbsFields l v d).flag (LN_PRBSCTL_INJ1 l) = true) ∧
    (prbsFields l v d).flag (LN_PRBSCTL_SYNC l) = d.flag (LN_PRBSCTL_SYNC l) ∧
    (prbsFields l v d).get (LN_PRBSERR_ERRCNT l) = d.get (LN_PRBSERR_ERRCNT l) := by
  unfold prbsFields
  extract_lets named rated
  have hinj (x : Fld) (hx : (Nat.ble (x.lsb + x.width) 5 || Nat.ble 6 x.lsb) = true) (hw : Nat.ble (x.lsb + x.width) 32 = true) :
      (if bitOf v 5 = true then rated.put (LN_PRBSCTL_INJ1 l) 1 else rated).get x = rated.get x :=
    get_ite (ufld_put_disj rated (LN_PRBSCTL_INJ1 l) x 1 hx hw) rfl
  have hrate (x : Fld) (hx : (Nat.ble (x.lsb + x.width) 6 || Nat.ble 10 x.lsb) = true) (hw : Nat.ble (x.lsb + x.width) 32 = true) :
      rated.get x = named.get x := ufld_put_disj named (LN_PRBSCTL_INJRATE l) x _ hx hw
  refine ⟨?_, ?_, ?_, ?_, fun h5 => ?_, ?_, ?_⟩
  · rw [flag_congr (hinj (LN_PRBSCTL_GEN l) rfl rfl), flag_congr (hrate (LN_PRBSCTL_GEN l) rfl rfl)]
    exact (uflag_put_disj _ (LN_PRBSCTL_CHK l) (LN_PRBSCTL_GEN l) _ rfl rfl).trans (uflag_putB _ (LN_PRBSCTL_GEN l) _ rfl rfl)
  · rw [flag_congr (hinj (LN_PRBSCTL_CHK l) rfl rfl), flag_congr (hrate (LN_PRBSCTL_CHK l) rfl rfl)]
    exact uflag_putB _ (LN_PRBSCTL_CHK l) _ rfl rfl
  · rw [hinj (LN_PRBSCTL_PAT l) rfl rfl, hrate (LN_PRBSCTL_PAT l) rfl rfl]
    exact (ufld_put_disj _ (LN_PRBSCTL_CHK l) (LN_PRBSCTL_PAT l) _ rfl rfl).trans ((ufld_put_disj _ (LN_PRBSCTL_GEN l) (LN_PRBSCTL_PAT l) _ rfl rfl).trans
      ((ufld_put_mod _ (LN_PRBSCTL_PAT l) _ rfl).trans (Nat.mod_mod v 8)))
  · rw [hinj (LN_PRBSCTL_INJRATE l) rfl rfl]
    exact (ufld_put_mod _ (LN_PRBSCTL_INJRATE l) _ rfl).trans (Nat.mod_mod _ 16)
  · rw [if_pos h5]
    exact uflag_put_one _ (LN_PRBSCTL_INJ1 l) rfl rfl
  · rw [flag_congr (hinj (LN_PRBSCTL_SYNC l) rfl rfl), flag_congr (hrate (LN_PRBSCTL_SYNC l) rfl rfl)]
    exact (uflag_put_disj _ (LN_PRBSCTL_CHK l) (LN_PRBSCTL_SYNC l) _ rfl rfl).trans ((uflag_put_disj _ (LN_PRBSCTL_GEN l) (LN_PRBSCTL_SYNC l) _ rfl rfl).trans
      (uflag_put_disj _ (LN_PRBSCTL_PAT l) (LN_PRBSCTL_SYNC l) _ rfl rfl))
  · have hne : LN_PRBSCTL l ≠ LN_PRBSERR l := off_ne _ (by decide)
    refine (get_ite (get_put_ne _ _ _ _ hne) rfl).trans ?_
    exact (get_put_ne _ _ _ _ hne).trans ((get_put_ne _ _ _ _ hne).trans ((get_put_ne _ _ _ _ hne).trans (get_put_ne _ _ _ _ hne)))

/-- A checker that starts has no lock and no errors. -/
theorem prbsRestart_checker {v : Nat} (h4 : bitOf v 4 = true) (h3 : bitOf v 3 = false) (hc : d.flag (LN_PRBSCTL_CHK l) = false) :
    (prbsRestart l v d).flag (LN_PRBSCTL_SYNC l) = false ∧ (prbsRestart l v d).get (LN_PRBSERR_ERRCNT l) = 0 := by
  have heq : prbsRestart l v d = ((d.put (LN_PRBSERR_ERRCNT l) 0).put (LN_PRBSCTL_SYNC l) 0).onLane l fun x =>
      { x with chk := none, chkRun := 0 } := by
    unfold prbsRestart
    simp only [h4, h3, hc, Bool.false_eq_true, not_false_eq_true, and_self, if_true, false_and, if_false]
  rw [heq]
  exact ⟨(flag_congr (get_onLane _ _ _ _)).trans (uflag_put_zero _ (LN_PRBSCTL_SYNC l) rfl),
    (get_onLane _ _ _ _).trans ((get_put_ne _ _ _ _ (off_ne _ (by decide))).trans (ufld_put d (LN_PRBSERR_ERRCNT l) 0 rfl rfl))⟩

/-! ## The checker -/

/-- The bits of a list that hold, counted. -/
theorem foldl_b2n {α : Type} (p : α → Bool) (l : List α) (k : Nat) :
    l.foldl (fun a i => a + b2n (p i)) k = k + (l.filter p).length := by
  induction l generalizing k with
  | nil => rfl
  | cons x xs ih =>
    rw [List.foldl_cons, ih]
    cases hp : p x
    · rw [List.filter_cons_of_neg (by simp [hp])]
      rfl
    · rw [List.filter_cons_of_pos hp, List.length_cons]
      unfold b2n
      simp only [if_true]
      omega

/-- One word reaches a checker that runs. -/
theorem prbsWords_one (w : BitVec 64) (hc : d.flag (LN_PRBSCTL_CHK l) = true) (hp : d.get (LN_PRBSCTL_PAT l) ≠ 0) :
    prbsWords l [w] d = prbsWordIn l w d := by
  unfold prbsWords
  exact if_neg (by simp [hc, hp])

/-- The word that completes the run locks the checker. -/
theorem prbsWordIn_locks {st : Nat} (w : BitVec 64) (hst : (d.lane l).chk = some st) (hs : d.flag (LN_PRBSCTL_SYNC l) = false)
    (h0 : st ≠ 0) (hw : w.toNat = (prbsGenWord (d.get (LN_PRBSCTL_PAT l)) st).1) (hr : (d.lane l).chkRun = 63) :
    (prbsWordIn l w d).flag (LN_PRBSCTL_SYNC l) = true := by
  unfold prbsWordIn
  dsimp only
  rw [hst]
  dsimp only
  rw [if_neg (by simp [hs]), if_pos ⟨hw.symm, h0⟩, hr]
  exact (flag_congr (get_onLane _ _ _ _)).trans (uflag_putB d (LN_PRBSCTL_SYNC l) true rfl rfl)

/-- A locked checker counts the bits that differ. -/
theorem prbsWordIn_counts {st : Nat} (w : BitVec 64) (hst : (d.lane l).chk = some st) (hs : d.flag (LN_PRBSCTL_SYNC l) = true) :
    (prbsWordIn l w d).flag (LN_PRBSCTL_SYNC l) = true ∧ (prbsWordIn l w d).get (LN_PRBSERR_ERRCNT l) =
      satInc (LN_PRBSERR_ERRCNT l).width (d.get (LN_PRBSERR_ERRCNT l))
        ((List.range 64).filter fun i => bitOf (prbsGenWord (d.get (LN_PRBSCTL_PAT l)) st).1 i != bitOf w.toNat i).length := by
  unfold prbsWordIn
  dsimp only
  rw [hst]
  dsimp only
  rw [if_pos hs, get_onLane, foldl_b2n, Nat.zero_add, ufld_bump d (LN_PRBSERR_ERRCNT l) _ rfl]
  exact ⟨(flag_congr (get_onLane _ _ _ _)).trans ((flag_put_ne _ _ _ _ (off_ne _ (by decide))).trans hs), rfl⟩

/-! ## The words that the commands write -/

theorem prbsCtl_zero (h : d.word (LN_PRBSCTL l) = 0) : prbsCtl l d = 0 := by
  unfold prbsCtl
  rw [h]
  rfl

/-- A pattern with one bit above it set. -/
theorem patternWord {pat n : Nat} (hp : pat < 8) (hn : n = 3 ∨ n = 4) : setBit (0 / 8 * 8 + pat) n = pat + 2 ^ n := by
  unfold setBit bitOf
  rw [if_neg]
  · omega
  · rcases hn with rfl | rfl <;> simp <;> omega

/-- The bits of the words that start the generator and the checker. -/
theorem patternBits {pat : Nat} (hp : pat < 8) : ((pat + 2 ^ 3) % 8 = pat ∧ bitOf (pat + 2 ^ 3) 3 = true ∧ bitOf (pat + 2 ^ 3) 4 = false ∧
      bitOf (pat + 2 ^ 3) 5 = false ∧ bitsOf (pat + 2 ^ 3) 6 4 = 0) ∧
    ((pat + 2 ^ 4) % 8 = pat ∧ bitOf (pat + 2 ^ 4) 3 = false ∧ bitOf (pat + 2 ^ 4) 4 = true ∧ bitOf (pat + 2 ^ 4) 5 = false ∧
      bitsOf (pat + 2 ^ 4) 6 4 = 0) := by
  revert hp
  revert pat
  decide

/-- A write that an ACTIVE lane in IDLE takes. -/
theorem prbsOk_idle {v : Nat} (hm : d.mode = modeIDLE) (hs : d.lnState l = lnACTIVE) (hp : v % 8 ≤ 5)
    (hr : bitsOf v 6 4 = 0 ∨ 3 ≤ bitsOf v 6 4 ∧ bitsOf v 6 4 ≤ 0xC) (hi : bitOf v 5 = false ∨ d.flag (LN_PRBSCTL_INJ1 l) = false) :
    prbsOk l v d = true := by
  have hrate : (bitsOf v 6 4 == 0 || (decide (3 ≤ bitsOf v 6 4) && decide (bitsOf v 6 4 ≤ 0xC))) = true := by
    rcases hr with h | ⟨h3, hC⟩
    · simp [h]
    · simp [h3, hC]
  have hinj : (!(bitOf v 5 && d.flag (LN_PRBSCTL_INJ1 l))) = true := by
    rcases hi with h | h <;> simp [h]
  unfold prbsOk
  dsimp only
  rw [hrate, hinj, hm, hs, decide_eq_true hp]
  simp

end Sys2Proof.Machine

open Sys2Proof Machine

/-- Settles O18, by the fields that a write leaves and the checker's two states. -/
theorem lanePatternTest : Obligations.LanePatternTest := by
  unfold Obligations.LanePatternTest
  intro o l s h hm hp hs
  have hl : s.dev.mode ≠ modeLOAD := by rw [hm]; decide
  refine ⟨fun hw => ?_, fun w st hc hpat hst => ?_⟩
  · have hctl := prbsCtl_zero hw
    have hinj : s.dev.flag (LN_PRBSCTL_INJ1 l.val) = false := flag_of_word (x := LN_PRBSCTL_INJ1 l.val) hw
    have hchk : s.dev.flag (LN_PRBSCTL_CHK l.val) = false := flag_of_word (x := LN_PRBSCTL_CHK l.val) hw
    refine ⟨fun pat hpat => ⟨?_, ?_⟩, ?_, fun rate h3 h12 => ?_⟩
    · obtain ⟨⟨hmod, hb3, hb4, hb5, hb6⟩, -⟩ := patternBits pat.isLt
      refine answers_prbs (v := pat.toNat + 2 ^ 3) (w := fun d => setBit (prbsCtl l.val d / 8 * 8 + pat.toNat) 3) rfl h hl hp
        (by rw [hctl]; exact patternWord pat.isLt (.inl rfl)) (by have := pat.isLt; omega)
        (prbsOk_idle hm hs (by rw [hmod]; exact hpat) (.inl hb6) (.inl hb5)) ?_
      obtain ⟨hgen, hchk', hnum, -⟩ := prbsFields_shows l.val (pat.toNat + 2 ^ 3) (prbsRestart l.val (pat.toNat + 2 ^ 3) s.dev)
      rw [settled_flag _ (LN_PRBSCTL_GEN l.val) (unit_ge rfl), settled_get _ (LN_PRBSCTL_PAT l.val) (unit_ge rfl),
        settled_flag _ (LN_PRBSCTL_CHK l.val) (unit_ge rfl)]
      exact ⟨hgen.trans hb3, hnum.trans hmod, hchk'.trans hb4⟩
    · obtain ⟨-, hmod, hb3, hb4, hb5, hb6⟩ := patternBits pat.isLt
      refine answers_prbs (v := pat.toNat + 2 ^ 4) (w := fun d => setBit (prbsCtl l.val d / 8 * 8 + pat.toNat) 4) rfl h hl hp
        (by rw [hctl]; exact patternWord pat.isLt (.inr rfl)) (by have := pat.isLt; omega)
        (prbsOk_idle hm hs (by rw [hmod]; exact hpat) (.inl hb6) (.inl hb5)) ?_
      obtain ⟨-, hchk', hnum, -, -, hsync, herr⟩ :=
        prbsFields_shows l.val (pat.toNat + 2 ^ 4) (prbsRestart l.val (pat.toNat + 2 ^ 4) s.dev)
      obtain ⟨hsync0, herr0⟩ := prbsRestart_checker hb4 hb3 hchk
      rw [settled_flag _ (LN_PRBSCTL_CHK l.val) (unit_ge rfl), settled_get _ (LN_PRBSCTL_PAT l.val) (unit_ge rfl),
        settled_get _ (LN_PRBSERR_ERRCNT l.val) (unit_ge rfl), settled_flag _ (LN_PRBSCTL_SYNC l.val) (unit_ge rfl)]
      exact ⟨hchk'.trans hb4, hnum.trans hmod, herr.trans herr0, hsync.trans hsync0⟩
    · refine answers_prbs (v := 32) (w := fun d => setBit (prbsCtl l.val d) 5) rfl h hl hp (by rw [hctl]; rfl) (by decide)
        (prbsOk_idle hm hs (by decide) (.inl rfl) (.inr hinj)) ?_
      obtain ⟨-, -, -, -, hone, -⟩ := prbsFields_shows l.val 32 (prbsRestart l.val 32 s.dev)
      rw [settled_flag _ (LN_PRBSCTL_INJ1 l.val) (unit_ge rfl)]
      exact hone rfl
    · have hlt := rate.isLt
      have hrate : bitsOf (rate.toNat * 64) 6 4 = rate.toNat := by unfold bitsOf; omega
      have h5 : bitOf (rate.toNat * 64) 5 = false := by
        unfold bitOf
        rw [show rate.toNat * 64 / 2 ^ 5 % 2 = 0 by omega]
        rfl
      refine answers_prbs (v := rate.toNat * 64) (w := fun d => prbsCtl l.val d % 64 + rate.toNat * 64) rfl h hl hp
        (by rw [hctl]; omega) (by omega)
        (prbsOk_idle hm hs (by omega) (.inr (by rw [hrate]; exact ⟨h3, h12⟩)) (.inl h5)) ?_
      obtain ⟨-, -, -, hset, -⟩ := prbsFields_shows l.val (rate.toNat * 64) (prbsRestart l.val (rate.toNat * 64) s.dev)
      rw [settled_get _ (LN_PRBSCTL_INJRATE l.val) (unit_ge rfl)]
      exact hset.trans hrate
  · have hquiet : Quiet s.dev (prbsWords l.val [w] s.dev) := quiet_of_frame (frame_prbsWords (calmBroad.lane l.val) [w] (frame_refl _))
    refine ⟨fun hsync h0 hword hrun => answers_running rfl h hquiet ?_, fun hsync => answers_running rfl h hquiet ?_⟩
    · rw [settled_flag _ (LN_PRBSCTL_SYNC l.val) (unit_ge rfl), prbsWords_one w hc hpat]
      exact prbsWordIn_locks w hst hsync h0 hword hrun
    · rw [settled_flag _ (LN_PRBSCTL_SYNC l.val) (unit_ge rfl), settled_get _ (LN_PRBSERR_ERRCNT l.val) (unit_ge rfl), prbsWords_one w hc hpat]
      exact prbsWordIn_counts w hst hsync

end

section
/-! PROOFS. Timing exchanges and the path delay (O19). -/

namespace Sys2Proof.Machine

variable {W : Nat → Prop} {S : Part → Prop} {d e : Dev} {s : State} {l p : Nat}

/-! ## Requests

A request changes the record of its lane and what leaves the device, and of the record only the exchanges in flight and the frame. -/

/-- The record of a lane once a request has left it. -/
def inFlight (r : TmxReq) (i : Option Nat) (y : LaneSt) : LaneSt :=
  { y with
    tmx := y.tmx ++ [r]
    sof := y.sof.map fun z => (z.1, z.2.1, match i with
      | some i => i + 1
      | none => z.2.2) }

theorem tmxSend_some (cal : Bool) {t : Nat} {at_ : Nat × Option Nat} (ht : freeTag (d.lane l) = some t) (hs : tmxSlot l d = some at_)
    (htx : txOn l d = true) : ∃ x : Sent, (tmxSend l p cal d).2 = (d.send x).onLane l (inFlight ⟨t, p, at_.1, cal⟩ at_.2) := by
  obtain ⟨dep, at2⟩ := at_
  unfold tmxSend
  rw [ht, hs]
  dsimp only
  rw [if_neg (by simp [htx])]
  cases at2
  · exact ⟨_, rfl⟩
  · exact ⟨_, rfl⟩

/-- A request that does not leave changes nothing. -/
theorem tmxSend_none (cal : Bool) (h : freeTag (d.lane l) = none ∨ tmxSlot l d = none ∨ txOn l d = false) : (tmxSend l p cal d).2 = d := by
  unfold tmxSend
  split
  · rename_i t at_ ht hs
    rcases h with h | h | h
    · exact absurd h (by rw [ht]; exact nofun)
    · exact absurd h (by rw [hs]; exact nofun)
    · rw [if_pos (by simp [h])]
  · rfl

/-- What a request does: nothing, or it leaves and its exchange begins. -/
theorem tmxSend_cases (l p : Nat) (cal : Bool) (d : Dev) : (tmxSend l p cal d).2 = d ∨
    ∃ (x : Sent) (r : TmxReq) (i : Option Nat), (tmxSend l p cal d).2 = (d.send x).onLane l (inFlight r i) := by
  cases ht : freeTag (d.lane l) with
  | none => exact .inl (tmxSend_none cal (.inl ht))
  | some t =>
    cases hs : tmxSlot l d with
    | none => exact .inl (tmxSend_none cal (.inr (.inl hs)))
    | some at_ =>
      cases htx : txOn l d with
      | false => exact .inl (tmxSend_none cal (.inr (.inr htx)))
      | true =>
        obtain ⟨x, hx⟩ := tmxSend_some (p := p) cal ht hs htx
        exact .inr ⟨x, _, _, hx⟩

theorem frame_tmxSend (p : Nat) (cal : Bool) (hs : S .sent) (hl : S .lanes) (hk : S (.lane l)) (h : Frame W S d e) :
    Frame W S d (tmxSend l p cal e).2 := by
  rcases tmxSend_cases l p cal e with heq | ⟨x, r, i, heq⟩ <;> rw [heq]
  · exact h
  · exact frame_onLane l _ hl hk (frame_send x hs h)

theorem tmxSend_ds (l p k : Nat) (cal : Bool) (d : Dev) : ((tmxSend l p cal d).2.lane k).ds = (d.lane k).ds := by
  rcases tmxSend_cases l p cal d with heq | ⟨x, r, i, heq⟩ <;> rw [heq]
  by_cases hlk : l = k
  · subst hlk
    rw [lane_onLane_same, inFlight]
    rfl
  · rw [lane_onLane_ne _ _ _ _ hlk]
    rfl

/-! ## Calibration keeps exchanges in flight -/

/-- One more exchange of the calibration. -/
def calStep (l : Nat) (d : Dev) : Dev :=
  if d.mode = modeRUN ∧ 15 ≤ (d.lane l).tmx.length then d
  else match calNext l d with
    | some p => (tmxSend l p true d).2
    | none => d

theorem calPump_eq (l : Nat) (d : Dev) : calPump l d =
    if ¬ d.converting ∨ d.lnState l ≠ lnACTIVE ∨ 128 ≤ l then d else foldN 16 (fun d _ => calStep l d) d := rfl

theorem frame_calStep (hs : S .sent) (hl : S .lanes) (hk : S (.lane l)) (h : Frame W S d e) : Frame W S d (calStep l e) := by
  unfold calStep
  cases calNext l e with
  | none => exact frame_ite h h
  | some p => exact frame_ite h (frame_tmxSend p true hs hl hk h)

theorem frame_calPump (hs : S .sent) (hl : S .lanes) (hk : S (.lane l)) (h : Frame W S d e) : Frame W S d (calPump l e) := by
  rw [calPump_eq]
  exact frame_ite h (frame_foldN 16 _ (fun _ _ _ he => frame_calStep hs hl hk he) h)

theorem calStep_ds (l k : Nat) (d : Dev) : ((calStep l d).lane k).ds = (d.lane k).ds := by
  unfold calStep
  cases calNext l d with
  | none => split <;> rfl
  | some p =>
    split
    · rfl
    · exact tmxSend_ds l p k true d

theorem calPump_ds (l k : Nat) (d : Dev) : ((calPump l d).lane k).ds = (d.lane k).ds := by
  rw [calPump_eq]
  split
  · rfl
  · exact foldN_view (fun e : Dev => (e.lane k).ds) 16 (fun e _ => calStep_ds l k e) d

/-- Calibration leaves the delays and the registers. -/
theorem calPump_posD (l k p : Nat) (d : Dev) : (calPump l d).posD k p = d.posD k p := by
  rw [Dev.posD, calPump_ds, Dev.posD]

theorem calPump_word (l : Nat) (d : Dev) (a : Nat) : (calPump l d).word a = d.word a :=
  (frame_calPump (W := fun _ => False) (S := fun _ => True) trivial trivial trivial (frame_refl d)).words a id

/-! ## A sample -/

theorem posD_setPosD (d : Dev) (l p : Nat) (x : PosD) : (d.setPosD l p x).posD l p = x := by
  rw [Dev.posD, Dev.setPosD, lane_onLane_same, smGet_smSet, if_pos rfl]

theorem flag_setPosD (d : Dev) (l p : Nat) (x : PosD) (f : Fld) : (d.setPosD l p x).flag f = d.flag f :=
  flag_congr (get_onLane _ _ _ _)

theorem satD_posD (l p : Nat) (x : Int) (d : Dev) : (satD l x d).2.posD l p = d.posD l p := by
  unfold satD
  dsimp only
  split
  · rfl
  · rw [Dev.posD, raise_lane, Dev.posD]

theorem satD_flag (l : Nat) (x : Int) (d : Dev) (h : ((satU 16 x : Nat) : Int) ≠ x) : (satD l x d).2.flag (LN_EVT_DSAT l) = true := by
  unfold satD
  dsimp only
  rw [if_neg h]
  exact uflag_raise d (LN_EVT_DSAT l) .service (unit_ge rfl) rfl rfl

theorem frame_satD (L : LaneRoom l W S) (x : Int) (h : Frame W S d e) : Frame W S d (satD l x e).2 :=
  frame_ite h (frame_service (LN_EVT_DSAT l) L.toEvents (L.regs _ (by decide)) h)

theorem frame_setPosD (L : LaneRoom l W S) (x : PosD) (h : Frame W S d e) : Frame W S d (e.setPosD l p x) :=
  frame_onLane l _ L.lanes L.lane h

theorem frame_calSample (U : BroadRoom W S) (d1 : Int) (h : Frame W S d e) : Frame W S d (calSample l p d1 e) := by
  unfold calSample
  extract_lets s x y z m u v w
  have hs : Frame W S d s.2 := frame_satD (U.lane l) d1 h
  have hm : Frame W S d m.2 := frame_satD (U.lane l) _ hs
  exact frame_ite (frame_setPosD (U.lane l) _ hs)
    (frame_ite (frame_onCell _ _ (U.cell w).cells (U.cell w).cell (frame_setPosD (U.lane l) _ hm)) (frame_setPosD (U.lane l) _ hm))

theorem frame_runSample (L : LaneRoom l W S) (d1 : Int) (h : Frame W S d e) : Frame W S d (runSample l p d1 e) := by
  have hs : Frame W S d (satD l d1 e).2 := frame_satD L d1 h
  unfold runSample
  dsimp only
  cases (e.posD l p).rep with
  | none =>
    exact frame_ite (frame_setPosD L _ hs) (frame_ite (frame_setPosD L _ hs)
      (frame_setPosD L _ (frame_notice (LN_EVT_TMXJUMP l) L.toEvents (L.regs _ (by decide)) hs)))
  | some x => exact frame_ite (frame_setPosD L _ hs) (frame_setPosD L _ (frame_satD L _ hs))

theorem frame_tmxSample (U : BroadRoom W S) (cal : Bool) (d1 : Int) (h : Frame W S d e) : Frame W S d (tmxSample l p cal d1 e) := by
  unfold tmxSample
  split
  · exact frame_calSample U d1 h
  · exact frame_runSample (U.lane l) d1 h
  · exact h

/-- A sample of calibration that is not the 256th. -/
theorem calSample_adds {x : PosD} (hx : d.posD l p = x) (d1 : Int) (h : x.calN + 1 < 256) :
    ((calSample l p d1 d).posD l p).calN = x.calN + 1 ∧ ((calSample l p d1 d).posD l p).calSum = x.calSum + d1 ∧
      ((calSample l p d1 d).posD l p).valid = x.valid ∧
      (((satU 16 d1 : Nat) : Int) ≠ d1 → (calSample l p d1 d).flag (LN_EVT_DSAT l) = true) := by
  subst hx
  have hp := satD_posD l p d1 d
  unfold calSample
  dsimp only
  rw [hp, if_pos h, posD_setPosD, flag_setPosD]
  exact ⟨rfl, rfl, rfl, satD_flag l d1 d⟩

/-- A sample of a period that is neither rejected nor part of a replacement. -/
theorem runSample_moves {x : PosD} (hx : d.posD l p = x) (d1 : Int) (hr : x.rep = none)
    (h : absN (d1 - (x.newD.getD x.d : Nat)) ≤ d.get (LN_TMXCFG_JUMP l)) :
    ((runSample l p d1 d).posD l p).newD = some (if ((satU 16 d1 : Nat) : Int) = d1
        then satU 16 (((x.newD.getD x.d : Nat) : Int) + rdiv (d1 - (x.newD.getD x.d : Nat)) 16) else satU 16 d1) ∧
      ((runSample l p d1 d).posD l p).d = x.d ∧
      (((satU 16 d1 : Nat) : Int) ≠ d1 → (runSample l p d1 d).flag (LN_EVT_DSAT l) = true) := by
  subst hx
  have hget : (satD l d1 d).2.get (LN_TMXCFG_JUMP l) = d.get (LN_TMXCFG_JUMP l) := by
    unfold satD
    dsimp only
    split
    · rfl
    · exact ufld_raise_ne d (LN_EVT_DSAT l) (LN_TMXCFG_JUMP l) .service (unit_ge rfl) (off_ne _ (by decide))
  unfold runSample
  dsimp only
  rw [hr]
  dsimp only
  rw [hget, if_pos h, posD_setPosD, flag_setPosD]
  exact ⟨rfl, rfl, satD_flag l d1 d⟩

/-! ## A response -/

/-- The round trip that a response ends, in 1/16 tick. -/
def roundTrip (trx : Nat) (r : TmxReq) : Nat := (trx + 2 ^ 32 - r.ttx % 2 ^ 32) % 2 ^ 32

/-- The exchange with a tag is over. -/
def tmxEnd (l tag : Nat) (d : Dev) : Dev := d.onLane l fun x => { x with tmx := x.tmx.filter fun y => y.tag != tag }

theorem tmxEnd_posD (l p tag : Nat) (d : Dev) : (tmxEnd l tag d).posD l p = d.posD l p := by
  rw [tmxEnd, Dev.posD, lane_onLane_same, Dev.posD]

theorem tmxResponse_eq {tag trx : Nat} (res : Nat) {r : TmxReq} (hr : (d.lane l).tmx.find? (fun r => r.tag == tag && r.pos == p) = some r)
    (h : roundTrip trx r ≤ 160000) : tmxResponse l tag p res trx d =
      calPump l (tmxSample l p r.cal (rdiv ((roundTrip trx r : Nat) - (res : Int) + d.getS (LN_TMXCFG_ASYMCOR l)) 2) (tmxEnd l tag d)) := by
  have hget : (tmxEnd l tag d).getS (LN_TMXCFG_ASYMCOR l) = d.getS (LN_TMXCFG_ASYMCOR l) :=
    congrArg (toS _) (get_onLane _ _ _ _)
  have hle : ¬ (160000 : Int) < ((roundTrip trx r : Nat) : Int) := by omega
  rw [← hget]
  unfold tmxResponse
  rw [hr]
  dsimp only
  exact congrArg (calPump l) (if_neg hle)

theorem frame_tmxResponse (U : BroadRoom W S) (tag res trx : Nat) (h : Frame W S d e) : Frame W S d (tmxResponse l tag p res trx e) := by
  have L := U.lane l
  unfold tmxResponse
  split
  · exact h
  · have hf := frame_onLane l (fun x => { x with tmx := x.tmx.filter fun y => y.tag != tag }) L.lanes L.lane h
    exact frame_calPump L.sent L.lanes L.lane (frame_ite hf (frame_tmxSample U _ _ hf))

/-- A response to a request of the calibration. -/
theorem tmxResponse_adds {tag trx : Nat} (res : Nat) {r : TmxReq} {d1 : Int}
    (hr : (d.lane l).tmx.find? (fun r => r.tag == tag && r.pos == p) = some r) (h : roundTrip trx r ≤ 160000)
    (hd1 : rdiv ((roundTrip trx r : Nat) - (res : Int) + d.getS (LN_TMXCFG_ASYMCOR l)) 2 = d1)
    (hv : (d.posD l p).valid = false) (hcal : r.cal = true) (hn : (d.posD l p).calN + 1 < 256) :
    ((tmxResponse l tag p res trx d).posD l p).calN = (d.posD l p).calN + 1 ∧
      ((tmxResponse l tag p res trx d).posD l p).calSum = (d.posD l p).calSum + d1 ∧
      ((tmxResponse l tag p res trx d).posD l p).valid = false ∧
      (((satU 16 d1 : Nat) : Int) ≠ d1 → (tmxResponse l tag p res trx d).flag (LN_EVT_DSAT l) = true) := by
  have hx := tmxEnd_posD l p tag d
  have hs : tmxSample l p r.cal d1 (tmxEnd l tag d) = calSample l p d1 (tmxEnd l tag d) := by
    unfold tmxSample
    rw [hx, hv, hcal]
  obtain ⟨hN, hsum, hvalid, hsat⟩ := calSample_adds hx d1 hn
  rw [tmxResponse_eq res hr h, hd1, hs, calPump_posD, Dev.flag, Dev.get, calPump_word]
  exact ⟨hN, hsum, hvalid.trans hv, hsat⟩

/-- A response to a request of a period. -/
theorem tmxResponse_moves {tag trx : Nat} (res : Nat) {r : TmxReq} {d1 : Int}
    (hr : (d.lane l).tmx.find? (fun r => r.tag == tag && r.pos == p) = some r) (h : roundTrip trx r ≤ 160000)
    (hd1 : rdiv ((roundTrip trx r : Nat) - (res : Int) + d.getS (LN_TMXCFG_ASYMCOR l)) 2 = d1)
    (hv : (d.posD l p).valid = true) (hcal : r.cal = false) (hrep : (d.posD l p).rep = none) {now : Nat}
    (hnow : (d.posD l p).newD.getD (d.posD l p).d = now) (hj : absN (d1 - (now : Int)) ≤ d.get (LN_TMXCFG_JUMP l)) :
    ((tmxResponse l tag p res trx d).posD l p).newD = some (if ((satU 16 d1 : Nat) : Int) = d1
        then satU 16 ((now : Int) + rdiv (d1 - now) 16) else satU 16 d1) ∧
      ((tmxResponse l tag p res trx d).posD l p).d = (d.posD l p).d ∧
      (((satU 16 d1 : Nat) : Int) ≠ d1 → (tmxResponse l tag p res trx d).flag (LN_EVT_DSAT l) = true) := by
  subst hnow
  have hx := tmxEnd_posD l p tag d
  have hs : tmxSample l p r.cal d1 (tmxEnd l tag d) = runSample l p d1 (tmxEnd l tag d) := by
    unfold tmxSample
    rw [hx, hv, hcal]
  have hget : (tmxEnd l tag d).get (LN_TMXCFG_JUMP l) = d.get (LN_TMXCFG_JUMP l) := get_onLane _ _ _ _
  rw [← hget] at hj
  rw [tmxResponse_eq res hr h, hd1, hs, calPump_posD, Dev.flag, Dev.get, calPump_word]
  exact runSample_moves hx d1 hrep hj

/-! ## A response that does not come -/

theorem frame_tmxTimeout (L : LaneRoom l W S) (tag : Nat) (h : Frame W S d e) : Frame W S d (tmxTimeout l tag e) :=
  frame_calPump L.sent L.lanes L.lane (frame_onLane l _ L.lanes L.lane h)

theorem tmxTimeout_tmx (tag : Nat) (h : d.converting = false) :
    ((tmxTimeout l tag d).lane l).tmx = (d.lane l).tmx.filter fun y => y.tag != tag := by
  have hc : (tmxEnd l tag d).converting = false := h
  have heq : tmxTimeout l tag d = tmxEnd l tag d := by
    rw [tmxTimeout, calPump_eq]
    exact if_pos (.inl (Bool.eq_false_iff.mp hc))
  rw [heq, tmxEnd, lane_onLane_same]

/-! ## End-to-end delays -/

theorem frame_asymCheck (L : LaneRoom l W S) (h : Frame W S d e) : Frame W S d (asymCheck l e) :=
  frame_ite (frame_notice (LN_EVT_ASYM l) L.toEvents (L.regs _ (by decide)) h) h

/-- The delay of one more request. -/
def e2eAdd (delay : Nat) (x : LaneSt) : LaneSt := { x with e2eSum := x.e2eSum + delay, e2eN := x.e2eN + 1 }

/-- The same, and the mean that shows. -/
def e2eShow (l delay : Nat) (d : Dev) : Dev :=
  let d := d.onLane l (e2eAdd delay)
  (d.put (LN_TMXE2E_E2E l) (satU 16 (rdiv (d.lane l).e2eSum (d.lane l).e2eN))).put (LN_TMXE2E_VALID l) 1

theorem e2eStamp_eq (l delay : Nat) (d : Dev) : e2eStamp l delay d =
    if 128 ≤ l ∨ d.get (QU_STAT_CHAIN (l / 2)) ≠ chINTACT then d else asymCheck (partner l) (asymCheck l (e2eShow l delay d)) := rfl

theorem frame_e2eStamp (U : BroadRoom W S) (delay : Nat) (h : Frame W S d e) : Frame W S d (e2eStamp l delay e) := by
  have L := U.lane
  rw [e2eStamp_eq, e2eShow]
  exact frame_ite h (frame_asymCheck (L _) (frame_asymCheck (L l) (frame_put (LN_TMXE2E_VALID l) 1 ((L l).regs _ (by decide))
    (frame_put (LN_TMXE2E_E2E l) _ ((L l).regs _ (by decide)) (frame_onLane l _ (L l).lanes (L l).lane h)))))

theorem asymCheck_lane (l k : Nat) (d : Dev) : (asymCheck l d).lane k = d.lane k := by
  unfold asymCheck
  dsimp only
  split
  · exact raise_lane _ _ _ _
  · rfl

theorem asymCheck_valid (m l : Nat) (d : Dev) : (asymCheck m d).flag (LN_TMXE2E_VALID l) = d.flag (LN_TMXE2E_VALID l) := by
  have hne : (LN_EVT_ASYM m).addr ≠ (LN_TMXE2E_VALID l).addr := by
    show LN_EVT m ≠ LN_TMXE2E l
    unfold LN_EVT LN_TMXE2E
    omega
  unfold asymCheck
  dsimp only
  split
  · exact flag_congr (ufld_raise_ne d (LN_EVT_ASYM m) (LN_TMXE2E_VALID l) .notice (unit_ge rfl) hne)
  · rfl

theorem e2eStamp_shows (delay : Nat) (hl : l < 128) (hc : d.get (QU_STAT_CHAIN (l / 2)) = chINTACT) :
    (e2eStamp l delay d).flag (LN_TMXE2E_VALID l) = true ∧ ((e2eStamp l delay d).lane l).e2eN = (d.lane l).e2eN + 1 ∧
      ((e2eStamp l delay d).lane l).e2eSum = (d.lane l).e2eSum + delay := by
  rw [e2eStamp_eq, if_neg (not_or.mpr ⟨by omega, not_not.mpr hc⟩), asymCheck_valid, asymCheck_valid, asymCheck_lane, asymCheck_lane]
  have hlane : (e2eShow l delay d).lane l = e2eAdd delay (d.lane l) := lane_onLane_same d l _
  rw [hlane]
  exact ⟨uflag_put_one _ (LN_TMXE2E_VALID l) rfl rfl, rfl, rfl⟩

/-! ## Requests of the twin -/

theorem frame_tmxRequest (hs : S .sent) (x tag res : Nat) (h : Frame W S d e) : Frame W S d (tmxRequest x tag res e) :=
  frame_ite (frame_send _ hs h) h

theorem tmxRequest_sent (x tag res : Nat) (h : d.lnState (128 + x) = lnACTIVE) : (tmxRequest x tag res d).sent =
    if txOn (128 + x) d then .laneBlock (128 + x) (ctlBlock 0xA5 (2 ^ 8 + tag * 2 ^ 12 + res * 2 ^ 24)) :: d.sent else d.sent := by
  unfold tmxRequest
  simp only [h, true_and]
  split <;> rfl

end Sys2Proof.Machine

open Sys2Proof Machine

/-- Settles O19, by the samples of a response, which calibration leaves as they are. -/
theorem laneTiming : Obligations.LaneTiming := by
  unfold Obligations.LaneTiming
  intro l s h hinj
  have L := calmBroad.lane
  have r := frame_refl (W := calmRegs) (S := calmParts) s.dev
  refine ⟨fun tag pos res trx q hq hrtt => ?_, fun tag hc => ?_, fun delay hl hc => ?_, fun x tag res hs => ?_⟩
  · have hinj' : injLane l.val (tmxResponse l.val tag.toNat pos.val res.toNat trx) s.dev =
        tmxResponse l.val tag.toNat pos.val res.toNat trx s.dev := injLane_none _ hinj
    have hquiet : Quiet s.dev (injLane l.val (tmxResponse l.val tag.toNat pos.val res.toNat trx) s.dev) := by
      rw [hinj']
      exact quiet_of_frame (frame_tmxResponse calmBroad _ _ _ r)
    refine ⟨fun hv hcal hn => ?_, fun hv hcal hrep hjump => ?_⟩
    · refine answers_running (f := injLane l.val (tmxResponse l.val tag.toNat pos.val res.toNat trx)) rfl h hquiet ?_
      rw [hinj', Dev.posD, tripOutRelease_lane, settled_flag _ (LN_EVT_DSAT l.val) (unit_ge rfl)]
      exact tmxResponse_adds res.toNat hq hrtt rfl hv hcal hn
    · refine answers_running (f := injLane l.val (tmxResponse l.val tag.toNat pos.val res.toNat trx)) rfl h hquiet ?_
      rw [hinj', Dev.posD, tripOutRelease_lane, settled_flag _ (LN_EVT_DSAT l.val) (unit_ge rfl)]
      exact tmxResponse_moves res.toNat hq hrtt rfl hv hcal hrep rfl hjump
  · refine answers_running rfl h (quiet_of_frame (frame_tmxTimeout (L l.val) _ r)) ?_
    rw [tripOutRelease_lane]
    exact tmxTimeout_tmx _ hc
  · refine answers_running rfl h (quiet_of_frame (frame_e2eStamp calmBroad delay r)) ?_
    rw [settled_flag _ (LN_TMXE2E_VALID l.val) (unit_ge rfl), tripOutRelease_lane]
    exact e2eStamp_shows delay hl hc
  · have heq : injLane (128 + x.val) (tmxRequest x.val tag.toNat res.toNat) s.dev = tmxRequest x.val tag.toNat res.toNat s.dev :=
      injLane_none _ hinj
    refine answers_running (f := injLane (128 + x.val) (tmxRequest x.val tag.toNat res.toNat)) rfl h ?_ ?_
    · rw [heq]
      exact quiet_of_frame (frame_tmxRequest (L 0).sent _ _ _ r)
    · rw [heq, tripOutRelease_sent]
      exact tmxRequest_sent x.val tag.toNat res.toNat hs

end

section
/-! PROOFS. HOP counts, the reach of a stream and the delivery budget (O22). -/

namespace Sys2Proof.Machine

variable {d : Dev} {l q hopcnt : Nat}

/-! ## HOP blocks -/

/-- The lane whose stream ends at lane `l`. -/
def hopLane (l : Nat) (d : Dev) : Nat := if originKind (l / 2) (l % 2) d = 1 then partner l else l

/-- The count of a stream after one more HOP block. -/
def hopCount (hopcnt : Nat) (x : LaneSt) : LaneSt :=
  if x.hopRun ≠ 0 ∧ x.hopVal = hopcnt ∧ x.hopGap ≤ 1 then { x with hopRun := x.hopRun + 1, hopGap := 0 }
  else { x with hopVal := hopcnt, hopRun := 1, hopGap := 0 }

theorem hopCount_shows (hopcnt : Nat) (x : LaneSt) : (hopCount hopcnt x).hopVal = hopcnt ∧ (hopCount hopcnt x).hopGap = 0 ∧
    (hopCount hopcnt x).hopRun = if x.hopRun ≠ 0 ∧ x.hopVal = hopcnt ∧ x.hopGap ≤ 1 then x.hopRun + 1 else 1 := by
  unfold hopCount
  split
  case isTrue h => exact ⟨h.2.1, rfl, rfl⟩
  case isFalse h => exact ⟨rfl, rfl, rfl⟩

theorem hopBlock_lane (hs : d.lnState l = lnACTIVE) (hc : hopcnt ≤ 0x80)
    (ho : d.get (QU_STAT_CHAIN (l / 2)) = chONEWAY → originKind (l / 2) (l % 2) d = 1) :
    (hopBlock l hopcnt d).lane (hopLane l d) = hopCount hopcnt (d.lane (hopLane l d)) := by
  have heq : hopBlock l hopcnt d = d.onLane (hopLane l d) (hopCount hopcnt) :=
    if_neg (by rintro (h | h | ⟨h, k⟩); exacts [h hs, by omega, k (ho h)])
  rw [heq, lane_onLane_same]

theorem hopBlock_oneway (hc : d.get (QU_STAT_CHAIN (l / 2)) = chONEWAY) (ho : originKind (l / 2) (l % 2) d ≠ 1) :
    hopBlock l hopcnt d = d := if_pos (.inr (.inr ⟨hc, ho⟩))

/-! ## The reach of a stream -/

/-- The quire's registers and the quire are no lane. -/
theorem quireBesideLanes (q k : Nat) : QuireRoom q (fun _ => True) (· ≠ .lane k) where
  evt := trivial
  cnt := trivial
  fc := nofun
  dr := nofun
  regs _ _ := trivial
  quires := nofun
  quire := nofun

theorem slotWrite_lane (q k : Nat) (d : Dev) : (slotWrite q d).lane k = d.lane k :=
  (frame_slotWrite (quireBesideLanes q k) (frame_refl d)).parts (.lane k) (fun h => h rfl)

theorem nposCheck_lane (q k : Nat) (d : Dev) : (nposCheck q d).lane k = d.lane k :=
  (frame_nposCheck (quireBesideLanes q k) (frame_refl d)).parts (.lane k) (fun h => h rfl)

theorem slotWrite_pends (q : Nat) (d : Dev) : (slotWrite q d).flag (QU_SLOTCTL_PEND q) = true := by
  unfold slotWrite
  extract_lets a b reach pend
  have hp : pend.flag (QU_SLOTCTL_PEND q) = true := uflag_put_one _ (QU_SLOTCTL_PEND q) rfl rfl
  split
  · split
    · exact (flag_congr (get_onQuire _ _ _ _)).trans hp
    · exact hp
  · exact hp

theorem nposCheck_pend (q : Nat) (d : Dev) : (nposCheck q d).flag (QU_SLOTCTL_PEND q) = d.flag (QU_SLOTCTL_PEND q) := by
  unfold nposCheck
  split
  · exact flag_congr (ufld_raise_ne d (QU_EVT_NPOSERR q) (QU_SLOTCTL_PEND q) .service (unit_ge rfl) (off_ne _ (by decide)))
  · rfl

theorem reachUpdated_takes {endB : Bool} (hr : 4 ≤ (d.lane (2 * q + b2n endB)).hopRun) (hc : d.get (QU_STAT_CHAIN q) ≠ chUNSETTLED) :
    ((reachUpdated q endB d).lane (2 * q + b2n endB)).reach = (d.lane (2 * q + b2n endB)).hopVal ∧
      ((d.lane (2 * q + b2n endB)).reach ≠ (d.lane (2 * q + b2n endB)).hopVal →
        (reachUpdated q endB d).flag (QU_SLOTCTL_PEND q) = true) := by
  have hgo : ¬ ((d.lane (2 * q + b2n endB)).hopRun < 4 ∨ d.get (QU_STAT_CHAIN q) = chUNSETTLED) :=
    not_or.mpr ⟨Nat.not_lt.mpr hr, hc⟩
  unfold reachUpdated
  dsimp only
  rw [if_neg hgo, nposCheck_lane, nposCheck_pend]
  split
  case isTrue heq => exact ⟨heq, fun hne => absurd heq hne⟩
  case isFalse hne =>
    rw [slotWrite_lane, lane_onLane_same]
    exact ⟨rfl, fun _ => slotWrite_pends _ _⟩

end Sys2Proof.Machine

open Sys2Proof Machine

/-- Settles O22, by what HOP blocks count and the reach takes. -/
theorem reachAndBudget : Obligations.ReachAndBudget := by
  unfold Obligations.ReachAndBudget
  intro s h
  have r := frame_refl (W := calmRegs) (S := calmParts) s.dev
  have hop (l : Fin 128) (hopcnt : BitVec 8) {P : State → Prop} (hinj : s.dev.fc.inj = none)
      (hP : P { s with dev := tripOutRelease (hopBlock l.val hopcnt.toNat s.dev) }) : Answers (.hopBlockRx l hopcnt) s P := by
    have heq : injLane l.val (hopBlock l.val hopcnt.toNat) s.dev = hopBlock l.val hopcnt.toNat s.dev := injLane_none _ hinj
    refine answers_running (f := injLane l.val (hopBlock l.val hopcnt.toNat)) rfl h ?_ (heq ▸ hP)
    rw [heq]
    exact quiet_of_frame (frame_hopBlock l.val _ trivial (fun _ => trivial) r)
  refine ⟨fun l hopcnt hinj hs hc ho => ?_, fun l hopcnt hinj hc ho => ?_, fun q endB hr hc => ?_, fun q hb => ?_⟩
  · refine hop l hopcnt hinj ?_
    have hlane := hopBlock_lane hs hc ho
    dsimp only
    rw [tripOutRelease_lane, ← hopLane, hlane]
    exact hopCount_shows _ _
  · refine hop l hopcnt hinj ?_
    rw [tripOutRelease_lanes, hopBlock_oneway hc ho]
  · refine answers_running rfl h (quiet_of_frame (frame_reachUpdated (calmBroad.quire q.val) endB trivial trivial r)) ?_
    rw [tripOutRelease_lane, settled_flag _ (QU_SLOTCTL_PEND q.val) (unit_ge rfl)]
    exact reachUpdated_takes hr hc
  · refine answers_running rfl h (quiet_of_frame (frame_budgetAchieved (calmBroad.quire q.val) r)) ?_
    have heq : budgetAchieved q.val s.dev = s.dev.put (QU_STAT_BUDGET q.val) 1 := if_pos hb
    rw [settled_flag _ (QU_STAT_BUDGET q.val) (unit_ge rfl), heq]
    exact uflag_put_one s.dev (QU_STAT_BUDGET q.val) rfl rfl

end

section
/-! PROOFS. Request words and records of the event window (O23). -/

namespace Sys2Proof.Machine

variable {W : Nat → Prop} {S : Part → Prop} {d e : Dev} {q s fs tk : Nat} {laneB : Bool} {r : BitVec 128}

/-! ## Request words -/

theorem requestsRx_joins (words : BitVec 256) (hl : d.live = true) (hq : (d.quireRegion q).isSome = true) :
    smGet (fun _ => 0) ((requestsRx q (d.tm.jAbs % 256) words d).quire q).reqs (d.tm.jAbs % 256) =
      smGet (fun _ => 0) (d.quire q).reqs (d.tm.jAbs % 256) ||| words := by
  have hgo : ¬ (¬ d.live = true ∨ d.quireRegion q = none) :=
    not_or.mpr ⟨not_not.mpr hl, fun h => by rw [h] at hq; exact absurd hq (by decide)⟩
  have hfit (x y : Bool) : ¬ ¬ (x || d.tm.jAbs % 256 == d.tm.jAbs % 256 || y) = true := by simp
  unfold requestsRx
  dsimp only
  rw [if_neg hgo, if_neg (hfit _ _), quire_onQuire_same, smGet_smSet, if_pos rfl]

/-! ## Records -/

/-- A slot of the window takes a transfer. -/
def slotTake (s : Nat) (t : XferSlot) (y : QuireSt) : QuireSt := { y with slots := smInsert y.slots s t }

/-- A record that the quire unit reads: of an assigned quire, over an ACTIVE lane, and none of its slot has been taken. -/
structure Read (q : Nat) (laneB : Bool) (s fs : Nat) (d : Dev) : Prop where
  assigned : (d.quireRegion q).isSome = true
  active : d.lnState (2 * q + b2n laneB) = lnACTIVE
  unseen : (d.quire q).evSeen.contains (fs, s) = false

/-- The position that the frame of a record gave its slot to. -/
def namedBy (q s fs : Nat) (d : Dev) : Option Nat :=
  ((d.quire q).evgs.find? fun f => f.fs == fs).bind fun f => f.grants.getD s none

theorem Read.goes (h : Read q laneB s fs d) : ¬ (d.quireRegion q = none ∨ d.lnState (2 * q + b2n laneB) ≠ lnACTIVE ∨
    (d.quire q).evSeen.contains (fs, s) = true) := by
  rintro (k | k | k)
  · exact absurd h.assigned (by rw [k]; decide)
  · exact k h.active
  · exact Bool.false_ne_true (h.unseen.symm.trans k)

/-- A record that is none is discarded; the transfer of its slot comes back. -/
theorem eventRx_bad (h : Read q laneB s fs d) (hr : recordOk r = false) :
    eventRx q laneB s fs (some r) tk d = eventBad q (markSeen q fs s r (d.at_ tk)) ∨
      ∃ t, eventRx q laneB s fs (some r) tk d = (eventBad q (markSeen q fs s r (d.at_ tk))).onQuire q (slotTake s t) := by
  have hno : ¬ recordOk r = true := Bool.eq_false_iff.mp hr
  unfold eventRx
  rw [if_neg h.goes]
  cases (d.quire q).evgs.find? fun f => f.fs == fs with
  | none => exact .inl (if_neg hno)
  | some f =>
    dsimp only
    cases f.grants.getD s none with
    | none => exact .inl (if_neg hno)
    | some p =>
      dsimp only
      rw [if_neg hno]
      cases slotHeld q s p (eventBad q (markSeen q fs s r (d.at_ tk))) with
      | none => exact .inl rfl
      | some t => exact .inr ⟨slotBack fs t, rfl⟩

/-- A good record in a slot that was given to none has no effect. -/
theorem eventRx_unnamed (h : Read q laneB s fs d) (hr : recordOk r = true) (hn : namedBy q s fs d = none) :
    eventRx q laneB s fs (some r) tk d = d ∨ eventRx q laneB s fs (some r) tk d = d.at_ tk := by
  unfold eventRx
  rw [if_neg h.goes]
  unfold namedBy at hn
  cases hf : (d.quire q).evgs.find? fun f => f.fs == fs with
  | none => exact .inl (if_pos hr)
  | some f =>
    rw [hf] at hn
    dsimp only
    rw [show f.grants.getD s none = none from hn]
    exact .inr (if_pos hr)

/-- A good record of the position that its frame named is taken. -/
theorem eventRx_named {p : Nat} (h : Read q laneB s fs d) (hr : recordOk r = true) (hn : namedBy q s fs d = some p) :
    eventRx q laneB s fs (some r) tk d = recordTake q s fs p r (slotHeld q s p (markSeen q fs s r (d.at_ tk)))
      (markSeen q fs s r (d.at_ tk)) := by
  unfold eventRx
  rw [if_neg h.goes]
  unfold namedBy at hn
  cases hf : (d.quire q).evgs.find? fun f => f.fs == fs with
  | none => rw [hf] at hn; exact nomatch hn
  | some f =>
    rw [hf] at hn
    dsimp only
    rw [show f.grants.getD s none = some p from hn]
    exact if_pos hr

/-! ## What is discarded -/

theorem frame_eventBad (R : QuireRoom q W S) (h : Frame W S d e) : Frame W S d (eventBad q e) :=
  frame_notice (QU_EVT_EVBAD q) R.toEvents (R.regs _ (by decide)) (frame_bump (QU_EVCNT_EVBADCNT q) 1 (R.regs _ (by decide)) h)

theorem frame_markSeen (R : QuireRoom q W S) (r : BitVec 128) (h : Frame W S d e) : Frame W S d (markSeen q fs s r e) :=
  frame_ite (frame_onQuire q _ R.quires R.quire h) h

theorem eventBad_shows (q : Nat) (d : Dev) : (eventBad q d).flag (QU_EVT_EVBAD q) = true ∧
    (eventBad q d).get (QU_EVCNT_EVBADCNT q) = satInc 16 (d.get (QU_EVCNT_EVBADCNT q)) 1 := by
  refine ⟨uflag_raise _ (QU_EVT_EVBAD q) .notice (unit_ge rfl) rfl rfl, ?_⟩
  unfold eventBad
  rw [ufld_raise_ne _ (QU_EVT_EVBAD q) (QU_EVCNT_EVBADCNT q) .notice (unit_ge rfl) (off_ne _ (by decide)),
    ufld_bump d (QU_EVCNT_EVBADCNT q) 1 rfl]
  rfl

theorem eventBad_quire (q k : Nat) (d : Dev) : (eventBad q d).quire k = d.quire k := raise_quire _ _ _ _

theorem markSeen_word (q fs s : Nat) (r : BitVec 128) (d : Dev) (a : Nat) : (markSeen q fs s r d).word a = d.word a := by
  unfold markSeen
  split <;> rfl

theorem markSeen_tm (q fs s : Nat) (r : BitVec 128) (d : Dev) : (markSeen q fs s r d).tm = d.tm := by
  unfold markSeen
  split <;> rfl

theorem markSeen_slots (q fs s : Nat) (r : BitVec 128) (d : Dev) : ((markSeen q fs s r d).quire q).slots = (d.quire q).slots := by
  unfold markSeen
  split
  · rw [quire_onQuire_same]
  · rfl

theorem markSeen_seen (q fs s : Nat) (d : Dev) (h : recordChk r = true) :
    ((markSeen q fs s r d).quire q).evSeen.contains (fs, s) = true := by
  rw [markSeen, if_pos h, quire_onQuire_same]
  simp

/-! ## What is taken -/

theorem frame_squashCell (U : BroadRoom W S) (n : Nat) (h : Frame W S d e) : Frame W S d (squashCell n e) := by
  unfold squashCell
  cases e.cellRegion n with
  | none => exact h
  | some g => exact frame_onRegion g _ (U.region g).regions (U.region g).region h

theorem frame_urgentEvent (U : BroadRoom W S) (n v : Nat) (h : Frame W S d e) : Frame W S d (urgentEvent n v e) :=
  frame_ite h (frame_squashCell U n (frame_bypassTrig (U.cell n) 4
    (frame_service (CE_HEALTH_CELLFLT n) U.events ((U.cell n).regs _ (by decide)) h)))

theorem squashCell_quire (n k : Nat) (d : Dev) : (squashCell n d).quire k = d.quire k := by
  unfold squashCell
  split <;> rfl

theorem squashCell_tm (n : Nat) (d : Dev) : (squashCell n d).tm = d.tm := by
  unfold squashCell
  split <;> rfl

theorem urgentEvent_quire (n v k : Nat) (d : Dev) : (urgentEvent n v d).quire k = d.quire k := by
  unfold urgentEvent
  dsimp only
  split
  · rfl
  · exact (squashCell_quire _ _ _).trans (raise_quire _ _ _ _)

theorem urgentEvent_tm (n v : Nat) (d : Dev) : (urgentEvent n v d).tm = d.tm := by
  unfold urgentEvent
  dsimp only
  split
  · rfl
  · exact (squashCell_tm _ _).trans (raise_tm _ _ _)

/-- The order sent goes by the present period alone. -/
theorem gotInsert_congr (h : e.tm.jAbs = d.tm.jAbs) (x : Nat × BitVec 128) (l : List (Nat × BitVec 128)) :
    gotInsert e x l = gotInsert d x l := by
  induction l with
  | nil => rfl
  | cons y l ih =>
    have key (z : Nat × BitVec 128) : sentKey z.1 e = sentKey z.1 d := by rw [sentKey, Dev.j8, h, sentKey, Dev.j8]
    rw [gotInsert, gotInsert, key, key, ih]

/-- A record of a transfer that is not complete takes its place in the order sent. -/
theorem recordTake_keeps {x : XferSlot} (p : Nat) (r : BitVec 128) (hreg : x.reg = false) (hn : x.got.length + 1 < x.n) :
    recordTake q s fs p r (some x) d = (urgentEvent (128 * q + p) r.toNat d).onQuire q (slotTake s { slotBack fs x with
      got := gotInsert (urgentEvent (128 * q + p) r.toNat d) (fs, r) x.got }) := by
  have hback : (slotBack fs x).reg = false ∧ (slotBack fs x).n = x.n ∧ (slotBack fs x).got = x.got := by
    unfold slotBack
    split
    · exact ⟨hreg, rfl, rfl⟩
    · exact ⟨hreg, rfl, rfl⟩
  obtain ⟨breg, bn, bgot⟩ := hback
  unfold recordTake
  dsimp only
  rw [breg, bn, bgot, if_neg (fun h => Bool.false_ne_true h.1), if_neg (Nat.not_le.mpr hn)]
  rfl

/-! ## What a record shows -/

/-- Time leaves the registers of units. -/
theorem unit_still {a : Nat} (h : 0x7000 ≤ a) : ¬ timeRegs a := not_timeRegs_of_unit (Nat.le_trans (by decide) h)

theorem recordOk_iff (r : BitVec 128) : recordOk r = true ↔
    crc8 120 (r.toNat % 2 ^ 120) = r.toNat / 2 ^ 120 ∧ ecodeAssigned (r.toNat % 256) = true := by
  rw [recordOk, Bool.and_eq_true, recordChk, beq_iff_eq]

theorem frame_eventRx_bad (h : Read q laneB s fs d) (hr : recordOk r = false) :
    Frame calmRegs calmParts d (eventRx q laneB s fs (some r) tk d) := by
  have R := calmBroad.quire q
  have hbad := frame_eventBad R (frame_markSeen (fs := fs) (s := s) R r (frame_at_calm d tk))
  rcases eventRx_bad (tk := tk) h hr with heq | ⟨t, heq⟩ <;> rw [heq]
  · exact hbad
  · exact frame_onQuire q _ R.quires R.quire hbad

theorem eventRx_bad_shows (h : Read q laneB s fs d) (hr : recordOk r = false) :
    (eventRx q laneB s fs (some r) tk d).flag (QU_EVT_EVBAD q) = true ∧
      (eventRx q laneB s fs (some r) tk d).get (QU_EVCNT_EVBADCNT q) = satInc 16 (d.get (QU_EVCNT_EVBADCNT q)) 1 ∧
      (recordChk r = true → ((eventRx q laneB s fs (some r) tk d).quire q).evSeen.contains (fs, s) = true) := by
  have hcnt : (markSeen q fs s r (d.at_ tk)).get (QU_EVCNT_EVBADCNT q) = d.get (QU_EVCNT_EVBADCNT q) :=
    (get_congr _ _ _ (markSeen_word _ _ _ _ _ _)).trans (at_get d tk (QU_EVCNT_EVBADCNT q) (unit_still (unit_ge rfl)))
  obtain ⟨hflag, hget⟩ := eventBad_shows q (markSeen q fs s r (d.at_ tk))
  rw [hcnt] at hget
  have hseen (hc : recordChk r = true) : ((eventBad q (markSeen q fs s r (d.at_ tk))).quire q).evSeen.contains (fs, s) = true := by
    rw [eventBad_quire]
    exact markSeen_seen q fs s _ hc
  rcases eventRx_bad (tk := tk) h hr with heq | ⟨t, heq⟩ <;> rw [heq]
  · exact ⟨hflag, hget, hseen⟩
  · rw [quire_onQuire_same]
    exact ⟨(flag_congr (get_onQuire _ _ _ _)).trans hflag, (get_onQuire _ _ _ _).trans hget, hseen⟩

/-- A good record of a transfer in progress, not yet complete. -/
theorem eventRx_keeps {x : XferSlot} (h : Read q laneB s fs d) (hr : recordOk r = true) (hn : namedBy q s fs d = some x.pos)
    (hs : smLook (d.quire q).slots s = some x) (hreg : x.reg = false) (hgot : x.got.length + 1 < x.n) :
    Frame calmRegs calmParts d (eventRx q laneB s fs (some r) tk d) ∧
      smLook ((eventRx q laneB s fs (some r) tk d).quire q).slots s =
        some { slotBack fs x with got := gotInsert d (fs, r) x.got } := by
  have R := calmBroad.quire q
  have hheld : slotHeld q s x.pos (markSeen q fs s r (d.at_ tk)) = some x := by
    unfold slotHeld
    rw [markSeen_slots, at_quire, hs]
    exact if_pos rfl
  have hj : (urgentEvent (128 * q + x.pos) r.toNat (markSeen q fs s r (d.at_ tk))).tm.jAbs = d.tm.jAbs := by
    rw [urgentEvent_tm, markSeen_tm, at_jAbs]
  rw [eventRx_named h hr hn, hheld, recordTake_keeps x.pos r hreg hgot]
  refine ⟨frame_onQuire q _ R.quires R.quire (frame_urgentEvent calmBroad _ _ (frame_markSeen R r (frame_at_calm d tk))), ?_⟩
  rw [quire_onQuire_same, slotTake, smLook_smInsert, if_pos rfl, gotInsert_congr hj]

end Sys2Proof.Machine

open Sys2Proof Machine

/-- Settles O23, by what becomes of a record that is bad, unnamed or taken. -/
theorem eventWindow : Obligations.EventWindow := by
  unfold Obligations.EventWindow
  intro q s h
  have R := calmBroad.quire q.val
  have r := frame_refl (W := calmRegs) (S := calmParts) s.dev
  refine ⟨fun words hl hq => ?_, fun slot fseq laneB x tk hseen => ?_, fun slot fseq laneB rec tk hq hl hseen => ?_⟩
  · have hw : (BitVec.ofNat 8 s.dev.tm.jAbs).toNat = s.dev.tm.jAbs % 256 := BitVec.toNat_ofNat _ _
    refine answers_running rfl h (quiet_of_frame (frame_requestsRx R _ words r)) ?_
    rw [tripOutRelease_quire, hw]
    exact requestsRx_joins words hl hq
  · have heq : eventRx q.val laneB slot.val fseq.toNat x tk s.dev = s.dev := if_pos (.inr (.inr hseen))
    refine answers_running (f := eventRx q.val laneB slot.val fseq.toNat x tk) rfl h ?_ ?_
    · rw [heq]
      exact quiet_of_frame r
    · rw [tripOutRelease_quire, heq]
  · have hread : Read q.val laneB slot.val fseq.toNat s.dev := ⟨hq, hl, hseen⟩
    refine ⟨fun hbad => ?_, fun hgood hcode hnamed => ?_, fun x hgood hcode hnamed hslot hreg hn => ?_⟩
    · have hr : recordOk rec = false := by
        refine Bool.eq_false_iff.mpr fun hok => ?_
        obtain ⟨hc, he⟩ := (recordOk_iff rec).mp hok
        rcases hbad with k | k
        · exact k hc
        · exact Bool.false_ne_true (k.symm.trans he)
      refine answers_running rfl h (quiet_of_frame (frame_eventRx_bad hread hr)) ?_
      rw [settled_flag _ (QU_EVT_EVBAD q.val) (unit_ge rfl), settled_get _ (QU_EVCNT_EVBADCNT q.val) (unit_ge rfl), tripOutRelease_quire]
      obtain ⟨hflag, hcnt, hmark⟩ := eventRx_bad_shows (tk := tk) hread hr
      exact ⟨hflag, hcnt, fun hc => hmark (beq_iff_eq.mpr hc)⟩
    · have hr := (recordOk_iff rec).mpr ⟨hgood, hcode⟩
      have hcases := eventRx_unnamed (tk := tk) hread hr hnamed
      refine answers_running (f := eventRx q.val laneB slot.val fseq.toNat (some rec) tk) rfl h (quiet_of_frame ?_) ?_
      · rcases hcases with heq | heq <;> rw [heq]
        · exact r
        · exact frame_at_calm s.dev tk
      · rw [tripOutRelease_quire, settled_get _ (QU_EVCNT_EVBADCNT q.val) (unit_ge rfl)]
        rcases hcases with heq | heq <;> rw [heq]
        · exact ⟨rfl, rfl⟩
        · exact ⟨at_quire _ _ _, at_get _ _ (QU_EVCNT_EVBADCNT q.val) (unit_still (unit_ge rfl))⟩
    · have hr := (recordOk_iff rec).mpr ⟨hgood, hcode⟩
      obtain ⟨hf, hs⟩ := eventRx_keeps (tk := tk) hread hr hnamed hslot hreg hn
      refine answers_running rfl h (quiet_of_frame hf) ?_
      rw [tripOutRelease_quire]
      exact hs

end

section
/-! PROOFS. The commands of one cell engine (O26). -/

namespace Sys2Proof.Machine

variable {W : Nat → Prop} {S : Part → Prop} {d e : Dev} {o : Origin} {n : Nat}

/-! ## Causes for BYPASSED -/

theorem bypassTrig_sets {cause : Nat} (h : ¬ ((cause = 3 ∧ (d.cell n).tByp ≠ 0) ∨ (d.cell n).tByp = 5)) :
    ((bypassTrig n cause d).cell n).tByp = cause := by
  rw [bypassTrig, cell_onCell_same, if_neg h]

theorem bypassTrig_forces (n : Nat) (d : Dev) : ((bypassTrig n 5 d).cell n).tByp = 5 := by
  rw [bypassTrig, cell_onCell_same]
  split
  case isTrue h => exact h.resolve_left (by omega)
  case isFalse => rfl

theorem suspectTimedOut_due (hs : d.ceState n = ceSUSPECT) (ht : 16 * d.get (CE_CFG2_TSUS n) ≤ (d.cell n).susp + 1)
    (hb : (d.cell n).tByp = 0) : ((suspectTimedOut n d).cell n).tByp = 3 := by
  have heq : suspectTimedOut n d = bypassTrig n 3 d := if_pos ⟨hs, ht⟩
  rw [heq]
  exact bypassTrig_sets (by omega)

/-! ## Windows of the estimator -/

/-- The registers of an engine beside the one that shows its estimates. -/
theorem besideEst (n : Nat) : Events (· ≠ CE_EST n) (fun _ => True) where
  evt := (unit_ne (unit_ge rfl) rfl).symm
  cnt := (unit_ne (unit_ge rfl) rfl).symm
  fc := trivial
  dr := trivial

theorem estWindow_ends (hs : d.ceState n = ceHEALTHY) (hw : d.get (CE_CFG4_EWIN n) ≤ (d.cell n).win + 1) :
    (∃ x : Dev, estWindow n d = estRestart n x) ∧
      (estWindow n d).flag (CE_EST_CVALID n) = (decide (16 ≤ (d.cell n).nc) && decide (0 < (d.cell n).sqv)) ∧
      (estWindow n d).flag (CE_EST_RVALID n) = (decide (16 ≤ (d.cell n).nr) && decide (0 < (d.cell n).sex)) := by
  have hgo : ¬ (d.ceState n ≠ ceHEALTHY ∨ (d.cell n).win + 1 < d.get (CE_CFG4_EWIN n)) :=
    not_or.mpr ⟨not_not.mpr hs, Nat.not_lt.mpr hw⟩
  have E := besideEst n
  unfold estWindow
  rw [if_neg hgo]
  extract_lets c cnom rnom sh cok rok cw rw ce re cest resr valid cr rr wear shown span cage rage ceol
  have hvalid : Frame (· ≠ CE_EST n) (fun _ => True) valid valid := frame_refl _
  have hwear : Frame (· ≠ CE_EST n) (fun _ => True) valid wear := frame_put (CE_WEAR_RRATIO n) _ (off_ne _ (by decide))
    (frame_put (CE_WEAR_CRATIO n) cr (off_ne _ (by decide)) hvalid)
  have hshown : Frame (· ≠ CE_EST n) (fun _ => True) valid shown :=
    frame_foldl _ _ (fun _ p _ hd => frame_tel n p.1 p.2 trivial hd) hwear
  have hspan : Frame (· ≠ CE_EST n) (fun _ => True) valid span :=
    frame_ite (frame_setPoint _ _ trivial (frame_setPoint _ _ trivial hshown))
      (frame_tel n 39 c.vmax trivial (frame_tel n 38 c.vmin trivial hshown))
  have hcage : Frame (· ≠ CE_EST n) (fun _ => True) valid cage :=
    frame_ite (frame_notice (CE_HEALTH_CAGE n) E (off_ne _ (by decide)) hspan) hspan
  have hrage : Frame (· ≠ CE_EST n) (fun _ => True) valid rage :=
    frame_ite (frame_notice (CE_HEALTH_RAGE n) E (off_ne _ (by decide)) hcage) hcage
  have hceol : Frame (· ≠ CE_EST n) (fun _ => True) valid ceol :=
    frame_ite (frame_onCell n _ trivial trivial (frame_service (CE_HEALTH_CEOL n) E (off_ne _ (by decide)) hrage)) hrage
  have hend : Frame (· ≠ CE_EST n) (fun _ => True) valid (estRestart n ceol) := frame_onCell n _ trivial trivial hceol
  have hcv : valid.flag (CE_EST_CVALID n) = cok :=
    (flag_congr (ufld_put_disj _ (CE_EST_RVALID n) (CE_EST_CVALID n) _ rfl rfl)).trans (uflag_putB _ (CE_EST_CVALID n) cok rfl rfl)
  have hrv : valid.flag (CE_EST_RVALID n) = rok := uflag_putB _ (CE_EST_RVALID n) rok rfl rfl
  exact ⟨⟨ceol, rfl⟩, (hend.flag (x := CE_EST_CVALID n) (fun k => k rfl)).trans hcv,
    (hend.flag (x := CE_EST_RVALID n) (fun k => k rfl)).trans hrv⟩

/-! ## CE_CTL -/

/-- What CE_CTL takes. -/
def ceCtlOk (n : Nat) (rel byp : Bool) (d : Dev) : Bool :=
  (!rel || (d.ceState n == ceBYPASSED && !cellInRun n d && !(d.cell n).tRel)) && (!byp || !d.flag (CE_CTL_BYPASS n))

/-- What a write of CE_CTL does. -/
def ceCtlWritten (n : Nat) (rel byp : Bool) (d : Dev) : Dev :=
  let d := if rel then d.onCell n fun c => { c with tRel := true } else d
  if byp ∧ d.ceState n ≠ ceUNREG ∧ d.ceState n ≠ ceRETIRED then bypassTrig n 5 (d.put (CE_CTL_BYPASS n) 1) else d

theorem wrCeCtl_eq (o : Origin) (n : Nat) (w : Word) (d : Dev) : wrCeCtl o n w d =
    shellWrite o .cell (ceCtlOk n (bitOf w.toNat 0) (bitOf w.toNat 1) d) (ceCtlWritten n (bitOf w.toNat 0) (bitOf w.toNat 1)) d := rfl

theorem frame_ceCtlWritten (R : CellRoom n W S) (rel byp : Bool) (h : Frame W S d e) :
    Frame W S d (ceCtlWritten n rel byp e) := by
  have hrel := frame_ite (p := rel = true) (frame_onCell n (fun c => { c with tRel := true }) R.cells R.cell h) h
  exact frame_ite (frame_bypassTrig R 5 (frame_put (CE_CTL_BYPASS n) 1 (R.regs _ (by decide)) hrel)) hrel

theorem ceCtlWritten_bypass (n : Nat) (h1 : d.ceState n ≠ ceUNREG) (h2 : d.ceState n ≠ ceRETIRED) :
    ((ceCtlWritten n false true d).cell n).tByp = 5 ∧ (ceCtlWritten n false true d).flag (CE_CTL_BYPASS n) = true := by
  have heq : ceCtlWritten n false true d = bypassTrig n 5 (d.put (CE_CTL_BYPASS n) 1) := if_pos ⟨rfl, h1, h2⟩
  rw [heq]
  exact ⟨bypassTrig_forces n _, (flag_congr (get_onCell _ _ _ _)).trans (uflag_put_one d (CE_CTL_BYPASS n) rfl rfl)⟩

theorem ceCtlWritten_release (n : Nat) (d : Dev) : ((ceCtlWritten n true false d).cell n).tRel = true := by
  have heq : ceCtlWritten n true false d = d.onCell n fun c => { c with tRel := true } := by simp [ceCtlWritten]
  rw [heq, cell_onCell_same]

/-! ## Diagnostics -/

/-- What CE_DIAGREQ takes. -/
def diagReqOk (n v : Nat) (d : Dev) : Bool :=
  !bitOf v 5 || (decide (1 ≤ v % 16) && decide (v % 16 ≤ 4) && diagArgOk (v % 16) (bitsOf v 16 16) &&
    diagPermits n (v % 16) (bitOf v 4) d && ((d.cell n).diag == 0 || (d.cell n).diag == 3))

/-- A request is submitted, or waits for the end of the hold of the one before. -/
def diagAsked (code arg : Nat) (c : CellSt) : CellSt :=
  if c.diag = 3 then { c with diag := 4, nCode := code, nArg := arg } else { c with diag := 1, dCode := code, dArg := arg }

/-- The fields of CE_DIAGREQ as they were written. -/
def diagReqShown (n v : Nat) (d : Dev) : Dev :=
  ((d.put (CE_DIAGREQ_CODE n) (v % 16)).putB (CE_DIAGREQ_INRUN n) (bitOf v 4)).put (CE_DIAGREQ_ARG n) (bitsOf v 16 16)

/-- What a write of CE_DIAGREQ does. -/
def diagReqWritten (n v : Nat) (d : Dev) : Dev :=
  let d := diagReqShown n v d
  if bitOf v 5 then
    ((d.put (CE_DIAGRES_STATUS n) 1).put (CE_DIAGRES_CODE n) (v % 16)).onCell n (diagAsked (v % 16) (bitsOf v 16 16))
  else d

theorem wrDiagReq_eq (o : Origin) (n : Nat) (w : Word) (d : Dev) : wrDiagReq o n w d =
    shellWrite o .cell (diagReqOk n w.toNat d) (diagReqWritten n w.toNat) d := rfl

theorem frame_diagReqWritten (R : CellRoom n W S) (v : Nat) (h : Frame W S d e) : Frame W S d (diagReqWritten n v e) := by
  have hshown : Frame W S d (diagReqShown n v e) := frame_put (CE_DIAGREQ_ARG n) _ (R.regs _ (by decide))
    (frame_putB (CE_DIAGREQ_INRUN n) _ (R.regs _ (by decide)) (frame_put (CE_DIAGREQ_CODE n) _ (R.regs _ (by decide)) h))
  exact frame_ite (frame_onCell n _ R.cells R.cell (frame_put (CE_DIAGRES_CODE n) _ (R.regs _ (by decide))
    (frame_put (CE_DIAGRES_STATUS n) 1 (R.regs _ (by decide)) hshown))) hshown

/-- The fields of the word that requests a diagnostic. -/
theorem diagWord_fields (code : BitVec 4) (inrun : Bool) (arg : BitVec 16) :
    (diagWord code inrun arg).toNat % 16 = code.toNat ∧ bitOf (diagWord code inrun arg).toNat 4 = inrun ∧
      bitOf (diagWord code inrun arg).toNat 5 = true ∧ bitsOf (diagWord code inrun arg).toNat 16 16 = arg.toNat := by
  have hc := code.isLt
  have ha := arg.isLt
  have hset : b2n true = 1 := rfl
  have hclr : b2n false = 0 := rfl
  have hw : (diagWord code inrun arg).toNat = code.toNat + 16 * b2n inrun + 32 + 2 ^ 16 * arg.toNat := by
    rw [diagWord, BitVec.toNat_ofNat]
    refine Nat.mod_eq_of_lt ?_
    cases inrun <;> simp only [hset, hclr] <;> omega
  rw [hw]
  unfold bitOf bitsOf
  cases inrun <;> simp only [hset, hclr, beq_iff_eq, beq_eq_false_iff_ne] <;> omega

theorem diagReqWritten_go {v : Nat} (hgo : bitOf v 5 = true) (d : Dev) :
    (diagReqWritten n v d).get (CE_DIAGRES_STATUS n) = 1 ∧ (diagReqWritten n v d).get (CE_DIAGRES_CODE n) = v % 16 ∧
      (diagReqWritten n v d).flag (CE_DIAGREQ_INRUN n) = bitOf v 4 ∧
      (diagReqWritten n v d).cell n = diagAsked (v % 16) (bitsOf v 16 16) (d.cell n) := by
  have heq : diagReqWritten n v d = (((diagReqShown n v d).put (CE_DIAGRES_STATUS n) 1).put (CE_DIAGRES_CODE n) (v % 16)).onCell n
      (diagAsked (v % 16) (bitsOf v 16 16)) := if_pos hgo
  have hinrun : (diagReqShown n v d).flag (CE_DIAGREQ_INRUN n) = bitOf v 4 :=
    (uflag_put_disj _ (CE_DIAGREQ_ARG n) (CE_DIAGREQ_INRUN n) _ rfl rfl).trans (uflag_putB _ (CE_DIAGREQ_INRUN n) _ rfl rfl)
  have hne : (CE_DIAGRES_STATUS n).addr ≠ (CE_DIAGREQ_INRUN n).addr := off_ne _ (by decide)
  rw [heq, get_onCell, get_onCell, cell_onCell_same]
  refine ⟨?_, ?_, ?_, rfl⟩
  · exact (ufld_put_disj _ (CE_DIAGRES_CODE n) (CE_DIAGRES_STATUS n) _ rfl rfl).trans (ufld_put _ (CE_DIAGRES_STATUS n) 1 rfl rfl)
  · exact (ufld_put_mod _ (CE_DIAGRES_CODE n) _ rfl).trans (Nat.mod_mod _ 16)
  · exact ((flag_congr (get_onCell _ _ _ _)).trans (flag_congr ((get_put_ne _ (CE_DIAGRES_CODE n) (CE_DIAGREQ_INRUN n) _ hne).trans
      (get_put_ne _ (CE_DIAGRES_STATUS n) (CE_DIAGREQ_INRUN n) _ hne)))).trans hinrun

theorem diagTimedOut_ends (h : (d.cell n).diag = 2) : (diagTimedOut n d).get (CE_DIAGRES_STATUS n) = 5 ∧
    ((diagTimedOut n d).cell n).diag = 0 := by
  have heq : diagTimedOut n d = (d.put (CE_DIAGRES_STATUS n) 5).onCell n fun c => { c with diag := 0 } := if_pos h
  rw [heq, get_onCell, cell_onCell_same]
  exact ⟨ufld_put d (CE_DIAGRES_STATUS n) 5 rfl rfl, rfl⟩

/-! ## The latest time of block confirmation -/

variable {g : Nat}

/-- The cells that owe a confirmation. -/
def owing (g : Nat) (d : Dev) : Nat := ((d.cellsOf g).filter fun n => (d.cell n).owes != 0).length

theorem frame_blockExpiry (R : RegionRoom g W S) (h : Frame W S d e) : Frame W S d (blockExpiry g e) := by
  unfold blockExpiry
  split
  · exact h
  · exact frame_ite h (frame_ite h (frame_put (RG_BLKSTAT_NCONF g) _ (R.regs _ (by decide))
      (frame_notice (RG_BLKSTAT_NOCONF g) R.toEvents (R.regs _ (by decide)) h)))

theorem blockExpiry_counts {x : Ovr} (hx : (d.region g).ovr = some x)
    (ht : x.t0 * d.T + 2 * tStep g d + d.get (RG_BLKCFG_CONFN g) * d.T ≤ d.nowTick) (hk : 0 < owing g d) :
    (blockExpiry g d).flag (RG_BLKSTAT_NOCONF g) = true ∧
      (blockExpiry g d).get (RG_BLKSTAT_NCONF g) = owing g d % 2 ^ (RG_BLKSTAT_NCONF g).width := by
  have heq : blockExpiry g d = (d.raise (RG_BLKSTAT_NOCONF g) .notice).put (RG_BLKSTAT_NCONF g) (owing g d) := by
    unfold blockExpiry
    rw [hx]
    dsimp only
    rw [if_neg (Nat.not_lt.mpr ht)]
    exact if_neg (Nat.ne_of_gt hk)
  rw [heq]
  exact ⟨(uflag_put_disj _ (RG_BLKSTAT_NCONF g) (RG_BLKSTAT_NOCONF g) _ rfl rfl).trans
    (uflag_raise d (RG_BLKSTAT_NOCONF g) .notice (unit_ge rfl) rfl rfl), ufld_put_mod _ (RG_BLKSTAT_NCONF g) _ rfl⟩

end Sys2Proof.Machine

open Sys2Proof Machine

/-- Settles O26, by what each command leaves in its engine. -/
theorem cellCommands : Obligations.CellCommands := by
  unfold Obligations.CellCommands
  intro o n s h
  have C := calmBroad.cell n.val
  have r := frame_refl (W := calmRegs) (S := calmParts) s.dev
  refine ⟨fun hs ht hb => ?_, fun hs hw => ?_, fun hs hw => ?_, fun hd => ?_, fun hl hp => ⟨fun hs hrun hrel => ?_,
    fun h1 h2 hb => ?_, fun code inrun arg hc1 hc4 harg hperm hdiag => ?_⟩, fun g x hx ht hk => ?_⟩
  · refine answers_running rfl h (quiet_of_frame (frame_suspectTimedOut C r)) ?_
    rw [tripOutRelease_cell]
    exact suspectTimedOut_due hs ht hb
  · have heq : estWindow n.val s.dev = s.dev := if_pos (.inr hw)
    refine answers_running rfl h (quiet_of_frame (frame_estWindow C r)) ?_
    rw [tripOutRelease_cell, heq]
  · obtain ⟨⟨x, heq⟩, hcv, hrv⟩ := estWindow_ends hs hw
    refine answers_running rfl h (quiet_of_frame (frame_estWindow C r)) ?_
    rw [tripOutRelease_cell, settled_flag _ (CE_EST_CVALID n.val) (unit_ge rfl), settled_flag _ (CE_EST_RVALID n.val) (unit_ge rfl),
      hcv, hrv, heq, estRestart, cell_onCell_same]
    exact ⟨rfl, rfl, rfl, rfl, rfl, rfl, rfl, rfl, rfl⟩
  · refine answers_running rfl h (quiet_of_frame (frame_diagTimedOut C r)) ?_
    rw [tripOutRelease_cell, settled_get _ (CE_DIAGRES_STATUS n.val) (unit_ge rfl)]
    exact diagTimedOut_ends hd
  · have hok : ceCtlOk n.val true false s.dev = true := by simp [ceCtlOk, hs, hrun, hrel]
    refine answers_shellWrite (ok := ceCtlOk n.val true false) (eff := ceCtlWritten n.val true false) rfl h hl hp hok
      (quiet_of_frame (frame_ceCtlWritten C true false r)) ?_
    rw [tripOutRelease_cell]
    exact ceCtlWritten_release n.val s.dev
  · have hok : ceCtlOk n.val false true s.dev = true := by simp [ceCtlOk, hb]
    refine answers_shellWrite (ok := ceCtlOk n.val false true) (eff := ceCtlWritten n.val false true) rfl h hl hp hok
      (quiet_of_frame (frame_ceCtlWritten C false true r)) ?_
    rw [tripOutRelease_cell, settled_flag _ (CE_CTL_BYPASS n.val) (unit_ge rfl)]
    exact ceCtlWritten_bypass n.val h1 h2
  · obtain ⟨hcode, hinrun, hgo, hargw⟩ := diagWord_fields code inrun arg
    have hok : diagReqOk n.val (diagWord code inrun arg).toNat s.dev = true := by
      have hfree : ((s.dev.cell n.val).diag == 0 || (s.dev.cell n.val).diag == 3) = true := by
        rcases hdiag with k | k <;> rw [k] <;> rfl
      rw [diagReqOk, hcode, hinrun, hgo, hargw, harg, hperm, hfree]
      simp [hc1, hc4]
    refine answers_shellWrite (ok := diagReqOk n.val (diagWord code inrun arg).toNat)
      (eff := diagReqWritten n.val (diagWord code inrun arg).toNat) rfl h hl hp hok (quiet_of_frame (frame_diagReqWritten C _ r)) ?_
    obtain ⟨hstatus, hres, hflag, hcell⟩ := diagReqWritten_go (n := n.val) hgo s.dev
    rw [tripOutRelease_cell, settled_get _ (CE_DIAGRES_STATUS n.val) (unit_ge rfl),
      settled_get _ (CE_DIAGRES_CODE n.val) (unit_ge rfl), settled_flag _ (CE_DIAGREQ_INRUN n.val) (unit_ge rfl),
      hstatus, hres, hflag, hcell, hcode, hinrun, hargw, diagAsked]
    refine ⟨rfl, rfl, rfl, ?_⟩
    rcases hdiag with k | k <;> rw [k] <;> exact ⟨rfl, rfl, rfl⟩
  · refine answers_running rfl h (quiet_of_frame (frame_blockExpiry (calmBroad.region g.val) r)) ?_
    rw [settled_flag _ (RG_BLKSTAT_NOCONF g.val) (unit_ge rfl), settled_get _ (RG_BLKSTAT_NCONF g.val) (unit_ge rfl)]
    exact blockExpiry_counts hx ht hk

end

section
/-! PROOFS. Reports of the cells (O25). -/

namespace Sys2Proof.Machine

variable {W : Nat → Prop} {S : Part → Prop} {d e : Dev} {n g : Nat}

/-! ## What an accepted report does

It is stored first, and what follows from it comes after. -/

/-- The engine takes the report: its own record, the estimate, the report itself, and the end of a run of missed periods. -/
def reportStored (n raw : Nat) (v : Int) (c : CellSt) (d : Dev) : Dev :=
  let d := d.setCell n c
  let d := d.put (CE_VHAT_VHAT n) (satU 24 v)
  let d := foldN 4 (fun d i => d.put (CE_REP_REP n i) (bitsOf raw (32 * i) 32)) d
  (d.put (CE_STAT_LASTSEQ n) (bitsOf raw 32 8)).put (CE_FRESH_MISSRUN n) 0

/-- An engine whose sensor is stuck is to go to SUSPECT. -/
def stuckSuspect (c : CellSt) : CellSt := { c with tSus := 2, freshRun := 0, tHealthy := false }

/-- What a cell owes once it has answered a block in state `stcap`. -/
def owesAfter (n stcap : Nat) (d : Dev) (c : CellSt) : CellSt :=
  { c with owes := if stcap == stBLOCK || (stcap == stBYPASS && d.ceState n == ceBYPASSED) then 0 else 2 }

/-- A sensor that reports the same voltage too often is SUSPECT. -/
def reportStuck (n : Nat) (c : CellSt) (d : Dev) : Dev :=
  if d.get (CE_CFG2_NSTUCK n) ≤ c.stuckN ∧ 4000 * cestOf n d ≤ 16 * absN (c.stuckQ.foldl (fun a x => a + x) 0) then
    ((d.raise (CE_HEALTH_STUCK n) .notice).telCount n 51).onCell n stuckSuspect
  else d

/-- What follows from a report that has been stored. -/
def reportRest (n g raw capofs : Nat) (late : Bool) (c : CellSt) (d : Dev) : Dev :=
  let d := if late then (d.raise (CE_HEALTH_LATE n) .notice).telCount n 50 else d
  let d := reportStuck n c d
  let d := if bitsOf raw 64 6 ≠ 0 then squashCell n (bypassTrig n 4 (d.raise (CE_HEALTH_CELLFLT n) .service)) else d
  let d := if d.bit DR_SRCCFG_CELLRG g then d.source kCELLREP n (2 * (d.tm.bj - d.T + capofs)) raw else d
  blockConfirm n (d.tm.bj - d.T + capofs) (bitsOf raw 40 3) d

/-- The estimate after the first report of an engine, captured outside POS and NEG. -/
def FirstEstimate (n raw : Nat) (v : Int) (d : Dev) : Prop :=
  (d.cell n).first = true → bitsOf raw 40 3 ≠ stPOS → bitsOf raw 40 3 ≠ stNEG → v = (bitsOf raw 0 16 : Nat) * 256

theorem acceptReport_eq (raw capofs : Nat) (late : Bool) (hg : d.cellRegion n = some g) :
    ∃ (c : CellSt) (v : Int), c.got = true ∧ c.first = false ∧ FirstEstimate n raw v d ∧
      acceptReport n raw capofs late d = reportRest n g raw capofs late c (reportStored n raw v c d) := by
  unfold acceptReport
  rw [hg]
  dsimp only
  refine ⟨_, _, rfl, rfl, ?_, rfl⟩
  intro hfirst hpos hneg
  rw [hfirst, if_neg hpos, if_neg hneg]
  simp [rdiv]

/-! ## What follows a report -/

/-- Room for what follows a report: the health of its engine, the confirmation of a block, events, and the records of cells and
regions. -/
structure RestRoom (n : Nat) (W : Nat → Prop) (S : Part → Prop) : Prop extends Events W S where
  health : W (CE_HEALTH n)
  confirm : ∀ g, g < 8 → W (RG_BLKSTAT g)
  cells : S .cells
  cell : S (.cell n)
  regions : S .regions
  region : ∀ g, S (.region g)
  telem : S .telem

/-- A quire names a region by three bits. -/
theorem cellRegion_lt (h : d.cellRegion n = some g) : g < 8 := by
  have hq : d.quireRegion (n / 128) = some g := by
    unfold Dev.cellRegion at h
    split at h
    · exact h
    · exact nomatch h
  unfold Dev.quireRegion at hq
  split at hq
  · exact Option.some.inj hq ▸ Nat.mod_lt _ (Nat.two_pow_pos _)
  · exact nomatch hq

section rest
variable (R : RestRoom n W S)
include R

theorem frame_rest_squash (h : Frame W S d e) : Frame W S d (squashCell n e) := by
  unfold squashCell
  cases e.cellRegion n with
  | none => exact h
  | some g => exact frame_onRegion g _ R.regions (R.region g) h

theorem frame_blockConfirm (cap stcap : Nat) (h : Frame W S d e) : Frame W S d (blockConfirm n cap stcap e) := by
  unfold blockConfirm
  cases hg : e.cellRegion n with
  | none => exact h
  | some g =>
    dsimp only
    cases (e.region g).ovr with
    | none => exact h
    | some o =>
      have ho := frame_onCell n (owesAfter n stcap e) R.cells R.cell h
      exact frame_ite h (frame_ite (frame_put (RG_BLKSTAT_CONF g) 1 (R.confirm g (cellRegion_lt hg)) ho) ho)

theorem frame_reportStuck (c : CellSt) (h : Frame W S d e) : Frame W S d (reportStuck n c e) :=
  frame_ite (frame_onCell n _ R.cells R.cell (frame_telCount n 51 1 R.telem (frame_notice (CE_HEALTH_STUCK n) R.toEvents R.health h))) h

theorem frame_reportRest (g raw capofs : Nat) (late : Bool) (c : CellSt) (h : Frame W S d e) :
    Frame W S d (reportRest n g raw capofs late c e) := by
  unfold reportRest
  extract_lets lated stuck fault noted
  have hlated : Frame W S d lated :=
    frame_ite (frame_telCount n 50 1 R.telem (frame_notice (CE_HEALTH_LATE n) R.toEvents R.health h)) h
  have hstuck : Frame W S d stuck := frame_reportStuck R c hlated
  have hfault : Frame W S d fault := frame_ite (frame_rest_squash R (frame_onCell n _ R.cells R.cell
    (frame_service (CE_HEALTH_CELLFLT n) R.toEvents R.health hstuck))) hstuck
  have hnoted : Frame W S d noted := frame_ite (frame_source _ _ _ _ _ _ R.dr hfault) hfault
  exact frame_blockConfirm R _ _ hnoted

end rest

/-- What follows a report leaves that it has come. -/
def SameIntake (x y : CellSt) : Prop := y.got = x.got ∧ y.first = x.first

theorem intake_refl (x : CellSt) : SameIntake x x := ⟨rfl, rfl⟩

theorem SameIntake.trans {x y z : CellSt} (h : SameIntake x y) (k : SameIntake y z) : SameIntake x z :=
  ⟨k.1.trans h.1, k.2.trans h.2⟩

/-- A change of the engine's record that leaves both. -/
theorem intake_onCell {f : CellSt → CellSt} (hf : ∀ x, SameIntake x (f x)) (d : Dev) (n : Nat) :
    SameIntake (d.cell n) ((d.onCell n f).cell n) := by
  rw [cell_onCell_same]
  exact hf _

/-- Anything else. -/
theorem intake_of_eq {x y : CellSt} (h : y = x) : SameIntake x y := ⟨congrArg CellSt.got h, congrArg CellSt.first h⟩

theorem intake_ite {p : Prop} [Decidable p] {x : CellSt} {y z : Dev} (h : SameIntake x (y.cell n)) (k : SameIntake x (z.cell n)) :
    SameIntake x ((if p then y else z).cell n) := by split <;> assumption

theorem squashCell_cell (n k : Nat) (d : Dev) : (squashCell n d).cell k = d.cell k := by
  unfold squashCell
  split <;> rfl

theorem source_cell (d : Dev) (k : BitVec 4) (i key p m : Nat) : (d.source k i key p).cell m = d.cell m := by
  unfold Dev.source
  split <;> rfl

theorem intake_bypassTrig (n cause : Nat) (d : Dev) : SameIntake (d.cell n) ((bypassTrig n cause d).cell n) := by
  refine intake_onCell (fun x => ?_) d n
  split <;> exact ⟨rfl, rfl⟩

theorem intake_blockConfirm (n cap stcap : Nat) (d : Dev) : SameIntake (d.cell n) ((blockConfirm n cap stcap d).cell n) := by
  have same := intake_refl (d.cell n)
  have ho := intake_onCell (f := owesAfter n stcap d) (fun _ => ⟨rfl, rfl⟩) d n
  unfold blockConfirm
  cases d.cellRegion n with
  | none => exact same
  | some g =>
    dsimp only
    cases (d.region g).ovr with
    | none => exact same
    | some o => exact intake_ite same (intake_ite ho ho)

theorem telCount_raise_cell (d : Dev) (n k : Nat) (f : Fld) (c : Cls) : (((d.raise f c).telCount n k).cell n) = d.cell n :=
  (show ((d.raise f c).telCount n k).cell n = (d.raise f c).cell n by unfold Dev.telCount Dev.tel; split <;> rfl).trans
    (raise_cell _ _ _ _)

theorem intake_reportStuck (n : Nat) (c : CellSt) (d : Dev) : SameIntake (d.cell n) ((reportStuck n c d).cell n) := by
  unfold reportStuck
  exact intake_ite ((intake_of_eq (telCount_raise_cell d n 51 (CE_HEALTH_STUCK n) .notice)).trans
    (intake_onCell (f := stuckSuspect) (fun _ => ⟨rfl, rfl⟩) _ n)) (intake_refl _)

theorem intake_reportRest (n g raw capofs : Nat) (late : Bool) (c : CellSt) (d : Dev) :
    SameIntake (d.cell n) ((reportRest n g raw capofs late c d).cell n) := by
  unfold reportRest
  extract_lets lated stuck fault noted
  have hlated : SameIntake (d.cell n) (lated.cell n) :=
    intake_ite (intake_of_eq (telCount_raise_cell d n 50 (CE_HEALTH_LATE n) .notice)) (intake_refl _)
  have hstuck : SameIntake (lated.cell n) (stuck.cell n) := intake_reportStuck n c lated
  have hfault : SameIntake (stuck.cell n) (fault.cell n) := by
    refine intake_ite ?_ (intake_refl _)
    rw [squashCell_cell]
    exact (intake_of_eq (raise_cell _ _ _ _)).trans (intake_bypassTrig n 4 _)
  have hnoted : SameIntake (fault.cell n) (noted.cell n) := intake_ite (intake_of_eq (source_cell _ _ _ _ _ _)) (intake_refl _)
  exact (((hlated.trans hstuck).trans hfault).trans hnoted).trans (intake_blockConfirm n _ _ _)

/-! ## The report itself -/

theorem cellRep (R : CellRoom n W S) {i : Nat} (h : i < 4) : W (CE_REP n i) := by
  have hw := R.regs (0x10 + 4 * i) (by omega)
  rwa [show 0x10 + 4 * i + 0x100000 + 0x80 * n = CE_REP n i by unfold CE_REP; omega] at hw

theorem frame_reportStored (R : CellRoom n W S) (raw : Nat) (v : Int) (c : CellSt) (h : Frame W S d e) :
    Frame W S d (reportStored n raw v c e) := by
  have hcell : Frame W S d (e.setCell n c) := frame_setCell n c R.cells R.cell h
  have hv := frame_put (CE_VHAT_VHAT n) (satU 24 v) (R.regs _ (by decide)) hcell
  exact frame_put (CE_FRESH_MISSRUN n) 0 (R.regs _ (by decide)) (frame_put (CE_STAT_LASTSEQ n) _ (R.regs _ (by decide))
    (frame_foldN 4 _ (fun f i hi hf => frame_put (CE_REP_REP n i) _ (cellRep R hi) hf) hv))

/-- Every register but those that show the estimate and the fresh report. -/
def besideReport (n a : Nat) : Prop := a ≠ CE_STAT n ∧ a ≠ CE_FRESH n ∧ a ≠ CE_VHAT n

theorem besideReport_low {a : Nat} (n : Nat) (h : a < 0x100000) : besideReport n a := by
  unfold besideReport CE_STAT CE_FRESH CE_VHAT
  omega

theorem restBeside (n : Nat) : RestRoom n (besideReport n) (fun _ => True) where
  evt := besideReport_low n (by decide)
  cnt := besideReport_low n (by decide)
  fc := trivial
  dr := trivial
  health := ⟨off_ne _ (by decide), off_ne _ (by decide), off_ne _ (by decide)⟩
  confirm g hg := by unfold besideReport RG_BLKSTAT CE_STAT CE_FRESH CE_VHAT; omega
  cells := trivial
  cell := trivial
  regions := trivial
  region _ := trivial
  telem := trivial

theorem BroadRoom.rest (U : BroadRoom W S) (n : Nat) : RestRoom n W S where
  toEvents := U.events
  health := (U.cell n).regs _ (by decide)
  confirm g _ := (U.region g).regs _ (by decide)
  cells := (U.cell n).cells
  cell := (U.cell n).cell
  regions := (U.region 0).regions
  region g := (U.region g).region
  telem := (U.cell n).telem

theorem satU_of_lt {w k : Nat} (h : k < 2 ^ w) : satU w (k : Int) = k := by
  unfold satU satI
  rw [if_neg (by omega), if_neg (by omega)]
  rfl

theorem reportStored_shows (n raw : Nat) (v : Int) (c : CellSt) (d : Dev) :
    (reportStored n raw v c d).cell n = c ∧ (reportStored n raw v c d).get (CE_VHAT_VHAT n) = satU 24 v % 2 ^ 24 ∧
      (reportStored n raw v c d).get (CE_STAT_LASTSEQ n) = bitsOf raw 32 8 ∧
      (reportStored n raw v c d).get (CE_FRESH_MISSRUN n) = 0 := by
  unfold reportStored
  extract_lets stored estimate shown
  have hv : estimate.get (CE_VHAT_VHAT n) = satU 24 v % 2 ^ 24 := ufld_put_mod stored (CE_VHAT_VHAT n) _ rfl
  have hshown : Frame (· ≠ CE_VHAT n) (fun _ => False) estimate shown := frame_foldN 4 _ (fun f i hi hf =>
    frame_put (CE_REP_REP n i) _ (show CE_REP n i ≠ CE_VHAT n by unfold CE_REP CE_VHAT; omega) hf) (frame_refl _)
  have hkept : shown.cell n = estimate.cell n := hshown.parts (.cell n) id
  have hput : estimate.cell n = stored.cell n := rfl
  have hcell : shown.cell n = c := (hkept.trans hput).trans ((cell_setCell d n n c).trans (if_pos rfl))
  refine ⟨by rw [cell_put, cell_put, hcell], ?_, ?_, ?_⟩
  · rw [get_put_ne _ (CE_FRESH_MISSRUN n) (CE_VHAT_VHAT n) _ (off_ne _ (by decide)),
      get_put_ne _ (CE_STAT_LASTSEQ n) (CE_VHAT_VHAT n) _ (off_ne _ (by decide)), hshown.get (CE_VHAT_VHAT n) (fun k => k rfl), hv]
  · rw [get_put_ne _ (CE_FRESH_MISSRUN n) (CE_STAT_LASTSEQ n) _ (off_ne _ (by decide)), ufld_put_mod _ (CE_STAT_LASTSEQ n) _ rfl]
    exact Nat.mod_mod _ _
  · exact ufld_put _ (CE_FRESH_MISSRUN n) 0 rfl rfl

theorem frame_acceptReport (U : BroadRoom W S) (raw capofs : Nat) (late : Bool) (h : Frame W S d e) :
    Frame W S d (acceptReport n raw capofs late e) := by
  cases hg : e.cellRegion n with
  | none =>
    unfold acceptReport
    rw [hg]
    exact h
  | some g =>
    obtain ⟨c, v, -, -, -, heq⟩ := acceptReport_eq raw capofs late hg
    rw [heq]
    exact frame_reportRest (U.rest n) g raw capofs late c (frame_reportStored (U.cell n) raw v c h)

theorem acceptReport_shows (raw capofs : Nat) (late : Bool) (hg : d.cellRegion n = some g) :
    ((acceptReport n raw capofs late d).cell n).got = true ∧ ((acceptReport n raw capofs late d).cell n).first = false ∧
      (acceptReport n raw capofs late d).get (CE_STAT_LASTSEQ n) = bitsOf raw 32 8 ∧
      (acceptReport n raw capofs late d).get (CE_FRESH_MISSRUN n) = 0 ∧
      ((d.cell n).first = true → bitsOf raw 40 3 ≠ stPOS → bitsOf raw 40 3 ≠ stNEG →
        (acceptReport n raw capofs late d).get (CE_VHAT_VHAT n) = 256 * bitsOf raw 0 16) := by
  obtain ⟨c, v, hgot, hfirst, hv, heq⟩ := acceptReport_eq raw capofs late hg
  obtain ⟨hcell, hvhat, hseq, hrun⟩ := reportStored_shows n raw v c d
  have hrest := frame_reportRest (restBeside n) g raw capofs late c (frame_refl (reportStored n raw v c d))
  obtain ⟨kgot, kfirst⟩ := intake_reportRest n g raw capofs late c (reportStored n raw v c d)
  rw [heq, kgot, kfirst, hcell, hrest.get (CE_STAT_LASTSEQ n) (fun k => k.1 rfl), hrest.get (CE_FRESH_MISSRUN n) (fun k => k.2.1 rfl),
    hrest.get (CE_VHAT_VHAT n) (fun k => k.2.2 rfl)]
  refine ⟨hgot, hfirst, hseq, hrun, fun h1 h2 h3 => ?_⟩
  have hlt : bitsOf raw 0 16 < 2 ^ 16 := Nat.mod_lt _ (by decide)
  have hnat : v = ((256 * bitsOf raw 0 16 : Nat) : Int) := by
    rw [hv h1 h2 h3, Nat.mul_comm]
    exact (Int.natCast_mul _ _).symm
  rw [hvhat, hnat, satU_of_lt (show 256 * bitsOf raw 0 16 < 2 ^ 24 by omega)]
  exact Nat.mod_eq_of_lt (by omega)

/-! ## Intake -/

/-- The copy that came last. -/
def copied (laneB : Bool) (raw : Nat) (c : CellSt) : CellSt := { c with lastCopy := some (laneB, raw) }

/-- A report that the intake takes up: with a correct CRC, for a registered engine of a quire in use, and no copy of the last one. -/
structure Intact (n : Nat) (laneB : Bool) (raw g : Nat) (d : Dev) : Prop where
  live : d.live = true
  region : d.cellRegion n = some g
  unreg : d.ceState n ≠ ceUNREG
  retired : d.ceState n ≠ ceRETIRED
  crc : crc8 120 (raw % 2 ^ 120) = raw / 2 ^ 120
  fresh : (d.cell n).lastCopy ≠ some (!laneB, raw)

variable {laneB : Bool} {raw tk : Nat}

/-- The captured instant, corrected (R169). -/
def reportCap (n raw : Nat) (d : Dev) : Nat :=
  (satI ((bitsOf raw 16 16 : Int) - rdiv (d.cell n).prev.cor 16) 0 (d.T - 1 : Nat)).toNat

/-- What becomes of the report that has been copied. -/
def reportJudged (n raw g tk : Nat) (d : Dev) : Dev :=
  if (d.tm.jAbs + 511 - bitsOf raw 32 8) % 256 ≠ 0 then (d.raise (CE_HEALTH_STALE n) .notice).telCount n 49
  else if (d.cell n).got then d
  else acceptReport n raw (reportCap n raw d) (pastPos (d.get (RG_MODCFG1_RDL g)) tk d) d

theorem reportIn_eq (h : Intact n laneB raw g d) :
    reportIn n laneB raw tk d = reportJudged n raw g tk (d.onCell n (copied laneB raw)) := by
  have hgo : ¬ (¬ d.live = true ∨ d.ceState n = ceUNREG ∨ d.ceState n = ceRETIRED ∨ crc8 120 (raw % 2 ^ 120) ≠ raw / 2 ^ 120) := by
    rintro (k | k | k | k)
    exacts [k h.live, h.unreg k, h.retired k, k h.crc]
  unfold reportIn
  rw [h.region]
  dsimp only
  rw [if_neg hgo, if_neg h.fresh]
  rfl

/-- The instants of a report that was taken show in its quire. -/
def reportTimed (n tk : Nat) (d : Dev) : Dev :=
  let q := n / 128
  let ofs : Int := ((d.posBase : Nat) : Int) - d.tm.bj
  let t : Int := max ((tk : Int) - ofs) ((d.quire q).rpt.getD ((tk : Int) - ofs))
  let d := (d.onQuire q fun x => { x with rpt := some t }).putS (QU_DLV_RPTLAT q) (satS 16 (t + ofs))
  match d.quireRegion q with
  | none => d
  | some g => if d.mode = modeRUN ∧ pastPos (d.get (RG_MODCFG1_RDL g)) tk d then d.raise (QU_EVT_RPTLATE q) .notice else d

theorem reportRx_eq (n : Nat) (laneB : Bool) (raw tk : Nat) (d : Dev) : reportRx n laneB raw tk d =
    if (d.cell n).got = true ∨ ¬ ((reportIn n laneB raw tk (d.at_ tk)).cell n).got = true then reportIn n laneB raw tk (d.at_ tk)
    else reportTimed n tk (reportIn n laneB raw tk (d.at_ tk)) := rfl

theorem frame_reportTimed (R : QuireRoom (n / 128) W S) (tk : Nat) (h : Frame W S d e) : Frame W S d (reportTimed n tk e) := by
  unfold reportTimed
  extract_lets q ofs t shown
  have hshown : Frame W S d shown := frame_putS (QU_DLV_RPTLAT q) _ (R.regs _ (by decide)) (frame_onQuire q _ R.quires R.quire h)
  split
  · exact hshown
  · exact frame_ite (frame_notice (QU_EVT_RPTLATE q) R.toEvents (R.regs _ (by decide)) hshown) hshown

theorem frame_reportIn (U : BroadRoom W S) (h : Intact n laneB raw g e) (hf : Frame W S d e) :
    Frame W S d (reportIn n laneB raw tk e) := by
  have C := U.cell n
  have hc := frame_onCell n (copied laneB raw) C.cells C.cell hf
  rw [reportIn_eq h]
  exact frame_ite (frame_telCount n 49 1 C.telem (frame_notice (CE_HEALTH_STALE n) C.toEvents (C.regs _ (by decide)) hc))
    (frame_ite hc (frame_acceptReport U raw _ _ hc))

/-- The quire of an engine is no engine. -/
theorem quireBesideCells (q n : Nat) (hq : q < 64) : QuireRoom q (· < 0x100000) (· ≠ .cell n) where
  evt := by decide
  cnt := by decide
  fc := nofun
  dr := nofun
  regs k hk := by omega
  quires := nofun
  quire := nofun

/-- What the intake shows of an engine. -/
def Shown (n raw : Nat) (d e : Dev) : Prop :=
  if bitsOf raw 32 8 ≠ (d.tm.jAbs + 255) % 256 then
    e.flag (CE_HEALTH_STALE n) = true ∧ (e.cell n).got = (d.cell n).got ∧ e.get (CE_VHAT_VHAT n) = d.get (CE_VHAT_VHAT n)
  else if (d.cell n).got = true then
    (e.cell n).got = true ∧ e.get (CE_VHAT_VHAT n) = d.get (CE_VHAT_VHAT n) ∧ e.get (CE_STAT_LASTSEQ n) = d.get (CE_STAT_LASTSEQ n)
  else
    (e.cell n).got = true ∧ (e.cell n).first = false ∧ e.get (CE_STAT_LASTSEQ n) = bitsOf raw 32 8 ∧ e.get (CE_FRESH_MISSRUN n) = 0 ∧
      ((d.cell n).first = true → bitsOf raw 40 3 ≠ stPOS → bitsOf raw 40 3 ≠ stNEG →
        e.get (CE_VHAT_VHAT n) = 256 * bitsOf raw 0 16)

/-- The sequence number of the last period. -/
theorem seq_iff (raw j : Nat) : (j + 511 - bitsOf raw 32 8) % 256 ≠ 0 ↔ bitsOf raw 32 8 ≠ (j + 255) % 256 := by
  have hseq : bitsOf raw 32 8 < 256 := Nat.mod_lt _ (by decide)
  omega

theorem reportJudged_shows (hg : d.cellRegion n = some g) : Shown n raw d (reportJudged n raw g tk d) := by
  unfold Shown reportJudged
  simp only [seq_iff]
  split
  · have htel (x : Dev) (a : Nat) : (x.telCount n 49).word a = x.word a := by unfold Dev.telCount Dev.tel; split <;> rfl
    refine ⟨?_, ?_, ?_⟩
    · exact (flag_congr (get_congr _ _ _ (htel _ _))).trans (uflag_raise _ (CE_HEALTH_STALE n) .notice (unit_ge rfl) rfl rfl)
    · rw [telCount_raise_cell]
    · rw [get_congr _ _ _ (htel _ _), ufld_raise_ne _ (CE_HEALTH_STALE n) (CE_VHAT_VHAT n) .notice (unit_ge rfl) (off_ne _ (by decide))]
  · split
    case isTrue hgot => exact ⟨hgot, rfl, rfl⟩
    case isFalse hgot => exact acceptReport_shows raw _ _ hg

theorem reportIn_shows (h : Intact n laneB raw g d) : Shown n raw d (reportIn n laneB raw tk d) := by
  have hshown := reportJudged_shows (raw := raw) (tk := tk) (d := d.onCell n (copied laneB raw)) h.region
  have hcopy : (d.onCell n (copied laneB raw)).cell n = copied laneB raw (d.cell n) := cell_onCell_same _ _ _
  rw [reportIn_eq h]
  unfold Shown at hshown ⊢
  rw [hcopy, get_onCell, get_onCell] at hshown
  exact hshown

/-! ## The report on its lane -/

theorem Intact.at (h : Intact n laneB raw g d) (tk : Nat) : Intact n laneB raw g (d.at_ tk) := by
  have hst : (d.at_ tk).ceState n = d.ceState n := at_get d tk (CE_STAT_STATE n) (unit_still (unit_ge rfl))
  have hpos : (d.at_ tk).get (QU_CFG_NPOS (n / 128)) = d.get (QU_CFG_NPOS (n / 128)) :=
    at_get d tk (QU_CFG_NPOS (n / 128)) (unit_still (unit_ge rfl))
  have hreg : (d.at_ tk).cellRegion n = d.cellRegion n := by rw [Dev.cellRegion, hpos, at_quireRegion, Dev.cellRegion]
  exact ⟨(at_live d tk).trans h.live, hreg.trans h.region, hst ▸ h.unreg, hst ▸ h.retired, h.crc, h.fresh⟩

theorem Shown.of_at (h : Shown n raw (d.at_ tk) e) : Shown n raw d e := by
  unfold Shown at h ⊢
  rw [at_jAbs, at_cell, at_get d tk (CE_VHAT_VHAT n) (unit_still (unit_ge rfl)),
    at_get d tk (CE_STAT_LASTSEQ n) (unit_still (unit_ge rfl))] at h
  exact h

/-- The registers and the record of the engine are what it shows. -/
theorem Shown.congr {f : Dev} (h : Shown n raw d e) (hf : Frame (· < 0x100000) (· ≠ .cell n) e f) : Shown n raw d f := by
  have hword {x : Fld} (hx : ¬ x.addr < 0x100000) : f.get x = e.get x := hf.get x hx
  have hcell : f.cell n = e.cell n := hf.parts (.cell n) (fun k => k rfl)
  have hstale : f.flag (CE_HEALTH_STALE n) = e.flag (CE_HEALTH_STALE n) :=
    flag_congr (hword (x := CE_HEALTH_STALE n) (Nat.not_lt.mpr (Nat.le_trans (by decide) (Nat.le_add_right 0x100030 _))))
  have hvhat : f.get (CE_VHAT_VHAT n) = e.get (CE_VHAT_VHAT n) :=
    hword (x := CE_VHAT_VHAT n) (Nat.not_lt.mpr (Nat.le_trans (by decide) (Nat.le_add_right 0x100020 _)))
  have hseq : f.get (CE_STAT_LASTSEQ n) = e.get (CE_STAT_LASTSEQ n) :=
    hword (x := CE_STAT_LASTSEQ n) (Nat.not_lt.mpr (Nat.le_add_right 0x100000 _))
  have hrun : f.get (CE_FRESH_MISSRUN n) = e.get (CE_FRESH_MISSRUN n) :=
    hword (x := CE_FRESH_MISSRUN n) (Nat.not_lt.mpr (Nat.le_trans (by decide) (Nat.le_add_right 0x100034 _)))
  unfold Shown at h ⊢
  rw [hstale, hcell, hvhat, hseq, hrun]
  exact h

theorem frame_reportRx (U : BroadRoom W S) (ht : S .tm) (h : Intact n laneB raw g e) (hf : Frame W S d e) :
    Frame W S d (reportRx n laneB raw tk e) := by
  have hin := frame_reportIn (tk := tk) U (h.at tk) (frame_wide_at U ht tk hf)
  rw [reportRx_eq]
  exact frame_ite hin (frame_reportTimed (U.quire _) tk hin)

theorem reportRx_shows (hn : n < 8192) (h : Intact n laneB raw g d) : Shown n raw d (reportRx n laneB raw tk d) := by
  have hin := (reportIn_shows (tk := tk) (h.at tk)).of_at
  rw [reportRx_eq]
  split
  · exact hin
  · exact hin.congr (frame_reportTimed (quireBesideCells (n / 128) n (by omega)) tk (frame_refl _))

end Sys2Proof.Machine

open Sys2Proof Machine

/-- Settles O25, by what the intake makes of an intact report. -/
theorem reportAccepted : Obligations.ReportAccepted := by
  unfold Obligations.ReportAccepted
  intro n laneB raw tk g s h hl hlane hreg h1 h2 hcrc hcopy
  have hin : Intact n.val laneB raw.toNat g s.dev := ⟨hl, hreg, h1, h2, hcrc, hcopy⟩
  have heq : reportOn n.val laneB raw.toNat tk s.dev = reportRx n.val laneB raw.toNat tk s.dev := if_pos hlane
  refine answers_running (f := reportOn n.val laneB raw.toNat tk) rfl h ?_ ?_
  · rw [heq]
    exact quiet_of_frame (frame_reportRx calmBroad trivial hin (frame_refl _))
  · rw [heq, settled_flag _ (CE_HEALTH_STALE n.val) (unit_ge rfl), settled_get _ (CE_VHAT_VHAT n.val) (unit_ge rfl),
      settled_get _ (CE_STAT_LASTSEQ n.val) (unit_ge rfl), settled_get _ (CE_FRESH_MISSRUN n.val) (unit_ge rfl), tripOutRelease_cell]
    exact reportRx_shows n.isLt hin

end

section
/-! PROOFS. What a delivered record and the end of a transfer reach. -/

namespace Sys2Proof.Machine

variable {W : Nat → Prop} {S : Part → Prop} {d e : Dev} {q : Nat}

/-- Room for the end of a transfer of a quire: its event counters, engines, the records of regions, the exchanges of lanes that a
registration starts, and events. -/
structure XferRoom (q : Nat) (W : Nat → Prop) (S : Part → Prop) : Prop extends Events W S where
  count : W (QU_EVCNT q)
  bad : W (QU_EVT q)
  quires : S .quires
  quire : S (.quire q)
  cell : ∀ n, CellRoom n W S
  regions : S .regions
  region : ∀ g, S (.region g)
  lanes : S .lanes
  lane : ∀ k, S (.lane k)
  sent : S .sent

theorem BroadRoom.xfer (U : BroadRoom W S) (q : Nat) : XferRoom q W S where
  toEvents := U.events
  count := (U.quire q).regs _ (by decide)
  bad := (U.quire q).regs _ (by decide)
  quires := (U.quire q).quires
  quire := (U.quire q).quire
  cell := U.cell
  regions := (U.region 0).regions
  region g := (U.region g).region
  lanes := (U.lane 0).lanes
  lane k := (U.lane k).lane
  sent := (U.lane 0).sent

section xfer
variable (R : XferRoom q W S)
include R

/-! ## Delivered records -/

theorem frame_xfer_squash (n : Nat) (h : Frame W S d e) : Frame W S d (squashCell n e) := by
  unfold squashCell
  cases e.cellRegion n with
  | none => exact h
  | some g => exact frame_onRegion g _ R.regions (R.region g) h

theorem frame_squashUnsel (n : Nat) (h : Frame W S d e) : Frame W S d (squashUnsel n e) := by
  unfold squashUnsel
  cases e.cellRegion n with
  | none => exact h
  | some g => exact frame_ite (frame_xfer_squash R n h) h

theorem frame_xfer_calPump (l : Nat) (h : Frame W S d e) : Frame W S d (calPump l e) :=
  frame_calPump R.sent R.lanes (R.lane l) h

theorem frame_registerCell (n : Nat) (id : BitVec 64) (cap : Nat) (h : Frame W S d e) : Frame W S d (registerCell n id cap e) := by
  have C := R.cell n
  unfold registerCell
  extract_lets c changed named count cleared shown bad fresh known forced squashed p reset
  have hnamed : Frame W S d named := frame_put (CE_IDHI_ID n) _ (C.regs _ (by decide)) (frame_put (CE_IDLO_ID n) _ (C.regs _ (by decide)) h)
  have hcount : Frame W S d count := frame_put (CE_STAT_REGCNT n) _ (C.regs _ (by decide)) hnamed
  have hcleared : Frame W S d cleared :=
    frame_foldl _ _ (fun _ k _ hd => frame_telCount n k 0 C.telem hd) (frame_telCount n 52 1 C.telem hcount)
  have hshown : Frame W S d shown := frame_tel n 67 _ C.telem (frame_tel n 66 _ C.telem hcleared)
  have hfresh : Frame W S d fresh :=
    frame_ite (frame_estNominal C (frame_notice (CE_HEALTH_IDCHG n) C.toEvents (C.regs _ (by decide)) hshown)) hshown
  have hknown : Frame W S d known := frame_onCell n _ C.cells C.cell hfresh
  have hforced : Frame W S d forced := frame_ite (frame_bypassTrig C 5 hknown) hknown
  have hsquashed : Frame W S d squashed := frame_squashUnsel R n hforced
  have hreset : Frame W S d reset := frame_foldl _ _ (fun _ l _ hd => frame_onLane l _ R.lanes (R.lane l) hd) hsquashed
  exact frame_ite h (frame_ite (frame_xfer_calPump R _ (frame_xfer_calPump R _ (frame_onCell n _ C.cells C.cell hreset)))
    (frame_xfer_calPump R _ (frame_xfer_calPump R _ hforced)))

theorem frame_diagResult (n code argw data : Nat) (h : Frame W S d e) : Frame W S d (diagResult n code argw data e) := by
  have C := R.cell n
  unfold diagResult
  extract_lets timed shown idBad fresh judged c fail result failed
  have htimed : Frame W S d timed := frame_ite h (frame_tel n 68 _ C.telem h)
  have hshown : Frame W S d shown := frame_ite (frame_tel n 64 _ C.telem htimed) (frame_ite (frame_tel n 65 _ C.telem htimed)
    (frame_ite (frame_tel n 67 _ C.telem (frame_tel n 66 _ C.telem htimed)) htimed))
  have hfresh : Frame W S d fresh :=
    frame_ite (frame_estNominal C (frame_notice (CE_HEALTH_IDCHG n) C.toEvents (C.regs _ (by decide)) hshown)) hshown
  have hjudged : Frame W S d judged := frame_ite (frame_ite (frame_bypassTrig C 5 hfresh) hfresh) hshown
  have hresult : Frame W S d result := frame_put (CE_DIAGRES_RESULT n) _ (C.regs _ (by decide))
    (frame_put (CE_DIAGRES_CODE n) _ (C.regs _ (by decide)) (frame_put (CE_DIAGRES_STATUS n) _ (C.regs _ (by decide)) hjudged))
  have hfailed : Frame W S d failed :=
    frame_ite (frame_notice (CE_HEALTH_DIAGFAIL n) C.toEvents (C.regs _ (by decide)) hresult) hresult
  exact frame_ite hjudged (frame_onCell n _ C.cells C.cell hfailed)

theorem frame_cellEvent (n rec_ ns : Nat) (h : Frame W S d e) : Frame W S d (cellEvent n rec_ ns e) := by
  unfold cellEvent
  extract_lets ecode argw data noted told
  have hnoted : Frame W S d noted := frame_ite (frame_source _ _ _ _ _ _ R.dr h) h
  have htold : Frame W S d told := frame_ite (frame_tel n argw _ (R.cell n).telem hnoted) hnoted
  exact frame_ite (frame_registerCell R n _ argw hnoted) (frame_ite (frame_diagResult R n 4 argw data htold)
    (frame_ite (frame_diagResult R n _ argw data hnoted) hnoted))

theorem frame_deliverRec (p : Nat) (x : BitVec 128) (h : Frame W S d e) : Frame W S d (deliverRec q p x e) :=
  frame_cellEvent R _ _ _ h

/-! ## The end of a transfer -/

theorem frame_xfer_bad (h : Frame W S d e) : Frame W S d (eventBad q e) :=
  frame_notice (QU_EVT_EVBAD q) R.toEvents R.bad (frame_bump (QU_EVCNT_EVBADCNT q) 1 R.count h)

theorem frame_endXfer (s : Nat) (h : Frame W S d e) : Frame W S d (endXfer q s e) := by
  unfold endXfer
  cases smLook (e.quire q).slots s with
  | none => exact h
  | some x =>
    have hended := frame_onQuire q (fun y => { y with slots := smErase y.slots s }) R.quires R.quire h
    have hlost := frame_foldN x.lost.length (fun d _ => eventBad q d) (fun _ _ _ hd => frame_xfer_bad R hd) hended
    exact frame_foldl x.got (fun d r => deliverRec q x.pos r.2 d) (fun _ r _ hd => frame_deliverRec R x.pos r.2 hd) hlost

theorem frame_swapEnds (tab : Nat) (h : Frame W S d e) : Frame W S d (swapEnds q tab e) :=
  frame_foldl _ _ (fun _ s _ hd => frame_endXfer R s.1 hd) h

end xfer

end Sys2Proof.Machine
end

section
/-! PROOFS. The build of a frame: what the arbiter, the entries and the collection point reach, and the positions of the entries. -/

namespace Sys2Proof.Machine

variable {W : Nat → Prop} {S : Part → Prop} {d e : Dev} {q p f : Nat}

section broad
variable (U : BroadRoom W S)
include U

/-! ## The arbiter -/

theorem frame_openXfer (s p : Nat) (urg reg : Bool) (n : Nat) (h : Frame W S d e) : Frame W S d (openXfer q s p urg reg n e) :=
  frame_bump (QU_ARBCNT_GRANTS q) 1 ((U.quire q).regs _ (by decide)) (frame_wide_onQuire U q _ h)

theorem frame_grantUrgent (u : Nat) (h : Frame W S d e) : Frame W S d (grantUrgent q e u) := by
  unfold grantUrgent
  split
  · exact frame_openXfer U _ u true false 1 h
  · split
    · exact frame_openXfer U _ u true false 1 (frame_bump (QU_EVCNT_PREEMPT q) 1 ((U.quire q).regs _ (by decide))
        (frame_endXfer (U.xfer q) _ h))
    · exact frame_wide_onQuire U q _ h

/-- The candidates take the free slots in order; the others lose. -/
def arbStep (q : Nat) (words : BitVec 256) (acc : List Nat × Dev) (p : Nat) : List Nat × Dev :=
  match freeSlot q acc.2 with
  | some s =>
    let reg := reqCode words p == 3
    let d := openXfer q s p false reg (if reg then 1 else burstOf q p acc.2) acc.2
    (acc.1, d.onQuire q fun x => { x with ptr := (p + 1) % 128 })
  | none =>
    (acc.1 ++ [p], acc.2.onQuire q fun x => { x with
      lossCnt := smSet (fun _ => 0) x.lossCnt p (min 11 (smGet (fun _ => 0) x.lossCnt p + 1)) })

theorem frame_arbStep (words : BitVec 256) (acc : List Nat × Dev) (p : Nat) (h : Frame W S d acc.2) :
    Frame W S d (arbStep q words acc p).2 := by
  unfold arbStep
  cases freeSlot q acc.2 with dsimp only
  | some s => exact frame_wide_onQuire U q _ (frame_openXfer U s p false _ _ h)
  | none => exact frame_wide_onQuire U q _ h

theorem frame_arbitrate (words : BitVec 256) (h : Frame W S d e) : Frame W S d (arbitrate q words e).2 := by
  unfold arbitrate
  extract_lets ptr waits order bad warned live urg cleared granted m held cand r counted
  have hwarned : Frame W S d warned := frame_ite (frame_service (QU_EVT_NPOSERR q) U.events ((U.quire q).regs _ (by decide)) h) h
  have hcleared : Frame W S d cleared := frame_wide_onQuire U q _ hwarned
  have hgranted : Frame W S d granted := frame_foldl _ _ (fun _ u _ hd => frame_grantUrgent U u hd) hcleared
  have hr : Frame W S d r.2 := List.foldlRecOn (motive := fun a : List Nat × Dev => Frame W S d a.2) cand (arbStep q words) hgranted
    fun acc hacc p _ => frame_arbStep U words acc p hacc
  exact frame_bump (QU_ARBCNT_LOSSES q) _ ((U.quire q).regs _ (by decide)) hr

/-! ## Entries -/

theorem frame_noteClaim (n row : Nat) (h : Frame W S d e) : Frame W S d (noteClaim n row e) := by
  have C := U.cell n
  have hwin := frame_put (CE_CLAIM_WINNER n) row (C.regs _ (by decide)) h
  exact frame_ite (frame_telCount n 54 1 C.telem (frame_bump (CE_CLAIM_OVRCNT n) 1 (C.regs _ (by decide)) hwin)) hwin

theorem frame_tickOf (n : Nat) (t c : Int) (dph : Nat) (h : Frame W S d e) : Frame W S d (tickOf q n t c dph e).2 :=
  frame_ite h (frame_notice (QU_EVT_CLAMP q) U.events ((U.quire q).regs _ (by decide))
    (frame_bump (QU_CNT_CLAMPCNT q) 1 ((U.quire q).regs _ (by decide)) h))

theorem frame_injDone (hi : W FC_INJ) (hj : S .inj) (h : Frame W S d e) : Frame W S d (injDone e) :=
  frame_put FC_INJ_GO 0 hi (frame_setInj _ U.events.fc hj rfl h)

theorem frame_buildEntry (hi : W FC_INJ) (hj : S .inj) (h : Frame W S d e) : Frame W S d (buildEntry q p f e).2 := by
  unfold buildEntry
  extract_lets n k noted c dph s0 ta tb after stb ab w hit flipped done seg
  have hnoted : Frame W S d noted := frame_noteClaim U n k.row h
  have hta : Frame W S d ta.2 := by
    show Frame W S d (if k.fix then tickOf q n k.ta c dph noted else (k.ta / 16, noted)).2
    split
    · exact frame_tickOf U n _ c dph hnoted
    · exact hnoted
  have htb : Frame W S d tb.2 := by
    show Frame W S d (match k.tb with
      | some (t, _) => if k.fix then tickOf q n t c dph ta.2 else (t / 16, ta.2)
      | none => (k.arg, ta.2)).2
    split
    · split
      · exact frame_tickOf U n _ c dph hta
      · exact hta
    · exact hta
  exact frame_ite (frame_injDone U hi hj htb) htb

/-- The entries of the first `n` positions. -/
def buildAll (q f n : Nat) (d : Dev) : List (Nat × BitVec 64 × Nat × Seg) × Dev :=
  foldN n (fun (acc : List (Nat × BitVec 64 × Nat × Seg) × Dev) p =>
    let x := buildEntry q p f acc.2
    (acc.1 ++ [x.1], x.2)) ([], d)

theorem frame_buildAll (hi : W FC_INJ) (hj : S .inj) (n : Nat) (h : Frame W S d e) : Frame W S d (buildAll q f n e).2 :=
  List.foldlRecOn (motive := fun a : List (Nat × BitVec 64 × Nat × Seg) × Dev => Frame W S d a.2) (List.range n) _ h
    fun _ hacc _ _ => frame_buildEntry U hi hj hacc

end broad

/-- One entry for each position, in order. -/
theorem buildAll_positions (q f n : Nat) (d : Dev) : (buildAll q f n d).1.map (fun e => e.1) = List.range n := by
  unfold buildAll foldN
  induction n with
  | zero => rfl
  | succ n ih =>
    rw [List.range_succ, List.foldl_append]
    dsimp only [List.foldl_cons, List.foldl_nil]
    rw [List.map_append, ih]
    rfl

/-! ## The collection point -/

theorem frame_arbLate (U : WideRoom W S) (f : Nat) (h : Frame W S d e) : Frame W S d (arbLate f e) :=
  frame_ite h (frame_notice GL_TWEVT_ARBLATE U.events (U.twin _ (by decide)) (frame_bump GL_TWCNT_ARBLCNT 1 (U.twin _ (by decide))
    (frame_setTw _ U.tw h)))

theorem frame_answersAt (U : WideRoom W S) (words : BitVec 256) (h : Frame W S d e) : Frame W S d (answersAt q f words e).2 := by
  have hlate := frame_arbLate U f h
  unfold answersAt
  split
  · exact frame_arbitrate U.toBroadRoom words h
  · split
    · exact h
    · dsimp only
      split
      · exact hlate
      · split
        · exact hlate
        · split
          · exact h
          · exact h

/-- A quire of which a frame is due, with time and a grid. -/
structure FrameDue (q : Nat) (d : Dev) : Prop where
  live : d.live = true
  runs : d.timeRuns = true
  grid : d.tm.grid = true
  assigned : (d.quireRegion q).isSome = true
  gap : gapNext d = false

theorem FrameDue.assigned_ne (h : FrameDue q d) : d.quireRegion q ≠ none := fun k => by
  have hq := h.assigned
  rw [k] at hq
  exact absurd hq (by decide)

/-- The positions stand while time goes on and a slot table is tried. -/
theorem npos_collect (q t tab : Nat) (d : Dev) : (withTable q tab (d.until_ t)).get (QU_CFG_NPOS q) = d.get (QU_CFG_NPOS q) :=
  get_congr _ _ _ ((word_setWord_ne _ _ _ _ (off_ne _ (by decide))).trans (until_word d t (QU_CFG q) (unit_still (unit_ge rfl))))

theorem frame_collect (U : WideRoom W S) (ht : S .tm) (hi : W FC_INJ) (hj : S .inj) (h : Frame W S d e) : Frame W S d (collect q e) := by
  unfold collect
  extract_lets f timed swap old tab tried r restored words void ended a undo phase
  have hslot : W (QU_SLOTA q) := (U.quire q).regs _ (by decide)
  have htimed : Frame W S d timed := frame_until _ U.time ht h
  have htried : Frame W S d tried := frame_setWord _ _ hslot htimed
  have hr : Frame W S d r.2 := frame_buildAll U.toBroadRoom hi hj _ htried
  have hrestored : Frame W S d restored := frame_setWord _ _ hslot hr
  have hended : Frame W S d ended := frame_ite (frame_swapEnds (U.xfer q) tab hrestored) hrestored
  have ha : Frame W S d a.2 := frame_answersAt U words hended
  exact frame_ite h (frame_wide_onQuire U.toBroadRoom q _ ha)

theorem collect_builds (h : FrameDue q d) (hj : (d.quire q).lastJ ≠ d.tm.jAbs + 1) :
    ((collect q d).quire q).lastJ = d.tm.jAbs + 1 ∧ ∃ b, ((collect q d).quire q).built = some b ∧ b.j = d.tm.jAbs + 1 ∧
      b.standing = false ∧ b.entries.map (fun e => e.1) = List.range (d.get (QU_CFG_NPOS q)) := by
  have hgo : ¬ (¬ d.live = true ∨ ¬ d.timeRuns = true ∨ ¬ d.tm.grid = true ∨ d.quireRegion q = none ∨
      (d.quire q).lastJ = d.tm.jAbs + 1 ∨ gapNext d = true) := by
    rintro (k | k | k | k | k | k)
    exacts [k h.live, k h.runs, k h.grid, h.assigned_ne k, hj k, Bool.false_ne_true (h.gap.symm.trans k)]
  unfold collect
  extract_lets f timed swap old tab tried r restored words void ended a undo phase
  rw [if_neg hgo, quire_onQuire_same]
  have hpos : r.1.map (fun e => e.1) = List.range (tried.get (QU_CFG_NPOS q)) := buildAll_positions q f _ tried
  rw [npos_collect] at hpos
  exact ⟨rfl, _, rfl, rfl, rfl, hpos⟩

/-! ## The standing frame -/

/-- The frame that has been built for period `f`. -/
def mineOf (q f : Nat) (d : Dev) : Option Built := match (d.quire q).built with
  | some x => if x.j = f then some x else none
  | none => none

/-- The FRAME deadline of period `f` needs no standing frame. -/
def standsIn (q f : Nat) (d : Dev) : Bool := match mineOf q f d with
  | some x => x.standing
  | none => decide ((d.quire q).lastJ = f)

/-- The entries of a standing frame. -/
def standEntries (q f : Nat) (d : Dev) : List (Nat × BitVec 64 × Nat × Seg) :=
  (List.range (d.get (QU_CFG_NPOS q))).map fun p =>
    let c := d.cell (128 * q + p)
    (p, BitVec.ofNat 64 (standWord c.entry.toNat c.endSt f), c.endSt, { segConst c.endSt with cor := delivery q p d })

/-- The arbiter's decision for the frame that does not come is undone. -/
def missUndo (q : Nat) (mine : Option Built) (d : Dev) : Dev := match mine.bind Built.undo with
  | some u => arbUndo q u d
  | none => d

/-- The standing frame of period `f`. -/
def standBuilt (q f : Nat) (mine : Option Built) (d e : Dev) : Built :=
  ⟨f, (0, 0), standEntries q f d, none, (match mine with
    | some x => x.tab
    | none => (d.word (QU_SLOTA q)).toNat), (match mine with
    | some x => x.swap
    | none => false), !e.controls, true⟩

/-- A quire whose next frame is built. -/
def builtNow (b : Built) (x : QuireSt) : QuireSt := { x with built := some b, lastJ := b.j }

/-- It takes the place of the frame. -/
def standTake (q f : Nat) (mine : Option Built) (d : Dev) : Dev :=
  let u := missUndo q mine d
  let x := u.onQuire q (builtNow (standBuilt q f mine d u))
  (x.bump (QU_CNT_FRMISSCNT q)).raise (QU_EVT_FRMISS q) .service

theorem frameMiss_eq (q : Nat) (d : Dev) : frameMiss q d =
    if ¬ d.live ∨ ¬ d.timeRuns ∨ ¬ d.tm.grid ∨ d.quireRegion q = none ∨ gapNext d then d
    else
      let t := d.until_ (d.nextB - d.get (QU_FRMCFG_ADV q))
      if standsIn q (d.tm.jAbs + 1) t then t else standTake q (d.tm.jAbs + 1) (mineOf q (d.tm.jAbs + 1) t) t := by
  unfold frameMiss standsIn standTake missUndo
  rfl

theorem frame_standTake (R : QuireRoom q W S) (mine : Option Built) (h : Frame W S d e) : Frame W S d (standTake q f mine e) := by
  have hundo : Frame W S d (missUndo q mine e) := by
    unfold missUndo
    split
    · exact frame_put (QU_EVCNT_PREEMPT q) _ (R.regs _ (by decide)) (frame_put (QU_ARBCNT_LOSSES q) _ (R.regs _ (by decide))
        (frame_put (QU_ARBCNT_GRANTS q) _ (R.regs _ (by decide)) (frame_onQuire q _ R.quires R.quire h)))
    · exact h
  exact frame_service (QU_EVT_FRMISS q) R.toEvents (R.regs _ (by decide)) (frame_bump (QU_CNT_FRMISSCNT q) 1 (R.regs _ (by decide))
    (frame_onQuire q _ R.quires R.quire hundo))

theorem frame_frameMiss (U : BroadRoom W S) (ht : S .tm) (h : Frame W S d e) : Frame W S d (frameMiss q e) := by
  have htimed : Frame W S d (e.until_ (e.nextB - e.get (QU_FRMCFG_ADV q))) :=
    frame_until _ U.time ht h
  rw [frameMiss_eq]
  exact frame_ite h (frame_ite htimed (frame_standTake (U.quire q) _ htimed))

theorem standEntries_positions (q f : Nat) (d : Dev) :
    (standEntries q f d).map (fun e => e.1) = List.range (d.get (QU_CFG_NPOS q)) := by
  rw [standEntries, List.map_map]
  exact List.map_id _

theorem standTake_shows (q f : Nat) (mine : Option Built) (d : Dev) :
    ((standTake q f mine d).quire q).lastJ = f ∧ (standTake q f mine d).flag (QU_EVT_FRMISS q) = true ∧
      ∃ b, ((standTake q f mine d).quire q).built = some b ∧ b.j = f ∧ b.standing = true ∧
        b.entries.map (fun e => e.1) = List.range (d.get (QU_CFG_NPOS q)) := by
  unfold standTake
  extract_lets u x
  have hq : (((x.bump (QU_CNT_FRMISSCNT q)).raise (QU_EVT_FRMISS q) .service).quire q) =
      builtNow (standBuilt q f mine d u) (u.quire q) :=
    (raise_quire _ _ _ _).trans (quire_onQuire_same u q _)
  rw [hq]
  exact ⟨rfl, uflag_raise _ (QU_EVT_FRMISS q) .service (unit_ge rfl) rfl rfl, _, rfl, rfl, rfl, standEntries_positions q f d⟩

theorem frameMiss_stands (h : FrameDue q d)
    (hb : ((d.quire q).built = none ∧ (d.quire q).lastJ ≠ d.tm.jAbs + 1) ∨
      ∃ b, (d.quire q).built = some b ∧ b.j = d.tm.jAbs + 1 ∧ b.standing = false) :
    ((frameMiss q d).quire q).lastJ = d.tm.jAbs + 1 ∧ (frameMiss q d).flag (QU_EVT_FRMISS q) = true ∧
      ∃ b, ((frameMiss q d).quire q).built = some b ∧ b.j = d.tm.jAbs + 1 ∧ b.standing = true ∧
        b.entries.map (fun e => e.1) = List.range (d.get (QU_CFG_NPOS q)) := by
  have hgo : ¬ (¬ d.live = true ∨ ¬ d.timeRuns = true ∨ ¬ d.tm.grid = true ∨ d.quireRegion q = none ∨ gapNext d = true) := by
    rintro (k | k | k | k | k)
    exacts [k h.live, k h.runs, k h.grid, h.assigned_ne k, Bool.false_ne_true (h.gap.symm.trans k)]
  have hmiss (t : Nat) : ¬ standsIn q (d.tm.jAbs + 1) (d.until_ t) = true := by
    have hq : (d.until_ t).quire q = d.quire q := rfl
    unfold standsIn mineOf
    rw [hq]
    rcases hb with ⟨hnone, hj⟩ | ⟨b, hsome, hj, hst⟩
    · rw [hnone]
      simpa using hj
    · rw [hsome]
      simp [hj, hst]
  have hpos (t : Nat) : (d.until_ t).get (QU_CFG_NPOS q) = d.get (QU_CFG_NPOS q) :=
    get_congr _ _ _ (until_word d t (QU_CFG q) (unit_still (unit_ge rfl)))
  rw [frameMiss_eq, if_neg hgo]
  dsimp only
  rw [if_neg (hmiss _), ← hpos (d.nextB - d.get (QU_FRMCFG_ADV q))]
  exact standTake_shows _ _ _ _

end Sys2Proof.Machine
end

section
/-! PROOFS. The release of a frame, and with the build of it the obligation about frames (O21). -/

namespace Sys2Proof.Machine

variable {W : Nat → Prop} {S : Part → Prop} {d e : Dev} {q p : Nat}

/-! ## Entries that stand from the release on -/

/-- The entry of a frame stands in the cell that it names. -/
def entryTaken (e : Nat × BitVec 64 × Nat × Seg) (c : CellSt) : CellSt := { c with entry := e.2.1, endSt := e.2.2.1, nxt := some e.2.2.2 }

def entryStands (q : Nat) (d : Dev) (e : Nat × BitVec 64 × Nat × Seg) : Dev := d.onCell (128 * q + e.1) (entryTaken e)

/-- A quire whose frame has left. -/
def frameLeft (q : Nat) (b : Built) (gr : List (Option Nat)) (d : Dev) (x : QuireSt) : QuireSt :=
  let evgs := (⟨b.j % 256, (d.word (QU_SLOTA q)).toNat, gr, (List.range 2).map fun x => wayBack q x d⟩ :: x.evgs).take 8
  let here := fun (fs : Nat) => evgs.any fun e => e.fs == fs
  { x with
    built := none, arb := none, sentOne := true, evgs := evgs
    evSeen := x.evSeen.filter fun e => here e.1 && e.1 != b.j % 256
    evOpen := x.evOpen.filter fun e => here e.1 && e.1 != b.j % 256
    slots := x.slots.map fun e => (e.1, if gr.getD e.1 none = some e.2.pos then { e.2 with out := e.2.out ++ [b.j % 256] } else e.2) }

theorem releaseEntries_eq (q : Nat) (b : Built) (gr : List (Option Nat)) (d : Dev) : releaseEntries q b gr d =
    (b.entries.foldl (entryStands q) d).onQuire q (frameLeft q b gr (b.entries.foldl (entryStands q) d)) := rfl

theorem entryStands_other (e : Nat × BitVec 64 × Nat × Seg) (h : e.1 ≠ p) : (entryStands q d e).cell (128 * q + p) = d.cell (128 * q + p) :=
  cell_onCell_ne _ _ _ _ (by omega)

/-- No entry for a position. -/
theorem entriesStand_none (es : List (Nat × BitVec 64 × Nat × Seg)) (d : Dev) (h : es.filter (fun x => x.1 == p) = []) :
    (es.foldl (entryStands q) d).cell (128 * q + p) = d.cell (128 * q + p) := by
  induction es generalizing d with
  | nil => rfl
  | cons e es ih =>
    by_cases he : e.1 = p
    · rw [List.filter_cons, if_pos (beq_iff_eq.mpr he)] at h
      exact nomatch h
    · rw [List.filter_cons, if_neg (fun k => he (beq_iff_eq.mp k))] at h
      rw [List.foldl_cons, ih _ h, entryStands_other e he]

/-- The one entry of a position stands there. -/
theorem entriesStand_one (es : List (Nat × BitVec 64 × Nat × Seg)) (d : Dev) {x : BitVec 64 × Nat × Seg}
    (h : es.filter (fun x => x.1 == p) = [(p, x)]) :
    (es.foldl (entryStands q) d).cell (128 * q + p) = entryTaken (p, x) (d.cell (128 * q + p)) := by
  induction es generalizing d with
  | nil => exact nomatch h
  | cons e es ih =>
    rw [List.foldl_cons]
    by_cases he : e.1 = p
    · rw [List.filter_cons, if_pos (beq_iff_eq.mpr he)] at h
      obtain ⟨rfl, hes⟩ := List.cons.inj h
      rw [entriesStand_none es _ hes]
      exact cell_onCell_same d (128 * q + p) _
    · rw [List.filter_cons, if_neg (fun k => he (beq_iff_eq.mp k))] at h
      rw [ih _ h, entryStands_other e he]

/-! ## What a release reaches -/

/-- Room for a release beside the slot tables: what the end of a transfer needs, the status and the delivery of the quire, the phase of
a block, and what its lanes send. -/
structure ReleaseRoom (q : Nat) (W : Nat → Prop) (S : Part → Prop) : Prop extends XferRoom q W S where
  stat : W (QU_STAT q)
  delivery : W (QU_DLV q)
  phase : ∀ g, g < 8 → W (RG_BLKSTAT g)
  line : ∀ l, l < 130 → LaneRoom l W S

theorem BroadRoom.release (U : BroadRoom W S) (q : Nat) : ReleaseRoom q W S where
  toXferRoom := U.xfer q
  stat := (U.quire q).regs _ (by decide)
  delivery := (U.quire q).regs _ (by decide)
  phase g _ := (U.region g).regs _ (by decide)
  line l _ := U.lane l

/-- Every register but the slot tables of a quire. -/
def besideSlots (q a : Nat) : Prop := a ≠ QU_SLOTA q ∧ a ≠ QU_SLOTI q ∧ a ≠ QU_SLOTCTL q

theorem besideSlots_of {a : Nat} (h : a < 0x20000 ∨ 0x30000 ≤ a) (hq : q < 64) : besideSlots q a := by
  unfold besideSlots QU_SLOTA QU_SLOTI QU_SLOTCTL
  omega

theorem besideSlots_unit {a : Nat} (h : ¬ besideSlots q a) : 0x7000 ≤ a := by
  unfold besideSlots QU_SLOTA QU_SLOTI QU_SLOTCTL at h
  omega

/-- A release changes no slot table once a swap is over. -/
theorem releaseBeside (hq : q < 64) (hS : ∀ p, S p) : ReleaseRoom q (besideSlots q) S where
  evt := besideSlots_of (.inl (by decide)) hq
  cnt := besideSlots_of (.inl (by decide)) hq
  fc := hS _
  dr := hS _
  count := ⟨off_ne _ (by decide), off_ne _ (by decide), off_ne _ (by decide)⟩
  bad := ⟨off_ne _ (by decide), off_ne _ (by decide), off_ne _ (by decide)⟩
  quires := hS _
  quire := hS _
  cell n :=
    { evt := besideSlots_of (.inl (by decide)) hq
      cnt := besideSlots_of (.inl (by decide)) hq
      fc := hS _
      dr := hS _
      regs := fun k _ => besideSlots_of (.inr (by omega)) hq
      cells := hS _
      cell := hS _
      telem := hS _ }
  regions := hS _
  region _ := hS _
  lanes := hS _
  lane _ := hS _
  sent := hS _
  stat := ⟨off_ne _ (by decide), off_ne _ (by decide), off_ne _ (by decide)⟩
  delivery := ⟨off_ne _ (by decide), off_ne _ (by decide), off_ne _ (by decide)⟩
  phase g hg := besideSlots_of (.inr (by unfold RG_BLKSTAT; omega)) hq
  line l hl :=
    { evt := besideSlots_of (.inl (by decide)) hq
      cnt := besideSlots_of (.inl (by decide)) hq
      fc := hS _
      dr := hS _
      regs := fun k _ => besideSlots_of (.inl (by omega)) hq
      lanes := hS _
      lane := hS _
      sent := hS _ }

/-- A quire names a region by three bits. -/
theorem quireRegion_lt {g : Nat} (h : d.quireRegion q = some g) : g < 8 := by
  unfold Dev.quireRegion at h
  split at h
  · exact Option.some.inj h ▸ Nat.mod_lt _ (Nat.two_pow_pos _)
  · exact nomatch h

section release
variable (R : ReleaseRoom q W S)
include R

theorem frame_phaseSent (b : Built) (h : Frame W S d e) : Frame W S d (phaseSent q b e) := by
  have hq := frame_onQuire q (fun x => { x with phase := phaseAfter x.phase b.phase }) R.quires R.quire h
  unfold phaseSent
  refine frame_ite h ?_
  dsimp only
  split
  · exact hq
  · rename_i g hg
    exact frame_ite hq (frame_put (RG_BLKSTAT_PHASE g) _ (R.phase g (quireRegion_lt hg)) hq)

theorem frame_release_refs (h : Frame W S d e) : Frame W S d (refsUpdate q e) := by
  unfold refsUpdate
  exact frame_onQuire q _ R.quires R.quire (frame_putB (QU_STAT_PRIM q) _ R.stat
    (frame_ite (frame_notice (QU_EVT_ENDSW q) R.toEvents R.bad h) h))

theorem frame_releaseEntries (b : Built) (gr : List (Option Nat)) (h : Frame W S d e) : Frame W S d (releaseEntries q b gr e) :=
  frame_onQuire q (frameLeft q b gr (b.entries.foldl (entryStands q) e)) R.quires R.quire
    (frame_foldl b.entries (entryStands q) (fun _ x _ hd => frame_onCell (128 * q + x.1) _ (R.cell 0).cells (R.cell _).cell hd) h)

end release

/-! ## What leaves on a lane -/

theorem frame_fillSend (hs : S .sent) (l n : Nat) (h : Frame W S d e) : Frame W S d (fillSend l n e) := by
  have h1 := frame_send (.run l [ctl (idleWord l (e.get (LN_STAT_STEP l)))] (some (min 16 n))) hs h
  exact frame_ite (frame_ite h1 (frame_send _ hs h1)) (frame_send _ hs (frame_ite h1 (frame_send _ hs h1)))

section lines
variable (L : ∀ l, l < 130 → LaneRoom l W S)
include L

theorem frame_nextRofs (l : Nat) (hl : l < 130) (h : Frame W S d e) : Frame W S d (nextRofs l e).2 := by
  unfold nextRofs
  extract_lets q' m i npos p want prev v
  split
  · exact h
  · dsimp only
    exact frame_onLane l _ (L l hl).lanes (L l hl).lane h

theorem frame_frameSend (l f dep : Nat) (blocks : List Block) (hl : l < 130) (h : Frame W S d e) :
    Frame W S d (frameSend l f dep blocks e) := by
  have R := L l hl
  unfold frameSend
  refine frame_onLane l _ R.lanes R.lane (frame_send _ R.sent ?_)
  split
  · exact frame_fillSend R.sent l _ h
  · exact h

theorem frame_frameOut (b : Built) (a : List (Option Nat) × List Nat) {x : Nat} (dep : Nat) (hl : 2 * q + x < 130)
    (h : Frame W S d e) : Frame W S d (frameOut q b a x dep e) := by
  have R := L (2 * q + x) hl
  unfold frameOut
  extract_lets l adv gap r w
  have hgap : Frame W S d gap := frame_onLane l _ R.lanes R.lane h
  exact frame_ite hgap (frame_frameSend L l b.j _ w.1 hl (frame_prbsFill L l hl _ (frame_nextRofs L l hl hgap)))

end lines

/-! ## The swap of the slot tables -/

theorem frame_swapTables (R : QuireRoom q W S) (X : XferRoom q W S) (b : Built) (h : Frame W S d e) :
    Frame W S d (swapTables q b e) := by
  unfold swapTables
  extract_lets tab ended old tried counted
  have hended : Frame W S d ended := frame_ite (frame_swapEnds X tab h) h
  have htried : Frame W S d tried := frame_setWord _ _ (R.regs 0xc (by decide)) hended
  have hcounted : Frame W S d counted := frame_bump (QU_SLOTCTL_SWAPCNT q) 1 (R.regs _ (by decide))
    (frame_put (QU_SLOTCTL_BANK q) _ (R.regs _ (by decide)) htried)
  exact frame_ite h (frame_onQuire q _ R.quires R.quire (frame_put (QU_SLOTCTL_PEND q) 0 (R.regs _ (by decide))
    (frame_setWord _ _ (R.regs 0x10 (by decide)) hcounted)))

theorem swapTables_swaps {b : Built} (hq : q < 64) (h : b.swap = true) :
    (swapTables q b d).word (QU_SLOTA q) = d.word (QU_SLOTI q) ∧ (swapTables q b d).word (QU_SLOTI q) = d.word (QU_SLOTA q) ∧
      (swapTables q b d).flag (QU_SLOTCTL_PEND q) = false := by
  have hai : QU_SLOTA q ≠ QU_SLOTI q := off_ne _ (by decide)
  have hca : QU_SLOTCTL q ≠ QU_SLOTA q := off_ne _ (by decide)
  have hci : QU_SLOTCTL q ≠ QU_SLOTI q := off_ne _ (by decide)
  unfold swapTables
  extract_lets tab ended old tried counted
  have hended : Frame (besideSlots q) (fun _ => True) d ended :=
    frame_ite (frame_swapEnds (releaseBeside hq fun _ => trivial).toXferRoom tab (frame_refl d)) (frame_refl d)
  have hold : old = d.word (QU_SLOTA q) := hended.words (QU_SLOTA q) (fun k => k.1 rfl)
  have htried : tried.word (QU_SLOTA q) = d.word (QU_SLOTI q) :=
    (word_setWord_same _ _ _).trans ((BitVec.ofNat_toNat 32 _).trans (BitVec.setWidth_eq _))
  have hcounted : counted.word (QU_SLOTA q) = d.word (QU_SLOTI q) :=
    (word_put_ne _ (QU_SLOTCTL_SWAPCNT q) _ _ hca).trans ((word_put_ne _ (QU_SLOTCTL_BANK q) _ _ hca).trans htried)
  rw [if_neg (not_not.mpr h), word_onQuire, word_onQuire, word_put_ne _ (QU_SLOTCTL_PEND q) _ _ hca,
    word_put_ne _ (QU_SLOTCTL_PEND q) _ _ hci, word_setWord_same, word_setWord_ne _ _ _ _ hai.symm]
  exact ⟨hcounted, hold, (flag_congr (get_onQuire _ _ _ _)).trans (uflag_put_zero _ (QU_SLOTCTL_PEND q) rfl)⟩

/-! ## The release -/

/-- The frame has left on both lanes. -/
def released (q depA depB : Nat) (b : Built) (d : Dev) : Dev :=
  let d := releaseTables q b d
  let a := releaseAnswers q b d
  frameOut q b a 1 depB (frameOut q b a 0 depA (releaseEntries q b a.1 d))

/-- The margin of the frame shows. -/
def marginShown (q : Nat) (m : Option Int × Bool) (d : Dev) : Dev :=
  match m.1 with
  | none => d.onQuire q fun x => { x with margNext := (0, false) }
  | some c =>
    let d := d.putS (QU_DLV_CMDMARG q) (satS 16 c)
    let d := d.onQuire q fun x => { x with margNext := (c, m.2 && decide ((d.get (QU_FRMCFG_GUARD q) : Int) ≤ c)) }
    if c < 0 ∧ d.mode = modeRUN then d.raise (QU_EVT_DLVLATE q) .service else d

theorem releaseFrame_due {b : Built} {depA depB : Nat} (hb : (d.quire q).built = some b) (hr : d.timeRuns = true)
    (hl : d.live = true) (hj : b.j = d.tm.jAbs + 1) : ∃ m, releaseFrame q depA depB d = marginShown q m (released q depA depB b d) := by
  unfold releaseFrame
  rw [hb]
  dsimp only
  rw [if_neg (not_not.mpr hr), if_neg (not_or.mpr ⟨not_not.mpr hl, not_not.mpr hj⟩)]
  exact ⟨_, rfl⟩

theorem releaseFrame_other {b : Built} {depA depB : Nat} (hb : (d.quire q).built = some b) (hr : d.timeRuns = true)
    (hj : b.j ≠ d.tm.jAbs + 1) : releaseFrame q depA depB d = d.onQuire q fun x => { x with built := none } := by
  unfold releaseFrame
  rw [hb]
  dsimp only
  rw [if_neg (not_not.mpr hr), if_pos (.inr hj)]

theorem frame_marginShown (he : Events W S) (hd : W (QU_DLV q)) (hb : W (QU_EVT q)) (hqs : S .quires) (hq : S (.quire q))
    (m : Option Int × Bool) (h : Frame W S d e) : Frame W S d (marginShown q m e) := by
  unfold marginShown
  split
  · exact frame_onQuire q _ hqs hq h
  · rename_i c _
    extract_lets put shown
    have hshown : Frame W S d shown := frame_onQuire q _ hqs hq (frame_putS (QU_DLV_CMDMARG q) _ hd h)
    exact frame_ite (frame_service (QU_EVT_DLVLATE q) he hb hshown) hshown

/-- The margin is no part of what has been sent. -/
theorem marginShown_quire (q : Nat) (m : Option Int × Bool) (d : Dev) :
    ∃ y, (marginShown q m d).quire q = { d.quire q with margNext := y } := by
  unfold marginShown
  split
  · exact ⟨_, quire_onQuire_same _ _ _⟩
  · rename_i c _
    extract_lets put shown
    have hshown : ∃ y, shown.quire q = { d.quire q with margNext := y } := ⟨_, quire_onQuire_same put q _⟩
    split
    · rw [raise_quire]
      exact hshown
    · exact hshown

/-- What leaves on the lanes of a quire. -/
theorem frame_outs (L : ∀ l, l < 130 → LaneRoom l W S) (hq : q < 64) (b : Built) (a : List (Option Nat) × List Nat) (depA depB : Nat)
    (h : Frame W S d e) : Frame W S d (frameOut q b a 1 depB (frameOut q b a 0 depA e)) :=
  frame_frameOut L b a depB (by omega) (frame_frameOut L b a depA (by omega) h)

theorem frame_releaseTables (U : BroadRoom W S) (ht : S .tm) (b : Built) (h : Frame W S d e) : Frame W S d (releaseTables q b e) := by
  have htimed : Frame W S d (e.until_ (e.nextB - e.get (QU_FRMCFG_ADV q))) :=
    frame_until _ U.time ht h
  exact frame_release_refs (U.release q) (frame_phaseSent (U.release q) b (frame_swapTables (U.quire q) (U.xfer q) b htimed))

theorem frame_released (U : BroadRoom W S) (ht : S .tm) (hq : q < 64) (depA depB : Nat) (b : Built) (h : Frame W S d e) :
    Frame W S d (released q depA depB b e) :=
  frame_outs (U.release q).line hq b _ depA depB (frame_releaseEntries (U.release q) b _ (frame_releaseTables U ht b h))

/-! ## What a release shows -/

/-- The lanes are no quire and no cell. -/
theorem lanesBeside (l : Nat) : LaneRoom l (fun _ => True) (fun p => (∀ k, p ≠ .quire k) ∧ ∀ k, p ≠ .cell k) where
  evt := trivial
  cnt := trivial
  fc := ⟨nofun, nofun⟩
  dr := ⟨nofun, nofun⟩
  regs _ _ := trivial
  lanes := ⟨nofun, nofun⟩
  lane := ⟨nofun, nofun⟩
  sent := ⟨nofun, nofun⟩

/-- The margin of a quire is no cell, and nothing that is sent. -/
theorem frame_marginShown_rest (q : Nat) (m : Option Int × Bool) (d : Dev) :
    Frame (fun a => a = NT_EVT ∨ a = NT_CNT1 ∨ a = QU_DLV q ∨ a = QU_EVT q) (fun p => p ≠ .sent ∧ ∀ k, p ≠ .cell k) d (marginShown q m d) :=
  frame_marginShown ⟨.inl rfl, .inr (.inl rfl), ⟨nofun, nofun⟩, ⟨nofun, nofun⟩⟩ (.inr (.inr (.inl rfl))) (.inr (.inr (.inr rfl)))
    ⟨nofun, nofun⟩ ⟨nofun, nofun⟩ m (frame_refl d)

theorem released_quire (hq : q < 64) (depA depB : Nat) (b : Built) (d : Dev) : ∃ x : Dev, (released q depA depB b d).quire q =
    frameLeft q b (releaseAnswers q b (releaseTables q b d)).1 x (x.quire q) := by
  have hf := frame_outs (fun l _ => lanesBeside l) hq b (releaseAnswers q b (releaseTables q b d)) depA depB
    (frame_refl (releaseEntries q b (releaseAnswers q b (releaseTables q b d)).1 (releaseTables q b d)))
  have hquire : (released q depA depB b d).quire q =
      (releaseEntries q b (releaseAnswers q b (releaseTables q b d)).1 (releaseTables q b d)).quire q :=
    hf.parts (.quire q) (fun k => k.1 q rfl)
  rw [hquire, releaseEntries_eq, quire_onQuire_same]
  exact ⟨_, rfl⟩

theorem released_cell (hq : q < 64) (depA depB : Nat) (b : Built) (d : Dev) {x : BitVec 64 × Nat × Seg}
    (h : b.entries.filter (fun x => x.1 == p) = [(p, x)]) :
    ∃ c, (released q depA depB b d).cell (128 * q + p) = entryTaken (p, x) c := by
  have hf := frame_outs (fun l _ => lanesBeside l) hq b (releaseAnswers q b (releaseTables q b d)) depA depB
    (frame_refl (releaseEntries q b (releaseAnswers q b (releaseTables q b d)).1 (releaseTables q b d)))
  have hcell : (released q depA depB b d).cell (128 * q + p) =
      (releaseEntries q b (releaseAnswers q b (releaseTables q b d)).1 (releaseTables q b d)).cell (128 * q + p) :=
    hf.parts (.cell (128 * q + p)) (fun k => k.2 _ rfl)
  have hentries (y : Dev) (g : QuireSt → QuireSt) : (y.onQuire q g).cell (128 * q + p) = y.cell (128 * q + p) := rfl
  rw [hcell, releaseEntries_eq, hentries, entriesStand_one b.entries _ h]
  exact ⟨_, rfl⟩

theorem released_swaps (hq : q < 64) (depA depB : Nat) {b : Built} (d : Dev) (h : b.swap = true) :
    (released q depA depB b d).word (QU_SLOTA q) = d.word (QU_SLOTI q) ∧
      (released q depA depB b d).word (QU_SLOTI q) = d.word (QU_SLOTA q) ∧
      (released q depA depB b d).flag (QU_SLOTCTL_PEND q) = false := by
  have R : ReleaseRoom q (besideSlots q) (fun _ => True) := releaseBeside hq fun _ => trivial
  obtain ⟨ha, hi, hpend⟩ := swapTables_swaps (d := d.until_ (d.nextB - d.get (QU_FRMCFG_ADV q))) hq h
  have hwa := until_word d (d.nextB - d.get (QU_FRMCFG_ADV q)) (QU_SLOTA q) (unit_still (unit_ge rfl))
  have hwi := until_word d (d.nextB - d.get (QU_FRMCFG_ADV q)) (QU_SLOTI q) (unit_still (unit_ge rfl))
  have hf : Frame (besideSlots q) (fun _ => True) (swapTables q b (d.until_ (d.nextB - d.get (QU_FRMCFG_ADV q))))
      (released q depA depB b d) :=
    frame_outs R.line hq b _ depA depB (frame_releaseEntries R b _ (frame_release_refs R (frame_phaseSent R b (frame_refl _))))
  rw [hf.words (QU_SLOTA q) (fun k => k.1 rfl), hf.words (QU_SLOTI q) (fun k => k.2.1 rfl),
    hf.flag (QU_SLOTCTL_PEND q) (fun k => k.2.2 rfl), ha, hi, hwa, hwi]
  exact ⟨rfl, rfl, hpend⟩

end Sys2Proof.Machine

open Sys2Proof Machine

/-- Settles O21, by what the collection point builds, the deadline replaces and the release sends. -/
theorem frameBuildAndRelease : Obligations.FrameBuildAndRelease := by
  unfold Obligations.FrameBuildAndRelease
  intro q s h hl hr
  have r := frame_refl (W := calmRegs) (S := calmParts) s.dev
  refine ⟨fun hg hq hgap => ⟨fun hj => ?_, fun hb => ?_⟩, fun depA depB b hwf hb => ?_⟩
  · refine answers_running rfl h (quiet_of_frame (frame_collect calmRoom trivial (by decide) trivial r)) ?_
    rw [tripOutRelease_quire]
    exact collect_builds ⟨hl, hr, hg, hq, hgap⟩ hj
  · refine answers_running rfl h (quiet_of_frame (frame_frameMiss calmBroad trivial r)) ?_
    rw [tripOutRelease_quire, settled_flag _ (QU_EVT_FRMISS q.val) (unit_ge rfl)]
    exact frameMiss_stands ⟨hl, hr, hg, hq, hgap⟩ hb
  · have hexec : exec (.frameRelease q depA depB) s = .next (running (releaseFrame q.val depA depB) s) := if_pos hwf
    by_cases hj : b.j = s.dev.tm.jAbs + 1
    · obtain ⟨m, heq⟩ := releaseFrame_due (depA := depA) (depB := depB) hb hr hl hj
      have hreleased := frame_released calmBroad trivial q.isLt depA depB b r
      have Q := calmBroad.quire q.val
      have hmargin := frame_marginShown_rest q.val m (released q.val depA depB b s.dev)
      obtain ⟨y, hy⟩ := marginShown_quire q.val m (released q.val depA depB b s.dev)
      obtain ⟨x, hx⟩ := released_quire q.isLt depA depB b s.dev
      have hsent : (marginShown q.val m (released q.val depA depB b s.dev)).sent = (released q.val depA depB b s.dev).sent :=
        hmargin.parts .sent (fun k => k.1 rfl)
      have hcell (n : Nat) : (marginShown q.val m (released q.val depA depB b s.dev)).cell n =
          (released q.val depA depB b s.dev).cell n := hmargin.parts (.cell n) (fun k => k.2 n rfl)
      refine answers_running hexec h ?_ ?_
      · rw [heq]
        exact quiet_of_frame (frame_marginShown Q.toEvents (Q.regs _ (by decide)) (Q.regs _ (by decide)) Q.quires Q.quire m hreleased)
      · rw [if_pos hj, heq]
        simp only [tripOutRelease_quire, tripOutRelease_sent, tripOutRelease_cell, hy, hx, hsent, hcell]
        refine ⟨rfl, rfl, rfl, fun p e he => ?_, rfl, fun hswap => ?_⟩
        · obtain ⟨c, hc⟩ := released_cell q.isLt depA depB b s.dev he
          rw [hc]
          exact ⟨rfl, rfl, rfl⟩
        · obtain ⟨ha, hi, hpend⟩ := released_swaps q.isLt depA depB s.dev hswap
          have hkept {a : Nat} (hne : ¬ besideSlots q.val a) (hd : a ≠ QU_DLV q.val) (he : a ≠ QU_EVT q.val) :
              (tripOutRelease (marginShown q.val m (released q.val depA depB b s.dev))).word a =
                (released q.val depA depB b s.dev).word a := by
            have hunit : 0x7000 ≤ a := besideSlots_unit hne
            refine (tripOutRelease_word _ a (unit_ne hunit rfl)).trans (hmargin.words a ?_)
            rintro (k | k | k | k)
            exacts [absurd k (unit_ne hunit rfl), absurd k (unit_ne hunit rfl), hd k, he k]
          have hflag := hkept (a := QU_SLOTCTL q.val) (fun k => k.2.2 rfl) (off_ne _ (by decide)) (off_ne _ (by decide))
          exact ⟨(hkept (fun k => k.1 rfl) (off_ne _ (by decide)) (off_ne _ (by decide))).trans ha,
            (hkept (fun k => k.2.1 rfl) (off_ne _ (by decide)) (off_ne _ (by decide))).trans hi,
            (flag_congr (get_congr _ _ (QU_SLOTCTL_PEND q.val) hflag)).trans hpend⟩
    · have heq := releaseFrame_other (depA := depA) (depB := depB) hb hr hj
      have Q := calmBroad.quire q.val
      refine answers_running hexec h ?_ ?_
      · rw [heq]
        exact quiet_of_frame (frame_onQuire _ _ Q.quires Q.quire r)
      · rw [if_neg hj, heq, tripOutRelease_quire, quire_onQuire_same]
        exact ⟨rfl, tripOutRelease_sent _, fun n => tripOutRelease_cell _ n⟩

end

section
/-! PROOFS. Protective overrides and trip inputs (O41). -/

namespace Sys2Proof.Machine

variable {W : Nat → Prop} {S : Part → Prop} {d e : Dev} {g x : Nat}

/-! ## A scope that is blocked -/

/-- Leaving RUN changes no status but that of the region. -/
theorem leaveRun_other {k : Nat} (hk : k ≠ g) (keep : Bool) (d : Dev) :
    (leaveRun k keep d).get (RG_STAT_STATE g) = d.get (RG_STAT_STATE g) := by
  have hstat : RG_STAT k ≠ RG_STAT g := by unfold RG_STAT; omega
  have hmod : RG_STAT g ≠ RG_MODSTAT k := by unfold RG_STAT RG_MODSTAT; omega
  have hhold : RG_STAT g ≠ RG_MODHOLD k := by unfold RG_STAT RG_MODHOLD; omega
  have hfb : RG_STAT g ≠ RG_FBSTAT k := by unfold RG_STAT RG_FBSTAT; omega
  unfold leaveRun
  split
  · rw [get_onRegion, onMull_get _ _ (RG_STAT_STATE g) hmod hhold hfb]
    unfold lawLeaveRun
    rw [get_put_ne _ _ (RG_STAT_STATE g) _ hstat, get_put_ne _ _ (RG_STAT_STATE g) _ hfb.symm, get_put_ne _ _ (RG_STAT_STATE g) _ hstat]
  · rfl

/-- The squash of a region shows in its own registers. -/
theorem noteSquash_stat (k g causes : Nat) (d : Dev) : (noteSquash k causes d).get (RG_STAT_STATE g) = d.get (RG_STAT_STATE g) := by
  have hmod : RG_MODSTAT k ≠ RG_STAT g := by unfold RG_STAT RG_MODSTAT; omega
  have hsq : RG_MODSQ k ≠ RG_STAT g := by unfold RG_STAT RG_MODSQ; omega
  unfold noteSquash
  rw [get_congr _ _ (RG_STAT_STATE g) (word_setWord_ne _ _ _ _ hsq), get_put_ne _ _ (RG_STAT_STATE g) _ hmod]
  exact get_put_ne _ _ (RG_STAT_STATE g) _ hsq

/-- The status of a region reads the same after another region has been blocked. -/
theorem blockRegion_other {k : Nat} (hg : g < 8) (hk : k ≠ g) (t0 stamp : Nat) (d : Dev) :
    (blockRegion k t0 stamp d).get (RG_STAT_STATE g) = d.get (RG_STAT_STATE g) := by
  have hlo : 0x7000 ≤ (RG_STAT_STATE g).addr := unit_ge rfl
  have hhi : (RG_STAT_STATE g).addr < 0x100000 := regionAddr_lt hg (by decide)
  have hstat : RG_STAT g ≠ RG_STAT k := by unfold RG_STAT; omega
  have hblk : RG_STAT g ≠ RG_BLKSTAT k := by unfold RG_STAT RG_BLKSTAT; omega
  unfold blockRegion
  extract_lets st r noted left cleared
  have hnoted : noted.get (RG_STAT_STATE g) = d.get (RG_STAT_STATE g) := by
    show (if _ then noteSquash k _ d else d).get (RG_STAT_STATE g) = _
    split
    · exact noteSquash_stat k g _ d
    · rfl
  have hleft : left.get (RG_STAT_STATE g) = d.get (RG_STAT_STATE g) := by
    show (Dev.setRegion _ k rgBLOCK).get (RG_STAT_STATE g) = _
    rw [setRegion_get _ k rgBLOCK (RG_STAT_STATE g) hstat, leaveRun_other hk, hnoted]
  split
  · exact diagsAbort_get d (RG_STAT_STATE g) hlo hhi
  split
  · rfl
  · rw [get_onRegion]
    show (phaseClear k (diagsAbort k left)).get (RG_STAT_STATE g) = _
    rw [phaseClear_get _ (RG_STAT_STATE g) hblk, diagsAbort_get _ (RG_STAT_STATE g) hlo hhi, hleft]

/-- A region that is in BLOCK stays there. -/
theorem blockRegion_blocked (hg : g < 8) (k t0 stamp : Nat) (h : d.rgState g = rgBLOCK) :
    (blockRegion k t0 stamp d).rgState g = rgBLOCK := by
  by_cases hk : k = g
  · subst hk
    have heq : blockRegion k t0 stamp d = diagsAbort k d := if_pos h
    rw [heq]
    exact (diagsAbort_get d (RG_STAT_STATE k) (unit_ge rfl) (regionAddr_lt hg (by decide))).trans h
  · exact (blockRegion_other hg hk t0 stamp d).trans h

theorem blockRegions_blocked (hg : g < 8) (l : List Nat) (t0 stamp : Nat) (d : Dev) (h : d.rgState g = rgBLOCK) :
    (l.foldl (fun d k => blockRegion k t0 stamp d) d).rgState g = rgBLOCK := by
  induction l generalizing d with
  | nil => exact h
  | cons k l ih => exact ih _ (blockRegion_blocked hg k t0 stamp h)

theorem blockRegions_state (hg : g < 8) (l : List Nat) (hl : g ∈ l) (t0 stamp : Nat) (d : Dev)
    (h : d.rgState g = rgCHARGE ∨ d.rgState g = rgREADY ∨ d.rgState g = rgRUN) :
    (l.foldl (fun d k => blockRegion k t0 stamp d) d).rgState g = rgBLOCK := by
  induction l generalizing d with
  | nil => exact absurd hl List.not_mem_nil
  | cons k l ih =>
    rw [List.foldl_cons]
    by_cases hk : k = g
    · subst hk
      exact blockRegions_blocked hg l t0 stamp _ (blockRegion_state hg t0 stamp d h)
    · refine ih (List.mem_of_ne_of_mem (Ne.symm hk) hl) _ ?_
      rw [show (blockRegion k t0 stamp d).rgState g = d.rgState g from blockRegion_other hg hk t0 stamp d]
      exact h

theorem blockScope_all (hg : g < 8) (stamp : Nat) (d : Dev) (ha : d.assigned g = true)
    (h : d.rgState g = rgCHARGE ∨ d.rgState g = rgREADY ∨ d.rgState g = rgRUN) :
    (blockScope (List.range 8) stamp d).rgState g = rgBLOCK :=
  blockRegions_state hg _ (List.mem_filter.mpr ⟨List.mem_range.mpr hg, ha⟩) _ stamp d h

/-! ## Overrides of device scope -/

/-- The overrides that wait are taken up. -/
def protTaken (tk : Nat) (d : Dev) : Dev :=
  let d := d.at_ tk
  { d with fc := { d.fc with prots := [], protDev := false } }

theorem protTaken_get (tk : Nat) (d : Dev) (x : Fld) (h : ¬ timeRegs x.addr) : (protTaken tk d).get x = d.get x := at_get d tk x h

theorem protTaken_mode (tk : Nat) (d : Dev) : (protTaken tk d).mode = d.mode := at_mode d tk

/-- The device as an override of device scope finds its regions. -/
def overrideTaken (tk : Nat) (d : Dev) : Dev := (protTaken tk d).setMode modeBLOCK

theorem overrideD_device {tk : Nat} (hp : d.fc.protDev = true) (hm : d.mode = modeCHARGE ∨ d.mode = modeRUN) :
    overrideD tk d = blockScope (List.range 8) (overrideTaken tk d).nowTick (overrideTaken tk d) := by
  have hm' : (protTaken tk d).mode = modeCHARGE ∨ (protTaken tk d).mode = modeRUN := by rwa [protTaken_mode]
  have hconv : (protTaken tk d).converting = true := by
    rcases hm' with k | k <;> rw [Dev.converting, k] <;> rfl
  have hgo : ¬ (d.fc.prots.isEmpty = true ∧ ¬ d.fc.protDev = true) := fun k => k.2 hp
  have hdev : (d.at_ tk).fc.protDev = true := hp
  have htaken : (if (protTaken tk d).mode = modeCHARGE ∨ (protTaken tk d).mode = modeRUN then (protTaken tk d).setMode modeBLOCK
      else protTaken tk d) = overrideTaken tk d := if_pos hm'
  rw [← htaken]
  unfold overrideD
  rw [if_neg hgo]
  exact (if_neg (not_not.mpr hconv)).trans (if_pos hdev)

theorem frame_protTaken (tk : Nat) (d : Dev) : Frame calmRegs calmParts d (protTaken tk d) :=
  frame_setFc _ calmEvents.fc ⟨rfl, rfl, rfl⟩ (frame_at_calm d tk)

/-- Entry to BLOCK changes the mode and CHGTO. -/
theorem frame_blockMode (d : Dev) : Frame (fun a => a = GL_MODE ∨ a = GL_SUSTAT) calmParts d (d.setMode modeBLOCK) :=
  frame_setMode modeBLOCK (.inl rfl) (.inr rfl) trivial (frame_refl d)

theorem overrideTaken_rgState (tk g : Nat) (d : Dev) : (overrideTaken tk d).rgState g = d.rgState g := by
  have hne : ¬ (RG_STAT g = GL_MODE ∨ RG_STAT g = GL_SUSTAT) := by unfold RG_STAT GL_MODE GL_SUSTAT; omega
  exact ((frame_blockMode (protTaken tk d)).get (RG_STAT_STATE g) hne).trans
    (protTaken_get tk d (RG_STAT_STATE g) (unit_still (unit_ge rfl)))

theorem overrideTaken_assigned (tk g : Nat) (d : Dev) : (overrideTaken tk d).assigned g = d.assigned g := by
  have key : (overrideTaken tk d).quiresOf g = d.quiresOf g := by
    refine quiresOf_of_quires fun q hq x hx => ?_
    have hne : ¬ (x.addr = GL_MODE ∨ x.addr = GL_SUSTAT) := by rw [hx]; unfold QU_CFG GL_MODE GL_SUSTAT; omega
    have hstill : ¬ timeRegs x.addr := by rw [hx]; exact unit_still (unit_ge rfl)
    exact ((frame_blockMode (protTaken tk d)).get x hne).trans (protTaken_get tk d x hstill)
  rw [Dev.assigned, key, Dev.assigned]

theorem overrideD_mode {tk : Nat} (hp : d.fc.protDev = true) (hm : d.mode = modeCHARGE ∨ d.mode = modeRUN) :
    (overrideD tk d).mode = modeBLOCK := by
  rw [overrideD_device hp hm]
  exact ((frame_blockScope calmBroad _ _ (frame_refl _)).get GL_MODE_MODE (fun k => k rfl)).trans (setMode_mode modeBLOCK _ (by decide))

theorem overrideD_stopReq {tk : Nat} (hp : d.fc.protDev = true) (hm : d.mode = modeCHARGE ∨ d.mode = modeRUN) :
    (overrideD tk d).fc.stopReq = d.fc.stopReq := by
  have h1 : (blockScope (List.range 8) (overrideTaken tk d).nowTick (overrideTaken tk d)).fc.stopReq = (overrideTaken tk d).fc.stopReq :=
    (frame_blockScope calmBroad _ _ (frame_refl _)).parts .stopReq id
  have h2 : (overrideTaken tk d).fc.stopReq = (protTaken tk d).fc.stopReq := (frame_blockMode (protTaken tk d)).parts .stopReq id
  rw [overrideD_device hp hm, h1, h2]
  rfl

/-! ## Trip inputs -/

/-- Raw and filtered levels are no trip outputs. -/
theorem settled_level {y : Fld} (hy : y.lsb + y.width ≤ 8) (d : Dev) : (tripOutRelease d).get y = d.get y := by
  have key (d : Dev) (x : Nat) : (if d.bit FC_TRIPSTAT_TOUT x ∧ ¬ tripOutOk x d then d.putBit FC_TRIPSTAT_TOUT x false else d).get y =
      d.get y := by
    split
    · exact get_put_disj d FC_TRIPSTAT_TOUT y _ (by omega) (.inl hy)
    · rfl
  unfold tripOutRelease
  rw [foldN_two, key, key]

/-- What shows of an input once a step has settled. -/
theorem settled_trip (d : Dev) (x : Nat) : (tripOutRelease d).bit FC_TRIPEVT_TRIP x = d.bit FC_TRIPEVT_TRIP x ∧
    (tripOutRelease d).bit FC_TRIPSTAT_RAW x = d.bit FC_TRIPSTAT_RAW x ∧
    (tripOutRelease d).bit FC_TRIPSTAT_FILT x = d.bit FC_TRIPSTAT_FILT x ∧
    (tripOutRelease d).get FC_TRIPEVT_TRIPCNT = d.get FC_TRIPEVT_TRIPCNT ∧ (tripOutRelease d).fc = d.fc :=
  ⟨bit_congr (tripOutRelease_get d FC_TRIPEVT_TRIP (by decide)), bit_congr (settled_level (by decide) d),
    bit_congr (settled_level (by decide) d), tripOutRelease_get d FC_TRIPEVT_TRIPCNT (by decide), tripOutRelease_fc d⟩

theorem tripShow_filt (x : Nat) (hx : x < 4) (d : Dev) :
    (tripShow d).bit FC_TRIPSTAT_FILT x = (bitOf d.fc.tripOwn x || bitOf d.fc.tripRel x) := by
  have hw : FC_TRIPSTAT_FILT.width = 4 := rfl
  rw [Dev.bit, tripShow, get_put_same _ _ _ (by decide), bitOf_eq_testBit, bitOf_eq_testBit, bitOf_eq_testBit, Nat.testBit_mod_two_pow,
    hw, decide_eq_true hx, Bool.true_and, Nat.testBit_or]

theorem tripShow_fc (d : Dev) : (tripShow d).fc = d.fc := rfl

theorem tripShow_raw (d : Dev) (x : Nat) : (tripShow d).bit FC_TRIPSTAT_RAW x = d.bit FC_TRIPSTAT_RAW x :=
  bit_congr (get_put_disj _ FC_TRIPSTAT_FILT FC_TRIPSTAT_RAW _ (by decide) (by decide))

/-- Room for what the recorder does on a line event. -/
theorem lineRoom : Room 0x8000 0x9000 (fun a => a ≠ FC_TRIPSTAT ∧ a ≠ FC_TRIPEVT) (fun _ => True) where
  evt := by decide
  cnt := by decide
  fc := trivial
  dr := trivial
  regs a h := by unfold FC_TRIPSTAT FC_TRIPEVT; omega
  refuse a h := by rcases h with rfl | rfl | rfl <;> decide

theorem frame_room_fire (R : Room 0x8000 0x9000 W S) (fs : List Firing) (late : Bool) (h : Frame W S d e) :
    Frame W S d (fire fs late e) := by
  unfold fire
  dsimp only
  split
  · exact h
  · exact frame_recTrigger R _ _ _ _ _ _ h

theorem frame_lineEvent (R : Room 0x8000 0x9000 W S) (line t : Nat) (h : Frame W S d e) : Frame W S d (lineEvent line t e) :=
  frame_room_fire R _ _ (frame_ite (frame_setDr _ R.dr h) h)

/-- What of the collection of faults an event and its reaction do not touch. -/
theorem raiseBit_view {α : Type} {f : FaultSt → α} (hf : ∀ x q n a v ps pd sr,
    f { x with evq := q, evLost := n, evLostAt := a, evOvf := v, prots := ps, protDev := pd, stopReq := sr } = f x)
    (y : Fld) (i : Nat) (c : Cls) (d : Dev) : f (d.raiseBit y i c).fc = f d.fc := by
  have hlose (e : Dev) (t : Nat) (n : Bool) : f (e.loseEvent t n).fc = f e.fc :=
    hf e.fc e.fc.evq _ _ _ e.fc.prots e.fc.protDev e.fc.stopReq
  have hentry (e : Dev) (n p : Nat) : (e.flagEntry n p).fc = e.fc := by
    unfold Dev.flagEntry
    split
    · exact source_fc _ _ _ _ _ _ _
    · rfl
  have hpush (e : Dev) (a b k t : Nat) : f (e.pushEvent a b k t).fc = f e.fc := by
    unfold Dev.pushEvent
    split
    · rfl
    split
    · exact hf e.fc _ e.fc.evLost e.fc.evLostAt e.fc.evOvf e.fc.prots e.fc.protDev e.fc.stopReq
    split
    · unfold Dev.setEvovf
      rw [hentry]
      exact hlose e t true
    · exact hlose e t false
  have hreact (e : Dev) : f (e.react c).fc = f e.fc := by
    cases c with
    | notice | service => rfl
    | prot m =>
      unfold Dev.react
      dsimp only
      split
      · exact hf e.fc e.fc.evq e.fc.evLost e.fc.evLostAt e.fc.evOvf _ e.fc.protDev e.fc.stopReq
      · rfl
    | protDev =>
      unfold Dev.react
      dsimp only
      split
      · exact hf e.fc e.fc.evq e.fc.evLost e.fc.evLostAt e.fc.evOvf e.fc.prots _ e.fc.stopReq
      · rfl
    | stop => exact hf e.fc e.fc.evq e.fc.evLost e.fc.evLostAt e.fc.evOvf e.fc.prots e.fc.protDev _
  unfold Dev.raiseBit
  split
  · rfl
  · dsimp only
    rw [hreact, hentry, hpush]
    rfl

/-- A trigger of the recorder leaves the collection of faults. -/
theorem recTrigger_fc (units lines : Nat) (force late relayed : Bool) (t : Nat) (d : Dev) :
    (recTrigger units lines force late relayed t d).fc = d.fc := by
  unfold recTrigger
  extract_lets st r x0 x1 tw counted _ _ _ begun _ _ noted
  have hcounted : counted.fc = d.fc := foldN_view (fun e : Dev => e.fc) 8 (fun e u => by split <;> rfl) d
  have hbegun : begun.fc = d.fc := by
    show (if _ then _ else _ : Dev).fc = _
    split <;> exact hcounted
  have hnoted : noted.fc = d.fc := (source_fc _ _ _ _ _ _ _).trans hbegun
  split
  · rfl
  · split <;> exact hnoted

theorem lineEvent_fc (line t : Nat) (d : Dev) : (lineEvent line t d).fc = d.fc := by
  have hnote : (lineNote line t d).fc = d.fc := by
    unfold lineNote
    split <;> rfl
  show (fire _ false (lineNote line t d)).fc = _
  unfold fire
  dsimp only
  split
  · exact hnote
  · exact (recTrigger_fc _ _ _ _ _ _ _).trans hnote

/-- The new level of an input, at its instant. -/
def tripTaken (x tk : Nat) (up : Bool) (d : Dev) : Dev :=
  let d := (d.putBit FC_TRIPSTAT_RAW x up).at_ tk
  let relay := d.paired && d.role != roleACTIVE
  { d with fc := { d.fc with
    tripOwn := if up then setBit d.fc.tripOwn x else clrBit d.fc.tripOwn x
    relEdges := if relay then d.fc.relEdges ++ [(Fin.ofNat 4 x, up)] else d.fc.relEdges } }

/-- The raw level is shown whatever else follows. -/
theorem rawShown_live (x : Nat) (up : Bool) (d : Dev) : (d.putBit FC_TRIPSTAT_RAW x up).live = d.live := by
  have hm : (d.putBit FC_TRIPSTAT_RAW x up).mode = d.mode := get_put_ne d FC_TRIPSTAT_RAW GL_MODE_MODE _ (by decide)
  simp only [Dev.live, Dev.converting, hm]

theorem tripAssert_due {tk : Nat} (hx : x < 4) (hl : d.live = true) (he : d.flag (FC_TRIPCFG_EN x) = true)
    (ho : bitOf d.fc.tripOwn x = false) : tripAssert x tk d = tripAct x (tripShow (tripTaken x tk true d)) := by
  have hne : FC_TRIPSTAT_RAW.addr ≠ (FC_TRIPCFG_EN x).addr := by
    show FC_TRIPSTAT ≠ FC_TRIPCFG x
    unfold FC_TRIPSTAT FC_TRIPCFG
    omega
  have hen : (d.putBit FC_TRIPSTAT_RAW x true).flag (FC_TRIPCFG_EN x) = true := (flag_congr (get_put_ne d _ _ _ hne)).trans he
  have hgo : ¬ (¬ (d.putBit FC_TRIPSTAT_RAW x true).live = true ∨ ¬ (d.putBit FC_TRIPSTAT_RAW x true).flag (FC_TRIPCFG_EN x) = true ∨
      bitOf (d.putBit FC_TRIPSTAT_RAW x true).fc.tripOwn x = true) := by
    rintro (k | k | k)
    exacts [k ((rawShown_live x true d).trans hl), k hen, Bool.false_ne_true (ho.symm.trans k)]
  exact if_neg hgo

theorem tripDeassert_due {tk : Nat} (hl : d.live = true) (ho : bitOf d.fc.tripOwn x = true) :
    tripDeassert x tk d = (tripShow (tripTaken x tk false d)).source kLINE (3 + x) (tripShow (tripTaken x tk false d)).nowNs 0 := by
  have hgo : ¬ (¬ (d.putBit FC_TRIPSTAT_RAW x false).live = true ∨ ¬ bitOf (d.putBit FC_TRIPSTAT_RAW x false).fc.tripOwn x = true) := by
    rintro (k | k)
    exacts [k ((rawShown_live x false d).trans hl), k ho]
  exact if_neg hgo

theorem frame_tripTaken (x tk : Nat) (up : Bool) (d : Dev) : Frame calmRegs calmParts d (tripTaken x tk up d) :=
  frame_setFc _ calmEvents.fc ⟨rfl, rfl, rfl⟩ (frame_wide_at calmBroad trivial tk (frame_putBit FC_TRIPSTAT_RAW x up (by decide) (frame_refl d)))

theorem tripTaken_raw (tk : Nat) (up : Bool) (hx : x < 4) (d : Dev) : (tripTaken x tk up d).bit FC_TRIPSTAT_RAW x = up := by
  have hat : (tripTaken x tk up d).bit FC_TRIPSTAT_RAW x = (d.putBit FC_TRIPSTAT_RAW x up).bit FC_TRIPSTAT_RAW x :=
    at_bit _ tk FC_TRIPSTAT_RAW x (by unfold timeRegs; decide)
  rw [hat, bit_putBit _ _ _ _ _ (by decide) hx, if_pos rfl]

theorem tripTaken_own (x tk : Nat) (up : Bool) (d : Dev) : bitOf (tripTaken x tk up d).fc.tripOwn x = up := by
  have heq : (tripTaken x tk up d).fc.tripOwn = if up then setBit d.fc.tripOwn x else clrBit d.fc.tripOwn x := rfl
  rw [heq, bitOf_eq_testBit]
  cases up
  · simp [testBit_clrBit]
  · simp [testBit_setBit]

/-- An assertion is counted and its flag set. -/
theorem tripFlag_shows (hx : x < 4) (d : Dev) : (tripFlag x d).bit FC_TRIPEVT_TRIP x = true ∧
    (tripFlag x d).get FC_TRIPEVT_TRIPCNT = satInc 16 (d.get FC_TRIPEVT_TRIPCNT) 1 := by
  have hsrc (y : Dev) (k : Nat) (f : Fld) : (y.source kLINE (3 + x) k 1).get f = y.get f := get_congr _ _ _ (source_word _ _ _ _ _ _ _ _)
  unfold tripFlag
  dsimp only
  rw [hsrc, bit_congr (hsrc _ _ _), get_raiseBit_disj _ FC_TRIPEVT_TRIP FC_TRIPEVT_TRIPCNT _ _ rfl (by decide) (by decide) (by decide)
    (by decide), ufld_bump d FC_TRIPEVT_TRIPCNT 1 rfl]
  exact ⟨bit_raiseBit_same _ FC_TRIPEVT_TRIP x _ (by decide) hx (by decide) (by decide), rfl⟩

/-- The LINE entry of a deassertion leaves what shows. -/
theorem lineOff_shows (x : Nat) (d : Dev) : (d.source kLINE (3 + x) d.nowNs 0).bit FC_TRIPSTAT_RAW x = d.bit FC_TRIPSTAT_RAW x ∧
    (d.source kLINE (3 + x) d.nowNs 0).bit FC_TRIPSTAT_FILT x = d.bit FC_TRIPSTAT_FILT x ∧
    (d.source kLINE (3 + x) d.nowNs 0).fc = d.fc :=
  ⟨bit_congr (get_congr _ _ _ (source_word _ _ _ _ _ _ _ _)), bit_congr (get_congr _ _ _ (source_word _ _ _ _ _ _ _ _)),
    source_fc _ _ _ _ _ _ _⟩

/-- It leaves the levels. -/
theorem tripFlag_level (x : Nat) (d : Dev) {y : Fld} (hy : y.addr = FC_TRIPSTAT) : (tripFlag x d).get y = d.get y := by
  have h1 : FC_TRIPEVT ≠ y.addr := by rw [hy]; decide
  have h2 : y.addr ≠ NT_EVT ∧ y.addr ≠ NT_CNT1 := by rw [hy]; decide
  unfold tripFlag
  rw [get_congr _ _ _ (source_word _ _ _ _ _ _ _ _), get_raiseBit_ne _ FC_TRIPEVT_TRIP y _ _ h1 h2.1 h2.2]
  exact get_put_ne d FC_TRIPEVT_TRIPCNT y _ h1

theorem tripFlag_own (x : Nat) (d : Dev) : (tripFlag x d).fc.tripOwn = d.fc.tripOwn := by
  unfold tripFlag
  dsimp only
  rw [source_fc, raiseBit_view (f := FaultSt.tripOwn) fun _ _ _ _ _ _ _ _ => rfl]
  rfl

theorem tripAct_shows (hx : x < 4) (d : Dev) : (tripAct x d).bit FC_TRIPEVT_TRIP x = true ∧
    (tripAct x d).bit FC_TRIPSTAT_RAW x = d.bit FC_TRIPSTAT_RAW x ∧
    (tripAct x d).bit FC_TRIPSTAT_FILT x = d.bit FC_TRIPSTAT_FILT x ∧ (tripAct x d).fc.tripOwn = d.fc.tripOwn ∧
    (tripAct x d).get FC_TRIPEVT_TRIPCNT = satInc 16 (d.get FC_TRIPEVT_TRIPCNT) 1 := by
  have hline := frame_lineEvent lineRoom (3 + x) d.nowNs (frame_refl (tripFlag x d))
  obtain ⟨hflag, hcnt⟩ := tripFlag_shows hx d
  unfold tripAct
  rw [lineEvent_fc, bit_congr (hline.get FC_TRIPEVT_TRIP (fun k => k.2 rfl)), hline.get FC_TRIPEVT_TRIPCNT (fun k => k.2 rfl),
    bit_congr (hline.get FC_TRIPSTAT_RAW (fun k => k.1 rfl)), bit_congr (hline.get FC_TRIPSTAT_FILT (fun k => k.1 rfl))]
  exact ⟨hflag, bit_congr (tripFlag_level x d rfl), bit_congr (tripFlag_level x d rfl), tripFlag_own x d, hcnt⟩

end Sys2Proof.Machine

open Sys2Proof Machine

/-- Settles O41, by the regions of the scope and by what an input shows. -/
theorem protectiveReaction : Obligations.ProtectiveReaction := by
  unfold Obligations.ProtectiveReaction
  intro s tk h
  obtain ⟨-, -, hstop⟩ := id h
  refine ⟨fun hp hm => ?_, fun x hl he => ⟨fun ho => ?_, fun ho hrel => ?_⟩⟩
  · have hmode := overrideD_mode (tk := tk) hp hm
    refine answers_running_calm rfl h (by rw [hmode]; decide) ((overrideD_stopReq hp hm).trans hstop) ?_
    refine ⟨(settled_mode _).trans hmode, fun g hg ha hst => ?_⟩
    refine (settled_get _ (RG_STAT_STATE g) (unit_ge rfl)).trans ?_
    rw [overrideD_device hp hm]
    exact blockScope_all hg _ _ ((overrideTaken_assigned tk g s.dev).trans ha) (by rwa [overrideTaken_rgState])
  · have heq := tripAssert_due (tk := tk) x.isLt hl he ho
    have hcnt : (tripShow (tripTaken x.val tk true s.dev)).get FC_TRIPEVT_TRIPCNT = s.dev.get FC_TRIPEVT_TRIPCNT := by
      refine (get_put_ne _ FC_TRIPSTAT_FILT FC_TRIPEVT_TRIPCNT _ (by decide)).trans ?_
      exact (at_get _ tk FC_TRIPEVT_TRIPCNT (by unfold timeRegs; decide)).trans
        (get_put_ne s.dev FC_TRIPSTAT_RAW FC_TRIPEVT_TRIPCNT _ (by decide))
    obtain ⟨hflag, hraw, hfilt, hown, hcount⟩ := tripAct_shows x.isLt (tripShow (tripTaken x.val tk true s.dev))
    refine answers_running (f := tripAssert x.val tk) rfl h ?_ ?_
    · rw [heq]
      refine quiet_of_frame (frame_lineEvent (recRoom calmEvents) _ _ (frame_tripFlag calmEvents _ (frame_tripShow ?_)))
      exact frame_tripTaken _ _ _ _
    · obtain ⟨ktrip, kraw, kfilt, kcnt, kfc⟩ := settled_trip (tripAct x.val (tripShow (tripTaken x.val tk true s.dev))) x.val
      rw [heq, ktrip, kraw, kfilt, kcnt, kfc, hraw, hfilt, hown, hcount, hcnt, tripShow_raw, tripTaken_raw tk true x.isLt,
        tripShow_filt x.val x.isLt, tripShow_fc, tripTaken_own]
      exact ⟨hflag, rfl, rfl, rfl, rfl⟩
  · have heq := tripDeassert_due (x := x.val) (tk := tk) hl ho
    have hrel' : bitOf (tripTaken x.val tk false s.dev).fc.tripRel x.val = false := hrel
    refine answers_running (f := tripDeassert x.val tk) rfl h ?_ ?_
    · rw [heq]
      exact quiet_of_frame (frame_source _ _ _ _ _ _ calmEvents.dr (frame_tripShow (frame_tripTaken _ _ _ _)))
    · obtain ⟨-, kraw, kfilt, -, kfc⟩ := settled_trip (tripDeassert x.val tk s.dev) x.val
      obtain ⟨hraw, hfilt, hfc⟩ := lineOff_shows x.val (tripShow (tripTaken x.val tk false s.dev))
      rw [kraw, kfilt, kfc, heq, hraw, hfilt, hfc, tripShow_raw, tripTaken_raw tk false x.isLt, tripShow_filt x.val x.isLt,
        tripShow_fc, tripTaken_own, hrel']
      exact ⟨rfl, rfl, rfl⟩

end

section
/-! PROOFS. A step that neither moves the mode nor sets a STOP source, settled in any mode: the trip outputs, and in STOP the state of
the fault collection, are all that settling changes. -/

namespace Sys2Proof.Machine

theorem fldPut_fldGet (w : Word) (f : Fld) : fldPut w f (fldGet w f) = w := by
  refine BitVec.eq_of_getLsbD_eq fun i hi => ?_
  rw [getLsbD_fldPut _ _ _ _ hi, testBit_fldGet]
  split
  next h =>
    obtain ⟨hlo, hhi⟩ := h
    rw [Nat.add_sub_cancel' hlo, decide_eq_true (by omega), Bool.true_and]
  next => rfl

/-- Storing in a field what it holds changes no register. -/
theorem word_put_get (d : Dev) (f : Fld) (a : Nat) : (d.put f (d.get f)).word a = d.word a := by
  by_cases ha : f.addr = a
  · rw [← ha, Dev.put, word_setWord_same, Dev.get, fldPut_fldGet]
  · exact word_put_ne d f _ a ha

theorem frame_put_get {W : Nat → Prop} {S : Part → Prop} {d e : Dev} (x : Fld) (h : Frame W S d e) :
    Frame W S d (e.put x (e.get x)) := by
  refine ⟨fun a ha => (word_put_get e x a).trans (h.words a ha), fun p hp => ?_⟩
  have := h.parts p hp
  cases p <;> exact this

/-- What settling a step changes that is quiet and sets no STOP source. -/
theorem frame_settle_still {b a : Dev} (q : Quiet b a) (hq : b.fc.stopReq = false) :
    Frame (· = FC_TRIPSTAT) (· = .fc) a (settle b a) := by
  obtain ⟨hmode, hreq, -⟩ := q
  have ha : a.fc.stopReq = false := hreq.trans hq
  have hout : Frame (· = FC_TRIPSTAT) (· = .fc) a (tripOutRelease a) := frame_tripOutRelease rfl (frame_refl a)
  have hno : ¬ (a.fc.stopReq = true ∧ a.mode ≠ modeSTOP) := fun h => Bool.false_ne_true (ha.symm.trans h.1)
  unfold settle
  dsimp only
  rw [if_neg hno]
  split
  next hs =>
    have hstop : a.mode = modeSTOP := by
      rcases hs with h | h | h
      · exact hmode.trans h
      · exact absurd (ha.symm.trans h) Bool.false_ne_true
      · exact h
    have hget : (tripOutRelease a).get GL_MODE_MODE = modeSTOP := (tripOutRelease_mode a).trans hstop
    have hput := frame_put_get GL_MODE_MODE hout
    rw [hget] at hput
    have hfc : (tripOutRelease a).fc.stopReq = false := (hout.parts .stopReq (by simp)).trans ha
    exact frame_setFc _ rfl ⟨hfc.symm, rfl, rfl⟩ hput
  next => exact hout

/-- What a released device answers in any mode to a step that is quiet and sets no STOP source. -/
theorem answers_within_still {c : Instr} {f : Dev → Dev} {s : State} {P : State → Prop} (hc : exec c s = .next (within f s))
    (hr : s.dev.released = true) (hq : s.dev.fc.stopReq = false) (q : Quiet s.dev (f s.dev))
    (hP : ∀ e, Frame (· = FC_TRIPSTAT) (· = .fc) (f s.dev) e → P { s with dev := e }) : Answers c s P :=
  ⟨_, hc, by rw [within, if_pos hr]; exact hP _ (frame_settle_still q hq)⟩

theorem answers_whole_still {c : Instr} {f : State → State} {s : State} {P : State → Prop} (hc : exec c s = .next (whole f s))
    (hr : s.dev.released = true) (hq : s.dev.fc.stopReq = false) (q : Quiet s.dev (f s).dev)
    (hP : ∀ e, Frame (· = FC_TRIPSTAT) (· = .fc) (f s).dev e → P { f s with dev := e, pending := s.pending }) : Answers c s P :=
  answers_whole hc hr (hP _ (frame_settle_still q hq))

end Sys2Proof.Machine
end

section
/-! PROOFS. Scans of the JTAG port (R446), and the owner key slots (R449, O57). -/
namespace Sys2Proof.Machine

variable {c : Instr} {s : State} {P : State → Prop}

/-! ## Scans -/

/-- A scan while JTAG_TRST_N is low counts itself and nothing else (R446). -/
theorem jtagScan_held {f : State → State} (h : s.dev.jtag.held ≠ 0) :
    jtagScan f s = { s with dev := onJtag (fun j => { j with held := j.held - 1 }) s.dev } := if_neg h

theorem jtagScan_out_of_reset {f : State → State} (h : s.dev.jtag.held = 0) : jtagScan f s = f s := if_pos h

/-- What every scan answers while JTAG_TRST_N is low. -/
theorem answers_scan_held {f : State → State} (hc : exec c s = .next (whole (jtagScan f) s)) (hr : s.dev.released = true)
    (hq : s.dev.fc.stopReq = false) (hheld : s.dev.jtag.held ≠ 0) : Answers c s fun t =>
      t.dev.jtag = { s.dev.jtag with held := s.dev.jtag.held - 1 } ∧ t.dev.sent = s.dev.sent ∧ t.fuse = s.fuse := by
  have hscan := jtagScan_held (f := f) hheld
  refine answers_whole_still hc hr hq (hscan ▸ quiet_onJtag _ (quiet_refl _)) fun e he => ?_
  rw [hscan] at he ⊢
  exact ⟨he.parts .jtag (by simp), he.parts .sent (by simp), rfl⟩

/-- What a scan answers while JTAG_TRST_N is high: what it does, settled. -/
theorem answers_scan {f : State → State} (hc : exec c s = .next (whole (jtagScan f) s)) (hr : s.dev.released = true)
    (hq : s.dev.fc.stopReq = false) (hheld : s.dev.jtag.held = 0) (q : Quiet s.dev (f s).dev)
    (hP : ∀ e, Frame (· = FC_TRIPSTAT) (· = .fc) (f s).dev e → P { f s with dev := e, pending := s.pending }) : Answers c s P := by
  have hscan := jtagScan_out_of_reset (f := f) hheld
  refine answers_whole_still hc hr hq (hscan ▸ q) fun e he => ?_
  rw [hscan] at he ⊢
  exact hP e he

/-! ## Owner key slots (R449) -/

theorem keyFree_iff (s : State) :
    keyFree s = true ↔ s.fuse.busy = 0 ∧ (s.dev.mode = modeIDLE ∨ s.dev.mode = modeSTOP) := by simp [keyFree]

theorem scanned_keyFree (op : Nat) (s : State) : keyFree { s with dev := jtagIr op false 0 s.dev } = keyFree s := rfl

theorem keyProg_fuse (h : BitVec 256) (slot : Bool) (conf : Nat) (s : State) : (keyProg h slot conf s).fuse =
    if conf = 0x5A ∧ (if slot then s.fuse.prog1 else s.fuse.prog0) = false ∧ keyFree s = true then
      { s.fuse with busy := if slot then 2 else 1, want := h }
    else { s.fuse with res := 2 } := by
  unfold keyProg
  dsimp only
  rw [scanned_keyFree]
  cases slot
  all_goals
    simp only [Bool.false_eq_true, if_true, if_false, Bool.not_eq_true]
    split <;> rfl

theorem keyRev_fuse (conf : Nat) (s : State) : (keyRev conf s).fuse =
    if conf = 0xC3 ∧ s.fuse.prog1 = true ∧ s.fuse.rev0 = false ∧ keyFree s = true then { s.fuse with busy := 3 }
    else { s.fuse with res := 2 } := by
  unfold keyRev
  dsimp only
  rw [scanned_keyFree]
  simp only [Bool.not_eq_true]
  split <;> rfl

theorem answers_keyFuse {f : State → State} {x : Fuse} (hc : exec c s = .next (whole (jtagScan f) s)) (hr : s.dev.released = true)
    (hq : s.dev.fc.stopReq = false) (hheld : s.dev.jtag.held = 0) (q : Quiet s.dev (f s).dev) (hx : (f s).fuse = x) :
    Answers c s fun t => t.fuse = x := answers_scan hc hr hq hheld q fun _ _ => hx

theorem conf_prog (conf : BitVec 7) : conf = 0x5A ↔ conf.toNat = 0x5A := BitVec.toNat_inj.symm

theorem conf_rev (conf : BitVec 8) : conf = 0xC3 ↔ conf.toNat = 0xC3 := BitVec.toNat_inj.symm

/-- KEYPROG and KEYREV while JTAG_TRST_N is high. -/
theorem answers_keyProg (hr : s.dev.released = true) (hq : s.dev.fc.stopReq = false) (hheld : s.dev.jtag.held = 0) (h : BitVec 256)
    (slot : Bool) (conf : BitVec 7) : Answers (.jtagKeyprog h slot conf) s fun t => t.fuse =
      if conf = 0x5A ∧ (if slot then s.fuse.prog1 else s.fuse.prog0) = false ∧ s.fuse.busy = 0 ∧
          (s.dev.mode = modeIDLE ∨ s.dev.mode = modeSTOP) then { s.fuse with busy := if slot then 2 else 1, want := h }
      else { s.fuse with res := 2 } := by
  refine answers_keyFuse rfl hr hq hheld (quiet_keyProg h slot conf.toNat s) ((keyProg_fuse _ _ _ s).trans ?_)
  simp only [keyFree_iff, conf_prog]

theorem answers_keyRev (hr : s.dev.released = true) (hq : s.dev.fc.stopReq = false) (hheld : s.dev.jtag.held = 0) (conf : BitVec 8) :
    Answers (.jtagKeyrev conf) s fun t => t.fuse =
      if conf = 0xC3 ∧ s.fuse.prog1 = true ∧ s.fuse.rev0 = false ∧ s.fuse.busy = 0 ∧
          (s.dev.mode = modeIDLE ∨ s.dev.mode = modeSTOP) then { s.fuse with busy := 3 }
      else { s.fuse with res := 2 } := by
  refine answers_keyFuse rfl hr hq hheld (quiet_keyRev conf.toNat s) ((keyRev_fuse _ s).trans ?_)
  simp only [keyFree_iff, conf_rev]

/-! ## What the operation on the fuses leaves -/

/-- A field of GL_KEYSTAT that has been set reads 1 once the step is settled. -/
theorem settled_keystat {d e : Dev} (x : Fld) (hx : x.addr ≠ FC_TRIPSTAT) (hl : x.lsb + x.width ≤ 32) (hw : 0 < x.width)
    (he : Frame (· = FC_TRIPSTAT) (· = .fc) (d.put x 1) e) : e.flag x = true := by
  rw [flag_congr (get_congr e _ x (he.words _ hx)), flag_put_one d x hl hw]

theorem keyDone_prog0 (rb : BitVec 256) (h : s.fuse.busy = 1) : keyDone rb s =
    { s with
      fuse := { s.fuse with busy := 0, hash0 := rb, prog0 := true, res := if rb = s.fuse.want then 1 else 3 }
      dev := s.dev.put GL_KEYSTAT_PROG0 1 } := if_pos h

theorem keyDone_prog1 (rb : BitVec 256) (h : s.fuse.busy = 2) : keyDone rb s =
    { s with
      fuse := { s.fuse with busy := 0, hash1 := rb, prog1 := true, res := if rb = s.fuse.want then 1 else 3 }
      dev := s.dev.put GL_KEYSTAT_PROG1 1 } := by
  unfold keyDone
  dsimp only
  rw [h]
  rfl

theorem keyDone_rev0 (rb : BitVec 256) (h : s.fuse.busy = 3) : keyDone rb s =
    { s with fuse := { s.fuse with busy := 0, rev0 := true, res := 1 }, dev := s.dev.put GL_KEYSTAT_REV0 1 } := by
  unfold keyDone
  dsimp only
  rw [h]
  rfl

/-- The operation completes: its fuses, and the field that shows them. -/
theorem answers_keyDone {rb : BitVec 256} {k : Fuse} {x : Fld} (hr : s.dev.released = true) (hq : s.dev.fc.stopReq = false)
    (hdone : keyDone rb s = { s with fuse := k, dev := s.dev.put x 1 }) (hx : x.addr ≠ FC_TRIPSTAT) (hl : x.lsb + x.width ≤ 32)
    (hw : 0 < x.width) : Answers (.keyFuseDone rb) s fun t => t.fuse = k ∧ t.dev.flag x = true := by
  refine answers_whole_still rfl hr hq (quiet_keyDone rb s) fun e he => ?_
  rw [hdone] at he ⊢
  exact ⟨rfl, settled_keystat x hx hl hw he⟩

/-- Settles O57: a scan reaches the fuses only while JTAG_TRST_N is high, starts one operation at a time, and its completion leaves
what was read back. -/
theorem keySlots : Obligations.KeySlots := by
  unfold Obligations.KeySlots
  intro s hr hq
  refine ⟨?held, ?read, ?prog, ?rev, fun rb => ⟨fun hb => ?_, fun hb => ?_, fun hb => ?_⟩⟩
  case held =>
    rintro hheld c (rfl | ⟨h, x, y, rfl⟩ | ⟨x, rfl⟩)
    all_goals exact answers_mono (answers_scan_held rfl hr hq hheld) fun _ ⟨_, hsent, hfuse⟩ => ⟨hfuse, hsent⟩
  case read =>
    intro hheld
    refine answers_scan (f := fun s => { s with dev := jtagOut 520 (keyWord s.fuse) (jtagIr 0x10 false 0 s.dev) }) rfl hr hq hheld
      (quiet_send _ (quiet_jtagIr _ _ _ (quiet_refl _))) fun e he => ⟨?_, rfl⟩
    exact congrArg List.head? (he.parts .sent (by simp))
  case prog =>
    intro hheld h slot conf
    dsimp only
    have hprog := answers_keyProg hr hq hheld h slot conf
    exact ⟨fun hok => by rwa [if_pos hok] at hprog, fun hok => by rwa [if_neg hok] at hprog⟩
  case rev =>
    intro hheld conf
    dsimp only
    have hrev := answers_keyRev hr hq hheld conf
    exact ⟨fun hok => by rwa [if_pos hok] at hrev, fun hok => by rwa [if_neg hok] at hrev⟩
  · refine answers_mono (answers_keyDone hr hq (keyDone_prog0 rb hb) (by decide) (by decide) (by decide)) ?_
    rintro t ⟨hfuse, hflag⟩
    rw [hfuse]
    exact ⟨rfl, rfl, rfl, rfl, hflag⟩
  · refine answers_mono (answers_keyDone hr hq (keyDone_prog1 rb hb) (by decide) (by decide) (by decide)) ?_
    rintro t ⟨hfuse, hflag⟩
    rw [hfuse]
    exact ⟨rfl, rfl, rfl, rfl, hflag⟩
  · refine answers_mono (answers_keyDone hr hq (keyDone_rev0 rb hb) (by decide) (by decide) (by decide)) ?_
    rintro t ⟨hfuse, hflag⟩
    rw [hfuse]
    exact ⟨rfl, rfl, hflag⟩

end Sys2Proof.Machine
end

section
/-! PROOFS. The JTAG port (R446-R448, O56). -/

namespace Sys2Proof.Machine

variable {c : Instr} {s : State} {P : State → Prop} {d e : Dev}

/-! ## Footprint: an instruction of the port changes its own state and what has been sent -/

/-- The parts that an instruction of the port may change. -/
def portParts (p : Part) : Prop := p = .jtag ∨ p = .sent ∨ p = .fc

theorem frame_jtagIr {W : Nat → Prop} (op : Nat) (refused : Bool) (drive : Nat) (h : Frame W portParts d e) :
    Frame W portParts d (jtagIr op refused drive e) := frame_setJtag _ (.inl rfl) (frame_send _ (.inr (.inl rfl)) h)

theorem frame_jtagPass {W : Nat → Prop} (op : Nat) (refused : Bool) (drive : Nat) (h : Frame W portParts d e) :
    Frame W portParts d (jtagPass op refused drive e) := frame_send _ (.inr (.inl rfl)) (frame_jtagIr op refused drive h)

theorem frame_jtagExtestD {W : Nat → Prop} (x : BoundaryScan) (h : Frame W portParts d e) :
    Frame W portParts d (jtagExtestD x e) :=
  frame_ite (frame_setJtag _ (.inl rfl) (frame_send _ (.inr (.inl rfl)) (frame_jtagIr _ _ _ h))) (frame_jtagPass _ _ _ h)

theorem frame_jtagSampleD {W : Nat → Prop} (balls preload : BitVec 71) (h : Frame W portParts d e) :
    Frame W portParts d (jtagSampleD balls preload e) :=
  frame_setJtag _ (.inl rfl) (frame_send _ (.inr (.inl rfl)) (frame_jtagIr _ _ _ h))

theorem frame_jtagHoldD {W : Nat → Prop} (op drive : Nat) (h : Frame W portParts d e) :
    Frame W portParts d (jtagHoldD op drive e) := frame_ite (frame_jtagPass _ _ _ h) (frame_jtagPass _ _ _ h)

theorem frame_jtagIdD {W : Nat → Prop} (h : Frame W portParts d e) : Frame W portParts d (jtagIdD e) :=
  frame_send _ (.inr (.inl rfl)) (frame_jtagIr _ _ _ h)

theorem frame_jtagReset {W : Nat → Prop} (h : Frame W portParts d e) : Frame W portParts d (jtagReset e) :=
  frame_setJtag _ (.inl rfl) h

/-- An instruction of the port changes no register, and nothing but its own state, what has been sent and the fault collection. -/
def PortMove (f : Dev → Dev) : Prop := ∀ d, Frame (fun _ => False) portParts d (f d)

theorem PortMove.quiet {f : Dev → Dev} (hf : PortMove f) (d : Dev) : Quiet d (f d) :=
  (hf d).quiet id (by simp [portParts]) (by simp [portParts])

/-- The state of the port after an instruction, settled. -/
theorem answers_port {f : Dev → Dev} (hf : PortMove f) (hc : exec c s = .next (whole (jtagDev f) s)) (hr : s.dev.released = true)
    (hq : s.dev.fc.stopReq = false) (hheld : s.dev.jtag.held = 0) :
    Answers c s fun t => t.dev.jtag = (f s.dev).jtag ∧ t.dev.sent = (f s.dev).sent := by
  refine answers_scan (f := fun s => { s with dev := f s.dev }) hc hr hq hheld (hf.quiet s.dev) fun e he => ⟨?_, ?_⟩
  · exact he.parts .jtag (by simp)
  · exact he.parts .sent (by simp)

/-- Nothing but the trip outputs moves among the registers, and nothing beyond the device, whether TRST is low or not. -/
theorem keeps_port {f : Dev → Dev} (hf : PortMove f) (hc : exec c s = .next (whole (jtagDev f) s)) (hr : s.dev.released = true)
    (hq : s.dev.fc.stopReq = false) :
    Answers c s fun t => s.dev.keepsWords (fun a => a = FC_TRIPSTAT) t.dev ∧ s.keepsRest t := by
  have hmove : ∃ d, jtagDev f s = { s with dev := d } ∧ Frame (fun _ => False) portParts s.dev d := by
    by_cases hheld : s.dev.jtag.held = 0
    · exact ⟨_, jtagScan_out_of_reset hheld, hf s.dev⟩
    · exact ⟨_, jtagScan_held hheld, frame_setJtag _ (.inl rfl) (frame_refl _)⟩
  obtain ⟨d, hdev, hd⟩ := hmove
  have hquiet : Quiet s.dev d := hd.quiet id (by simp [portParts]) (by simp [portParts])
  refine answers_whole_still hc hr hq (hdev ▸ hquiet) fun e he => ?_
  rw [hdev] at he ⊢
  exact ⟨fun a ha => (he.words a ha).trans (hd.words a id), rfl, rfl, rfl, rfl, rfl⟩

/-- A command has one next state. -/
theorem Answers.of_next {t : State} (h : Answers c s P) (hx : exec c s = .next t) : P t := by
  obtain ⟨u, hu, hP⟩ := h
  obtain rfl : u = t := Host.Outcome.next.inj (hu.symm.trans hx)
  exact hP

theorem keeps_jtagReset (hr : s.dev.released = true) (hq : s.dev.fc.stopReq = false) :
    Answers .jtagTrst s fun t => s.dev.keepsWords (fun a => a = FC_TRIPSTAT) t.dev ∧ s.keepsRest t := by
  have hd : Frame (fun _ => False) portParts s.dev (jtagReset s.dev) := frame_jtagReset (frame_refl _)
  refine answers_within_still rfl hr hq (quiet_jtagReset (quiet_refl _)) fun e he => ?_
  exact ⟨fun a ha => (he.words a ha).trans (hd.words a id), rfl, rfl, rfl, rfl, rfl⟩

/-! ## The instructions -/

theorem move_extest (x : BoundaryScan) : PortMove (jtagExtestD x) := fun _ => frame_jtagExtestD x (frame_refl _)
theorem move_sample (balls b : BitVec 71) : PortMove (jtagSampleD balls b) := fun _ => frame_jtagSampleD balls b (frame_refl _)
theorem move_hold (op drive : Nat) : PortMove (jtagHoldD op drive) := fun _ => frame_jtagHoldD op drive (frame_refl _)
theorem move_id : PortMove jtagIdD := fun _ => frame_jtagIdD (frame_refl _)
theorem move_pass (op : Nat) (refused : Bool) (drive : Nat) : PortMove (jtagPass op refused drive) :=
  fun _ => frame_jtagPass op refused drive (frame_refl _)

theorem jtagExtestD_stop (x : BoundaryScan) (h : d.mode = modeSTOP) : jtagExtestD x d =
    onJtag (fun j => { j with boundary := x.shift }) (jtagOut 71 (jtagCapture x.balls d).toNat (jtagIr 0x00 false 1 d)) := if_pos h

theorem jtagExtestD_refused (x : BoundaryScan) (h : d.mode ≠ modeSTOP) : jtagExtestD x d = jtagPass 0xFF true 0 d := if_neg h

theorem jtagHoldD_stop (op drive : Nat) (h : d.mode = modeSTOP) : jtagHoldD op drive d = jtagPass op false drive d := if_pos h

theorem jtagHoldD_refused (op drive : Nat) (h : d.mode ≠ modeSTOP) : jtagHoldD op drive d = jtagPass 0xFF true 0 d := if_neg h

/-- CLAMP and HIGHZ in STOP and in every other mode. -/
theorem answers_hold {op drive : Nat} (hc : exec c s = .next (whole (jtagDev (jtagHoldD op drive)) s)) (hr : s.dev.released = true)
    (hq : s.dev.fc.stopReq = false) (hheld : s.dev.jtag.held = 0) (hm : s.dev.mode = modeSTOP) :
    Answers c s fun t => t.dev.jtag.ir = op ∧ t.dev.jtag.drive = drive := by
  refine answers_mono (answers_port (move_hold op drive) hc hr hq hheld) ?_
  rw [jtagHoldD_stop _ _ hm]
  rintro t ⟨hjtag, -⟩
  rw [hjtag]
  exact ⟨rfl, rfl⟩

theorem answers_hold_refused {op drive : Nat} (hc : exec c s = .next (whole (jtagDev (jtagHoldD op drive)) s))
    (hr : s.dev.released = true) (hq : s.dev.fc.stopReq = false) (hheld : s.dev.jtag.held = 0) (hm : s.dev.mode ≠ modeSTOP) :
    Answers c s fun t => t.dev.jtag.ir = 0xFF ∧ t.dev.jtag.refused = true := by
  refine answers_mono (answers_port (move_hold op drive) hc hr hq hheld) ?_
  rw [jtagHoldD_refused _ _ hm]
  rintro t ⟨hjtag, -⟩
  rw [hjtag]
  exact ⟨rfl, rfl⟩

/-- An opcode that is not assigned is carried out as BYPASS. -/
theorem exec_jtagBypass (op : BitVec 8) (s : State) (h : jtagAssigned op.toNat = false) :
    exec (.jtagBypass op) s = .next (whole (jtagDev (jtagPass 0xFF false 0)) s) :=
  if_pos (show (!jtagAssigned op.toNat) = true by rw [h]; rfl)

theorem exec_jtagBypass_assigned (op : BitVec 8) (s : State) (h : jtagAssigned op.toNat = true) :
    exec (.jtagBypass op) s = .fault .illFormed :=
  if_neg (show ¬ (!jtagAssigned op.toNat) = true by rw [h]; exact Bool.false_ne_true)

/-! ## The boundary register (R447) -/

theorem boundaryCells_length : boundaryCells.length = 71 := by decide

/-- A driven ball's data cell has its control cell next to it. -/
theorem boundaryCells_control (i : Nat) (b : BoundaryCell) (hb : boundaryCells[i]? = some b) (hdata : b.control = false)
    (hdrive : b.kind.driven = true) : boundaryCells[i + 1]? = some { b with control := true } ∧
      controlCells.getLsbD (i + 1) = true ∧ controlCells.getLsbD i = false := by
  have hcells : ∀ i : Fin 71, ∀ b ∈ boundaryCells[i.val]?, b.control = false → b.kind.driven = true →
      boundaryCells[i.val + 1]? = some { b with control := true } ∧
        controlCells.getLsbD (i.val + 1) = true ∧ controlCells.getLsbD i.val = false := by decide
  have hi : i < 71 := boundaryCells_length ▸ (List.getElem?_eq_some_iff.mp hb).1
  exact hcells ⟨i, hi⟩ b hb hdata hdrive

/-- What EXTEST makes of a ball depends on the state of the port alone. -/
theorem jtagDrives_extest {i : Nat} {x : BoundaryCell} (hx : boundaryCells[i]? = some x) (hdata : x.control = false)
    (hdrive : x.kind.driven = true) (h : d.jtag.drive = 1) : jtagDrives i d =
      if d.jtag.boundary.getLsbD (i + 1) then .level (d.jtag.boundary.getLsbD i) else .highZ := by
  simp [jtagDrives, hx, hdata, hdrive, h]

/-- Settles O56: a scan that JTAG_TRST_N lets through does what its instruction says in the mode at hand. -/
theorem jtagPort : Obligations.JtagPort := by
  unfold Obligations.JtagPort
  intro s hr hq
  refine ⟨?reset, ?held, boundaryCells_length, boundaryCells_control, fun hheld balls b => ⟨fun hm => ?_, fun hm => ?_, ?_⟩,
    fun hheld hm => ⟨answers_hold rfl hr hq hheld hm, answers_hold rfl hr hq hheld hm⟩,
    fun hheld hm => ⟨answers_hold_refused rfl hr hq hheld hm, answers_hold_refused rfl hr hq hheld hm⟩, fun op => ⟨fun hheld hop => ?_, exec_jtagBypass_assigned op s⟩, ?keeps⟩
  case reset =>
    refine answers_within_still rfl hr hq (quiet_jtagReset (quiet_refl _)) fun e he => ?_
    have hjtag : e.jtag = (jtagReset s.dev).jtag := he.parts .jtag (by simp)
    dsimp only
    rw [hjtag]
    exact ⟨rfl, rfl, rfl⟩
  case held =>
    rintro hheld c (⟨x, rfl⟩ | ⟨x, b, rfl⟩ | rfl | rfl | rfl | ⟨op, rfl, hop⟩)
    case inr.inr.inr.inr.inr =>
      exact answers_mono (answers_scan_held (exec_jtagBypass op s hop) hr hq hheld) fun _ ⟨hjtag, hsent, _⟩ => ⟨hjtag, hsent⟩
    all_goals exact answers_mono (answers_scan_held rfl hr hq hheld) fun _ ⟨hjtag, hsent, _⟩ => ⟨hjtag, hsent⟩
  case keeps =>
    rintro c t (rfl | ⟨x, rfl⟩ | ⟨x, b, rfl⟩ | rfl | rfl | rfl | ⟨op, rfl⟩) hx
    · exact (keeps_jtagReset hr hq).of_next hx
    · exact (keeps_port (move_extest x) rfl hr hq).of_next hx
    · exact (keeps_port (move_sample x b) rfl hr hq).of_next hx
    · exact (keeps_port move_id rfl hr hq).of_next hx
    · exact (keeps_port (move_hold 0x03 1) rfl hr hq).of_next hx
    · exact (keeps_port (move_hold 0x04 2) rfl hr hq).of_next hx
    · cases hop : jtagAssigned op.toNat
      · exact (keeps_port (move_pass 0xFF false 0) (exec_jtagBypass op s hop) hr hq).of_next hx
      · exact absurd ((exec_jtagBypass_assigned op s hop).symm.trans hx) nofun
  · refine answers_mono (answers_port (move_extest ⟨balls, b⟩) rfl hr hq hheld) ?_
    rw [jtagExtestD_stop _ hm]
    rintro t ⟨hjtag, hsent⟩
    rw [hjtag, hsent]
    refine ⟨rfl, rfl, rfl, rfl, rfl, fun i x hx hdata hdrive => ?_⟩
    rw [jtagDrives_extest hx hdata hdrive (by rw [hjtag]; rfl), hjtag]
    rfl
  · refine answers_mono (answers_port (move_extest ⟨balls, b⟩) rfl hr hq hheld) ?_
    rw [jtagExtestD_refused _ hm]
    rintro t ⟨hjtag, -⟩
    rw [hjtag]
    exact ⟨rfl, rfl, rfl, rfl⟩
  · refine answers_mono (answers_port (move_sample balls b) rfl hr hq hheld) ?_
    rintro t ⟨hjtag, hsent⟩
    rw [hjtag, hsent]
    exact ⟨rfl, rfl, rfl, rfl⟩
  · refine answers_mono (answers_port (move_pass 0xFF false 0) (exec_jtagBypass op s hop) hr hq hheld) ?_
    rintro t ⟨hjtag, hsent⟩
    rw [hjtag, hsent]
    exact ⟨rfl, rfl⟩

end Sys2Proof.Machine
end

section
/-! PROOFS. Register writes (R434, R440): whatever is written, neither the mode, nor a waiting STOP source, nor the network moves. -/

namespace Sys2Proof.Machine

variable {W : Nat → Prop} {S : Part → Prop} {d e : Dev}

/-- Room for every register but that of the mode, and for every part but the release from reset, the waiting STOP source and the
network. -/
structure WriteRoom (W : Nat → Prop) (S : Part → Prop) : Prop where
  regs : ∀ a, a ≠ GL_MODE → W a
  parts : ∀ p, p ≠ .stopReq → p ≠ .released → p ≠ .nt → S p

theorem calmWrites : WriteRoom calmRegs calmParts := ⟨fun _ h => h, fun p hq hr _ => by cases p <;> trivial⟩

/-- A footprint that leaves the network. -/
theorem writesBesideNet : WriteRoom (fun _ => True) (· ≠ .nt) := ⟨fun _ _ => trivial, fun _ _ _ h => h⟩

/-- What an accepted request for an injection does. -/
def injWritten (t i : Nat) (dbl go : Bool) (d : Dev) : Dev :=
  let d := ((d.put FC_INJ_TARGET t).putB FC_INJ_DOUBLE dbl).put FC_INJ_INST i
  if go then (({ d with fc := { d.fc with inj := some (t, dbl, i) } }).put FC_INJ_GO 1).bump FC_INJCNT_DONE else d

/-- The write of the request, before a refusal is counted. -/
def injShell (o : Origin) (w : Word) (d : Dev) : Bool × Dev :=
  shellWrite o .inj (!bitOf w.toNat 5 || injOk (w.toNat % 16) (bitOf w.toNat 4) (bitsOf w.toNat 8 13) d)
    (injWritten (w.toNat % 16) (bitsOf w.toNat 8 13) (bitOf w.toNat 4) (bitOf w.toNat 5)) d

theorem wrInj_eq (o : Origin) (w : Word) (d : Dev) : wrInj o w d =
    if bitOf w.toNat 5 ∧ ¬ (injShell o w d).1 then (false, (injShell o w d).2.bump FC_INJCNT_REFUSED) else injShell o w d := rfl

section writes
variable (U : WriteRoom W S)
include U

theorem WriteRoom.broad : BroadRoom W S where
  units a h := U.regs a (by unfold GL_MODE; omega)
  imgwr := U.regs _ (by decide)
  parts p hq hr _ _ _ _ hn := U.parts p hq hr hn

theorem WriteRoom.tm : S .tm := U.parts _ nofun nofun nofun

theorem WriteRoom.refuse (a : Nat) (h : refuseRegs a) : W a := U.regs a (calmRefuse a h)

theorem WriteRoom.clock : ClockRoom W S where
  toEvents := U.broad.events
  regs a h := U.regs a (by unfold GL_MODE; omega)
  refuse := U.refuse
  tm := U.tm

theorem WriteRoom.recorder : Room 0x8000 0x9000 W S where
  toEvents := U.broad.events
  regs a h := U.regs a (by unfold GL_MODE; omega)
  refuse := U.refuse

theorem WriteRoom.unit {b c : Nat} (h : Nat.ble 0x7000 b = true) : W (b + c) := U.regs _ (unit_calm (unit_ge h))

/-! ## The limit shell -/

/-- The footprint of a write of a group, whose effect may assume the mode, the origin and the chapter's rule. -/
theorem frame_shellEffect {o : Origin} {g : Group} {ok : Bool} {eff : Dev → Dev} {d : Dev}
    (h : d.writable = true → ok = true → Frame W S d (eff d)) : Frame W S d (shellWrite o g ok eff d).2 := by
  unfold shellWrite
  split
  next hc =>
    simp only [Bool.and_eq_true] at hc
    obtain ⟨⟨hw, -⟩, hok⟩ := hc
    exact h hw hok
  next => exact frame_refuse o U.broad.events U.refuse (frame_refl d)

/-! ## Registers with a rule of their own -/

theorem frame_wrPllCtl (o : Origin) (p : Pll) (w : Word) (d : Dev) : Frame W S d (wrPllCtl o p w d).2 := by
  have K := U.broad
  have ht := U.tm
  refine frame_shellEffect U fun _ hok => frame_ite ?_ (frame_refl _)
  have hidle : d.mode = modeIDLE := by
    simp only [Bool.and_eq_true, beq_iff_eq] at hok
    exact hok.1
  have happly {W : Nat → Prop} {S : Part → Prop} (K : BroadRoom W S) (ht : S .tm) : Frame W S d (pllGate p (pllApply p d)) :=
    frame_pllGate K ht p (frame_pllApply K ht p (frame_refl d))
  have hmode : (pllGate p (pllApply p d)).mode = modeIDLE := (quiet_of_frame (happly calmBroad trivial)).1.trans hidle
  exact frame_ite (frame_pllStart K ht p (frame_gateEffect K p false (.inl hmode) (happly K ht)))
    (frame_put _ _ (K.units _ (by cases p <;> decide)) (frame_wide_onPll ht p _ (frame_pllPend K p (frame_refl d))))

theorem frame_wrPllDiv0 (o : Origin) (p : Pll) (w : Word) (d : Dev) : Frame W S d (wrPllDiv0 o p w d).2 :=
  frame_shellEffect U fun _ _ => frame_pllPend U.broad p (frame_put _ _ (U.broad.units _ (by cases p <;> decide))
    (frame_put _ _ (U.broad.units _ (by cases p <;> decide)) (frame_refl d)))

theorem frame_wrPllDiv1 (o : Origin) (p : Pll) (w : Word) (d : Dev) : Frame W S d (wrPllDiv1 o p w d).2 :=
  frame_shellEffect U fun _ _ => frame_pllPend U.broad p (frame_put _ _ (U.broad.units _ (by cases p <;> decide)) (frame_refl d))

theorem frame_injWritten (t i : Nat) (dbl go : Bool) (d : Dev) : Frame W S d (injWritten t i dbl go d) := by
  have hinj : W FC_INJ := U.regs _ (by decide)
  have hcnt : W FC_INJCNT := U.regs _ (by decide)
  have hset : Frame W S d (((d.put FC_INJ_TARGET t).putB FC_INJ_DOUBLE dbl).put FC_INJ_INST i) :=
    frame_put _ _ hinj (frame_putB _ _ hinj (frame_put _ _ hinj (frame_refl d)))
  exact frame_ite (frame_bump _ _ hcnt (frame_put _ _ hinj
    (frame_setInj _ U.broad.events.fc (U.parts _ nofun nofun nofun) rfl hset))) hset

theorem frame_wrInj (o : Origin) (w : Word) (d : Dev) : Frame W S d (wrInj o w d).2 := by
  have hshell : Frame W S d (injShell o w d).2 := frame_shellEffect U fun _ _ => frame_injWritten U _ _ _ _ d
  rw [wrInj_eq]
  split
  next => exact frame_bump _ _ (U.regs _ (by decide)) hshell
  next => exact hshell

theorem frame_wrLnCtl (o : Origin) (l : Nat) (w : Word) (d : Dev) : Frame W S d (wrLnCtl o l w d).2 :=
  frame_shellEffect U fun _ _ => frame_lnCtlWritten (U.broad.laneChain l) w.toNat (frame_refl d)

theorem frame_wrTmxSel (o : Origin) (l : Nat) (w : Word) (d : Dev) : Frame W S d (wrTmxSel o l w d).2 :=
  frame_shellEffect U fun _ _ => frame_put _ _ ((U.broad.lane l).regs _ (by decide)) (frame_refl d)

theorem frame_wrDiagReq (o : Origin) (n : Nat) (w : Word) (d : Dev) : Frame W S d (wrDiagReq o n w d).2 := by
  have C := U.broad.cell n
  refine frame_shellEffect U fun _ _ => ?_
  have hreq : Frame W S d (((d.put (CE_DIAGREQ_CODE n) (w.toNat % 16)).putB (CE_DIAGREQ_INRUN n)
      (bitOf w.toNat 4)).put (CE_DIAGREQ_ARG n) (bitsOf w.toNat 16 16)) :=
    frame_put _ _ (C.regs _ (by decide)) (frame_putB _ _ (C.regs _ (by decide)) (frame_put _ _ (C.regs _ (by decide)) (frame_refl d)))
  exact frame_ite (frame_onCell n _ C.cells C.cell (frame_put _ _ (C.regs _ (by decide)) (frame_put _ _ (C.regs _ (by decide)) hreq))) hreq

theorem frame_wrCeCtl (o : Origin) (n : Nat) (w : Word) (d : Dev) : Frame W S d (wrCeCtl o n w d).2 := by
  have C := U.broad.cell n
  refine frame_shellEffect U fun _ _ => ?_
  have hrel : Frame W S d (if bitOf w.toNat 0 then d.onCell n fun c => { c with tRel := true } else d) :=
    frame_ite (frame_onCell n _ C.cells C.cell (frame_refl d)) (frame_refl d)
  exact frame_ite (frame_bypassTrig C 5 (frame_put _ _ (C.regs _ (by decide)) hrel)) hrel

theorem frame_wrModCtl (o : Origin) (g : Nat) (w : Word) (d : Dev) : Frame W S d (wrModCtl o g w d).2 := by
  have R := U.broad.region g
  have hregion : ∀ {e : Dev} (f : RegionSt → RegionSt), Frame W S d e → Frame W S d (e.onRegion g f) :=
    fun f => frame_onRegion g f R.regions R.region
  refine frame_shellEffect U fun _ _ => frame_ite ?_ ?_
  · have hput : Frame W S d (d.put (RG_MODCTL_HALT g) 1) := frame_put _ _ (R.regs _ (by decide)) (frame_refl d)
    exact frame_ite hput (frame_ite (hregion _ hput) (frame_ite (frame_haltSafe U.broad g hput) (hregion _ hput)))
  · have hput : Frame W S d (d.put (RG_MODCTL_HALT g) 0) := frame_put _ _ (R.regs _ (by decide)) (frame_refl d)
    exact frame_ite (hregion _ (frame_put _ _ (R.regs _ (by decide)) hput))
      (frame_ite (hregion _ hput) (frame_ite (hregion _ hput) hput))

theorem frame_wrPrbs (o : Origin) (l : Nat) (w : Word) (d : Dev) : Frame W S d (wrPrbs o l w d).2 :=
  have R := U.broad.lane l
  frame_shellEffect (eff := fun d => prbsFields l w.toNat (prbsRestart l w.toNat d)) U fun _ _ =>
    frame_prbsFields R w.toNat (frame_prbsRestart R w.toNat (frame_refl d))

theorem frame_wrAdInj (o : Origin) (a : Nat) (w : Word) (d : Dev) : Frame W S d (wrAdInj o a w d).2 := by
  have G := U.broad.group a
  refine frame_shellEffect U fun _ _ => ?_
  have hput : Frame W S d (d.put (AD_INJ_INPUT a) (w.toNat % 8)) := frame_put _ _ (U.unit rfl) (frame_refl d)
  exact frame_ite hput (frame_ite (frame_onGroup a _ G.groups G.group (frame_put (AD_INJ_GO a) 1 (U.unit rfl)
    (frame_bump (AD_INJCNT_ACCEPT a) 1 (U.unit rfl) hput))) (frame_bump (AD_INJCNT_DROP a) 1 (U.unit rfl) hput))

end writes

/-! ## Any register -/

/-- What the rule that a write may have answers. -/
def RuleAll (P : Bool × Dev → Prop) (r : Option (Bool × Dev)) : Prop := ∀ x, r = some x → P x

section rules
variable {P : Bool × Dev → Prop} {r r' : Option (Bool × Dev)} {x : Bool × Dev}

theorem ruleAll_none : RuleAll P none := fun _ h => absurd h (Option.some_ne_none _).symm

theorem ruleAll_some (h : P x) : RuleAll P (some x) := fun _ hx => Option.some.inj hx ▸ h

theorem ruleAll_if {p : Prop} [Decidable p] (h : p → P x) (k : RuleAll P r) : RuleAll P (if p then some x else r) := by
  split
  next hp => exact ruleAll_some (h hp)
  next => exact k

theorem ruleAll_unit {i : Option Nat} {f : Nat → Bool × Dev} (h : ∀ n, P (f n)) (k : RuleAll P r) :
    RuleAll P (match i with | some n => some (f n) | none => r) := by
  split
  · exact ruleAll_some (h _)
  · exact k

theorem ruleAll_map {i : Option Nat} {f : Nat → Bool × Dev} (h : ∀ n, P (f n)) : RuleAll P (i.map f) := by
  cases i with
  | none => exact ruleAll_none
  | some k => exact ruleAll_some (h k)

theorem ruleAll_orElse (h : RuleAll P r) (k : RuleAll P r') : RuleAll P (r.orElse fun _ => r') := by
  cases r with
  | none => exact k
  | some x => exact h

end rules

section any
variable (U : WriteRoom W S)
include U

theorem frame_wrChip (o : Origin) (a : Nat) (w : Word) (d : Dev) : RuleAll (fun x => Frame W S d x.2) (wrChip o a w d) :=
  have K := U.clock
  have refl := frame_refl (W := W) (S := S) d
  ruleAll_if (fun _ => frame_wrTmIncr K o w refl) <| ruleAll_if (fun _ => frame_wrTmAdj K o w refl) <|
  ruleAll_if (fun _ => frame_shellEffect U fun _ _ => frame_setTm _ U.tm refl) <|
  ruleAll_if (fun _ => frame_wrTmJumpLo K o w refl) <|
  ruleAll_if (fun _ => frame_wrPllCtl U o .t w d) <| ruleAll_if (fun _ => frame_wrPllCtl U o .s w d) <|
  ruleAll_if (fun _ => frame_wrPllDiv0 U o .t w d) <| ruleAll_if (fun _ => frame_wrPllDiv0 U o .s w d) <|
  ruleAll_if (fun _ => frame_wrPllDiv1 U o .t w d) <| ruleAll_if (fun _ => frame_wrPllDiv1 U o .s w d) <|
  ruleAll_if (fun _ => frame_wrSphs K o w refl) <| ruleAll_if (fun _ => frame_wrDrCtl U.recorder o w refl) <|
  ruleAll_if (fun _ => frame_wrInj U o w d) ruleAll_none

theorem frame_wrUnit (o : Origin) (a : Nat) (w : Word) (d : Dev) : RuleAll (fun x => Frame W S d x.2) (wrUnit o a w d) :=
  ruleAll_unit (fun l => frame_wrLnCtl U o l w d) <| ruleAll_unit (fun l => frame_wrPrbs U o l w d) <|
  ruleAll_unit (fun l => frame_wrTmxSel U o l w d) <| ruleAll_unit (fun g => frame_wrAdInj U o g w d) <|
  ruleAll_unit (fun n => frame_wrDiagReq U o n w d) <| ruleAll_unit (fun n => frame_wrCeCtl U o n w d) <|
  ruleAll_map fun g => frame_wrModCtl U o g w d

/-- The flags of a register but the mode clear. -/
theorem frame_clearFlags (a ones : Nat) (ha : a ≠ GL_MODE) (h : Frame W S d e) : Frame W S d (clearFlags a ones e) := by
  rw [clearFlags_eq_foldl]
  refine frame_foldl _ _ (fun b i _ hb => ?_) h
  have hset : Frame W S d (b.setWord a (BitVec.ofNat 32 (clrBit (b.word a).toNat i))) := frame_setWord _ _ (U.regs a ha) hb
  exact frame_ite (frame_ite (frame_setFc _ U.broad.events.fc ⟨rfl, rfl, rfl⟩ hset) hset) hb

end any

/-- The bits of a register that a write may reach, and those that must not be written with 1 while they read 1. -/
def writableMask (r : RegDef) : Word := r.mask fun x => x == .rw || x == .w1c || x == .wo || x == .sc
def scMask (a : Nat) (r : RegDef) : Word :=
  if a = FC_INJ ∨ (instAt (AD_INJ 0) 0x40 4 a).isSome then 0 else r.mask fun x => x == .sc

/-- A word that a register refuses, whoever writes it (R28). -/
def badWrite (a : Nat) (r : RegDef) (w : Word) (d : Dev) : Prop :=
  writableMask r = 0 ∨ w &&& r.mask (fun x => x == .res) ≠ 0 ∨ w &&& scMask a r &&& regWord a d ≠ 0

/-- What a register does with any other word. -/
def writeRule (o : Origin) (a : Nat) (r : RegDef) (w : Word) (d : Dev) : Bool × Dev :=
  match (wrChip o a w d).orElse fun _ => wrUnit o a w d with
  | some x => x
  | none => wrFlags o a (w &&& r.mask fun x => x == .w1c).toNat d

theorem writeReg_unmapped (o : Origin) {a : Nat} (w : Word) (d : Dev) (h : regAt a = none) : writeReg o a w d = (false, d.refuse o) := by
  unfold writeReg
  rw [h]

theorem writeReg_bad (o : Origin) {a : Nat} {r : RegDef} {w : Word} {d : Dev} (hr : regAt a = some r) (h : badWrite a r w d) :
    writeReg o a w d = (false, if a = FC_INJ ∧ bitOf w.toNat 5 then (d.refuse o).bump FC_INJCNT_REFUSED else d.refuse o) := by
  unfold writeReg
  rw [hr]
  exact if_pos h

theorem writeReg_rule (o : Origin) {a : Nat} {r : RegDef} {w : Word} {d : Dev} (hr : regAt a = some r) (h : ¬ badWrite a r w d) :
    writeReg o a w d = writeRule o a r w d := by
  unfold writeReg
  rw [hr]
  exact if_neg h

/-- No field of GL_MODE may be written. -/
theorem glMode_readOnly {r : RegDef} (h : regAt GL_MODE = some r) : writableMask r = 0 := by
  have hmap : (regAt GL_MODE).map writableMask = some 0 := by decide
  rw [h] at hmap
  exact Option.some.inj hmap

section all
variable (U : WriteRoom W S)
include U

theorem frame_writeRule (o : Origin) {a : Nat} (r : RegDef) (w : Word) (d : Dev) (ha : a ≠ GL_MODE) :
    Frame W S d (writeRule o a r w d).2 := by
  have hrule := ruleAll_orElse (frame_wrChip U o a w d) (frame_wrUnit U o a w d)
  unfold writeRule
  split
  next x hx => exact hrule x hx
  next => exact frame_shellEffect U fun _ _ => frame_clearFlags U _ _ ha (frame_refl d)

/-- A write of any word to any address, by any origin. -/
theorem frame_writeReg (o : Origin) (a : Nat) (w : Word) (d : Dev) : Frame W S d (writeReg o a w d).2 := by
  have hrefuse : Frame W S d (d.refuse o) := frame_refuse o U.broad.events U.refuse (frame_refl d)
  cases hr : regAt a with
  | none =>
    rw [writeReg_unmapped o w d hr]
    exact hrefuse
  | some r =>
    by_cases hbad : badWrite a r w d
    · rw [writeReg_bad o hr hbad]
      exact frame_ite (frame_bump _ 1 (U.regs _ (by decide)) hrefuse) hrefuse
    · rw [writeReg_rule o hr hbad]
      exact frame_writeRule U o r w d fun ha => hbad (.inl (glMode_readOnly (ha ▸ hr)))

theorem frame_writeRegs (o : Origin) (ws : List Word) : ∀ (a : Nat) (d : Dev), Frame W S d (writeRegs o a ws d).2 := by
  induction ws with
  | nil => exact fun _ d => frame_refl d
  | cons w ws ih =>
    intro a d
    have hfirst := frame_writeReg U o a w d
    unfold writeRegs
    dsimp only
    split
    · exact frame_trans hfirst (ih (a + 4) _)
    · exact hfirst

end all

theorem quiet_writeReg (o : Origin) (a : Nat) (w : Word) (d : Dev) : Quiet d (writeReg o a w d).2 :=
  quiet_of_frame (frame_writeReg calmWrites o a w d)

theorem quiet_writeRegs (o : Origin) (ws : List Word) (a : Nat) (d : Dev) : Quiet d (writeRegs o a ws d).2 :=
  quiet_of_frame (frame_writeRegs calmWrites o ws a d)

/-- What is written does not reach the network. -/
theorem writeRegs_nt (o : Origin) (ws : List Word) (a : Nat) (d : Dev) : (writeRegs o a ws d).2.nt = d.nt :=
  (frame_writeRegs writesBesideNet o ws a d).parts .nt fun k => k rfl

end Sys2Proof.Machine
end

section
/-! PROOFS. Frames of the maintenance port (R438-R443, O54). -/

namespace Sys2Proof.Machine

variable {c : Instr} {s : State} {P : State → Prop} {f : List Byte}

/-! ## The first millisecond (R437, R438) -/

theorem afterFirstMs_early {g : State → State} (h : inFirstMs s.dev = true) : afterFirstMs g s =
    { s with dev := { s.dev with su := { s.dev.su with early := s.dev.su.early + 1 } } } := if_pos h

theorem frame_early (d : Dev) : Frame (fun _ => False) (· = .su) d { d with su := { d.su with early := d.su.early + 1 } } :=
  frame_setSu _ rfl (frame_refl d)

/-- In the first millisecond no frame is answered and no register changes but the trip outputs. -/
theorem answers_early {g : State → State} (hc : exec c s = .next (whole (afterFirstMs g) s)) (hr : s.dev.released = true)
    (hq : s.dev.fc.stopReq = false) (h : inFirstMs s.dev = true) : Answers c s fun t =>
      t.dev.sent = s.dev.sent ∧ s.dev.keepsWords sideRegs t.dev ∧ s.keepsRest t := by
  have hd := frame_early s.dev
  have heq := afterFirstMs_early (g := g) h
  refine answers_whole_still hc hr hq (heq ▸ hd.quiet id (by simp) (by simp)) fun e he => ?_
  rw [heq] at he ⊢
  exact ⟨(he.parts .sent (by simp)).trans (hd.parts .sent (by simp)),
    fun a ha => (he.words a fun k => ha (.inr (.inr k))).trans (hd.words a id), rfl, rfl, rfl, rfl, rfl⟩

/-! ## Whole frames -/

/-- A frame that is whole, past the first millisecond, is what its header says. -/
theorem mpFrame_whole (hid : f.take 1 ≠ [0x9F]) (hw : mpWhole f = true) : mpFrame f s =
    if mpCheck f (mpCount s).dev ≠ 0 then mpRejected (mpCheck f (mpCount s).dev) (mpCount s)
    else if mpCmd f = 0x0B then
      mpSend (mpReadAnswer (readWords .mp (mpNw f) (mpAddr f) (mpCount s)).1) (readWords .mp (mpNw f) (mpAddr f) (mpCount s)).2
    else mpSend (mpWriteAnswer (writeRegs .mp (mpAddr f) (wordsBE (mpNw f) (mpData f)) (mpCount s).dev).1 (mpNw f))
      { mpCount s with dev := (writeRegs .mp (mpAddr f) (wordsBE (mpNw f) (mpData f)) (mpCount s).dev).2 } := by
  unfold mpFrame
  rw [if_neg hid, if_neg (by rw [hw]; decide)]

/-- A frame that is cut off has no effect (R443). -/
theorem mpFrame_cut (hid : f.take 1 ≠ [0x9F]) (hw : mpWhole f = false) : mpFrame f s = s := by
  unfold mpFrame
  rw [if_neg hid, if_pos (by rw [hw]; decide)]

theorem quiet_mpCount (s : State) : Quiet s.dev (mpCount s).dev := quiet_put _ _ (quiet_refl _) (by decide)

theorem mpFrame_read (hid : f.take 1 ≠ [0x9F]) (hw : mpWhole f = true) (hk : mpCheck f (mpCount s).dev = 0) (hcmd : mpCmd f = 0x0B) :
    mpFrame f s = mpSend (mpReadAnswer (readWords .mp (mpNw f) (mpAddr f) (mpCount s)).1)
      (readWords .mp (mpNw f) (mpAddr f) (mpCount s)).2 := by
  rw [mpFrame_whole hid hw, if_neg (not_not_intro hk), if_pos hcmd]

theorem mpFrame_write (hid : f.take 1 ≠ [0x9F]) (hw : mpWhole f = true) (hk : mpCheck f (mpCount s).dev = 0) (hcmd : mpCmd f = 0x02) :
    mpFrame f s = mpSend (mpWriteAnswer (writeRegs .mp (mpAddr f) (wordsBE (mpNw f) (mpData f)) (mpCount s).dev).1 (mpNw f))
      { mpCount s with dev := (writeRegs .mp (mpAddr f) (wordsBE (mpNw f) (mpData f)) (mpCount s).dev).2 } := by
  rw [mpFrame_whole hid hw, if_neg (not_not_intro hk), if_neg (by rw [hcmd]; decide)]

theorem mpFrame_rejected (hid : f.take 1 ≠ [0x9F]) (hw : mpWhole f = true) (hk : mpCheck f (mpCount s).dev ≠ 0) :
    mpFrame f s = mpRejected (mpCheck f (mpCount s).dev) (mpCount s) := by
  rw [mpFrame_whole hid hw, if_pos hk]

/-- What a frame answers past the first millisecond: the last word sent is its own. -/
theorem answers_mpSent {bs : List Byte} {u : State} (hc : exec c s = .next (whole (afterFirstMs (mpFrame f)) s))
    (hr : s.dev.released = true) (hq : s.dev.fc.stopReq = false) (hms : inFirstMs s.dev = false) (hf : mpFrame f s = mpSend bs u)
    (q : Quiet s.dev u.dev) : Answers c s fun t => t.dev.sent.head? = some (.mp bs) := by
  have heq : afterFirstMs (mpFrame f) s = mpSend bs u := (afterFirstMs_past hms).trans hf
  refine answers_whole_still hc hr hq (heq ▸ quiet_send _ q) fun e he => ?_
  rw [heq] at he
  exact congrArg List.head? (he.parts .sent (by simp))

/-! ## Rejected requests (R441, Table 18.6) -/

/-- A rejected request is counted by the port, and answered with its status. -/
theorem frame_mpRejected (k : Nat) (s : State) :
    Frame (fun a => a = GL_MPCNT ∨ a = GL_MPSTAT) (· = .sent) s.dev (mpRejected k (mpCount s)).dev := by
  have hcount : Frame (fun a => a = GL_MPCNT ∨ a = GL_MPSTAT) (· = .sent) s.dev (mpCount s).dev :=
    frame_count _ _ (.inl rfl) (frame_refl _)
  exact frame_send _ rfl (frame_ite (frame_bump _ _ (.inr rfl) hcount) (frame_ite (frame_bump _ _ (.inr rfl) hcount) hcount))

theorem mpRejected_sent (k : Nat) (s : State) : (mpRejected k (mpCount s)).dev.sent = .mp (mpReject k) :: s.dev.sent := by
  have hd : ∀ d : Dev, d.sent = s.dev.sent → (d.send (.mp (mpReject k))).sent = .mp (mpReject k) :: s.dev.sent := fun d h =>
    congrArg _ h
  refine hd _ ?_
  split
  · rfl
  · split <;> rfl

theorem answers_mpRejected (hr : s.dev.released = true) (hq : s.dev.fc.stopReq = false) (hms : inFirstMs s.dev = false)
    (hid : f.take 1 ≠ [0x9F]) (hw : mpWhole f = true) (hk : mpCheck f (mpCount s).dev ≠ 0) : Answers (.mpRead f) s fun t =>
      t.dev.sent = .mp (mpReject (mpCheck f (mpCount s).dev)) :: s.dev.sent ∧
      s.dev.keepsWords (fun a => a = GL_MPCNT ∨ a = GL_MPSTAT ∨ sideRegs a) t.dev := by
  have heq : afterFirstMs (mpFrame f) s = mpRejected (mpCheck f (mpCount s).dev) (mpCount s) :=
    (afterFirstMs_past hms).trans (mpFrame_rejected hid hw hk)
  have hd := frame_mpRejected (mpCheck f (mpCount s).dev) s
  refine answers_whole_still rfl hr hq (heq ▸ hd.quiet (by decide) (by simp) (by simp)) fun e he => ?_
  rw [heq] at he
  refine ⟨(he.parts .sent (by simp)).trans (mpRejected_sent _ s), fun a ha => ?_⟩
  refine (he.words a fun k => ha (.inr (.inr (.inr (.inr k))))).trans (hd.words a fun k => ha ?_)
  exact k.elim .inl fun k => .inr (.inl k)

/-! ## Frames that end early (R443) -/

theorem answers_mpCut (hr : s.dev.released = true) (hq : s.dev.fc.stopReq = false) (hid : f.take 1 ≠ [0x9F])
    (hw : mpWhole f = false) : Answers (.mpRead f) s fun t => t.dev.sent = s.dev.sent := by
  cases hms : inFirstMs s.dev
  case true => exact answers_mono (answers_early rfl hr hq hms) fun _ h => h.1
  case false =>
    have heq : afterFirstMs (mpFrame f) s = s := (afterFirstMs_past hms).trans (mpFrame_cut hid hw)
    refine answers_whole_still rfl hr hq (heq.symm ▸ quiet_refl _) fun e he => ?_
    rw [heq] at he
    exact he.parts .sent (by simp)

theorem answers_mpFrameAbort (hr : s.dev.released = true) (hq : s.dev.fc.stopReq = false) : Answers .mpFrameAbort s fun t =>
    t.dev.sent = s.dev.sent ∧ s.dev.keepsWords sideRegs t.dev ∧ s.keepsRest t := by
  refine answers_within_still (f := fun d => d) rfl hr hq (quiet_refl _) fun e he => ?_
  exact ⟨he.parts .sent (by simp), fun a ha => he.words a fun k => ha (.inr (.inr k)), rfl, rfl, rfl, rfl, rfl⟩

/-- Settles O54: what a frame does is settled by its length, its header and the checks of R441, in every mode. -/
theorem maintenancePort : Obligations.MaintenancePort := by
  unfold Obligations.MaintenancePort
  intro f s hr hq hid
  refine ⟨fun hms => ?_, fun hw hms => ⟨fun hk hcmd => ?_, fun hk hcmd => ?_, fun hk => ⟨rfl, answers_mpRejected hr hq hms hid hw hk⟩⟩,
    answers_mpCut hr hq hid, answers_mpFrameAbort hr hq⟩
  · rintro c (rfl | rfl | rfl)
    all_goals exact answers_early rfl hr hq hms
  · exact answers_mpSent rfl hr hq hms (mpFrame_read hid hw hk hcmd)
      (quiet_trans (quiet_mpCount s) (quiet_readWords .mp _ _ _ (quiet_refl _)))
  · exact answers_mpSent rfl hr hq hms (mpFrame_write hid hw hk hcmd)
      (quiet_trans (quiet_mpCount s) (quiet_writeRegs .mp _ _ _))

end Sys2Proof.Machine
end

section
/-! PROOFS. The register map at the registers of units: which row an address finds, whatever the unit's number is. -/

namespace Sys2Proof.Machine

/-! ## Rows that an address range cannot hit -/

/-- The last offset at which the instances of some dimensions start. -/
def dimsSpan : List (Nat × Nat) → Nat
  | [] => 0
  | (st, ct) :: ds => st * (ct - 1) + dimsSpan ds

theorem dimsHit_le : ∀ (ds : List (Nat × Nat)) (r : Nat), dimsHit ds r = true → r ≤ dimsSpan ds
  | [], r, h => Nat.le_of_eq (beq_iff_eq.mp h)
  | (st, ct) :: ds, r, h => by
    simp only [dimsHit, Bool.and_eq_true, decide_eq_true_eq] at h
    obtain ⟨hlt, hrest⟩ := h
    calc r = st * (r / st) + r % st := (Nat.div_add_mod r st).symm
      _ ≤ st * (ct - 1) + dimsSpan ds := Nat.add_le_add (Nat.mul_le_mul_left st (by omega)) (dimsHit_le ds _ hrest)

/-- A row lies outside the range of `count` instances from `base`, or none of its instances, of the same stride, reaches one of
them. -/
def rowMisses (base stride count : Nat) (r : RegDef) : Bool :=
  decide (r.base + dimsSpan r.dims < base) || decide (base + stride * (count - 1) < r.base) ||
    match r.dims with
    | (st, _) :: ds => decide (st = stride ∧ 0 < st ∧ dimsSpan ds < (base + st - r.base % st) % st)
    | _ => false

/-- Where an instance lies within the stride of a row that starts elsewhere. -/
theorem offset_mod {a b base st n : Nat} (hst : 0 < st) (ha : a = base + st * n) (h : b ≤ a) :
    (a - b) % st = (base + st - b % st) % st := by
  have hb : b % st ≤ base + st := Nat.le_trans (Nat.le_of_lt (Nat.mod_lt b hst)) (Nat.le_add_left st base)
  refine Nat.ModEq.add_right_cancel' (b % st) ?_
  have hleft : (a - b) + b % st ≡ a [MOD st] := by
    have := (Nat.ModEq.refl (n := st) (a - b)).add (Nat.mod_modEq b st)
    rwa [Nat.sub_add_cancel h] at this
  have hright : base + st - b % st + b % st ≡ base [MOD st] := by
    rw [Nat.sub_add_cancel hb]
    exact Nat.add_modEq_right
  have hsame : a ≡ base [MOD st] := by
    rw [ha]
    exact Nat.add_mul_mod_self_left base st n
  exact hleft.trans (hsame.trans hright.symm)

/-- An address hits a row. -/
def rowHit (a : Nat) (r : RegDef) : Bool := decide (r.base ≤ a) && dimsHit r.dims (a - r.base)

theorem rowMisses_sound {base stride count n : Nat} {r : RegDef} (h : rowMisses base stride count r = true) (hn : n < count) :
    rowHit (base + stride * n) r = false := by
  refine Bool.eq_false_iff.mpr fun hit => ?_
  simp only [rowHit, Bool.and_eq_true, decide_eq_true_eq] at hit
  obtain ⟨hlow, hdims⟩ := hit
  have hspan := dimsHit_le _ _ hdims
  have htop : stride * n ≤ stride * (count - 1) := Nat.mul_le_mul_left stride (by omega)
  simp only [rowMisses, Bool.or_eq_true, decide_eq_true_eq] at h
  rcases h with (h | h) | h
  · omega
  · omega
  · split at h
    next st ct ds hd =>
      obtain ⟨rfl, hst, hgap⟩ := of_decide_eq_true h
      rw [hd] at hdims
      simp only [dimsHit, Bool.and_eq_true, decide_eq_true_eq] at hdims
      have hrest := dimsHit_le _ _ hdims.2
      rw [offset_mod hst rfl hlow] at hrest
      omega
    next => exact absurd h Bool.false_ne_true

/-- The row of the instances from `base`: the first one that is not passed over. -/
def unitRow (base stride count : Nat) : Option RegDef := (regMap.dropWhile (rowMisses base stride count)).head?

theorem find_of_dropWhile {α : Type} {p q : α → Bool} {x : α} (h : ∀ a, q a = true → p a = false) (hp : p x = true) :
    ∀ l : List α, (l.dropWhile q).head? = some x → l.find? p = some x
  | a :: l, hl => by
    rw [List.dropWhile_cons] at hl
    split at hl
    next hq => rw [List.find?_cons_of_neg (by rw [h a hq]; exact Bool.false_ne_true)]; exact find_of_dropWhile h hp l hl
    next =>
      obtain rfl : a = x := Option.some.inj hl
      exact List.find?_cons_of_pos hp

/-- An instance of a register of units finds the row of that register. -/
theorem regAt_unit {base stride count n : Nat} {r : RegDef} (hr : unitRow base stride count = some r) (hb : r.base = base)
    (hd : r.dims = [(stride, count)]) (hs : 0 < stride) (hn : n < count) : regAt (base + stride * n) = some r := by
  refine find_of_dropWhile (fun a ha => rowMisses_sound ha hn) ?_ regMap hr
  have hoff : base + stride * n - base = stride * n := Nat.add_sub_cancel_left ..
  unfold rowHit
  rw [hb, hd, hoff]
  simp [dimsHit, Nat.mul_div_cancel_left n hs, hn]

/-! ## Registers that may be written -/

/-- A register has a row with a writable field. -/
def Writable (a : Nat) : Prop := ∃ r, regAt a = some r ∧ writableMask r ≠ 0

theorem writable_of_any {a : Nat} (h : (regAt a).any (fun r => writableMask r != 0) = true) : Writable a := by
  obtain ⟨r, hr, hw⟩ := (Option.any_eq_true _ _).mp h
  exact ⟨r, hr, bne_iff_ne.mp hw⟩

theorem writable_unit {base stride count n : Nat} (hs : 0 < stride) (hn : n < count)
    (h : (unitRow base stride count).any (fun r => decide (r.base = base ∧ r.dims = [(stride, count)] ∧ writableMask r ≠ 0)) = true) :
    Writable (base + stride * n) := by
  obtain ⟨r, hr, hrow⟩ := (Option.any_eq_true _ _).mp h
  obtain ⟨hb, hd, hw⟩ := of_decide_eq_true hrow
  exact ⟨r, regAt_unit hr hb hd hs hn, hw⟩

theorem writable_lnCtl {l : Nat} (hl : l < 130) : Writable (LN_CTL l) := writable_unit (by decide) hl (by decide)
theorem writable_lnPrbsCtl {l : Nat} (hl : l < 130) : Writable (LN_PRBSCTL l) := writable_unit (by decide) hl (by decide)
theorem writable_adInj {a : Nat} (ha : a < 4) : Writable (AD_INJ a) := writable_unit (by decide) ha (by decide)
theorem writable_diagReq {n : Nat} (hn : n < 8192) : Writable (CE_DIAGREQ n) := writable_unit (by decide) hn (by decide)
theorem writable_ceCtl {n : Nat} (hn : n < 8192) : Writable (CE_CTL n) := writable_unit (by decide) hn (by decide)
theorem writable_modCtl {g : Nat} (hg : g < 8) : Writable (RG_MODCTL g) := writable_unit (by decide) hg (by decide)

end Sys2Proof.Machine
end

section
/-! PROOFS. Writes that are refused (R28, R350, R437), and reserved addresses (R25, O59). -/

namespace Sys2Proof.Machine

variable {o : Origin} {s : State} {d e : Dev}

/-! ## A refusal is collected -/

theorem collected_refuse (o : Origin) (d : Dev) : (d.refuse o).collected o := by
  unfold Dev.collected
  split
  next ho => exact ho ▸ (refuse_sup d).1
  next ho => exact refuse_wref o d ho

/-- What collects a refusal is read from two registers. -/
theorem collected_congr (h1 : e.word SV_EVT = d.word SV_EVT) (h2 : e.word FC_CHIP = d.word FC_CHIP) (h : d.collected o) :
    e.collected o := by
  unfold Dev.collected at h ⊢
  split at h
  next ho => rw [if_pos ho, flag_congr (get_congr e d SV_EVT_SUPREF h1)]; exact h
  next ho => rw [if_neg ho, flag_congr (get_congr e d FC_CHIP_WREF h2)]; exact h

/-- The parts that an event reaches: the collection of faults and the recorder. -/
def eventParts (p : Part) : Prop := p = .fc ∨ p = .dr

/-- The registers that a refusal may change, and those of a request for an injection besides. -/
def refusedRegs (a x : Nat) : Prop := refuseRegs x ∨ sideRegs x ∨ (a = FC_INJ ∧ x = FC_INJCNT)

/-- A write was refused: collected, and nothing else has changed but what every command may change. -/
structure Refused (o : Origin) (a : Nat) (d e : Dev) : Prop where
  collected : e.collected o
  frame : Frame (refusedRegs a) eventParts d e

theorem refusedEvents (a : Nat) : Events (refusedRegs a) eventParts :=
  ⟨.inr (.inl (.inl rfl)), .inr (.inl (.inr (.inl rfl))), .inl rfl, .inr rfl⟩

theorem refused_refuse (o : Origin) (a : Nat) (d : Dev) : Refused o a d (d.refuse o) :=
  ⟨collected_refuse o d, frame_refuse o (refusedEvents a) (fun _ => .inl) (frame_refl d)⟩

/-- A refused request for an injection is counted besides (R303). -/
theorem Refused.counted (h : Refused o FC_INJ d e) : Refused o FC_INJ d (e.bump FC_INJCNT_REFUSED) where
  collected := collected_congr (word_put_ne _ _ _ _ (by decide)) (word_put_ne _ _ _ _ (by decide)) h.collected
  frame := frame_bump _ 1 (.inr (.inr ⟨rfl, rfl⟩)) h.frame

/-! ## Writes that are always refused -/

theorem writeReg_unmapped_refused {a : Nat} (w : Word) (h : regAt a = none) : Refused o a d (writeReg o a w d).2 := by
  rw [writeReg_unmapped o w d h]
  exact refused_refuse o a d

theorem writeReg_bad_refused {a : Nat} {r : RegDef} {w : Word} (hr : regAt a = some r) (h : badWrite a r w d) :
    Refused o a d (writeReg o a w d).2 := by
  rw [writeReg_bad o hr h]
  dsimp only
  split
  next hinj =>
    obtain ⟨rfl, -⟩ := hinj
    exact (refused_refuse o FC_INJ d).counted
  next => exact refused_refuse o a d

/-- What a refused write answers, in any mode of a released device. -/
theorem answers_refused (a : BitVec 32) (w : Word) (hr : s.dev.released = true) (hq : s.dev.fc.stopReq = false)
    (h : Refused o a.toNat s.dev (writeReg o a.toNat w s.dev).2) : Answers (.registerWrite o a w) s fun t =>
      t.dev.collected o ∧ s.dev.keepsWords (refusedRegs a.toNat) t.dev ∧ s.keepsRest t := by
  refine answers_within_still rfl hr hq (quiet_writeReg o a.toNat w s.dev) fun e he => ?_
  refine ⟨collected_congr (he.words _ (by decide)) (he.words _ (by decide)) h.collected, fun x hx => ?_, rfl, rfl, rfl, rfl, rfl⟩
  exact (he.words x fun k => hx (.inr (.inl (.inr (.inr k))))).trans (h.frame.words x hx)

/-- The same where the register is not that of injections. -/
theorem answers_refused_plain (a : BitVec 32) (w : Word) (ha : a.toNat ≠ FC_INJ) (hr : s.dev.released = true)
    (hq : s.dev.fc.stopReq = false) (h : Refused o a.toNat s.dev (writeReg o a.toNat w s.dev).2) :
    Answers (.registerWrite o a w) s fun t => t.dev.collected o ∧
      s.dev.keepsWords (fun x => refuseRegs x ∨ sideRegs x) t.dev ∧ s.keepsRest t := by
  refine answers_mono (answers_refused a w hr hq h) ?_
  rintro t ⟨hcol, hwords, hrest⟩
  refine ⟨hcol, fun x hx => hwords x ?_, hrest⟩
  rintro (k | k | k)
  · exact hx (.inl k)
  · exact hx (.inr k)
  · exact ha k.1

/-! ## Reserved addresses (R25) -/

theorem peekWord_reserved {a : Nat} (h : reservedAddr a) (s : State) : peekWord a s = 0 := by
  obtain ⟨hnone, htel, hrec⟩ := h
  unfold peekWord
  rw [if_neg htel, if_neg hrec, regWord, hnone]
  split <;> rfl

/-- A read by an origin without a snapshot of the word gives the word as it stands. -/
theorem readWord_fresh {a : Nat} (h : smGet (fun _ => []) s.dev.snaps (snapKey o a) = []) :
    (readWord o a s).1 = peekWord a s := by
  unfold readWord
  rw [h]
  dsimp only
  split
  · rfl
  · split <;> rfl

/-- Settles O59: no row of the map gives such an address a word, a rule or a field that may be written. -/
theorem reservedAddresses : Obligations.ReservedAddresses := by
  unfold Obligations.ReservedAddresses
  intro o a w s hres
  refine ⟨peekWord_reserved hres s, fun hsnap => (readWord_fresh hsnap).trans (peekWord_reserved hres s), fun h => ?_⟩
  obtain ⟨hr, -, hq⟩ := h
  have ha : a.toNat ≠ FC_INJ := fun ha => by
    have hnone : regAt FC_INJ = none := ha ▸ hres.1
    exact absurd hnone (by decide)
  exact answers_refused_plain a w ha hr hq (writeReg_unmapped_refused w hres.1)

end Sys2Proof.Machine
end

section
/-! PROOFS. Register writes and the commands that are writes of one register (R28, R350, R434, O60). -/

namespace Sys2Proof.Machine

variable {o : Origin} {s : State} {d : Dev} {a : Nat} {w : Word}

/-! ## Where the instances of units lie -/

theorem instAt_hit {base stride count n : Nat} (hs : 0 < stride) (hn : n < count) :
    instAt base stride count (base + stride * n) = some n := by
  have hoff : base + stride * n - base = stride * n := Nat.add_sub_cancel_left ..
  have hdiv : stride * n / stride = n := Nat.mul_div_cancel_left n hs
  unfold instAt
  rw [hoff, hdiv]
  exact if_pos ⟨Nat.le_add_right _ _, Nat.mul_mod_right _ _, hn⟩

/-- A register of units with a rule of its own does not meet the rules of the chip-level blocks. -/
theorem wrChip_none (h : 0x6000 ≤ a) (hd : a ≠ DR_CTL) : wrChip o a w d = none := by
  have far : ∀ {k : Nat}, k < 0x6000 → a ≠ k := fun hk => Nat.ne_of_gt (Nat.lt_of_lt_of_le hk h)
  unfold wrChip
  rw [if_neg (far (by decide)), if_neg (far (by decide)), if_neg (far (by decide)), if_neg (far (by decide)), if_neg (far (by decide)),
    if_neg (far (by decide)), if_neg (far (by decide)), if_neg (far (by decide)), if_neg (far (by decide)), if_neg (far (by decide)),
    if_neg (far (by decide)), if_neg hd, if_neg (far (by decide))]

theorem wrUnit_lnCtl {l : Nat} (hl : l < 130) : wrUnit o (LN_CTL l) w d = some (wrLnCtl o l w d) := by
  have hit : instAt (LN_CTL 0) 0x100 130 (LN_CTL l) = some l := instAt_hit (by decide) hl
  unfold wrUnit
  rw [hit]

theorem wrUnit_lnPrbsCtl {l : Nat} (hl : l < 130) : wrUnit o (LN_PRBSCTL l) w d = some (wrPrbs o l w d) := by
  have hctl : instAt (LN_CTL 0) 0x100 130 (LN_PRBSCTL l) = none := if_neg (by simp only [LN_CTL, LN_PRBSCTL]; omega)
  have hit : instAt (LN_PRBSCTL 0) 0x100 130 (LN_PRBSCTL l) = some l := instAt_hit (by decide) hl
  unfold wrUnit
  rw [hctl, hit]

theorem wrUnit_adInj {g : Nat} (hg : g < 4) : wrUnit o (AD_INJ g) w d = some (wrAdInj o g w d) := by
  have hctl : instAt (LN_CTL 0) 0x100 130 (AD_INJ g) = none := if_neg (by simp only [LN_CTL, AD_INJ]; omega)
  have hprbs : instAt (LN_PRBSCTL 0) 0x100 130 (AD_INJ g) = none := if_neg (by simp only [LN_PRBSCTL, AD_INJ]; omega)
  have hsel : instAt (LN_TMXSEL 0) 0x100 130 (AD_INJ g) = none := if_neg (by simp only [LN_TMXSEL, AD_INJ]; omega)
  have hit : instAt (AD_INJ 0) 0x40 4 (AD_INJ g) = some g := instAt_hit (by decide) hg
  unfold wrUnit
  rw [hctl, hprbs, hsel, hit]

/-- A register that lies above those of the lanes and of measurement. -/
theorem lane_none (h : 0x30000 ≤ a) : instAt (LN_CTL 0) 0x100 130 a = none ∧ instAt (LN_PRBSCTL 0) 0x100 130 a = none ∧
    instAt (LN_TMXSEL 0) 0x100 130 a = none ∧ instAt (AD_INJ 0) 0x40 4 a = none :=
  ⟨if_neg (by simp only [LN_CTL]; omega), if_neg (by simp only [LN_PRBSCTL]; omega), if_neg (by simp only [LN_TMXSEL]; omega),
    if_neg (by simp only [AD_INJ]; omega)⟩

theorem wrUnit_diagReq {n : Nat} (hn : n < 8192) : wrUnit o (CE_DIAGREQ n) w d = some (wrDiagReq o n w d) := by
  obtain ⟨hctl, hprbs, hsel, hinj⟩ := lane_none (a := CE_DIAGREQ n) (by simp only [CE_DIAGREQ]; omega)
  have hit : instAt (CE_DIAGREQ 0) 0x80 8192 (CE_DIAGREQ n) = some n := instAt_hit (by decide) hn
  unfold wrUnit
  rw [hctl, hprbs, hsel, hinj, hit]

theorem wrUnit_ceCtl {n : Nat} (hn : n < 8192) : wrUnit o (CE_CTL n) w d = some (wrCeCtl o n w d) := by
  obtain ⟨hctl, hprbs, hsel, hinj⟩ := lane_none (a := CE_CTL n) (by simp only [CE_CTL]; omega)
  have hdiag : instAt (CE_DIAGREQ 0) 0x80 8192 (CE_CTL n) = none := if_neg (by simp only [CE_DIAGREQ, CE_CTL]; omega)
  have hit : instAt (CE_CTL 0) 0x80 8192 (CE_CTL n) = some n := instAt_hit (by decide) hn
  unfold wrUnit
  rw [hctl, hprbs, hsel, hinj, hdiag, hit]

theorem wrUnit_modCtl {g : Nat} (hg : g < 8) : wrUnit o (RG_MODCTL g) w d = some (wrModCtl o g w d) := by
  obtain ⟨hctl, hprbs, hsel, hinj⟩ := lane_none (a := RG_MODCTL g) (by simp only [RG_MODCTL]; omega)
  have hdiag : instAt (CE_DIAGREQ 0) 0x80 8192 (RG_MODCTL g) = none := if_neg (by simp only [CE_DIAGREQ, RG_MODCTL]; omega)
  have hce : instAt (CE_CTL 0) 0x80 8192 (RG_MODCTL g) = none := if_neg (by simp only [CE_CTL, RG_MODCTL]; omega)
  have hit : instAt (RG_MODCTL 0) 0x2000 8 (RG_MODCTL g) = some g := instAt_hit (by decide) hg
  unfold wrUnit
  rw [hctl, hprbs, hsel, hinj, hdiag, hce, hit]
  rfl

/-! ## Commands that are writes of one register -/

/-- A word that a register with a writable field takes to its rule: no reserved bit, and no SC field written that reads 1 but where
the chapter says otherwise (R256, R303). -/
def cleanWrite (a : Nat) (w : Word) (d : Dev) : Prop :=
  ∀ r, regAt a = some r → w &&& r.mask (fun x => x == .res) = 0 ∧
    (w &&& r.mask (fun x => x == .sc) &&& regWord a d = 0 ∨ a = FC_INJ ∨ ∃ k : Fin 4, a = AD_INJ k.val)

theorem not_badWrite {r : RegDef} (hr : regAt a = some r) (hw : writableMask r ≠ 0) (h : cleanWrite a w d) : ¬ badWrite a r w d := by
  obtain ⟨hres, hsc⟩ := h r hr
  rintro (k | k | k)
  · exact hw k
  · exact k hres
  · refine k ?_
    unfold scMask
    split
    next => simp
    next hno =>
      rcases hsc with hsc | hsc | ⟨g, rfl⟩
      · exact hsc
      · exact absurd (.inl hsc) hno
      · have hit : instAt (AD_INJ 0) 0x40 4 (AD_INJ g.val) = some g.val := instAt_hit (by decide) g.isLt
        exact absurd (.inr (by rw [hit]; rfl)) hno

/-- A register with a rule of its own does what the rule says. -/
theorem writeReg_own {x : Bool × Dev} (hw : Writable a) (hc : cleanWrite a w d)
    (hx : (wrChip o a w d).orElse (fun _ => wrUnit o a w d) = some x) : writeReg o a w d = x := by
  obtain ⟨r, hr, hmask⟩ := hw
  rw [writeReg_rule o hr (not_badWrite hr hmask hc), writeRule, hx]

theorem writeReg_chip {x : Bool × Dev} (hw : Writable a) (hc : cleanWrite a w d) (hx : wrChip o a w d = some x) :
    writeReg o a w d = x := writeReg_own hw hc (by rw [hx]; rfl)

theorem writeReg_unit {x : Bool × Dev} (hw : Writable a) (hc : cleanWrite a w d) (h : 0x6000 ≤ a) (hd : a ≠ DR_CTL)
    (hx : wrUnit o a w d = some x) : writeReg o a w d = x := writeReg_own hw hc (by rw [wrChip_none h hd]; exact hx)

/-- A command that is such a write does the same as the write. -/
theorem exec_registerWrite {c : Instr} {f : Dev → Dev} (hc : exec c s = .next (within f s)) (ha : a < 2 ^ 32)
    (hw : (writeReg o a w s.dev).2 = f s.dev) : exec (.registerWrite o (BitVec.ofNat 32 a) w) s = exec c s := by
  have hrow : exec (.registerWrite o (BitVec.ofNat 32 a) w) s =
      .next (within (fun d => (writeReg o (BitVec.ofNat 32 a).toNat w d).2) s) := rfl
  rw [hrow, hc, BitVec.toNat_ofNat, Nat.mod_eq_of_lt ha]
  unfold within
  dsimp only
  rw [hw]

/-! ## Writes that no rule accepts -/

theorem refused_shellWrite {g : Group} {ok : Bool} {eff : Dev → Dev} (h : (d.writable && d.permits o g && ok) = false) (a : Nat) :
    Refused o a d (shellWrite o g ok eff d).2 := by
  unfold shellWrite
  rw [h]
  exact refused_refuse o a d

section unwritable
variable (h : d.writable = false)
include h

theorem refused_unwritable (g : Group) (ok : Bool) (eff : Dev → Dev) : Refused o a d (shellWrite o g ok eff d).2 :=
  refused_shellWrite (by rw [h]; rfl) a

theorem refused_wrInj : Refused o FC_INJ d (wrInj o w d).2 := by
  have hshell : Refused o FC_INJ d (injShell o w d).2 := refused_unwritable h _ _ _
  rw [wrInj_eq]
  split
  next => exact hshell.counted
  next => exact hshell

theorem refused_wrChip : RuleAll (fun x => Refused o a d x.2) (wrChip o a w d) := by
  have shell : ∀ (p : Prop) (g : Group) (ok : Bool) (eff : Dev → Dev), p → Refused o a d (shellWrite o g ok eff d).2 :=
    fun _ g ok eff _ => refused_unwritable h g ok eff
  refine ruleAll_if (shell _ _ _ _) <| ruleAll_if (shell _ _ _ _) <| ruleAll_if (shell _ _ _ _) <| ruleAll_if (shell _ _ _ _) <|
    ruleAll_if (shell _ _ _ _) <| ruleAll_if (shell _ _ _ _) <| ruleAll_if (shell _ _ _ _) <| ruleAll_if (shell _ _ _ _) <|
    ruleAll_if (shell _ _ _ _) <| ruleAll_if (shell _ _ _ _) <| ruleAll_if (shell _ _ _ _) <| ruleAll_if (shell _ _ _ _) <|
    ruleAll_if (fun ha => ?_) ruleAll_none
  subst ha
  exact refused_wrInj h

theorem refused_wrUnit : RuleAll (fun x => Refused o a d x.2) (wrUnit o a w d) := by
  have shell : ∀ (g : Group) (ok : Nat → Bool) (eff : Nat → Dev → Dev) (n : Nat), Refused o a d (shellWrite o g (ok n) (eff n) d).2 :=
    fun g ok eff n => refused_unwritable h g (ok n) (eff n)
  exact ruleAll_unit (shell _ _ _) <| ruleAll_unit (shell _ _ _) <| ruleAll_unit (shell _ _ _) <| ruleAll_unit (shell _ _ _) <|
    ruleAll_unit (shell _ _ _) <| ruleAll_unit (shell _ _ _) <| ruleAll_map (shell _ _ _)

/-- In LOAD and in STOP every write is refused (R437). -/
theorem writeReg_unwritable : Refused o a d (writeReg o a w d).2 := by
  cases hr : regAt a with
  | none => exact writeReg_unmapped_refused w hr
  | some r =>
    by_cases hbad : badWrite a r w d
    · exact writeReg_bad_refused hr hbad
    · rw [writeReg_rule o hr hbad]
      have hrule := ruleAll_orElse (refused_wrChip (o := o) (a := a) (w := w) h) (refused_wrUnit (w := w) h)
      unfold writeRule
      split
      next x hx => exact hrule x hx
      next => exact refused_unwritable h _ _ _

end unwritable

/-- A register of flags without a rule of its own. -/
theorem writeReg_flags {r : RegDef} (hr : regAt a = some r) (hbad : ¬ badWrite a r w d) (hc : wrChip o a w d = none)
    (hu : wrUnit o a w d = none) : writeReg o a w d = wrFlags o a (w &&& r.mask fun x => x == .w1c).toNat d := by
  rw [writeReg_rule o hr hbad, writeRule, hc, hu]
  rfl

/-! ## A notice of the servo clears (Table 10.9) -/

theorem regAt_tmEvt : regAt TM_EVT = some ⟨TM_EVT, [], 0, [⟨0, 1, .w1c, 0, 0, 1⟩, ⟨1, 1, .w1c, 0, 0, 1⟩, ⟨2, 1, .w1c, 0, 0, 1⟩,
    ⟨3, 1, .w1c, 0, 0, 1⟩, ⟨4, 1, .w1c, 0, 0, 1⟩, ⟨5, 1, .w1c, 0, 0, 1⟩, ⟨6, 26, .res, 0, 0, 0x3ffffff⟩]⟩ := rfl

theorem flagClass_tmEvt (b : Nat) (d : Dev) :
    flagClass TM_EVT b d = if b = 1 ∨ b = 3 then some .service else if b < 6 then some .notice else none := by
  have chip : chipClass TM_EVT b d = if b = 1 ∨ b = 3 then some .service else if b < 6 then some .notice else none := rfl
  have unit : unitClass TM_EVT b d = none := rfl
  rw [flagClass, chip, unit]
  split
  next x hx => exact hx.symm
  next hx => exact hx.symm

theorem flagClass_tmEvt_ne_stop (b : Nat) (d : Dev) : flagClass TM_EVT b d ≠ some .stop := by
  rw [flagClass_tmEvt]
  split
  · nofun
  · split <;> nofun

/-- Writes to the flags of the servo belong to the group FLAG. -/
theorem wrFlags_tmEvt (o : Origin) (ones : Nat) (d : Dev) :
    wrFlags o TM_EVT ones d = shellWrite o .flag true (clearFlags TM_EVT ones) d := by
  unfold wrFlags
  extract_lets stop
  have hstop : stop = false := by
    refine List.any_eq_false.mpr fun b _ => ?_
    cases hc : flagClass TM_EVT b d with
    | none => simp
    | some c =>
      have hne : c ≠ .stop := fun k => flagClass_tmEvt_ne_stop b d (k ▸ hc)
      simp [hne]
  rw [hstop]
  rfl

/-- The flag HOLD has no cause that lasts. -/
theorem clearFlags_hold (ones : Nat) (d : Dev) (h : bitOf ones 2 = true) : (clearFlags TM_EVT ones d).flag TM_EVT_HOLD = false := by
  have hbit : ((clearFlags TM_EVT ones d).word TM_EVT).getLsbD 2 = false := by
    rw [clearFlags_eq_foldl]
    exact foldl_establishes (P := fun _ => True) (Q := fun e => (e.word TM_EVT).getLsbD 2 = false) (fun _ _ _ => trivial)
      (fun e b => clearFlag_keeps_zero TM_EVT ones e b 2) (fun e _ => clearFlag_clears _ _ _ _ h rfl)
      (List.mem_range.mpr (show 2 < 32 by decide)) d trivial
  refine flag_of_get_zero (Nat.eq_of_testBit_eq fun i => ?_)
  rw [Dev.get, testBit_fldGet, Nat.zero_testBit]
  by_cases hi : i = 0
  · subst hi
    exact hbit
  · rw [decide_eq_false (show ¬ i < TM_EVT_HOLD.width from fun k => hi (Nat.lt_one_iff.mp k)), Bool.false_and]

theorem answers_clearHold (h : s.awake) (hl : s.dev.mode ≠ modeLOAD) (hp : s.dev.permits o .flag = true) :
    Answers (.registerWrite o (BitVec.ofNat 32 TM_EVT) 4) s fun t => t.dev.flag TM_EVT_HOLD = false := by
  have hw : writeReg o TM_EVT 4 s.dev = (true, clearFlags TM_EVT 4 s.dev) := by
    have hgood : ∀ d : Dev, ¬ badWrite TM_EVT _ 4 d := fun d =>
      not_badWrite regAt_tmEvt (by decide) (fun r hr => by
        obtain rfl := Option.some.inj (regAt_tmEvt.symm.trans hr)
        exact ⟨by decide, .inl (by simp [RegDef.mask])⟩)
    rw [writeReg_flags regAt_tmEvt (hgood s.dev) rfl rfl]
    exact (wrFlags_tmEvt o _ s.dev).trans (shellWrite_accepted (writable_of_awake h hl) hp rfl)
  refine answers_registerWrite h (by decide) hw (quiet_clearFlags _ _ (quiet_refl _) (by decide)) ?_
  rw [tripOutRelease_flag _ TM_EVT_HOLD (by decide)]
  exact clearFlags_hold 4 s.dev (by decide)

/-! ## The rows -/

section rows
variable {c : Instr}

theorem exec_chipWrite {x : Dev → Bool × Dev} (hc : exec c s = .next (within (fun d => (x d).2) s)) (ha : a < 2 ^ 32)
    (hw : (regAt a).any (fun r => writableMask r != 0) = true) (hclean : cleanWrite a w s.dev)
    (hx : wrChip o a w s.dev = some (x s.dev)) : exec (.registerWrite o (BitVec.ofNat 32 a) w) s = exec c s :=
  exec_registerWrite hc ha (by rw [writeReg_chip (writable_of_any hw) hclean hx])

theorem exec_unitWrite {f : Dev → Dev} {x : Bool × Dev} (hc : exec c s = .next (within f s)) (ha : 0x6000 ≤ a ∧ a < 2 ^ 32)
    (hd : a ≠ DR_CTL) (hw : Writable a) (hclean : cleanWrite a w s.dev) (hx : wrUnit o a w s.dev = some x) (hf : x.2 = f s.dev) :
    exec (.registerWrite o (BitVec.ofNat 32 a) w) s = exec c s :=
  exec_registerWrite hc ha.2 (by rw [writeReg_unit hw hclean ha.1 hd hx, hf])

theorem exec_lnCtlWrite {f : Dev → Dev} {l : Fin 130} (hclean : cleanWrite (LN_CTL l.val) w s.dev)
    (hc : exec c s = .next (within f s)) (hf : (wrLnCtl o l.val w s.dev).2 = f s.dev) :
    exec (.registerWrite o (BitVec.ofNat 32 (LN_CTL l.val)) w) s = exec c s :=
  exec_unitWrite hc (by simp only [LN_CTL]; omega) (by simp only [LN_CTL, DR_CTL]; omega) (writable_lnCtl l.isLt) hclean
    (wrUnit_lnCtl l.isLt) hf

theorem exec_prbsWrite {f : Dev → Dev} {l : Fin 130} (hclean : cleanWrite (LN_PRBSCTL l.val) w s.dev)
    (hc : exec c s = .next (within f s)) (hf : (wrPrbs o l.val w s.dev).2 = f s.dev) :
    exec (.registerWrite o (BitVec.ofNat 32 (LN_PRBSCTL l.val)) w) s = exec c s :=
  exec_unitWrite hc (by simp only [LN_PRBSCTL]; omega) (by simp only [LN_PRBSCTL, DR_CTL]; omega) (writable_lnPrbsCtl l.isLt) hclean
    (wrUnit_lnPrbsCtl l.isLt) hf

theorem exec_ceCtlWrite {f : Dev → Dev} {n : Fin 8192} (hclean : cleanWrite (CE_CTL n.val) w s.dev)
    (hc : exec c s = .next (within f s)) (hf : (wrCeCtl o n.val w s.dev).2 = f s.dev) :
    exec (.registerWrite o (BitVec.ofNat 32 (CE_CTL n.val)) w) s = exec c s :=
  exec_unitWrite hc (by simp only [CE_CTL]; omega) (by simp only [CE_CTL, DR_CTL]; omega) (writable_ceCtl n.isLt) hclean
    (wrUnit_ceCtl n.isLt) hf

theorem exec_diagReqWrite {f : Dev → Dev} {n : Fin 8192} (hclean : cleanWrite (CE_DIAGREQ n.val) w s.dev)
    (hc : exec c s = .next (within f s)) (hf : (wrDiagReq o n.val w s.dev).2 = f s.dev) :
    exec (.registerWrite o (BitVec.ofNat 32 (CE_DIAGREQ n.val)) w) s = exec c s :=
  exec_unitWrite hc (by simp only [CE_DIAGREQ]; omega) (by simp only [CE_DIAGREQ, DR_CTL]; omega) (writable_diagReq n.isLt) hclean
    (wrUnit_diagReq n.isLt) hf

theorem exec_adInjWrite {f : Dev → Dev} {k : Fin 4} (hclean : cleanWrite (AD_INJ k.val) w s.dev)
    (hc : exec c s = .next (within f s)) (hf : (wrAdInj o k.val w s.dev).2 = f s.dev) :
    exec (.registerWrite o (BitVec.ofNat 32 (AD_INJ k.val)) w) s = exec c s :=
  exec_unitWrite hc (by simp only [AD_INJ]; omega) (by simp only [AD_INJ, DR_CTL]; omega) (writable_adInj k.isLt) hclean
    (wrUnit_adInj k.isLt) hf

theorem exec_modCtlWrite {f : Dev → Dev} {g : Fin 8} (hclean : cleanWrite (RG_MODCTL g.val) w s.dev)
    (hc : exec c s = .next (within f s)) (hf : (wrModCtl o g.val w s.dev).2 = f s.dev) :
    exec (.registerWrite o (BitVec.ofNat 32 (RG_MODCTL g.val)) w) s = exec c s :=
  exec_unitWrite hc (by simp only [RG_MODCTL]; omega) (by simp only [RG_MODCTL, DR_CTL]; omega) (writable_modCtl g.isLt) hclean
    (wrUnit_modCtl g.isLt) hf

end rows

/-- A write of TM_ADJ by an origin that may not write station time is refused. -/
theorem answers_tmAdj_refused (h : s.awake) (w : Word) (hp : s.dev.permits o .time = false) :
    Answers (.registerWrite o (BitVec.ofNat 32 TM_ADJ) w) s fun t => t.dev.collected o ∧
      s.dev.keepsWords (fun x => refuseRegs x ∨ sideRegs x) t.dev ∧ s.keepsRest t := by
  obtain ⟨hr, -, hq⟩ := h
  refine answers_refused_plain (BitVec.ofNat 32 TM_ADJ) w (by decide) hr hq ?_
  have haddr : (BitVec.ofNat 32 TM_ADJ).toNat = TM_ADJ := by decide
  rw [haddr]
  obtain ⟨r, hrow, -⟩ := writable_of_any (a := TM_ADJ) (by decide)
  by_cases hbad : badWrite TM_ADJ r w s.dev
  · exact writeReg_bad_refused hrow hbad
  · rw [writeReg_rule o hrow hbad]
    exact refused_shellWrite (by rw [hp, Bool.and_false]; rfl) TM_ADJ

/-- Settles O60: the row of a register is its rule, reached where no bit of the word is refused, and everything else is refused. -/
theorem registerWrites : Obligations.RegisterWrites := by
  unfold Obligations.RegisterWrites
  intro o s
  refine ⟨fun a w c hclean hrow => ?rows, fun hr hmode hq a w => ?unwritable, fun h => ⟨fun hl hp => answers_clearHold h hl hp,
    fun a w ⟨r, hrow, hmask⟩ => ?readonly, fun w hp => answers_tmAdj_refused h w hp⟩⟩
  case unwritable =>
    have hw : s.dev.writable = false := by
      unfold Dev.writable
      rcases hmode with hm | hm <;> rw [hm] <;> rfl
    exact answers_refused a w hr hq (writeReg_unwritable hw)
  case readonly =>
    obtain ⟨hr, -, hq⟩ := h
    have ha : a.toNat ≠ FC_INJ := fun ha => by
      have hany : (regAt FC_INJ).any (fun r => writableMask r != 0) = true := by decide
      obtain ⟨r', hr', hne⟩ := writable_of_any hany
      rw [ha] at hrow
      obtain rfl := Option.some.inj (hr'.symm.trans hrow)
      exact hne hmask
    exact answers_refused_plain a w ha hr hq (writeReg_bad_refused hrow (.inl hmask))
  case rows =>
    rcases hrow with ⟨rfl, rfl⟩ | ⟨rfl, rfl⟩ | ⟨rfl, rfl⟩ | ⟨rfl, rfl, rfl⟩ | ⟨rfl, rfl, rfl⟩ | ⟨k, rfl, rfl, rfl⟩ | ⟨rfl, hdr⟩ |
      ⟨x, y, i, rfl, rfl, rfl⟩ | ⟨n, hn⟩ | ⟨g, rfl, rfl, rfl⟩ | ⟨k, i, rfl, rfl, rfl⟩ | ⟨l, hl⟩
    · exact exec_chipWrite (x := wrTmIncr o w) rfl (by decide) (by decide) hclean rfl
    · exact exec_chipWrite (x := wrTmAdj o w) rfl (by decide) (by decide) hclean rfl
    · exact exec_chipWrite (x := wrTmJumpLo o w) rfl (by decide) (by decide) hclean rfl
    · exact exec_chipWrite (x := wrPllCtl o .t 1) rfl (by decide) (by decide) hclean rfl
    · exact exec_chipWrite (x := wrPllCtl o .s 1) rfl (by decide) (by decide) hclean rfl
    · exact exec_chipWrite (x := wrSphs o (k.setWidth 32)) rfl (by decide) (by decide) hclean rfl
    · rcases hdr with ⟨rfl, rfl⟩ | ⟨rfl, rfl⟩ | ⟨rfl, rfl⟩ | ⟨m, rfl, rfl⟩
      all_goals exact exec_chipWrite (x := wrDrCtl o _) rfl (by decide) (by decide) hclean rfl
    · exact exec_chipWrite (x := wrInj o (injWord x y i)) rfl (by decide) (by decide) hclean rfl
    · rcases hn with ⟨rfl, ⟨rfl, rfl⟩ | ⟨rfl, rfl⟩⟩ | ⟨x, y, i, rfl, rfl, rfl⟩
      · exact exec_ceCtlWrite hclean (f := fun d => (wrCeCtl o n.val 1 d).2) rfl rfl
      · exact exec_ceCtlWrite hclean (f := fun d => (wrCeCtl o n.val 2 d).2) rfl rfl
      · exact exec_diagReqWrite hclean (f := fun d => (wrDiagReq o n.val (diagWord x y i) d).2) rfl rfl
    · exact exec_modCtlWrite hclean (f := fun d => (wrModCtl o g.val 1 d).2) rfl rfl
    · exact exec_adInjWrite hclean (f := fun d => (wrAdInj o k.val (BitVec.ofNat 32 (i.toNat + 8)) d).2) rfl rfl
    · rcases hl with ⟨rfl, hctl⟩ | ⟨rfl, hprbs⟩
      · dsimp only at hctl
        rcases hctl with ⟨rfl, rfl⟩ | ⟨rfl, rfl⟩ | ⟨rfl, rfl⟩ | ⟨rfl, rfl⟩ | ⟨rfl, rfl⟩ | ⟨rfl, rfl⟩
        · exact exec_lnCtlWrite hclean (f := laneRetrain o l.val) rfl rfl
        · exact exec_lnCtlWrite hclean (f := laneReacq o l.val) rfl rfl
        · exact exec_lnCtlWrite hclean (f := laneTxSleep o l.val) rfl rfl
        · exact exec_lnCtlWrite hclean (f := laneTxWake o l.val) rfl rfl
        · exact exec_lnCtlWrite hclean (f := laneRxSleep o l.val) rfl rfl
        · exact exec_lnCtlWrite hclean (f := laneRxWake o l.val) rfl rfl
      · dsimp only at hprbs
        rcases hprbs with ⟨k, ⟨rfl, rfl⟩ | ⟨rfl, rfl⟩⟩ | ⟨rfl, rfl⟩ | ⟨m, rfl, rfl⟩
        · exact exec_prbsWrite hclean (f := prbsGen o l.val k.toNat) rfl rfl
        · exact exec_prbsWrite hclean (f := prbsChk o l.val k.toNat) rfl rfl
        · exact exec_prbsWrite hclean (f := prbsInj1 o l.val) rfl rfl
        · exact exec_prbsWrite hclean (f := prbsRate o l.val m.toNat) rfl rfl

end Sys2Proof.Machine
end

section
/-! PROOFS. What an event and a recorder entry leave of the recorder: only the entries handed over change. -/

namespace Sys2Proof.Machine

variable {α : Type} {f : RecSt → α} {d : Dev}

/-- A view of the recorder that does not look at the entries handed over. -/
def OffInq (f : RecSt → α) : Prop := ∀ x q, f { x with inq := q } = f x

theorem source_rec (hf : OffInq f) (k : BitVec 4) (n key p : Nat) (l r : Bool) : f (d.source k n key p l r).dr = f d.dr := by
  unfold Dev.source
  split
  · exact hf d.dr _
  · rfl

theorem flagEntry_rec (hf : OffInq f) (n p : Nat) : f (d.flagEntry n p).dr = f d.dr := by
  unfold Dev.flagEntry
  split
  · exact source_rec hf _ _ _ _ _ _
  · rfl

theorem react_rec (c : Cls) (d : Dev) : (d.react c).dr = d.dr := by
  cases c with
  | notice | service | stop => rfl
  | prot m => unfold Dev.react; dsimp only; split <;> rfl
  | protDev => unfold Dev.react; dsimp only; split <;> rfl

theorem pushEvent_rec (hf : OffInq f) (a b k t : Nat) : f (d.pushEvent a b k t).dr = f d.dr := by
  unfold Dev.pushEvent
  split
  · rfl
  split
  · rfl
  split
  · exact flagEntry_rec hf _ _
  · rfl

theorem raiseBit_rec (hf : OffInq f) (y : Fld) (i : Nat) (c : Cls) : f (d.raiseBit y i c).dr = f d.dr := by
  unfold Dev.raiseBit
  split
  · rfl
  · dsimp only
    rw [react_rec, flagEntry_rec hf, pushEvent_rec hf]
    rfl

end Sys2Proof.Machine
end

section
/-! PROOFS. What settling a step may change, in every mode: entry to STOP, the trip outputs, the mode and the fault collection. -/

namespace Sys2Proof.Machine

/-- The registers that settling may change: those of the units, of the transfer, of the twin, of the mode, of the permits and of
the trip outputs. -/
def settledRegs (a : Nat) : Prop :=
  0x4000 ≤ a ∨ a = GL_IMGWR ∨ (GL_TWSTAT ≤ a ∧ a ≤ GL_TWCNT) ∨ a = GL_MODE ∨ a = GL_SUSTAT ∨ a = SF_RB ∨ a = SF_STAT ∨ a = FC_TRIPSTAT

/-- The parts that settling may change: all but the waiting injection and the fabric. -/
def settledParts (p : Part) : Prop := p ≠ .inj ∧ p ≠ .fb ∧ p ≠ .released

theorem settledRoom : WideRoom settledRegs settledParts where
  units _ h := .inl h
  imgwr := .inr (.inl rfl)
  twin _ h := .inr (.inr (.inl h))
  parts _ _ hr _ hi hf _ _ := ⟨hi, hf, hr⟩
  tw := ⟨nofun, nofun, nofun⟩
  nt := ⟨nofun, nofun, nofun⟩

/-- A register of the device proper that settling leaves alone. -/
theorem not_settledRegs {a : Nat} (h : ¬ settledRegs a) : a ≠ GL_MODE ∧ a ≠ FC_TRIPSTAT := by
  unfold settledRegs at h
  omega

/-- Settling, seen as a footprint. -/
theorem frame_settle (b a : Dev) : Frame settledRegs settledParts a (settle b a) := by
  have hmode : settledRegs GL_MODE := by unfold settledRegs; omega
  have htrip : settledRegs FC_TRIPSTAT := by unfold settledRegs; omega
  have hout : Frame settledRegs settledParts a
      (tripOutRelease (if a.fc.stopReq ∧ a.mode ≠ modeSTOP then stopEntry a else a)) :=
    frame_tripOutRelease htrip (frame_ite (frame_stopEntry settledRoom hmode (by unfold settledRegs; omega)
      (by unfold settledRegs; omega) (by unfold settledRegs; omega) (frame_refl a)) (frame_refl a))
  refine frame_ite ?_ hout
  have hput := frame_put GL_MODE_MODE modeSTOP hmode hout
  exact ⟨hput.words, fun p hp => by
    have hp' := hput.parts p hp
    cases p
    case fc | stopReq => exact absurd ⟨nofun, nofun, nofun⟩ hp
    all_goals exact hp'⟩

/-- A command of a part that STOP makes inert, whatever its effect. -/
theorem answers_wholeRunning_any {c : Instr} {f : State → State} {s : State} {P : State → Prop}
    (hc : exec c s = .next (wholeRunning f s)) (h : s.awake)
    (hP : P { f s with dev := settle s.dev (f s).dev, pending := s.pending }) : Answers c s P :=
  ⟨_, hc, by rwa [wholeRunning, if_neg h.2.1, whole, if_pos h.1]⟩

/-- The mode where nothing has asked for STOP. -/
theorem settle_mode {b a : Dev} (hb : b.mode ≠ modeSTOP) (ha : a.mode ≠ modeSTOP) (hq : a.fc.stopReq = false) :
    (settle b a).mode = a.mode := by
  rw [settle_calm b a hb ha hq, tripOutRelease_mode]

/-- Bit 0 of a flag that reads 0. -/
theorem bit_of_flag_false {d : Dev} {x : Fld} (h : d.flag x = false) : d.bit x 0 = false := by
  have h0 : d.get x = 0 := by simpa [Dev.flag] using h
  simp [Dev.bit, bitOf, h0]

end Sys2Proof.Machine
end

section
/-! PROOFS. Injections, spine and memory errors, and temperature (O42). -/

namespace Sys2Proof.Machine

variable {W : Nat → Prop} {S : Part → Prop} {d e : Dev} {s : State} {g : Nat}

/-! ## Injection (R303) -/

/-- The word of a request holds what is requested. -/
theorem injWord_fields (t : BitVec 4) (dbl : Bool) (i : BitVec 13) :
    bitOf (injWord t dbl i).toNat 5 = true ∧ (injWord t dbl i).toNat % 16 = t.toNat ∧ bitOf (injWord t dbl i).toNat 4 = dbl ∧
      bitsOf (injWord t dbl i).toNat 8 13 = i.toNat := by
  have ht := t.isLt
  have hi := i.isLt
  have hd : b2n dbl ≤ 1 := by cases dbl <;> decide
  have hw : (injWord t dbl i).toNat = t.toNat + 16 * b2n dbl + 32 + 256 * i.toNat := by
    rw [injWord, BitVec.toNat_ofNat]
    omega
  rw [hw]
  refine ⟨beq_iff_eq.mpr (by omega), by omega, ?_, by unfold bitsOf; omega⟩
  have hbit : (t.toNat + 16 * b2n dbl + 32 + 256 * i.toNat) / 2 ^ 4 % 2 = b2n dbl := by omega
  rw [bitOf, hbit]
  cases dbl <;> rfl

/-- An accepted request waits for its checker and is counted. -/
theorem injWritten_waits (t i : Nat) (dbl : Bool) (d : Dev) : (injWritten t i dbl true d).fc.inj = some (t, dbl, i) ∧
    (injWritten t i dbl true d).flag FC_INJ_GO = true ∧
    (injWritten t i dbl true d).get FC_INJCNT_DONE = satInc FC_INJCNT_DONE.width (d.get FC_INJCNT_DONE) 1 := by
  refine ⟨rfl, ?_, ?_⟩
  · exact (flag_put_ne _ FC_INJCNT_DONE FC_INJ_GO _ (by decide)).trans (flag_put_one _ FC_INJ_GO (by decide) (by decide))
  · show (Dev.bump _ FC_INJCNT_DONE).get FC_INJCNT_DONE = _
    rw [get_bump_same _ _ _ (by decide), get_put_ne _ _ _ _ (by decide)]
    show satInc _ ((((d.put FC_INJ_TARGET t).putB FC_INJ_DOUBLE dbl).put FC_INJ_INST i).get FC_INJCNT_DONE) 1 = _
    rw [get_put_ne _ _ _ _ (by decide), Dev.putB, get_put_ne _ _ _ _ (by decide), get_put_ne _ _ _ _ (by decide)]

/-- A request that the rules accept. -/
theorem wrInj_accepted {o : Origin} {t : BitVec 4} {dbl : Bool} {i : BitVec 13} (hw : d.writable = true)
    (hp : d.permits o .inj = true) (hok : injOk t.toNat dbl i.toNat d = true) :
    (wrInj o (injWord t dbl i) d).2 = injWritten t.toNat i.toNat dbl true d := by
  obtain ⟨hgo, ht, hd, hi⟩ := injWord_fields t dbl i
  have hshell : injShell o (injWord t dbl i) d = (true, injWritten t.toNat i.toNat dbl true d) := by
    unfold injShell
    rw [hgo, ht, hd, hi]
    exact shellWrite_accepted hw hp (by rw [hok, Bool.not_true, Bool.or_true])
  rw [wrInj_eq, hshell, if_neg (fun k => k.2 rfl)]

theorem faultInject_waits (h : s.awake) (o : Origin) (t : BitVec 4) (dbl : Bool) (i : BitVec 13) (hl : s.dev.mode ≠ modeLOAD)
    (hp : s.dev.permits o .inj = true) (hok : injOk t.toNat dbl i.toNat s.dev = true) :
    Answers (.faultInject o t dbl i) s fun u => u.dev.fc.inj = some (t.toNat, dbl, i.toNat) ∧ u.dev.flag FC_INJ_GO = true ∧
      u.dev.get FC_INJCNT_DONE = satInc FC_INJCNT_DONE.width (s.dev.get FC_INJCNT_DONE) 1 := by
  refine answers_within rfl h (quiet_of_frame (frame_wrInj calmWrites o _ _)) ?_
  rw [wrInj_accepted (writable_of_awake h hl) hp hok]
  obtain ⟨hinj, hgo, hcnt⟩ := injWritten_waits t.toNat i.toNat dbl s.dev
  exact ⟨(congrArg FaultSt.inj (tripOutRelease_fc _)).trans hinj, (tripOutRelease_flag _ _ (by decide)).trans hgo,
    (tripOutRelease_get _ _ (by decide)).trans hcnt⟩

/-! ## Spine errors (R47) -/

theorem spareOk_congr (h : e.fb = d.fb) (c sp : Nat) : spareOk c e sp = spareOk c d sp := by rw [spareOk, spareOk, h]

/-- A retry that fails. -/
def spineNoted (d : Dev) : Dev := (d.raise FB_SPINE_RETRY .notice).bump FB_SPINE_RETRYCNT

/-- The register of the spine after what an error shows there. -/
def spineFailed (d : Dev) : Dev := (spineNoted d).raise FB_SPINE_LINKFAIL .notice

theorem spineNoted_shows (d : Dev) : (spineNoted d).flag FB_SPINE_RETRY = true ∧
    (spineNoted d).get FB_SPINE_RETRYCNT = satInc FB_SPINE_RETRYCNT.width (d.get FB_SPINE_RETRYCNT) 1 := by
  unfold spineNoted
  refine ⟨?_, ?_⟩
  · exact (flag_congr (get_put_disj _ FB_SPINE_RETRYCNT FB_SPINE_RETRY _ (by decide) (by decide))).trans
      (flag_raise_same d FB_SPINE_RETRY .notice rfl (by decide) (by decide) (by decide))
  · rw [get_bump_same _ _ _ (by decide),
      get_raise_disj d FB_SPINE_RETRY FB_SPINE_RETRYCNT .notice rfl (by decide) (by decide) (by decide) (by decide)]

theorem spineFailed_shows (d : Dev) : (spineFailed d).flag FB_SPINE_RETRY = true ∧
    (spineFailed d).get FB_SPINE_RETRYCNT = satInc FB_SPINE_RETRYCNT.width (d.get FB_SPINE_RETRYCNT) 1 ∧
    (spineFailed d).flag FB_SPINE_LINKFAIL = true := by
  obtain ⟨hretry, hcnt⟩ := spineNoted_shows d
  have hkeep : ∀ x : Fld, x.addr = FB_SPINE → x.lsb + x.width ≤ 32 → x.lsb + x.width ≤ 1 ∨ 2 ≤ x.lsb →
      (spineFailed d).get x = (spineNoted d).get x := fun x ha hx hd =>
    get_raise_disj _ FB_SPINE_LINKFAIL x .notice ha (by decide) (by decide) hx hd
  exact ⟨(flag_congr (hkeep FB_SPINE_RETRY rfl (by decide) (by decide))).trans hretry,
    (hkeep FB_SPINE_RETRYCNT rfl (by decide) (by decide)).trans hcnt,
    flag_raise_same _ FB_SPINE_LINKFAIL .notice rfl (by decide) (by decide) (by decide)⟩

theorem frame_spineNoted (E : Events W S) (hs : W FB_SPINE) (h : Frame W S d e) : Frame W S d (spineNoted e) :=
  frame_bump FB_SPINE_RETRYCNT 1 hs (frame_notice FB_SPINE_RETRY E hs h)

theorem frame_spineFailed (E : Events W S) (hs : W FB_SPINE) (h : Frame W S d e) : Frame W S d (spineFailed e) :=
  frame_notice FB_SPINE_LINKFAIL E hs (frame_spineNoted E hs h)

/-- The reaction of a lost link changes nothing of the fabric. -/
theorem frame_linkLost (E : Events W S) (hrg : W FC_LINKRG) (hc : W FC_CHIP) (hq : S .stopReq) (link : Nat) (p1 : Bool)
    (h : Frame W S d e) : Frame W S d (linkLost link p1 e) := by
  unfold linkLost
  split
  · exact frame_raiseBit_any FC_CHIP_LINKLOST1 0 .stop E hc (fun _ => hq) h
  · exact frame_react _ E.fc nofun (frame_raise FC_CHIP_LINKLOST _ E hc nofun (frame_put FC_LINKRG_RG _ hrg h))

theorem linkLost_first (link : Nat) (d : Dev) : linkLost link true d = d.raise FC_CHIP_LINKLOST1 .stop := rfl

theorem linkLost_other (link : Nat) (d : Dev) : ∃ (e : Dev) (c : Cls),
    linkLost link false d = (e.raise FC_CHIP_LINKLOST c).react c := by
  rw [linkLost, if_neg Bool.false_ne_true]
  exact ⟨_, _, rfl⟩

/-- A lost link shows its flag; that of priority-1 traffic makes a STOP source wait. -/
theorem linkLost_shows (link : Nat) (p1 : Bool) (d : Dev) :
    if p1 then (linkLost link p1 d).flag FC_CHIP_LINKLOST1 = true ∧
      (d.flag FC_CHIP_LINKLOST1 = false → (linkLost link p1 d).fc.stopReq = true)
    else (linkLost link p1 d).flag FC_CHIP_LINKLOST = true := by
  cases p1
  · rw [if_neg Bool.false_ne_true]
    obtain ⟨e, c, he⟩ := linkLost_other link d
    rw [he, flag_congr (get_congr _ (e.raise FC_CHIP_LINKLOST c) FC_CHIP_LINKLOST (react_word _ _ _))]
    exact flag_raise_same e FC_CHIP_LINKLOST c rfl (by decide) (by decide) (by decide)
  · rw [if_pos rfl, linkLost_first]
    exact ⟨flag_raise_same _ FC_CHIP_LINKLOST1 _ rfl (by decide) (by decide) (by decide),
      fun hf => raise_stop_stopReq _ _ (bit_of_flag_false hf)⟩

/-- Where an error leaves the spine: the retry mends it, a spare replaces one of the link's groups, or the link is lost. -/
theorem spineError_mended (link : Nat) (sp p1 : Bool) (hm : d.mode ≠ modeSTOP) :
    spineError link false sp p1 d = spineNoted d := by
  rw [spineError, if_neg hm, if_pos (by decide)]
  rfl

theorem spineFailed_fb (d : Dev) : (spineFailed d).fb = d.fb := (raise_fb _ _ _).trans (raise_fb d _ _)

theorem spineError_fails (link : Nat) (sp p1 : Bool) (hm : d.mode ≠ modeSTOP) : spineError link true sp p1 d =
    if ¬ spareOk 6 (spineFailed d) (17 * link + 16) then linkLost link p1 (spineFailed d)
    else if sp then linkLost link p1 (dropSpare 6 (17 * link + 16) (spineFailed d)).1
    else assignSpare 6 (17 * link + (Config.wireGroup link).val) (17 * link + 16)
      (retireUnit 6 (17 * link + (Config.wireGroup link).val) (spineFailed d)) := by
  rw [spineError, if_neg hm, if_neg (not_not_intro rfl)]
  rfl

theorem spineError_spared {link : Nat} (p1 : Bool) (hm : d.mode ≠ modeSTOP) (hs : spareOk 6 d (17 * link + 16) = true) :
    ∃ u, 17 * link ≤ u ∧ u < 17 * link + 16 ∧
      spineError link true false p1 d = assignSpare 6 u (17 * link + 16) (retireUnit 6 u (spineFailed d)) := by
  refine ⟨17 * link + (Config.wireGroup link).val, Nat.le_add_right _ _, Nat.add_lt_add_left (Config.wireGroup link).isLt _, ?_⟩
  rw [spineError_fails link false p1 hm, spareOk_congr (spineFailed_fb d), if_neg (not_not_intro hs), if_neg Bool.false_ne_true]

theorem spineError_lost {link : Nat} {sp : Bool} (p1 : Bool) (hm : d.mode ≠ modeSTOP)
    (hs : spareOk 6 d (17 * link + 16) = false ∨ sp = true) :
    ∃ e, (e = spineFailed d ∨ e = (dropSpare 6 (17 * link + 16) (spineFailed d)).1) ∧
      spineError link true sp p1 d = linkLost link p1 e := by
  rw [spineError_fails link sp p1 hm, spareOk_congr (spineFailed_fb d)]
  by_cases hok : spareOk 6 d (17 * link + 16) = true
  · have hsp : sp = true := hs.resolve_left (by rw [hok]; decide)
    exact ⟨_, .inr rfl, by rw [if_neg (not_not_intro hok), if_pos hsp]⟩
  · exact ⟨_, .inl rfl, if_pos hok⟩

/-- What an error of a link changes besides what it shows of the spine: its spares, and the flag of a lost link. -/
def spineRegs (a : Nat) : Prop := a ≠ FB_SPINE ∧ a ≠ GL_MODE

theorem spineEvents : Events spineRegs (fun _ => True) := ⟨by unfold spineRegs; decide, by unfold spineRegs; decide, trivial, trivial⟩

/-- What a failed retry leads to changes neither what the spine shows nor the mode. -/
theorem spineFailed_kept (h : Frame spineRegs (fun _ => True) (spineFailed d) e) : e.flag FB_SPINE_RETRY = true ∧
    e.get FB_SPINE_RETRYCNT = satInc FB_SPINE_RETRYCNT.width (d.get FB_SPINE_RETRYCNT) 1 ∧ e.flag FB_SPINE_LINKFAIL = true ∧
    e.mode = d.mode := by
  obtain ⟨hretry, hcnt, hfail⟩ := spineFailed_shows d
  have hno (x : Fld) (hx : x.addr = FB_SPINE) : ¬ spineRegs x.addr := fun k => k.1 hx
  have hmode : (spineFailed d).mode = d.mode :=
    (frame_spineFailed (W := (· ≠ GL_MODE)) (S := fun _ => True) ⟨by decide, by decide, trivial, trivial⟩ (by decide)
      (frame_refl d)).get GL_MODE_MODE (not_not_intro rfl)
  exact ⟨(h.flag _ (hno _ rfl)).trans hretry, (h.get _ (hno _ rfl)).trans hcnt, (h.flag _ (hno _ rfl)).trans hfail,
    (h.get GL_MODE_MODE (fun k => k.2 rfl)).trans hmode⟩

theorem frame_spineError {link : Nat} {sp p1 : Bool} (hm : d.mode ≠ modeSTOP) :
    Frame spineRegs (fun _ => True) (spineFailed d) (spineError link true sp p1 d) := by
  have hlost {e : Dev} (h : Frame spineRegs (fun _ => True) (spineFailed d) e) :
      Frame spineRegs (fun _ => True) (spineFailed d) (linkLost link p1 e) :=
    frame_linkLost spineEvents (by unfold spineRegs; decide) (by unfold spineRegs; decide) trivial link p1 h
  rw [spineError_fails link sp p1 hm]
  exact frame_ite (hlost (frame_refl _)) (frame_ite (hlost (frame_dropSpare trivial _ _ (frame_refl _)))
    (frame_assignSpare trivial _ _ _ (frame_retireUnit trivial _ _ (frame_refl _))))

/-- The flag of a lost priority-1 link, before the link is lost. -/
theorem linkFlag_kept {x : Fld} {link : Nat} (hx : x.addr = FC_CHIP)
    (he : e = spineFailed d ∨ e = (dropSpare 6 (17 * link + 16) (spineFailed d)).1) : e.get x = d.get x := by
  have h : Frame (· ≠ FC_CHIP) (fun _ => True) d e := by
    have hf : Frame (· ≠ FC_CHIP) (fun _ => True) d (spineFailed d) :=
      frame_spineFailed ⟨by decide, by decide, trivial, trivial⟩ (by decide) (frame_refl d)
    rcases he with rfl | rfl
    · exact hf
    · exact frame_dropSpare trivial _ _ hf
  exact h.get x (not_not_intro hx)

/-- A repair of the spine asks for no STOP. -/
theorem spineRepair_quiet (hm : d.mode ≠ modeSTOP) (link : Nat) (p1 : Bool) (hs : spareOk 6 d (17 * link + 16) = true) :
    Quiet d (spineError link true false p1 d) := by
  obtain ⟨u, -, -, he⟩ := spineError_spared p1 hm hs
  rw [he]
  exact quiet_of_frame (frame_assignSpare trivial _ _ _ (frame_retireUnit trivial _ _
    (frame_spineFailed calmEvents (by decide) (frame_refl d))))

theorem settle_spine (b a : Dev) {x : Fld} (hx : x.addr = FB_SPINE ∨ x.addr = FC_CHIP) : (settle b a).get x = a.get x :=
  (frame_settle b a).get x (by rcases hx with h | h <;> rw [h] <;> unfold settledRegs <;> decide)

/-- What settles after an error of a link. -/
theorem spineCrcError_answers (h : s.awake) (link : Nat) (fails sp p1 : Bool) :
    Answers (.spineCrcError link fails sp p1) s fun t => t.dev.flag FB_SPINE_RETRY = true ∧
      t.dev.get FB_SPINE_RETRYCNT = satInc FB_SPINE_RETRYCNT.width (s.dev.get FB_SPINE_RETRYCNT) 1 ∧
      (fails = false → t.dev.mode = s.dev.mode) ∧
      (fails = true → t.dev.flag FB_SPINE_LINKFAIL = true ∧
        (spareOk 6 s.dev (17 * link + 16) = true → sp = false →
          ∃ u, 17 * link ≤ u ∧ u < 17 * link + 16 ∧ (6, u) ∈ t.dev.fb.retired ∧ (6, u, 17 * link + 16) ∈ t.dev.fb.assigned ∧
            t.dev.mode = s.dev.mode) ∧
        (spareOk 6 s.dev (17 * link + 16) = false ∨ sp = true →
          if p1 then t.dev.flag FC_CHIP_LINKLOST1 = true ∧ (s.dev.flag FC_CHIP_LINKLOST1 = false → t.dev.mode = modeSTOP)
          else t.dev.flag FC_CHIP_LINKLOST = true)) := by
  have hm := h.2.1
  refine answers_running_stop rfl h ?_
  cases fails with
  | false =>
    obtain ⟨hretry, hcnt⟩ := spineNoted_shows s.dev
    have hq : Quiet s.dev (spineNoted s.dev) := quiet_of_frame (frame_spineNoted calmEvents (by decide) (frame_refl _))
    rw [spineError_mended link sp p1 hm]
    refine ⟨(flag_congr (settle_spine _ _ (.inl rfl))).trans hretry, (settle_spine _ _ (.inl rfl)).trans hcnt, fun _ => ?_, nofun⟩
    show (settle _ _).mode = _
    rw [settle_quiet hm h.2.2 hq, tripOutRelease_mode]
    exact hq.1
  | true =>
    obtain ⟨hretry, hcnt, hfail, hmode⟩ := spineFailed_kept (frame_spineError (link := link) (sp := sp) (p1 := p1) hm)
    refine ⟨(flag_congr (settle_spine _ _ (.inl rfl))).trans hretry, (settle_spine _ _ (.inl rfl)).trans hcnt, nofun,
      fun _ => ⟨(flag_congr (settle_spine _ _ (.inl rfl))).trans hfail, ?_, ?_⟩⟩
    · rintro hs rfl
      obtain ⟨u, hlo, hhi, he⟩ := spineError_spared p1 hm hs
      have hq := spineRepair_quiet hm link p1 hs
      have hfb : (settle s.dev (spineError link true false p1 s.dev)).fb = (spineError link true false p1 s.dev).fb :=
        (frame_settle _ _).parts .fb (fun k => k.2.1 rfl)
      refine ⟨u, hlo, hhi, ?_, ?_, ?_⟩
      · show (6, u) ∈ (settle _ _).fb.retired
        rw [hfb, he]
        exact List.mem_append_right _ (List.mem_singleton_self _)
      · show _ ∈ (settle _ _).fb.assigned
        rw [hfb, he]
        exact List.mem_append_right _ (List.mem_singleton_self _)
      · show (settle _ _).mode = _
        rw [settle_quiet hm h.2.2 hq, tripOutRelease_mode]
        exact hq.1
    · intro hs
      obtain ⟨e, he, hlost⟩ := spineError_lost p1 hm hs
      have hshow := linkLost_shows link p1 e
      rw [hlost]
      cases p1
      · rw [if_neg Bool.false_ne_true] at hshow ⊢
        exact (flag_congr (settle_spine _ _ (.inr rfl))).trans hshow
      · rw [if_pos rfl] at hshow ⊢
        exact ⟨(flag_congr (settle_spine _ _ (.inr rfl))).trans hshow.1,
          fun hf => settle_stop _ _ (.inr (.inl (hshow.2 ((flag_congr (linkFlag_kept rfl he)).trans hf))))⟩

/-! ## Memory errors (R53, Table 11.1) -/

/-- A memory error, as far as the injection and the scrub go: everything but the waiting injection and the mode may change. -/
def memRegs (a : Nat) : Prop := a ≠ FC_INJ ∧ a ≠ GL_MODE
def memParts (p : Part) : Prop := p ≠ .inj ∧ p ≠ .released

theorem memRoom : WideRoom memRegs memParts where
  units a h := by unfold memRegs FC_INJ GL_MODE; omega
  imgwr := by unfold memRegs; decide
  twin a h := by unfold memRegs FC_INJ GL_MODE; unfold GL_TWSTAT GL_TWCNT at h; omega
  parts _ _ hr _ hi _ _ _ := ⟨hi, hr⟩
  tw := ⟨nofun, nofun⟩
  nt := ⟨nofun, nofun⟩

theorem mem_chip : memRegs FC_CHIP := by unfold memRegs; decide

theorem frame_copyRestart (R : ChanRoom g W S) {c : Nat} (hc : c < 3) (h : Frame W S d e) : Frame W S d (copyRestart g c e) := by
  have hput {x : Fld} (hx : x.addr = CH_STAT g c) {e : Dev} (h : Frame W S d e) : Frame W S d (e.put x 0) :=
    frame_put x 0 (hx ▸ (R.chan hc).1) h
  exact frame_ite (frame_chan R c _ (hput (x := CH_STAT_RSOK g c) rfl (hput (x := CH_STAT_RSPROG g c) rfl h))) h

/-- A double-bit error in a memory reaches what the memory serves; only that of a supervisor asks for STOP. -/
theorem frame_eccDouble (U : WideRoom W S) (hc : W FC_CHIP) (m : Memory) (hstop : m = .supervisor → S .stopReq)
    (hfb : (∃ n, m = .telemetry n) → S .fb) (h : Frame W S d e) : Frame W S d (eccDouble m e) := by
  have E := U.toBroadRoom.events
  cases m with
  | recorder p => exact frame_service FC_CHIP_DBEREC E hc h
  | telemetry n =>
    exact frame_setFb _ (hfb ⟨n, rfl⟩) (frame_telClear _ (U.toBroadRoom.cell 0).telem (frame_service FC_CHIP_DBETEL E hc h))
  | cellEngine n =>
    have hd := frame_service FC_CHIP_DBECE E hc h
    exact frame_ite hd (frame_squashCell U.toBroadRoom n.val (frame_bypassTrig (U.toBroadRoom.cell n.val) 5 hd))
  | channel g c => exact frame_giveUp (U.hand g.val).gives c.isLt 2 h
  | mullStore g =>
    exact frame_foldN 3 _ (fun _ _ hc hd => frame_copyRestart (U.toBroadRoom.region g.val).chans hc hd)
      (frame_service FC_CHIP_DBEMULL E hc h)
  | buffer i => exact frame_notice FC_CHIP_DBEBUF E hc h
  | supervisor => exact frame_raiseBit_any FC_CHIP_DBESV 0 .stop E hc (fun _ => hstop rfl) h

/-- A corrected error is counted and noted. -/
def eccNoted (d : Dev) : Dev := Dev.raise { d with fb := { d.fb with corrected := d.fb.corrected + 1 } } FC_CHIP_SBE .notice

/-- What a corrected error leaves: the rows of the scrub and the journal are all that changes further. -/
theorem eccSingle_noted (row : Nat) (scrub : Bool) (d : Dev) : ∃ fb, eccSingle row scrub d = { eccNoted d with fb := fb } ∧
    fb.corrected = (eccNoted d).fb.corrected ∧ fb.scrubPass = (eccNoted d).fb.scrubPass := by
  unfold eccSingle
  extract_lets e
  split
  · exact ⟨_, rfl, rfl, rfl⟩
  split
  · split
    · exact ⟨_, rfl, rfl, rfl⟩
    · exact ⟨_, rfl, rfl, rfl⟩
  · exact ⟨_, rfl, rfl, rfl⟩

theorem eccSingle_shows (row : Nat) (scrub : Bool) (d : Dev) : (eccSingle row scrub d).flag FC_CHIP_SBE = true ∧
    (eccSingle row scrub d).fb.corrected = d.fb.corrected + 1 ∧ (eccSingle row scrub d).fb.scrubPass = d.fb.scrubPass := by
  obtain ⟨fb, he, hc, hp⟩ := eccSingle_noted row scrub d
  have hfb : (eccNoted d).fb = { d.fb with corrected := d.fb.corrected + 1 } := raise_fb _ _ _
  rw [he]
  refine ⟨flag_raise_same _ FC_CHIP_SBE .notice rfl (by decide) (by decide) (by decide), ?_, ?_⟩
  · show fb.corrected = _
    rw [hc, hfb]
  · show fb.scrubPass = _
    rw [hp, hfb]

theorem frame_eccSingle (E : Events W S) (hc : W FC_CHIP) (hfb : S .fb) (row : Nat) (scrub : Bool) (h : Frame W S d e) :
    Frame W S d (eccSingle row scrub e) := by
  obtain ⟨fb, he, -, -⟩ := eccSingle_noted row scrub e
  rw [he]
  exact frame_setFb fb hfb (frame_notice FC_CHIP_SBE E hc (frame_setFb _ hfb h))

theorem telClear_fb (n : Nat) (d : Dev) : (d.telClear n).fb = d.fb :=
  (frame_telClear (W := fun _ => True) (S := (· ≠ .fb)) n nofun (frame_refl d)).parts .fb (not_not_intro rfl)

theorem eccDouble_scrubPass (m : Memory) (d : Dev) : (eccDouble m d).fb.scrubPass = d.fb.scrubPass := by
  have room : WideRoom (fun _ => True) (· ≠ .fb) :=
    ⟨⟨fun _ _ => trivial, trivial, fun _ _ _ _ _ h _ _ => h⟩, fun _ _ => trivial, nofun, nofun⟩
  by_cases hm : ∃ n, m = .telemetry n
  · obtain ⟨n, rfl⟩ := hm
    rw [eccDouble]
    show ((d.raise FC_CHIP_DBETEL .service).telClear n.val).fb.scrubPass = _
    rw [telClear_fb, raise_fb]
  · have hfb : (eccDouble m d).fb = d.fb :=
      (frame_eccDouble room trivial m (fun _ => nofun) (fun k => absurd k hm) (frame_refl d)).parts .fb (not_not_intro rfl)
    rw [hfb]

/-! ### A page of the recorder -/

/-- The recorder after page `p` is out. -/
def pageOut (p : Nat) (d : Dev) : Dev :=
  let r := p * 128 / recSize d
  let o := p * 128 % recSize d
  let lost := ((List.range 128).filter fun i => recHolds d r (o + i)).length
  let d := d.put DR_SECHI_PAGES (d.get DR_SECHI_PAGES - 1)
  let d := d.put (DR_RCOUNT_COUNT r) (d.get (DR_RCOUNT_COUNT r) - lost)
  let d := { d with dr := { d.dr with removed := p :: d.dr.removed } }
  let d := d.put (DR_RSTART_SLOT r) (skipPages d r 8193 (d.get (DR_RSTART_SLOT r)))
  if d.get DR_STAT_CUR = r then { d with dr := { d.dr with wr := skipPages d r 8193 d.dr.wr } } else d

theorem pageRemoved_eq (p : Nat) (s : State) : pageRemoved p s = if s.dev.dr.removed.contains p then s
    else { s with dev := pageOut p s.dev, recMem := foldN 128 (fun m i => slotSet m (128 * p + i) 0) s.recMem } := rfl

theorem pageOut_removed (p : Nat) (d : Dev) : p ∈ (pageOut p d).dr.removed := by
  unfold pageOut
  extract_lets
  split <;> exact List.mem_cons_self

theorem frame_pageOut (hdr : S .dr) (hp : W DR_SECHI) (hr : ∀ r, W (DR_RCOUNT r) ∧ W (DR_RSTART r)) (p : Nat) (h : Frame W S d e) :
    Frame W S d (pageOut p e) := by
  unfold pageOut
  extract_lets r o lost fewer counted _ gone moved
  have hfewer : Frame W S d fewer := frame_put DR_SECHI_PAGES _ hp h
  have hcounted : Frame W S d counted := frame_put (DR_RCOUNT_COUNT r) _ (hr r).1 hfewer
  have hgone : Frame W S d gone := frame_setDr _ hdr hcounted
  have hmoved : Frame W S d moved := frame_put (DR_RSTART_SLOT r) _ (hr r).2 hgone
  exact frame_ite (frame_setDr _ hdr hmoved) hmoved

theorem mem_pageRegs (r : Nat) : memRegs (DR_RCOUNT r) ∧ memRegs (DR_RSTART r) := by
  unfold memRegs FC_INJ GL_MODE DR_RCOUNT DR_RSTART
  omega

theorem pageRemoved_dev (p : Nat) (s : State) :
    (pageRemoved p s).dev = if s.dev.dr.removed.contains p then s.dev else pageOut p s.dev := by
  rw [pageRemoved_eq]
  split
  · rfl
  · rfl

theorem frame_pageRemoved (p : Nat) (s : State) (h : Frame memRegs memParts d s.dev) :
    Frame memRegs memParts d (pageRemoved p s).dev := by
  rw [pageRemoved_dev]
  exact frame_ite h (frame_pageOut ⟨nofun, nofun⟩ (by unfold memRegs; decide) mem_pageRegs p h)

/-- The slots of a page that is out read zero. -/
theorem slots_cleared (p n : Nat) (m : List (Nat × BitVec 256)) {k : Nat} (hk : k < n) :
    slotGet (foldN n (fun m i => slotSet m (128 * p + i) 0) m) (128 * p + k) = 0 := by
  induction n with
  | zero => exact absurd hk (Nat.not_lt_zero k)
  | succ n ih =>
    rw [foldN, List.range_succ, List.foldl_append, List.foldl_cons, List.foldl_nil, slotGet, slotSet, smGet_smSet]
    split
    · rfl
    · exact ih (by omega)

theorem frame_memError (m : Memory) (dbl : Bool) (row : Nat) (scrub : Bool) (s : State) (h : Frame memRegs memParts d s.dev) :
    Frame memRegs memParts d (memError m dbl row scrub s).dev := by
  unfold memError
  split
  · have hd : Frame memRegs memParts d (eccDouble m s.dev) := frame_eccDouble memRoom mem_chip m
      (fun _ => ⟨nofun, nofun⟩) (fun _ => ⟨nofun, nofun⟩) h
    cases m with
    | recorder p => exact frame_pageRemoved p.val _ hd
    | _ => exact hd
  · exact frame_eccSingle memRoom.toBroadRoom.events mem_chip ⟨nofun, nofun⟩ row scrub h

theorem memError_single (m : Memory) (row : Nat) (scrub : Bool) (s : State) :
    (memError m false row scrub s).dev = eccSingle row scrub s.dev := by rw [memError, if_neg Bool.false_ne_true]

theorem memError_supervisor (row : Nat) (scrub : Bool) (s : State) :
    (memError .supervisor true row scrub s).dev = s.dev.raise FC_CHIP_DBESV .stop := by rw [memError, if_pos rfl]; rfl

theorem memError_recorder (p : Fin 8192) (row : Nat) (scrub : Bool) (s : State) : memError (.recorder p) true row scrub s =
    pageRemoved p.val { s with dev := s.dev.raise FC_CHIP_DBEREC .service } := by rw [memError, if_pos rfl]; rfl

theorem memError_scrubPass (m : Memory) (dbl : Bool) (row : Nat) (scrub : Bool) (s : State) :
    (memError m dbl row scrub s).dev.fb.scrubPass = s.dev.fb.scrubPass := by
  have hpage (p : Nat) (d : Dev) : (pageOut p d).fb = d.fb :=
    (frame_pageOut (W := fun _ => True) (S := (· ≠ .fb)) nofun trivial (fun _ => ⟨trivial, trivial⟩) p (frame_refl d)).parts .fb
      (not_not_intro rfl)
  have hd := eccDouble_scrubPass m s.dev
  cases dbl with
  | false => rw [memError_single, (eccSingle_shows row scrub s.dev).2.2]
  | true =>
    rw [memError, if_pos rfl]
    cases m with
    | recorder p =>
      dsimp only
      rw [pageRemoved_dev]
      split
      · exact hd
      · rw [hpage]
        exact hd
    | _ => exact hd

/-! ### What a memory error answers -/

theorem settle_chip (b a : Dev) {x : Fld} (hx : x.addr = FC_CHIP) : (settle b a).flag x = a.flag x :=
  flag_congr (settle_spine b a (.inr hx))

theorem settle_fb (b a : Dev) : (settle b a).fb = a.fb := (frame_settle b a).parts .fb (fun k => k.2.1 rfl)

theorem settle_inj (b a : Dev) : (settle b a).fc.inj = a.fc.inj ∧ (settle b a).fc.injAt = a.fc.injAt :=
  Prod.ext_iff.mp ((frame_settle b a).parts .inj (fun k => k.1 rfl))

theorem sramEccError_single (h : s.awake) (m : Memory) (row : Nat) (scrub : Bool) (hi : s.dev.fc.injAt ≠ some m) :
    Answers (.sramEccError m false row scrub) s fun t =>
      t.dev.flag FC_CHIP_SBE = true ∧ t.dev.fb.corrected = s.dev.fb.corrected + 1 := by
  obtain ⟨hflag, hcnt, -⟩ := eccSingle_shows row scrub s.dev
  refine answers_wholeRunning_any rfl h ?_
  have hdev : (eccError m false row scrub s).dev = eccSingle row scrub s.dev := by rw [eccError, if_neg hi, memError_single]
  exact ⟨(settle_chip _ _ rfl).trans (hdev ▸ hflag),
    (congrArg FabricSt.corrected (settle_fb _ _)).trans (hdev ▸ hcnt)⟩

/-- The registers of a page lie in the recorder block. -/
theorem frame_pageOut_block (p : Nat) (d : Dev) : Frame (0x8000 ≤ ·) (· = .dr) d (pageOut p d) :=
  frame_pageOut (W := (0x8000 ≤ ·)) (S := (· = .dr)) rfl (by unfold DR_SECHI; omega)
    (fun r => ⟨by unfold DR_RCOUNT; omega, by unfold DR_RSTART; omega⟩) p (frame_refl d)

/-- A double error of the recorder takes its page out. -/
theorem sramEccError_recorder (h : s.awake) (p : Fin 8192) (row : Nat) (scrub : Bool) (hi : s.dev.fc.injAt ≠ some (.recorder p))
    (hp : p.val ∉ s.dev.dr.removed) : Answers (.sramEccError (.recorder p) true row scrub) s fun t =>
      t.dev.flag FC_CHIP_DBEREC = true ∧ p.val ∈ t.dev.dr.removed ∧ ∀ k, k < 128 → slotGet t.recMem (128 * p.val + k) = 0 := by
  have hflag : (s.dev.raise FC_CHIP_DBEREC .service).flag FC_CHIP_DBEREC = true :=
    flag_raise_same _ _ .service rfl (by decide) (by decide) (by decide)
  have chipBelow : ¬ 0x8000 ≤ FC_CHIP_DBEREC.addr := by show ¬ 0x8000 ≤ 0x2004; omega
  have hno : ¬ (s.dev.raise FC_CHIP_DBEREC .service).dr.removed.contains p.val = true := by
    rw [Dev.raise, raiseBit_rec (f := RecSt.removed) (fun _ _ => rfl)]
    simpa using hp
  have heq : eccError (.recorder p) true row scrub s = { s with
      dev := pageOut p.val (s.dev.raise FC_CHIP_DBEREC .service),
      recMem := foldN 128 (fun m i => slotSet m (128 * p.val + i) 0) s.recMem } := by
    rw [eccError, if_neg hi, memError_recorder, pageRemoved_eq, if_neg hno]
  have hq : Quiet s.dev (pageOut p.val (s.dev.raise FC_CHIP_DBEREC .service)) :=
    quiet_of_frame (frame_trans (frame_service FC_CHIP_DBEREC calmEvents (by decide) (frame_refl _))
      (frame_mono (fun a ha k => by unfold GL_MODE at k; omega) (fun p hp => by rw [hp]; trivial) (frame_pageOut_block p.val _)))
  refine answers_wholeRunning rfl h (by rw [heq]; exact hq) ?_
  have hslots (k : Nat) (hk : k < 128) := slots_cleared p.val 128 s.recMem hk
  rw [heq]
  generalize foldN 128 (fun m i => slotSet m (128 * p.val + i) 0) s.recMem = cleared at hslots ⊢
  refine ⟨?_, ?_, hslots⟩
  · show (tripOutRelease _).flag FC_CHIP_DBEREC = true
    rw [tripOutRelease_flag _ _ (by decide), (frame_pageOut_block p.val _).flag FC_CHIP_DBEREC chipBelow]
    exact hflag
  · show p.val ∈ (tripOutRelease _).dr.removed
    rw [tripOutRelease_dr]
    exact pageOut_removed p.val _

/-- A double error of a supervisor's data is STOP. -/
theorem sramEccError_supervisor (h : s.awake) (row : Nat) (scrub : Bool) (hi : s.dev.fc.injAt ≠ some .supervisor)
    (hf : s.dev.flag FC_CHIP_DBESV = false) : Answers (.sramEccError .supervisor true row scrub) s fun t =>
      t.dev.mode = modeSTOP ∧ t.dev.flag FC_CHIP_DBESV = true := by
  have hdev : (eccError .supervisor true row scrub s).dev = s.dev.raise FC_CHIP_DBESV .stop := by
    rw [eccError, if_neg hi, memError_supervisor]
  refine answers_wholeRunning_any rfl h ?_
  rw [hdev]
  exact ⟨settle_stop _ _ (.inr (.inl (raise_stop_stopReq _ _ (bit_of_flag_false hf)))),
    (settle_chip _ _ rfl).trans (flag_raise_same _ _ .stop rfl (by decide) (by decide) (by decide))⟩

theorem injDone_chip (d : Dev) {x : Fld} (hx : x.addr = FC_CHIP) : (injDone d).flag x = d.flag x :=
  flag_congr (get_put_ne _ FC_INJ_GO x 0 (by rw [hx]; decide))

/-- The error that an injection has made ends the injection, and is one of its own count of bits. -/
theorem sramEccError_injected (h : s.awake) {m : Memory} {tg i : Nat} {dbl : Bool} (e : Bool) (row : Nat) (scrub : Bool)
    (hat : s.dev.fc.injAt = some m) (hinj : s.dev.fc.inj = some (tg, dbl, i)) : Answers (.sramEccError m e row scrub) s fun t =>
      t.dev.fc.inj = none ∧ t.dev.flag FC_INJ_GO = false ∧ (dbl = false → t.dev.flag FC_CHIP_SBE = true) ∧
        (m = .supervisor → dbl = true → s.dev.flag FC_CHIP_DBESV = false → t.dev.mode = modeSTOP) := by
  have hdbl : injDouble s.dev = dbl := by rw [injDouble, hinj]
  have heq : eccError m e row scrub s = memError m dbl row scrub { s with dev := injDone s.dev } := by
    rw [eccError, if_pos hat, hdbl]
  have hk : Frame memRegs memParts (injDone s.dev) (memError m dbl row scrub { s with dev := injDone s.dev }).dev :=
    frame_memError m dbl row scrub _ (frame_refl _)
  refine answers_wholeRunning_any rfl h ?_
  rw [heq]
  refine ⟨?_, ?_, ?_, ?_⟩
  · exact (settle_inj _ _).1.trans (Prod.ext_iff.mp (hk.parts .inj (fun k => k.1 rfl))).1
  · exact ((frame_settle _ _).flag FC_INJ_GO (by unfold settledRegs; decide)).trans
      ((hk.flag FC_INJ_GO (fun k => k.1 rfl)).trans (flag_put_zero _ FC_INJ_GO (by decide)))
  · rintro rfl
    exact (settle_chip _ _ rfl).trans (by rw [memError_single]; exact (eccSingle_shows row scrub _).1)
  · rintro rfl rfl hf
    refine settle_stop _ _ (.inr (.inl ?_))
    rw [memError_supervisor]
    exact raise_stop_stopReq _ _ (bit_of_flag_false ((injDone_chip s.dev rfl).trans hf))

/-! ## The scrub (R53, R304) -/

theorem injUse_fb (d : Dev) : (injUse d).fb = d.fb := by
  have hstore (m : Memory) : (injStore m d).fb = d.fb := by unfold injStore; split <;> rfl
  unfold injUse
  split
  · split
    · exact hstore _
    · rfl
  · rfl

theorem sramScrub_passes (h : s.awake) :
    Answers .sramScrub s fun t => t.dev.fb.scrubPass = s.dev.fb.scrubPass + 1 ∧ t.dev.fc.injAt = none := by
  refine answers_wholeRunning_any rfl h ?_
  have hpass : (scrubPass s).dev.fb.scrubPass = s.dev.fb.scrubPass + 1 ∧ (scrubPass s).dev.fc.injAt = none := by
    unfold scrubPass
    extract_lets _ _ d
    have hd : d.fb.scrubPass = s.dev.fb.scrubPass + 1 := congrArg FabricSt.scrubPass (injUse_fb _)
    clear_value d
    cases hat : d.fc.injAt with
    | none => exact ⟨hd, hat⟩
    | some m =>
      have hk := frame_memError m (injDouble d) (Config.memoryRow m d.fb.scrubPass) true { s with dev := injDone d } (frame_refl _)
      exact ⟨(memError_scrubPass m _ _ true _).trans hd, (Prod.ext_iff.mp (hk.parts .inj (fun k => k.1 rfl))).2⟩
  exact ⟨(congrArg FabricSt.scrubPass (settle_fb _ _)).trans hpass.1, (settle_inj _ _).2.trans hpass.2⟩

/-! ## Temperature (R445, R467) -/

/-- MNT_ALERT_N is low in STOP. -/
theorem mntAlert_of_stop (h : d.mode = modeSTOP) : mntAlert d = true := by
  have hsum : 16 ≤ fcSum d := by
    unfold fcSum
    rw [h]
    exact Nat.le_add_left 16 _
  unfold mntAlert
  simp only [bne_iff_ne]
  omega

/-- A register that does not hold its reset value is listed. -/
theorem mem_regs {a : Nat} (h : d.word a ≠ resetWord a) : (a, d.word a) ∈ d.regs := by
  have key : ∀ m : List (Nat × Word), smGet resetWord m a ≠ resetWord a → (a, smGet resetWord m a) ∈ m := by
    intro m
    induction m with
    | nil => exact fun k => absurd rfl k
    | cons p m ih =>
      obtain ⟨b, v⟩ := p
      by_cases hb : b = a
      · subst hb
        intro _
        have hv : smGet resetWord ((b, v) :: m) b = v := by simp [smGet, smLook]
        rw [hv]
        exact List.mem_cons_self
      · intro hne
        have hv : smGet resetWord ((b, v) :: m) a = smGet resetWord m a := by simp [smGet, smLook, hb]
        rw [hv] at hne ⊢
        exact List.mem_cons_of_mem _ (ih hne)
  exact key d.regs h

/-- A flag whose class satisfies `p` is set (Table 11.5). -/
def classShown (p : Cls → Bool) (d : Dev) : Bool := d.regs.any fun e =>
  stickySet e.1 e.2 && (List.range 32).any fun b =>
    bitOf (e.2.toNat &&& stickyMask e.1) b && match flagClass e.1 b d with
      | some c => p c
      | none => false

theorem fcSum_eq (d : Dev) : fcSum d = b2n (classShown (· == .notice) d) + 2 * b2n (classShown (· == .service) d) +
    4 * b2n (!(protFlags d).1.isEmpty) + 8 * b2n (protFlags d).2 + 16 * b2n (d.mode == modeSTOP) := rfl

/-- A temperature above the limit that shows drives MNT_ALERT_N low. -/
theorem mntAlert_of_tjHi (h : d.flag FC_CHIP_TJHI = true) : mntAlert d = true := by
  have hbit : bitOf (d.word FC_CHIP).toNat 12 = true := by
    have h1 : d.get FC_CHIP_TJHI ≠ 0 := (flag_iff d _).mp h
    have h2 : d.get FC_CHIP_TJHI = (d.word FC_CHIP).toNat / 2 ^ 12 % 2 ^ 1 := by
      rw [Dev.get, fldGet, BitVec.toNat_ushiftRight, Nat.shiftRight_eq_div_pow]
      rfl
    exact beq_iff_eq.mpr (by omega)
  have hmem : (FC_CHIP, d.word FC_CHIP) ∈ d.regs := mem_regs fun k => by
    rw [k] at hbit
    exact absurd hbit (by decide)
  have hboth : bitOf ((d.word FC_CHIP).toNat &&& stickyMask FC_CHIP) 12 = true := by
    have hsticky : bitOf (stickyMask FC_CHIP) 12 = true := by decide
    rw [bitOf_eq_testBit] at hbit hsticky ⊢
    rw [Nat.testBit_and, hbit, hsticky]
    rfl
  have hset : stickySet FC_CHIP (d.word FC_CHIP) = true := by
    unfold stickySet
    rw [bne_iff_ne]
    intro k
    rw [k] at hboth
    exact absurd hboth (by decide)
  have hany : classShown (· == .service) d = true := by
    refine List.any_eq_true.mpr ⟨_, hmem, ?_⟩
    dsimp only
    rw [hset, Bool.true_and]
    exact List.any_eq_true.mpr ⟨12, by decide, by rw [hboth]; rfl⟩
  have hsum : 2 ≤ fcSum d := by
    rw [fcSum_eq, hany, b2n, b2n, if_pos rfl]
    omega
  unfold mntAlert
  simp only [bne_iff_ne]
  omega

theorem tjUpdate_shows (tj : BitVec 13) (d : Dev) : (tjUpdate tj.toNat d).getS GL_TJ_TJ = tj.toInt ∧
    (2000 < tj.toInt → (tjUpdate tj.toNat d).flag FC_CHIP_TJHI = true) := by
  unfold tjUpdate
  extract_lets v shown top hot _ noted
  have hv : v = tj.toInt := toS_toNat tj
  have hshown : shown.getS GL_TJ_TJ = tj.toInt := getS_put_toNat d GL_TJ_TJ tj (by decide)
  have htop : top.getS GL_TJ_TJ = tj.toInt := by
    show (if _ then shown.put GL_TJ_TJMAX _ else shown).getS GL_TJ_TJ = _
    split
    · rw [Dev.getS, get_put_disj _ _ GL_TJ_TJ _ (by decide) (by decide)]
      exact hshown
    · exact hshown
  have hnoted : noted.getS GL_TJ_TJ = tj.toInt := htop
  clear_value noted
  refine ⟨?_, fun hhot => ?_⟩
  · split
    · rw [Dev.getS, get_raise_ne _ _ _ _ (by decide) (by decide) (by decide)]
      exact hnoted
    · exact hnoted
  · rw [if_pos (show hot = true from decide_eq_true (hv ▸ hhot))]
    exact flag_raise_same _ FC_CHIP_TJHI .service rfl (by decide) (by decide) (by decide)

theorem tjSensorUpdate_shows (h : s.awake) (tj : BitVec 13) : Answers (.tjSensorUpdate tj) s fun t =>
    t.dev.getS GL_TJ_TJ = tj.toInt ∧ (2000 < tj.toInt → t.dev.flag FC_CHIP_TJHI = true ∧ mntAlert t.dev = true) := by
  obtain ⟨htj, hhot⟩ := tjUpdate_shows tj s.dev
  refine answers_within rfl h (quiet_tjUpdate tj.toNat (quiet_refl _)) ⟨?_, fun k => ?_⟩
  · show (tripOutRelease _).getS GL_TJ_TJ = _
    rw [Dev.getS, tripOutRelease_get _ _ (by decide)]
    exact htj
  · have hf : (tripOutRelease (tjUpdate tj.toNat s.dev)).flag FC_CHIP_TJHI = true :=
      (tripOutRelease_flag _ _ (by decide)).trans (hhot k)
    exact ⟨hf, mntAlert_of_tjHi hf⟩

theorem tjTrip_stops (h : s.awake) (ht : 2240 < s.dev.getS GL_TJ_TJ) (hf : s.dev.flag FC_CHIP_TJTRIP = false) :
    Answers .tjTripTimeout s fun t => t.dev.mode = modeSTOP ∧ t.dev.flag FC_CHIP_TJTRIP = true ∧ mntAlert t.dev = true := by
  refine answers_within_stop rfl h ?_
  have hm : (settle s.dev (tjTrip s.dev)).mode = modeSTOP := by
    rw [tjTrip, if_pos ht]
    exact settle_stop _ _ (.inr (.inl (raise_stop_stopReq _ _ (bit_of_flag_false hf))))
  refine ⟨hm, ?_, mntAlert_of_stop hm⟩
  show (settle _ (tjTrip s.dev)).flag _ = true
  rw [tjTrip, if_pos ht, settle_chip _ _ rfl]
  exact flag_raise_same _ FC_CHIP_TJTRIP .stop rfl (by decide) (by decide) (by decide)

/-- Settles O42, each clause by the reading of its command. -/
theorem faultSources : Obligations.FaultSources := fun _ h =>
  ⟨faultInject_waits h, spineCrcError_answers h, sramEccError_single h, sramEccError_recorder h, sramEccError_supervisor h,
    fun _ _ _ _ e row scrub hat hinj => sramEccError_injected h e row scrub hat hinj, sramScrub_passes h, tjSensorUpdate_shows h,
    tjTrip_stops h⟩

end Sys2Proof.Machine
end

section
/-! PROOFS. The fabric: unit margins, evaluation windows, the regulator and the journal (O44). -/

namespace Sys2Proof.Machine

variable {W : Nat → Prop} {S : Part → Prop} {d e : Dev} {s : State}

/-! ## Unit runs (R42, R44) -/

/-- The registers of the sort slices. -/
def sliceRegs (a : Nat) : Prop := ∃ i, i < 80 ∧ a = FB_SLICE i

theorem not_sliceRegs {a : Nat} (h : a < 0x1200) : ¬ sliceRegs a := by
  rintro ⟨i, -, rfl⟩
  unfold FB_SLICE at h
  omega

theorem sliceOf_lt {q i : Nat} (h : sliceOf q d = some i) : i < 80 := List.mem_range.mp (List.mem_of_find?_eq_some h)

/-- What a run shows of its class. -/
def classMargin (x : Nat) (m : Nat × Bool) (d : Dev) : Dev :=
  let d := d.put (FB_CLSMARG_LAST x) m.1
  if m.2 then d.bump (FB_CLSSTAT_MISSCNT x) else d

/-- The minimum of the window after a run. -/
def windowMin (x unit : Nat) (m : Nat × Bool) (d : Dev) : Dev :=
  if d.fb.holdoff then d
  else
    let w := clsWin x d
    let w := if ¬ w.seen ∨ m.1 < w.minM then { w with minM := m.1, unit := unit, seen := true } else w
    setClsWin x { w with miss := w.miss || m.2 } d

/-- The sort time of a whole slice. -/
def sortShown (x unit busy : Nat) (d : Dev) : Dev :=
  if x = 0 ∧ sortLoad unit d = 128 then
    match sliceOf unit d with
    | some i => sliceSpeed i busy d
    | none => d
  else d

theorem unitRun_assigned {x u ts td tdl : Nat} (hm : ¬ (d.mode = modeLOAD ∨ d.mode = modeSTOP)) (hu : u < classUnits x) :
    unitRun x u ts td tdl d = sortShown x u (td - ts) (windowMin x u (margin ts td tdl) (classMargin x (margin ts td tdl) d)) := by
  rw [unitRun, if_neg hm, if_neg (Nat.not_le.mpr hu)]
  rfl

theorem unitRun_free {x i ts td tdl : Nat} (hm : ¬ (d.mode = modeLOAD ∨ d.mode = modeSTOP)) (hu : classUnits x ≤ 64 + i)
    (hf : sliceFree d i = true) : unitRun x (64 + i) ts td tdl d = sliceSpeed i (td - ts) d := by
  rw [unitRun, if_neg hm, if_pos hu, Nat.add_sub_cancel_left, if_pos hf]

theorem frame_sliceSpeed (i busy : Nat) (hi : W (FB_SLICE i)) (h : Frame W S d e) : Frame W S d (sliceSpeed i busy e) :=
  frame_put (FB_SLICE_SPEED i) _ hi h

/-- What a run changes further lies in the slices and in the window. -/
theorem frame_runRest (x u busy : Nat) (m : Nat × Bool) (d : Dev) :
    Frame sliceRegs (· = .fb) d (sortShown x u busy (windowMin x u m d)) := by
  have hmin : Frame sliceRegs (· = .fb) d (windowMin x u m d) := frame_ite (frame_refl d) (frame_setFb _ rfl (frame_refl d))
  unfold sortShown
  split
  · split
    next i hi => exact frame_sliceSpeed i busy ⟨i, sliceOf_lt hi, rfl⟩ hmin
    next => exact hmin
  · exact hmin

theorem frame_classMargin (x : Nat) (hx : x < 6) (m : Nat × Bool) (d : Dev) : Frame calmRegs calmParts d (classMargin x m d) := by
  have hmarg : calmRegs (FB_CLSMARG x) := by unfold calmRegs FB_CLSMARG GL_MODE; omega
  have hstat : calmRegs (FB_CLSSTAT x) := by unfold calmRegs FB_CLSSTAT GL_MODE; omega
  have hlast := frame_put (W := calmRegs) (S := calmParts) (FB_CLSMARG_LAST x) m.1 hmarg (frame_refl d)
  exact frame_ite (frame_bump (FB_CLSSTAT_MISSCNT x) 1 hstat hlast) hlast

theorem margin_fst (ts td tdl : Nat) : (margin ts td tdl).1 = if tdl ≤ td then 0 else min ((tdl - td) * 4096 / (td - ts)) 0xFFFF := by
  unfold margin
  split <;> rfl

theorem margin_missed {ts td tdl : Nat} (h : tdl ≤ td) : (margin ts td tdl).2 = true := by rw [margin, if_pos h]

theorem margin_lt (ts td tdl : Nat) : (margin ts td tdl).1 < 2 ^ 16 := by
  rw [margin_fst]
  split <;> omega

/-- The margin of a run and its miss, as the class shows them. -/
theorem classMargin_shows (x : Nat) (m : Nat × Bool) (hm : m.1 < 2 ^ 16) (d : Dev) :
    (classMargin x m d).get (FB_CLSMARG_LAST x) = m.1 ∧
    (m.2 = true → (classMargin x m d).get (FB_CLSSTAT_MISSCNT x) =
      satInc (FB_CLSSTAT_MISSCNT x).width (d.get (FB_CLSSTAT_MISSCNT x)) 1) := by
  have hne : FB_CLSSTAT x ≠ FB_CLSMARG x := by unfold FB_CLSSTAT FB_CLSMARG; omega
  have hlast : (d.put (FB_CLSMARG_LAST x) m.1).get (FB_CLSMARG_LAST x) = m.1 :=
    get_put_lt d (FB_CLSMARG_LAST x) m.1 (Nat.le_of_ble_eq_true rfl) hm
  unfold classMargin
  refine ⟨?_, fun hmiss => ?_⟩
  · split
    · exact (get_put_ne _ (FB_CLSSTAT_MISSCNT x) (FB_CLSMARG_LAST x) _ hne).trans hlast
    · exact hlast
  · rw [if_pos hmiss, get_bump_same _ (FB_CLSSTAT_MISSCNT x) 1 (Nat.le_of_ble_eq_true rfl),
      get_put_ne _ (FB_CLSMARG_LAST x) (FB_CLSSTAT_MISSCNT x) _ hne.symm]

theorem out_of_load (h : s.awake) (hl : s.dev.mode ≠ modeLOAD) : ¬ (s.dev.mode = modeLOAD ∨ s.dev.mode = modeSTOP) :=
  not_or.mpr ⟨hl, h.2.1⟩

theorem answers_unitRun {x : Fin 6} {u ts td tdl : Nat} {P : State → Prop} (hwf : (Instr.unitRunComplete x u ts td tdl).wf = true)
    (h : s.awake) (q : Quiet s.dev (unitRun x.val u ts td tdl s.dev))
    (hP : P { s with dev := tripOutRelease (unitRun x.val u ts td tdl s.dev) }) : Answers (.unitRunComplete x u ts td tdl) s P :=
  answers_running (show execUnitRunComplete x u ts td tdl s = _ from if_pos hwf) h q hP

theorem unitRun_shows (h : s.awake) (x : Fin 6) (u ts td tdl : Nat) (hwf : (Instr.unitRunComplete x u ts td tdl).wf = true)
    (hu : u < classUnits x.val) (hl : s.dev.mode ≠ modeLOAD) : Answers (.unitRunComplete x u ts td tdl) s fun t =>
      t.dev.get (FB_CLSMARG_LAST x.val) = (if tdl ≤ td then 0 else min ((tdl - td) * 4096 / (td - ts)) 0xFFFF) ∧
      (tdl ≤ td → t.dev.get (FB_CLSSTAT_MISSCNT x.val) =
        satInc (FB_CLSSTAT_MISSCNT x.val).width (s.dev.get (FB_CLSSTAT_MISSCNT x.val)) 1) := by
  have hx := x.isLt
  have hshown := frame_classMargin x.val hx (margin ts td tdl) s.dev
  have hrest := frame_runRest x.val u (td - ts) (margin ts td tdl) (classMargin x.val (margin ts td tdl) s.dev)
  obtain ⟨hlast, hmiss⟩ := classMargin_shows x.val (margin ts td tdl) (margin_lt ts td tdl) s.dev
  have hq : Quiet s.dev (unitRun x.val u ts td tdl s.dev) := by
    rw [unitRun_assigned (out_of_load h hl) hu]
    exact quiet_of_frame (frame_trans hshown (frame_mono
      (fun a ha k => not_sliceRegs (by rw [k]; decide) ha) (fun p hp => by rw [hp]; trivial) hrest))
  refine answers_unitRun hwf h hq ?_
  rw [unitRun_assigned (out_of_load h hl) hu]
  have hmargReg : FB_CLSMARG x.val < 0x1200 := by unfold FB_CLSMARG; omega
  have hstatReg : FB_CLSSTAT x.val < 0x1200 := by unfold FB_CLSSTAT; omega
  refine ⟨?_, fun hd => ?_⟩
  · exact (tripOutRelease_get _ (FB_CLSMARG_LAST x.val) (by show FB_CLSMARG x.val ≠ _; unfold FC_TRIPSTAT; omega)).trans
      ((hrest.get (FB_CLSMARG_LAST x.val) (not_sliceRegs hmargReg)).trans (hlast.trans (margin_fst ts td tdl)))
  · exact (tripOutRelease_get _ (FB_CLSSTAT_MISSCNT x.val) (by show FB_CLSSTAT x.val ≠ _; unfold FC_TRIPSTAT; omega)).trans
      ((hrest.get (FB_CLSSTAT_MISSCNT x.val) (not_sliceRegs hstatReg)).trans (hmiss (margin_missed hd)))

/-- A dry pass of a slice that serves nothing shows in its SPEED. -/
theorem sliceRun_shows (h : s.awake) (i ts td tdl : Nat) (hi : i < 80) (ht : ts < td) (hl : s.dev.mode ≠ modeLOAD)
    (hf : sliceFree s.dev i = true) : Answers (.unitRunComplete 0 (64 + i) ts td tdl) s fun t =>
      t.dev.get (FB_SLICE_SPEED i) = min (td - ts) 0xFFFF ∧ t.dev.fb = s.dev.fb ∧
        t.dev.get (FB_CLSMARG_LAST 0) = s.dev.get (FB_CLSMARG_LAST 0) := by
  have heq : unitRun 0 (64 + i) ts td tdl s.dev = sliceSpeed i (td - ts) s.dev :=
    unitRun_free (out_of_load h hl) (show 64 ≤ 64 + i from Nat.le_add_right _ _) hf
  have hreg : FB_SLICE i ≠ GL_MODE ∧ FB_SLICE i ≠ FC_TRIPSTAT ∧ FB_SLICE i ≠ FB_CLSMARG 0 := by
    unfold FB_SLICE GL_MODE FC_TRIPSTAT FB_CLSMARG; omega
  have hwf : (Instr.unitRunComplete 0 (64 + i) ts td tdl).wf = true := by
    have hc : classSize (0 : Fin 6).val = 144 := rfl
    show (decide _ && decide _) = true
    rw [hc, decide_eq_true (by omega), decide_eq_true ht]
    rfl
  refine answers_unitRun hwf h ?_ ?_
  · show Quiet s.dev (unitRun 0 (64 + i) ts td tdl s.dev)
    rw [heq]
    exact quiet_of_frame (frame_sliceSpeed i _ hreg.1 (frame_refl _))
  · show _ ∧ _ ∧ _
    have heq' : unitRun (0 : Fin 6).val (64 + i) ts td tdl s.dev = sliceSpeed i (td - ts) s.dev := heq
    rw [heq']
    refine ⟨?_, by rw [tripOutRelease_fb]; rfl, ?_⟩
    · exact (tripOutRelease_get _ (FB_SLICE_SPEED i) hreg.2.1).trans
        (get_put_lt s.dev (FB_SLICE_SPEED i) _ (Nat.le_of_ble_eq_true rfl)
          (Nat.lt_of_le_of_lt (Nat.min_le_right _ _) (show 0xFFFF < 2 ^ 16 by decide)))
    · exact (tripOutRelease_get _ (FB_CLSMARG_LAST 0) (by decide)).trans
        (get_put_ne s.dev (FB_SLICE_SPEED i) (FB_CLSMARG_LAST 0) _ hreg.2.2)

end Sys2Proof.Machine
end

section
/-! PROOFS. The fabric continued: evaluation windows, the regulator and the journal (O44). -/

namespace Sys2Proof.Machine

variable {W : Nat → Prop} {S : Part → Prop} {d e : Dev} {s : State}

/-! ## Evaluation windows (R44, R57) -/

/-- The registers that the evaluation of class `x` changes. -/
def evalRegs (x a : Nat) : Prop := a = FB_CLSMARG x ∨ a = FB_CLSSTAT x ∨ a = NT_EVT ∨ a = NT_CNT1

theorem frame_evalOwn (x : Nat) (d : Dev) : Frame (evalRegs x) (fun p => p = .fc ∨ p = .dr) d (evalClass d x) :=
  frame_evalClass ⟨.inr (.inr (.inl rfl)), .inr (.inr (.inr rfl)), .inl rfl, .inr rfl⟩ x (.inl rfl) (.inr (.inl rfl)) (frame_refl d)

theorem evalClass_fb (x : Nat) (d : Dev) : (evalClass d x).fb = d.fb := (frame_evalOwn x d).parts .fb (by simp)

/-- A class keeps its thresholds, and what it shows when another class is evaluated. -/
theorem evalClass_word (x : Nat) (d : Dev) {a : Nat} (h : a < 0x1200) (hm : a ≠ FB_CLSMARG x) (hs : a ≠ FB_CLSSTAT x) :
    (evalClass d x).word a = d.word a :=
  (frame_evalOwn x d).words a (by unfold evalRegs NT_EVT NT_CNT1; omega)

theorem evalClass_thr (x y : Nat) (d : Dev) (hy : y < 6) : (evalClass d x).get (FB_CLSTHR_WARN y) = d.get (FB_CLSTHR_WARN y) :=
  get_congr _ _ (FB_CLSTHR_WARN y) (evalClass_word x d (by show FB_CLSTHR y < _; unfold FB_CLSTHR; omega)
    (by show FB_CLSTHR y ≠ _; unfold FB_CLSTHR FB_CLSMARG; omega) (by show FB_CLSTHR y ≠ _; unfold FB_CLSTHR FB_CLSSTAT; omega))

theorem evalClass_other {x y : Nat} (d : Dev) (hy : y < 6) (hxy : y ≠ x) :
    (evalClass d x).get (FB_CLSSTAT_WARN y) = d.get (FB_CLSSTAT_WARN y) :=
  get_congr _ _ (FB_CLSSTAT_WARN y) (evalClass_word x d (by show FB_CLSSTAT y < _; unfold FB_CLSSTAT; omega)
    (by show FB_CLSSTAT y ≠ _; unfold FB_CLSSTAT FB_CLSMARG; omega) (by show FB_CLSSTAT y ≠ _; unfold FB_CLSSTAT; omega))

/-- A flag of the register of a class, which no event touches. -/
theorem clsStat_raise {x : Nat} {f : Fld} (hf : f.addr = FB_CLSSTAT x) (hx : x < 6) : f.addr ≠ NT_EVT ∧ f.addr ≠ NT_CNT1 := by
  rw [hf]
  unfold FB_CLSSTAT NT_EVT NT_CNT1
  omega

/-- A class whose minimum lies below WARN shows it. -/
theorem evalClass_warns {x : Nat} (d : Dev) (hx : x < 6) (h : (clsWin x d).minM < d.get (FB_CLSTHR_WARN x)) :
    (evalClass d x).flag (FB_CLSSTAT_WARN x) = true := by
  have hshown : ∀ a b, ((d.put (FB_CLSMARG_WINMIN x) a).put (FB_CLSSTAT_UNIT x) b).get (FB_CLSTHR_WARN x) =
      d.get (FB_CLSTHR_WARN x) := fun a b =>
    (get_put_ne _ (FB_CLSSTAT_UNIT x) (FB_CLSTHR_WARN x) b (by show FB_CLSSTAT x ≠ FB_CLSTHR x; unfold FB_CLSTHR FB_CLSSTAT; omega)).trans
      (get_put_ne d (FB_CLSMARG_WINMIN x) (FB_CLSTHR_WARN x) a (by show FB_CLSMARG x ≠ FB_CLSTHR x; unfold FB_CLSTHR FB_CLSMARG; omega))
  have hown : ∀ f : Fld, f.addr = FB_CLSSTAT x → f.addr ≠ NT_EVT ∧ f.addr ≠ NT_CNT1 := fun f hf => clsStat_raise hf hx
  have hkeep : ∀ (e : Dev) (f : Fld), f.addr = FB_CLSSTAT x → 1 ≤ f.lsb → e.flag (FB_CLSSTAT_WARN x) = true →
      (e.raise f .notice).flag (FB_CLSSTAT_WARN x) = true := fun e f hf hl he =>
    (flag_congr (get_raise_disj e f (FB_CLSSTAT_WARN x) .notice hf.symm (hown f hf).1 (hown f hf).2
      (Nat.le_of_ble_eq_true rfl) (.inl hl))).trans he
  unfold evalClass
  extract_lets w shown warned acted
  have hwarned : warned.flag (FB_CLSSTAT_WARN x) = true := by
    show (if w.minM < shown.get _ then shown.raise _ _ else shown).flag _ = true
    rw [if_pos ((hshown _ _).symm ▸ h)]
    exact flag_raise_same shown (FB_CLSSTAT_WARN x) .notice rfl (Nat.le_of_ble_eq_true rfl) (hown (FB_CLSSTAT_WARN x) rfl).1
      (hown (FB_CLSSTAT_WARN x) rfl).2
  have hacted : acted.flag (FB_CLSSTAT_WARN x) = true := by
    show (if _ then warned.raise _ _ else warned).flag _ = true
    split
    · exact hkeep _ (FB_CLSSTAT_ACT x) rfl (Nat.le_refl 1) hwarned
    · exact hwarned
  split
  · exact hkeep _ (FB_CLSSTAT_MISS x) rfl (show 1 ≤ 2 by decide) hacted
  · exact hacted

/-- Every class below `n` has been evaluated by its own window. -/
theorem foldN_evalClass (n : Nat) (hn : n ≤ 6) (d : Dev) :
    (foldN n evalClass d).fb = d.fb ∧ (∀ y, y < 6 → (foldN n evalClass d).get (FB_CLSTHR_WARN y) = d.get (FB_CLSTHR_WARN y)) ∧
    ∀ y, y < n → (clsWin y d).minM < d.get (FB_CLSTHR_WARN y) → (foldN n evalClass d).flag (FB_CLSSTAT_WARN y) = true := by
  induction n with
  | zero => exact ⟨rfl, fun _ _ => rfl, fun _ h => absurd h (Nat.not_lt_zero _)⟩
  | succ n ih =>
    obtain ⟨hfb, hthr, hwarn⟩ := ih (Nat.le_of_succ_le hn)
    have hstep : foldN (n + 1) evalClass d = evalClass (foldN n evalClass d) n := by
      rw [foldN, List.range_succ, List.foldl_append]
      rfl
    rw [hstep]
    refine ⟨(evalClass_fb n _).trans hfb, fun y hy => (evalClass_thr n y _ hy).trans (hthr y hy), fun y hy hlow => ?_⟩
    by_cases h : y = n
    · subst h
      refine evalClass_warns _ (by omega) ?_
      rw [hthr y (by omega), clsWin, hfb]
      exact hlow
    · exact (flag_congr (evalClass_other _ (by omega) h)).trans (hwarn y (by omega) hlow)

/-- What a ladder step leaves: what the classes show. -/
def ladderRegs (a : Nat) : Prop := a = FB_VDD ∨ a = FB_LADDER ∨ a = FB_TCMIN ∨ a = FC_CHIP ∨ a = NT_EVT ∨ a = NT_CNT1

theorem ladderRoom : LadderRoom ladderRegs calmParts where
  evt := .inr (.inr (.inr (.inr (.inl rfl))))
  cnt := .inr (.inr (.inr (.inr (.inr rfl))))
  fc := trivial
  dr := trivial
  vdd := .inl rfl
  ladder := .inr (.inl rfl)
  tcmin := .inr (.inr (.inl rfl))
  chip := .inr (.inr (.inr (.inl rfl)))
  fb := trivial
  sent := trivial

/-- The window record of the classes. -/
def winOf (d : Dev) : List (Nat × ClsWin) × Nat := (d.fb.cls, d.fb.winPer)

theorem winOf_congr (h : e.fb = d.fb) : winOf e = winOf d := by rw [winOf, winOf, h]

theorem setVdd_win (code : Nat) (d : Dev) : winOf (setVdd code d) = winOf d := rfl

theorem raiseTcmin_win (d : Dev) : winOf (raiseTcmin d) = winOf d := by
  unfold raiseTcmin
  exact (winOf_congr (raise_fb _ _ _)).trans rfl

theorem ladderStep_win (x unit : Nat) (d : Dev) : winOf (ladderStep x unit d) = winOf d := by
  unfold ladderStep
  split
  · exact raiseTcmin_win d
  split
  · rfl
  split
  · rfl
  split
  · rfl
  · split
    · exact raiseTcmin_win d
    · exact winOf_congr (raise_fb _ _ _)

theorem windowLadder_win (req : Option Nat) (unit : Nat) (d : Dev) : winOf (windowLadder req unit d) = winOf d := by
  unfold windowLadder
  split
  · rfl
  cases req with
  | some x => exact ladderStep_win x unit d
  | none =>
    dsimp only
    split <;> rfl

theorem evalWindow_due (hm : ¬ (d.mode = modeLOAD ∨ d.mode = modeSTOP)) (ho : d.fb.holdoff = false)
    (hw : d.get FB_EVAL_WINDOW ≤ d.fb.winPer) : evalWindow d =
      windowLadder (requester d) (minUnit d) (windowBegun (allRelaxed d) (foldN 6 evalClass d)) := by
  have hno : ¬ (d.mode = modeLOAD ∨ d.mode = modeSTOP ∨ d.fb.holdoff = true ∨ d.fb.winPer < d.get FB_EVAL_WINDOW) := by
    rintro (k | k | k | k)
    · exact hm (.inl k)
    · exact hm (.inr k)
    · exact Bool.false_ne_true (ho.symm.trans k)
    · exact Nat.not_le.mpr k hw
  rw [evalWindow_eq, if_neg hno]

theorem windowBegun_flag (rel : Bool) (d : Dev) (x : Fld) : (windowBegun rel d).flag x = d.flag x := rfl

theorem quiet_evalWindow (d : Dev) : Quiet d (evalWindow d) :=
  quiet_of_frame (frame_evalWindow ⟨⟨calmEvents, fun a ha k => by unfold GL_MODE at k; omega, calmRefuse⟩, trivial, trivial⟩
    (frame_refl d))

theorem evalWindowEnd_evaluates (h : s.awake) (hl : s.dev.mode ≠ modeLOAD) (ho : s.dev.fb.holdoff = false)
    (hw : s.dev.get FB_EVAL_WINDOW ≤ s.dev.fb.winPer) : Answers .evalWindowEnd s fun t => t.dev.fb.cls = [] ∧ t.dev.fb.winPer = 0 ∧
      ∀ x, x < 6 → (clsWin x s.dev).minM < s.dev.get (FB_CLSTHR_WARN x) → t.dev.flag (FB_CLSSTAT_WARN x) = true := by
  obtain ⟨-, -, hwarn⟩ := foldN_evalClass 6 (Nat.le_refl 6) s.dev
  refine answers_running rfl h (quiet_evalWindow s.dev) ?_
  rw [evalWindow_due (out_of_load h hl) ho hw]
  generalize minUnit s.dev = unit
  generalize requester s.dev = req
  generalize allRelaxed s.dev = rel
  have hwin := windowLadder_win req unit (windowBegun rel (foldN 6 evalClass s.dev))
  have hk := frame_windowLadder ladderRoom req unit (frame_refl (windowBegun rel (foldN 6 evalClass s.dev)))
  obtain ⟨hcls, hper⟩ := Prod.ext_iff.mp hwin
  refine ⟨?_, ?_, fun x hx hlow => ?_⟩
  · show (tripOutRelease _).fb.cls = []
    rw [tripOutRelease_fb]
    exact hcls
  · show (tripOutRelease _).fb.winPer = 0
    rw [tripOutRelease_fb]
    exact hper
  · have hreg : ¬ ladderRegs (FB_CLSSTAT x) ∧ FB_CLSSTAT x ≠ FC_TRIPSTAT := by
      unfold ladderRegs FB_CLSSTAT FB_VDD FB_LADDER FB_TCMIN FC_CHIP NT_EVT NT_CNT1 FC_TRIPSTAT
      omega
    exact (tripOutRelease_flag _ (FB_CLSSTAT_WARN x) hreg.2).trans ((hk.flag (FB_CLSSTAT_WARN x) hreg.1).trans
      ((windowBegun_flag rel _ _).trans (hwarn x hx hlow)))

theorem evalWindowEnd_waits (h : s.awake) (ho : s.dev.fb.holdoff = true ∨ s.dev.fb.winPer < s.dev.get FB_EVAL_WINDOW) :
    Answers .evalWindowEnd s fun t => t.dev.fb = s.dev.fb := by
  have heq : evalWindow s.dev = s.dev := by
    rw [evalWindow_eq, if_pos (.inr (.inr (ho.imp id id)))]
  refine answers_running rfl h (quiet_evalWindow s.dev) ?_
  rw [heq]
  exact tripOutRelease_fb _

/-! ## The regulator (R58, R459) -/

theorem calmFabric : FabricRoom calmRegs calmParts :=
  ⟨⟨calmEvents, fun a ha k => by unfold GL_MODE at k; omega, calmRefuse⟩, trivial, trivial⟩

theorem quiet_avsOutcome (ok : Bool) (d : Dev) : Quiet d (avsOutcome ok d) := quiet_of_frame (frame_avsOutcome calmFabric ok (frame_refl d))

/-- SUP3 takes an outcome that comes while it runs. -/
theorem avsOutcome_taken (ok : Bool) (hp : d.fb.avsPend = true) (hl : d.fb.avsLate = none) (hr : d.bit SV_STAT_RUN 3 = true) :
    avsOutcome ok d = avsEnd ok d := by
  rw [avsOutcome, if_neg (by rw [hp, hl]; decide), if_pos hr]

theorem avsOutcome_late (ok : Bool) (hp : d.fb.avsPend = true) (hl : d.fb.avsLate = none) (hr : d.bit SV_STAT_RUN 3 = false) :
    avsOutcome ok d = { d with fb := { d.fb with avsLate := some ok } } := by
  rw [avsOutcome, if_neg (by rw [hp, hl]; decide), if_neg (by rw [hr]; decide)]

/-- Nothing waits for an outcome, or one has come already. -/
theorem avsOutcome_none (ok : Bool) (h : d.fb.avsPend = false ∨ d.fb.avsLate.isSome = true) : avsOutcome ok d = d := by
  refine if_pos (h.imp (fun k => ?_) id)
  rw [k]
  decide

theorem avsEnd_shows (ok : Bool) (d : Dev) : (avsEnd ok d).fb.avsPend = false ∧
    (ok = true → (avsEnd ok d).fc.avsBad = false) ∧ (ok = false → (avsEnd ok d).flag FC_CHIP_AVS = true) := by
  cases ok
  · refine ⟨?_, nofun, fun _ => flag_raise_same _ FC_CHIP_AVS .service rfl (by decide) (by decide) (by decide)⟩
    rw [avsEnd, if_neg Bool.false_ne_true, raise_fb]
  · exact ⟨rfl, fun _ => rfl, nofun⟩

theorem answers_avs {c : Instr} {ok : Bool} {P : State → Prop} (hc : exec c s = .next (running (avsOutcome ok) s)) (h : s.awake)
    (hP : P { s with dev := tripOutRelease (avsOutcome ok s.dev) }) : Answers c s P :=
  answers_running hc h (quiet_avsOutcome ok s.dev) hP

theorem avs_clauses (h : s.awake) (hp : s.dev.fb.avsPend = true) (hl : s.dev.fb.avsLate = none) :
    (s.dev.bit SV_STAT_RUN 3 = true →
      (Answers .avsAck s fun t => t.dev.fb.avsPend = false ∧ t.dev.fc.avsBad = false) ∧
      (Answers .avsTimeout s fun t => t.dev.fb.avsPend = false ∧ t.dev.flag FC_CHIP_AVS = true)) ∧
    (s.dev.bit SV_STAT_RUN 3 = false →
      (Answers .avsAck s fun t => t.dev.fb = { s.dev.fb with avsLate := some true }) ∧
      (Answers .avsTimeout s fun t => t.dev.fb = { s.dev.fb with avsLate := some false } ∧
        t.dev.flag FC_CHIP_AVS = s.dev.flag FC_CHIP_AVS)) := by
  refine ⟨fun hr => ⟨?_, ?_⟩, fun hr => ⟨?_, ?_⟩⟩
  · obtain ⟨hpend, hbad, -⟩ := avsEnd_shows true s.dev
    refine answers_avs (ok := true) rfl h ?_
    rw [avsOutcome_taken true hp hl hr]
    exact ⟨(congrArg FabricSt.avsPend (tripOutRelease_fb _)).trans hpend,
      (congrArg FaultSt.avsBad (tripOutRelease_fc _)).trans (hbad rfl)⟩
  · obtain ⟨hpend, -, hflag⟩ := avsEnd_shows false s.dev
    refine answers_avs (ok := false) rfl h ?_
    rw [avsOutcome_taken false hp hl hr]
    exact ⟨(congrArg FabricSt.avsPend (tripOutRelease_fb _)).trans hpend, (tripOutRelease_flag _ _ (by decide)).trans (hflag rfl)⟩
  · refine answers_avs (ok := true) rfl h ?_
    rw [avsOutcome_late true hp hl hr]
    exact tripOutRelease_fb _
  · refine answers_avs (ok := false) rfl h ?_
    rw [avsOutcome_late false hp hl hr]
    exact ⟨tripOutRelease_fb _, tripOutRelease_flag _ FC_CHIP_AVS (by decide)⟩

theorem avsTimeout_nothing (h : s.awake) (hn : s.dev.fb.avsPend = false ∨ s.dev.fb.avsLate.isSome = true) :
    Answers .avsTimeout s fun t => t.dev.fb = s.dev.fb ∧ t.dev.flag FC_CHIP_AVS = s.dev.flag FC_CHIP_AVS := by
  refine answers_avs (ok := false) rfl h ?_
  rw [avsOutcome_none false hn]
  exact ⟨tripOutRelease_fb _, tripOutRelease_flag _ FC_CHIP_AVS (by decide)⟩

theorem holdoff_ends (h : s.awake) (hp : s.dev.fb.avsPend = false) (ho : s.dev.fb.holdoff = true) :
    Answers .marginHoldoffEnd s fun t => t.dev.fb.holdoff = false := by
  refine answers_running rfl h (quiet_of_frame (frame_holdoffEnd calmFabric (frame_refl _))) ?_
  have heq : holdoffEnd s.dev = { s.dev with fb := { s.dev.fb with holdoff := false, cls := [], winPer := 0 } } :=
    if_pos ⟨ho, by rw [hp]; decide⟩
  rw [heq]
  exact congrArg FabricSt.holdoff (tripOutRelease_fb _)

/-! ## The journal (R55, R376) -/

/-- The device after its waiting entries have been written. -/
def journalWritten (all : List JEntry) (ok : Bool) (fl : Flash) (d : Dev) : Dev :=
  let d := { d with fb := { d.fb with jq := [], inForce := all, eraseA := false, eraseB := false } }
  journalShow fl (if ok then d else d.raise FB_JOURNAL_WRFAIL .service)

theorem journalShow_wrfail (fl : Flash) (d : Dev) : (journalShow fl d).get FB_JOURNAL_WRFAIL = d.get FB_JOURNAL_WRFAIL := by
  unfold journalShow
  extract_lets half
  exact (get_put_disj _ FB_JOURNAL_FULL FB_JOURNAL_WRFAIL _ (by decide) (by decide)).trans
    (get_put_disj d FB_JOURNAL_ENTRIES FB_JOURNAL_WRFAIL _ (by decide) (by decide))

theorem journalWritten_shows (all : List JEntry) (ok : Bool) (fl : Flash) (d : Dev) :
    (journalWritten all ok fl d).fb = { d.fb with jq := [], inForce := all, eraseA := false, eraseB := false } ∧
    (ok = false → (journalWritten all ok fl d).flag FB_JOURNAL_WRFAIL = true) ∧
    (ok = true → (journalWritten all ok fl d).flag FB_JOURNAL_WRFAIL = d.flag FB_JOURNAL_WRFAIL) := by
  cases ok
  · refine ⟨raise_fb _ FB_JOURNAL_WRFAIL .service, fun _ => ?_, nofun⟩
    exact (flag_congr (journalShow_wrfail fl _)).trans
      (flag_raise_same _ FB_JOURNAL_WRFAIL .service rfl (by decide) (by decide) (by decide))
  · exact ⟨rfl, nofun, fun _ => (flag_congr (journalShow_wrfail fl _)).trans rfl⟩

theorem journalWrite_writes (h : s.awake) (wa wb : BankWrite) (hj : s.dev.fb.jq ≠ []) (hr : s.dev.bit SV_STAT_RUN 3 = true) :
    let all := s.dev.fb.jq.foldl jAdd s.dev.fb.inForce
    let ra := jWriteBank s.dev.fb.eraseA wa s.flash.a s.dev.fb.jq all
    let rb := jWriteBank s.dev.fb.eraseB wb s.flash.b s.dev.fb.jq all
    Answers (.journalWrite wa wb) s fun t => t.dev.fb.jq = [] ∧ t.dev.fb.inForce = all ∧
      t.flash = { s.flash with a := ra.1, b := rb.1 } ∧ t.dev.fb.eraseA = false ∧ t.dev.fb.eraseB = false ∧
      ((ra.2 && rb.2) = false → t.dev.flag FB_JOURNAL_WRFAIL = true) ∧
      ((ra.2 && rb.2) = true → t.dev.flag FB_JOURNAL_WRFAIL = s.dev.flag FB_JOURNAL_WRFAIL) := by
  intro all ra rb
  have heq : journalWriteF wa wb s = { s with
      dev := journalWritten all (ra.2 && rb.2) { s.flash with a := ra.1, b := rb.1 } s.dev,
      flash := { s.flash with a := ra.1, b := rb.1 } } := by
    rw [journalWriteF, if_neg (by
      rintro (k | k)
      · exact hj (List.isEmpty_iff.mp k)
      · exact k hr)]
    rfl
  refine answers_whole_quiet rfl h (quiet_journalWriteF wa wb s) ?_
  rw [heq]
  clear_value ra rb all
  obtain ⟨hfb, hbad, hok⟩ := journalWritten_shows all (ra.2 && rb.2) { s.flash with a := ra.1, b := rb.1 } s.dev
  have hset := (tripOutRelease_fb (journalWritten all (ra.2 && rb.2) { s.flash with a := ra.1, b := rb.1 } s.dev)).trans hfb
  exact ⟨congrArg FabricSt.jq hset, congrArg FabricSt.inForce hset, rfl, congrArg FabricSt.eraseA hset, congrArg FabricSt.eraseB hset,
    fun k => (tripOutRelease_flag _ _ (by decide)).trans (hbad k), fun k => (tripOutRelease_flag _ _ (by decide)).trans (hok k)⟩

/-- Settles O44, each clause by the reading of its command. -/
theorem fabricEvents : Obligations.FabricEvents := fun _ h =>
  ⟨unitRun_shows h, sliceRun_shows h, evalWindowEnd_evaluates h, fun _ => evalWindowEnd_waits h, avs_clauses h, avsTimeout_nothing h,
    holdoff_ends h, journalWrite_writes h⟩

end Sys2Proof.Machine
end

section
/-! PROOFS. What the operations of the safety channel keep (O45): levels, readbacks, configuration and demands; and the clasps, but for
those that a reset may release. -/

namespace Sys2Proof.Machine

variable {R : Nat → Prop} {d e : Dev} {x i : Nat}

/-! ## Bits of the registers of the channel -/

/-- A bit after another field has been stored. -/
theorem bit_put_disj (d : Dev) (f g : Fld) (v j : Nat) (hg : g.lsb + g.width ≤ 32)
    (h : f.addr ≠ g.addr ∨ g.lsb + g.width ≤ f.lsb ∨ f.lsb + f.width ≤ g.lsb) : (d.put f v).bit g j = d.bit g j :=
  bit_congr (h.elim (fun ha => get_put_ne d f g v ha) fun hd => get_put_disj d f g v hg hd)

/-- A bit of a sticky field that is set stays set. -/
theorem bit_raiseBit_mono (d : Dev) (f : Fld) (i j : Nat) (c : Cls) (h : f.lsb + f.width ≤ 32) (hj : j < f.width)
    (h1 : f.addr ≠ NT_EVT) (h2 : f.addr ≠ NT_CNT1) (hb : d.bit f j = true) : (d.raiseBit f i c).bit f j = true := by
  have hw := raiseBit_own d f i c h1 h2
  split at hw
  · exact (bit_congr (get_congr _ _ _ hw)).trans hb
  · refine (bit_congr (get_congr _ _ _ hw)).trans ((bit_putBit d f i j true h hj).trans ?_)
    split
    · rfl
    · exact hb

/-! ## Steps of the channel -/

/-- The registers that the channel changes. -/
def sfMoves (a : Nat) : Prop := a = SF_RB ∨ a = SF_STAT ∨ a = SF_EVT ∨ a = SF_CNT ∨ a = NT_EVT ∨ a = NT_CNT1

/-- From `d` to `e` the channel keeps its levels, its readbacks, its configuration and its demands, and every clasp outside `R` that is
engaged. -/
structure SfStep (R : Nat → Prop) (d e : Dev) : Prop where
  sf : (e.sf.cycle, e.sf.folio, e.sf.lvlA, e.sf.lvlB) = (d.sf.cycle, d.sf.folio, d.sf.lvlA, d.sf.lvlB)
  words : ∀ a, ¬ sfMoves a → e.word a = d.word a
  reads : e.get SF_RB_HRB = d.get SF_RB_HRB ∧ e.get SF_RB_LRB = d.get SF_RB_LRB
  clasp : ∀ x, x < 2 → ¬ R x → d.bit SF_STAT_CLASP x = true → e.bit SF_STAT_CLASP x = true
  demand : ∀ i, i < 8 → d.bit SF_EVT_DEMAND i = true → e.bit SF_EVT_DEMAND i = true

theorem sfs_refl (d : Dev) : SfStep R d d := ⟨rfl, fun _ _ => rfl, ⟨rfl, rfl⟩, fun _ _ _ h => h, fun _ _ h => h⟩

theorem sfs_trans {f : Dev} (h : SfStep R d e) (k : SfStep R e f) : SfStep R d f where
  sf := k.sf.trans h.sf
  words a ha := (k.words a ha).trans (h.words a ha)
  reads := ⟨k.reads.1.trans h.reads.1, k.reads.2.trans h.reads.2⟩
  clasp x hx hR hd := k.clasp x hx hR (h.clasp x hx hR hd)
  demand i hi hd := k.demand i hi (h.demand i hi hd)

theorem sfs_mono {Q : Nat → Prop} (hQ : ∀ x, R x → Q x) (h : SfStep R d e) : SfStep Q d e :=
  ⟨h.sf, h.words, h.reads, fun x hx hR => h.clasp x hx fun k => hR (hQ x k), h.demand⟩

theorem sfs_ite {p : Prop} [Decidable p] {f : Dev} (he : SfStep R d e) (hf : SfStep R d f) : SfStep R d (if p then e else f) := by
  split <;> assumption

theorem sfs_foldN (n : Nat) (g : Dev → Nat → Dev) (hg : ∀ e i, i < n → SfStep R d e → SfStep R d (g e i)) (h : SfStep R d e) :
    SfStep R d (foldN n g e) :=
  List.foldlRecOn (motive := SfStep R d) (List.range n) g h fun _ he i hi => hg _ i (List.mem_range.mp hi) he

theorem sfs_set (y : SafetySt) (hy : (y.cycle, y.folio, y.lvlA, y.lvlB) = (e.sf.cycle, e.sf.folio, e.sf.lvlA, e.sf.lvlB))
    (h : SfStep R d e) : SfStep R d { e with sf := y } := ⟨hy.trans h.sf, h.words, h.reads, h.clasp, h.demand⟩

/-- A field outside the clasps, the readbacks and the demands is stored. -/
theorem sfs_put (f : Fld) (v : Nat) (ha : f.addr = SF_RB ∧ f.lsb + f.width ≤ 4 ∨
    f.addr = SF_STAT ∧ (f.lsb + f.width ≤ 8 ∨ 10 ≤ f.lsb) ∨ f.addr = SF_CNT) (h : SfStep R d e) : SfStep R d (e.put f v) := by
  have hrb (g : Fld) (hg : g.addr = SF_RB) (hl : 4 ≤ g.lsb) (hw : g.lsb + g.width ≤ 32) : (e.put f v).get g = e.get g := by
    rcases ha with ⟨hf, hk⟩ | ⟨hf, -⟩ | hf
    · exact get_put_disj e f g v hw (.inr (Nat.le_trans hk hl))
    · exact get_put_ne e f g v (by rw [hf, hg]; decide)
    · exact get_put_ne e f g v (by rw [hf, hg]; decide)
  refine ⟨h.sf, fun a hm => (word_put_ne e f v a fun k => hm ?_).trans (h.words a hm),
    ⟨(hrb SF_RB_HRB rfl (by decide) (by decide)).trans h.reads.1, (hrb SF_RB_LRB rfl (by decide) (by decide)).trans h.reads.2⟩,
    fun x hx hR hd => ?_, fun i hi hd => ?_⟩
  · rcases ha with ⟨hf, -⟩ | ⟨hf, -⟩ | hf <;> unfold sfMoves <;> omega
  · refine (bit_put_disj e f SF_STAT_CLASP v x (by decide) ?_).trans (h.clasp x hx hR hd)
    rcases ha with ⟨hf, -⟩ | ⟨-, hk⟩ | hf
    · exact .inl (by rw [hf]; decide)
    · exact .inr hk.symm
    · exact .inl (by rw [hf]; decide)
  · refine (bit_put_disj e f SF_EVT_DEMAND v i (by decide) (.inl ?_)).trans (h.demand i hi hd)
    rcases ha with ⟨hf, -⟩ | ⟨hf, -⟩ | hf <;> rw [hf] <;> decide

/-- A clasp moves: one that is released lies in `R`. -/
theorem sfs_clasp (y : Nat) (b : Bool) (hy : b = false → R y) (h : SfStep R d e) : SfStep R d (e.putBit SF_STAT_CLASP y b) := by
  have hne (g : Fld) (hg : g.addr ≠ SF_STAT) : (e.putBit SF_STAT_CLASP y b).get g = e.get g := get_put_ne e SF_STAT_CLASP g _ hg.symm
  refine ⟨h.sf, fun a hm => (word_put_ne e SF_STAT_CLASP _ a fun k => hm (.inr (.inl k.symm))).trans (h.words a hm),
    ⟨(hne SF_RB_HRB (by decide)).trans h.reads.1, (hne SF_RB_LRB (by decide)).trans h.reads.2⟩, fun x hx hR hd => ?_,
    fun i hi hd => (bit_congr (hne SF_EVT_DEMAND (by decide))).trans (h.demand i hi hd)⟩
  rw [bit_putBit e SF_STAT_CLASP y x b (by decide) hx]
  split
  next hxy =>
    cases b
    · exact absurd (hxy ▸ hy rfl) hR
    · rfl
  next => exact h.clasp x hx hR hd

theorem sfs_raise (i : Nat) (h : SfStep R d e) : SfStep R d (e.raiseBit SF_EVT_DEMAND i .protDev) := by
  have hne (g : Fld) (hg : g.addr = SF_RB ∨ g.addr = SF_STAT) : (e.raiseBit SF_EVT_DEMAND i .protDev).get g = e.get g :=
    get_raiseBit_ne e SF_EVT_DEMAND g i .protDev (by rcases hg with k | k <;> rw [k] <;> decide)
      (by rcases hg with k | k <;> rw [k] <;> decide) (by rcases hg with k | k <;> rw [k] <;> decide)
  refine ⟨by rw [raiseBit_sf]; exact h.sf, fun a hm => (raiseBit_word e SF_EVT_DEMAND i .protDev a ?_ ?_ ?_).trans (h.words a hm),
    ⟨(hne SF_RB_HRB (.inl rfl)).trans h.reads.1, (hne SF_RB_LRB (.inl rfl)).trans h.reads.2⟩,
    fun x hx hR hd => (bit_congr (hne SF_STAT_CLASP (.inr rfl))).trans (h.clasp x hx hR hd), fun j hj hd => ?_⟩
  · exact fun k => hm (.inr (.inr (.inl k)))
  · exact fun k => hm (.inr (.inr (.inr (.inr (.inl k)))))
  · exact fun k => hm (.inr (.inr (.inr (.inr (.inr k)))))
  · exact bit_raiseBit_mono e SF_EVT_DEMAND i j .protDev (by decide) hj (by decide) (by decide) (h.demand j hj hd)

/-! ## The operations -/

theorem sfs_switch (y : Nat) (on : Bool) (h : SfStep R d e) : SfStep R d (sfSwitch y on e) :=
  sfs_put SF_RB_LCMD _ (.inl ⟨rfl, by decide⟩) (sfs_put SF_RB_HCMD _ (.inl ⟨rfl, by decide⟩) h)

theorem sfs_endTest (y : Nat) (h : SfStep R d e) : SfStep R d (sfEndTest y e) := sfs_set _ rfl h

theorem sfs_engage (y : Nat) (h : SfStep R d e) : SfStep R d (engage y e) :=
  sfs_set _ rfl (sfs_endTest y (sfs_switch y false (sfs_clasp y true nofun h)))

theorem sfs_demand (i : Nat) (h : SfStep R d e) : SfStep R d (demand i e) :=
  sfs_put SF_CNT_DEMCNT _ (.inr (.inr rfl)) (sfs_raise i (sfs_foldN 2 _ (fun _ y _ hd => sfs_ite (sfs_engage y hd) hd) h))

theorem sfs_input (i : Nat) (h : SfStep R d e) : SfStep R d (sfInput e i) := by
  have hlt : SfStep R d (e.putBit SF_STAT_HLT i (sfHealthy i e)) := sfs_put SF_STAT_HLT _ (.inr (.inl ⟨rfl, .inl (by decide)⟩)) h
  have hlock : ∀ p [Decidable p] a, SfStep R d a → SfStep R d (if p then a.putBit SF_STAT_DLOCK i false else a) :=
    fun p _ a ha => sfs_ite (sfs_put SF_STAT_DLOCK _ (.inr (.inl ⟨rfl, .inr (by decide)⟩)) ha) ha
  exact sfs_ite hlt (sfs_ite (sfs_set _ rfl (hlock _ _ hlt))
    (sfs_ite (hlock _ _ hlt) (sfs_demand i (sfs_set _ rfl (hlock _ _ hlt)))))

theorem sfs_release (y : Nat) (hy : R y) (h : SfStep R d e) : SfStep R d (release y e) :=
  sfs_ite (sfs_set _ rfl h) (sfs_switch y _ (sfs_set _ rfl (sfs_endTest y (sfs_clasp y false (fun _ => hy) h))))

theorem sfs_output (y : Nat) (h : SfStep R d e) : SfStep R d (sfOutput e y) :=
  sfs_put SF_STAT_OUT _ (.inr (.inl ⟨rfl, .inr (by decide)⟩))
    (sfs_ite (sfs_endTest y (sfs_switch y false h)) (sfs_ite h (sfs_switch y _ h)))

theorem sfs_outputs (h : SfStep R d e) : SfStep R d (foldN 2 sfOutput e) := sfs_foldN 2 _ (fun _ y _ hd => sfs_output y hd) h

theorem sfs_crcFail (h : SfStep R d e) : SfStep R d (sfCrcFail e) :=
  sfs_foldN 8 _ (fun _ i _ hd => sfs_ite (sfs_raise i hd) hd) (sfs_engage 1 (sfs_engage 0 h))

theorem sfs_rstGo (p : Nat) (h : SfStep R d e) : SfStep R d (rstGo p e) := sfs_set _ rfl h

/-! ## Resets -/

/-- An enabled input that names output `x` is not healthy. -/
def sfBlocked (x : Nat) (d : Dev) : Prop :=
  ∃ i, i < 8 ∧ d.flag (SF_INCFG_EN i) = true ∧ d.bit (SF_INCFG_OMASK i) x = true ∧ sfHealthy i d = false

/-- The configuration of an input is not the channel's to change. -/
theorem not_sfMoves_incfg (i : Nat) (hi : i < 8) : ¬ sfMoves (SF_INCFG i) := by
  unfold sfMoves SF_INCFG SF_RB SF_STAT SF_EVT SF_CNT NT_EVT NT_CNT1
  omega

theorem sfs_incfg (h : SfStep R d e) (hi : i < 8) (f : Fld) (hf : f.addr = SF_INCFG i) : e.get f = d.get f :=
  get_congr _ _ _ (h.words _ (hf ▸ not_sfMoves_incfg i hi))

theorem sfs_healthy (h : SfStep R d e) (hi : i < 8) : sfHealthy i e = sfHealthy i d := by
  have hsf := h.sf
  simp only [Prod.mk.injEq] at hsf
  obtain ⟨-, -, ha, hb⟩ := hsf
  have hm : e.flag (SF_INCFG_MODE i) = d.flag (SF_INCFG_MODE i) := flag_congr (sfs_incfg h hi (SF_INCFG_MODE i) rfl)
  rw [sfHealthy, sfHealthA, sfHealthB, sfHealthy, sfHealthA, sfHealthB, ha, hb, hm]

theorem sfs_blocked (h : SfStep R d e) (hb : sfBlocked x d) : sfBlocked x e := by
  obtain ⟨i, hi, hen, hmask, hh⟩ := hb
  exact ⟨i, hi, (flag_congr (sfs_incfg h hi (SF_INCFG_EN i) rfl)).trans hen,
    (bit_congr (sfs_incfg h hi (SF_INCFG_OMASK i) rfl)).trans hmask, (sfs_healthy h hi).trans hh⟩

/-- Such an input keeps the conditions of the clasp from holding. -/
theorem claspCond_blocked (h : sfBlocked x d) : claspCond x d = false := by
  obtain ⟨i, hi, hen, hmask, hh⟩ := h
  have hall : ((List.range 8).all fun i => !(d.flag (SF_INCFG_EN i) && d.bit (SF_INCFG_OMASK i) x) ||
      (sfHealthy i d && d.bit SF_STAT_HLT i && !d.bit SF_STAT_DLOCK i)) = false := by
    rw [List.all_eq_false]
    exact ⟨i, List.mem_range.mpr hi, by rw [hen, hmask, hh]; simp⟩
  rw [claspCond, hall]
  simp only [Bool.false_and]

theorem bitOf_claspMask (hx : x < 2) (d : Dev) : bitOf (claspMask d) x = claspCond x d := by
  unfold claspMask
  interval_cases x <;> cases claspCond 0 d <;> cases claspCond 1 d <;> rfl

/-- The outputs that a reset may release. -/
def sfFree (d : Dev) (x : Nat) : Prop := ¬ sfBlocked x d

theorem sfs_validReset (h : SfStep (sfFree d) d e) : SfStep (sfFree d) d (validReset e) := by
  have hb : SfStep (sfFree d) d (e.bump SF_CNT_RSTCNT) := sfs_put SF_CNT_RSTCNT _ (.inr (.inr rfl)) h
  refine sfs_foldN 2 _ (fun a y hy ha => ?_) hb
  split
  next hok =>
    refine sfs_release y (fun hblock => ?_) ha
    have hand := hok.1
    rw [bitOf_eq_testBit, Nat.testBit_and, ← bitOf_eq_testBit (claspMask _), bitOf_claspMask hy,
      claspCond_blocked (sfs_blocked hb hblock), Bool.and_false] at hand
    exact Bool.false_ne_true hand
  next => exact ha

theorem sfs_reset (hlt : Nat) (h : SfStep (sfFree d) d e) : SfStep (sfFree d) d (sfReset hlt e) := by
  unfold sfReset
  extract_lets a b shown _ live c start _ narrowed
  have hl : SfStep (sfFree d) d live :=
    have hs : SfStep (sfFree d) d shown := sfs_put SF_STAT_RSTACT _ (.inr (.inl ⟨rfl, .inr (by decide)⟩)) h
    sfs_ite hs (sfs_set _ rfl hs)
  have hstart : SfStep (sfFree d) d (start live) := sfs_set _ rfl hl
  have hgo : ∀ p, SfStep (sfFree d) d (rstGo p live) := fun p => sfs_rstGo p hl
  have hok : SfStep (sfFree d) d narrowed := sfs_set _ rfl hl
  have hvalid : SfStep (sfFree d) d (validReset (rstGo 0 live)) := sfs_validReset (hgo 0)
  split
  · exact sfs_ite hstart (sfs_ite (hgo 1) hl)
  · exact sfs_ite (sfs_ite hstart (hgo 4)) (sfs_ite hl (hgo 0))
  · exact sfs_ite hok (sfs_ite (sfs_rstGo 5 hok) (sfs_ite (sfs_ite (sfs_rstGo 4 hok) (sfs_rstGo 0 hok))
      (sfs_ite (sfs_rstGo 3 hok) (sfs_validReset (sfs_rstGo 0 hok)))))
  · exact sfs_ite (hgo 4) (sfs_ite hok (sfs_ite hvalid (hgo 0)))
  · exact sfs_ite hl (hgo 0)
  · exact sfs_ite (hgo 5) (sfs_ite (hgo 0) hl)

/-! ## The cycle -/

/-- The readbacks as a cycle samples them. -/
def sfSampled (hrb lrb : NodeRx) (d : Dev) : Dev :=
  let d := { d with sf := { d.sf with cycle := d.sf.cycle + 1, midH := hrb.between.toNat, midL := lrb.between.toNat } }
  (d.put SF_RB_HRB hrb.reads.toNat).put SF_RB_LRB lrb.reads.toNat

theorem safetyCycle_unloaded {crc : Bool} {hrb lrb : NodeRx} (hf : d.sf.folio = false) :
    safetyCycleD crc hrb lrb d = foldN 2 sfOutput (engage 1 (engage 0 (sfSampled hrb lrb d))) :=
  if_pos (show ¬ d.sf.folio = true by rw [hf]; decide)

theorem safetyCycle_loaded {crc : Bool} {hrb lrb : NodeRx} (hf : d.sf.folio = true) : safetyCycleD crc hrb lrb d =
    let e := if crc then sfSampled hrb lrb d else sfCrcFail (sfSampled hrb lrb d)
    foldN 2 sfOutput (sfReset (e.get SF_STAT_HLT) (foldN 8 sfInput e)) :=
  if_neg (show ¬ ¬ d.sf.folio = true from not_not_intro hf)

theorem engage_clasps (y : Nat) (hy : y < 2) (d : Dev) : (engage y d).bit SF_STAT_CLASP y = true := by
  have hput : (d.putBit SF_STAT_CLASP y true).bit SF_STAT_CLASP y = true :=
    (bit_putBit d SF_STAT_CLASP y y true (by decide) hy).trans (if_pos rfl)
  exact (sfs_set (R := fun _ => False) _ rfl (sfs_endTest y (sfs_switch y false (sfs_refl _)))).clasp y hy id hput

/-- A cycle leaves what it has sampled, whatever it does further. -/
theorem safetyCycle_step (crc : Bool) (hrb lrb : NodeRx) (d : Dev) :
    SfStep (fun _ => True) (sfSampled hrb lrb d) (safetyCycleD crc hrb lrb d) := by
  cases hf : d.sf.folio with
  | false =>
    rw [safetyCycle_unloaded hf]
    exact sfs_outputs (sfs_engage 1 (sfs_engage 0 (sfs_refl _)))
  | true =>
    rw [safetyCycle_loaded hf]
    have hcrc : SfStep (fun _ => True) (sfSampled hrb lrb d)
        (if crc then sfSampled hrb lrb d else sfCrcFail (sfSampled hrb lrb d)) := sfs_ite (sfs_refl _) (sfs_crcFail (sfs_refl _))
    dsimp only
    generalize (if crc = true then sfSampled hrb lrb d else sfCrcFail (sfSampled hrb lrb d)) = e at hcrc ⊢
    exact sfs_outputs (sfs_trans hcrc (sfs_trans (sfs_foldN 8 _ (fun _ i _ hd => sfs_input i hd) (sfs_refl e))
      (sfs_mono (fun _ _ => trivial) (sfs_reset _ (sfs_refl _)))))

theorem sfSampled_shows (hrb lrb : NodeRx) (d : Dev) : (sfSampled hrb lrb d).sf.cycle = d.sf.cycle + 1 ∧
    (sfSampled hrb lrb d).get SF_RB_HRB = hrb.reads.toNat ∧ (sfSampled hrb lrb d).get SF_RB_LRB = lrb.reads.toNat :=
  ⟨rfl, (get_put_disj _ SF_RB_LRB SF_RB_HRB _ (by decide) (by decide)).trans (get_put_lt _ SF_RB_HRB _ (by decide) hrb.reads.isLt),
    get_put_lt _ SF_RB_LRB _ (by decide) lrb.reads.isLt⟩

/-! ## Demands -/

/-- The clasps of a demand, one after the other. -/
theorem demand_engages (hx : x < 2) (hi : i < 8) (d : Dev) (hm : d.bit (SF_INCFG_OMASK i) x = true) :
    (foldN 2 (fun d y => if d.bit (SF_INCFG_OMASK i) y then engage y d else d) d).bit SF_STAT_CLASP x = true := by
  have hstep (y : Nat) (e : Dev) : SfStep (fun _ => False) e (if e.bit (SF_INCFG_OMASK i) y then engage y e else e) :=
    sfs_ite (sfs_engage y (sfs_refl e)) (sfs_refl e)
  show (if (if d.bit (SF_INCFG_OMASK i) 0 then engage 0 d else d).bit (SF_INCFG_OMASK i) 1 then
      engage 1 (if d.bit (SF_INCFG_OMASK i) 0 then engage 0 d else d)
    else (if d.bit (SF_INCFG_OMASK i) 0 then engage 0 d else d)).bit _ x = true
  have h0 := hstep 0 d
  interval_cases x
  · rw [if_pos hm] at h0 ⊢
    exact (hstep 1 _).clasp 0 hx id (engage_clasps 0 hx d)
  · generalize (if d.bit (SF_INCFG_OMASK i) 0 = true then engage 0 d else d) = e at h0 ⊢
    have hm' : e.bit (SF_INCFG_OMASK i) 1 = true := (bit_congr (sfs_incfg h0 hi (SF_INCFG_OMASK i) rfl)).trans hm
    rw [if_pos hm']
    exact engage_clasps 1 hx e

/-- A demand engages the clasps that the input names, and shows. -/
theorem demand_shows (hx : x < 2) (hi : i < 8) (d : Dev) (hm : d.bit (SF_INCFG_OMASK i) x = true) :
    (demand i d).bit SF_STAT_CLASP x = true ∧ (demand i d).bit SF_EVT_DEMAND i = true := by
  have hc := demand_engages hx hi d hm
  unfold demand
  extract_lets e
  have hr : SfStep (fun _ => False) e ((e.raiseBit SF_EVT_DEMAND i .protDev).bump SF_CNT_DEMCNT) :=
    sfs_put SF_CNT_DEMCNT _ (.inr (.inr rfl)) (sfs_raise i (sfs_refl e))
  refine ⟨hr.clasp x hx id hc, ?_⟩
  exact (bit_put_disj _ SF_CNT_DEMCNT SF_EVT_DEMAND _ i (by decide) (.inl (by decide))).trans
    (bit_raiseBit_same e SF_EVT_DEMAND i .protDev (by decide) hi (by decide) (by decide))

/-- The demands sampled of the other inputs stand. -/
theorem sfInput_dem {j : Nat} (hj : j ≠ i) (d : Dev) : bitOf (sfInput d j).sf.dem i = bitOf d.sf.dem i := by
  have hset : bitOf (setBit d.sf.dem j) i = bitOf d.sf.dem i := by
    rw [bitOf_eq_testBit, testBit_setBit, decide_eq_false hj.symm, Bool.or_false, bitOf_eq_testBit]
  have hclr : bitOf (clrBit d.sf.dem j) i = bitOf d.sf.dem i := by
    rw [bitOf_eq_testBit, testBit_clrBit, decide_eq_true hj.symm, Bool.and_true, bitOf_eq_testBit]
  have hengage (y : Nat) (e : Dev) : (engage y e).sf.dem = e.sf.dem := rfl
  have hdemand (e : Dev) : (demand j e).sf.dem = e.sf.dem := by
    unfold demand
    extract_lets f
    show (f.raiseBit SF_EVT_DEMAND j .protDev).sf.dem = _
    rw [raiseBit_sf]
    refine List.foldlRecOn (motive := fun a : Dev => a.sf.dem = e.sf.dem) (List.range 2) _ rfl fun a ha y _ => ?_
    split
    · exact ha
    · exact ha
  have hlt (b : Bool) : (d.putBit SF_STAT_HLT j b).sf = d.sf := rfl
  unfold sfInput
  extract_lets h shown lock
  have hlock : lock.sf = d.sf := by
    show (if _ then shown.putBit SF_STAT_DLOCK j false else shown).sf = d.sf
    split <;> rfl
  split
  · rfl
  split
  · show bitOf (clrBit lock.sf.dem j) i = _
    rw [hlock, hclr]
  split
  · rw [hlock]
  · rw [hdemand]
    show bitOf (setBit lock.sf.dem j) i = _
    rw [hlock, hset]

/-- An unhealthy input that has not been sampled makes its demand. -/
theorem sfInput_demands (hx : x < 2) (hi : i < 8) (d : Dev) (hen : d.flag (SF_INCFG_EN i) = true)
    (hm : d.bit (SF_INCFG_OMASK i) x = true) (hh : sfHealthy i d = false) (hd : bitOf d.sf.dem i = false) :
    (sfInput d i).bit SF_STAT_CLASP x = true ∧ (sfInput d i).bit SF_EVT_DEMAND i = true := by
  unfold sfInput
  extract_lets h shown lock
  have hshown : SfStep (fun _ => False) d shown := sfs_put SF_STAT_HLT _ (.inr (.inl ⟨rfl, .inl (by decide)⟩)) (sfs_refl d)
  have hlock : SfStep (fun _ => False) d lock :=
    sfs_ite (sfs_put SF_STAT_DLOCK _ (.inr (.inl ⟨rfl, .inr (by decide)⟩)) hshown) hshown
  have hsf : lock.sf = d.sf := by
    show (if _ then shown.putBit SF_STAT_DLOCK i false else shown).sf = d.sf
    split <;> rfl
  have henabled : shown.flag (SF_INCFG_EN i) = true := (flag_congr (sfs_incfg hshown hi (SF_INCFG_EN i) rfl)).trans hen
  have hmask : lock.bit (SF_INCFG_OMASK i) x = true := (bit_congr (sfs_incfg hlock hi (SF_INCFG_OMASK i) rfl)).trans hm
  rw [if_neg (not_not_intro henabled), if_neg (show ¬ h = true from fun k => Bool.false_ne_true (hh.symm.trans k)),
    if_neg (show ¬ bitOf lock.sf.dem i = true by rw [hsf, hd]; decide)]
  exact demand_shows hx hi _ hmask

/-- The inputs below `n` have been sampled. -/
theorem foldN_sfInput (hx : x < 2) (hi : i < 8) (d : Dev) (hen : d.flag (SF_INCFG_EN i) = true)
    (hm : d.bit (SF_INCFG_OMASK i) x = true) (hh : sfHealthy i d = false) (hd : bitOf d.sf.dem i = false) (n : Nat) :
    (n ≤ i → bitOf (foldN n sfInput d).sf.dem i = false) ∧
    (i < n → (foldN n sfInput d).bit SF_STAT_CLASP x = true ∧ (foldN n sfInput d).bit SF_EVT_DEMAND i = true) := by
  induction n with
  | zero => exact ⟨fun _ => hd, fun h => absurd h (Nat.not_lt_zero _)⟩
  | succ n ih =>
    obtain ⟨hwait, hdone⟩ := ih
    have hstep : foldN (n + 1) sfInput d = sfInput (foldN n sfInput d) n := by
      rw [foldN, List.range_succ, List.foldl_append]
      rfl
    have hs : SfStep (fun _ => False) d (foldN n sfInput d) := sfs_foldN n _ (fun _ j _ ha => sfs_input j ha) (sfs_refl d)
    rw [hstep]
    refine ⟨fun hn => (sfInput_dem (by omega) _).trans (hwait (by omega)), fun hn => ?_⟩
    by_cases hni : n = i
    · subst hni
      exact sfInput_demands hx hi _ ((flag_congr (sfs_incfg hs hi (SF_INCFG_EN n) rfl)).trans hen)
        ((bit_congr (sfs_incfg hs hi (SF_INCFG_OMASK n) rfl)).trans hm) ((sfs_healthy hs hi).trans hh) (hwait (Nat.le_refl n))
    · obtain ⟨hc, he⟩ := hdone (by omega)
      have hk : SfStep (fun _ => False) (foldN n sfInput d) (sfInput (foldN n sfInput d) n) := sfs_input n (sfs_refl _)
      exact ⟨hk.clasp x hx id hc, hk.demand i hi he⟩

/-- A cycle in which an input makes its demand: no reset of the cycle releases the clasps that it names. -/
theorem safetyCycle_demands (hx : x < 2) (hi : i < 8) {hrb lrb : NodeRx} (hf : d.sf.folio = true)
    (hen : d.flag (SF_INCFG_EN i) = true) (hm : d.bit (SF_INCFG_OMASK i) x = true) (hh : sfHealthy i d = false)
    (hd : bitOf d.sf.dem i = false) : (safetyCycleD true hrb lrb d).bit SF_STAT_CLASP x = true ∧
      (safetyCycleD true hrb lrb d).bit SF_EVT_DEMAND i = true := by
  rw [safetyCycle_loaded hf]
  dsimp only
  rw [if_pos rfl]
  have hget (f : Fld) (hfa : f.addr = SF_INCFG i) : (sfSampled hrb lrb d).get f = d.get f := by
    have hne : SF_RB ≠ f.addr := by rw [hfa]; unfold SF_RB SF_INCFG; omega
    exact (get_put_ne _ SF_RB_LRB f _ hne).trans (get_put_ne _ SF_RB_HRB f _ hne)
  have hhs : sfHealthy i (sfSampled hrb lrb d) = false := by
    rw [← hh, sfHealthy, sfHealthB, flag_congr (hget (SF_INCFG_MODE i) rfl)]
    rfl
  have hen' : (sfSampled hrb lrb d).flag (SF_INCFG_EN i) = true := (flag_congr (hget (SF_INCFG_EN i) rfl)).trans hen
  have hm' : (sfSampled hrb lrb d).bit (SF_INCFG_OMASK i) x = true := (bit_congr (hget (SF_INCFG_OMASK i) rfl)).trans hm
  have hd' : bitOf (sfSampled hrb lrb d).sf.dem i = false := hd
  generalize sfSampled hrb lrb d = e at hhs hen' hm' hd' ⊢
  obtain ⟨hc, he⟩ := (foldN_sfInput hx hi e hen' hm' hhs hd' 8).2 hi
  have hins : SfStep (fun _ => False) e (foldN 8 sfInput e) := sfs_foldN 8 _ (fun _ j _ ha => sfs_input j ha) (sfs_refl e)
  have hblock : sfBlocked x (foldN 8 sfInput e) := sfs_blocked hins ⟨i, hi, hen', hm', hhs⟩
  have hout : SfStep (sfFree (foldN 8 sfInput e)) (foldN 8 sfInput e)
      (foldN 2 sfOutput (sfReset (e.get SF_STAT_HLT) (foldN 8 sfInput e))) := sfs_outputs (sfs_reset _ (sfs_refl _))
  exact ⟨hout.clasp x hx (not_not_intro hblock) hc, hout.demand i hi he⟩

end Sys2Proof.Machine
end

section
/-! PROOFS. The commands of the safety channel (O45). -/

namespace Sys2Proof.Machine

variable {d e : Dev} {s : State}

/-! ## What settles -/

/-- Settling a quiet step leaves the safety channel. -/
theorem still_sf (h : Frame (· = FC_TRIPSTAT) (· = .fc) d e) : e.sf = d.sf := h.parts .sf nofun

theorem still_get (h : Frame (· = FC_TRIPSTAT) (· = .fc) d e) (x : Fld) (hx : x.addr ≠ FC_TRIPSTAT) : e.get x = d.get x := h.get x hx

theorem still_bit (h : Frame (· = FC_TRIPSTAT) (· = .fc) d e) (x : Fld) (i : Nat) (hx : x.addr ≠ FC_TRIPSTAT) :
    e.bit x i = d.bit x i := h.bit x i hx

/-! ## Cycles -/

theorem safetyCycle_cycles (hr : s.dev.released = true) (hq : s.dev.fc.stopReq = false) (crc : Bool) (h l : NodeRx) :
    Answers (.safetyCycle crc h l) s fun t => t.dev.sf.cycle = s.dev.sf.cycle + 1 ∧
      t.dev.get SF_RB_HRB = h.reads.toNat ∧ t.dev.get SF_RB_LRB = l.reads.toNat ∧
      (s.dev.sf.folio = false → t.dev.bit SF_STAT_CLASP 0 = true ∧ t.dev.bit SF_STAT_CLASP 1 = true) := by
  obtain ⟨hc, hh, hl⟩ := sfSampled_shows h l s.dev
  have hstep := safetyCycle_step crc h l s.dev
  refine answers_within_still rfl hr hq (quiet_safetyCycleD crc h l (quiet_refl _)) fun e he => ⟨?_, ?_, ?_, fun hf => ?_⟩
  · have hcyc : (safetyCycleD crc h l s.dev).sf.cycle = (sfSampled h l s.dev).sf.cycle := (Prod.ext_iff.mp hstep.sf).1
    exact (congrArg SafetySt.cycle (still_sf he)).trans (hcyc.trans hc)
  · exact (still_get he SF_RB_HRB (by decide)).trans (hstep.reads.1.trans hh)
  · exact (still_get he SF_RB_LRB (by decide)).trans (hstep.reads.2.trans hl)
  · have hout : SfStep (fun _ => False) (engage 1 (engage 0 (sfSampled h l s.dev))) (safetyCycleD crc h l s.dev) := by
      rw [safetyCycle_unloaded hf]
      exact sfs_outputs (sfs_refl _)
    have h0 : (engage 1 (engage 0 (sfSampled h l s.dev))).bit SF_STAT_CLASP 0 = true :=
      (sfs_engage (R := fun _ => False) 1 (sfs_refl _)).clasp 0 (by decide) id (engage_clasps 0 (by decide) _)
    exact ⟨(still_bit he SF_STAT_CLASP 0 (by decide)).trans (hout.clasp 0 (by decide) id h0),
      (still_bit he SF_STAT_CLASP 1 (by decide)).trans (hout.clasp 1 (by decide) id (engage_clasps 1 (by decide) _))⟩

theorem safetyCycle_demand (i : Fin 8) (h l : NodeRx) (x : Fin 2) (ha : s.awake) (hf : s.dev.sf.folio = true)
    (hen : s.dev.flag (SF_INCFG_EN i.val) = true) (hm : s.dev.bit (SF_INCFG_OMASK i.val) x.val = true)
    (hh : sfHealthy i.val s.dev = false) (hd : bitOf s.dev.sf.dem i.val = false) :
    Answers (.safetyCycle true h l) s fun t => t.dev.bit SF_STAT_CLASP x.val = true ∧ t.dev.bit SF_EVT_DEMAND i.val = true := by
  obtain ⟨hc, he⟩ := safetyCycle_demands (hrb := h) (lrb := l) x.isLt i.isLt hf hen hm hh hd
  exact answers_within_still rfl ha.1 ha.2.2 (quiet_safetyCycleD true h l (quiet_refl _)) fun e hk =>
    ⟨(still_bit hk SF_STAT_CLASP _ (by decide)).trans hc, (still_bit hk SF_EVT_DEMAND _ (by decide)).trans he⟩

/-! ## Inputs -/

/-- A bit takes a level. -/
theorem bitOf_move (level : Bool) (m i : Nat) : bitOf (if level then setBit m i else clrBit m i) i = level := by
  cases level
  · rw [if_neg Bool.false_ne_true, bitOf_eq_testBit, testBit_clrBit]
    simp
  · rw [if_pos rfl, bitOf_eq_testBit, testBit_setBit]
    simp

theorem safetyInput_filters (hr : s.dev.released = true) (hq : s.dev.fc.stopReq = false) (i : Fin 8) (chB level : Bool) :
    Answers (.safetyInputFilter i chB level) s fun t =>
      bitOf (if chB then t.dev.sf.lvlB else t.dev.sf.lvlA) i.val = level ∧
        (if chB then t.dev.sf.lvlA = s.dev.sf.lvlA else t.dev.sf.lvlB = s.dev.sf.lvlB) := by
  refine answers_within_still rfl hr hq (quiet_sfFilter i.val chB level (quiet_refl _)) fun e he => ?_
  show bitOf (if chB then e.sf.lvlB else e.sf.lvlA) i.val = level ∧ (if chB then e.sf.lvlA = _ else e.sf.lvlB = _)
  rw [still_sf he]
  cases chB
  · exact ⟨bitOf_move level _ _, rfl⟩
  · exact ⟨bitOf_move level _ _, rfl⟩

theorem safetyReset_filters (hr : s.dev.released = true) (hq : s.dev.fc.stopReq = false) (chB level : Bool) :
    Answers (.safetyResetFilter chB level) s fun t => (if chB then t.dev.sf.rstB else t.dev.sf.rstA) = level := by
  refine answers_within_still rfl hr hq (quiet_rstFilter chB level (quiet_refl _)) fun e he => ?_
  show (if chB then e.sf.rstB else e.sf.rstA) = level
  rw [still_sf he]
  cases chB <;> rfl

theorem resetHold_ignored (hr : s.dev.released = true) (hq : s.dev.fc.stopReq = false)
    (ha : (s.dev.sf.rstA || s.dev.sf.rstB) = true) : Answers .resetHoldTimeout s fun t => t.dev.sf.rstPhase = 5 := by
  refine answers_within_still rfl hr hq (quiet_rstHeld (quiet_refl _)) fun e he => ?_
  show e.sf.rstPhase = 5
  rw [still_sf he, rstHeld, if_pos (Bool.or_eq_true_iff.mp ha)]
  rfl

theorem discrepancy_locks (h : s.awake) (i : Fin 8) (hen : s.dev.flag (SF_INCFG_EN i.val) = true)
    (hne : sfHealthA i.val s.dev ≠ sfHealthB i.val s.dev) : Answers (.discrepancyTimeout i) s fun t =>
      t.dev.bit SF_STAT_DLOCK i.val = true ∧ t.dev.bit SF_EVT_DISC i.val = true := by
  refine answers_within_still rfl h.1 h.2.2 (quiet_discrepancy i.val (quiet_refl _)) fun e he => ?_
  have heq : discrepancy i.val s.dev = (s.dev.putBit SF_STAT_DLOCK i.val true).raiseBit SF_EVT_DISC i.val .protDev :=
    if_pos ⟨hen, hne⟩
  rw [heq] at he
  refine ⟨(still_bit he SF_STAT_DLOCK _ (by decide)).trans ?_, (still_bit he SF_EVT_DISC _ (by decide)).trans
    (bit_raiseBit_same _ SF_EVT_DISC _ _ (by decide) i.isLt (by decide) (by decide))⟩
  rw [bit_congr (get_raiseBit_ne _ SF_EVT_DISC SF_STAT_DLOCK _ _ (by decide) (by decide) (by decide)),
    bit_putBit _ SF_STAT_DLOCK _ _ _ (by decide) i.isLt, if_pos rfl]

/-! ## Readbacks (R317) -/

/-- Both switches of an output after they have been commanded. -/
theorem sfSwitch_shows {x : Nat} (hx : x < 2) (on : Bool) (d : Dev) :
    (sfSwitch x on d).bit SF_RB_HCMD x = on ∧ (sfSwitch x on d).bit SF_RB_LCMD x = on := by
  refine ⟨?_, (bit_putBit _ SF_RB_LCMD x x on (by decide) hx).trans (if_pos rfl)⟩
  exact (bit_put_disj _ SF_RB_LCMD SF_RB_HCMD _ x (by decide) (.inr (.inl (by decide)))).trans
    ((bit_putBit d SF_RB_HCMD x x on (by decide) hx).trans (if_pos rfl))

theorem engage_switches {x : Nat} (hx : x < 2) (d : Dev) :
    (engage x d).bit SF_RB_HCMD x = false ∧ (engage x d).bit SF_RB_LCMD x = false :=
  sfSwitch_shows hx false (d.putBit SF_STAT_CLASP x true)

/-- A flag of class STOP that reads 0. -/
theorem raiseBit_stop_stopReq (d : Dev) (x : Fld) (i : Nat) (h : d.bit x i = false) : (d.raiseBit x i .stop).fc.stopReq = true := by
  simp [Dev.raiseBit, h, Dev.react]

theorem readback_offTest (h : s.awake) (x : Fin 2) (hc : s.dev.bit SF_RB_HCMD x.val = true) (ho : offTest x.val s.dev = true) :
    Answers (.readbackMismatch x .high) s fun t =>
      t.dev.get SF_EVT_RBOFF = s.dev.get SF_EVT_RBOFF ∧ t.dev.get SF_STAT_CLASP = s.dev.get SF_STAT_CLASP := by
  have heq : readback x.val .high s.dev = s.dev := by
    rw [readback]
    exact (if_pos hc).trans (if_pos ho)
  refine answers_within_still rfl h.1 h.2.2 (by rw [heq]; exact quiet_refl _) fun e he => ?_
  rw [heq] at he
  exact ⟨still_get he SF_EVT_RBOFF (by decide), still_get he SF_STAT_CLASP (by decide)⟩

theorem readback_engages (h : s.awake) (x : Fin 2) (hc : s.dev.bit SF_RB_HCMD x.val = true) (ho : offTest x.val s.dev = false) :
    Answers (.readbackMismatch x .high) s fun t => t.dev.bit SF_EVT_RBOFF x.val = true ∧ t.dev.bit SF_STAT_CLASP x.val = true ∧
      t.dev.bit SF_RB_HCMD x.val = false ∧ t.dev.bit SF_RB_LCMD x.val = false := by
  have heq : readback x.val .high s.dev = (engage x.val s.dev).raiseBit SF_EVT_RBOFF x.val .service := by
    rw [readback]
    exact (if_pos hc).trans (if_neg (by rw [ho]; exact Bool.false_ne_true))
  have hq : Quiet s.dev ((engage x.val s.dev).raiseBit SF_EVT_RBOFF x.val .service) :=
    quiet_raiseBit _ _ _ (quiet_engage x.val (quiet_refl _)) (by decide) (by decide)
  refine answers_within_still rfl h.1 h.2.2 (by rw [heq]; exact hq) fun e he => ?_
  rw [heq] at he
  obtain ⟨hh, hl⟩ := engage_switches x.isLt s.dev
  have hkeep (f : Fld) (hf : f.addr = SF_STAT ∨ f.addr = SF_RB) (hw : f.addr ≠ FC_TRIPSTAT) :
      e.bit f x.val = (engage x.val s.dev).bit f x.val := by
    refine (still_bit he f _ hw).trans (bit_congr (get_raiseBit_ne _ SF_EVT_RBOFF f _ _ ?_ ?_ ?_)) <;>
      rcases hf with k | k <;> rw [k] <;> decide
  exact ⟨(still_bit he SF_EVT_RBOFF _ (by decide)).trans
      (bit_raiseBit_same _ SF_EVT_RBOFF _ _ (by decide) x.isLt (by decide) (by decide)),
    (hkeep SF_STAT_CLASP (.inl rfl) (by decide)).trans (engage_clasps x.val x.isLt _),
    (hkeep SF_RB_HCMD (.inr rfl) (by decide)).trans hh, (hkeep SF_RB_LCMD (.inr rfl) (by decide)).trans hl⟩

theorem readback_stops (h : s.awake) (x : Fin 2) (hc : s.dev.bit SF_RB_LCMD x.val = false)
    (hb : s.dev.bit SF_EVT_RBON x.val = false) : Answers (.readbackMismatch x .low) s fun t =>
      t.dev.mode = modeSTOP ∧ t.dev.bit SF_EVT_RBON x.val = true := by
  have heq : readback x.val .low s.dev = s.dev.raiseBit SF_EVT_RBON x.val .stop := by
    rw [readback]
    exact if_neg (show ¬ s.dev.bit SF_RB_LCMD x.val = true by rw [hc]; decide)
  refine answers_within_stop rfl h ?_
  rw [heq]
  obtain ⟨hm, hk⟩ := settle_stopSource (b := s.dev) (raiseBit_stop_stopReq s.dev SF_EVT_RBON x.val hb)
  exact ⟨hm, (bit_congr (hk SF_EVT_RBON (fun k => k.2 rfl) (by decide))).trans
    (bit_raiseBit_same _ SF_EVT_RBON _ _ (by decide) x.isLt (by decide) (by decide))⟩

/-! ## Permit tests (R318) -/

/-- The test of an output starts: its high side takes the other level. -/
theorem permitTest_starts (h : s.awake) (x : Fin 2) (hf : forceOff x.val s.dev = false)
    (ht : smGet (fun _ => 0) s.dev.sf.test x.val = 0)
    (hr : clasped x.val s.dev = false → 8000 ≤ s.dev.sf.cycle - smGet (fun _ => 0) s.dev.sf.relAt x.val) :
    Answers (.permitTest x) s fun t => smGet (fun _ => 0) t.dev.sf.test x.val = 1 ∧
      t.dev.bit SF_RB_HCMD x.val = clasped x.val s.dev := by
  have heq : permitTestD x.val s.dev = Dev.putBit { s.dev with sf := { s.dev.sf with test := smSet (fun _ => 0) s.dev.sf.test x.val 1 } }
      SF_RB_HCMD x.val (!!clasped x.val s.dev) := by
    have hno : ¬ (forceOff x.val s.dev = true ∨ smGet (fun _ => 0) s.dev.sf.test x.val = 1 ∨
        smGet (fun _ => 0) s.dev.sf.test x.val = 2) := by rw [hf, ht]; decide
    have hsoon : ¬ ((!clasped x.val s.dev) = true ∧ s.dev.sf.cycle - smGet (fun _ => 0) s.dev.sf.relAt x.val < 8000) := by
      rintro ⟨hon, hlt⟩
      exact Nat.not_le.mpr hlt (hr (by simpa using hon))
    rw [permitTestD]
    dsimp only
    rw [if_neg hno, if_neg hsoon, ht]
    rfl
  refine answers_within_still rfl h.1 h.2.2 (quiet_permitTestD x.val (quiet_refl _)) fun e he => ?_
  rw [heq, Bool.not_not] at he
  refine ⟨?_, (still_bit he SF_RB_HCMD _ (by decide)).trans
    ((bit_putBit _ SF_RB_HCMD _ _ _ (by decide) x.isLt).trans (if_pos rfl))⟩
  show smGet (fun _ => 0) e.sf.test x.val = 1
  rw [still_sf he]
  exact (smGet_smSet (fun _ => 0) s.dev.sf.test x.val 1 x.val).trans (if_pos rfl)

theorem testWidth_ends (h : s.awake) (x : Fin 2) (ht : smGet (fun _ => 0) s.dev.sf.test x.val = 1)
    (hc : clasped x.val s.dev = true) (hp : bitOf s.dev.sf.relPend x.val = false) : Answers (.testWidthEnd x) s fun t =>
      smGet (fun _ => 0) t.dev.sf.test x.val = 3 ∧ t.dev.bit SF_RB_HCMD x.val = false ∧ t.dev.bit SF_RB_LCMD x.val = false := by
  have heq : testEnd x.val s.dev =
      sfSwitch x.val false { s.dev with sf := { s.dev.sf with test := smSet (fun _ => 0) s.dev.sf.test x.val 3 } } := by
    have hsw : (!clasped x.val s.dev && !forceOff x.val s.dev) = false := by rw [hc]; rfl
    rw [testEnd]
    dsimp only
    rw [if_pos (.inl ht), if_pos ht]
    refine (if_neg (show ¬ bitOf s.dev.sf.relPend x.val = true by rw [hp]; decide)).trans ?_
    exact congrArg (fun b => sfSwitch x.val b _) hsw
  refine answers_within_still rfl h.1 h.2.2 (quiet_testEnd x.val (quiet_refl _)) fun e he => ?_
  rw [heq] at he
  obtain ⟨hh, hl⟩ := sfSwitch_shows x.isLt false { s.dev with sf := { s.dev.sf with test := smSet (fun _ => 0) s.dev.sf.test x.val 3 } }
  refine ⟨?_, (still_bit he SF_RB_HCMD _ (by decide)).trans hh, (still_bit he SF_RB_LCMD _ (by decide)).trans hl⟩
  show smGet (fun _ => 0) e.sf.test x.val = 3
  rw [still_sf he]
  exact (smGet_smSet (fun _ => 0) s.dev.sf.test x.val 3 x.val).trans (if_pos rfl)

/-- Settles O45, each clause by the reading of its command. -/
theorem safetyChannel : Obligations.SafetyChannel := fun _ hr hq =>
  ⟨safetyCycle_cycles hr hq, safetyCycle_demand, safetyInput_filters hr hq, safetyReset_filters hr hq, resetHold_ignored hr hq,
    fun h => ⟨discrepancy_locks h, fun x => ⟨readback_offTest h x, readback_engages h x, readback_stops h x,
      fun hf ht => ⟨fun hc => answers_mono (permitTest_starts h x hf ht fun k => absurd (hc.symm.trans k) (by decide))
          fun _ k => ⟨k.1, k.2.trans hc⟩,
        fun hc hlate => answers_mono (permitTest_starts h x hf ht fun _ => hlate) fun _ k => ⟨k.1, k.2.trans hc⟩⟩,
      testWidth_ends h x⟩⟩⟩

end Sys2Proof.Machine
end

section
/-! PROOFS. What the operations of the recorder show: the stage, the records and their states, triggers and slots. -/

namespace Sys2Proof.Machine

variable {W : Nat → Prop} {S : Part → Prop} {d e : Dev} {s : State}

/-- The recorder has its room in the footprint of a quiet command. -/
theorem recCalm : Room 0x8000 0x9000 calmRegs calmParts := recRoom calmBroad.events

/-! ## Records -/

/-- The registers of record `r`. -/
def recordOwn (r a : Nat) : Prop := 0x8200 + 0x10 * r ≤ a ∧ a < 0x8210 + 0x10 * r

theorem recordOwn_apart {k r : Nat} (h : k ≠ r) {a : Nat} (ha : recordOwn k a) : ¬ recordOwn r a := by
  unfold recordOwn at *
  omega

theorem rstart_own (r : Nat) : recordOwn r (DR_RSTART r) := by unfold recordOwn DR_RSTART; omega
theorem rcount_own (r : Nat) : recordOwn r (DR_RCOUNT r) := by unfold recordOwn DR_RCOUNT; omega
theorem rtrig_own (r : Nat) : recordOwn r (DR_RTRIG r) := by unfold recordOwn DR_RTRIG; omega
theorem rstat_own (r : Nat) : recordOwn r (DR_RSTAT r) := by unfold recordOwn DR_RSTAT; omega

/-- The status and configuration of the recorder lie below the registers of the records. -/
theorem not_recordOwn {a : Nat} (r : Nat) (h : a < 0x8200) : ¬ recordOwn r a := by unfold recordOwn; omega

/-- A record that is started at slot `o`. -/
def recBegun (o r : Nat) (d : Dev) : Dev :=
  let d := ((d.put DR_STAT_STATE drARMED).put DR_STAT_CUR r).put (DR_RSTART_SLOT r) o
  let d := ((d.put (DR_RCOUNT_COUNT r) 0).put (DR_RTRIG_TV r) 0).put (DR_RTRIG_SLOT r) 0
  let d := d.setWord (DR_RSTAT r) 0
  { d with dr := { d.dr with
      armAt := d.nowNs, num := 0, wr := o, trigWr := false, trigWait := none, keys := [], cellLast := [], ainLast := [] } }

theorem recStart_eq (r : Nat) (d : Dev) : recStart r d = recBegun (skipPages d r 8193 0) r d := rfl

/-- What a record is started with, in DR_STAT. -/
theorem frame_recStart_own (r : Nat) (d : Dev) :
    Frame (recordOwn r) (· = .dr) ((d.put DR_STAT_STATE drARMED).put DR_STAT_CUR r) (recStart r d) := by
  rw [recStart_eq]
  generalize skipPages d r 8193 0 = o
  exact frame_setDr _ rfl (frame_setWord _ _ (rstat_own r) (frame_put (DR_RTRIG_SLOT r) _ (rtrig_own r) (frame_put (DR_RTRIG_TV r) _
    (rtrig_own r) (frame_put (DR_RCOUNT_COUNT r) _ (rcount_own r) (frame_put (DR_RSTART_SLOT r) _ (rstart_own r) (frame_refl _))))))

theorem recStart_state (r : Nat) (d : Dev) : (recStart r d).get DR_STAT_STATE = drARMED := by
  rw [(frame_recStart_own r d).get DR_STAT_STATE (not_recordOwn r (by decide))]
  exact (ufld_put_disj _ DR_STAT_CUR DR_STAT_STATE _ rfl rfl).trans (ufld_put d DR_STAT_STATE drARMED rfl rfl)

theorem recStart_cur {r : Nat} (hr : r < 16) (d : Dev) : (recStart r d).get DR_STAT_CUR = r := by
  rw [(frame_recStart_own r d).get DR_STAT_CUR (not_recordOwn r (by decide))]
  exact get_put_lt _ DR_STAT_CUR r (by decide) hr

/-- What the recorder keeps beyond its registers is no register. -/
theorem get_setDr (x : RecSt) (f : Fld) (d : Dev) : ({ d with dr := x } : Dev).get f = d.get f := rfl

theorem recBegun_count (o r : Nat) (d : Dev) : (recBegun o r d).get (DR_RCOUNT_COUNT r) = 0 := by
  have hstat : DR_RSTAT r ≠ DR_RCOUNT r := by unfold DR_RSTAT DR_RCOUNT; omega
  have htrig : DR_RTRIG r ≠ DR_RCOUNT r := by unfold DR_RTRIG DR_RCOUNT; omega
  unfold recBegun
  extract_lets d1 d2 d3
  have hset : d3.get (DR_RCOUNT_COUNT r) = d2.get (DR_RCOUNT_COUNT r) :=
    get_congr _ _ (DR_RCOUNT_COUNT r) (word_setWord_ne _ _ _ _ hstat)
  have hslot : d2.get (DR_RCOUNT_COUNT r) = ((d1.put (DR_RCOUNT_COUNT r) 0).put (DR_RTRIG_TV r) 0).get (DR_RCOUNT_COUNT r) :=
    get_put_ne _ (DR_RTRIG_SLOT r) (DR_RCOUNT_COUNT r) _ htrig
  rw [get_setDr, hset, hslot, get_put_ne _ (DR_RTRIG_TV r) (DR_RCOUNT_COUNT r) _ htrig]
  exact ufld_put d1 (DR_RCOUNT_COUNT r) 0 rfl rfl

theorem recStart_count (r : Nat) (d : Dev) : (recStart r d).get (DR_RCOUNT_COUNT r) = 0 := (recStart_eq r d) ▸ recBegun_count _ r d

/-- A record that is started leaves the registers of the others. -/
theorem recStart_others {k r : Nat} (h : k ≠ r) (d : Dev) : (recStart k d).flag (DR_RSTAT_FULL r) = d.flag (DR_RSTAT_FULL r) := by
  have hne : DR_STAT ≠ DR_RSTAT r := by unfold DR_STAT DR_RSTAT; omega
  rw [(frame_recStart_own k d).flag (DR_RSTAT_FULL r) (fun hk => recordOwn_apart h hk (rstat_own r)),
    flag_put_ne _ DR_STAT_CUR (DR_RSTAT_FULL r) _ hne, flag_put_ne _ DR_STAT_STATE (DR_RSTAT_FULL r) _ hne]

/-- A record that is released is free; the others stay as they are. -/
theorem recRelease_full (k r : Nat) (hr : r < 16) (d : Dev) :
    (recRelease k d).bit DR_STAT_FULL r = if r = k then false else d.bit DR_STAT_FULL r := by
  have hown : Frame (recordOwn k) (fun _ => False) (d.putBit DR_STAT_FULL k false) (recRelease k d) :=
    frame_setWord _ _ (rstat_own k) (frame_put (DR_RTRIG_TV k) _ (rtrig_own k)
      (frame_put (DR_RCOUNT_COUNT k) _ (rcount_own k) (frame_refl _)))
  rw [hown.bit DR_STAT_FULL r (not_recordOwn k (by decide))]
  exact bit_putBit d DR_STAT_FULL k r false (by decide) hr

theorem recReleases_full (rs : List Nat) (r : Nat) (hr : r < 16) : ∀ d : Dev,
    (rs.foldl (fun d r => recRelease r d) d).bit DR_STAT_FULL r = (d.bit DR_STAT_FULL r && !rs.contains r) := by
  induction rs with
  | nil => exact fun d => (Bool.and_true _).symm
  | cons k rs ih =>
    intro d
    rw [List.foldl_cons, ih, recRelease_full k r hr, List.contains_cons]
    by_cases h : r = k
    · simp [h]
    · simp [h, beq_eq_false_iff_ne.mpr h]

/-- The records that REL names are free afterwards (R334). -/
theorem recRel_full (mask : Nat) {r : Nat} (hr : r < 16) (hn : r < nRec d) (hi : d.get DR_STAT_STATE = drIDLE)
    (hm : bitOf mask r = true) : (recRel mask d).bit DR_STAT_FULL r = false := by
  have hheld : (d.get DR_STAT_STATE == drHELD) = false := by rw [hi]; rfl
  have heq : recRel mask d =
      ((List.range (nRec d)).filter fun r => bitOf mask r && d.bit DR_STAT_FULL r).foldl (fun d r => recRelease r d) d := by
    unfold recRel
    dsimp only
    rw [hheld]
    split
    · next h => rw [h, List.foldl_nil]
    · exact if_neg Bool.false_ne_true
  rw [heq, recReleases_full _ r hr]
  cases hf : d.bit DR_STAT_FULL r with
  | false => rfl
  | true =>
    have hin : r ∈ (List.range (nRec d)).filter fun r => bitOf mask r && d.bit DR_STAT_FULL r :=
      List.mem_filter.mpr ⟨List.mem_range.mpr hn, by rw [hm, hf]; rfl⟩
    rw [List.contains_iff_mem.mpr hin]
    rfl

/-! ## Completion -/

/-- A record that has been cut and is marked complete. -/
def recMarked (d : Dev) : Dev :=
  ((recCutOwed d).put (DR_RSTAT_FULL (d.get DR_STAT_CUR)) 1).putBit DR_STAT_FULL (d.get DR_STAT_CUR) true

theorem frame_recMarked (d : Dev) : Frame (fun a => a = DR_STAT ∨ 0x8200 ≤ a) (fun _ => False) d (recMarked d) := by
  have own {r a : Nat} (h : recordOwn r a) : a = DR_STAT ∨ 0x8200 ≤ a := .inr (Nat.le_trans (Nat.le_add_right _ _) h.1)
  have hcut : Frame (fun a => a = DR_STAT ∨ 0x8200 ≤ a) (fun _ => False) d (recCut d) :=
    frame_ite (frame_refl d) (frame_put (DR_RCOUNT_COUNT _) _ (own (rcount_own _)) (frame_put (DR_RSTART_SLOT _) _ (own (rstart_own _))
      (frame_put (DR_RSTAT_PREFULL _) 1 (own (rstat_own _)) (frame_refl d))))
  exact frame_putBit DR_STAT_FULL _ _ (.inl rfl) (frame_put (DR_RSTAT_FULL _) 1 (own (rstat_own _)) (frame_ite hcut (frame_refl d)))

/-- What follows a complete record: the next free one, a freed one in a ring, or HELD. -/
theorem recComplete_cases (d : Dev) :
    (∃ k, k < nRec (recMarked d) ∧ recFree (recMarked d) k = true ∧ recComplete d = recStart k (recMarked d)) ∨
    (d.flag DR_CFG_RING = true ∧ ∃ k, recComplete d = recStart k (recRelease k (recMarked d))) ∨
    recComplete d = ((recMarked d).put DR_STAT_STATE drHELD).raise DR_EVT_HELD .notice := by
  have hring : (recMarked d).flag DR_CFG_RING = d.flag DR_CFG_RING := (frame_recMarked d).flag DR_CFG_RING (by decide)
  rw [← hring]
  unfold recComplete
  extract_lets r cut full
  have hfull : full = recMarked d := rfl
  clear_value full
  subst hfull
  split
  · next k hk =>
    obtain ⟨i, hi⟩ := List.mem_map.mp (List.mem_of_find?_eq_some hk)
    refine .inl ⟨k, ?_, List.find?_some hk, rfl⟩
    rw [← hi.2]
    exact Nat.mod_lt _ (nRec_pos _)
  · split
    · next k hk =>
      refine .inr (.inl ⟨?_, k, rfl⟩)
      by_contra hno
      rw [if_neg hno] at hk
      cases hk
    · exact .inr (.inr rfl)

/-- A record that is marked complete shows so, and is not free. -/
theorem recMarked_shows (d : Dev) : (recMarked d).flag (DR_RSTAT_FULL (d.get DR_STAT_CUR)) = true ∧
    recFree (recMarked d) (d.get DR_STAT_CUR) = false := by
  have hcur : d.get DR_STAT_CUR < 16 := get_lt d DR_STAT_CUR
  have hne : DR_STAT ≠ DR_RSTAT (d.get DR_STAT_CUR) := by unfold DR_STAT DR_RSTAT; omega
  refine ⟨?_, ?_⟩
  · rw [recMarked, Dev.putBit, flag_put_ne _ DR_STAT_FULL (DR_RSTAT_FULL _) _ hne]
    exact uflag_put_one _ (DR_RSTAT_FULL _) rfl rfl
  · rw [recFree, recMarked, bit_putBit _ DR_STAT_FULL _ _ _ (by decide) hcur, if_pos rfl]
    rfl

theorem recComplete_state (d : Dev) :
    (recComplete d).get DR_STAT_STATE = drARMED ∨ (recComplete d).get DR_STAT_STATE = drHELD := by
  rcases recComplete_cases d with ⟨k, -, -, h⟩ | ⟨-, k, h⟩ | h
  · exact .inl (h ▸ recStart_state k _)
  · exact .inl (h ▸ recStart_state k _)
  · refine .inr ?_
    rw [h, get_raise_ne _ DR_EVT_HELD DR_STAT_STATE _ (by decide) (by decide) (by decide)]
    exact ufld_put _ DR_STAT_STATE drHELD rfl rfl

/-- Outside a ring the complete record shows FULL. -/
theorem recComplete_full (hr : d.flag DR_CFG_RING = false) : (recComplete d).flag (DR_RSTAT_FULL (d.get DR_STAT_CUR)) = true := by
  obtain ⟨hfull, hbusy⟩ := recMarked_shows d
  rcases recComplete_cases d with ⟨k, -, hfree, h⟩ | ⟨hring, -⟩ | h
  · have hk : k ≠ d.get DR_STAT_CUR := fun hk => by rw [hk, hbusy] at hfree; exact Bool.false_ne_true hfree
    rw [h, recStart_others hk, hfull]
  · exact absurd (hr.symm.trans hring) Bool.false_ne_true
  · have hstat : DR_STAT ≠ DR_RSTAT (d.get DR_STAT_CUR) := by unfold DR_STAT DR_RSTAT; omega
    have hevt : DR_EVT ≠ DR_RSTAT (d.get DR_STAT_CUR) := by unfold DR_EVT DR_RSTAT; omega
    have hnt : DR_RSTAT (d.get DR_STAT_CUR) ≠ NT_EVT ∧ DR_RSTAT (d.get DR_STAT_CUR) ≠ NT_CNT1 := by
      unfold DR_RSTAT NT_EVT NT_CNT1; omega
    rw [h, flag_raise_ne _ DR_EVT_HELD (DR_RSTAT_FULL _) _ hevt hnt.1 hnt.2, flag_put_ne _ DR_STAT_STATE (DR_RSTAT_FULL _) _ hstat, hfull]

/-! ## What the stage and the lines keep -/

/-- What records and triggers leave of the recorder: the stage and the lines that stand asserted. -/
def recOuter (x : RecSt) : List RecEntry × Nat := (x.stage, x.xAsserted)

theorem recOuter_offInq : OffInq recOuter := fun _ _ => rfl

theorem recOuter_begun (x : RecSt) (a o : Nat) : recOuter { x with
    armAt := a, num := 0, wr := o, trigWr := false, trigWait := none, keys := [], cellLast := [], ainLast := [] } = recOuter x := rfl

theorem recBegun_outer (o r : Nat) (d : Dev) : recOuter (recBegun o r d).dr = recOuter d.dr := recOuter_begun d.dr _ o
theorem recStart_outer (r : Nat) (d : Dev) : recOuter (recStart r d).dr = recOuter d.dr := by rw [recStart_eq, recBegun_outer]
theorem recCut_dr (d : Dev) : (recCut d).dr = d.dr := by
  unfold recCut
  dsimp only
  split <;> rfl
theorem recCutOwed_dr (d : Dev) : (recCutOwed d).dr = d.dr := by
  unfold recCutOwed
  split
  · exact recCut_dr d
  · rfl
theorem recRelease_dr (r : Nat) (d : Dev) : (recRelease r d).dr = d.dr := rfl
theorem recMarked_dr (d : Dev) : (recMarked d).dr = d.dr := recCutOwed_dr d

theorem raise_outer (x : Fld) (c : Cls) (d : Dev) : recOuter (d.raise x c).dr = recOuter d.dr := raiseBit_rec recOuter_offInq x 0 c

theorem put_outer (x : Fld) (v : Nat) (d : Dev) : recOuter (d.put x v).dr = recOuter d.dr := rfl

theorem recComplete_outer (d : Dev) : recOuter (recComplete d).dr = recOuter d.dr := by
  have hmarked : recOuter (recMarked d).dr = recOuter d.dr := congrArg recOuter (recMarked_dr d)
  have hcases := recComplete_cases d
  generalize recMarked d = e at hmarked hcases
  rcases hcases with ⟨k, -, -, h⟩ | ⟨-, k, h⟩ | h
  · exact h ▸ (recStart_outer k e).trans hmarked
  · exact h ▸ (recStart_outer k _).trans ((congrArg recOuter (recRelease_dr k e)).trans hmarked)
  · exact h ▸ (raise_outer DR_EVT_HELD .notice _).trans ((put_outer DR_STAT_STATE drHELD e).trans hmarked)

theorem foldN_bumps_dr (n units : Nat) (d : Dev) :
    (foldN n (fun d u => if bitOf units u then d.bump (DR_TCFG_TCNT u) else d) d).dr = d.dr :=
  List.foldlRecOn (motive := fun e : Dev => e.dr = d.dr) (List.range n) _ rfl fun e he u _ => by
    split
    · exact he
    · exact he

/-- The record takes its trigger. -/
def trigMarked (r units lines : Nat) (force : Bool) (t : Nat) (d : Dev) : Dev :=
  let d := ((d.put DR_STAT_STATE drPOST).put (DR_RTRIG_TV r) 1).put (DR_RSTAT_UNITS r) units
  let d := (d.put (DR_RSTAT_LINES r) lines).putB (DR_RSTAT_FORCE r) force
  { d with dr := { d.dr with trigAt := smSet (fun _ => 0) d.dr.trigAt r t } }

/-- The lines and the twin take the trigger. -/
def trigDriven (x0 x1 tw : Bool) (t : Nat) (d : Dev) : Dev :=
  { d with dr := { d.dr with
      drive := d.dr.drive ||| (b2n x0 + 2 * b2n x1)
      twTrig := if tw then d.dr.twTrig ++ [t] else d.dr.twTrig } }

/-- The TRIG entry that comes last is that of the record. -/
def trigAwaited (d : Dev) : Dev := { d with dr := { d.dr with trigWait := d.dr.inq.getLast? } }

theorem trigMarked_outer (r units lines : Nat) (force : Bool) (t : Nat) (d : Dev) :
    recOuter (trigMarked r units lines force t d).dr = recOuter d.dr := rfl
theorem trigDriven_outer (x0 x1 tw : Bool) (t : Nat) (d : Dev) : recOuter (trigDriven x0 x1 tw t d).dr = recOuter d.dr := rfl
theorem trigAwaited_outer (d : Dev) : recOuter (trigAwaited d).dr = recOuter d.dr := rfl

/-- A trigger with its TRIG entry. -/
def trigEntered (units lines : Nat) (force late relayed : Bool) (t : Nat) (d : Dev) : Dev :=
  let st := d.get DR_STAT_STATE
  let r := d.get DR_STAT_CUR
  let x0 := d.flag DR_XCFG_XOUT0EN
  let x1 := d.flag DR_XCFG_XOUT1EN
  let tw := d.flag DR_XCFG_TWOUT && !relayed
  let d := foldN 8 (fun d u => if bitOf units u then d.bump (DR_TCFG_TCNT u) else d) d
  let d := trigDriven x0 x1 tw t (if st = drARMED then trigMarked r units lines force t d else d)
  d.source kTRIG (units + 256 * b2n force + 512 * lines) t (b2n x0 + 2 * b2n x1 + 4 * b2n tw) late

theorem recTrigger_eq (units lines : Nat) (force late relayed : Bool) (t : Nat) (d : Dev) :
    recTrigger units lines force late relayed t d =
      if (d.get DR_STAT_STATE ≠ drARMED ∧ d.get DR_STAT_STATE ≠ drPOST) ∨ t < d.dr.armAt then d
      else if d.get DR_STAT_STATE = drARMED then trigAwaited (trigEntered units lines force late relayed t d)
      else trigEntered units lines force late relayed t d := rfl

theorem trigEntered_outer (units lines : Nat) (force late relayed : Bool) (t : Nat) (d : Dev) :
    recOuter (trigEntered units lines force late relayed t d).dr = recOuter d.dr := by
  unfold trigEntered
  extract_lets st r x0 x1 tw counted driven
  have hcounted : recOuter counted.dr = recOuter d.dr := congrArg recOuter (foldN_bumps_dr 8 units d)
  refine (source_rec recOuter_offInq _ _ _ _ _ _).trans ?_
  rw [trigDriven_outer]
  split
  · rw [trigMarked_outer, hcounted]
  · exact hcounted

theorem recTrigger_outer (units lines : Nat) (force late relayed : Bool) (t : Nat) (d : Dev) :
    recOuter (recTrigger units lines force late relayed t d).dr = recOuter d.dr := by
  have h := trigEntered_outer units lines force late relayed t d
  rw [recTrigger_eq]
  split
  · rfl
  split
  · rw [trigAwaited_outer, h]
  · exact h

theorem fire_outer (fs : List Firing) (late : Bool) (d : Dev) : recOuter (fire fs late d).dr = recOuter d.dr := by
  unfold fire
  dsimp only
  split
  · rfl
  · exact recTrigger_outer _ _ _ _ _ _ _

theorem lineNote_outer (line t : Nat) (d : Dev) : recOuter (lineNote line t d).dr = recOuter d.dr := by
  unfold lineNote
  split <;> rfl

theorem lineEvent_outer (line t : Nat) (d : Dev) : recOuter (lineEvent line t d).dr = recOuter d.dr :=
  (fire_outer _ _ _).trans (lineNote_outer line t d)

/-! ## Triggers -/

/-- The marks of a forced trigger. -/
theorem trigMarked_shows (r : Nat) (t : Nat) (d : Dev) : (trigMarked r 0 0 true t d).get DR_STAT_STATE = drPOST ∧
    (trigMarked r 0 0 true t d).flag (DR_RSTAT_FORCE r) = true := by
  have hstat : DR_RSTAT r ≠ DR_STAT := by unfold DR_STAT DR_RSTAT; omega
  have htv : DR_RTRIG r ≠ DR_STAT := by unfold DR_STAT DR_RTRIG; omega
  unfold trigMarked
  extract_lets marked forced
  refine ⟨?_, (flag_congr (get_setDr _ (DR_RSTAT_FORCE r) _)).trans (uflag_putB _ (DR_RSTAT_FORCE r) true rfl rfl)⟩
  have hforced : forced.get DR_STAT_STATE = (marked.put (DR_RSTAT_LINES r) 0).get DR_STAT_STATE :=
    get_put_ne _ (DR_RSTAT_FORCE r) DR_STAT_STATE _ hstat
  rw [get_setDr, hforced, get_put_ne _ (DR_RSTAT_LINES r) DR_STAT_STATE _ hstat, get_put_ne _ (DR_RSTAT_UNITS r) DR_STAT_STATE _ hstat,
    get_put_ne _ (DR_RTRIG_TV r) DR_STAT_STATE _ htv]
  exact ufld_put _ DR_STAT_STATE drPOST rfl rfl

/-- A forced trigger of an armed record. -/
theorem recTrigger_forced {t : Nat} (hs : d.get DR_STAT_STATE = drARMED) (ht : d.dr.armAt ≤ t) :
    (recTrigger 0 0 true false false t d).get DR_STAT_STATE = drPOST ∧
      (recTrigger 0 0 true false false t d).flag (DR_RSTAT_FORCE (d.get DR_STAT_CUR)) = true := by
  rw [recTrigger_eq, if_neg (by rw [not_or, not_and, not_lt]; exact ⟨fun h => absurd hs h, ht⟩), if_pos hs]
  unfold trigEntered
  extract_lets st r x0 x1 tw counted driven
  have hout : Frame (fun _ => False) (· = .dr) (trigMarked r 0 0 true t counted)
      (trigAwaited (driven.source kTRIG (0 + 256 * b2n true + 512 * 0) t (b2n x0 + 2 * b2n x1 + 4 * b2n tw) false)) := by
    refine frame_setDr _ rfl (frame_source _ _ _ _ _ _ rfl ?_)
    rw [show driven = trigDriven x0 x1 tw t (trigMarked r 0 0 true t counted) from congrArg (trigDriven x0 x1 tw t) (if_pos hs)]
    exact frame_setDr _ rfl (frame_refl _)
  obtain ⟨hstate, hforce⟩ := trigMarked_shows r t counted
  exact ⟨(hout.get DR_STAT_STATE id).trans hstate, (hout.flag (DR_RSTAT_FORCE r) id).trans hforce⟩

/-! ## The stage -/

/-- What the stage is read by. -/
def stageView (x : RecSt) : List RecEntry × Nat × Nat := (x.stage, x.newest, x.dropN)

theorem stageView_offInq : OffInq stageView := fun _ _ => rfl

/-- The stage takes one more entry, and the newest key is never behind it. -/
theorem stageIn_stage (x : RecEntry) (d : Dev) : (stageIn x d).dr.stage.length = d.dr.stage.length + 1 ∧
    (stageIn x d).dr.newest = max d.dr.newest x.key ∧ (stageIn x d).dr.dropN = d.dr.dropN := by
  unfold stageIn
  extract_lets lk isLate twin x' _ staged
  have hstaged : staged.dr.stage.length = d.dr.stage.length + 1 ∧ staged.dr.newest = max d.dr.newest x.key ∧
      staged.dr.dropN = d.dr.dropN := ⟨List.length_append, rfl, rfl⟩
  have hlate : stageView ((staged.bump DR_CNT_LATECNT).raise DR_EVT_LATE .notice).dr = stageView staged.dr :=
    raiseBit_rec stageView_offInq DR_EVT_LATE 0 .notice
  split
  · obtain ⟨hs, hn, hd⟩ := (Prod.ext_iff.mp hlate).imp id Prod.ext_iff.mp
    exact ⟨(congrArg List.length hs).trans hstaged.1, hn.trans hstaged.2.1, hd.trans hstaged.2.2⟩
  · exact hstaged

/-! ## Slots -/

theorem recPut_outer (x : RecEntry) (d : Dev) : recOuter (recPut x d).1.dr = recOuter d.dr := by
  unfold recPut
  extract_lets isTrig cut r o slot v n counted _ _ marked stored _
  have hcut : cut.dr = d.dr := by
    show (if isTrig then recCut d else d).dr = _
    split
    · exact recCut_dr d
    · rfl
  split
  · exact congrArg recOuter hcut
  have hcounted : counted.dr = d.dr := by
    rw [← hcut]
    show (if n < recCap r cut then _ else _ : Dev).dr = _
    split <;> rfl
  have hmarked : recOuter marked.dr = recOuter d.dr := by
    rw [← hcounted]
    show recOuter (if isTrig then _ else counted).dr = _
    split <;> rfl
  have hstored : stored.dr = marked.dr := by
    show (injStore _ marked).dr = _
    unfold injStore
    split <;> rfl
  rw [← hmarked, ← hstored]
  rfl

/-- An entry that is not the trigger of its record goes into the next slot. -/
theorem recPut_slot {x : RecEntry} (hs : d.get DR_STAT_STATE ≠ drPOST) (hc : 0 < recCap (d.get DR_STAT_CUR) d) :
    (recPut x d).2 = some (d.get DR_STAT_CUR * recSize d + d.dr.wr, slotBits x d.dr.num) := by
  have hno : (d.dr.trigWait == some x && d.get DR_STAT_STATE == drPOST) = false := by
    rw [beq_eq_false_iff_ne.mpr hs, Bool.and_false]
  unfold recPut
  dsimp only
  rw [hno, if_neg Bool.false_ne_true, if_neg hc.ne']

section quiet
variable (U : WideRoom W S) (R : Room 0x8000 0x9000 W S) (hi : S .inj)
include U R hi

theorem frame_recPut (x : RecEntry) (h : Frame W S d e) : Frame W S d (recPut x e).1 := by
  unfold recPut
  extract_lets isTrig cut r o slot v n counted _ _ marked stored _
  have hcut : Frame W S d cut := frame_ite (frame_recCut R h) h
  split
  · exact hcut
  obtain ⟨hstart, hcount, htrig, -⟩ := recordRegs R r (cur_lt cut)
  have hcounted : Frame W S d counted :=
    frame_ite (frame_put (DR_RCOUNT_COUNT r) _ hcount hcut) (frame_put (DR_RSTART_SLOT r) _ hstart hcut)
  have hmarked : Frame W S d marked := frame_ite (frame_setDr _ R.dr (frame_put (DR_RTRIG_SLOT r) _ htrig hcounted)) hcounted
  have hstored : Frame W S d stored := frame_injStore U _ hi hmarked
  exact frame_setDr _ R.dr hstored

end quiet

end Sys2Proof.Machine
end

section
/-! PROOFS. The commands of the recorder (O46). -/

namespace Sys2Proof.Machine

variable {d : Dev} {s : State}

/-! ## The entry that leaves the stage -/

/-- An entry leaves the stage; a record that is full completes first. -/
def entryDue (x : RecEntry) (d : Dev) : Dev :=
  let d := { d with dr := { d.dr with stage := d.dr.stage.erase x, lastKey := some x.key } }
  if recFull d then recComplete d else d

/-- A unit that combines an entry with a line event remembers it. -/
def entryNote (x : RecEntry) (d : Dev) (u : Nat) : Dev :=
  if unitMatch x d u ∧ d.get (DR_TCFG_COMB u) = 1 then { d with dr := { d.dr with unitAt := (u, x.key) :: d.dr.unitAt } } else d

def entryNoted (x : RecEntry) (d : Dev) : Dev := foldN 8 (entryNote x) d

/-- An entry is stored where the recorder writes it. -/
def entryStored (x : RecEntry) (d : Dev) : Dev × Option (Nat × BitVec 256) :=
  if (d.get DR_STAT_STATE = drARMED ∨ d.get DR_STAT_STATE = drPOST) ∧ recChanged x d then recPut x (remember x d) else (d, none)

theorem entryWriteD_eq {x : RecEntry} (hx : stageMin d.dr.stage = some x) (hl : d.live = true) (hk : x.key + horizon d ≤ d.dr.newest) :
    entryWriteD d = (fire (entryFires x (entryDue x d)) x.late (entryStored x (entryNoted x (entryDue x d))).1,
      (entryStored x (entryNoted x (entryDue x d))).2) := by
  rw [entryWriteD, hx]
  dsimp only
  rw [if_neg (by rw [not_not]; exact ⟨hl, hk⟩)]
  rfl

theorem entryDue_stage (x : RecEntry) (d : Dev) : (entryDue x d).dr.stage = d.dr.stage.erase x := by
  unfold entryDue
  extract_lets _ taken
  have h : (if recFull taken = true then recComplete taken else taken).dr.stage = taken.dr.stage := by
    split
    · exact (Prod.ext_iff.mp (recComplete_outer taken)).1
    · rfl
  exact h

/-- Noting an entry leaves whatever does not look at the entries noted. -/
theorem entryNotes_view {α : Type} {f : RecSt → α} (hf : ∀ x l, f { x with unitAt := l } = f x) (x : RecEntry) (n : Nat) (d : Dev) :
    f (foldN n (entryNote x) d).dr = f d.dr := by
  have hstep (e : Dev) (u : Nat) : f (entryNote x e u).dr = f e.dr := by
    unfold entryNote
    split
    · exact hf e.dr _
    · rfl
  exact List.foldlRecOn (motive := fun e : Dev => f e.dr = f d.dr) (List.range n) (entryNote x) rfl
    fun e he u _ => (hstep e u).trans he

theorem entryNoted_outer (x : RecEntry) (d : Dev) : recOuter (entryNoted x d).dr = recOuter d.dr :=
  entryNotes_view (f := recOuter) (fun _ _ => rfl) x 8 d

theorem remember_outer (x : RecEntry) (d : Dev) : recOuter (remember x d).dr = recOuter d.dr := by
  unfold remember
  split
  · rfl
  split
  · rfl
  split
  · rfl
  · rfl

theorem entryStored_outer (x : RecEntry) (d : Dev) : recOuter (entryStored x d).1.dr = recOuter d.dr := by
  unfold entryStored
  split
  · exact (recPut_outer x _).trans (remember_outer x d)
  · rfl

theorem entryWriteD_stage {x : RecEntry} (hx : stageMin d.dr.stage = some x) (hl : d.live = true)
    (hk : x.key + horizon d ≤ d.dr.newest) : (entryWriteD d).1.dr.stage = d.dr.stage.erase x := by
  rw [entryWriteD_eq hx hl hk, ← entryDue_stage]
  refine (Prod.ext_iff.mp ((fire_outer _ _ _).trans ((entryStored_outer x _).trans (entryNoted_outer x _)))).1

/-- A MODE entry is not a change-only one. -/
theorem mode_remembered {x : RecEntry} (hx : x.kind = kMODE) (d : Dev) : recChanged x d = true ∧ remember x d = d := by
  have hc : x.kind ≠ kCELLREP := by rw [hx]; decide
  have ha : x.kind ≠ kAIN := by rw [hx]; decide
  unfold recChanged remember
  rw [if_neg hc, if_neg hc, if_neg ha, if_neg ha]
  exact ⟨ite_self true, ite_self d⟩

theorem frame_entryNoted {W : Nat → Prop} {S : Part → Prop} {d e : Dev} (x : RecEntry) (hS : S .dr) (h : Frame W S d e) :
    Frame W S d (entryNoted x e) :=
  frame_foldN 8 (entryNote x) (fun _ _ _ hd => frame_ite (frame_setDr _ hS hd) hd) h

/-- What the record that is written is read by. -/
def recSlot (x : RecSt) : Nat × Nat × List Nat := (x.num, x.wr, x.removed)

theorem entryNoted_slot (x : RecEntry) (d : Dev) : recSlot (entryNoted x d).dr = recSlot d.dr :=
  entryNotes_view (f := recSlot) (fun _ _ => rfl) x 8 d

/-- An armed record takes a MODE entry into its next slot. -/
theorem entryWriteD_slot {x : RecEntry} (hx : stageMin d.dr.stage = some x) (hl : d.live = true)
    (hk : x.key + horizon d ≤ d.dr.newest) (hs : d.get DR_STAT_STATE = drARMED) (hm : x.kind = kMODE)
    (hc : 0 < recCap (d.get DR_STAT_CUR) d) :
    (entryWriteD d).2 = some (d.get DR_STAT_CUR * recSize d + d.dr.wr, slotBits x d.dr.num) := by
  have hnot : recFull { d with dr := { d.dr with stage := d.dr.stage.erase x, lastKey := some x.key } } = false := by
    rw [recFull, get_setDr, hs]
    rfl
  have htaken : entryDue x d = { d with dr := { d.dr with stage := d.dr.stage.erase x, lastKey := some x.key } } :=
    if_neg (by rw [hnot]; exact Bool.false_ne_true)
  rw [entryWriteD_eq hx hl hk]
  have hslot : recSlot (entryNoted x (entryDue x d)).dr = recSlot d.dr := by rw [entryNoted_slot, htaken]; rfl
  have hget (f : Fld) : (entryNoted x (entryDue x d)).get f = d.get f := by
    rw [(frame_entryNoted (W := fun _ => False) (S := (· = .dr)) x rfl (frame_refl _)).get f id, htaken, get_setDr]
  generalize entryNoted x (entryDue x d) = e at hslot hget
  obtain ⟨hchanged, hrem⟩ := mode_remembered hm e
  obtain ⟨hnum, hrest⟩ := Prod.ext_iff.mp hslot
  obtain ⟨hwr, hremoved⟩ := Prod.ext_iff.mp hrest
  have hsize : recSize e = recSize d := by rw [recSize, recSize, nRec, nRec, hget]
  have hcap : recCap (d.get DR_STAT_CUR) e = recCap (d.get DR_STAT_CUR) d := by
    rw [recCap, recCap, recRemoved, recRemoved, hsize, show e.dr.removed = d.dr.removed from hremoved]
  rw [entryStored, if_pos ⟨.inl ((hget _).trans hs), hchanged⟩, hrem,
    recPut_slot (by rw [hget, hs]; decide) (by rw [hget, hcap]; exact hc),
    hget, hsize, show e.dr.wr = d.dr.wr from hwr, show e.dr.num = d.dr.num from hnum]

theorem frame_remember {W : Nat → Prop} {S : Part → Prop} {d e : Dev} (x : RecEntry) (hS : S .dr) (h : Frame W S d e) :
    Frame W S d (remember x e) :=
  frame_ite h (frame_ite (frame_setDr _ hS h) (frame_ite (frame_setDr _ hS h) h))

theorem frame_entryWriteD {x : RecEntry} (hx : stageMin d.dr.stage = some x) (hl : d.live = true)
    (hk : x.key + horizon d ≤ d.dr.newest) : Frame calmRegs calmParts d (entryWriteD d).1 := by
  rw [entryWriteD_eq hx hl hk]
  have htaken : Frame calmRegs calmParts d (entryDue x d) := by
    have hout := frame_setDr (W := calmRegs) { d.dr with stage := d.dr.stage.erase x, lastKey := some x.key } recCalm.dr (frame_refl d)
    exact frame_ite (frame_recComplete recCalm hout) hout
  have hnoted : Frame calmRegs calmParts d (entryNoted x (entryDue x d)) :=
    frame_entryNoted x recCalm.dr htaken
  generalize entryNoted x (entryDue x d) = e at hnoted
  have hrem : Frame calmRegs calmParts d (remember x e) := frame_remember x recCalm.dr hnoted
  have hput : Frame calmRegs calmParts d (recPut x (remember x e)).1 :=
    frame_recPut calmRoom recCalm (show calmParts .inj from trivial) x hrem
  have hstored : Frame calmRegs calmParts d (entryStored x e).1 := by
    unfold entryStored
    split
    · exact hput
    · exact hnoted
  exact frame_room_fire recCalm _ _ hstored

/-- The state after the entry due has been written. -/
theorem entryWrite_cases (s : State) : (entryWrite s).dev = (entryWriteD s.dev).1 ∧
    ∀ k v, (entryWriteD s.dev).2 = some (k, v) → (entryWrite s).recMem = slotSet s.recMem k v := by
  unfold entryWrite
  split
  · next e h => rw [h]; exact ⟨rfl, nofun⟩
  · next e k v h =>
    rw [h]
    refine ⟨rfl, fun k' v' hk => ?_⟩
    obtain ⟨hk, hv⟩ := Prod.mk.inj (Option.some.inj hk)
    rw [← hk, ← hv]

theorem entryWrite_answers (h : s.awake) {x : RecEntry} (hx : stageMin s.dev.dr.stage = some x) (hl : s.dev.live = true)
    (hk : x.key + horizon s.dev ≤ s.dev.dr.newest) : Answers .recorderEntryWrite s fun t => t.dev.dr.stage = s.dev.dr.stage.erase x ∧
      (s.dev.get DR_STAT_STATE = drARMED → x.kind = kMODE → 0 < recCap (s.dev.get DR_STAT_CUR) s.dev →
        slotGet t.recMem (s.dev.get DR_STAT_CUR * recSize s.dev + s.dev.dr.wr) = slotBits x s.dev.dr.num) := by
  obtain ⟨hdev, hmem⟩ := entryWrite_cases s
  refine answers_wholeRunning rfl h (hdev ▸ quiet_of_frame (frame_entryWriteD hx hl hk)) ⟨?_, fun hs hm hc => ?_⟩
  · rw [tripOutRelease_dr, hdev]
    exact entryWriteD_stage hx hl hk
  · show slotGet (entryWrite s).recMem _ = _
    rw [hmem _ _ (entryWriteD_slot hx hl hk hs hm hc)]
    exact (smGet_smSet slotNone s.recMem _ _ _).trans (if_pos rfl)

/-! ## Entries that reach the stage -/

theorem entryIn_staged (h : s.awake) {x : RecEntry} {rest : List RecEntry} (hq : s.dev.dr.inq = x :: rest)
    (hr : stageRoom x s.dev = true) : Answers .recorderEntryIn s fun t =>
      t.dev.dr.stage.length = s.dev.dr.stage.length + 1 ∧ t.dev.dr.newest = max s.dev.dr.newest x.key := by
  refine answers_running rfl h (quiet_of_frame (frame_entryIn recCalm (frame_refl _))) ?_
  have heq : entryIn s.dev = stageIn x { s.dev with dr := { s.dev.dr with inq := rest } } := by
    rw [entryIn, hq]
    exact if_pos hr
  obtain ⟨hlen, hnew, -⟩ := stageIn_stage x { s.dev with dr := { s.dev.dr with inq := rest } }
  rw [tripOutRelease_dr, heq]
  exact ⟨hlen, hnew⟩

theorem entryIn_dropped (h : s.awake) {x : RecEntry} {rest : List RecEntry} (hq : s.dev.dr.inq = x :: rest)
    (hr : stageRoom x s.dev = false) : Answers .recorderEntryIn s fun t => t.dev.dr.stage = s.dev.dr.stage ∧
      t.dev.dr.dropN = s.dev.dr.dropN + 1 ∧
      t.dev.get DR_CNT_DROPCNT = satInc DR_CNT_DROPCNT.width (s.dev.get DR_CNT_DROPCNT) 1 ∧ t.dev.flag DR_EVT_DROP = true := by
  refine answers_running rfl h (quiet_of_frame (frame_entryIn recCalm (frame_refl _))) ?_
  have heq : entryIn s.dev = (Dev.bump { s.dev with dr := { s.dev.dr with
      inq := rest, dropN := s.dev.dr.dropN + 1, dropKey := if s.dev.dr.dropN = 0 then x.key else s.dev.dr.dropKey } }
        DR_CNT_DROPCNT).raise DR_EVT_DROP .notice := by
    rw [entryIn, hq]
    exact if_neg (show ¬ stageRoom x s.dev = true by rw [hr]; exact Bool.false_ne_true)
  have hview : stageView (entryIn s.dev).dr = (s.dev.dr.stage, s.dev.dr.newest, s.dev.dr.dropN + 1) := by
    rw [heq]
    exact raiseBit_rec stageView_offInq DR_EVT_DROP 0 .notice
  refine ⟨?_, ?_, ?_, ?_⟩
  · rw [tripOutRelease_dr]
    exact (Prod.ext_iff.mp hview).1
  · rw [tripOutRelease_dr]
    exact (Prod.ext_iff.mp (Prod.ext_iff.mp hview).2).2
  · rw [tripOutRelease_get _ _ (by decide), heq, get_raise_ne _ DR_EVT_DROP DR_CNT_DROPCNT _ (by decide) (by decide) (by decide)]
    exact ufld_bump _ DR_CNT_DROPCNT 1 rfl
  · rw [tripOutRelease_flag _ _ (by decide), heq]
    exact flag_raise_same _ DR_EVT_DROP _ rfl (by decide) (by decide) (by decide)

/-! ## Gap entries -/

theorem gapEntry_staged (h : s.awake) (hd : 0 < s.dev.dr.dropN) (hr : s.dev.dr.stage.length < 16384) :
    Answers .recorderGapEntry s fun t => t.dev.dr.dropN = 0 ∧ t.dev.dr.stage.length = s.dev.dr.stage.length + 1 := by
  refine answers_running rfl h (quiet_of_frame (frame_gapEntry recCalm (frame_refl _))) ?_
  have hroom (x : RecEntry) (hx : x.kind = kGAP) : stageRoom x s.dev = true := by
    rw [stageRoom, hx]
    simp [hr, kGAP]
  rw [tripOutRelease_dr, gapEntry, if_neg (by rw [hroom _ rfl]; simp [hd.ne'])]
  obtain ⟨hlen, -, hdrop⟩ := stageIn_stage ⟨kGAP, false, false, 0, s.dev.dr.dropKey, BitVec.ofNat 128 (s.dev.dr.dropN % 2 ^ 32)⟩
    { s.dev with dr := { s.dev.dr with dropN := 0, dropKey := 0 } }
  exact ⟨hdrop, hlen⟩

/-! ## DR_CTL (R334) -/

/-- What a write of DR_CTL shows, where it is accepted. -/
theorem answers_drCtl {c : Instr} {P : State → Prop} {o : Origin} {w : Word}
    (hc : exec c s = .next (within (fun d => (wrDrCtl o w d).2) s))
    (h : s.awake) (hl : s.dev.mode ≠ modeLOAD) (hp : s.dev.permits o .recd = true)
    (hw : w.toNat % 2 ^ 16 < 8) (hok : drCtlOk w.toNat s.dev = true) {e : Dev}
    (he : (let d := if w.toNat / 2 ^ 16 ≠ 0 then recRel (w.toNat / 2 ^ 16) s.dev else s.dev
      let d := if bitOf w.toNat 0 then recArm d else d
      let d := if bitOf w.toNat 1 then recTrigger 0 0 true false false d.nowNs d else d
      if bitOf w.toNat 2 then recDisarm d else d) = e)
    (hP : P { s with dev := tripOutRelease e }) : Answers c s P := by
  have hacc : (wrDrCtl o w s.dev).2 = e := by
    rw [wrDrCtl, shellWrite_accepted (writable_of_awake h hl) hp (by rw [decide_eq_true hw, hok]; rfl)]
    exact he
  refine answers_within hc h (quiet_of_frame (frame_wrDrCtl recCalm o w (frame_refl _))) ?_
  rw [hacc]
  exact hP

theorem drArm_arms (h : s.awake) {o : Origin} (hl : s.dev.mode ≠ modeLOAD) (hp : s.dev.permits o .recd = true)
    (hn : s.dev.get DR_CFG_NRECL ≤ 4) {r : Nat} (hs : s.dev.get DR_STAT_STATE = drIDLE) (hen : s.dev.flag DR_CFG_EN = true)
    (hr : (List.range (nRec s.dev)).find? (recFree s.dev) = some r) : Answers (.drArm o) s fun t =>
      t.dev.get DR_STAT_STATE = drARMED ∧ t.dev.get DR_STAT_CUR = r ∧ t.dev.get (DR_RCOUNT_COUNT r) = 0 := by
  have hlt : r < 16 := Nat.lt_of_lt_of_le (List.mem_range.mp (List.mem_of_find?_eq_some hr))
    (Nat.pow_le_pow_right (by decide) hn)
  have harm : recArm s.dev = recStart r s.dev := by
    rw [recArm, if_pos ⟨hs, hen⟩, hr]
  refine answers_drCtl (w := 1) rfl h hl hp (by decide) (by rw [drCtlOk, hs]; rfl) (e := recStart r s.dev) harm ⟨?_, ?_, ?_⟩
  · rw [tripOutRelease_get _ _ (by decide), recStart_state]
  · rw [tripOutRelease_get _ _ (by decide), recStart_cur hlt]
  · rw [tripOutRelease_get _ _ (by unfold DR_RCOUNT_COUNT DR_RCOUNT FC_TRIPSTAT; dsimp only; omega), recStart_count]

theorem drForce_triggers (h : s.awake) {o : Origin} (hl : s.dev.mode ≠ modeLOAD) (hp : s.dev.permits o .recd = true)
    (hs : s.dev.get DR_STAT_STATE = drARMED) (ht : s.dev.dr.armAt ≤ s.dev.nowNs) : Answers (.drForce o) s fun t =>
      t.dev.get DR_STAT_STATE = drPOST ∧ t.dev.flag (DR_RSTAT_FORCE (s.dev.get DR_STAT_CUR)) = true := by
  have hcur : s.dev.get DR_STAT_CUR < 16 := get_lt s.dev DR_STAT_CUR
  have hok : drCtlOk (2 : Word).toNat s.dev = true := by
    rw [drCtlOk, hs]
    generalize s.dev.get DR_STAT_CUR = k at hcur
    interval_cases k <;> rfl
  obtain ⟨hpost, hforce⟩ := recTrigger_forced hs ht
  refine answers_drCtl (w := 2) rfl h hl hp (by decide) hok (e := recTrigger 0 0 true false false s.dev.nowNs s.dev) rfl ⟨?_, ?_⟩
  · rw [tripOutRelease_get _ _ (by decide), hpost]
  · rw [tripOutRelease_flag _ _ (by unfold DR_RSTAT_FORCE DR_RSTAT FC_TRIPSTAT; dsimp only; omega), hforce]

theorem drDisarm_frees (h : s.awake) {o : Origin} (hl : s.dev.mode ≠ modeLOAD) (hp : s.dev.permits o .recd = true)
    (hs : s.dev.get DR_STAT_STATE = drARMED) : Answers (.drDisarm o) s fun t =>
      t.dev.get DR_STAT_STATE = drIDLE ∧ t.dev.bit DR_STAT_FULL (s.dev.get DR_STAT_CUR) = false := by
  have hcur : s.dev.get DR_STAT_CUR < 16 := get_lt s.dev DR_STAT_CUR
  have hok : drCtlOk (4 : Word).toNat s.dev = true := by
    rw [drCtlOk, hs]
    generalize s.dev.get DR_STAT_CUR = k at hcur
    interval_cases k <;> rfl
  have hdis : recDisarm s.dev = (recRelease (s.dev.get DR_STAT_CUR) s.dev).put DR_STAT_STATE drIDLE := by
    have howed : recCutOwed s.dev = s.dev := if_neg fun k => absurd (hs.symm.trans k.1) (by decide)
    rw [recDisarm, howed, if_neg (by rw [hs]; decide), if_pos hs]
  refine answers_drCtl (w := 4) rfl h hl hp (by decide) hok hdis ⟨?_, ?_⟩
  · rw [tripOutRelease_get _ _ (by decide)]
    exact ufld_put _ DR_STAT_STATE drIDLE rfl rfl
  · rw [bit_congr (tripOutRelease_get _ DR_STAT_FULL (by decide)), bit_congr (ufld_put_disj _ DR_STAT_STATE DR_STAT_FULL _ rfl rfl),
      recRelease_full _ _ hcur, if_pos rfl]

theorem drRel_frees (h : s.awake) {o : Origin} (hl : s.dev.mode ≠ modeLOAD) (hp : s.dev.permits o .recd = true)
    (hn : s.dev.get DR_CFG_NRECL ≤ 4) {mask : BitVec 16} {r : Nat} (hs : s.dev.get DR_STAT_STATE = drIDLE) (hr : r < nRec s.dev)
    (hm : mask ≠ 0) (hb : bitOf mask.toNat r = true) : Answers (.drRel o mask) s fun t => t.dev.bit DR_STAT_FULL r = false := by
  have hlt : r < 16 := Nat.lt_of_lt_of_le hr (Nat.pow_le_pow_right (by decide) hn)
  have hnat : (BitVec.ofNat 32 (mask.toNat * 2 ^ 16) : Word).toNat = mask.toNat * 2 ^ 16 := by
    rw [BitVec.toNat_ofNat, Nat.mod_eq_of_lt]
    have := mask.isLt
    omega
  have hlow (i : Nat) (hi : i < 16) : bitOf (mask.toNat * 2 ^ 16) i = false := by
    rw [bitOf_eq_testBit, Nat.testBit_mul_two_pow]
    simp [Nat.not_le.mpr hi]
  have hdiv : mask.toNat * 2 ^ 16 / 2 ^ 16 = mask.toNat := Nat.mul_div_cancel _ (by decide)
  have hne : mask.toNat ≠ 0 := fun k => hm (BitVec.eq_of_toNat_eq k)
  have hok : drCtlOk (mask.toNat * 2 ^ 16) s.dev = true := by
    rw [drCtlOk, hs, hlow 0 (by decide), hlow 1 (by decide)]
    rfl
  refine answers_drCtl (w := BitVec.ofNat 32 (mask.toNat * 2 ^ 16)) (e := recRel mask.toNat s.dev) rfl h hl hp ?_ ?_ ?_ ?_
  · rw [hnat, Nat.mul_mod_left]
    decide
  · rw [hnat]
    exact hok
  · rw [hnat, hdiv, if_pos hne, hlow 0 (by decide), hlow 1 (by decide), hlow 2 (by decide)]
    rfl
  · show (tripOutRelease _).bit DR_STAT_FULL r = false
    rw [bit_congr (tripOutRelease_get _ DR_STAT_FULL (by decide)), recRel_full mask.toNat hlt hr hs hb]

/-! ## Complete records (R333) -/

theorem recordComplete_ends (h : s.awake) (hf : recFull s.dev = true) : Answers .recordComplete s fun t =>
    (t.dev.get DR_STAT_STATE = drARMED ∨ t.dev.get DR_STAT_STATE = drHELD) ∧
      (s.dev.flag DR_CFG_RING = false → t.dev.flag (DR_RSTAT_FULL (s.dev.get DR_STAT_CUR)) = true) := by
  refine answers_running rfl h (quiet_of_frame (frame_recordCompleteD recCalm (frame_refl _))) ?_
  rw [recordCompleteD, if_pos hf]
  refine ⟨?_, fun hr => ?_⟩
  · rw [tripOutRelease_get _ _ (by decide)]
    exact recComplete_state s.dev
  · rw [tripOutRelease_flag _ _ (by unfold DR_RSTAT_FULL DR_RSTAT FC_TRIPSTAT; dsimp only; omega), recComplete_full hr]

theorem postmax_ends (h : s.awake) (hs : s.dev.get DR_STAT_STATE = drPOST) (hp : s.dev.get DR_CFG_POSTMAX ≠ 0) :
    Answers .recordPostmaxExpiry s fun t => t.dev.get DR_STAT_STATE ≠ drPOST := by
  refine answers_running rfl h (quiet_of_frame (frame_postmaxExpired recCalm (frame_refl _))) ?_
  rw [postmaxExpired, if_pos ⟨hs, hp⟩, tripOutRelease_get _ _ (by decide)]
  rcases recComplete_state s.dev with k | k <;> rw [k] <;> decide

/-! ## Lines (R337) -/

/-- A command of the recorder lets time pass first. -/
theorem frame_recAt (tk : Nat) (d : Dev) : Frame calmRegs calmParts d (d.at_ tk) := frame_wide_at calmBroad trivial tk (frame_refl d)

theorem source_asserted (k : BitVec 4) (n key p : Nat) (l r : Bool) (d : Dev) :
    (d.source k n key p l r).dr.xAsserted = d.dr.xAsserted :=
  (Prod.ext_iff.mp (source_rec recOuter_offInq k n key p l r)).2

theorem xtrigAssert_shows (h : s.awake) (x : Fin 2) (tk : Nat) (hl : s.dev.live = true) (hen : xinEn x.val s.dev = true)
    (hd : bitOf s.dev.dr.drive x.val = false) (ht : smGet (fun _ => 0) s.dev.dr.lockUntil x.val ≤ 2 * (s.dev.tm.bj + tk)) :
    Answers (.xtrigAssert x tk) s fun t => bitOf t.dev.dr.xAsserted x.val = true := by
  have hno : ¬ (¬ (s.dev.live = true ∧ xinEn x.val s.dev = true) ∨ bitOf s.dev.dr.drive x.val = true ∨
      2 * (s.dev.tm.bj + tk) < smGet (fun _ => 0) s.dev.dr.lockUntil x.val) := by
    rw [hd]
    simp [hl, hen, ht]
  have hval : (xtrigIn x.val tk s.dev).dr.xAsserted = setBit s.dev.dr.xAsserted x.val := by
    rw [xtrigIn, if_neg hno]
    exact (Prod.ext_iff.mp (lineEvent_outer _ _ _)).2.trans (source_asserted _ _ _ _ _ _ _)
  have hframe : Frame calmRegs calmParts s.dev (xtrigIn x.val tk s.dev) := by
    rw [xtrigIn, if_neg hno]
    exact frame_lineEvent recCalm _ _ (frame_source _ _ _ _ _ _ recCalm.dr (frame_setDr _ recCalm.dr (frame_recAt tk s.dev)))
  refine answers_running rfl h (quiet_of_frame hframe) ?_
  rw [tripOutRelease_dr, hval, bitOf_eq_testBit, testBit_setBit]
  simp

theorem xtrigDeassert_shows (h : s.awake) (x : Fin 2) (tk : Nat) (hl : s.dev.live = true) (hen : xinEn x.val s.dev = true)
    (hx : bitOf s.dev.dr.xAsserted x.val = true) (hrec : s.dev.flag DR_CFG_EN = true) :
    Answers (.xtrigDeassert x tk) s fun t => bitOf t.dev.dr.xAsserted x.val = false ∧
      t.dev.dr.inq.length = s.dev.dr.inq.length + 1 := by
  have heq : xtrigOut x.val tk s.dev = Dev.source { s.dev.at_ tk with dr := { s.dev.dr with
      xAsserted := clrBit s.dev.dr.xAsserted x.val } } kLINE x.val (2 * ((s.dev.at_ tk).tm.bj + tk)) 0 := by
    rw [xtrigOut, if_neg (by simp [hl, hen, hx])]
    rfl
  have hframe : Frame calmRegs calmParts s.dev (xtrigOut x.val tk s.dev) := by
    rw [heq]
    exact frame_source _ _ _ _ _ _ recCalm.dr (frame_setDr _ recCalm.dr (frame_recAt tk s.dev))
  have hgo (y : RecSt) :
      ({ s.dev.at_ tk with dr := y } : Dev).flag DR_CFG_EN = true ∧ ({ s.dev.at_ tk with dr := y } : Dev).live = true :=
    ⟨(at_flag s.dev tk DR_CFG_EN (by unfold timeRegs; decide)).trans hrec, (at_live s.dev tk).trans hl⟩
  refine answers_running rfl h (quiet_of_frame hframe) ?_
  rw [tripOutRelease_dr, heq]
  refine ⟨?_, ?_⟩
  · rw [source_asserted, bitOf_eq_testBit, testBit_clrBit]
    simp
  · obtain ⟨ha, hb⟩ := hgo { s.dev.dr with xAsserted := clrBit s.dev.dr.xAsserted x.val }
    rw [Dev.source, ha, hb]
    exact List.length_append

theorem xtrigPulse_ends (h : s.awake) (x : Fin 2) (hd : bitOf s.dev.dr.drive x.val = true) :
    Answers (.xtrigPulseEnd x) s fun t => bitOf t.dev.dr.drive x.val = false ∧
      smGet (fun _ => 0) t.dev.dr.lockUntil x.val = s.dev.nowNs + 1000 := by
  refine answers_running rfl h (quiet_of_frame (frame_xtrigEnd recCalm _ (frame_refl _))) ?_
  rw [xtrigEnd, if_pos hd, tripOutRelease_dr]
  refine ⟨?_, ?_⟩
  · show bitOf (clrBit s.dev.dr.drive x.val) x.val = false
    rw [bitOf_eq_testBit, testBit_clrBit]
    simp
  · exact (smGet_smSet (fun _ => 0) s.dev.dr.lockUntil x.val (s.dev.nowNs + 1000) x.val).trans (if_pos rfl)

/-- Settles O46, each clause by the reading of its command. -/
theorem recorderEvents : Obligations.RecorderEvents := fun _ h =>
  ⟨fun _ _ hq => ⟨entryIn_staged h hq, entryIn_dropped h hq⟩, fun _ hx hl hk => entryWrite_answers h hx hl hk, gapEntry_staged h,
    fun _ hl hp hn => ⟨fun _ hs hen hr => drArm_arms h hl hp hn hs hen hr,
      fun hs => ⟨drForce_triggers h hl hp hs, drDisarm_frees h hl hp hs⟩,
      fun _ _ hs hr hm hb => drRel_frees h hl hp hn hs hr hm hb⟩,
    fun hf _ => recordComplete_ends h hf, postmax_ends h,
    fun x tk hl hen => ⟨xtrigAssert_shows h x tk hl hen, xtrigDeassert_shows h x tk hl hen⟩, xtrigPulse_ends h⟩

end Sys2Proof.Machine
end

section
/-! PROOFS. Reset release, the power cycle, the supplies and VBAT (O7). -/

namespace Sys2Proof.Machine

variable {d e : Dev} {s : State}

/-! ## Reset release -/

/-- Both clasps engage. -/
theorem vauxLost_clasps (d : Dev) : (vauxLost d).bit SF_STAT_CLASP 0 = true ∧ (vauxLost d).bit SF_STAT_CLASP 1 = true :=
  ⟨(sfs_engage (R := fun _ => False) 1 (sfs_refl _)).clasp 0 (by decide) id (engage_clasps 0 (by decide) d),
    engage_clasps 1 (by decide) _⟩

/-- The registers in which the release shows keys and time of day. -/
def releaseRegs (a : Nat) : Prop := (0x214 ≤ a ∧ a < 0x240) ∨ 0x4000 ≤ a

theorem releaseEvents : Events releaseRegs (· ≠ .released) := ⟨.inr (by decide), .inr (by decide), nofun, nofun⟩

theorem frame_showHash_release (h : Nat) {d e : Dev} (k : Frame releaseRegs (· ≠ .released) d e) :
    Frame releaseRegs (· ≠ .released) d (showHash h e) :=
  frame_foldN 8 _ (fun _ w hw hd => frame_put (GL_KEYHASH_HASH w) _
    (.inl (by unfold GL_KEYHASH_HASH GL_KEYHASH; dsimp only; omega)) hd) k

/-- The keys as the fuses stand, and the fused repair. -/
def keysShown (k : Fuse) (d : Dev) : Dev :=
  let d := k.repair.foldl fusedRepair { d with su := { d.su with keys := k } }
  let d := ((d.putB GL_KEYSTAT_PROG0 k.prog0).putB GL_KEYSTAT_PROG1 k.prog1).putB GL_KEYSTAT_REV0 k.rev0
  showHash k.hash0.toNat d

/-- The die identity. -/
def dieShown (d : Dev) : Dev :=
  (d.setWord GL_UIDLO (Config.dieId.extractLsb' 0 32)).setWord GL_UIDHI (Config.dieId.extractLsb' 32 32)

/-- The time of day that VBAT has kept. -/
def todKept (v : Vbat) (d : Dev) : Dev :=
  if v.valid then
    ({ d with tm := { d.tm with label := v.tod + Config.vbatElapsed d.cyc } }.put TM_STAT_TODV 1).raise TM_EVT_TODINIT .notice
  else d

theorem resetReleaseF_dev (h : s.dev.released = false) : (resetReleaseF s).dev =
    todKept s.vbat (dieShown (keysShown { s.fuse with busy := 0 }
      ((vauxLost { s.dev with released := true }).put GL_MODE_MODE modeLOAD))) := by
  rw [resetReleaseF]
  exact congrArg State.dev (if_neg (by rw [h]; exact Bool.false_ne_true))

theorem frame_keysShown (k : Fuse) (h : Frame releaseRegs (· ≠ .released) d e) :
    Frame releaseRegs (· ≠ .released) d (keysShown k e) := by
  have hkeys : ∀ x : Fld, x.addr = GL_KEYSTAT → releaseRegs x.addr := fun x hx => hx ▸ .inl (by decide)
  have hrep : Frame releaseRegs (· ≠ .released) d (k.repair.foldl fusedRepair { e with su := { e.su with keys := k } }) :=
    frame_foldl _ _ (fun _ _ _ hd => frame_setFb _ nofun hd) (frame_setSu _ nofun h)
  exact frame_showHash_release _ (frame_putB _ _ (hkeys GL_KEYSTAT_REV0 rfl) (frame_putB _ _ (hkeys GL_KEYSTAT_PROG1 rfl)
    (frame_putB _ _ (hkeys GL_KEYSTAT_PROG0 rfl) hrep)))

theorem frame_todKept (v : Vbat) (h : Frame releaseRegs (· ≠ .released) d e) : Frame releaseRegs (· ≠ .released) d (todKept v e) :=
  frame_ite (frame_notice TM_EVT_TODINIT releaseEvents (.inr (by decide)) (frame_put TM_STAT_TODV 1 (.inr (by decide))
    (frame_setTm _ nofun h))) h

theorem dieShown_frame (d : Dev) : Frame (fun a => a = GL_UIDLO ∨ a = GL_UIDHI) (fun _ => False) d (dieShown d) :=
  frame_setWord _ _ (.inr rfl) (frame_setWord _ _ (.inl rfl) (frame_refl d))

theorem dieShown_words (d : Dev) : (dieShown d).word GL_UIDLO = Config.dieId.extractLsb' 0 32 ∧
    (dieShown d).word GL_UIDHI = Config.dieId.extractLsb' 32 32 := by
  refine ⟨?_, word_setWord_same _ _ _⟩
  rw [dieShown, word_setWord_ne _ _ _ _ (by decide), word_setWord_same]

theorem release_shows (h : s.dev.released = false) : Answers .resetRelease s fun t => t.dev.released = true ∧ t.dev.mode = modeLOAD ∧
    t.dev.bit SF_STAT_CLASP 0 = true ∧ t.dev.bit SF_STAT_CLASP 1 = true ∧
    t.dev.word GL_UIDLO = Config.dieId.extractLsb' 0 32 ∧ t.dev.word GL_UIDHI = Config.dieId.extractLsb' 32 32 := by
  refine ⟨resetReleaseF s, rfl, ?_⟩
  dsimp only
  rw [resetReleaseF_dev h]
  have hclasps := vauxLost_clasps { s.dev with released := true }
  have hreleased : (vauxLost { s.dev with released := true }).released = true :=
    (quiet_vauxLost (quiet_refl { s.dev with released := true })).2.2
  generalize vauxLost { s.dev with released := true } = v at hclasps hreleased
  have hkeys : Frame releaseRegs (· ≠ .released) (v.put GL_MODE_MODE modeLOAD)
      (keysShown { s.fuse with busy := 0 } (v.put GL_MODE_MODE modeLOAD)) := frame_keysShown _ (frame_refl _)
  generalize keysShown { s.fuse with busy := 0 } (v.put GL_MODE_MODE modeLOAD) = k at hkeys
  have hdie := dieShown_frame k
  obtain ⟨hlo, hhi⟩ := dieShown_words k
  generalize dieShown k = x at hdie hlo hhi
  have htod : Frame releaseRegs (· ≠ .released) x (todKept s.vbat x) := frame_todKept s.vbat (frame_refl x)
  have hclasp (i : Nat) : (todKept s.vbat x).bit SF_STAT_CLASP i = v.bit SF_STAT_CLASP i := by
    rw [htod.bit SF_STAT_CLASP i (by unfold releaseRegs; decide), hdie.bit SF_STAT_CLASP i (by decide),
      hkeys.bit SF_STAT_CLASP i (by unfold releaseRegs; decide)]
    exact bit_congr (get_put_ne v GL_MODE_MODE SF_STAT_CLASP _ (by decide))
  refine ⟨?_, ?_, (hclasp 0).trans hclasps.1, (hclasp 1).trans hclasps.2, ?_, ?_⟩
  · exact (htod.parts .released fun k => k rfl).trans
      ((hdie.parts .released id).trans ((hkeys.parts .released fun k => k rfl).trans hreleased))
  · refine (htod.get GL_MODE_MODE (by unfold releaseRegs; decide)).trans ((hdie.get GL_MODE_MODE (by decide)).trans
      ((hkeys.get GL_MODE_MODE (by unfold releaseRegs; decide)).trans (ufld_put v GL_MODE_MODE modeLOAD rfl rfl)))
  · rw [htod.words GL_UIDLO (by unfold releaseRegs; decide), hlo]
  · rw [htod.words GL_UIDHI (by unfold releaseRegs; decide), hhi]

/-! ## Supplies -/

/-- A supply fault is STOP, whatever was done before it. -/
theorem supplyFault_stops {b a : Dev} (ha : a.flag FC_CHIP_SUPPLY = false) :
    (settle b (supplyFault a)).mode = modeSTOP ∧ (settle b (supplyFault a)).flag FC_CHIP_SUPPLY = true := by
  obtain ⟨hmode, hkeep⟩ := settle_stopSource (b := b) (raise_stop_stopReq a FC_CHIP_SUPPLY (bit_of_flag_false ha))
  exact ⟨hmode, (flag_congr (hkeep FC_CHIP_SUPPLY (fun k => k.1 (by decide)) (by decide))).trans
    (flag_raise_same a FC_CHIP_SUPPLY .stop rfl (by decide) (by decide) (by decide))⟩

/-- The clasps leave the fault flags. -/
theorem vauxLost_supply (d : Dev) : (vauxLost d).flag FC_CHIP_SUPPLY = d.flag FC_CHIP_SUPPLY :=
  flag_congr (get_congr _ _ _ ((sfs_engage (R := fun _ => False) 1 (sfs_engage 0 (sfs_refl d))).words FC_CHIP (by unfold sfMoves; decide)))

theorem supply_stops (h : s.awake) (hf : s.dev.flag FC_CHIP_SUPPLY = false) (r : Rail) : Answers (.supplyOutOfWindow r) s fun t =>
    t.dev.mode = modeSTOP ∧ t.dev.flag FC_CHIP_SUPPLY = true := by
  refine answers_within_stop rfl h ?_
  split
  · exact supplyFault_stops ((vauxLost_supply s.dev).trans hf)
  · exact supplyFault_stops hf

theorem vaux_engages (h : s.awake) : Answers .vauxOutOfRange s fun t => t.dev.bit SF_STAT_CLASP 0 = true ∧
    t.dev.bit SF_STAT_CLASP 1 = true ∧ t.dev.mode = s.dev.mode := by
  have hq := quiet_vauxLost (quiet_refl s.dev)
  obtain ⟨h0, h1⟩ := vauxLost_clasps s.dev
  refine answers_within_still rfl h.1 h.2.2 hq fun e he => ⟨?_, ?_, ?_⟩
  · exact (still_bit he SF_STAT_CLASP 0 (by decide)).trans h0
  · exact (still_bit he SF_STAT_CLASP 1 (by decide)).trans h1
  · exact (still_get he GL_MODE_MODE (by decide)).trans hq.1

/-- Reset is released once for each application of power. -/
theorem release_once (h : s.dev.released = true) : exec .resetRelease s = .next s := by
  show Host.Outcome.next (resetReleaseF s) = _
  rw [resetReleaseF]
  exact congrArg _ (if_pos h)

/-- Settles O7: release, power cycle and supplies by what they show. -/
theorem powerAndReset : Obligations.PowerAndReset := fun _ =>
  ⟨release_shows, release_once, ⟨_, rfl, rfl, rfl, rfl, rfl, rfl, rfl, rfl, rfl, rfl, rfl, rfl, rfl⟩, ⟨_, rfl, rfl, rfl⟩,
    fun h => ⟨vaux_engages h, fun hf => ⟨supply_stops h hf, answers_within_stop rfl h (supplyFault_stops hf)⟩⟩⟩

end Sys2Proof.Machine
end

section
/-! PROOFS. What the headers of a message are read from, what of it the operations of the network keep, and how a request that SUP1 takes
at once is carried out. -/

namespace Sys2Proof.Machine

variable {W : Nat → Prop} {S : Part → Prop} {d e f : Dev} {s t : State}

/-! ## What the headers of a message are read from -/

/-- The registers that name the ports and their peers. -/
def netCfg (a : Nat) : Prop := (0x6000 ≤ a ∧ a < 0x6014) ∨ (0x6040 ≤ a ∧ a < 0x6100)

/-- Ports, peers and the address cache are as before. -/
structure NetSame (d e : Dev) : Prop where
  cfg : ∀ a, netCfg a → e.word a = d.word a
  arp : e.nt.arp = d.nt.arp

theorem netSame_refl (d : Dev) : NetSame d d := ⟨fun _ _ => rfl, rfl⟩

theorem netSame_trans (h : NetSame d e) (k : NetSame e f) : NetSame d f :=
  ⟨fun a ha => (k.cfg a ha).trans (h.cfg a ha), k.arp.trans h.arp⟩

theorem netSame_of_frame (hW : ∀ a, netCfg a → ¬ W a) (hS : ¬ S .nt) (h : Frame W S d e) : NetSame d e :=
  ⟨fun a ha => h.words a (hW a ha), congrArg NetSt.arp (h.parts .nt hS)⟩

theorem NetSame.get (h : NetSame d e) (x : Fld) (hx : netCfg x.addr) : e.get x = d.get x := get_congr _ _ _ (h.cfg _ hx)
theorem NetSame.flag (h : NetSame d e) (x : Fld) (hx : netCfg x.addr) : e.flag x = d.flag x := flag_congr (h.get x hx)
theorem NetSame.bit (h : NetSame d e) (x : Fld) (i : Nat) (hx : netCfg x.addr) : e.bit x i = d.bit x i := bit_congr (h.get x hx)

section port
variable {x : Nat} (hx : x < 2) (h : NetSame d e)
include hx

theorem pcfg_cfg : netCfg (NT_PCFG x) := by unfold netCfg NT_PCFG; omega
theorem ip4_cfg : netCfg (NT_IP4 x) := by unfold netCfg NT_IP4; omega
theorem pfx_cfg : netCfg (NT_PFX x) := by unfold netCfg NT_PFX; omega
theorem ip6_cfg {w : Nat} (hw : w < 4) : netCfg (NT_IP6 x w) := by unfold netCfg NT_IP6; omega
theorem machi_cfg : netCfg (NT_MACHI x) := by unfold netCfg NT_MACHI; omega
theorem maclo_cfg : netCfg (NT_MACLO x) := by unfold netCfg NT_MACLO; omega

include h

theorem netSame_portIp6 : portIp6 x e = portIp6 x d := by
  have hw (w : Nat) (hw : w < 4) : e.get (NT_IP6_ADDR x w) = d.get (NT_IP6_ADDR x w) := h.get _ (ip6_cfg hx hw)
  show ((((0 * _ + e.get _) * _ + e.get _) * _ + e.get _) * _ + e.get _) = ((((0 * _ + d.get _) * _ + d.get _) * _ + d.get _) * _ + d.get _)
  rw [hw 0 (by decide), hw 1 (by decide), hw 2 (by decide), hw 3 (by decide)]

theorem netSame_ownAddr : ownAddr x e = ownAddr x d := by
  rw [ownAddr, ownAddr, h.flag (NT_PCFG_IPV6 x) (pcfg_cfg hx), h.get (NT_IP4_ADDR x) (ip4_cfg hx), netSame_portIp6 hx h]

theorem netSame_frameHdr (m : Option (BitVec 48)) : frameHdr x m e = frameHdr x m d := by
  rw [frameHdr, frameHdr, ownMac, ownMac, h.get (NT_MACHI_MACH x) (machi_cfg hx), h.get (NT_MACLO_MACL x) (maclo_cfg hx),
    h.flag (NT_PCFG_VEN x) (pcfg_cfg hx), h.get (NT_PCFG_VID x) (pcfg_cfg hx), h.get (NT_PCFG_PCP x) (pcfg_cfg hx)]

theorem netSame_packetHdr (m : Option (BitVec 48)) : packetHdr x m e = packetHdr x m d := by
  rw [packetHdr, packetHdr, netSame_frameHdr hx h, netSame_ownAddr hx h, h.get (NT_PCFG_DSCP x) (pcfg_cfg hx),
    h.flag (NT_PCFG_IPV6 x) (pcfg_cfg hx)]

omit hx in
theorem netSame_arpFind (a : BitVec 128) : arpFind x a e = arpFind x a d := by rw [arpFind, arpFind, h.arp]

/-- The headers of a datagram. -/
theorem netSame_udpHdr (a : BitVec 128) (udp : Nat) (bs : List Byte) : udpHdr x a udp bs e = udpHdr x a udp bs d := by
  have hport : e.get NT_IPCFG_UDPPORT = d.get NT_IPCFG_UDPPORT := h.get _ (.inl (by decide))
  rw [udpHdr, udpHdr, hport, netSame_packetHdr hx h, netSame_ownAddr hx h, netSame_arpFind h]

theorem netSame_onSubnet (a : Nat) : onSubnet x a e = onSubnet x a d := by
  rw [onSubnet, onSubnet, h.flag (NT_PCFG_IPV6 x) (pcfg_cfg hx), h.get (NT_PFX_PFX x) (pfx_cfg hx), netSame_ownAddr hx h]

end port

/-! ## What the operations keep -/

theorem netSame_put (x : Fld) (v : Nat) (hx : ¬ netCfg x.addr) (h : NetSame d e) : NetSame d (e.put x v) :=
  netSame_trans h (netSame_of_frame (W := (¬ netCfg ·)) (S := fun _ => False) (fun _ ha k => k ha) id (frame_put x v hx (frame_refl e)))

theorem netSame_onNt (g : NetSt → NetSt) (hg : (g e.nt).arp = e.nt.arp) (h : NetSame d e) : NetSame d (e.onNt g) :=
  netSame_trans h ⟨fun _ _ => rfl, hg⟩

theorem netSame_send (m : Sent) (h : NetSame d e) : NetSame d (e.send m) := netSame_trans h ⟨fun _ _ => rfl, rfl⟩

theorem netSame_events : Events (¬ netCfg ·) (· ≠ .nt) := ⟨by unfold netCfg; decide, by unfold netCfg; decide, nofun, nofun⟩

theorem netSame_raiseBit (x : Fld) (i : Nat) (c : Cls) (hc : c ≠ .stop) (hx : ¬ netCfg x.addr) (h : NetSame d e) :
    NetSame d (e.raiseBit x i c) :=
  netSame_trans h (netSame_of_frame (fun _ ha k => k ha) (fun k => k rfl) (frame_raiseBit x i c netSame_events hx hc (frame_refl e)))

theorem netSame_raise (x : Fld) (c : Cls) (hc : c ≠ .stop) (hx : ¬ netCfg x.addr) (h : NetSame d e) : NetSame d (e.raise x c) :=
  netSame_raiseBit x 0 c hc hx h

theorem netSame_settled (h : NetSame d e) : NetSame d (tripOutRelease e) :=
  netSame_trans h (netSame_of_frame (fun a ha k => by unfold netCfg FC_TRIPSTAT at *; omega) id (frame_settled e))

theorem netSame_foldl {α : Type} (l : List α) (g : Dev → α → Dev) (hg : ∀ e x, x ∈ l → NetSame d e → NetSame d (g e x))
    (h : NetSame d e) : NetSame d (l.foldl g e) :=
  List.foldlRecOn (motive := NetSame d) l g h fun e he x hx => hg e x hx he

theorem netSame_ite {p : Prop} [Decidable p] (he : NetSame d e) (hf : NetSame d f) : NetSame d (if p then e else f) := by
  split <;> assumption

theorem netSame_sendUdp (x : Nat) (a : BitVec 128) (udp : Nat) (bs : List Byte) (h : NetSame d e) : NetSame d (sendUdp x a udp bs e) :=
  netSame_send _ (netSame_ite h (netSame_ite (netSame_send _ h) (netSame_send _ h)))

theorem netSame_keep (r : Req) (typ : Nat) (h : NetSame d e) : NetSame d (keep r typ e) := netSame_onNt _ rfl h

theorem netSame_onKept (r : Req) (typ : Nat) (g : Kept → Kept) (h : NetSame d e) : NetSame d (onKept r typ g e) := netSame_onNt _ rfl h

theorem netSame_answer (r : Req) (typ status : Nat) (body : List Byte) (h : NetSame d e) : NetSame d (answer r typ status body e) :=
  netSame_foldl _ _ (fun _ _ _ hd => netSame_sendUdp _ _ _ _ hd) (netSame_onKept r typ _ h)

/-! ## Flags of the network -/

/-- A flag of NT_EVT that is not EVOVF. -/
def netFlag (x : Fld) : Prop := x.addr = NT_EVT ∧ x.width = 1 ∧ x.lsb < 32 ∧ x.lsb ≠ 3

theorem loseEvent_evt (d : Dev) (t : Nat) (b : Bool) {x : Fld} (hx : netFlag x) : (d.loseEvent t b).get x = d.get x :=
  get_put_ne d NT_CNT1_EVLOST x _ (by rw [hx.1]; decide)

theorem pushEvent_evt (d : Dev) (a b k t : Nat) {x : Fld} (hx : netFlag x) : (d.pushEvent a b k t).get x = d.get x := by
  have ⟨haddr, hw, hl, hne⟩ := hx
  unfold Dev.pushEvent
  split
  · rfl
  split
  · rfl
  split
  · rw [Dev.setEvovf, get_congr _ _ x (flagEntry_word _ _ _ _), get_put_disj _ NT_EVT_EVOVF x _ (by omega), loseEvent_evt d t true hx]
    show x.lsb + x.width ≤ 3 ∨ 3 + 1 ≤ x.lsb
    omega
  · exact loseEvent_evt d t false hx

/-- A flag of the network reads 1 after it has set, and the others are as before. -/
theorem get_raise_evt (d : Dev) (c : Cls) {x y : Fld} (hx : netFlag x) (hy : netFlag y) :
    (d.raise x c).get y = if x.lsb = y.lsb then 1 else d.get y := by
  have ⟨hxa, hxw, hxl, _⟩ := hx
  have ⟨hya, hyw, hyl, _⟩ := hy
  have hlt : d.get y < 2 ^ y.width := get_lt d y
  rw [hyw] at hlt
  have hsame (h : x.lsb = y.lsb) : x = y := by
    cases x; cases y
    simp_all
  rw [Dev.raise, Dev.raiseBit]
  split
  · next hb =>
    split
    · next h =>
      rw [hsame h, Dev.bit] at hb
      have : d.get y ≠ 0 := fun k => by rw [k] at hb; exact absurd hb (by decide)
      omega
    · rfl
  · next hb =>
    rw [get_congr _ _ y (react_word _ _ _), get_congr _ _ y (flagEntry_word _ _ _ _), pushEvent_evt _ _ _ _ _ hy]
    split
    · next h =>
      obtain rfl := hsame h
      have h0 : d.get x = 0 := by
        by_contra hne
        exact hb (show bitOf (d.get x) 0 = true by rw [show d.get x = 1 by omega]; rfl)
      rw [Dev.putBit, h0]
      exact get_put_lt d x _ (by omega) (by rw [hxw]; decide)
    · next h =>
      exact get_put_disj d x y _ (by omega) (by omega)

theorem flag_raise_evt (d : Dev) (c : Cls) {x : Fld} (hx : netFlag x) : (d.raise x c).flag x = true :=
  flag_of_get_one ((get_raise_evt d c hx hx).trans (if_pos rfl))

/-! ## What leaves last -/

/-- A datagram leaves with the headers of its port. -/
theorem sendUdp_head {x : Nat} (hx : x < 2) (a : BitVec 128) (udp : Nat) (bs : List Byte) (d : Dev) :
    (sendUdp x a udp bs d).sent.head? = some (.smp x (udpHdr x a udp bs d) a udp bs) := by
  unfold sendUdp
  extract_lets asked
  have hasked : NetSame d asked :=
    netSame_ite (netSame_refl d) (netSame_ite (netSame_send _ (netSame_refl d)) (netSame_send _ (netSame_refl d)))
  rw [netSame_udpHdr hx hasked]
  rfl

/-- An answer that goes to its request alone leaves last. -/
theorem answer_head {r : Req} {typ : Nat} (status : Nat) (body : List Byte) (h : answerTo r typ d = [r]) :
    (answer r typ status body d).sent.head? = some (.smp r.port.val
      (udpHdr r.port.val r.addr r.udp.toNat (smpMsg typ status 1 r.rid.toNat 0 body) d) r.addr r.udp.toNat
      (smpMsg typ status 1 r.rid.toNat 0 body)) := by
  rw [answer, h]
  show (sendUdp _ _ _ _ (onKept r typ _ d)).sent.head? = _
  rw [sendUdp_head r.port.isLt, netSame_udpHdr r.port.isLt (netSame_onKept r typ _ (netSame_refl d))]

/-- What an answer that left last says of a state whose ports are as they were. -/
theorem answered_of_answer {r : Req} {typ status : Nat} {body : List Byte} (h : answerTo r typ d = [r])
    (hs : t.dev.sent = (answer r typ status body d).sent) (hn : NetSame d t.dev) : t.answered r typ status body := by
  show t.dev.sent.head? = some _
  rw [hs, answer_head status body h, netSame_udpHdr r.port.isLt hn]

/-! ## What sending and answering leave -/

theorem sendUdp_frame (x : Nat) (a : BitVec 128) (udp : Nat) (bs : List Byte) (h : Frame W S d e) (hS : S .sent) :
    Frame W S d (sendUdp x a udp bs e) :=
  frame_send _ hS (frame_ite h (frame_ite (frame_send _ hS h) (frame_send _ hS h)))

/-- Answers leave and are kept, no more. -/
def answerParts (p : Part) : Prop := p = .sent ∨ p = .nt

theorem answer_frame (r : Req) (typ status : Nat) (body : List Byte) (d : Dev) :
    Frame (fun _ => False) answerParts d (answer r typ status body d) :=
  frame_foldl _ _ (fun _ _ _ hd => sendUdp_frame _ _ _ _ hd (.inl rfl)) (frame_setNt _ (.inr rfl) (frame_refl d))

theorem sendUdp_nt (x : Nat) (a : BitVec 128) (udp : Nat) (bs : List Byte) (d : Dev) : (sendUdp x a udp bs d).nt = d.nt :=
  (sendUdp_frame (W := fun _ => False) (S := (· = .sent)) x a udp bs (frame_refl d) rfl).parts .nt nofun

theorem sendUdps_nt (rs : List Req) (m : List Byte) : ∀ d : Dev,
    (rs.foldl (fun d r => sendUdp r.port.val r.addr r.udp.toNat m d) d).nt = d.nt := by
  induction rs with
  | nil => exact fun _ => rfl
  | cons r rs ih => exact fun d => (ih _).trans (sendUdp_nt _ _ _ _ d)

theorem answer_nt (r : Req) (typ status : Nat) (body : List Byte) (d : Dev) : (answer r typ status body d).nt =
    (onKept r typ (fun k => { k with answers := k.answers ++ [smpMsg typ status 1 r.rid.toNat 0 body] }) d).nt := sendUdps_nt _ _ _

/-! ## Requests that are kept -/

theorem keptIs_self (r : Req) (typ : Nat) (as : List (List Byte)) (ds : List Req) :
    keptIs r typ ⟨r.addr, r.rid, typ, r.mcrc, r.rx.stamp, as, ds⟩ = true := by simp [keptIs]

/-- A request that has just been kept gets its answer alone. -/
theorem answerTo_keep (r : Req) (typ : Nat) (d : Dev) : answerTo r typ (keep r typ d) = [r] := by
  have hnone (n : Nat) : ((d.nt.kept.filter fun k => !keptIs r typ k).drop n).find? (keptIs r typ) = none := by
    refine List.find?_eq_none.mpr fun k hk => ?_
    simpa using (List.mem_filter.mp (List.mem_of_mem_drop hk)).2
  have hfind : (keep r typ d).nt.kept.find? (keptIs r typ) = some ⟨r.addr, r.rid, typ, r.mcrc, r.rx.stamp, [], []⟩ := by
    show List.find? _ (List.drop _ (_ ++ [_])) = _
    rw [List.drop_append_of_le_length (by rw [List.length_append, List.length_singleton]; omega), List.find?_append, hnone,
      Option.none_or, List.find?_cons_of_pos (keptIs_self r typ [] [])]
  rw [answerTo, hfind]

theorem answerTo_congr {r : Req} {typ : Nat} (h : e.nt.kept = d.nt.kept) : answerTo r typ e = answerTo r typ d := by
  rw [answerTo, answerTo, h]

/-! ## Requests that SUP1 takes at once -/

/-- A request that SUP1 takes at once is kept and carried out. -/
theorem smpIn_takes {r : Req} {typ : Nat} {c : Instr} (h : s.takes r typ c) :
    smpIn typ r c s = smpDo true c { s with dev := keep r typ s.dev } := by
  obtain ⟨htaken, hperm, hruns, hkept⟩ := h
  have hkeep : supRuns 1 (keep r typ s.dev) = true := hruns
  rw [smpIn, smpArrive]
  dsimp only
  rw [if_neg (by rw [htaken]; exact fun k => k rfl), if_neg (by rw [hperm]; exact fun k => k rfl), hkept]
  exact if_pos hkeep

theorem answers_takes {c : Instr} {r : Req} {typ : Nat} {P : State → Prop} (hc : exec c s = .next (wholeRunning (smpIn typ r c) s))
    (h : s.awake) (ht : s.takes r typ c) {u : State} (hu : smpDo true c { s with dev := keep r typ s.dev } = u) (hq : Quiet s.dev u.dev)
    (hP : P { u with dev := tripOutRelease u.dev, pending := s.pending }) : Answers c s P := by
  have hin : smpIn typ r c s = u := (smpIn_takes ht).trans hu
  refine answers_wholeRunning hc h ?_ ?_ <;> rwa [hin]

end Sys2Proof.Machine
end

section
/-! PROOFS. Supervisors, links and address resolution (O47). -/

namespace Sys2Proof.Machine

variable {d e : Dev} {s : State}

/-- The network has its room in the footprint of a quiet command. -/
theorem netCalm : NetRoom calmRegs calmParts := calmBroad.net trivial

/-! ## Supervisors -/

section net
variable {W : Nat → Prop} {S : Part → Prop} (N : NetRoom W S)
include N

theorem frame_onXfer (g : Xfer → Xfer) (h : Frame W S d e) : Frame W S d (onXfer g e) := frame_onNt N _ h

theorem frame_idataReady (h : Frame W S d e) : Frame W S d (idataReady e) := by
  unfold idataReady
  split
  · exact h
  · exact frame_ite h (frame_foldl _ _ (fun _ _ _ hd => frame_answer N _ _ _ _ hd) (frame_onXfer N _ h))

theorem frame_xferGo (h : Frame W S d e) : Frame W S d (xferGo e) := by
  unfold xferGo
  split
  · exact h
  next x _ =>
  extract_lets noted p ready
  have hnoted : Frame W S d noted := frame_onXfer N _ h
  have hready : Frame W S d ready := frame_idataReady N (frame_put GL_IMGWR_PROG _ N.imgwr (frame_onXfer N _ hnoted))
  exact frame_ite h (frame_ite (frame_put GL_IMGWR_STATE 2 N.imgwr hnoted) (frame_ite (frame_put GL_IMGWR_STATE 3 N.imgwr hready) hready))

theorem frame_smpResume (h : Frame W S d e) : Frame W S d (smpResume e) :=
  frame_idataReady N (frame_xferGo N (frame_ite (frame_sessEnd N h) h))

end net

/-- What a supervisor takes up leaves the states of the supervisors. -/
def resumeRegs (a : Nat) : Prop := a ≠ GL_MODE ∧ a ≠ SV_STAT

theorem resumeNet : NetRoom resumeRegs calmParts where
  evt := by unfold resumeRegs; decide
  cnt := by unfold resumeRegs; decide
  fc := trivial
  dr := trivial
  regs a h := by unfold resumeRegs GL_MODE SV_STAT; omega
  imgwr := by unfold resumeRegs; decide
  nt := trivial
  sent := trivial

theorem frame_avsResume (h : Frame resumeRegs calmParts d e) : Frame resumeRegs calmParts d (avsResume e) := by
  unfold avsResume
  split
  · refine frame_ite ?_ h
    have hend := frame_setFb { e.fb with avsPend := false, avsLate := none } (show calmParts .fb from trivial)
      (frame_setFc { e.fc with avsBad := !‹Bool› } (show calmParts .fc from trivial) ⟨rfl, rfl, rfl⟩ h)
    exact frame_ite hend (frame_service FC_CHIP_AVS resumeNet.toEvents (by unfold resumeRegs; decide) hend)
  · exact h

/-- What a supervisor takes up where no request waits. -/
def svTaken (v : Nat) (d : Dev) : Dev := if v = 3 then avsResume d else if v ≠ 1 then d else smpResume d

theorem frame_svTaken (v : Nat) (h : Frame resumeRegs calmParts d e) : Frame resumeRegs calmParts d (svTaken v e) :=
  frame_ite (frame_avsResume h) (frame_ite h (frame_smpResume resumeNet h))

theorem restartDone_dev (v : Nat) (h : s.awake) (hl : s.dev.mode ≠ modeLOAD) (hr : s.dev.bit SV_STAT_RUN v = false)
    (hq : s.dev.nt.smpQ = []) : restartDone v s = { s with dev := svTaken v (s.dev.putBit SV_STAT_RUN v true) } := by
  have hno : ¬ (s.dev.mode = modeLOAD ∨ s.dev.mode = modeSTOP ∨ supRuns v s.dev = true) := by
    rintro (k | k | k)
    · exact hl k
    · exact h.2.1 k
    · exact Bool.false_ne_true (hr.symm.trans k)
  rw [restartDone]
  dsimp only
  rw [if_neg hno, hq, svTaken]
  split
  · rfl
  · split <;> rfl

theorem restart_runs (h : s.awake) (hl : s.dev.mode ≠ modeLOAD) (v : Fin 4) (hr : s.dev.bit SV_STAT_RUN v.val = false)
    (hq : s.dev.nt.smpQ = []) : Answers (.supervisorRestartDone v) s fun t => t.dev.bit SV_STAT_RUN v.val = true := by
  have heq := restartDone_dev v.val h hl hr hq
  have hput : (s.dev.putBit SV_STAT_RUN v.val true).bit SV_STAT_RUN v.val = true :=
    (bit_putBit s.dev SV_STAT_RUN v.val v.val true (by decide) v.isLt).trans (if_pos rfl)
  have hbegin : Frame calmRegs calmParts s.dev (s.dev.putBit SV_STAT_RUN v.val true) := frame_putBit _ _ _ (by decide) (frame_refl _)
  generalize s.dev.putBit SV_STAT_RUN v.val true = e at heq hput hbegin
  have htaken : Frame resumeRegs calmParts e (svTaken v.val e) := frame_svTaken _ (frame_refl e)
  have hq : Quiet s.dev (svTaken v.val e) :=
    quiet_of_frame (frame_trans hbegin (frame_mono (fun _ ha => ha.1) (fun _ k => k) htaken))
  refine answers_wholeRunning rfl h (by rw [heq]; exact hq) ?_
  dsimp only
  rw [heq, bit_congr (tripOutRelease_get _ SV_STAT_RUN (by decide)), htaken.bit SV_STAT_RUN _ (by unfold resumeRegs; decide), hput]

theorem watchdog_stops (h : s.awake) (hl : s.dev.mode ≠ modeLOAD) (v : Fin 4) (hr : s.dev.bit SV_STAT_RUN v.val = true) :
    Answers (.supervisorWatchdog v) s fun t => t.dev.bit SV_STAT_RUN v.val = false ∧ t.dev.bit SV_EVT_WDOG v.val = true ∧
      t.dev.get SV_CNT_WDCNT = satInc SV_CNT_WDCNT.width (s.dev.get SV_CNT_WDCNT) 1 := by
  have heq : watchdog v.val s.dev =
      ((s.dev.putBit SV_STAT_RUN v.val false).bump SV_CNT_WDCNT).raiseBit SV_EVT_WDOG v.val .protDev := by
    rw [watchdog, if_neg]
    rintro (k | k | k)
    · exact hl k
    · exact h.2.1 k
    · exact k hr
  have hframe : Frame calmRegs calmParts s.dev (watchdog v.val s.dev) := by
    rw [heq]
    exact frame_raiseBit SV_EVT_WDOG _ _ calmEvents (by decide) nofun (frame_bump SV_CNT_WDCNT 1 (by decide)
      (frame_putBit SV_STAT_RUN _ _ (by decide) (frame_refl _)))
  refine answers_running rfl h (quiet_of_frame hframe) ?_
  rw [heq]
  refine ⟨?_, ?_, ?_⟩
  · rw [bit_congr (tripOutRelease_get _ SV_STAT_RUN (by decide)),
      bit_congr (get_raiseBit_ne _ SV_EVT_WDOG SV_STAT_RUN _ _ (by decide) (by decide) (by decide)),
      bit_congr (show ((s.dev.putBit SV_STAT_RUN v.val false).bump SV_CNT_WDCNT).get SV_STAT_RUN = _ from
        get_put_ne _ SV_CNT_WDCNT SV_STAT_RUN _ (by decide)), bit_putBit _ SV_STAT_RUN _ _ _ (by decide) v.isLt, if_pos rfl]
  · rw [bit_congr (tripOutRelease_get _ SV_EVT_WDOG (by decide))]
    exact bit_raiseBit_same _ SV_EVT_WDOG _ _ (by decide) v.isLt (by decide) (by decide)
  · rw [tripOutRelease_get _ _ (by decide), get_raiseBit_ne _ SV_EVT_WDOG SV_CNT_WDCNT _ _ (by decide) (by decide) (by decide),
      ufld_bump _ SV_CNT_WDCNT 1 rfl]
    exact congrArg (fun n => satInc _ n 1) (get_put_ne _ SV_STAT_RUN SV_CNT_WDCNT _ (by decide))

/-! ## Links (R406) -/

theorem up_addr (x : Nat) : (if x = 0 then NT_STAT_UP0 else NT_STAT_UP1).addr = NT_STAT := by split <;> rfl

/-- The link bit of a port takes a value, and the port that serves is shown. -/
def linkPut (x v : Nat) (d : Dev) : Dev := showServe (d.put (if x = 0 then NT_STAT_UP0 else NT_STAT_UP1) v)

theorem linkPut_up {x : Nat} (hx : x < 2) {v : Nat} (hv : v < 2) (d : Dev) :
    netUp x (linkPut x v d) = (v != 0) ∧ netUp (1 - x) (linkPut x v d) = netUp (1 - x) d := by
  have hone (f : Fld) (hf : f.lsb + f.width ≤ 32) (hw : f.width = 1) : (d.put f v).flag f = (v != 0) := by
    rw [Dev.flag, get_put_lt d f v hf (by rw [hw]; exact hv)]
  have hserve (e : Dev) (f : Fld) (hf : f.lsb + f.width ≤ 2) : (showServe e).flag f = e.flag f :=
    flag_put_disj e NT_STAT_SERVE f _ (by omega) (.inl hf)
  interval_cases x
  · exact ⟨(hserve _ NT_STAT_UP0 (by decide)).trans (hone NT_STAT_UP0 (by decide) rfl),
      (hserve _ NT_STAT_UP1 (by decide)).trans (uflag_put_disj d NT_STAT_UP0 NT_STAT_UP1 v rfl rfl)⟩
  · exact ⟨(hserve _ NT_STAT_UP1 (by decide)).trans (hone NT_STAT_UP1 (by decide) rfl),
      (hserve _ NT_STAT_UP0 (by decide)).trans (uflag_put_disj d NT_STAT_UP1 NT_STAT_UP0 v rfl rfl)⟩

theorem netUp_settled (x : Nat) (d : Dev) : netUp x (tripOutRelease d) = netUp x d := by
  rw [netUp, netUp, tripOutRelease_flag _ _ (by decide), tripOutRelease_flag _ _ (by decide)]

theorem netUp_raise (x : Nat) (f : Fld) (c : Cls) (d : Dev) (hf : f.addr = NT_EVT) : netUp x (d.raise f c) = netUp x d := by
  rw [netUp, netUp, flag_raise_ne d f NT_STAT_UP0 c (by rw [hf]; decide) (by decide) (by decide),
    flag_raise_ne d f NT_STAT_UP1 c (by rw [hf]; decide) (by decide) (by decide)]

theorem linkUp_shows (h : s.awake) (x : Fin 2) (hl : s.dev.live = true) (hs : s.dev.nt.started = true)
    (he : s.dev.flag (NT_PCFG_EN x.val) = true) : Answers (.netLinkUp x) s fun t =>
      netUp x.val t.dev = true ∧ netUp (1 - x.val) t.dev = netUp (1 - x.val) s.dev := by
  have heq : linkUp x.val s.dev = linkPut x.val 1 s.dev := if_pos ⟨hl, hs, he⟩
  refine answers_running rfl h (quiet_of_frame (frame_linkUp netCalm x.val (frame_refl _))) ?_
  dsimp only
  rw [netUp_settled, netUp_settled, heq]
  exact linkPut_up x.isLt (by decide) s.dev

/-- The flag of a link that goes down. -/
def linkFlag (x : Nat) : Fld := if x = 0 then NT_EVT_LINK0 else NT_EVT_LINK1

theorem linkFlag_evt (x : Nat) : netFlag (linkFlag x) := by
  unfold linkFlag netFlag
  split <;> decide

/-- A link that has gone down is flagged. -/
def linkFlagged (x : Nat) (d : Dev) : Dev := (linkPut x 0 d).raise (linkFlag x) .notice

theorem linkDown_shows (h : s.awake) (x : Fin 2) (hu : netUp x.val s.dev = true) : Answers (.netLinkDown x) s fun t =>
    netUp x.val t.dev = false ∧ t.dev.flag (if x.val = 0 then NT_EVT_LINK0 else NT_EVT_LINK1) = true ∧
      (netUp (1 - x.val) s.dev = false → t.dev.flag NT_EVT_NONET = true) := by
  have heq : linkDown x.val s.dev = if netUp (1 - x.val) (linkFlagged x.val s.dev) then linkFlagged x.val s.dev
      else (linkFlagged x.val s.dev).raise NT_EVT_NONET .service := by
    rw [linkDown, if_neg (not_not.mpr hu)]
    rfl
  obtain ⟨hown, hother⟩ := linkPut_up x.isLt (show 0 < 2 by decide) s.dev
  have hflagged (y : Nat) : netUp y (linkFlagged x.val s.dev) = netUp y (linkPut x.val 0 s.dev) := netUp_raise y _ _ _ (linkFlag_evt _).1
  have hset : (linkFlagged x.val s.dev).flag (linkFlag x.val) = true := flag_raise_evt _ _ (linkFlag_evt _)
  have hnonet : netFlag NT_EVT_NONET := by unfold netFlag; decide
  have hkeep (e : Dev) : (e.raise NT_EVT_NONET .service).flag (linkFlag x.val) = e.flag (linkFlag x.val) := by
    refine flag_congr ((get_raise_evt e _ hnonet (linkFlag_evt x.val)).trans (if_neg ?_))
    unfold linkFlag
    split <;> decide
  refine answers_running rfl h (quiet_of_frame (frame_linkDown netCalm x.val (frame_refl _))) ?_
  show netUp _ (tripOutRelease _) = false ∧ (tripOutRelease _).flag (linkFlag x.val) = true ∧
    (_ → (tripOutRelease _).flag NT_EVT_NONET = true)
  rw [netUp_settled, tripOutRelease_flag _ _ (by rw [(linkFlag_evt x.val).1]; decide), tripOutRelease_flag _ _ (by decide), heq]
  split
  · next hn =>
    refine ⟨(hflagged _).trans hown, hset, fun k => ?_⟩
    rw [hflagged, hother, k] at hn
    exact absurd hn (by decide)
  · exact ⟨(netUp_raise _ _ _ _ rfl).trans ((hflagged _).trans hown), (hkeep _).trans hset, fun _ => flag_raise_evt _ _ hnonet⟩

/-! ## Waits (R344) -/

theorem readWait_answers (h : s.awake) {r : Req} {rs : List (Nat × Nat)} {rest : List (Req × List (Nat × Nat))}
    (h1 : s.dev.bit SV_STAT_RUN 1 = true) (h2 : s.dev.bit SV_STAT_RUN 2 = true) (hq : s.dev.nt.treads = (r, rs) :: rest)
    (ha : answerTo r tyTREAD s.dev = [r]) :
    Answers (.taskWaitTimeout 2) s fun t => t.dev.nt.treads = rest ∧ t.answered r tyTREAD stTIMEOUT [] := by
  have heq : waitExpired 2 s.dev = answer r tyTREAD stTIMEOUT [] (s.dev.onNt fun n => { n with treads := rest }) := by
    rw [waitExpired, if_neg (by rw [supRuns, supRuns, h1, h2]; decide), if_neg (by decide), if_pos rfl, hq]
  have hframe : Frame calmRegs calmParts s.dev (waitExpired 2 s.dev) := by
    rw [heq]
    exact frame_answer netCalm r tyTREAD stTIMEOUT [] (frame_onNt netCalm _ (frame_refl _))
  refine answers_running rfl h (quiet_of_frame hframe) ?_
  show (tripOutRelease (waitExpired 2 s.dev)).nt.treads = rest ∧
    State.answered { s with dev := tripOutRelease (waitExpired 2 s.dev) } _ _ _ _
  rw [heq]
  have hto : answerTo r tyTREAD (s.dev.onNt fun n => { n with treads := rest }) = [r] := ha
  refine ⟨?_, answered_of_answer hto (tripOutRelease_sent _) (netSame_settled (netSame_answer _ _ _ _ (netSame_refl _)))⟩
  rw [tripOutRelease_nt, answer_nt]
  rfl

/-! ## Address resolution (R407) -/

/-- A command of the network that sends one message. -/
theorem answers_sends {c : Instr} {g : Dev → Dev} {m : Sent} (hc : exec c s = .next (running g s)) (h : s.awake)
    (hf : Frame calmRegs calmParts s.dev (g s.dev)) (hm : (g s.dev).sent = m :: s.dev.sent) :
    Answers c s fun t => t.dev.sent = m :: s.dev.sent :=
  answers_running hc h (quiet_of_frame hf) ((tripOutRelease_sent _).trans hm)

theorem arpRequest_answered (h : s.awake) (x : Fin 2) (hu : netUp x.val s.dev = true) (e : EthHdr)
    (he : ethOk x.val etARP e s.dev = true) (h4 : s.dev.flag (NT_PCFG_IPV6 x.val) = false) (target : BitVec 32) (mac : BitVec 48)
    (ip : BitVec 32) (ht : target.toNat = s.dev.get (NT_IP4_ADDR x.val)) : Answers (.arpRequestRx x e target mac ip) s fun t =>
      t.dev.sent = .arpReply x.val (frameHdr x.val (some mac) s.dev) ip :: s.dev.sent := by
  refine answers_sends rfl h (frame_arpAsked netCalm _ _ _ _ _ (frame_refl _)) ?_
  rw [arpAsked, if_pos ⟨hu, he, by rw [h4]; exact Bool.false_ne_true, ht⟩]
  rfl

theorem neighbour_answered (h : s.awake) (x : Fin 2) (hu : netUp x.val s.dev = true) (p : IpRx)
    (hp : ipOk x.val 58 58 p s.dev = true) (h6 : s.dev.flag (NT_PCFG_IPV6 x.val) = true) (target : BitVec 128) (mac : BitVec 48)
    (ip : BitVec 128) (ht : target.toNat = portIp6 x.val s.dev) : Answers (.neighbourSolicitationRx x p target mac ip) s fun t =>
      t.dev.sent = .neighbourAdv x.val (packetHdr x.val (some mac) s.dev) ip :: s.dev.sent := by
  refine answers_sends rfl h (frame_neighbourAsked netCalm _ _ _ _ _ (frame_refl _)) ?_
  rw [neighbourAsked, if_pos ⟨hu, hp, h6, ht⟩]
  rfl

theorem echo_answered (h : s.awake) (x : Fin 2) (hu : netUp x.val s.dev = true) (p : IpRx) (v6 : Bool) (src dst : BitVec 128)
    (data : List Byte) (hp : ipOk x.val 1 58 p s.dev = true) (h6 : s.dev.flag (NT_PCFG_IPV6 x.val) = v6)
    (hd : dst.toNat = ownAddr x.val s.dev) (he : s.dev.nt.echo = []) : Answers (.icmpEchoRequest x p v6 src dst data) s fun t =>
      t.dev.sent = .echoReply x.val (packetHdr x.val (arpFind x.val src s.dev) s.dev) src data :: s.dev.sent := by
  refine answers_sends rfl h (frame_echoAsked netCalm _ _ _ _ _ _ (frame_refl _)) ?_
  rw [echoAsked, if_neg (not_not.mpr ⟨hu, hp, beq_iff_eq.mpr h6, hd⟩), he]
  rfl

/-- An address that enters the cache is in it. -/
theorem arpPut_mem (x : Nat) (ip : BitVec 128) (mac : BitVec 48) (d : Dev) : (x, ip, mac) ∈ (arpPut x ip mac d).nt.arp :=
  List.mem_append_right _ (List.mem_singleton.mpr rfl)

theorem arpReply_kept (h : s.awake) (x : Fin 2) (hu : netUp x.val s.dev = true) (e : EthHdr)
    (he : ethOk x.val etARP e s.dev = true) (h4 : s.dev.flag (NT_PCFG_IPV6 x.val) = false) (mac : BitVec 48) (ip : BitVec 32)
    (hp : (peerAt (v4Addr ip).toNat s.dev).isSome = true) : Answers (.arpReplyRx x e mac ip) s fun t =>
      (x.val, v4Addr ip, mac) ∈ t.dev.nt.arp := by
  refine answers_running rfl h (quiet_of_frame (frame_arpAnswered netCalm _ _ _ _ (frame_refl _))) ?_
  rw [tripOutRelease_nt, arpAnswered, if_pos ⟨hu, he, by rw [h4]; exact Bool.false_ne_true, hp⟩]
  exact arpPut_mem _ _ _ _

theorem neighbour_kept (h : s.awake) (x : Fin 2) (hu : netUp x.val s.dev = true) (p : IpRx)
    (hi : ipOk x.val 58 58 p s.dev = true) (h6 : s.dev.flag (NT_PCFG_IPV6 x.val) = true) (mac : BitVec 48) (ip : BitVec 128)
    (hp : (peerAt ip.toNat s.dev).isSome = true) : Answers (.neighbourAdvertisementRx x p mac ip) s fun t =>
      (x.val, ip, mac) ∈ t.dev.nt.arp := by
  refine answers_running rfl h (quiet_of_frame (frame_neighbourAnswered netCalm _ _ _ _ (frame_refl _))) ?_
  rw [tripOutRelease_nt, neighbourAnswered, if_pos ⟨hu, hi, h6, hp⟩]
  exact arpPut_mem _ _ _ _

theorem arpCache_expires (h : s.awake) (x : Fin 2) (ip : BitVec 32) : Answers (.arpCacheExpiry x ip) s fun t =>
    ∀ mac, (x.val, v4Addr ip, mac) ∉ t.dev.nt.arp := by
  refine answers_running rfl h (quiet_of_frame (frame_arpDrop netCalm _ _ (frame_refl _))) fun mac hm => ?_
  rw [tripOutRelease_nt] at hm
  have := (List.mem_filter.mp hm).2
  simp at this

/-- A command that has no effect. -/
theorem answers_nothing {c : Instr} {g : Dev → Dev} (hc : exec c s = .next (running g s)) (h : s.awake) (hg : g s.dev = s.dev) :
    Answers c s fun t => t.dev.sent = s.dev.sent ∧ t.dev.nt = s.dev.nt := by
  refine answers_running hc h (by rw [hg]; exact quiet_refl _) ?_
  rw [hg]
  exact ⟨tripOutRelease_sent _, tripOutRelease_nt _⟩

/-- A frame or packet that the port does not accept. -/
def notAccepted (x : Fin 2) (d : Dev) (c : Instr) : Prop :=
  (∃ e a m i, ethOk x.val etARP e d = false ∧ c = .arpRequestRx x e a m i) ∨
    (∃ e m i, ethOk x.val etARP e d = false ∧ c = .arpReplyRx x e m i) ∨
    (∃ p a m i, ipOk x.val 58 58 p d = false ∧ c = .neighbourSolicitationRx x p a m i) ∨
    (∃ p m i, ipOk x.val 58 58 p d = false ∧ c = .neighbourAdvertisementRx x p m i) ∨
    (∃ p v a b y, ipOk x.val 1 58 p d = false ∧ c = .icmpEchoRequest x p v a b y)

theorem notAccepted_nothing (h : s.awake) (x : Fin 2) (c : Instr) (hc : notAccepted x s.dev c) :
    Answers c s fun t => t.dev.sent = s.dev.sent ∧ t.dev.nt = s.dev.nt := by
  have no {b : Bool} (hb : b = false) : ¬ b = true := fun k => Bool.false_ne_true (hb.symm.trans k)
  rcases hc with ⟨e, a, m, i, he, rfl⟩ | ⟨e, m, i, he, rfl⟩ | ⟨p, a, m, i, hp, rfl⟩ | ⟨p, m, i, hp, rfl⟩ |
    ⟨p, v, a, b, y, hp, rfl⟩
  · exact answers_nothing rfl h (if_neg fun k => no he k.2.1)
  · exact answers_nothing rfl h (if_neg fun k => no he k.2.1)
  · exact answers_nothing rfl h (if_neg fun k => no hp k.2.1)
  · exact answers_nothing rfl h (if_neg fun k => no hp k.2.1)
  · exact answers_nothing rfl h (if_pos fun k => no hp k.2.1)

/-- Settles O47: supervisors, links and addresses, each by what its command shows. -/
theorem supervisorsAndPorts : Obligations.SupervisorsAndPorts :=
  ⟨fun _ h hl => ⟨watchdog_stops h hl, restart_runs h hl, fun _ _ _ h1 h2 hq ha => readWait_answers h h1 h2 hq ha⟩,
    fun x _ h => ⟨linkUp_shows h x, fun hu => ⟨linkDown_shows h x hu,
      fun e he h4 => ⟨arpRequest_answered h x hu e he h4, arpReply_kept h x hu e he h4⟩,
      fun p hp h6 => ⟨neighbour_answered h x hu p hp h6, neighbour_kept h x hu p hp h6⟩,
      echo_answered h x hu⟩, notAccepted_nothing h x, arpCache_expires h x⟩⟩

end Sys2Proof.Machine
end

section
/-! PROOFS. How a request is taken, kept or turned away (O48). -/

namespace Sys2Proof.Machine

variable {d e : Dev} {s : State}

/-- A command that is a request of its own row arrives as such. -/
theorem exec_request {i : Instr} {typ : Nat} {r : Req} (h : requestOf i = some (typ, r)) :
    exec i s = .next (wholeRunning (smpIn typ r i) s) := by
  cases i <;> cases h <;> rfl

/-- A request that changes nothing but the device. -/
theorem answers_arrives {c : Instr} {f : State → State} {P : State → Prop} (hc : exec c s = .next (wholeRunning f s)) (h : s.awake)
    {x : Dev} (hu : f s = { s with dev := x }) (hf : Frame calmRegs calmParts s.dev x) (hP : P { s with dev := tripOutRelease x }) :
    Answers c s P := by
  refine answers_wholeRunning hc h ?_ ?_ <;> rw [hu]
  · exact quiet_of_frame hf
  · exact hP

/-- What settles is no register but FC_TRIPSTAT. -/
theorem keepsWords_settled (h : Frame sideRegs (fun _ => True) d e) : d.keepsWords sideRegs (tripOutRelease e) := fun a ha =>
  (tripOutRelease_word e a fun k => ha (.inr (.inr k))).trans (h.words a ha)

/-! ## Datagrams that are discarded -/

theorem dgBad_frame (d : Dev) : Frame calmRegs (fun p => p = .fc ∨ p = .dr) d (dgBad d) :=
  frame_notice NT_EVT_DGBAD ⟨by decide, by decide, .inl rfl, .inr rfl⟩ (by decide)
    (frame_bump NT_CNT0_DGBADCNT 1 (by decide) (frame_refl d))

theorem dgBad_shows (d : Dev) : (dgBad d).flag NT_EVT_DGBAD = true ∧
    (dgBad d).get NT_CNT0_DGBADCNT = satInc NT_CNT0_DGBADCNT.width (d.get NT_CNT0_DGBADCNT) 1 :=
  ⟨flag_raise_evt _ _ (by unfold netFlag; decide),
    (get_raise_ne _ NT_EVT_DGBAD NT_CNT0_DGBADCNT _ (by decide) (by decide) (by decide)).trans (ufld_bump d NT_CNT0_DGBADCNT 1 rfl)⟩

/-- A datagram that is discarded and counted. -/
theorem answers_dgBad {c : Instr} {f : State → State} (hc : exec c s = .next (wholeRunning f s)) (h : s.awake)
    (hu : f s = { s with dev := dgBad s.dev }) : Answers c s fun t => t.dev.sent = s.dev.sent ∧ t.dev.flag NT_EVT_DGBAD = true ∧
      t.dev.get NT_CNT0_DGBADCNT = satInc NT_CNT0_DGBADCNT.width (s.dev.get NT_CNT0_DGBADCNT) 1 ∧
      t.dev.nt = s.dev.nt ∧ t.dev.su = s.dev.su ∧ t.dev.regions = s.dev.regions := by
  have hf := dgBad_frame s.dev
  obtain ⟨hflag, hcount⟩ := dgBad_shows s.dev
  have hcalm : Frame calmRegs calmParts s.dev (dgBad s.dev) :=
    frame_mono (fun _ k => k) (fun p k => by rcases k with rfl | rfl <;> trivial) hf
  refine answers_arrives hc h hu hcalm ⟨?_, ?_, ?_, ?_, ?_, ?_⟩
  · exact (tripOutRelease_sent _).trans (hf.parts .sent nofun)
  · exact (tripOutRelease_flag _ _ (by decide)).trans hflag
  · exact (tripOutRelease_get _ _ (by decide)).trans hcount
  · exact (tripOutRelease_nt _).trans (hf.parts .nt nofun)
  · exact (tripOutRelease_su _).trans (hf.parts .su nofun)
  · exact (tripOutRelease_regions _).trans (hf.parts .regions nofun)

/-! ## The branches of an arrival -/

section arrival
variable {typ : Nat} {r : Req} {i : Instr}

theorem smpIn_untaken (h : taken r (payloadLen i) s.dev = false) : smpIn typ r i s = s :=
  if_pos (show ¬ taken r (payloadLen i) s.dev = true by rw [h]; exact Bool.false_ne_true)

variable (ht : taken r (payloadLen i) s.dev = true)
include ht

theorem smpIn_unpermitted (h : permitted r.addr.toNat typ s.dev = false) : smpIn typ r i s = { s with dev := dgBad s.dev } :=
  (if_neg (not_not.mpr ht)).trans (if_pos (by rw [h]; exact Bool.false_ne_true))

variable (hp : permitted r.addr.toNat typ s.dev = true)
include hp

theorem smpIn_waits (hk : keptOf r typ s.dev = none) (hr : supRuns 1 s.dev = false) : smpIn typ r i s =
    { s with dev := if s.dev.nt.smpQ.length < 64 then enqueue r i (keep r typ s.dev) else answerBusy r typ (keep r typ s.dev) } := by
  rw [smpIn, smpArrive]
  dsimp only
  rw [if_neg (not_not.mpr ht), if_neg (not_not.mpr hp), hk]
  dsimp only
  rw [if_neg (show ¬ supRuns 1 (keep r typ s.dev) = true from fun k => Bool.false_ne_true (hr.symm.trans k))]
  split
  · next h => rw [if_pos (of_decide_eq_true h)]
  · next h => rw [if_neg (of_decide_eq_false (by simpa using h))]

theorem smpIn_duplicate {k : Kept} (hk : keptOf r typ s.dev = some k) (hr : supRuns 1 s.dev = true) (hn : k.answers ≠ []) :
    smpIn typ r i s = { s with dev := answerAgain r k s.dev } := by
  rw [smpIn, smpArrive]
  dsimp only
  rw [if_neg (not_not.mpr ht), if_neg (not_not.mpr hp), hk]
  dsimp only
  rw [if_neg (by simpa using hn), if_pos hr]

theorem smpIn_awaiting {k : Kept} (hk : keptOf r typ s.dev = some k) (hn : k.answers = []) :
    smpIn typ r i s = { s with dev := onKept r typ (fun x => { x with dups := x.dups ++ [r] }) s.dev } := by
  rw [smpIn, smpArrive]
  dsimp only
  rw [if_neg (not_not.mpr ht), if_neg (not_not.mpr hp), hk]
  dsimp only
  rw [if_pos (by rw [hn]; rfl)]

end arrival

/-! ## Requests -/

section request
variable {typ : Nat} {r : Req} {i : Instr} (hi : requestOf i = some (typ, r)) (h : s.awake)
include hi h

theorem request_untaken (ht : taken r (payloadLen i) s.dev = false) : Answers i s fun t => t.dev.sent = s.dev.sent ∧
    t.dev.nt = s.dev.nt ∧ s.dev.keepsWords sideRegs t.dev :=
  answers_arrives (exec_request hi) h (smpIn_untaken ht) (frame_refl _)
    ⟨tripOutRelease_sent _, tripOutRelease_nt _, keepsWords_settled (frame_refl _)⟩

variable (ht : taken r (payloadLen i) s.dev = true)
include ht

theorem request_unpermitted (hp : permitted r.addr.toNat typ s.dev = false) : Answers i s fun t => t.dev.sent = s.dev.sent ∧
    t.dev.flag NT_EVT_DGBAD = true ∧ t.dev.get NT_CNT0_DGBADCNT = satInc NT_CNT0_DGBADCNT.width (s.dev.get NT_CNT0_DGBADCNT) 1 ∧
    t.dev.nt = s.dev.nt ∧ t.dev.su = s.dev.su ∧ t.dev.regions = s.dev.regions :=
  answers_dgBad (exec_request hi) h (smpIn_unpermitted ht hp)

variable (hp : permitted r.addr.toNat typ s.dev = true)
include hp

theorem request_queued (hk : keptOf r typ s.dev = none) (hr : supRuns 1 s.dev = false) (hl : s.dev.nt.smpQ.length < 64) :
    Answers i s fun t => t.dev.sent = s.dev.sent ∧ t.dev.nt.smpQ =
      s.dev.nt.smpQ.takeWhile (comesFirst r) ++ [i] ++ s.dev.nt.smpQ.dropWhile (comesFirst r) := by
  refine answers_arrives (exec_request hi) h ((smpIn_waits ht hp hk hr).trans (by rw [if_pos hl]))
    (frame_enqueue netCalm r i (frame_keep netCalm r typ (frame_refl _))) ?_
  rw [tripOutRelease_sent, tripOutRelease_nt]
  exact ⟨rfl, rfl⟩

theorem request_busy (hk : keptOf r typ s.dev = none) (hr : supRuns 1 s.dev = false) (hl : 64 ≤ s.dev.nt.smpQ.length) :
    Answers i s fun t => t.answered r typ stBUSY (bytesBE 1 (retryAfter s.dev)) ∧ t.dev.nt.smpQ = s.dev.nt.smpQ ∧
      t.dev.get NT_CNT0_BUSYCNT = satInc NT_CNT0_BUSYCNT.width (s.dev.get NT_CNT0_BUSYCNT) 1 := by
  have hto : answerTo r typ ((keep r typ s.dev).bump NT_CNT0_BUSYCNT) = [r] := answerTo_keep r typ s.dev
  have hsame : NetSame ((keep r typ s.dev).bump NT_CNT0_BUSYCNT) (answerBusy r typ (keep r typ s.dev)) :=
    netSame_answer r typ _ _ (netSame_refl _)
  refine answers_arrives (exec_request hi) h ((smpIn_waits ht hp hk hr).trans (by rw [if_neg (Nat.not_lt.mpr hl)]))
    (frame_answerBusy netCalm r typ (frame_keep netCalm r typ (frame_refl _))) ⟨?_, ?_, ?_⟩
  · exact answered_of_answer hto (tripOutRelease_sent _) (netSame_settled hsame)
  · rw [tripOutRelease_nt, answerBusy, answer_nt]
    rfl
  · rw [tripOutRelease_get _ _ (by decide), answerBusy, (answer_frame r typ _ _ _).get NT_CNT0_BUSYCNT id]
    exact ufld_bump (keep r typ s.dev) NT_CNT0_BUSYCNT 1 rfl

theorem request_again {k : Kept} (hk : keptOf r typ s.dev = some k) (hr : supRuns 1 s.dev = true) {m : List Byte}
    (hm : k.answers = [m]) : Answers i s fun t => t.dev.sent.head? =
      some (.smp r.port.val (udpHdr r.port.val r.addr r.udp.toNat m s.dev) r.addr r.udp.toNat m) ∧
      t.dev.nt = s.dev.nt ∧ s.dev.keepsWords sideRegs t.dev ∧ t.dev.su = s.dev.su ∧ t.dev.regions = s.dev.regions := by
  have hone : answerAgain r k s.dev = sendUdp r.port.val r.addr r.udp.toNat m s.dev := by rw [answerAgain, hm]; rfl
  have hf : Frame (fun _ => False) (· = .sent) s.dev (sendUdp r.port.val r.addr r.udp.toNat m s.dev) :=
    sendUdp_frame _ _ _ _ (frame_refl _) rfl
  refine answers_arrives (exec_request hi) h ((smpIn_duplicate ht hp hk hr (by rw [hm]; nofun)).trans (by rw [hone]))
    (frame_mono nofun (fun p hp => by subst hp; trivial) hf) ⟨?_, ?_, ?_, ?_, ?_⟩
  · exact (congrArg List.head? (tripOutRelease_sent _)).trans (sendUdp_head r.port.isLt _ _ _ _)
  · exact (tripOutRelease_nt _).trans (hf.parts .nt nofun)
  · exact keepsWords_settled (frame_mono nofun (fun _ _ => trivial) hf)
  · exact (tripOutRelease_su _).trans (hf.parts .su nofun)
  · exact (tripOutRelease_regions _).trans (hf.parts .regions nofun)

theorem request_awaits {k : Kept} (hk : keptOf r typ s.dev = some k) (hn : k.answers = []) : Answers i s fun t =>
    t.dev.sent = s.dev.sent ∧ s.dev.keepsWords sideRegs t.dev ∧
      t.dev.nt = (onKept r typ (fun x => { x with dups := x.dups ++ [r] }) s.dev).nt ∧
      t.dev.su = s.dev.su ∧ t.dev.regions = s.dev.regions := by
  refine answers_arrives (exec_request hi) h (smpIn_awaiting ht hp hk hn) (frame_onKept netCalm r typ _ (frame_refl _))
    ⟨tripOutRelease_sent _, keepsWords_settled (frame_setNt _ trivial (frame_refl _)), tripOutRelease_nt _, tripOutRelease_su _,
      tripOutRelease_regions _⟩

end request

/-! ## Invalid datagrams -/

section invalid
variable (x : Fin 2) (sender : Sender) (udp : BitVec 16) (p : List Byte) (h : s.awake)
  (ht : taken (payloadReq x sender udp p) p.length s.dev = true)
include h ht

theorem invalid_discarded (hb : (peerAt sender.addr.toNat s.dev).isNone = true ∨ payloadOk p = false) :
    Answers (.smpInvalidDatagram x sender udp p) s fun t => t.dev.sent = s.dev.sent ∧ t.dev.flag NT_EVT_DGBAD = true ∧
      t.dev.get NT_CNT0_DGBADCNT = satInc NT_CNT0_DGBADCNT.width (s.dev.get NT_CNT0_DGBADCNT) 1 ∧ t.dev.nt = s.dev.nt := by
  have hu : datagramIn x sender udp p s = { s with dev := dgBad s.dev } := by
    rw [datagramIn, if_neg (not_not.mpr ht), if_pos (hb.imp id fun k => by rw [k]; exact Bool.false_ne_true)]
  exact answers_mono (answers_dgBad (f := datagramIn x sender udp p) rfl h hu) fun t ⟨ha, hb, hc, hd, _, _⟩ => ⟨ha, hb, hc, hd⟩

theorem invalid_answered (ho : payloadOk p = true) (hb : bodyFits (fieldBE p 3 1) (slice p 16 (p.length - 20)) = false)
    (hp : permitted sender.addr.toNat (fieldBE p 3 1) s.dev = true) (hr : supRuns 1 s.dev = true)
    (hk : keptOf (payloadReq x sender udp p) (fieldBE p 3 1) s.dev = none) :
    Answers (.smpInvalidDatagram x sender udp p) s fun t => t.answered (payloadReq x sender udp p) (fieldBE p 3 1) stBADMSG [] := by
  have hpeer : (peerAt sender.addr.toNat s.dev).isNone = false := by
    rw [permitted] at hp
    cases hq : peerAt sender.addr.toNat s.dev with
    | none => rw [hq] at hp; exact absurd hp Bool.false_ne_true
    | some => rfl
  have hu : datagramIn x sender udp p s = { s with
      dev := answer (payloadReq x sender udp p) (fieldBE p 3 1) stBADMSG []
        (keep (payloadReq x sender udp p) (fieldBE p 3 1) s.dev) } := by
    rw [datagramIn, if_neg (not_not.mpr ht), if_neg (by rw [hpeer, ho]; decide), if_neg (by rw [hb]; exact Bool.false_ne_true)]
    exact smpIn_takes ⟨ht, hp, hr, hk⟩
  refine answers_arrives (f := datagramIn x sender udp p) rfl h hu (frame_answer netCalm _ _ _ _ (frame_keep netCalm _ _ (frame_refl _))) ?_
  exact answered_of_answer (answerTo_keep _ _ s.dev) (tripOutRelease_sent _) (netSame_settled (netSame_answer _ _ _ _ (netSame_refl _)))

end invalid

/-- Settles O48, by the branches of an arrival. -/
theorem smpAdmission : Obligations.SmpAdmission := fun _ h =>
  ⟨fun _ _ _ hi => ⟨request_untaken hi h, fun ht => ⟨request_unpermitted hi h ht,
      fun hp hk hr => ⟨request_queued hi h ht hp hk hr, request_busy hi h ht hp hk hr⟩,
      fun _ hp hk => ⟨fun _ hr hm => request_again hi h ht hp hk hr hm, request_awaits hi h ht hp hk⟩⟩⟩,
    fun x sender udp p ht => ⟨invalid_discarded x sender udp p h ht, invalid_answered x sender udp p h ht⟩⟩

end Sys2Proof.Machine
end

section
/-! PROOFS. The maintenance session, its reads and its writes (O51). -/

namespace Sys2Proof.Machine

variable {d e : Dev} {s : State} {c : Instr} {P : State → Prop} {r : Req} {typ : Nat}

/-! ## Who an answer goes to -/

/-- Answers to other requests do not change it. -/
theorem answerTo_answer (r r' : Req) (typ typ' status : Nat) (body : List Byte) (d : Dev) :
    answerTo r typ (answer r' typ' status body d) = answerTo r typ d := by
  rw [answerTo, answerTo, answer_nt]
  show (match (List.find? _ (List.map _ d.nt.kept) : Option Kept) with | some k => r :: k.dups | none => [r]) = _
  rw [List.find?_map]
  have hsame : (keptIs r typ ∘ fun k : Kept => if keptIs r' typ' k then
      { k with answers := k.answers ++ [smpMsg typ' status 1 r'.rid.toNat 0 body] } else k) = keptIs r typ := by
    funext k
    rw [Function.comp_apply]
    split <;> rfl
  rw [hsame]
  cases d.nt.kept.find? (keptIs r typ) with
  | none => rfl
  | some k =>
    rw [Option.map_some]
    by_cases hk : keptIs r' typ' k = true
    · rw [if_pos hk]
    · rw [if_neg hk]

theorem answerTo_answers {α : Type} (r : Req) (typ : Nat) (l : List α) (q : α → Req) (typ' st : α → Nat) (body : α → List Byte) :
    ∀ d : Dev, answerTo r typ (l.foldl (fun d w => answer (q w) (typ' w) (st w) (body w) d) d) = answerTo r typ d := by
  induction l with
  | nil => exact fun _ => rfl
  | cons w l ih => exact fun d => (ih _).trans (answerTo_answer r _ typ _ _ _ d)

/-- A request that is answered last. -/
theorem answers_answer (hc : exec c s = .next (wholeRunning (smpIn typ r c) s)) (h : s.awake) (ht : s.takes r typ c) {u : State} {d : Dev}
    {status : Nat} {body : List Byte} (hu : smpDo true c { s with dev := keep r typ s.dev } = { u with dev := answer r typ status body d })
    (hto : answerTo r typ d = [r]) (hq : Quiet s.dev d)
    (hP : (State.answered { u with dev := tripOutRelease (answer r typ status body d), pending := s.pending } r typ status body) →
      P { u with dev := tripOutRelease (answer r typ status body d), pending := s.pending }) : Answers c s P := by
  refine answers_takes hc h ht hu (quiet_trans hq (quiet_of_frame (frame_answer netCalm r typ status body (frame_refl d)))) (hP ?_)
  exact answered_of_answer hto (tripOutRelease_sent _) (netSame_settled (netSame_answer r typ status body (netSame_refl d)))

theorem quiet_keep (r : Req) (typ : Nat) (d : Dev) : Quiet d (keep r typ d) := quiet_of_frame (frame_keep netCalm r typ (frame_refl d))

/-- Answers leave all of the network but the requests kept. -/
theorem answer_net {β : Type} (g : NetSt → β) (hg : ∀ n k, g { n with kept := k } = g n) (r : Req) (typ status : Nat)
    (body : List Byte) (d : Dev) : g (answer r typ status body d).nt = g d.nt := by
  rw [answer_nt]
  exact hg _ _

theorem answers_net {α β : Type} (g : NetSt → β) (hg : ∀ n k, g { n with kept := k } = g n) (l : List α) (q : α → Req)
    (typ st : α → Nat) (body : α → List Byte) :
    ∀ d : Dev, g (l.foldl (fun d w => answer (q w) (typ w) (st w) (body w) d) d).nt = g d.nt := by
  induction l with
  | nil => exact fun _ => rfl
  | cons w l ih => exact fun d => (ih _).trans (answer_net g hg _ _ _ _ d)

theorem answers_frame {α : Type} (l : List α) (q : α → Req) (typ st : α → Nat) (body : α → List Byte) (d : Dev) :
    Frame (fun _ => False) answerParts d (l.foldl (fun d w => answer (q w) (typ w) (st w) (body w) d) d) :=
  frame_foldl _ _ (fun _ _ _ hd => frame_trans hd (answer_frame _ _ _ _ _)) (frame_refl d)

theorem answer_sess (r : Req) (typ status : Nat) (body : List Byte) (d : Dev) : (answer r typ status body d).nt.sess = d.nt.sess :=
  answer_net NetSt.sess (fun _ _ => rfl) r typ status body d

/-! ## The end of a session -/

/-- A transfer that closes changes GL_IMGWR alone. -/
theorem xferClose_frame (d : Dev) : Frame (· = GL_IMGWR) answerParts d (xferClose d) := by
  unfold xferClose
  split
  · exact frame_refl d
  next x _ =>
    have hput : Frame (· = GL_IMGWR) answerParts d ((d.onNt fun n => { n with xfer := none }).put GL_IMGWR_STATE 0) :=
      frame_put _ _ rfl (frame_setNt _ (.inr rfl) (frame_refl d))
    exact frame_ite (frame_refl d) (frame_trans hput (frame_mono nofun (fun _ k => k) (answers_frame _ _ _ _ _ _)))

theorem xferClose_sess (d : Dev) : (xferClose d).nt.sess = d.nt.sess := by
  unfold xferClose
  split
  · rfl
  split
  · rfl
  · exact answers_net NetSt.sess (fun _ _ => rfl) _ _ _ _ _ _

theorem answerTo_xferClose (r : Req) (typ : Nat) (d : Dev) : answerTo r typ (xferClose d) = answerTo r typ d := by
  unfold xferClose
  split
  · rfl
  split
  · rfl
  · exact answerTo_answers r typ _ _ _ _ _ _

theorem sessEnd_sess (d : Dev) : (sessEnd d).nt.sess = none := xferClose_sess _

theorem sessEnd_shown (d : Dev) : (sessEnd d).get NT_STAT_SESS = 0 :=
  ((xferClose_frame _).get NT_STAT_SESS (by decide)).trans
    (get_put_lt (d.onNt fun n => { n with sess := none, sessDue := false }) NT_STAT_SESS 0 (by decide) (by decide))

theorem answerTo_sessEnd (r : Req) (typ : Nat) (d : Dev) : answerTo r typ (sessEnd d) = answerTo r typ d := answerTo_xferClose r typ _

/-! ## Requests of a session -/

/-- The session of a request that names it, from its source. -/
theorem sessOf_own {x : Session} {sid : Nat} (hx : d.nt.sess = some x) (hs : x.sid = sid) (ha : x.addr = r.addr)
    (hu : x.udp = r.udp.toNat) : sessOf r sid d = some x := by
  rw [sessOf, hx]
  exact if_pos ⟨hs, ha, hu⟩

section session
variable {x : Session} {sid mcnt : Nat} {f : State → State}

theorem withSession_runs (hx : sessOf r sid s.dev = some x) (ha : x.auth = true) (hk : cntOk x mcnt = true) :
    withSession r typ sid mcnt f s = f { s with dev := cntTake mcnt s.dev } := by
  rw [withSession, hx]
  dsimp only
  rw [if_neg (not_not.mpr ha), if_neg (not_not.mpr hk)]

theorem withSession_none (hx : s.dev.nt.sess = none) :
    withSession r typ sid mcnt f s = { s with dev := answer r typ stNOSESSION [] s.dev } := by
  have hno : sessOf r sid s.dev = none := by rw [sessOf, hx]
  rw [withSession, hno]

variable {pending : Bool} {body : List Byte} {au : Auth} (hx : sessOf r au.sid.toNat s.dev = some x)
  (ha : x.auth = true ∨ pending = true) (hk : cntOk x au.mcnt.toNat = true)
include hx ha hk

theorem withSigned_eq : withSigned r typ pending body au f s = if sigOk x r typ body au s.dev = true then
    f { s with dev := cntTake au.mcnt.toNat s.dev } else { s with dev := authFail r typ s.dev } := by
  rw [withSigned, hx]
  dsimp only
  rw [if_neg fun k => ha.elim k.1 k.2]
  by_cases hs : sigOk x r typ body au s.dev = true
  · rw [if_neg (by simp [hk, hs]), if_pos hs]
  · rw [if_pos (.inr hs), if_neg hs]

end session

/-- A signature that fails is counted, which may end the session; the rest is the answer. -/
def authFailed (d : Dev) : Dev :=
  let d := (d.bump NT_CNT1_AUTHFCNT).raise NT_EVT_AUTHF .notice
  let d := d.onNt fun n => { n with sess := n.sess.map fun x => { x with fails := x.fails + 1 } }
  match d.nt.sess with
  | some x => if 8 ≤ x.fails then sessEnd d else d
  | none => d

theorem authFail_eq (r : Req) (typ : Nat) (d : Dev) : authFail r typ d = answer r typ stAUTHFAIL [] (authFailed d) := rfl

theorem frame_authFailed {W : Nat → Prop} {S : Part → Prop} (N : NetRoom W S) (d : Dev) : Frame W S d (authFailed d) := by
  unfold authFailed
  extract_lets counted failed
  have hfailed : Frame W S d failed := frame_onNt N _ (frame_notice NT_EVT_AUTHF N.toEvents (N.regs _ (by decide))
    (frame_bump NT_CNT1_AUTHFCNT 1 (N.regs _ (by decide)) (frame_refl d)))
  split
  · exact frame_ite (frame_sessEnd N hfailed) hfailed
  · exact hfailed

theorem authCounted_nt (d : Dev) : ((d.bump NT_CNT1_AUTHFCNT).raise NT_EVT_AUTHF .notice).nt = d.nt :=
  (frame_notice (W := fun _ => True) (S := (· ≠ .nt)) NT_EVT_AUTHF ⟨trivial, trivial, nofun, nofun⟩ trivial
    (frame_bump NT_CNT1_AUTHFCNT 1 trivial (frame_refl d))).parts .nt fun k => k rfl

theorem authFailed_xfer (hx : d.nt.xfer = none) : (authFailed d).nt.xfer = none := by
  unfold authFailed
  extract_lets counted failed
  have hfailed : failed.nt.xfer = none := (congrArg NetSt.xfer (authCounted_nt d)).trans hx
  have hend : (sessEnd failed).nt.xfer = none := by
    rw [sessEnd, xferClose]
    show NetSt.xfer (Dev.nt (match failed.nt.xfer with | none => _ | some x => _)) = none
    rw [hfailed]
    exact hfailed
  split
  · split
    · exact hend
    · exact hfailed
  · exact hfailed

theorem answerTo_authFailed (r : Req) (typ : Nat) (d : Dev) : answerTo r typ (authFailed d) = answerTo r typ d := by
  unfold authFailed
  extract_lets counted failed
  have hfailed : answerTo r typ failed = answerTo r typ d :=
    (answerTo_congr (d := counted) rfl).trans (answerTo_congr (congrArg NetSt.kept (authCounted_nt d)))
  split
  · split
    · exact (answerTo_sessEnd r typ _).trans hfailed
    · exact hfailed
  · exact hfailed

/-- The session of a maintenance request, found by its source. -/
structure Owned (x : Session) (r : Req) (au : Auth) (d : Dev) : Prop where
  sess : d.nt.sess = some x
  sid : x.sid = au.sid.toNat
  addr : x.addr = r.addr
  udp : x.udp = r.udp.toNat
  cnt : cntOk x au.mcnt.toNat = true

section owned
variable {x : Session} {au : Auth} (o : Owned x r au s.dev)
include o

theorem Owned.found (typ : Nat) : sessOf r au.sid.toNat (keep r typ s.dev) = some x := sessOf_own o.sess o.sid o.addr o.udp

/-- A signed request is answered by its own effect, or with AUTHFAIL. -/
theorem answers_signed {pending : Bool} {body : List Byte} {f : State → State} {u : State} {v : Dev} {status : Nat} {reply : List Byte}
    {Q R : State → Prop} (hc : exec c s = .next (wholeRunning (smpIn typ r c) s)) (h : s.awake) (ht : s.takes r typ c)
    (hdo : smpDo true c { s with dev := keep r typ s.dev } = withSigned r typ pending body au f { s with dev := keep r typ s.dev })
    (hpend : x.auth = true ∨ pending = true)
    (hf : f { s with dev := cntTake au.mcnt.toNat (keep r typ s.dev) } = { u with dev := answer r typ status reply v })
    (hto : answerTo r typ v = [r]) (hq : Quiet s.dev v)
    (hP : (State.answered { u with dev := tripOutRelease (answer r typ status reply v), pending := s.pending } r typ status reply) →
      Q { u with dev := tripOutRelease (answer r typ status reply v), pending := s.pending })
    (hR : ∀ t : State, t.answered r typ stAUTHFAIL [] → (s.dev.nt.xfer = none → t.dev.nt.xfer = none) → R t) :
    Answers c s fun t => if sigOk x r typ body au s.dev = true then Q t else R t := by
  have hrun := hdo.trans (withSigned_eq (s := { s with dev := keep r typ s.dev }) (o.found typ) hpend o.cnt)
  by_cases hs : sigOk x r typ body au s.dev = true
  · simp only [if_pos hs]
    exact answers_answer hc h ht (hrun.trans ((if_pos hs).trans hf)) hto hq hP
  · simp only [if_neg hs]
    refine answers_answer hc h ht (hrun.trans (if_neg hs)) ((answerTo_authFailed r typ _).trans (answerTo_keep r typ s.dev))
      (quiet_trans (quiet_keep r typ s.dev) (quiet_of_frame (frame_authFailed netCalm _))) fun ha => hR _ ha fun hx => ?_
    rw [tripOutRelease_nt]
    exact (congrArg NetSt.xfer (answer_nt r typ _ _ _)).trans (authFailed_xfer hx)

end owned

/-! ## Reads and writes -/

/-- A read does not reach the network. -/
theorem readWord_nt (o : Origin) (a : Nat) (s : State) : (readWord o a s).2.dev.nt = s.dev.nt := by
  have hsnap : ((snapTargets a).foldl (snapPut o) s).dev.nt = s.dev.nt :=
    List.foldlRecOn (motive := fun t : State => t.dev.nt = s.dev.nt) _ _ rfl fun _ ht _ _ => ht
  have hpop (d : Dev) : (adPop d).2.nt = d.nt := by
    unfold adPop
    split <;> rfl
  unfold readWord
  split
  · rfl
  · extract_lets w snapped
    split
    · exact (hpop _).trans hsnap
    · split
      · exact hsnap
      · exact hsnap

theorem readWords_nt (o : Origin) (n : Nat) : ∀ (a : Nat) (s : State), (readWords o n a s).2.dev.nt = s.dev.nt := by
  induction n with
  | zero => exact fun _ _ => rfl
  | succ n ih => exact fun a s => (ih _ _).trans (readWord_nt o a s)

/-- The bounds of a maintenance request (R424). -/
theorem mread_bounds {addr nw : Nat} (ha : addr % 4 = 0) (h0 : nw ≠ 0) (h1 : nw ≤ 256) (h2 : addr + 4 * nw ≤ 2 ^ 32) :
    ¬ (addr % 4 ≠ 0 ∨ nw = 0 ∨ 256 < nw ∨ 2 ^ 32 < addr + 4 * nw) := by omega

theorem quiet_cntTake (mcnt : Nat) (r : Req) (typ : Nat) (d : Dev) : Quiet d (cntTake mcnt (keep r typ d)) :=
  quiet_of_frame (frame_cntTake netCalm mcnt (frame_keep netCalm r typ (frame_refl d)))

theorem answerTo_cntTake (mcnt : Nat) (r : Req) (typ : Nat) (d : Dev) : answerTo r typ (cntTake mcnt (keep r typ d)) = [r] :=
  (answerTo_congr (d := keep r typ d) rfl).trans (answerTo_keep r typ d)

/-- The session is authenticated. -/
def authenticated (d : Dev) : Dev := showSess (d.onNt fun n => { n with sess := n.sess.map fun x => { x with auth := true } })

theorem authenticated_sess {x : Session} (hx : d.nt.sess = some x) : (authenticated d).nt.sess = some { x with auth := true } :=
  congrArg (Option.map _) hx

theorem authenticated_shown {x : Session} (hx : d.nt.sess = some x) : (authenticated d).get NT_STAT_SESS = 2 := by
  unfold authenticated showSess
  show (Dev.put _ NT_STAT_SESS (match (Option.map _ d.nt.sess : Option Session) with
    | none => 0
    | some x => if x.auth then 2 else 1)).get _ = 2
  rw [hx]
  exact get_put_lt _ NT_STAT_SESS 2 (by decide) (by decide)

/-! ## The clauses -/

theorem mopen_opens (h : s.awake) (r : Req) (chal : BitVec 128) (ht : s.takes r tyMOPEN (.mopen r chal))
    (hm : s.dev.flag NT_MNTCFG_MEN = true) (hn : s.dev.nt.sess = none) : Answers (.mopen r chal) s fun t => ∃ sid,
      t.dev.nt.sess = some ⟨sid, chal, r.addr, r.udp.toNat, false, none, 0⟩ ∧ t.dev.get NT_STAT_SESS = 1 ∧
      t.answered r tyMOPEN stOK (bytesBE 4 sid ++ bytesBE 16 chal.toNat) := by
  have hcond : ¬ (¬ (keep r tyMOPEN s.dev).flag NT_MNTCFG_MEN = true ∨
      ((keep r tyMOPEN s.dev).nt.sess.map fun x => x.auth) == some true ∨ (keep r tyMOPEN s.dev).mode = modeSTOP) := by
    rintro (k | k | k)
    · exact k hm
    · rw [show (keep r tyMOPEN s.dev).nt.sess = none from hn] at k
      exact Bool.false_ne_true k
    · exact h.2.1 k
  refine answers_answer (c := .mopen r chal) rfl h ht (if_neg hcond) ((answerTo_congr (d := keep r tyMOPEN s.dev) rfl).trans
    (answerTo_keep r tyMOPEN s.dev)) ?_ fun ha => ⟨_, ?_, ?_, ha⟩
  · exact quiet_of_frame (frame_showSess netCalm (frame_onNt netCalm _ (frame_keep netCalm _ _ (frame_refl _))))
  · exact (congrArg NetSt.sess (tripOutRelease_nt _)).trans (answer_sess _ _ _ _ _)
  · rw [tripOutRelease_get _ _ (by decide), (answer_frame r _ _ _ _).get NT_STAT_SESS id]
    exact get_put_lt _ NT_STAT_SESS 1 (by decide) (by decide)

theorem mread_unopened (h : s.awake) (r : Req) (sid mcnt addr : BitVec 32) (nw : BitVec 16)
    (ht : s.takes r tyMREAD (.mread r sid mcnt addr nw)) (hn : s.dev.nt.sess = none) (ha : addr.toNat % 4 = 0) (h0 : nw ≠ 0)
    (h1 : nw.toNat ≤ 256) (h2 : addr.toNat + 4 * nw.toNat ≤ 2 ^ 32) :
    Answers (.mread r sid mcnt addr nw) s fun t => t.answered r tyMREAD stNOSESSION [] := by
  have hnw : nw.toNat ≠ 0 := fun k => h0 (BitVec.eq_of_toNat_eq k)
  refine answers_answer (c := .mread r sid mcnt addr nw) rfl h ht ((if_neg (mread_bounds ha hnw h1 h2)).trans (withSession_none hn))
    (answerTo_keep r tyMREAD s.dev) (quiet_keep _ _ _) id

theorem session_times_out (h : s.awake) (hs : s.dev.nt.sess.isSome = true) :
    (supRuns 1 s.dev = true → Answers .sessionTimeout s fun t => t.dev.nt.sess = none ∧ t.dev.get NT_STAT_SESS = 0) ∧
      (supRuns 1 s.dev = false → Answers .sessionTimeout s fun t => t.dev.nt.sess = s.dev.nt.sess ∧ t.dev.nt.sessDue = true) := by
  have hsome : ¬ s.dev.nt.sess.isNone = true := by
    rw [Option.isNone_iff_eq_none]
    exact fun k => by rw [k] at hs; exact Bool.false_ne_true hs
  have hq : Quiet s.dev (sessTimeout s.dev) := quiet_of_frame (frame_sessTimeout netCalm (frame_refl _))
  refine ⟨fun hr => answers_running rfl h hq ?_, fun hr => answers_running rfl h hq ?_⟩
  · rw [tripOutRelease_nt, tripOutRelease_get _ _ (by decide), sessTimeout, if_neg hsome, if_pos hr]
    exact ⟨sessEnd_sess _, sessEnd_shown _⟩
  · rw [tripOutRelease_nt, sessTimeout, if_neg hsome, if_neg (by rw [hr]; exact Bool.false_ne_true)]
    exact ⟨rfl, rfl⟩

section owned
variable {x : Session} {au : Auth} (h : s.awake) (o : Owned x r au s.dev)
include h o

theorem mauth_authenticates (ht : s.takes r tyMAUTH (.mauth r au)) : Answers (.mauth r au) s fun t =>
    if sigOk x r tyMAUTH (authBytes au) au s.dev = true then
      t.dev.nt.sess = some { x with auth := true, lastCnt := some au.mcnt.toNat } ∧ t.dev.get NT_STAT_SESS = 2 ∧
        t.answered r tyMAUTH stOK []
    else t.answered r tyMAUTH stAUTHFAIL [] := by
  have hto : answerTo r tyMAUTH (authenticated (cntTake au.mcnt.toNat (keep r tyMAUTH s.dev))) = [r] :=
    (answerTo_congr (d := keep r tyMAUTH s.dev) rfl).trans (answerTo_keep r tyMAUTH s.dev)
  have hq : Quiet s.dev (authenticated (cntTake au.mcnt.toNat (keep r tyMAUTH s.dev))) :=
    quiet_of_frame (frame_showSess netCalm (frame_onNt netCalm _ (frame_cntTake netCalm _ (frame_keep netCalm _ _ (frame_refl _)))))
  have hsess : (cntTake au.mcnt.toNat (keep r tyMAUTH s.dev)).nt.sess = some { x with lastCnt := some au.mcnt.toNat } :=
    congrArg (Option.map _) o.sess
  refine answers_signed (c := .mauth r au) (u := s) (f := fun s => { s with dev := answer r tyMAUTH stOK [] (authenticated s.dev) })
    o rfl h ht rfl (.inr rfl) rfl hto hq (fun hans => ⟨?_, ?_, hans⟩) fun _ hans _ => hans
  · exact (congrArg NetSt.sess (tripOutRelease_nt _)).trans ((answer_sess _ _ _ _ _).trans (authenticated_sess hsess))
  · exact (tripOutRelease_get _ _ (by decide)).trans (((answer_frame r _ _ _ _).get NT_STAT_SESS id).trans (authenticated_shown hsess))

theorem mread_reads (ha : x.auth = true) (addr : BitVec 32) (nw : BitVec 16)
    (ht : s.takes r tyMREAD (.mread r au.sid au.mcnt addr nw)) (h4 : addr.toNat % 4 = 0) (h0 : nw ≠ 0)
    (h1 : nw.toNat ≤ 256) (h2 : addr.toNat + 4 * nw.toNat ≤ 2 ^ 32) : Answers (.mread r au.sid au.mcnt addr nw) s fun t =>
      t.answered r tyMREAD stOK (wordBytes (readWords .smpm nw.toNat addr.toNat
        { s with dev := cntTake au.mcnt.toNat (keep r tyMREAD s.dev) }).1) := by
  have hnw : nw.toNat ≠ 0 := fun k => h0 (BitVec.eq_of_toNat_eq k)
  refine answers_answer (c := .mread r au.sid au.mcnt addr nw) rfl h ht ((if_neg (mread_bounds h4 hnw h1 h2)).trans
    (withSession_runs (o.found tyMREAD) ha o.cnt)) ?_ ?_ id
  · exact (answerTo_congr (congrArg NetSt.kept (readWords_nt _ _ _ _))).trans (answerTo_cntTake _ r tyMREAD s.dev)
  · exact quiet_readWords _ _ _ _ (quiet_cntTake _ r tyMREAD s.dev)

theorem mwrite_writes (ha : x.auth = true) (addr : BitVec 32) (words : List Word)
    (ht : s.takes r tyMWRITE (.mwrite r au addr words)) (h4 : addr.toNat % 4 = 0) (h0 : words ≠ [])
    (h1 : words.length ≤ 64) (h2 : addr.toNat + 4 * words.length ≤ 2 ^ 32) : Answers (.mwrite r au addr words) s fun t =>
      let done := (writeRegs .smpm addr.toNat words (cntTake au.mcnt.toNat (keep r tyMWRITE s.dev))).1
      if sigOk x r tyMWRITE (authBytes au ++ bytesBE 4 addr.toNat ++ bytesBE 2 words.length ++ bytesBE 2 0 ++
          wordBytes words) au s.dev = true then
        t.answered r tyMWRITE (if done = words.length then stOK else stREFUSED) (bytesBE 2 done)
      else t.answered r tyMWRITE stAUTHFAIL [] := by
  have hdo : smpDo true (.mwrite r au addr words) { s with dev := keep r tyMWRITE s.dev } = _ :=
    if_neg (by have := List.length_pos_iff.mpr h0; omega)
  refine answers_signed (c := .mwrite r au addr words) o rfl h ht hdo (.inl ha) rfl
    ((answerTo_congr (congrArg NetSt.kept (writeRegs_nt _ _ _ _))).trans (answerTo_cntTake _ r tyMWRITE s.dev))
    (quiet_trans (quiet_cntTake _ r tyMWRITE s.dev) (quiet_writeRegs _ _ _ _)) id fun _ hans _ => hans

theorem mclose_closes (ha : x.auth = true) (ht : s.takes r tyMCLOSE (.mclose r au)) : Answers (.mclose r au) s fun t =>
    if sigOk x r tyMCLOSE (authBytes au) au s.dev = true then
      t.dev.nt.sess = none ∧ t.dev.get NT_STAT_SESS = 0 ∧ t.answered r tyMCLOSE stOK []
    else t.answered r tyMCLOSE stAUTHFAIL [] := by
  refine answers_signed (c := .mclose r au) (u := s) (f := fun s => { s with dev := answer r tyMCLOSE stOK [] (sessEnd s.dev) }) o rfl h ht rfl (.inl ha) rfl
    ((answerTo_sessEnd r tyMCLOSE _).trans (answerTo_cntTake _ r tyMCLOSE s.dev))
    (quiet_trans (quiet_cntTake _ r tyMCLOSE s.dev) (quiet_of_frame (frame_sessEnd netCalm (frame_refl _))))
    (fun hans => ⟨?_, ?_, hans⟩) fun _ hans _ => hans
  · rw [tripOutRelease_nt, answer_sess]
    exact sessEnd_sess _
  · rw [tripOutRelease_get _ _ (by decide), (answer_frame r _ _ _ _).get NT_STAT_SESS id]
    exact sessEnd_shown _

end owned

/-- Settles O51, by the answer of each request and the end of a session. -/
theorem smpMaintenance : Obligations.SmpMaintenance := fun r _ h =>
  ⟨mopen_opens h r,
    fun _ _ hs hi ha hu hk => have o := Owned.mk hs hi ha hu hk
      ⟨mauth_authenticates h o, fun hx => ⟨mread_reads h o hx, mwrite_writes h o hx, mclose_closes h o hx⟩⟩,
    mread_unopened h r, session_times_out h⟩

end Sys2Proof.Machine
end

section
/-! PROOFS. The transfer of an image into the inactive bank (O52). -/

namespace Sys2Proof.Machine

variable {d e : Dev} {s : State} {r : Req}

/-! ## Opening a transfer -/

/-- The transfer into a bank begins with its erase. -/
def xferOpened (b : Bool) (density : Nat) (ok : Bool) (d : Dev) : Dev :=
  let d := (d.onNt fun n => { n with xfer := some ⟨b, [], 0, false, density, ok, 0, [], false⟩ }).send (.imgErase b)
  ((d.put GL_IMGWR_STATE 1).put GL_IMGWR_CAUSE 0).put GL_IMGWR_PROG 0

theorem frame_xferOpened {W : Nat → Prop} {S : Part → Prop} (N : NetRoom W S) (b : Bool) (density : Nat) (ok : Bool)
    (h : Frame W S d e) : Frame W S d (xferOpened b density ok e) :=
  frame_put _ _ N.imgwr (frame_put _ _ N.imgwr (frame_put _ _ N.imgwr (frame_send _ N.sent (frame_onNt N _ h))))

theorem xferOpened_state (b : Bool) (density : Nat) (ok : Bool) (d : Dev) : (xferOpened b density ok d).get GL_IMGWR_STATE = 1 := by
  unfold xferOpened
  extract_lets sent
  rw [get_put_disj _ GL_IMGWR_PROG GL_IMGWR_STATE _ (by decide) (by decide),
    get_put_disj _ GL_IMGWR_CAUSE GL_IMGWR_STATE _ (by decide) (by decide), get_put_lt _ _ _ (by decide) (by decide)]

theorem xferOpened_kept (b : Bool) (density : Nat) (ok : Bool) (d : Dev) : (xferOpened b density ok d).nt.kept = d.nt.kept := rfl

/-- What IOPEN does in its session. -/
def iopened (r : Req) (ok : Bool) (density : Nat) (s : State) : State :=
  let d := s.dev
  if ¬ d.flag NT_MNTCFG_IMGEN ∨ d.nt.xfer.isSome ∨ ¬ bankOk ⟨ok, density, []⟩ then { s with dev := answer r tyIOPEN stSTATE [] d }
  else
    let b := !d.flag GL_IMGSTAT_BANK
    { s with dev := answer r tyIOPEN stOK (bytesBE 1 (b2n b)) (xferOpened b density ok d), flash := imgSet s.flash b [] }

theorem iopened_eq {density : Nat} {ok b : Bool} (hi : s.dev.flag NT_MNTCFG_IMGEN = true) (hn : s.dev.nt.xfer = none)
    (hk : bankOk ⟨ok, density, []⟩ = true) (hb : (!s.dev.flag GL_IMGSTAT_BANK) = b) : iopened r ok density s =
      { s with dev := answer r tyIOPEN stOK (bytesBE 1 (b2n b)) (xferOpened b density ok s.dev), flash := imgSet s.flash b [] } := by
  subst hb
  refine if_neg ?_
  rw [hi, hn, hk]
  decide

section owned
variable {x : Session} {au : Auth} (h : s.awake) (o : Owned x r au s.dev) (ha : x.auth = true)
include h o ha

theorem iopen_opens (density : Nat) (ht : s.takes r tyIOPEN (.iopen r au true density)) (hi : s.dev.flag NT_MNTCFG_IMGEN = true)
    (hn : s.dev.nt.xfer = none) (hb : bankOk ⟨true, density, []⟩ = true) : Answers (.iopen r au true density) s fun t =>
      if sigOk x r tyIOPEN (authBytes au) au s.dev = true then
        t.dev.get GL_IMGWR_STATE = 1 ∧ (t.dev.nt.xfer.map fun y => y.bankB) = some (!s.dev.flag GL_IMGSTAT_BANK) ∧
          t.flash = imgSet s.flash (!s.dev.flag GL_IMGSTAT_BANK) []
      else t.answered r tyIOPEN stAUTHFAIL [] ∧ t.dev.nt.xfer = none := by
  generalize hbank : (!s.dev.flag GL_IMGSTAT_BANK) = b
  have hto : answerTo r tyIOPEN (xferOpened b density true (cntTake au.mcnt.toNat (keep r tyIOPEN s.dev))) = [r] :=
    (answerTo_congr (xferOpened_kept b density true _)).trans (answerTo_cntTake _ r tyIOPEN s.dev)
  have hq : Quiet s.dev (xferOpened b density true (cntTake au.mcnt.toNat (keep r tyIOPEN s.dev))) :=
    quiet_of_frame (frame_xferOpened netCalm _ _ _ (frame_cntTake netCalm _ (frame_keep netCalm _ _ (frame_refl _))))
  have hopen := iopened_eq (r := r) (s := { s with dev := cntTake au.mcnt.toNat (keep r tyIOPEN s.dev) }) hi hn hb hbank
  refine answers_signed (c := .iopen r au true density) (u := { s with flash := imgSet s.flash b [] })
    (f := iopened r true density) o rfl h ht rfl (.inl ha) hopen hto hq (fun _ => ⟨?_, ?_, rfl⟩) fun _ hans hx => ⟨hans, hx hn⟩
  · exact (tripOutRelease_get _ _ (by decide)).trans (((answer_frame r _ _ _ _).get GL_IMGWR_STATE id).trans (xferOpened_state _ _ _ _))
  · exact congrArg (Option.map fun y => y.bankB) ((congrArg NetSt.xfer (tripOutRelease_nt _)).trans
      (answer_net NetSt.xfer (fun _ _ => rfl) _ _ _ _ _))

/-! ## Data -/

/-- Data at NEXT joins the transfer, and its request waits. -/
def dataTaken (r : Req) (data : List Byte) (d : Dev) : Dev :=
  onXfer (fun x => { x with data := x.data ++ data, waiting := x.waiting ++ [(r, x.data.length + data.length)] }) d

omit h o ha in
theorem onXfer_xfer {y : Xfer} (g : Xfer → Xfer) (hy : d.nt.xfer = some y) : (onXfer g d).nt.xfer = some (g y) :=
  congrArg (Option.map g) hy

omit h o ha in
/-- With its header checked, a transfer takes data as it comes. -/
theorem idataNext_eq {y : Xfer} (data : List Byte) (hy : s.dev.nt.xfer = some y) (hdr : y.hdrOk = true) :
    idataNext r data s = { s with dev := dataTaken r data s.dev } := by
  have hx : (dataTaken r data s.dev).nt.xfer = _ := onXfer_xfer _ hy
  show xferHeader { s with dev := dataTaken r data s.dev } = _
  rw [xferHeader, hx]
  exact if_pos (.inl hdr)

omit h in
/-- Data at NEXT of a transfer whose header is checked. -/
theorem idataDo_next {y : Xfer} {data : List Byte} (hy : s.dev.nt.xfer = some y) (hst : s.dev.get GL_IMGWR_STATE = 2)
    (hdr : y.hdrOk = true) (h0 : data ≠ []) (h1 : data.length ≤ 1024) (h4 : data.length % 4 = 0)
    (hfit : y.data.length + data.length ≤ y.imgLen) :
    idataDo r au.sid.toNat au.mcnt.toNat y.data.length data { s with dev := keep r tyIDATA s.dev } =
      { s with dev := dataTaken r data (cntTake au.mcnt.toNat (keep r tyIDATA s.dev)) } := by
  have hpos : 0 < data.length := List.length_pos_iff.mpr h0
  have hx : (cntTake au.mcnt.toNat (keep r tyIDATA s.dev)).nt.xfer = some y := hy
  have hstate : (cntTake au.mcnt.toNat (keep r tyIDATA s.dev)).get GL_IMGWR_STATE = 2 := hst
  rw [idataDo]
  dsimp only
  rw [if_neg (by omega), withSession_runs (s := { s with dev := keep r tyIDATA s.dev }) (o.found tyIDATA) ha o.cnt]
  generalize cntTake au.mcnt.toNat (keep r tyIDATA s.dev) = d at *
  dsimp only
  rw [hx]
  dsimp only
  rw [if_neg (by rw [hstate]; decide), if_neg (by omega), if_neg (not_not_intro rfl), if_pos hdr, if_neg (by simp [h4, hfit])]
  exact idataNext_eq (s := { s with dev := d }) data hx hdr

theorem idata_taken {y : Xfer} {data : List Byte}
    (ht : s.takes r tyIDATA (.idata r au.sid au.mcnt (BitVec.ofNat 32 y.data.length) data)) (hy : s.dev.nt.xfer = some y)
    (hst : s.dev.get GL_IMGWR_STATE = 2) (hdr : y.hdrOk = true) (h0 : data ≠ []) (h1 : data.length ≤ 1024) (h4 : data.length % 4 = 0)
    (hfit : y.data.length + data.length ≤ y.imgLen) (hlt : y.data.length < 2 ^ 32) :
    Answers (.idata r au.sid au.mcnt (BitVec.ofNat 32 y.data.length) data) s fun t =>
      (t.dev.nt.xfer.map fun z => z.data) = some (y.data ++ data) := by
  have hoff : (BitVec.ofNat 32 y.data.length).toNat = y.data.length := by rw [BitVec.toNat_ofNat, Nat.mod_eq_of_lt hlt]
  have hu := idataDo_next o ha hy hst hdr h0 h1 h4 hfit
  rw [← hoff] at hu
  have hx : (cntTake au.mcnt.toNat (keep r tyIDATA s.dev)).nt.xfer = some y := hy
  refine answers_takes (c := .idata r au.sid au.mcnt (BitVec.ofNat 32 y.data.length) data) rfl h ht hu ?_ ?_
  · exact quiet_trans (quiet_cntTake _ r tyIDATA s.dev) (quiet_of_frame (frame_onXfer netCalm _ (frame_refl _)))
  · exact congrArg (Option.map fun z => z.data) ((congrArg NetSt.xfer (tripOutRelease_nt _)).trans (onXfer_xfer _ hx))

end owned

/-! ## Pages -/

theorem idataReady_frame (d : Dev) : Frame (fun _ => False) answerParts d (idataReady d) := by
  unfold idataReady
  split
  · exact frame_refl d
  · exact frame_ite (frame_refl d) (frame_trans (frame_setNt _ (.inr rfl) (frame_refl d)) (answers_frame _ _ _ _ _ _))

/-- The requests whose pages have been programmed are answered; the transfer goes on. -/
theorem idataReady_prog {y : Xfer} (hy : d.nt.xfer = some y) : ((idataReady d).nt.xfer.map fun z => z.prog) = some y.prog := by
  rw [idataReady, hy]
  dsimp only
  split
  · rw [hy]
    rfl
  · rw [answers_net NetSt.xfer (fun _ _ => rfl), onXfer_xfer _ hy]
    rfl

/-- A page has been programmed and SUP1 takes note. -/
def pageNoted (y : Xfer) (d : Dev) : Dev :=
  let p := pageEnd y
  let d := idataReady ((onXfer (fun x => { x with prog := p }) (onXfer (fun x => { x with late := false }) d)).put GL_IMGWR_PROG (p / 256))
  if y.hdrOk ∧ y.imgLen ≤ p then d.put GL_IMGWR_STATE 3 else d

theorem xferGo_asleep (hr : supRuns 1 d = false) : xferGo d = d := by
  unfold xferGo
  split
  · rfl
  · exact if_pos (.inr fun k => Bool.false_ne_true (hr.symm.trans k))

theorem xferGo_erased {y : Xfer} (hy : d.nt.xfer = some y) (hl : y.late = true) (hr : supRuns 1 d = true)
    (hst : d.get GL_IMGWR_STATE = 1) : xferGo d = (onXfer (fun x => { x with late := false }) d).put GL_IMGWR_STATE 2 := by
  rw [xferGo, hy]
  dsimp only
  rw [if_neg (by simp [hl, hr])]
  exact if_pos hst

theorem xferGo_page {y : Xfer} (hy : d.nt.xfer = some y) (hl : y.late = true) (hr : supRuns 1 d = true)
    (hst : d.get GL_IMGWR_STATE = 2) : xferGo d = pageNoted y d := by
  have hne : ¬ (onXfer (fun x => { x with late := false }) d).get GL_IMGWR_STATE = 1 := fun k => by
    have : (2 : Nat) = 1 := hst.symm.trans k
    omega
  rw [xferGo, hy]
  dsimp only
  rw [if_neg (by simp [hl, hr])]
  exact if_neg hne

theorem pageNoted_shows {y z : Xfer} (hz : d.nt.xfer = some z) (hst : d.get GL_IMGWR_STATE = 2) (hdr : y.hdrOk = true) :
    ((pageNoted y d).nt.xfer.map fun z => z.prog) = some (pageEnd y) ∧
      (pageNoted y d).get GL_IMGWR_STATE = if y.imgLen ≤ pageEnd y then 3 else 2 := by
  unfold pageNoted
  extract_lets p ready
  have hput : ((onXfer (fun x => { x with prog := p }) (onXfer (fun x => { x with late := false }) d)).put GL_IMGWR_PROG
      (p / 256)).nt.xfer = _ := onXfer_xfer _ (onXfer_xfer _ hz)
  have hprog : (ready.nt.xfer.map fun z => z.prog) = some p := idataReady_prog hput
  have hstate : ready.get GL_IMGWR_STATE = 2 :=
    ((idataReady_frame _).get GL_IMGWR_STATE id).trans ((get_put_disj _ GL_IMGWR_PROG GL_IMGWR_STATE _ (by decide) (by decide)).trans hst)
  by_cases hp : y.imgLen ≤ p
  · rw [if_pos ⟨hdr, hp⟩, if_pos hp]
    exact ⟨hprog, get_put_lt _ _ _ (by decide) (by decide)⟩
  · rw [if_neg fun k => hp k.2, if_neg hp]
    exact ⟨hprog, hstate⟩

/-! ## The bank is erased -/

theorem erase_done (h : s.awake) {y : Xfer} (hy : s.dev.nt.xfer = some y) (hst : s.dev.get GL_IMGWR_STATE = 1) :
    Answers .imageEraseDone s fun t => t.dev.get GL_IMGWR_STATE = (if supRuns 1 s.dev = true then 2 else 1) := by
  have herased : imageErased s.dev = xferGo (onXfer (fun x => { x with late := true }) s.dev) :=
    if_pos ⟨by rw [hy]; rfl, hst⟩
  have hf : Frame calmRegs calmParts s.dev (imageErased s.dev) := by
    rw [herased]
    exact frame_xferGo netCalm (frame_onXfer netCalm _ (frame_refl _))
  refine answers_running rfl h (quiet_of_frame hf) ((tripOutRelease_get _ _ (by decide)).trans ?_)
  rw [herased]
  cases hr : supRuns 1 s.dev with
  | true =>
    rw [xferGo_erased (onXfer_xfer _ hy) rfl hr hst]
    exact get_put_lt _ _ _ (by decide) (by decide)
  | false =>
    rw [xferGo_asleep (d := onXfer (fun x => { x with late := true }) s.dev) hr]
    exact hst

/-! ## A page is programmed -/

/-- The device once a page of the bank has been programmed. -/
def pageSent (y : Xfer) (d : Dev) : Dev := onXfer (fun x => { x with late := true })
  (d.send (.imgProgram y.bankB y.prog (slice y.data y.prog (pageEnd y - y.prog))))

theorem pageDone_eq {y : Xfer} (back : Option (List Byte)) (hy : s.dev.nt.xfer = some y) (hst : s.dev.get GL_IMGWR_STATE = 2)
    (hp : y.prog < y.data.length) (hl : y.late = false) : pageDone ⟨y.bankB, back⟩ false s =
      { s with dev := xferGo (pageSent y s.dev)
               flash := imgSet s.flash y.bankB (imgPut (imgOf s.flash y.bankB) y.prog
                 (back.getD (slice y.data y.prog (pageEnd y - y.prog)))) } := by
  rw [pageDone, hy]
  dsimp only
  rw [if_neg (by simp [hst, hp, hl])]
  rfl

theorem page_done (h : s.awake) {y : Xfer} (hy : s.dev.nt.xfer = some y) (back : Option (List Byte))
    (hst : s.dev.get GL_IMGWR_STATE = 2) (hp : y.prog < y.data.length) (hdr : y.hdrOk = true) (hl : y.late = false) :
    Answers (.pageProgramDone ⟨y.bankB, back⟩ false) s fun t =>
      t.flash = imgSet s.flash y.bankB (imgPut (imgOf s.flash y.bankB) y.prog
        (back.getD (slice y.data y.prog (pageEnd y - y.prog)))) ∧
      (supRuns 1 s.dev = true → (t.dev.nt.xfer.map fun z => z.prog) = some (pageEnd y) ∧
        t.dev.get GL_IMGWR_STATE = if y.imgLen ≤ pageEnd y then 3 else 2) ∧
      (supRuns 1 s.dev = false → (t.dev.nt.xfer.map fun z => z.prog) = some y.prog ∧ t.dev.get GL_IMGWR_STATE = 2) := by
  have heq := pageDone_eq back hy hst hp hl
  have hx : (pageSent y s.dev).nt.xfer = _ := onXfer_xfer (fun x => { x with late := true }) hy
  have hf : Frame calmRegs calmParts s.dev (xferGo (pageSent y s.dev)) :=
    frame_xferGo netCalm (frame_onXfer netCalm _ (frame_send _ trivial (frame_refl _)))
  refine answers_wholeRunning (f := pageDone ⟨y.bankB, back⟩ false) rfl h ?_ ?_ <;> rw [heq]
  · exact quiet_of_frame hf
  · refine ⟨rfl, fun hr => ?_, fun hr => ?_⟩
    · rw [tripOutRelease_nt, tripOutRelease_get _ _ (by decide), xferGo_page hx rfl hr hst]
      exact pageNoted_shows hx hst hdr
    · rw [tripOutRelease_nt, tripOutRelease_get _ _ (by decide), xferGo_asleep (d := pageSent y s.dev) hr, hx]
      exact ⟨rfl, hst⟩

/-! ## The image is verified -/

theorem frame_xferFail {W : Nat → Prop} {S : Part → Prop} (N : NetRoom W S) (x : Xfer) (cause : Nat) (s : State) :
    Frame W S s.dev (xferFail x cause s).dev :=
  frame_foldl _ _ (fun _ _ _ hd => frame_answer N _ _ _ _ hd) (frame_put _ _ N.imgwr (frame_put _ _ N.imgwr
    (frame_onNt N _ (frame_send _ N.sent (frame_refl _)))))

/-- A transfer that fails has ended, and its bank has lost its first sector. -/
theorem xferFail_shows (x : Xfer) (cause : Nat) (s : State) : (xferFail x cause s).dev.nt.xfer = none ∧
    (xferFail x cause s).dev.get GL_IMGWR_STATE = 5 ∧
    (xferFail x cause s).flash = imgSet s.flash x.bankB (imgSector (imgOf s.flash x.bankB)) := by
  refine ⟨answers_net NetSt.xfer (fun _ _ => rfl) _ _ _ _ _ _, ?_, rfl⟩
  refine ((answers_frame _ _ _ _ _ _).get GL_IMGWR_STATE id).trans ?_
  rw [get_put_disj _ GL_IMGWR_CAUSE GL_IMGWR_STATE _ (by decide) (by decide), get_put_lt _ _ _ (by decide) (by decide)]

/-- The cause of the verdict on a bank, 0 if it passes. -/
def verdict (b : Bank) (d : Dev) : Nat := if bankCause b ≠ 0 then bankCause b else (bodyCheck d.su.keys b d).1

theorem verdict_zero (b : Bank) (d : Dev) : verdict b d = 0 ↔ bankCause b = 0 ∧ (bodyCheck d.su.keys b d).1 = 0 := by
  unfold verdict
  split
  next h => exact ⟨fun k => absurd k h, fun k => absurd k.1 h⟩
  next h => exact ⟨fun k => ⟨not_not.mp h, k⟩, fun k => k.2⟩

/-- The bank that a transfer has written. -/
def written (y : Xfer) (s : State) : Bank := ⟨y.sfdpOk, y.density, imgOf s.flash y.bankB⟩

theorem imageVerified_eq {y : Xfer} (hy : s.dev.nt.xfer = some y) (hst : s.dev.get GL_IMGWR_STATE = 3) (hr : supRuns 1 s.dev = true) :
    imageVerified s = if verdict (written y s) s.dev = 0 then
      { s with dev := (s.dev.onNt fun n => { n with xfer := none }).put GL_IMGWR_STATE 4 }
    else xferFail y (verdict (written y s) s.dev) s := by
  rw [imageVerified, hy]
  dsimp only
  rw [if_neg (by simp [hst, hr])]
  rfl

theorem verify_done (h : s.awake) {y : Xfer} (hy : s.dev.nt.xfer = some y) (hst : s.dev.get GL_IMGWR_STATE = 3)
    (hr : supRuns 1 s.dev = true) : Answers .imageVerifyDone s fun t => t.dev.nt.xfer = none ∧
      if bankCause (written y s) = 0 ∧ (bodyCheck s.dev.su.keys (written y s) s.dev).1 = 0 then
        t.dev.get GL_IMGWR_STATE = 4 ∧ t.flash = s.flash
      else t.dev.get GL_IMGWR_STATE = 5 ∧ t.flash = imgSet s.flash y.bankB (imgSector (imgOf s.flash y.bankB)) := by
  have heq := imageVerified_eq hy hst hr
  by_cases hv : verdict (written y s) s.dev = 0
  · simp only [if_pos ((verdict_zero _ _).mp hv)]
    rw [if_pos hv] at heq
    refine answers_wholeRunning (f := imageVerified) rfl h ?_ ?_ <;> rw [heq]
    · exact quiet_of_frame (frame_put _ _ netCalm.imgwr (frame_onNt netCalm _ (frame_refl _)))
    · exact ⟨congrArg NetSt.xfer (tripOutRelease_nt _), (tripOutRelease_get _ _ (by decide)).trans
        (get_put_lt _ _ _ (by decide) (by decide)), rfl⟩
  · simp only [if_neg fun k => hv ((verdict_zero _ _).mpr k)]
    rw [if_neg hv] at heq
    obtain ⟨hx, hstate, hflash⟩ := xferFail_shows y (verdict (written y s) s.dev) s
    refine answers_wholeRunning (f := imageVerified) rfl h ?_ ?_ <;> rw [heq]
    · exact quiet_of_frame (frame_xferFail netCalm _ _ _)
    · exact ⟨(congrArg NetSt.xfer (tripOutRelease_nt _)).trans hx, (tripOutRelease_get _ _ (by decide)).trans hstate, hflash⟩

/-- Settles O52, by the steps of a transfer. -/
theorem imageTransfer : Obligations.ImageTransfer := fun _ _ h =>
  ⟨fun _ _ hs hi ha hu hx hk => have o := Owned.mk hs hi ha hu hk
      ⟨iopen_opens h o hx, fun _ _ => idata_taken h o hx⟩,
    fun _ hy => ⟨erase_done h hy, page_done h hy, verify_done h hy⟩⟩

end Sys2Proof.Machine
end

section
/-! PROOFS. Telemetry, subscriptions, events and status (O50). -/

namespace Sys2Proof.Machine

variable {d e : Dev} {s : State}

/-! ## Time passes beside the network -/

section time
variable (f : NetSt → NetSt)

theorem slewTaken_onNt (x : Int) (d : Dev) : slewTaken x (d.onNt f) = (slewTaken x d).onNt f := by
  unfold slewTaken
  split <;> rfl

theorem alignShow_onNt (k : Int) (d : Dev) : alignShow k (d.onNt f) = (alignShow k d).onNt f := by
  unfold alignShow
  split <;> rfl

theorem stepsPass_onNt (n : Nat) (d : Dev) : stepsPass n (d.onNt f) = (stepsPass n d).onNt f := by
  unfold stepsPass
  extract_lets p k u _ _ e p' k' u' _ _ e'
  exact (apply_ite (fun x : Dev => x.onNt f) (k' = 0) e' (e'.putS PL_SCTL_PHSCNT (e'.getS PL_SCTL_PHSCNT + u'))).symm

theorem ticksRun_onNt (n : Nat) (x : Int) (d : Dev) : ticksRun n x (d.onNt f) = (ticksRun n x d).onNt f := by
  unfold ticksRun
  rw [slewTaken_onNt]
  extract_lets r k e _ r' k' e' _
  exact alignShow_onNt f k' { e' with tm := { e'.tm with label := (((e'.nowTick + n) * 2 ^ 33 : Nat) + (r' - k' * 2 ^ 24) : Int).toNat } }

theorem ticksPass_onNt (t : Nat) (d : Dev) : ticksPass t (d.onNt f) = (ticksPass t d).onNt f := by
  have hcond : (¬ (d.onNt f).timeRuns = true ∨ t ≤ (d.onNt f).nowTick) = (¬ d.timeRuns = true ∨ t ≤ d.nowTick) := rfl
  unfold ticksPass
  dsimp only
  by_cases h : ¬ d.timeRuns = true ∨ t ≤ d.nowTick
  · rw [if_pos h, if_pos (hcond ▸ h)]
  · rw [if_neg h, if_neg (hcond ▸ h)]
    have hn : (d.onNt f).nowTick = d.nowTick := rfl
    rw [hn, stepsPass_onNt]
    rw [show slewTicks (t - d.nowTick) (d.onNt f) = slewTicks (t - d.nowTick) d from rfl,
      show ∀ n, slewIn n (d.onNt f) = slewIn n d from fun _ => rfl, ticksRun_onNt,
      show ∀ n e, slewIn n (Dev.onNt e f) = slewIn n e from fun _ _ => rfl, ticksRun_onNt, ticksRun_onNt]

theorem at_onNt (d : Dev) (t : Nat) : (d.onNt f).at_ t = (d.at_ t).onNt f := by
  show ({ d.onNt f with tm := (ticksPass _ (d.onNt f)).tm, regs := (ticksPass _ (d.onNt f)).regs } : Dev) = _
  rw [ticksPass_onNt]
  rfl

end time

/-! ## Messages of the device -/

/-- The message of a type that the device sends next. -/
def ownMessage (typ : Nat) (body : List Byte) (d : Dev) : List Byte :=
  smpMsg typ 0 (if d.flag NT_SMPCFG_DUP then 2 else 0) 0 d.nt.dseq body

/-- The next message has the next number. -/
def numbered (d : Dev) : Dev := d.onNt fun n => { n with dseq := (n.dseq + 1) % 2 ^ 32 }

/-- A message leaves by a port for the destinations on its subnet. -/
def sendBy (m : List Byte) (dests : List (BitVec 128 × Nat)) (d : Dev) (x : Nat) : Dev :=
  dests.foldl (fun d p => if onSubnet x p.1.toNat d then sendUdp x p.1 p.2 m d else d) d

theorem originate_eq (typ : Nat) (body : List Byte) (dests : List (BitVec 128 × Nat)) (d : Dev) :
    originate typ body dests d = (outPorts d).foldl (sendBy (ownMessage typ body d) dests) (numbered d) := rfl

theorem sendBy_frame (m : List Byte) (dests : List (BitVec 128 × Nat)) (x : Nat) (d : Dev) :
    Frame (fun _ => False) (· = .sent) d (sendBy m dests d x) :=
  frame_foldl _ _ (fun _ _ _ hd => frame_ite (sendUdp_frame _ _ _ _ hd rfl) hd) (frame_refl d)

theorem originate_frame (typ : Nat) (body : List Byte) (dests : List (BitVec 128 × Nat)) (d : Dev) :
    Frame (fun _ => False) (· = .sent) (numbered d) (originate typ body dests d) :=
  frame_foldl _ _ (fun _ _ _ hd => frame_trans hd (sendBy_frame _ _ _ _)) (frame_refl _)

theorem originate_nt (typ : Nat) (body : List Byte) (dests : List (BitVec 128 × Nat)) (d : Dev) :
    (originate typ body dests d).nt = (numbered d).nt := (originate_frame typ body dests d).parts .nt nofun

theorem outPorts_lt {k : Nat} (h : k ∈ outPorts d) : k < 2 := by
  have hup : k ∈ (List.range 2).filter fun x => netUp x d := by
    unfold outPorts at h
    split at h
    · exact h
    · exact List.mem_of_mem_take h
  exact List.mem_range.mp (List.mem_filter.mp hup).1

/-- With one port and one destination on its subnet, the message leaves last. -/
theorem originate_head {typ k : Nat} {body : List Byte} {a : BitVec 128} {udp : Nat} (h : outPorts d = [k])
    (hs : onSubnet k a.toNat d = true) : (originate typ body [(a, udp)] d).sent.head? =
      some (.smp k (udpHdr k a udp (ownMessage typ body d) d) a udp (ownMessage typ body d)) := by
  have hk : k < 2 := outPorts_lt (by rw [h]; exact List.mem_singleton.mpr rfl)
  have hsame : NetSame d (numbered d) := netSame_onNt _ rfl (netSame_refl d)
  have hon : onSubnet k a.toNat (numbered d) = true := (netSame_onSubnet hk hsame _).trans hs
  have hone : originate typ body [(a, udp)] d = sendUdp k a udp (ownMessage typ body d) (numbered d) := by
    rw [originate_eq, h]
    exact if_pos hon
  rw [hone, sendUdp_head hk, netSame_udpHdr hk hsame]

/-! ## How many messages leave -/

section grows
variable {α : Type} (g : Dev → α → Dev) (I : Dev → Prop) (l : List α)
  (hI : ∀ e, ∀ a ∈ l, I e → I (g e a) ∧ e.sent.length ≤ (g e a).sent.length)
include hI

theorem foldl_sent_le (h : I d) : I (l.foldl g d) ∧ d.sent.length ≤ (l.foldl g d).sent.length :=
  List.foldlRecOn (motive := fun e => I e ∧ d.sent.length ≤ e.sent.length) l g ⟨h, le_rfl⟩ fun e ⟨he, hle⟩ a ha =>
    ⟨(hI e a ha he).1, hle.trans (hI e a ha he).2⟩

/-- Where one of the steps sends, more has been sent in the end. -/
theorem foldl_sent_lt (p : α → Bool) (hp : ∀ e, ∀ a ∈ l, I e → p a = true → e.sent.length < (g e a).sent.length) (h : I d)
    (ha : l.any p = true) : d.sent.length < (l.foldl g d).sent.length := by
  induction l generalizing d with
  | nil => exact absurd ha Bool.false_ne_true
  | cons a l ih =>
    have hstep := hI d a List.mem_cons_self h
    have hrest := fun e b hb => hI e b (List.mem_cons_of_mem a hb)
    rw [List.any_cons, Bool.or_eq_true] at ha
    rcases ha with ha | ha
    · exact (hp d a List.mem_cons_self h ha).trans_le (foldl_sent_le g I l hrest hstep.1).2
    · exact hstep.2.trans_lt (ih hrest (fun e b hb => hp e b (List.mem_cons_of_mem a hb)) hstep.1 ha)

end grows

theorem sendUdp_longer (x : Nat) (a : BitVec 128) (udp : Nat) (bs : List Byte) (d : Dev) :
    d.sent.length < (sendUdp x a udp bs d).sent.length := by
  unfold sendUdp
  extract_lets asked
  have hasked : d.sent.length ≤ asked.sent.length := by
    show d.sent.length ≤ (ite _ _ (ite _ _ _) : Dev).sent.length
    split
    · exact le_rfl
    · split <;> exact Nat.le_succ _
  exact Nat.lt_succ_of_le hasked

section port
variable {x : Nat} (hx : x < 2) (m : List Byte) (dests : List (BitVec 128 × Nat))

theorem sendBy_step (e : Dev) (p : BitVec 128 × Nat) (he : NetSame d e) :
    NetSame d (if onSubnet x p.1.toNat e then sendUdp x p.1 p.2 m e else e) ∧
      e.sent.length ≤ (if onSubnet x p.1.toNat e then sendUdp x p.1 p.2 m e else e).sent.length := by
  split
  · exact ⟨netSame_sendUdp _ _ _ _ he, (sendUdp_longer _ _ _ _ _).le⟩
  · exact ⟨he, le_rfl⟩

theorem sendBy_le (he : NetSame d e) : NetSame d (sendBy m dests e x) ∧ e.sent.length ≤ (sendBy m dests e x).sent.length :=
  foldl_sent_le _ (NetSame d) dests (fun f p _ hf => sendBy_step m f p hf) he

include hx in
theorem sendBy_lt (he : NetSame d e) (h : dests.any (fun p => onSubnet x p.1.toNat d) = true) :
    e.sent.length < (sendBy m dests e x).sent.length := by
  refine foldl_sent_lt _ (NetSame d) dests (fun f p _ hf => sendBy_step m f p hf) _ (fun f p _ hf hp => ?_) he h
  rw [if_pos ((netSame_onSubnet hx hf _).trans hp)]
  exact sendUdp_longer _ _ _ _ _

end port

/-- A message with a way to a destination leaves. -/
theorem originate_leaves (typ : Nat) (body : List Byte) (h : evtWay d = true) :
    d.sent.length < (originate typ body (evtPeers d) d).sent.length := by
  have hsame : NetSame d (numbered d) := netSame_onNt _ rfl (netSame_refl d)
  rw [originate_eq]
  exact foldl_sent_lt (d := numbered d) _ (NetSame d) _ (fun e x _ he => sendBy_le _ _ he)
    (fun x => (evtPeers d).any fun p => onSubnet x p.1.toNat d)
    (fun e x hx he hp => sendBy_lt (outPorts_lt hx) _ _ he hp) hsame h

/-! ## Reads and subscriptions -/

/-- A read waits for the next boundary. -/
def readWaits (r : Req) (rs : List (Nat × Nat)) (d : Dev) : Dev := d.onNt fun n => { n with treads := n.treads ++ [(r, rs)] }

theorem frame_readWaits {W : Nat → Prop} {S : Part → Prop} (N : NetRoom W S) (r : Req) (rs : List (Nat × Nat)) (h : Frame W S d e) :
    Frame W S d (readWaits r rs e) := frame_onNt N _ h

section request
variable (h : s.awake) (r : Req)
include h

theorem tread_waits (rs : List PointRange) (ht : s.takes r tyTREAD (.tread r rs)) (hf : rangesFit (rangesOf rs) = true) :
    Answers (.tread r rs) s fun t => t.dev.nt.treads = s.dev.nt.treads ++ [(r, rangesOf rs)] := by
  have hu : smpDo true (.tread r rs) { s with dev := keep r tyTREAD s.dev } =
      { s with dev := readWaits r (rangesOf rs) (keep r tyTREAD s.dev) } := if_pos hf
  refine answers_takes (c := .tread r rs) rfl h ht hu ?_ (congrArg NetSt.treads (tripOutRelease_nt _))
  exact quiet_trans (quiet_keep r tyTREAD s.dev) (quiet_of_frame (frame_readWaits netCalm r _ (frame_refl _)))

/-- The subscriptions are replaced and shown. -/
def subscribed (l : List Sub) (d : Dev) : Dev := showSubs (d.onNt fun n => { n with subs := l })

omit h in
theorem subscribed_kept (l : List Sub) (d : Dev) : (subscribed l d).nt.kept = d.nt.kept := rfl

omit h in
theorem frame_subscribed {W : Nat → Prop} {S : Part → Prop} (N : NetRoom W S) (l : List Sub) (k : Frame W S d e) :
    Frame W S d (subscribed l e) := frame_showSubs N (frame_onNt N _ k)

omit h in
theorem at_keep (typ : Nat) (d : Dev) (tk : Nat) : (keep r typ d).at_ tk = keep r typ (d.at_ tk) := at_onNt _ d tk

omit h in
/-- A subscription that the rate allows. -/
theorem tsubDo_first {i intv : Nat} {rs : List (Nat × Nat)} (hi : i ≤ 31) (h0 : intv ≠ 0) (hv : intv ≤ 60000)
    (hf : rangesFit rs = true) (hn : s.dev.nt.subs = []) (hr : rateOk [(pointsIn rs, intv)] = true) : tsubDo r i intv rs s =
      { s with dev := answer r tyTSUB stOK []
                 (subscribed [⟨i, r.port.val, r.addr, r.udp.toNat, intv, rs, s.dev.nowNs, 1, none⟩] s.dev) } := by
  rw [tsubDo]
  dsimp only
  rw [if_neg (by simp [h0, hf]; omega), hn, if_neg (by simp), List.filter_nil, List.map_nil, if_neg (not_not_intro hr)]
  rfl

theorem tsub_kept (i : BitVec 8) (intv : BitVec 16) (rs : List PointRange) (tk : Nat) (ht : s.takes r tyTSUB (.tsub r i intv rs tk))
    (hi : i.toNat ≤ 31) (h0 : intv ≠ 0) (hv : intv.toNat ≤ 60000) (hf : rangesFit (rangesOf rs) = true) (hn : s.dev.nt.subs = [])
    (hr : rateOk [(pointsIn (rangesOf rs), intv.toNat)] = true) : Answers (.tsub r i intv rs tk) s fun t =>
      t.dev.nt.subs = [⟨i.toNat, r.port.val, r.addr, r.udp.toNat, intv.toNat, rangesOf rs, (s.dev.at_ tk).nowNs, 1, none⟩] ∧
        t.answered r tyTSUB stOK [] := by
  have hz : intv.toNat ≠ 0 := fun k => h0 (BitVec.eq_of_toNat_eq k)
  have hdo : smpDo true (.tsub r i intv rs tk) { s with dev := keep r tyTSUB s.dev } =
      tsubDo r i.toNat intv.toNat (rangesOf rs) { s with dev := keep r tyTSUB (s.dev.at_ tk) } := by
    rw [← at_keep]
    rfl
  have hsubs : (keep r tyTSUB (s.dev.at_ tk)).nt.subs = [] := hn
  have hu := hdo.trans (tsubDo_first r (s := { s with dev := keep r tyTSUB (s.dev.at_ tk) }) hi hz hv hf hsubs hr)
  refine answers_answer (c := .tsub r i intv rs tk) rfl h ht hu ?_ ?_ fun ha => ⟨?_, ha⟩
  · exact (answerTo_congr (subscribed_kept _ _)).trans (answerTo_keep r tyTSUB _)
  · exact quiet_of_frame (frame_subscribed netCalm _ (frame_keep netCalm r tyTSUB (frame_at_calm _ tk)))
  · exact (congrArg NetSt.subs (tripOutRelease_nt _)).trans (answer_net NetSt.subs (fun _ _ => rfl) _ _ _ _ _)

omit h in
/-- The owner ends its subscription, which is the last one. -/
theorem tunsubDo_last {i : Nat} {x : Sub} (hi : i ≤ 31) (hn : s.dev.nt.subs = [x]) (hx : x.id = i) (ho : ownsSub r x = true) :
    tunsubDo r i s = { s with dev := answer r tyTUNSUB stOK [] (subscribed [] s.dev) } := by
  have hnone : (s.dev.nt.subs.filter fun y => y.id != i) = [] := by
    rw [hn, List.filter_cons_of_neg (by simp [hx]), List.filter_nil]
  have hany : (s.dev.nt.subs.any fun y => y.id == i && ownsSub r y) = true := by
    rw [hn]
    simp [hx, ho]
  rw [tunsubDo]
  dsimp only
  rw [if_neg (Nat.not_lt.mpr hi), if_pos hany]
  show ({ s with dev := answer r tyTUNSUB stOK [] (subscribed (s.dev.nt.subs.filter fun y => y.id != i) s.dev) } : State) = _
  rw [hnone]

theorem tunsub_ends (i : BitVec 8) (x : Sub) (ht : s.takes r tyTUNSUB (.tunsub r i)) (hi : i.toNat ≤ 31) (hn : s.dev.nt.subs = [x])
    (hx : x.id = i.toNat) (ho : ownsSub r x = true) : Answers (.tunsub r i) s fun t => t.dev.nt.subs = [] ∧
      t.answered r tyTUNSUB stOK [] := by
  have hu := tunsubDo_last r (s := { s with dev := keep r tyTUNSUB s.dev }) hi hn hx ho
  refine answers_answer (c := .tunsub r i) rfl h ht hu ?_ ?_ fun ha => ⟨?_, ha⟩
  · exact (answerTo_congr (subscribed_kept _ _)).trans (answerTo_keep r tyTUNSUB _)
  · exact quiet_of_frame (frame_subscribed netCalm _ (frame_keep netCalm r tyTUNSUB (frame_refl _)))
  · exact (congrArg NetSt.subs (tripOutRelease_nt _)).trans (answer_net NetSt.subs (fun _ _ => rfl) _ _ _ _ _)

end request

/-! ## Deliveries -/

/-- The delivery of a subscription is no longer due. -/
def deliveryOver (id : Nat) (d : Dev) : Dev :=
  d.onNt fun n => { n with subs := n.subs.map fun y => if y.id = id then { y with due := none } else y }

/-- The parts of a delivery leave. -/
def partsSent (id j b : Nat) (x : Sub) (vs : List Word) (d : Dev) : Dev :=
  let ps := partsOf vs
  (ps.zip (List.range ps.length)).foldl (fun d p => originate tyTDELIV (delivPart id p.2 ps.length j b p.1) [(x.addr, x.udp)] d) d

theorem subDeliver_eq {id j b : Nat} {x : Sub} {vs : List Word} (inTime : Bool) (hn : d.nt.subs = [x]) (hx : x.id = id)
    (hd : x.due = some (j, b, vs)) : subDeliver id inTime d =
      if ¬ inTime ∨ ¬ supRuns 1 d ∨ ¬ supRuns 2 d then deliveryOver id d else partsSent id j b x vs (deliveryOver id d) := by
  have hfind : (d.nt.subs.find? fun y => y.id == id) = some x := by rw [hn]; simp [hx]
  rw [subDeliver, hfind]
  dsimp only
  rw [hd]
  rfl

theorem deliveryOver_subs {id : Nat} {x : Sub} (hn : d.nt.subs = [x]) (hx : x.id = id) :
    (deliveryOver id d).nt.subs = [{ x with due := none }] := by
  show d.nt.subs.map _ = _
  rw [hn, List.map_singleton, if_pos hx]

theorem partsSent_subs (id j b : Nat) (x : Sub) (vs : List Word) (d : Dev) : (partsSent id j b x vs d).nt.subs = d.nt.subs :=
  List.foldlRecOn (motive := fun e : Dev => e.nt.subs = d.nt.subs) _ _ rfl fun e he _ _ =>
    (congrArg NetSt.subs (originate_nt _ _ _ e)).trans he

/-- Up to 256 values are one part. -/
theorem partsOf_one {vs : List Word} (h1 : 1 ≤ vs.length) (h2 : vs.length ≤ 256) : partsOf vs = [vs] := by
  have hone : ceilDiv vs.length 256 = 1 := by
    rw [ceilDiv, if_neg (by decide)]
    omega
  rw [partsOf, hone]
  show [(vs.drop (256 * 0)).take 256] = [vs]
  rw [Nat.mul_zero, List.drop_zero, List.take_of_length_le h2]

theorem partsSent_one {id j b : Nat} {x : Sub} {vs : List Word} (h1 : 1 ≤ vs.length) (h2 : vs.length ≤ 256) (d : Dev) :
    partsSent id j b x vs d = originate tyTDELIV (delivPart id 0 1 j b vs) [(x.addr, x.udp)] d := by
  rw [partsSent, partsOf_one h1 h2]
  rfl

theorem delivery_leaves (h : s.awake) (i : Fin 32) (inTime : Bool) (x : Sub) (j b : Nat) (vs : List Word) (hn : s.dev.nt.subs = [x])
    (hx : x.id = i.val) (hd : x.due = some (j, b, vs)) : Answers (.subscriptionDelivery i inTime) s fun t =>
      t.dev.nt.subs = [{ x with due := none }] ∧
        (inTime = false ∨ supRuns 1 s.dev = false ∨ supRuns 2 s.dev = false → t.dev.sent = s.dev.sent) ∧
        (∀ k, inTime = true → supRuns 1 s.dev = true → supRuns 2 s.dev = true → outPorts s.dev = [k] →
          onSubnet k x.addr.toNat s.dev = true → 1 ≤ vs.length → vs.length ≤ 256 →
          t.dev.sent.head? = some (.smp k (udpHdr k x.addr x.udp (ownMessage tyTDELIV (delivPart i.val 0 1 j b vs) s.dev) s.dev)
              x.addr x.udp (ownMessage tyTDELIV (delivPart i.val 0 1 j b vs) s.dev)) ∧
            t.dev.nt.dseq = (s.dev.nt.dseq + 1) % 2 ^ 32) := by
  have heq := subDeliver_eq inTime hn hx hd
  have hsubs := deliveryOver_subs hn hx
  have hsame : NetSame s.dev (deliveryOver i.val s.dev) := netSame_onNt _ rfl (netSame_refl _)
  refine answers_running rfl h (quiet_of_frame (frame_subDeliver netCalm _ _ (frame_refl _))) ?_
  rw [tripOutRelease_nt, tripOutRelease_sent, heq]
  by_cases hskip : ¬ inTime = true ∨ ¬ supRuns 1 s.dev = true ∨ ¬ supRuns 2 s.dev = true
  · rw [if_pos hskip]
    exact ⟨hsubs, fun _ => rfl, fun _ k1 k2 k3 => absurd hskip (by simp [k1, k2, k3])⟩
  · rw [if_neg hskip]
    refine ⟨(partsSent_subs _ _ _ _ _ _).trans hsubs, fun k => absurd (k.imp (by simp) (Or.imp (by simp) (by simp))) hskip,
      fun k _ _ _ hk hs h1 h2 => ?_⟩
    rw [partsSent_one h1 h2, originate_nt]
    refine ⟨?_, rfl⟩
    have hk2 : k < 2 := outPorts_lt (d := s.dev) (by rw [hk]; exact List.mem_singleton.mpr rfl)
    rw [originate_head (d := deliveryOver i.val s.dev) hk ((netSame_onSubnet hk2 hsame _).trans hs), netSame_udpHdr hk2 hsame]
    rfl

/-! ## Events and status -/

/-- The events of one message have left the queue. -/
def eventsTaken (d : Dev) : Dev := { d with fc := { d.fc with evq := d.fc.evq.drop 32 } }

/-- The body of an EVENT message. -/
def eventBody (d : Dev) : List Byte :=
  bytesBE 1 (d.fc.evq.take 32).length ++ bytesBE 3 0 ++ (d.fc.evq.take 32).flatMap eventBytes

theorem eventSend_eq (hq : d.fc.evq ≠ []) (hs : d.mode ≠ modeSTOP) (hl : d.mode ≠ modeLOAD) (he : eventsLeave d = true)
    (h0 : d.fc.evLost = 0) : eventSend d = originate tyEVENT (eventBody d) (evtPeers d) (eventsTaken d) := by
  have hfc : (originate tyEVENT (eventBody d) (evtPeers d) (eventsTaken d)).fc = (eventsTaken d).fc :=
    (originate_frame _ _ _ _).parts .fc nofun
  have hno : ¬ (d.fc.evq.isEmpty = true ∨ d.mode = modeSTOP ∨ d.mode = modeLOAD ∨ ¬ eventsLeave d = true) := by simp [hq, hs, hl, he]
  unfold eventSend
  rw [if_neg hno]
  exact if_pos (.inl ((congrArg FaultSt.evLost hfc).trans h0))

theorem events_leave (h : s.awake) (hq : s.dev.fc.evq ≠ []) (hl : s.dev.mode ≠ modeLOAD) (he : eventsLeave s.dev = true)
    (h0 : s.dev.fc.evLost = 0) : Answers .eventMessageSend s fun t => t.dev.fc.evq = s.dev.fc.evq.drop 32 ∧
      t.dev.nt.dseq = (s.dev.nt.dseq + 1) % 2 ^ 32 ∧
      (∀ k a udp, outPorts s.dev = [k] → evtPeers s.dev = [(a, udp)] → onSubnet k a.toNat s.dev = true →
        t.dev.sent.head? = some (.smp k (udpHdr k a udp (ownMessage tyEVENT (eventBody s.dev) s.dev) s.dev) a udp
          (ownMessage tyEVENT (eventBody s.dev) s.dev))) := by
  have heq := eventSend_eq hq h.2.1 hl he h0
  have hsame : NetSame s.dev (eventsTaken s.dev) := ⟨fun _ _ => rfl, rfl⟩
  have hfc : (originate tyEVENT (eventBody s.dev) (evtPeers s.dev) (eventsTaken s.dev)).fc = (eventsTaken s.dev).fc :=
    (originate_frame _ _ _ _).parts .fc nofun
  refine answers_running rfl h (quiet_of_frame (frame_eventSend netCalm (frame_refl _))) ?_
  rw [tripOutRelease_nt, tripOutRelease_sent, tripOutRelease_fc, heq, originate_nt]
  refine ⟨congrArg FaultSt.evq hfc, rfl, fun k a udp hk hp hs => ?_⟩
  have hk2 : k < 2 := outPorts_lt (d := s.dev) (by rw [hk]; exact List.mem_singleton.mpr rfl)
  rw [hp, originate_head (d := eventsTaken s.dev) hk ((netSame_onSubnet hk2 hsame _).trans hs), netSame_udpHdr hk2 hsame]
  rfl

theorem status_leaves (h : s.awake) (hl : s.dev.live = true) (h1 : s.dev.bit SV_STAT_RUN 1 = true)
    (h2 : s.dev.bit SV_STAT_RUN 2 = true) (he : evtWay s.dev = true) : Answers .statusSend s fun t =>
      t.dev.nt.dseq = (s.dev.nt.dseq + 1) % 2 ^ 32 ∧ s.dev.sent.length < t.dev.sent.length := by
  have heq : statusSend s.dev = originate tySTATUS (statusBody s.dev) (evtPeers s.dev) s.dev := if_pos ⟨hl, h1, h2, he⟩
  refine answers_running rfl h (quiet_of_frame (frame_statusSend netCalm (frame_refl _))) ?_
  rw [tripOutRelease_nt, tripOutRelease_sent, heq, originate_nt]
  exact ⟨rfl, originate_leaves _ _ he⟩

/-- Settles O50, by the answers of the requests and by what the device sends of itself. -/
theorem smpTelemetry : Obligations.SmpTelemetry := fun r _ h =>
  ⟨tread_waits h r, tsub_kept h r, tunsub_ends h r, delivery_leaves h, events_leave h, status_leaves h⟩

end Sys2Proof.Machine
end
